-- ==== Sys2Proof/Word.lean ====
section
/-! DEFINITION. The word types of the manual: 64-bit register words, 512-bit lines and 64-bit byte masks (R27, R64, R80).
A side is a number, 0 for Side A and 1 for Side B, as R13 numbers them. -/

namespace Sys2Proof

/-- A 64-bit control register, general register or descriptor word (R27). -/
abbrev Word := BitVec 64

/-- The 64 bytes of a pool line, byte 0 in bits 7:0 (R64). -/
abbrev Line := BitVec 512

/-- One bit for each byte of a line (R80). -/
abbrev Mask := BitVec 64

end Sys2Proof
end

