-- ==== Sys2Proof/Operand.lean ====
section
/-! DEFINITION. Operands of commands that are one of a few names. -/

namespace Sys2Proof

/-- MetaField and MetaValue of a host message (Table 6-6). -/
inductive Meta where
  | i | s | a | noOp
deriving DecidableEq, Repr

/-- Width of a host BAR access: the 64-bit word, or its low or high half (R27). -/
inductive Half where
  | full | low | high
deriving DecidableEq, Repr

/-- Accesses to a HOST port's configuration and component registers (Table 14-3). -/
inductive CfgAcc where
  | biEnable (on : Bool)
  | maskVector (v : Fin 3)
  | maskFunction
  | uncommit (d : Fin 8)
  | read (off : BitVec 12)
deriving DecidableEq, Repr

/-- Requests on a port's DOE mailbox (R361, R371). -/
inductive DoeMsg where
  | cdat | spdm | ideProgram | ideGo (containment : Bool)
deriving DecidableEq, Repr

/-- Event logs of the memory-device mailbox (Table 14-4). -/
inductive EvLog where
  | informational | warning | failure | fatal | dynamicCapacity
deriving DecidableEq, Repr

/-- The cache levels of Table 12-6. -/
inductive Level where
  | headgate | reservoir | east
deriving DecidableEq, Repr

/-- What a checker reports of a word or slot (R388): no error; mended by its code, with the codeword or word and whether the readback of
R401, if it comes to one, shows an error again; uncorrectable; uncorrectable in the part that names what is held (the slot's TAG and STATE,
the record's header, the staging entry's L); of a slot, the codeword that is uncorrectable (R101), or a STATE that holds a reserved encoding
after correction (R103). -/
inductive Check where
  | good
  | corrected (cw : Fin 8) (again : Bool)
  | bad
  | unreadable
  | codeword (cw : Fin 8)
  | reserved
deriving DecidableEq, Repr

/-- What the checks of a packet on its way report (R344): no error; a word that router `r` of the destination's side mended; a word of a DAT flit that
is uncorrectable; a header, or the payload of another network's packet, that is. -/
inductive NetCheck where
  | good
  | corrected (r : Fin 63)
  | word
  | header
deriving DecidableEq, Repr

/-- What a slot's check comes to: TAG lies in codewords 0 to 4 and STATE in codewords 5 and 6, so that a slot is readable while only codeword 7
is uncorrectable (R101, R397); a reserved STATE counts as an uncorrectable codeword of STATE (R103). -/
def Check.ofSlot : Check → Check
  | .codeword cw => if cw.val ≤ 6 then .unreadable else .bad
  | .reserved => .unreadable
  | c => c

/-- Is the word or slot uncorrectable in any part? -/
def Check.isBad : Check → Bool
  | .good => false
  | .corrected _ _ => false
  | _ => true

/-- A location that a patrol scrubber visits (R399). -/
inductive Loc where
  | slot (sd : Fin 2) (i : BitVec 31)
  | dirStore (sd : Fin 2) (set : BitVec 26)
  | mirror (sd : Fin 2) (set : BitVec 26)
  | twinRec (sd : Fin 2) (bucket : Fin 20132608) (j : Fin 10)
  | placement (sd : Fin 2) (plot : BitVec 27)
  | hgWord (h : Fin 64) (set : Fin 3072) (way : Fin 16)
  | hgTag (h : Fin 64) (set : Fin 3072) (way : Fin 16)
  | dirCache (h : Fin 64) (set : Fin 2048) (way : Fin 4)
  | staging (sd : Fin 2) (n : Fin 32768)
  | program (sd bank : Fin 2) (word : BitVec 18)
deriving DecidableEq, Repr

/-- Who makes a control access (Table 2-6): the Ditchrider, or an engine with the access that its program has made. -/
inductive By where
  | ditch
  | engine (e : Fin 32)
deriving DecidableEq, Repr

/-- Who writes a register (Table 2-6): the Ditchrider, an engine with the access that its program has made, or a host through its port's BAR. -/
inductive Writer where
  | ditch
  | engine (e : Fin 32)
  | host (p : Fin 32) (h : Half)
deriving DecidableEq, Repr

/-- A register write: who makes it, and whether the next command acts in the same cycle (Table 1-9, R32). -/
structure WriteAcc where
  who : Writer
  same : Bool
deriving DecidableEq, Repr

/-- Who reads a register: the Ditchrider, or a host through its port's BAR. What engines read, LD, LDX and WAITEV read. -/
inductive Reader where
  | ditch
  | host (p : Fin 32) (h : Half)
deriving DecidableEq, Repr

/-- A register read: who makes it, and the address's bits 31:3. -/
structure ReadAcc where
  who : Reader
  a : BitVec 29
deriving DecidableEq, Repr

/-- The end of a frame or bank move (R131): the controller, and the slots whose check found an uncorrectable codeword, with that codeword. -/
structure MoveEnd where
  k : Fin 8
  bad : List (BitVec 31 × Fin 8)
deriving DecidableEq, Repr

/-- The words that their codes mended when a call starts (R276): of the ready list, of the call's record. -/
structure CallCe where
  ready : Bool
  record : Bool
deriving DecidableEq, Repr

/-- What a packet carries after its header: the first data word, and what the checks on its way report (R344). -/
structure NetBody where
  d0 : Word
  ck : NetCheck
deriving DecidableEq, Repr

/-- What the sensors read in one sample (R450, R464): 80 temperatures in °C, 40 voltages in mV with 0, 1 or 2 for a reading inside 5 %,
beyond 5 % or beyond 8 % of nominal, 12 rail currents in 0.1 A, each feed's voltage in 0.1 V and current in 0.1 A, and input power in W.
A list that is shorter ends in zeros. -/
structure Sample where
  temps : List (BitVec 8)
  volts : List (BitVec 16 × Fin 3)
  rails : List (BitVec 16)
  vin : BitVec 10 × BitVec 10
  iin : BitVec 10 × BitVec 10
  watts : BitVec 12
deriving DecidableEq, Repr

/-- What the outside world and the hardware give a module-level start: CFGSEL measurement pairs as ratios in ten-thousandths (R417, R418),
good oscillators (R445), hold-up time in ms (R443), the checkers that pass (R410: PD0 and PD1, sides, ports), the stacks whose training and
path test pass, the first failing checker (STRUCT, BTYPE, INST, pattern), cables present, and HOST ports whose PERST# is low. -/
structure StartEnv where
  cfgsel : List (Nat × Nat)
  osc0 : Bool
  osc1 : Bool
  holdUp : Nat
  aonOk : Bool
  sideOk : BitVec 2
  portOk : BitVec 32
  stkOk : BitVec 8
  firstFail : BitVec 8 × BitVec 8 × BitVec 8 × BitVec 6
  present : BitVec 32
  perst : BitVec 32
deriving DecidableEq, Repr

/-- A firmware package as R455 and R456 see it: whether the boot ROM reads its FORMAT, VERSION, SVN, the key-hash slot that its key's hash
equals, whether its signature verifies, the slot that it revokes, the number of its shipped program image, and the newest settings FORMAT
that its firmware reads. -/
structure Package where
  formatOk : Bool
  version : BitVec 32
  svn : BitVec 8
  key : Option (Fin 4)
  sigOk : Bool
  revokes : Option (Fin 4)
  image : Nat
  settings : Nat
deriving DecidableEq, Repr

end Sys2Proof
end

