-- ==== Sys2Proof/Syntax.lean ====
section
/-! DEFINITION. The commands of the module: one constructor for each row of the table of steps. Operands name the port, slice, engine or unit that
the step belongs to, what its message carries, and what the outside world gives it. -/

namespace Sys2Proof

/-- The commands, in the order of the table. -/
inductive Instr where
  /-- MEMRD (R149). A host MemRd arrives at a HOST port tile; it is decoded, checked under R50 and sent to the home slice as RdCur, RdShared or
  RdOwn. -/
  | memRd (p : Fin 32) (tag : BitVec 16) (hpa : BitVec 46) (mv : Meta)
  /-- MEMINV (R149). A host MemInv arrives and is classified as Own, Share, Release or Touch by its MetaValue, then handled at the home. -/
  | memInv (p : Fin 32) (tag : BitVec 16) (hpa : BitVec 46) (mv : Meta)
  /-- MEMINVNT (R149). A host MemInvNT arrives and is handled exactly as MemInv with the same MetaField. -/
  | memInvNt (p : Fin 32) (tag : BitVec 16) (hpa : BitVec 46) (mv : Meta)
  /-- MEMSPECRD (R137). A host MemSpecRd is accepted and takes no action, whether or not it passes the checks. -/
  | memSpecRd (p : Fin 32) (tag : BitVec 16) (hpa : BitVec 46)
  /-- MEMWR (R149). A host full-line write arrives with its data, is classified as WbInv, WbShared or WbKeep, or is taken as snoop data under R339.
  -/
  | memWr (p : Fin 32) (tag : BitVec 16) (hpa : BitVec 46) (mv : Meta) (data : Line) (poison : Bool)
  /-- MEMWRPTL (R149). A host partial write arrives with its byte mask and is handled as MemWr, merged at the slice by read-modify-write. -/
  | memWrPtl (p : Fin 32) (tag : BitVec 16) (hpa : BitVec 46) (mv : Meta) (data : Line) (mask : Mask) (poison : Bool)
  /-- BICONFLICT (R157). A host BIConflict arrives; the module sends BIConflictAck behind every earlier NDR for that line within 2 µs. -/
  | biConflict (p : Fin 32) (pln : BitVec 42)
  /-- BIRSPI (R508). A host BIRspI arrives at the port tile and is matched to an open snoop in the snoop table, or discarded as a protocol error. -/
  | biRspI (p : Fin 32) (pln : BitVec 42)
  /-- BIRSPS (R508). A host BIRspS arrives and is matched against Table 6-17; a response not permitted for the snoop makes the port lost. -/
  | biRspS (p : Fin 32) (pln : BitVec 42)
  /-- BIRSPE (R508). A host BIRspE arrives and is matched against Table 6-17 for the open snoop. -/
  | biRspE (p : Fin 32) (pln : BitVec 42)
  /-- BIRSPIBLK (R508). A host block response arrives for an open BISnpInvBlk and is passed to each of the four lines' home slices as BIRspI. -/
  | biRspIBlk (p : Fin 32) (grp : BitVec 40) (lines : BitVec 4)
  /-- BIRSPSBLK (R508). A host BIRspSBlk arrives; no snoop accepts it, so the port is declared lost. -/
  | biRspSBlk (p : Fin 32) (grp : BitVec 40)
  /-- BIRSPEBLK (R508). A host BIRspEBlk arrives; no snoop accepts it, so the port is declared lost. -/
  | biRspEBlk (p : Fin 32) (grp : BitVec 40)
  /-- HDM_DECODER_COMMIT (R40). The host commits an HDM decoder through CXL.io; the commit fails with the standard error for unsupported options,
  overlap or BI Enable at 0. -/
  | hdmDecoderCommit (p : Fin 32) (d : Fin 8) (base size dpa : BitVec 36) (ways : BitVec 4) (lock other : Bool)
  /-- HOST_CONFIG_ACCESS (R361). The host accesses the port's PCIe/CXL configuration and component registers through CXL.io, such as BI Enable. -/
  | hostConfigAccess (p : Fin 32) (a : CfgAcc)
  /-- DOE_REQUEST (R361). A request on the port's DOE mailbox carries CDAT, SPDM 1.2 or IDE key-management protocol messages. -/
  | doeRequest (p : Fin 32) (k : DoeMsg)
  /-- MEM_IDE_KEY_REFRESH (R371). A MEM port refreshes its IDE keys every 2^32 flits. -/
  | memIdeKeyRefresh (p : Fin 32)
  /-- IDENTIFY (R363). Mailbox command Identify is answered. -/
  | identify (p : Fin 32)
  /-- BACKGROUND_OPERATION_STATUS (R363). Mailbox command Background Operation Status always reports no background operation. -/
  | backgroundOperationStatus (p : Fin 32)
  /-- GET_SUPPORTED_LOGS (R363). Mailbox command Get Supported Logs is answered. -/
  | getSupportedLogs (p : Fin 32)
  /-- GET_LOG (R363). Mailbox command Get Log returns the CEL only. -/
  | getLog (p : Fin 32) (cel : Bool)
  /-- GET_TIMESTAMP (R363). Mailbox command Get Timestamp returns the port's own timestamp. -/
  | getTimestamp (p : Fin 32)
  /-- SET_TIMESTAMP (R363). Mailbox command Set Timestamp sets the port's own timestamp. -/
  | setTimestamp (p : Fin 32) (ns : BitVec 64)
  /-- GET_EVENT_RECORDS (R363). Mailbox command Get Event Records returns General Media and Dynamic Capacity records. -/
  | getEventRecords (p : Fin 32) (l : EvLog)
  /-- CLEAR_EVENT_RECORDS (R363). Mailbox command Clear Event Records clears records from the port's event logs. -/
  | clearEventRecords (p : Fin 32) (l : EvLog) (n : Nat)
  /-- GET_EVENT_INTERRUPT_POLICY (R363). Mailbox command Get Event Interrupt Policy is answered. -/
  | getEventInterruptPolicy (p : Fin 32)
  /-- SET_EVENT_INTERRUPT_POLICY (R363). Mailbox command Set Event Interrupt Policy sets the event-log interrupt policy on vector 2. -/
  | setEventInterruptPolicy (p : Fin 32) (v : BitVec 40)
  /-- GET_FW_INFO (R363). Mailbox command Get FW Info reports one firmware slot. -/
  | getFwInfo (p : Fin 32)
  /-- IDENTIFY_MEMORY_DEVICE (R363). Mailbox command Identify Memory Device reports static capacity 0. -/
  | identifyMemoryDevice (p : Fin 32)
  /-- GET_HEALTH_INFO (R363). Mailbox command Get Health Info is answered. -/
  | getHealthInfo (p : Fin 32)
  /-- GET_ALERT_CONFIGURATION (R363). Mailbox command Get Alert Configuration is answered. -/
  | getAlertConfiguration (p : Fin 32)
  /-- SET_ALERT_CONFIGURATION (R363). Mailbox command Set Alert Configuration sets the port's alert configuration. -/
  | setAlertConfiguration (p : Fin 32) (v : BitVec 64)
  /-- GET_POISON_LIST (R363). Mailbox command Get Poison List returns up to 256 DPAs of poisoned lines in the port's Accepted extents. -/
  | getPoisonList (p : Fin 32)
  /-- GET_DYNAMIC_CAPACITY_CONFIGURATION (R363). Mailbox command Get Dynamic Capacity Configuration reports region 0 under Table 3-1. -/
  | getDynamicCapacityConfiguration (p : Fin 32)
  /-- GET_DYNAMIC_CAPACITY_EXTENT_LIST (R363). Mailbox command Get Dynamic Capacity Extent List returns the port's Accepted extents. -/
  | getDynamicCapacityExtentList (p : Fin 32)
  /-- ADD_DYNAMIC_CAPACITY_RESPONSE (R43). The host's Add Capacity response accepts or declines an Offered extent, making it Accepted or Free. -/
  | addDynamicCapacityResponse (p : Fin 32) (e : Fin 64) (accept : Bool)
  /-- RELEASE_DYNAMIC_CAPACITY (R43). The host releases an extent; the home back-invalidates its held lines and the extent becomes Free, or the
  command fails for an Offered extent. -/
  | releaseDynamicCapacity (p : Fin 32) (e : Fin 64)
  /-- MAILBOX_UNSUPPORTED_COMMAND (R363). Any other mailbox command, including Transfer FW and Activate FW, returns the standard Unsupported code. -/
  | mailboxUnsupportedCommand (p : Fin 32)
  /-- EXTENT_OFFER_TIMEOUT (R43). An Offered extent gets no host response within 1 s; it returns to Free and DECLINED is posted. -/
  | extentOfferTimeout (p : Fin 32) (e : Fin 64)
  /-- MSIX_UNMASK (R364). Unmasking an MSI-X vector or the function sends one message for a pending vector. -/
  | msixUnmask (p : Fin 32) (v : Option (Fin 3))
  /-- CMDQ_ARG_WRITE (R262). A write to an argument word of a command-queue slot stores it, or is dropped whole under R264 if the slot holds an
  untaken descriptor. -/
  | cmdqArgWrite (p : Fin 32) (slot : Fin 64) (a : Fin 7) (h : Half) (v : Word)
  /-- CMDQ_HEADER_WRITE (R262). A header write with the expected PHASE commits the descriptor; with another PHASE it only stores the word. -/
  | cmdqHeaderWrite (p : Fin 32) (slot : Fin 64) (h : Half) (v : Word)
  /-- PT_RESQ_POP (R267). A 64-bit read of PT_RESQ_POP returns and removes the oldest result, or V = 0 on an empty queue. -/
  | ptResqPop (p : Fin 32) (h : Half) (ck : Check)
  /-- PT_RESQ_ADV (R267). Writing PT_RESQ_ADV removes the oldest result entry; nothing happens on an empty queue. -/
  | ptResqAdv (p : Fin 32)
  /-- HOST_BAR_BAD_ACCESS (R27). A host BAR access of an unaccepted size or alignment completes with no effect and counts as a protocol error. -/
  | hostBarBadAccess (p : Fin 32) (write : Bool)
  /-- IO_DMA_READ (R44). A DMA read arrives on an IO port, is mapped by the window table and sent as a non-allocating snooping read once earlier
  posted writes are released. -/
  | ioDmaRead (p : Fin 32) (tag : BitVec 14) (a : BitVec 64) (n : Fin 4097) (ido : Bool) (rid : BitVec 16)
  /-- IO_POSTED_WRITE (R176). A DMA posted write is mapped and issued to its home for the prepare phase. -/
  | ioPostedWrite (p : Fin 32) (a : BitVec 64) (n : Fin 257) (data : BitVec 2048) (en : BitVec 256) (poison ro ido : Bool) (rid : BitVec 16)
  /-- IO_FETCHADD (R368). A PCIe FetchAdd AtomicOp is performed as AMOADD under R154, if the window permits it. -/
  | ioFetchAdd (p : Fin 32) (tag : BitVec 14) (a : BitVec 64) (wide : Bool) (v : Word) (ido : Bool) (rid : BitVec 16)
  /-- IO_SWAP (R368). A PCIe Swap AtomicOp is performed as AMOSWAP under R154. -/
  | ioSwap (p : Fin 32) (tag : BitVec 14) (a : BitVec 64) (wide : Bool) (v : Word) (ido : Bool) (rid : BitVec 16)
  /-- IO_CAS (R368). A 32- or 64-bit PCIe CAS AtomicOp is performed as AMOCAS; a 128-bit CAS completes with UR. -/
  | ioCas (p : Fin 32) (tag : BitVec 14) (a : BitVec 64) (size : Fin 3) (cmp swap : Word) (ido : Bool) (rid : BitVec 16)
  /-- IO_UNSUPPORTED_REQUEST (R368). An I/O request, ATS, PRI or PASID request from the device completes with Unsupported Request. -/
  | ioUnsupportedRequest (p : Fin 32) (tag : BitVec 14)
  /-- ERR_COR (R368). An ERR_COR message from the device is recorded with its Requester ID. -/
  | errCor (p : Fin 32) (rid : BitVec 16)
  /-- ERR_NONFATAL (R368). An ERR_NONFATAL message from the device is recorded with its Requester ID. -/
  | errNonfatal (p : Fin 32) (rid : BitVec 16)
  /-- ERR_FATAL (R368). An ERR_FATAL message from the device is recorded with its Requester ID. -/
  | errFatal (p : Fin 32) (rid : BitVec 16)
  /-- IO_MESSAGE_DISCARDED (R368). An INTx, PM or other message from the device is discarded and counted. -/
  | ioMessageDiscarded (p : Fin 32) (counted : Bool)
  /-- WRITE_PREPARED (R176). The home reports a posted write prepared to the tile; the tile releases it once every earlier write it may not pass is
  released. -/
  | writePrepared (p : Fin 32)
  /-- WRITE_RELEASE (R176). A released posted write is installed at the home and becomes globally visible; a commit goes to the twin. -/
  | writeRelease (h : Fin 64)
  /-- CONFIGURATION_REQUEST (R370). Writing PT_CFGA.GO sends one Type 0 configuration request to the IO device. -/
  | configurationRequest (p : Fin 32) (off : BitVec 12) (be : BitVec 4) (func : Fin 8) (write : Bool)
  /-- CONFIGURATION_COMPLETION (R370). The device's configuration completion arrives and sets STATUS and DATA; a retry status ends with STATUS 2. -/
  | configurationCompletion (p : Fin 32) (st : Fin 4) (data : BitVec 32)
  /-- CONFIGURATION_TIMEOUT (R370). A configuration request unanswered for 50 ms ends with STATUS 4. -/
  | configurationTimeout (p : Fin 32)
  /-- SLED_READ_RESPONSE (R188). A sled's read data arrives at the MEM port tile and returns to the requesting miss register, or is discarded if
  fenced. -/
  | sledReadResponse (p : Fin 32) (id : Nat) (data : Line) (bad : Bool)
  /-- SLED_WRITE_ACKNOWLEDGMENT (R122). A sled acknowledges a write; when every location has, the tailwater entry is freed and its writers and twin
  copy are released. -/
  | sledWriteAcknowledgment (p : Fin 32) (id : Nat)
  /-- SLED_REQUEST_TIMEOUT (R367). A sled request unanswered for MEMTO is a sled fault; the link is disabled and trained again. -/
  | sledRequestTimeout (p : Fin 32)
  /-- SLED_POLL (R365). Every 1 s the MEM tile issues Get Health Info and Get Event Records and copies sled records to the event log. -/
  | sledPoll (p : Fin 32) (recs : List (BitVec 256))
  /-- LINK_UP (R374). A link reaches L0 after training; port start runs on a HOST port and the MEM port state advances. -/
  | linkUp (p : Fin 32) (rate : Fin 8) (width : Fin 4) (flit learned : Bool) (cap : Word)
  /-- TRAINING_RETRY (R374). A port that failed to train at x4 or wider tries again after 100 ms. -/
  | trainingRetry (p : Fin 32)
  /-- HOST_LINK_DOWN (R384). A HOST port's link goes down, resetting the port and making it lost. -/
  | hostLinkDown (p : Fin 32)
  /-- MEM_LINK_DOWN (R56). A MEM port's link goes down; the port goes to Waiting with LOSS_WAIT running and the link is trained again. -/
  | memLinkDown (p : Fin 32)
  /-- IO_LINK_DOWN (R384). An IO port's link goes down; posted writes are performed, non-posted requests discarded and the link retrained. -/
  | ioLinkDown (p : Fin 32)
  /-- PERST_ASSERT (R381). PERST# asserted at a HOST port for 1 µs or more resets the port; shorter pulses are ignored. -/
  | perstAssert (p : Fin 32) (ns : Nat)
  /-- PERST_RELEASE (R381). PERST# released at a HOST port starts training. -/
  | perstRelease (p : Fin 32)
  /-- HOT_RESET (R381). A hot reset from the host resets the HOST port as a conventional reset. -/
  | hotReset (p : Fin 32)
  /-- LINK_DISABLE (R381). A link disable from the host resets the HOST port. -/
  | linkDisable (p : Fin 32)
  /-- CABLE_PRESENCE_CHANGE (R383). A change of CPRES# sets PRSCHG; absent with the link up is link down, present starts a PERST# pulse on MEM and IO
  ports. -/
  | cablePresenceChange (p : Fin 32) (present : Bool)
  /-- IDE_INTEGRITY_FAILURE (R373). An IDE integrity failure is handled as link down of that port and sets IDEFAIL. -/
  | ideIntegrityFailure (p : Fin 32)
  /-- LINK_RECOVERY (R384). A link passes through Recovery and returns to L0; flits are replayed and nothing is lost. -/
  | linkRecovery (p : Fin 32) (flits : BitVec 16)
  /-- ADAPTATION_STEP (R375). Every 10 µs each receiver adapts its equalizer and clock recovery and updates MARGIN. -/
  | adaptationStep (p : Fin 32) (margin : BitVec 8) (lane : Fin 16) (fec : BitVec 16)
  /-- EQUALIZATION_MARGIN_LOW (R376). MARGIN below EQMIN for 100 ms sets EQLOW and, with EQREDO, redoes equalization through Recovery. -/
  | equalizationMarginLow (p : Fin 32)
  /-- PRST (R382). Writing PT_LCTL.PRST on a MEM or IO port pulses PERST# for PERST_MS; the link goes down. -/
  | prst (p : Fin 32)
  /-- PERST_PULSE_END (R382). The driven PERST# pulse ends; the tile releases PERST#, enables terminations and training begins. -/
  | perstPulseEnd (p : Fin 32)
  /-- RETRAIN (R358). Writing PT_LCTL.RETRAIN retrains the link through Recovery. -/
  | retrain (p : Fin 32)
  /-- PORT_DISABLE (R357). Writing PT_LCTL.DIS disables or re-enables a port; leaving Disabled applies a pending role and makes a MEM port Waiting.
  -/
  | portDisable (p : Fin 32) (dis : Bool)
  /-- LOSS_WAIT_EXPIRY (R56). LOSS_WAIT expires with the MEM port Waiting; the port becomes Lost and held requests settle under R59. -/
  | lossWaitExpiry (p : Fin 32)
  /-- STARTWAIT_EXPIRY (R432). A MEM port not Up within STARTWAIT of its PERST# release becomes Lost and posts class 0x03. -/
  | startwaitExpiry (p : Fin 32)
  /-- DECLARE (R56). Writing PT_MEMCTL.DECLARE makes the MEM port Lost at once. -/
  | declare (p : Fin 32)
  /-- READMIT (R58). Writing PT_MEMCTL.READMIT makes a Lost port Up when PLOTS is 0, the link trained and IDE active; otherwise nothing. -/
  | readmit (p : Fin 32)
  /-- PT_IOWIN_WRITE (R45). A write of an I/O window word is checked against SIZE while EN is 1 and refused with CAUSE 3 if misaligned. -/
  | ptIowinWrite (p : Fin 32) (w : Fin 64) (wordB : Bool) (v : Word)
  /-- REGISTER_WRITE (R30). A control write to a register without a row of its own stores fields by access type, refusing locked or reserved values
  under R31. -/
  | registerWrite (w : WriteAcc) (a : BitVec 29) (v : Word)
  /-- RC_REGISTER_READ (R30). A read of an RC register returns its value and clears the bits returned, set winning under R32. -/
  | rcRegisterRead (a : ReadAcc)
  /-- LOCK (R34). Writing 1 to a block's LOCK makes every RWL field of the instance ignore writes. -/
  | lock (w : By) (b : BitVec 20)
  /-- UNLOCK (R506). Writing UNLOCK from the Ditchrider clears LOCK; from another path it is refused with CAUSE 4. -/
  | unlock (w : By) (b : BitVec 20)
  /-- CONTROL_ACCESS_TIMEOUT (R39). A control target gives no answer within 10 µs; the access is abandoned, trapping TIMEOUT or giving a bus error.
  -/
  | controlAccessTimeout (w : By) (a : BitVec 29)
  /-- NEW_REQUEST_ACCEPT (R70). A request from the REQ network enters a home slice, is looked up and ordered at Decide as hit, miss, write, snoop or
  wait. -/
  | newRequestAccept (h : Fin 64)
  /-- PREFETCH_REQUEST (R88). A prefetch request arrives at its target slice, which drops it or allocates a miss register and fetches the line. -/
  | prefetchRequest (h : Fin 64)
  /-- FILL_RETURN (R77). Fill data reaches a miss register; once whole and checked it serves merged requests and installs the line. -/
  | fillReturn (h : Fin 64) (ue : Bool)
  /-- INSTALL_RETRY (R74). Every 16 cycles a miss register retries an install held for want of an eligible way. -/
  | installRetry (h : Fin 64)
  /-- MISS_WAIT_RETRY (R79). The head of the miss-wait queue is retried when the resource it waits for frees. -/
  | missWaitRetry (h : Fin 64)
  /-- DIRECTORY_WAIT_RETRY (R161). The oldest waiting request of a directory set takes a freed way, recall slot or cache way. -/
  | directoryWaitRetry (h : Fin 64)
  /-- WRITE_BUFFER_ARRAY_WRITE (R83). A Formed write-buffer entry is written to the data array when the array is free or forced by WB_HIGH, and
  freed. -/
  | writeBufferArrayWrite (h : Fin 64)
  /-- DIRECTORY_CACHE_FILL (R145). A directory set read from the store arrives at the slice's directory cache, writing back a changed victim set. -/
  | directoryCacheFill (h : Fin 64)
  /-- SNOOP_RESPONSE (R155). A BIRsp reaches the home slice's transient state and advances SI, OI, OS, OC or VR under Table 6-9. -/
  | snoopResponse (h : Fin 64)
  /-- SNOOP_DATA_WRITE (R156). A write arriving while a snoop of the line to that host is open is merged as the snoop's data. -/
  | snoopDataWrite (h : Fin 64)
  /-- BISNP_TIMEOUT (R158). A back-invalidate unanswered within BITO makes the slice declare the port lost. -/
  | bisnpTimeout (p : Fin 32)
  /-- LOST_PORT_SWEEP_END (R165). When both sides have swept the directory for a lost port, MASK bit p clears, an event posts and the tile takes
  CXL.mem again. -/
  | lostPortSweepEnd (p : Fin 32)
  /-- DIR_QUERY (R167). Writing DIR_QUERY.GO reads the queried line's entry as ordered at Decide into DIR_QRES. -/
  | dirQuery (h : Fin 64) (line : BitVec 41)
  /-- RELEASE_CHECK (R197). When a line's last sled write frees, the slice checks for a remaining dirty copy and sends a release or changes O to S.
  -/
  | releaseCheck (h : Fin 64)
  /-- HEADGATE_WAYEN_WRITE (R95). Writing HS_WAYEN.EN stops fills and starts cleaning of cleared ways, or clears tags of set ways and returns them.
  -/
  | headgateWayenWrite (h : Fin 64) (en : BitVec 16)
  /-- WAY_CLEAN_LINE (R95). A cleaning pass, as internal work, makes one valid line of a disabled way a victim. -/
  | wayCleanLine (h : Fin 64)
  /-- WAY_CLEAN_COMPLETE (R95). A way's cleaning pass ends; BUSY clears and OFF sets, or a re-enabled way is cleared and returned. -/
  | wayCleanComplete (h : Fin 64)
  /-- SLOT_LOOKUP (R107). A slot read and tailwater lookup for a Headgate miss resolve under Table 5-8, taking data from tailwater, slot or sled. -/
  | slotLookup (h : Fin 64) (ck : Check)
  /-- TAKE (R108). A take from the slice makes the controller write a Dirty or Poisoned slot Invalid after the Headgate install. -/
  | take (k : Fin 8)
  /-- OFFER (R112). A line offered to the Reservoir is installed, declined or sent to the tailwater buffer by a locked read-modify-write. -/
  | offer (k : Fin 8) (ue : Bool)
  /-- PREDICTOR_WINDOW_END (R116). After 2^WINLOG clean offers THRESH moves one step and the hit rate is recorded. -/
  | predictorWindowEnd (k : Fin 8)
  /-- CLEAN_SLOT_WRITE (R117). A line written to the sled while staying clean at the home is also written Clean to its slot before the writer
  completes. -/
  | cleanSlotWrite (sd : Fin 2)
  /-- SWEEP_FRAME (R127). The controller writes one frame of its cache area Invalid on all pseudo-channels and advances the sweep pointer. -/
  | sweepFrame (k : Fin 8)
  /-- REFRESH_COMMAND (R129). A refresh falls due per bank at the interval of the current refresh step. -/
  | refreshCommand (k : Fin 8)
  /-- STACK_TEMPERATURE_SAMPLE (R129). Every 1 ms the controller reads its hottest stack sensor and moves its refresh step. -/
  | stackTemperatureSample (k : Fin 8) (temp : BitVec 8)
  /-- FRAME_REMAP (R131). RSV_RETIRE GO with OP 1 moves a frame's lines out and remaps it to a spare frame. -/
  | frameRemap (k : Fin 8) (pc : Fin 32) (frame : BitVec 19)
  /-- FRAME_BAR (R131). RSV_RETIRE GO with OP 2 moves a frame's lines out and bars the frame. -/
  | frameBar (k : Fin 8) (pc : Fin 32) (frame : BitVec 19)
  /-- BANK_BAR (R132). RSV_RETIRE GO with OP 3 moves every cache frame of a bank and sets its bank-bar bit. -/
  | bankBar (k : Fin 8) (pc : Fin 32) (frame : BitVec 19)
  /-- FRAME_MOVE_COMPLETE (R131). A frame or bank move ends, installing its entry and setting RESULT and BUSY 0. -/
  | frameMoveComplete (k : MoveEnd)
  /-- TAILWATER_WRITE (R122). A sled write enters the tailwater buffer as a new Waiting or Held entry, or merges into an existing one. -/
  | tailwaterWrite (sd : Fin 2)
  /-- TAILWATER_ISSUE (R122). The head Waiting entry of an Up MEM port's queue is sent as a sled write and becomes Issued. -/
  | tailwaterIssue (sd : Fin 2) (p : Fin 32) (ue : Bool)
  /-- MIRROR_UPDATE (R147). A mirror update arrives at the other side and is applied to the mirror by a locked read-modify-write. -/
  | mirrorUpdate (h : Fin 64)
  /-- GRANT_RECORD_RELEASE (R148). The other side's mirror acknowledgment reaches the tile and frees the grant record. -/
  | grantRecordRelease (p : Fin 32)
  /-- TWIN_WRITE (R193). A twin write arrives at the twin side, is staged, and is acknowledged with a twin notice to the writer. -/
  | twinWrite (h : Fin 64)
  /-- TWIN_ACK (R193). The home slice receives a twin acknowledgment, sends the write's completion and counts a new copy in the gauge. -/
  | twinAck (h : Fin 64)
  /-- TWIN_NOTICE (R193). A twin notice reaches the writer's port tile or engine, recording the write as twin-durable. -/
  | twinNotice
  /-- STAGING_EVICTION (R196). With more than 30,720 staged, the least recently written unpended entry is written to a bucket record or kept with a
  clean request. -/
  | stagingEviction (t : Fin 2)
  /-- CLEAN_REQUEST (R196). The home receives a clean request and writes the line to its sled through the tailwater buffer. -/
  | cleanRequest (h : Fin 64)
  /-- RELEASE (R198). A release arrives at the twin side, frees the line's twin copy and is acknowledged. -/
  | release (h : Fin 64)
  /-- RELEASE_ACK (R200). A release acknowledgment reaches the home and the dirty gauge decrements. -/
  | releaseAck (h : Fin 64)
  /-- COMMIT (R198). A commit from the home clears a staged copy's pending flag when the tile releases an I/O write. -/
  | commit (h : Fin 64)
  /-- CLEANER_SLOT (R202). The background cleaner reads one Reservoir slot and writes a Dirty or Poisoned line to its sled. -/
  | cleanerSlot (sd : Fin 2)
  /-- HEALTH_PULSE (R204). A side pulses its health line to the arbiter every 10 µs. -/
  | healthPulse (sd : Fin 2)
  /-- HEALTH_PULSE_MISSED (R204). Three consecutive missed health pulses make the arbiter declare the side failed with CAUSE 1. -/
  | healthPulseMissed (sd : Fin 2) (kept : Nat)
  /-- HEARTBEAT (R199). A bridge end sends a heartbeat across the bridge every 10 µs. -/
  | heartbeat (sd : Fin 2)
  /-- HEARTBEAT_MISSED (R204). A bridge end misses three heartbeats, or the bridge fails to retrain in 20 µs; the arbiter fences a side with CAUSE 3.
  -/
  | heartbeatMissed (sd : Fin 2) (retrain : Bool) (kept : Nat)
  /-- FAULT_SIGNAL (R204). A side asserts its fault signal for an SFE and is declared failed with CAUSE 2. -/
  | faultSignal (sd : Fin 2) (st bt inst : BitVec 8) (kept : Nat)
  /-- BRIDGE_CREDIT_TIMEOUT (R204). A twin write or mirror update waits 50 µs for bridge credit; a side is fenced with CAUSE 4. -/
  | bridgeCreditTimeout (sd : Fin 2) (kept : Nat)
  /-- BRIDGE_LANE_FAIL (R215). A bridge lane fails; the bridge switches to a spare lane and retrains within 5 µs. -/
  | bridgeLaneFail
  /-- ARBITER_COPY_FAULT (R205). A fault of one arbiter copy is logged and the other copy decides alone. -/
  | arbiterCopyFault (copy : Fin 2)
  /-- TWIN_DRAIN_WRITE (R211). The twin drain writes one taken-half twin record to its sled at DRAINRATE and frees it on acknowledgment. -/
  | twinDrainWrite (sd : Fin 2)
  /-- ENTER_SPILLWAY (R219). AON_MODECTL REQ 1 starts Spillway entry: WPOL 0 as WPOL 1, no allocation, cleaner at 8 in 16. -/
  | enterSpillway
  /-- SPILLWAY_ENTRY_COMPLETE (R219). Every serving side's gauge is 0 and twin logs Off; slices go to Bypass, controllers to Bypass, mode Spillway.
  -/
  | spillwayEntryComplete (env : StartEnv)
  /-- LEAVE_SPILLWAY (R219). AON_MODECTL REQ 2 invalidates the Headgate, sweeps the Reservoir and resumes write-back and twinning. -/
  | leaveSpillway
  /-- STOP_SIDE_A (R216). AON_MODECTL REQ 3 holds Side A's requests, drains it, then fences it with CAUSE 5. -/
  | stopSideA
  /-- STOP_SIDE_B (R216). AON_MODECTL REQ 4 holds Side B's requests, drains it, then fences it with CAUSE 5. -/
  | stopSideB
  /-- STOP_DRAIN_END (R216). A stopping side's drain ends or its 300 µs bound expires; fence and takeover follow. -/
  | stopDrainEnd (kept : Nat)
  /-- REINTEGRATE_STOPPED_SIDE (R217). AON_MODECTL REQ 5 checks the preconditions and starts reintegration of the stopped side. -/
  | reintegrateStoppedSide (bridge : Bool)
  /-- SOAK_END (R217). The soak period ends with no SFE or UCC on the returning side; handback starts. -/
  | soakEnd
  /-- SLICE_PAIR_HANDBACK (R218). One slice pair is handed back to the returning side, holding its requests for at most 50 µs. -/
  | slicePairHandback
  /-- HANDBACK_HOLD_EXPIRY (R218). A slice pair's hold reaches 50 µs; it is released and retried 1 ms later. -/
  | handbackHoldExpiry
  /-- ENTER_RECOVERY (R220). AON_MODECTL REQ 6 from the Ditchrider completes Spillway entry, lowers every link and enters Recovery mode. -/
  | enterRecovery
  /-- LEVELLING_WINDOW_END (R226). At each window end the loop judges channel counts and starts a rekey after SUSTAIN qualifying windows and MININT.
  -/
  | levellingWindowEnd (sd : Fin 2)
  /-- FORCE (R226). Writing LVL_CTL.FORCE starts a rekey at the next window end. -/
  | force (sd : Fin 2)
  /-- REKEY_SWEEP_MOVE (R231). The rekey sweep locks one old slot and moves its line to its new slot, the tailwater buffer, or drops it. -/
  | rekeySweepMove (sd : Fin 2) (c : Fin 128)
  /-- SAMPLE_NOTE (R236). A sample note of a sled access reaches the tracking side and updates its hot table. -/
  | sampleNote (sd : Fin 2) (n : Nat)
  /-- PLACEMENT_TICK (R236). At each tick counts halve, hold-offs decrement, port loads are recorded and proposals are made. -/
  | placementTick (sd : Fin 2) (loads : Line)
  /-- POP (R238). Writing PLC_PROPPOP.POP discards the oldest proposal record. -/
  | pop (sd : Fin 2)
  /-- TRACKER_ENABLE (R240). Writing PLC_MIGT.EN = 1 sets all 512 step bits of the tracker; 0 frees it. -/
  | trackerEnable (sd : Fin 2) (t : Fin 16) (plot : BitVec 27) (en : Bool)
  /-- TRACKER_HOLD (R241). Writing PLC_MIGT.HOLD = 1 holds the side's sled writes to the plot. -/
  | trackerHold (sd : Fin 2) (t : Fin 16) (hold : Bool)
  /-- HOLD_EXPIRY (R241). HOLD clears itself HOLDMAX µs after it was set; HOLDEXP is set and an event posts. -/
  | holdExpiry (sd : Fin 2) (t : Fin 16)
  /-- TRACKER_CLEAR (R240). A flume channel clears a step's tracker bit on both sides and waits for both confirmations. -/
  | trackerClear (c : Fin 64)
  /-- DESCRIPTOR_DISPATCH (R258). The dispatcher takes a queue's head descriptor once room, engine and order allow, refusing it or handing it to the
  chosen side. -/
  | descriptorDispatch (ck : Check)
  /-- CALL_START (R247). An engine loads g1 to g8, clears scratch for a tenant call and starts at the entry's PC. -/
  | callStart (e : Fin 32) (ue : Bool) (ce : CallCe)
  /-- CALL_TIME_LIMIT (R252). A call reaches its time limit and traps TIMEOUT at its next instruction or step boundary. -/
  | callTimeLimit (e : Fin 32)
  /-- POST_WAIT_EXPIRY (R268). A POST waits POSTWAIT for a result entry; the result is dropped, RESLOST set and class 0x0D raised. -/
  | postWaitExpiry (e : Fin 32)
  /-- TRAP_DRAIN_COMPLETE (R251). A trapped engine's store buffer has drained; the trap status posts and the engine becomes Idle or Held. -/
  | trapDrainComplete (e : Fin 32)
  /-- ENGINE_RESET (R251). Writing SE_ENG.RST resets the engine; a running call ends with ENGRESET. -/
  | engineReset (e : Fin 32)
  /-- ENGINE_RELEASE (R251). Writing SE_ENG.RELEASE returns a Held engine to Idle. -/
  | engineRelease (e : Fin 32)
  /-- SE_PSCTL_SWAP (R256). Writing SE_PSCTL.SWAP makes the inactive bank active for calls dispatched afterwards. -/
  | sePsctlSwap (sd : Fin 2)
  /-- PROGRAM_STORE_WRITE (R255). A control write to the program store reaches only the inactive bank while OLDBUSY is 0, and is dropped otherwise.
  -/
  | programStoreWrite (sd : Fin 2) (b : Fin 2) (i : Fin 131072) (v : Word)
  /-- STORE_BUFFER_SEND (R181). The head store of an engine's store buffer is sent, or refused under R511 causing a trap. -/
  | storeBufferSend (e : Fin 32) (ck : Check)
  /-- STORE_COMPLETE (R181). A sent store completes at its target and its entry frees. -/
  | storeComplete (e : Fin 32)
  /-- ADD (R285). ALU fn 0x000: rd = ra + rb. -/
  | add (e : Fin 32) (rd ra rb : Fin 32)
  /-- SUB (R285). ALU fn 0x001: rd = ra − rb. -/
  | sub (e : Fin 32) (rd ra rb : Fin 32)
  /-- AND (R285). ALU fn 0x002: rd = ra AND rb. -/
  | and_ (e : Fin 32) (rd ra rb : Fin 32)
  /-- OR (R285). ALU fn 0x003: rd = ra OR rb. -/
  | or_ (e : Fin 32) (rd ra rb : Fin 32)
  /-- XOR (R285). ALU fn 0x004: rd = ra XOR rb. -/
  | xor_ (e : Fin 32) (rd ra rb : Fin 32)
  /-- ANDN (R285). ALU fn 0x005: rd = ra AND NOT rb. -/
  | andn (e : Fin 32) (rd ra rb : Fin 32)
  /-- SLL (R285). ALU fn 0x006: logical left shift by rb[5:0]. -/
  | sll (e : Fin 32) (rd ra rb : Fin 32)
  /-- SRL (R285). ALU fn 0x007: logical right shift by rb[5:0]. -/
  | srl (e : Fin 32) (rd ra rb : Fin 32)
  /-- SRA (R285). ALU fn 0x008: arithmetic right shift by rb[5:0]. -/
  | sra (e : Fin 32) (rd ra rb : Fin 32)
  /-- ROTL (R285). ALU fn 0x009: rotate left by rb[5:0]. -/
  | rotl (e : Fin 32) (rd ra rb : Fin 32)
  /-- SEQ (R285). ALU fn 0x00A: rd = 1 if ra equals rb. -/
  | seq (e : Fin 32) (rd ra rb : Fin 32)
  /-- SNE (R285). ALU fn 0x00B: rd = 1 if ra differs from rb. -/
  | sne (e : Fin 32) (rd ra rb : Fin 32)
  /-- SLT (R285). ALU fn 0x00C: rd = 1 if ra < rb signed. -/
  | slt (e : Fin 32) (rd ra rb : Fin 32)
  /-- SLTU (R285). ALU fn 0x00D: rd = 1 if ra < rb unsigned. -/
  | sltu (e : Fin 32) (rd ra rb : Fin 32)
  /-- MIN (R285). ALU fn 0x00E: signed minimum. -/
  | min_ (e : Fin 32) (rd ra rb : Fin 32)
  /-- MAX (R285). ALU fn 0x00F: signed maximum. -/
  | max_ (e : Fin 32) (rd ra rb : Fin 32)
  /-- MINU (R285). ALU fn 0x010: unsigned minimum. -/
  | minu (e : Fin 32) (rd ra rb : Fin 32)
  /-- MAXU (R285). ALU fn 0x011: unsigned maximum. -/
  | maxu (e : Fin 32) (rd ra rb : Fin 32)
  /-- MUL (R285). ALU fn 0x012: low 64 bits of ra × rb. -/
  | mul (e : Fin 32) (rd ra rb : Fin 32)
  /-- MULHU (R285). ALU fn 0x013: high 64 bits of the unsigned product. -/
  | mulhu (e : Fin 32) (rd ra rb : Fin 32)
  /-- DIVU (R285). ALU fn 0x014: unsigned quotient, all ones for division by 0. -/
  | divu (e : Fin 32) (rd ra rb : Fin 32)
  /-- REMU (R285). ALU fn 0x015: unsigned remainder, ra for division by 0. -/
  | remu (e : Fin 32) (rd ra rb : Fin 32)
  /-- POPC (R285). ALU fn 0x016: number of ones in ra. -/
  | popc (e : Fin 32) (rd ra : Fin 32)
  /-- CLZ (R285). ALU fn 0x017: leading zeros of ra. -/
  | clz (e : Fin 32) (rd ra : Fin 32)
  /-- CTZ (R285). ALU fn 0x018: trailing zeros of ra. -/
  | ctz (e : Fin 32) (rd ra : Fin 32)
  /-- PAR (R285). ALU fn 0x019: parity of ra. -/
  | par (e : Fin 32) (rd ra : Fin 32)
  /-- ADDI (R286). rd = ra + sext(imm). -/
  | addi (e : Fin 32) (rd ra : Fin 32) (imm : BitVec 16)
  /-- ANDI (R286). rd = ra AND zext(imm). -/
  | andi (e : Fin 32) (rd ra : Fin 32) (imm : BitVec 16)
  /-- ORI (R286). rd = ra OR zext(imm). -/
  | ori (e : Fin 32) (rd ra : Fin 32) (imm : BitVec 16)
  /-- XORI (R286). rd = ra XOR zext(imm). -/
  | xori (e : Fin 32) (rd ra : Fin 32) (imm : BitVec 16)
  /-- SLLI (R286). rd = ra shifted left by imm[5:0]. -/
  | slli (e : Fin 32) (rd ra : Fin 32) (sh : Fin 64)
  /-- SRLI (R286). rd = ra logically shifted right by imm[5:0]. -/
  | srli (e : Fin 32) (rd ra : Fin 32) (sh : Fin 64)
  /-- SRAI (R286). rd = ra arithmetically shifted right by imm[5:0]. -/
  | srai (e : Fin 32) (rd ra : Fin 32) (sh : Fin 64)
  /-- LUI (R286). rd = zext(imm) << 16. -/
  | lui (e : Fin 32) (rd : Fin 32) (imm : BitVec 16)
  /-- ORS (R286). rd = ra OR (zext(imm) << 32). -/
  | ors (e : Fin 32) (rd ra : Fin 32) (imm : BitVec 16)
  /-- SLTI (R286). rd = 1 if ra < sext(imm) signed. -/
  | slti (e : Fin 32) (rd ra : Fin 32) (imm : BitVec 16)
  /-- SLTIU (R286). rd = 1 if ra < sext(imm) unsigned. -/
  | sltiu (e : Fin 32) (rd ra : Fin 32) (imm : BitVec 16)
  /-- SEQI (R286). rd = 1 if ra equals sext(imm). -/
  | seqi (e : Fin 32) (rd ra : Fin 32) (imm : BitVec 16)
  /-- EXT (R286). rd = a bit field of ra given by lo and width. -/
  | ext (e : Fin 32) (rd ra : Fin 32) (lo wm1 : Fin 64)
  /-- INS (R286). Inserts the low width bits of ra into rd at lo. -/
  | ins (e : Fin 32) (rd ra : Fin 32) (lo wm1 : Fin 64)
  /-- ORT (R286). rd = ra OR (zext(imm) << 48). -/
  | ort (e : Fin 32) (rd ra : Fin 32) (imm : BitVec 16)
  /-- LB (R287). Loads a sign-extended byte from the pool, scratch space or control space. -/
  | lb (e : Fin 32) (rd ra : Fin 32) (imm : BitVec 16) (ck : Check)
  /-- LBU (R287). Loads a zero-extended byte. -/
  | lbu (e : Fin 32) (rd ra : Fin 32) (imm : BitVec 16) (ck : Check)
  /-- LH (R287). Loads a sign-extended 2-byte value. -/
  | lh (e : Fin 32) (rd ra : Fin 32) (imm : BitVec 16) (ck : Check)
  /-- LHU (R287). Loads a zero-extended 2-byte value. -/
  | lhu (e : Fin 32) (rd ra : Fin 32) (imm : BitVec 16) (ck : Check)
  /-- LW (R287). Loads a sign-extended 4-byte value. -/
  | lw (e : Fin 32) (rd ra : Fin 32) (imm : BitVec 16) (ck : Check)
  /-- LWU (R287). Loads a zero-extended 4-byte value. -/
  | lwu (e : Fin 32) (rd ra : Fin 32) (imm : BitVec 16) (ck : Check)
  /-- LD (R287). Loads a 64-bit word; control loads wait for an empty store buffer. -/
  | ld (e : Fin 32) (rd ra : Fin 32) (imm : BitVec 16) (ck : Check)
  /-- LDX (R287). Loads a 64-bit word at ra + rb. -/
  | ldx (e : Fin 32) (rd ra rb : Fin 32) (ck : Check)
  /-- SB (R287). Enters a 1-byte store into the store buffer. -/
  | sb (e : Fin 32) (rs ra : Fin 32) (imm : BitVec 16)
  /-- SH (R287). Enters a 2-byte store into the store buffer. -/
  | sh (e : Fin 32) (rs ra : Fin 32) (imm : BitVec 16)
  /-- SW (R287). Enters a 4-byte store into the store buffer. -/
  | sw (e : Fin 32) (rs ra : Fin 32) (imm : BitVec 16)
  /-- SD (R287). Enters an 8-byte store into the store buffer. -/
  | sd (e : Fin 32) (rs ra : Fin 32) (imm : BitVec 16)
  /-- AMOADD (R289). Atomically adds rb to a pool location and returns the old value. -/
  | amoAdd (e : Fin 32) (rd ra rb : Fin 32) (wide : Bool)
  /-- AMOAND (R289). Atomically ANDs rb into a pool location. -/
  | amoAnd (e : Fin 32) (rd ra rb : Fin 32) (wide : Bool)
  /-- AMOOR (R289). Atomically ORs rb into a pool location. -/
  | amoOr (e : Fin 32) (rd ra rb : Fin 32) (wide : Bool)
  /-- AMOXOR (R289). Atomically XORs rb into a pool location. -/
  | amoXor (e : Fin 32) (rd ra rb : Fin 32) (wide : Bool)
  /-- AMOSWAP (R289). Atomically swaps rb into a pool location. -/
  | amoSwap (e : Fin 32) (rd ra rb : Fin 32) (wide : Bool)
  /-- AMOCAS (R289). Atomically compares the location with rd and writes rb when equal. -/
  | amoCas (e : Fin 32) (rd ra rb : Fin 32) (wide : Bool)
  /-- AMOMINU (R289). Atomically stores the unsigned minimum of old and rb. -/
  | amoMinu (e : Fin 32) (rd ra rb : Fin 32) (wide : Bool)
  /-- AMOMAXU (R289). Atomically stores the unsigned maximum of old and rb. -/
  | amoMaxu (e : Fin 32) (rd ra rb : Fin 32) (wide : Bool)
  /-- BEQ (R290). Branches when ra equals rb. -/
  | beq (e : Fin 32) (ra rb : Fin 32) (off : BitVec 16)
  /-- BNE (R290). Branches when ra differs from rb. -/
  | bne (e : Fin 32) (ra rb : Fin 32) (off : BitVec 16)
  /-- BLT (R290). Branches when ra < rb signed. -/
  | blt (e : Fin 32) (ra rb : Fin 32) (off : BitVec 16)
  /-- BGE (R290). Branches when ra >= rb signed. -/
  | bge (e : Fin 32) (ra rb : Fin 32) (off : BitVec 16)
  /-- BLTU (R290). Branches when ra < rb unsigned. -/
  | bltu (e : Fin 32) (ra rb : Fin 32) (off : BitVec 16)
  /-- BGEU (R290). Branches when ra >= rb unsigned. -/
  | bgeu (e : Fin 32) (ra rb : Fin 32) (off : BitVec 16)
  /-- JAL (R290). Writes PC + 1 to rd and jumps by a 21-bit offset. -/
  | jal (e : Fin 32) (rd : Fin 32) (off : BitVec 21)
  /-- JALR (R290). Writes PC + 1 to rd and jumps to ra + sext(imm16). -/
  | jalr (e : Fin 32) (rd ra : Fin 32) (imm : BitVec 16)
  /-- ILLEGAL_OPCODE (R281). An unlisted opcode, selector or nonzero required field traps ILLEGAL. -/
  | illegalOpcode (e : Fin 32)
  /-- RGS_CLEAN (R296). RGS q 0 starts a range clean on a free range engine of the side. -/
  | rgsClean (e : Fin 32) (rd ra rb : Fin 32)
  /-- RGS_FLUSH (R296). RGS q 1 starts a range flush. -/
  | rgsFlush (e : Fin 32) (rd ra rb : Fin 32)
  /-- RGS_DISCARD (R296). RGS q 2, keeper only, starts a range discard. -/
  | rgsDiscard (e : Fin 32) (rd ra rb : Fin 32)
  /-- RGS_ZERO (R296). RGS q 3 starts a range zero. -/
  | rgsZero (e : Fin 32) (rd ra rb : Fin 32)
  /-- RGS_PREFETCH (R296). RGS q 4 starts a range prefetch. -/
  | rgsPrefetch (e : Fin 32) (rd ra rb : Fin 32)
  /-- RGW (R295). Waits for a range operation, or all of them, to end and returns the completion word, releasing the handle. -/
  | rgw (e : Fin 32) (rd ra : Fin 32)
  /-- FLS_DESCRIPTOR (R297). FLS q 0 checks a scratch flume descriptor and starts it on a free flume channel. -/
  | flsDescriptor (e : Fin 32) (rd ra : Fin 32)
  /-- FLS_STEP (R297). FLS q 1, keeper only, copies one 4 KiB step between sled locations. -/
  | flsStep (e : Fin 32) (rd ra rb : Fin 32)
  /-- FLW (R295). Waits for a flume operation, or all of them, to end and returns the completion word. -/
  | flw (e : Fin 32) (rd ra : Fin 32)
  /-- REGW (R299). Installs a region entry in stages, sweeping back-invalidates where the change needs it. -/
  | regw (e : Fin 32) (rd ra rb : Fin 32)
  /-- REGR (R299). Writes region entry ra to scratch and returns whether it is in transition. -/
  | regr (e : Fin 32) (rd ra rb : Fin 32)
  /-- PLCW (R301). Writes a placement entry to both copies after checks, as a rebind, drop, MIG change or flip. -/
  | plcw (e : Fin 32) (rd ra rb : Fin 32)
  /-- PLCR (R301). Returns the placement entry of a plot. -/
  | plcr (e : Fin 32) (rd ra : Fin 32)
  /-- PLCRUN (R313). Writes a run of placement entries in checked steps of 4,096. -/
  | plcrun (e : Fin 32) (rd ra : Fin 32)
  /-- PLCTRK_ARM (R303). Arms tracker pair t for a plot on both sides, or gives TRACKER. -/
  | plctrkArm (e : Fin 32) (rd ra rb : Fin 32)
  /-- PLCTRK_FREE (R303). Clears HOLD and EN of tracker pair t on both sides. -/
  | plctrkFree (e : Fin 32) (rd ra rb : Fin 32)
  /-- PLCHOLD_SET (R303). Sets HOLD on both sides of pair t and waits for QUIET or HOLDEXP. -/
  | plcholdSet (e : Fin 32) (rd ra : Fin 32)
  /-- PLCHOLD_CLEAR (R303). Clears HOLD on both sides of pair t. -/
  | plcholdClear (e : Fin 32) (rd ra : Fin 32)
  /-- VEXT_INSTALL (R304). Installs a Free view extent, sends Add Capacity and waits for the host's answer. -/
  | vextInstall (e : Fin 32) (rd ra rb : Fin 32)
  /-- VEXT_RELEASE (R304). Sends Release Capacity for an Accepted extent and waits until it is Free. -/
  | vextRelease (e : Fin 32) (rd ra rb : Fin 32)
  /-- VEXT_FORCED_RELEASE (R304). Sends Forced Release for an Accepted or Releasing extent and waits until it is Free. -/
  | vextForcedRelease (e : Fin 32) (rd ra rb : Fin 32)
  /-- FRET_REMAP (R305). FRET OP 1 starts a frame remap on controller k and waits for its result. -/
  | fretRemap (e : Fin 32) (rd ra rb : Fin 32)
  /-- FRET_BAR_FRAME (R305). FRET OP 2 starts a frame bar on controller k. -/
  | fretBarFrame (e : Fin 32) (rd ra rb : Fin 32)
  /-- FRET_BAR_BANK (R305). FRET OP 3 starts a bank bar on controller k. -/
  | fretBarBank (e : Fin 32) (rd ra rb : Fin 32)
  /-- SCOMMIT (R306). Commits the live settings image to flash, one commit at a time, and reports its sequence number. -/
  | scommit (e : Fin 32) (rd : Fin 32) (size : BitVec 48)
  /-- POST (R307). Queues one result word for the call, using its reservation or a free entry, or waits. -/
  | post (e : Fin 32) (ra rb : Fin 32)
  /-- RDCW (R308). Returns control word n such as CYCLE, TIME, SELF or RAND. -/
  | rdcw (e : Fin 32) (rd n : Fin 32)
  /-- FENCE_SL (R185). Makes later pool and control loads wait for an empty store buffer. -/
  | fenceSl (e : Fin 32)
  /-- TRAP (R309). Traps ILLEGAL with SE_TRAPADDR 0. -/
  | trap (e : Fin 32)
  /-- YIELD (R309). Issues nothing for 16 cycles and passes the engine's REQ injection turn. -/
  | yield_ (e : Fin 32)
  /-- WAITEV (R310). Polls a control register until its condition holds, then returns the value. -/
  | waitev (e : Fin 32) (rd ra rb : Fin 32) (cond : Fin 3)
  /-- WAITEV_POLL (R310). Every 32 fabric cycles WAITEV reads its register as a control load and tests the condition. -/
  | waitevPoll (e : Fin 32)
  /-- HALT (R268). Drains the store buffer, waits for held handles and ends the call, posting OK if nothing was posted. -/
  | halt (e : Fin 32)
  /-- STEP_CUT (R291). At a step boundary a kind W or P instruction is cut for time limit, reset or side loss, keeping completed steps. -/
  | stepCut (e : Fin 32)
  /-- RANGE_QUANTUM_START (R315). A range engine starts its next quantum of up to 64 lines after the previous one and GAP, or stops on abort. -/
  | rangeQuantumStart (n : Fin 8)
  /-- RANGE_LINE_REQUEST (R317). A range line request reaches its home slice as internal work and is applied after its snoops under Table 12-1. -/
  | rangeLineRequest (n : Fin 8) (i : Fin 64)
  /-- RANGE_LINE_COMPLETE (R319). A range line completes back at the range engine. -/
  | rangeLineComplete (n : Fin 8)
  /-- BLOCK_SNOOP_ASSEMBLY (R318). A tile holding all four needs of a group sends one BISnpInvBlk, or per-line BISnpInv after 2 µs or a no-snoop
  notice. -/
  | blockSnoopAssembly (p : Fin 32) (grp : BitVec 40) (expired : Bool)
  /-- RANGE_ABORT (R316). Writing RGE_CTL.ABORT stops the operation at the next quantum boundary with STATUS 1. -/
  | rangeAbort (n : Fin 8)
  /-- FLUME_STEP_START (R324). A flume channel starts a step, clearing tracker bits first for a tracked plot. -/
  | flumeStepStart (c : Fin 64)
  /-- FLUME_STEP_COMPLETE (R322). All 64 writes of a step complete; the last step ends the operation with STATUS 0. -/
  | flumeStepComplete (c : Fin 64) (ue : Bool)
  /-- RESUME (R326). Writing FC_CTL.RESUME copies a Halted channel's failing step again. -/
  | resume (c : Fin 64)
  /-- FLUME_ABORT (R326). Writing FC_CTL.ABORT ends a Running or Halted operation. -/
  | flumeAbort (c : Fin 64)
  /-- HALTWAIT_EXPIRY (R326). A channel Halted for HALTWAIT ms ends with STATUS 5. -/
  | haltwaitExpiry (c : Fin 64)
  /-- HEADGATE_OFF (R328). Setting RGE_CCTL.OFF bit 0 stops fills and cleans every valid Headgate way. -/
  | headgateOff (sd : Fin 2)
  /-- RESERVOIR_OFF (R328). Setting OFF bit 1 declines offers and drains every usable slot. -/
  | reservoirOff (sd : Fin 2)
  /-- EAST_HALF_OFF (R332). Setting OFF bit 2 cleans ways 8–15 and powers down the east domain. -/
  | eastHalfOff (sd : Fin 2)
  /-- HEADGATE_ON (R328). Clearing OFF bit 0 clears every tag entry and returns the Headgate to service. -/
  | headgateOn (sd : Fin 2)
  /-- RESERVOIR_ON (R328). Clearing OFF bit 1 moves controllers from Bypass to Sweeping. -/
  | reservoirOn (sd : Fin 2)
  /-- EAST_HALF_ON (R332). Clearing OFF bit 2 powers the east domain up and clears its tags. -/
  | eastHalfOn (sd : Fin 2)
  /-- LEVEL_DRAIN_COMPLETE (R328). Every pass of a Draining level ended and its lines freed; the level is Off and DONE sets. -/
  | levelDrainComplete (sd : Fin 2) (l : Level)
  /-- LEVEL_ENABLE_COMPLETE (R328). The tag clear or sweep of an Enabling level ends; the level is On and DONE sets. -/
  | levelEnableComplete (sd : Fin 2) (l : Level)
  /-- GATEWAY_PACKET (R347). A packet reaches a domain gateway and is delivered, held, used to wake the domain or discarded by gateway state. -/
  | gatewayPacket (sd : Fin 2) (site : Fin 64) (net : Fin 4) (hdr : BitVec 128) (d0 : NetBody)
  /-- UPLINK_FAIL (R349). A tile uplink fails; packets are held, bounced and rerouted by detour over the bridge. -/
  | uplinkFail (sd : Fin 2) (t : Fin 4) (bounced again : BitVec 8)
  /-- UPLINK_RETURN (R349). A tile uplink returns; a route marker is sent on each VN along the detour. -/
  | uplinkReturn (sd : Fin 2) (t : Fin 4)
  /-- ROUTE_MARKER_ACK (R349). A route marker is acknowledged and the direct route opens for its VN. -/
  | routeMarkerAck (sd : Fin 2) (t : Fin 4) (vn : Fin 15)
  /-- NOC_TRADV (R352). Writing NOC_TRADV removes the oldest trace record. -/
  | nocTradv (sd : Fin 2)
  /-- TWIN_LOOKUP (R393). The twin side looks up the newest image of a line and returns it or none, for repair. -/
  | twinLookup (h : Fin 64)
  /-- TWIN_SEARCH (R394). A twin search target joins the circular scan, or failover is forced when 16 targets are open. -/
  | twinSearch (h : Fin 64)
  /-- TWIN_SEARCH_COMPLETE (R394). A target's scan covers every bucket; found lines are reinstalled and held requests released. -/
  | twinSearchComplete (sd : Fin 2)
  /-- TWIN_REFRESH (R395). The home re-twins every dirty line it holds after the twin side lost record identities. -/
  | twinRefresh (sd : Fin 2)
  /-- TWIN_REFRESH_COMPLETE (R395). A twin refresh ends and TWN_GAUGE.LINES is set to the twin side's count. -/
  | twinRefreshComplete (sd : Fin 2)
  /-- RETWIN_REQUEST (R397). The home receives a re-twin request for L and twins its dirty copy again or releases the line. -/
  | retwinRequest (h : Fin 64)
  /-- LOST_SET_SWEEP (R396). A directory set unreadable from any copy is cleared and its lines swept with back-invalidates. -/
  | lostSetSweep (half : Fin 2) (set : BitVec 26)
  /-- LOST_SET_SWEEP_END (R396). A lost-set sweep ends and its slot frees. -/
  | lostSetSweepEnd (half : Fin 2) (set : BitVec 26)
  /-- SCRUB_READ (R399). The patrol scrubber reads and checks the next stack or SRAM location at its rate. -/
  | scrubRead (l : Loc) (ck : Check) (pct : Fin 101)
  /-- SCRUB_WINDOW_END (R400). Every 60 s the scrub multiplier doubles or halves by the window's corrected errors. -/
  | scrubWindowEnd (sd : Fin 2)
  /-- AREA_REMAP (R406). ERR_AREMAP GO copies a row outside the cache area to a spare frame and installs the remap. -/
  | areaRemap (k : Fin 8) (pc : Fin 32) (bank : Fin 16) (row : BitVec 16)
  /-- AREA_REMAP_COMPLETE (R406). An area remap ends and RESULT is set. -/
  | areaRemapComplete (bad : List (Loc × Bool))
  /-- ERR_PSMAP_WRITE (R407). A write of ERR_PSMAP maps a program page to a spare only while its bank is inactive and OLDBUSY 0. -/
  | errPsmapWrite (sd b : Fin 2) (i : Fin 8) (page : BitVec 8) (v : Bool)
  /-- STACK_RETIRE (R408). ERR_STKRET GO retires a stack of a stopped side, powering it off for the service life. -/
  | stackRetire (k : Fin 8)
  /-- TRIM_RECORD_APPEND (R427). The Ditchrider appends a retirement or learned-settings record to trim copies T0 then T1. -/
  | trimRecordAppend
  /-- LEARNED_PRESET_CAPTURE (R427). After 10 s in L0 at 64 GT/s without Recovery, a port's changed learned presets are appended. -/
  | learnedPresetCapture (p : Fin 32) (v : BitVec 128)
  /-- ARM (R411). Setting ERR_INJ.ARM corrupts the chosen bits of the next write to the structure instance. -/
  | arm
  /-- POWER_ON (R413). The first feed becomes present with none before, starting a cold reset and module start. -/
  | powerOn (feed : Fin 2) (env : StartEnv)
  /-- MRST_RELEASE (R414). MRST# rises after a low pulse of 10 µs to 5 s, starting a module warm reset; shorter pulses are ignored. -/
  | mrstRelease (us : Nat) (env : StartEnv)
  /-- MRST_HELD (R414). MRST# held low for 5 s starts a cold reset lasting until it rises. -/
  | mrstHeld
  /-- ORDERLY_MODULE_WARM_RESET (R415). RST_CTL REQ 1 enters Spillway, then resets once no dirty line remains. -/
  | orderlyModuleWarmReset (env : StartEnv)
  /-- IMMEDIATE_MODULE_WARM_RESET (R415). RST_CTL REQ 2 resets every domain but PD0 and PD1 at once, losing dirty lines. -/
  | immediateModuleWarmReset (env : StartEnv)
  /-- COLD_RESET_REQUEST (R413). RST_CTL REQ 3 starts a cold reset. -/
  | coldResetRequest (env : StartEnv)
  /-- RECOVERY_EXIT (R431). RST_CTL REQ 4 in Recovery mode clears COUNT and starts a warm reset with boot mode RST_CTL.BOOT. -/
  | recoveryExit (env : StartEnv)
  /-- START_RUNNING (R420). Every named MEM port is Up or Lost; AON_OPMODE enters Normal or Single-side and the start record clears. -/
  | startRunning
  /-- START_TIMEOUT (R429). A start neither Running nor in Recovery within 5 s ends in an immediate warm reset with CAUSE 8. -/
  | startTimeout (env : StartEnv)
  /-- SIDE_START (R420). A side starts alone for reintegration or after a side reset, running steps 5 to 11. -/
  | sideStart (sd : Fin 2) (ok : Bool) (stk : BitVec 4)
  /-- SETTINGS_COMMIT_COMPLETE (R425). A commit's slot is written and read back; it completes with OK or FLASH_FAIL. -/
  | settingsCommitComplete (ok : Bool)
  /-- CLR (R430). Writing AON_FS_COUNT.CLR from the Ditchrider sets COUNT to 0. -/
  | clr
  /-- FEED_PRESENT (R440). A feed at or above 40 V for 1 ms becomes present and is used again. -/
  | feedPresent (feed : Fin 2) (env : StartEnv)
  /-- FEED_LOST (R441). A feed below 38 V or above 62 V for 50 µs is lost; with the other present nothing else changes. -/
  | feedLost (feed : Fin 2)
  /-- HOLD_UP_END (R442). Hold-up ends with no feed; PD0 and PD1 lose power and the next start is cold. -/
  | holdUpEnd
  /-- PHASE_FAIL (R443). A regulator phase fails and is switched out with no effect on its rail. -/
  | phaseFail
  /-- POWER_DOWN_REQUEST (R435). A domain's owner requests power-down after its own drain; the gateway goes to Draining. -/
  | powerDownRequest (d : Fin 26)
  /-- DOMAIN_DRAIN_END (R435). A Draining domain's outbound queues empty; it powers off, is retained, or returns On if aborted. -/
  | domainDrainEnd (d : Fin 26)
  /-- POWER_UP_REQUEST (R435). A domain is powered up by its owner or by a WAKE packet; its rail ramps. -/
  | powerUpRequest (d : Fin 26)
  /-- DOMAIN_READY (R435). A Powering domain's rail is in regulation; the gateway returns On and delivers held packets. -/
  | domainReady (d : Fin 26)
  /-- CLUSTER_IDLE_SLEEP (R437). With EN 1, a sluice cluster idle for IDLE µs is put to sleep at retention voltage. -/
  | clusterIdleSleep (sd : Fin 2)
  /-- HOLD (R438). Writing PWR_SLEEP.HOLD 1 wakes a Retained cluster and keeps it awake; the write completes when On. -/
  | hold (sd : Fin 2)
  /-- OSCILLATOR_FAIL (R445). The selected oscillator fails; every PLL switches to the other within 1 µs. -/
  | oscillatorFail (osc : Fin 2)
  /-- VF_EVALUATE (R447). Every 10 µs a side's loop adjusts voltage or fabric clock from the lowest slack. -/
  | vfEvaluate (sd : Fin 2) (slack : Option (BitVec 8))
  /-- NEGATIVE_SLACK (R448). A monitor reports negative slack; the clock stretcher lengthens the next 64 cycles. -/
  | negativeSlack (sd : Fin 2)
  /-- STRETCH_FAULT (R448). At 1.4 GHz and 0.90 V with the stretcher active for 1 ms, the side asserts its fault signal. -/
  | stretchFault (sd : Fin 2) (kept : Nat)
  /-- THERMAL_SAMPLE (R450). Every 1 ms sensors are read and thermal steps of sides, tiles and stacks move. -/
  | thermalSample (x : Sample)
  /-- RECOVERY_LOADER_PACKAGE (R458). The recovery loader writes a package to slot A, checks it and restarts the Ditchrider. -/
  | recoveryLoaderPackage (pkg : Package) (env : StartEnv)
  /-- LOG_FLUSH (R462). Each second, or at 128 pending or both feeds lost, pending records are written to the persistent ring. -/
  | logFlush
  /-- LOG_READ (R461). Writing MGT_LOGRD.GO fetches a record from the SRAM or persistent ring into MGT_LOGDAT. -/
  | logRead (seq : BitVec 32) (boot : BitVec 16) (pers : Bool)
  /-- NOTICE_QUEUE_DRAIN (R463). When the Ditchrider runs again, PD0 notices are turned into records in arrival order. -/
  | noticeQueueDrain
  /-- SET_ENDPOINT_ID (R465). MCTP Set Endpoint ID assigns the module's EID. -/
  | setEndpointId (i : Fin 2) (eid : BitVec 8)
  /-- GET_TID (R466). PLDM GetTID is answered. -/
  | getTid (i : Fin 2)
  /-- SET_TID (R466). PLDM SetTID sets the terminus ID. -/
  | setTid (i : Fin 2) (t : BitVec 8)
  /-- GET_PLDM_VERSION (R466). PLDM GetPLDMVersion is answered. -/
  | getPldmVersion (i : Fin 2)
  /-- GET_PLDM_TYPES (R466). PLDM GetPLDMTypes is answered. -/
  | getPldmTypes (i : Fin 2)
  /-- GET_PLDM_COMMANDS (R466). PLDM GetPLDMCommands is answered. -/
  | getPldmCommands (i : Fin 2)
  /-- GET_PDR_REPOSITORY_INFO (R466). PLDM GetPDRRepositoryInfo is answered. -/
  | getPdrRepositoryInfo (i : Fin 2)
  /-- GET_PDR (R466). PLDM GetPDR returns sensor PDRs of Table 18-4. -/
  | getPdr (i : Fin 2) (n : Nat)
  /-- GET_SENSOR_READING (R466). PLDM GetSensorReading returns a numeric sensor. -/
  | getSensorReading (i : Fin 2) (id : BitVec 16)
  /-- GET_STATE_SENSOR_READINGS (R466). PLDM GetStateSensorReadings returns state sensors. -/
  | getStateSensorReadings (i : Fin 2) (id : BitVec 16)
  /-- SET_EVENT_RECEIVER (R464). PLDM SetEventReceiver sets where PlatformEventMessages go. -/
  | setEventReceiver (i : Fin 2) (eid : BitVec 8) (poll : Bool)
  /-- POLL_FOR_PLATFORM_EVENT_MESSAGE (R466). PLDM PollForPlatformEventMessage returns a pending event. -/
  | pollForPlatformEventMessage (i : Fin 2)
  /-- PLDM_UNSUPPORTED_COMMAND (R466). Any other PLDM command answers ERROR_UNSUPPORTED_PLDM_CMD. -/
  | pldmUnsupportedCommand (i : Fin 2)
  /-- QUERY_DEVICE_IDENTIFIERS (R466). PLDM QueryDeviceIdentifiers is answered. -/
  | queryDeviceIdentifiers (i : Fin 2)
  /-- GET_FIRMWARE_PARAMETERS (R466). PLDM GetFirmwareParameters reports versions. -/
  | getFirmwareParameters (i : Fin 2)
  /-- REQUEST_UPDATE (R466). PLDM RequestUpdate enters update mode for one agent. -/
  | requestUpdate (i : Fin 2) (ep : BitVec 8)
  /-- PASS_COMPONENT_TABLE (R466). PLDM PassComponentTable is accepted. -/
  | passComponentTable (i : Fin 2)
  /-- UPDATE_COMPONENT (R466). PLDM UpdateComponent starts transfer of a component into its slot. -/
  | updateComponent (i : Fin 2) (comp : BitVec 16)
  /-- REQUEST_FIRMWARE_DATA (R466). Data for a RequestFirmwareData arrives and is written to flash. -/
  | requestFirmwareData (i : Fin 2) (n : Nat)
  /-- TRANSFER_COMPLETE (R466). PLDM TransferComplete is exchanged when the component is received. -/
  | transferComplete (i : Fin 2) (pkg : Package)
  /-- VERIFY_COMPLETE (R456). The package is checked under R456 and VerifyComplete reports the result. -/
  | verifyComplete (i : Fin 2)
  /-- APPLY_COMPLETE (R466). ApplyComplete ends the apply phase; factory and revocation packages take effect. -/
  | applyComplete (i : Fin 2)
  /-- ACTIVATE_FIRMWARE (R470). PLDM ActivateFirmware restarts the Ditchrider core from the new slot. -/
  | activateFirmware (i : Fin 2)
  /-- GET_STATUS (R466). PLDM GetStatus reports update state. -/
  | getStatus (i : Fin 2)
  /-- CANCEL_UPDATE_COMPONENT (R466). PLDM CancelUpdateComponent cancels the component being transferred. -/
  | cancelUpdateComponent (i : Fin 2)
  /-- CANCEL_UPDATE (R471). PLDM CancelUpdate invalidates the partly written slot and leaves update mode. -/
  | cancelUpdate (i : Fin 2)
  /-- FM_IDENTIFY (R467). CXL FM API Identify is answered. -/
  | fmIdentify (i : Fin 2)
  /-- FM_BACKGROUND_OPERATION_STATUS (R467). CXL FM API Background Operation Status is answered. -/
  | fmBackgroundOperationStatus (i : Fin 2)
  /-- GET_RESPONSE_MESSAGE_LIMIT (R467). CXL FM API Get Response Message Limit is answered. -/
  | getResponseMessageLimit (i : Fin 2)
  /-- GET_MULTI_HEADED_INFO (R467). CXL FM API Get Multi-Headed Info reports 32 heads. -/
  | getMultiHeadedInfo (i : Fin 2)
  /-- GET_HEAD_INFO (R467). CXL FM API Get Head Info reports HOST ports as heads. -/
  | getHeadInfo (i : Fin 2)
  /-- GET_LD_INFO (R467). CXL FM API Get LD Info reports one LD per head. -/
  | getLdInfo (i : Fin 2)
  /-- GET_DCD_INFO (R467). CXL FM API Get DCD Info reflects Table 3-1. -/
  | getDcdInfo (i : Fin 2)
  /-- GET_HOST_DC_REGION_CONFIGURATION (R467). CXL FM API Get Host DC Region Configuration is answered. -/
  | getHostDcRegionConfiguration (i : Fin 2) (p : Fin 32)
  /-- GET_DC_REGION_EXTENT_LISTS (R467). CXL FM API Get DC Region Extent Lists reflects the view extents. -/
  | getDcRegionExtentLists (i : Fin 2) (p : Fin 32)
  /-- INITIATE_DYNAMIC_CAPACITY_ADD (R467). With FMDC 1, posts a keeper call of MGT_FMCTL.ENTRY and answers Background Operation Started. -/
  | initiateDynamicCapacityAdd (i : Fin 2) (args : BitVec 448)
  /-- INITIATE_DYNAMIC_CAPACITY_RELEASE (R467). With FMDC 1, posts a keeper call for a release and answers Background Operation Started. -/
  | initiateDynamicCapacityRelease (i : Fin 2) (args : BitVec 448)
  /-- FM_UNSUPPORTED_COMMAND (R467). Any unsupported FM API command is answered Unsupported. -/
  | fmUnsupportedCommand (i : Fin 2)
  /-- READ_RECORDS (R468). Vendor message 0x01 returns up to 8 records from either ring. -/
  | readRecords (i : Fin 2) (boot : BitVec 16) (seq : BitVec 32) (pers : Bool)
  /-- SUBMIT_CALL (R468). Vendor message 0x02, keeper only, commits a descriptor to the keeper queue and returns its TAG. -/
  | submitCall (i : Fin 2) (ep : BitVec 8) (entry : BitVec 8) (flags : BitVec 2) (args : BitVec 448)
  /-- READ_RESULTS (R468). Vendor message 0x03 returns results held for the endpoint's tags. -/
  | readResults (i : Fin 2) (ep : BitVec 8)
  /-- WRITE_LOCKED_FIELD (R468). Vendor message 0x04 writes UNLOCK, one RWL register and LOCK as one step. -/
  | writeLockedField (i : Fin 2) (a : BitVec 29) (v : Word)
  /-- COMMIT_SVN (R459). Vendor message 0x05 blows security-version fuses up to the package SVN. -/
  | commitSvn (i : Fin 2)
  /-- READ_REGISTER (R468). Vendor message 0x06 performs one aligned control read; SEC_ registers read 0. -/
  | readRegister (i : Fin 2) (a : BitVec 29)
  /-- KEEPER_QUEUE_HEADER_WRITE (R469). A Ditchrider header write commits a keeper-queue descriptor; other paths are refused with CAUSE 4. -/
  | keeperQueueHeaderWrite (w : By) (slot : Fin 64) (v : Word)
  /-- RESULT_HOLD_EXPIRY (R469). A result held for an endpoint's tag is discarded after 60 s. -/
  | resultHoldExpiry
  /-- PROGACT (R470). Writing MGT_UPD.PROGACT writes the staged program into each side's inactive bank and swaps. -/
  | progact
  /-- PHY_FIRMWARE_ACTIVATION (R470). A tile's PHY controllers swap firmware images between adaptation steps. -/
  | phyFirmwareActivation (t : Fin 4)
  /-- KICK (R472). Writing MGT_WD.KICK restarts the watchdog period. -/
  | kick
  /-- WATCHDOG_EXPIRY (R472). The watchdog period expires and escalates by LEVEL under Table 18-13. -/
  | watchdogExpiry (env : StartEnv)
  /-- WATCHDOG_LEVEL_DECAY (R472). 60 s without an expiry returns LEVEL to 0. -/
  | watchdogLevelDecay
  /-- WATCHDOG_HELD_RESTART (R472). After 600 s Held the core restarts from the boot mode 3 slot. -/
  | watchdogHeldRestart
  /-- COUNTER_TICK (R476). Each tick snapshots every block's counters, applies pending counter writes and writes ring records. -/
  | counterTick
  /-- RING_RECORD_COMPLETE (R479). A ring record's writes reach their completion point and WP advances. -/
  | ringRecordComplete
  /-- RING_ENABLE (R479). Writing CNT_RCTL.EN from 0 to 1 applies BASE, SIZELOG and MODE and sets WP and RP to 0. -/
  | ringEnable (mode : Bool) (sizelog : BitVec 5) (base : BitVec 36)
  /-- SAMPLE_TAKEN (R483). A source's count reaches 2^INTLOG; it records a sample with skid, stored or dropped when the buffer is full. -/
  | sampleTaken (j : Fin 16) (inst : Fin 64) (port : Fin 32) (addr : BitVec 48) (outcome : Fin 8) (lat : BitVec 16) (twUsed : BitVec 10)
  /-- CNT_SADV (R485). Writing CNT_SADV removes the oldest sample. -/
  | cntSadv
  /-- CXL_MEM_IDE_ACTIVE (R372). On a MEM port whose PT_IDE.REQ is 1, the module's SPDM and IDE key exchange with the sled completes and CXL.mem IDE
  becomes active, moving the port from Waiting to Up. -/
  | cxlMemIdeActive (p : Fin 32)
  /-- REINTEGRATION_REPLICATION_COMPLETE (R217). The copy of the placement table, the rebuild of the directory store and mirror, and the twinning
  scan of the survivor's dirty lines to the returning side end, UNTWINNED becomes 0 and the soak period begins. -/
  | reintegrationReplicationComplete
deriving DecidableEq, Repr

end Sys2Proof
end

