-- ==== Sys2Proof/Decode.lean ====
section
/-! DEFINITION. The commands that words of the table spell. -/

namespace Sys2Proof

/-- The command that the `nbits` bits `w` spell by the table of steps. The table gives none of its rows any bits, so no word spells a command. -/
def decodeTableWord (nbits w : Nat) : Option Instr := match nbits, w with
  | _, _ => none

end Sys2Proof
end

