-- ==== Sys2Proof/Config.lean ====
section
/-! DEFINITION. What the spec leaves open: values that nothing constrains. They have no body, so no proof can see one. -/

namespace Sys2Proof

/-- The n-th value that the machine draws where the spec gives none (random-number source, undefined results). -/
opaque Config.freeValue : Nat → Word

/-- The n-th line of data that the machine draws where the spec gives none (the bits under a poison mark). -/
opaque Config.freeLine : Nat → Line

/-- The keyed hash of a line that chooses a twin bucket (R194): key, which of the two hashes, line. -/
opaque Config.bucketHash : Nat → Nat → Nat → Nat

/-- The keyed hash of a plot that chooses a counter of the reuse predictor (R115): key, plot. -/
opaque Config.predHash : Nat → Nat → Nat

/-- Word of a shipped keeper program image (R455): the number of the image, word. -/
opaque Config.shippedWord : Nat → Nat → Nat

/-- The 14 check bits of the slot code over its 66 bits (Table 5-3, R389): the spec names a shortened double-error-correcting BCH code and
gives no generator (DESIGN CHOICE, entry 105). -/
opaque Config.bch : BitVec 66 → BitVec 14

/-- VER of a block's header, the design revision of its type code (Table 2-3). -/
opaque Config.blkVer : Nat → Nat

/-- Which of a side's four stacks holds the first of a group of items that R99 spreads equally over them: structure code, number of the
group. -/
opaque Config.stackOf : Nat → Nat → Nat

/-- LOC of an item of a structure whose rows and columns the spec does not lay out (Table 15-6): structure code, number of the item. -/
opaque Config.errLoc : Nat → Nat → Nat

end Sys2Proof
end

