-- ==== Sys2Proof/Machine/Bits.lean ====
section
/-! DEFINITION. Bit fields, parities, counters and byte masks: the plain arithmetic that the registers and the data path share. -/

namespace Sys2Proof.Machine

/-- Field of width `w` from bit `lo` of `n`. -/
def bitsOf (n lo w : Nat) : Nat := (n >>> lo) % 2 ^ w

/-- Bit `i` of `n`. -/
def bitOf (n i : Nat) : Bool := (n >>> i) % 2 = 1

/-- `n` with its field of width `w` at `lo` replaced by `v`. -/
def setBits (n lo w v : Nat) : Nat :=
  n - (bitsOf n lo w) * 2 ^ lo + (v % 2 ^ w) * 2 ^ lo

/-- `n` with bit `i` set to `b`. -/
def setBit (n i : Nat) (b : Bool) : Nat := setBits n i 1 (if b then 1 else 0)

/-- Number of ones in the low `w` bits of `n`. -/
def popc : Nat → Nat → Nat
  | 0, _ => 0
  | w + 1, n => n % 2 + popc w (n / 2)

/-- Parity of the low `w` bits of `n`. -/
def parity (w n : Nat) : Bool := popc w n % 2 = 1

/-- A truth value as 0 or 1. -/
def b2n (b : Bool) : Nat := if b then 1 else 0

/-- Adds `k` to a counter that saturates at `top`. -/
def satAdd (top n k : Nat) : Nat := min top (n + k)

/-- The byte mask `m` widened to bits: byte i of the result is all ones where bit i of `m` is 1. -/
def spreadN : Nat → Nat → Nat
  | 0, _ => 0
  | k + 1, m => (if m % 2 = 1 then 255 else 0) + 256 * spreadN k (m / 2)

/-- The bits of a line that a byte mask selects (R80). -/
def spread (m : Mask) : Line := BitVec.ofNat 512 (spreadN 64 m.toNat)

/-- `old` with the bytes of `new` that `m` selects (R81): the read-modify-write merge. -/
def mergeLine (old new : Line) (m : Mask) : Line :=
  let b := spread m
  (old &&& ~~~b) ||| (new &&& b)

/-- Every byte enabled. -/
def fullMask : Mask := BitVec.allOnes 64

/-- The mask of `n` bytes from byte `off` of a line. -/
def maskAt (off n : Nat) : Mask := BitVec.ofNat 64 ((2 ^ n - 1) * 2 ^ off)

/-- A line with the low `n` bytes of `v` at byte `off`, zero elsewhere. -/
def lineAt (off n v : Nat) : Line := BitVec.ofNat 512 ((v % 2 ^ (8 * n)) * 2 ^ (8 * off))

/-- The `n` bytes from byte `off` of a line. -/
def bytesAt (l : Line) (off n : Nat) : Nat := bitsOf l.toNat (8 * off) (8 * n)

/-- 64-bit word `j` of a line. -/
def wordAt (l : Line) (j : Nat) : Word := BitVec.ofNat 64 (bitsOf l.toNat (64 * j) 64)

/-- Rotates a 20-bit number left by 4 (R104). -/
def rotl20by4 (n : Nat) : Nat := ((n * 16) ||| (n / 65536)) % 2 ^ 20

/-- The first element that satisfies `p`, with its position. -/
def findIdx? {α : Type} (p : α → Bool) : List α → Option (Nat × α)
  | [] => none
  | x :: xs => if p x then some (0, x) else (findIdx? p xs).map fun r => (r.1 + 1, r.2)

/-- Removes the first element that satisfies `p`. -/
def dropFirst {α : Type} (p : α → Bool) : List α → List α
  | [] => []
  | x :: xs => if p x then xs else x :: dropFirst p xs

/-- Replaces the first element that satisfies `p` by `f` of it. -/
def mapFirst {α : Type} (p : α → Bool) (f : α → α) : List α → List α
  | [] => []
  | x :: xs => if p x then f x :: xs else x :: mapFirst p f xs

/-- Replaces element `n`. -/
def setNth {α : Type} : List α → Nat → α → List α
  | [], _, _ => []
  | _ :: xs, 0, v => v :: xs
  | x :: xs, n + 1, v => x :: setNth xs n v

/-- Applies `f` for every number below `n`, from 0 up. -/
def forN {α : Type} : Nat → (Nat → α → α) → α → α
  | 0, _, x => x
  | n + 1, f, x => f n (forN n f x)

/-- The lowest number below `n` that satisfies `p`. -/
def lowest? (n : Nat) (p : Nat → Bool) : Option Nat := (List.range n).find? p

end Sys2Proof.Machine
end

