-- ==== Sys2Proof/Machine/Field.lean ====
section
/-! DEFINITION. What a register field is: its place, width, reset value, access type (Table 2-9) and the encodings it refuses
(R31). -/

namespace Sys2Proof.Machine

/-- The access types of Table 2-9. -/
inductive Acc where
  | ro | rw | wo | w1c | w1s | rc | rwl | rs
deriving DecidableEq, Repr

/-- Which written values of a field are reserved encodings or misaligned bases (R31). -/
inductive Chk where
  /-- Every value is accepted. -/
  | any
  /-- Only values from `lo` to `hi`. -/
  | rng (lo hi : Nat)
  /-- SE_TWIN.BASE: bits below SIZE must be 0, refused with CAUSE 3. -/
  | twin
  /-- XX_CNTCFG.EVENT: only codes of the block's event table. -/
  | event
  /-- RGE_CCTL.OFF: 3 and 7 are reserved. -/
  | off
  /-- NOC_PRBCTL.PORT: 3, and any value but 0 with RTR 7, are reserved. -/
  | prbPort
  /-- PT_CFGA.OFFSET: bits 1:0 must be 0. -/
  | mult4
  /-- ERR_INJ.STRUCT: only codes of Table 15-1. -/
  | struct
  /-- MGT_IFCTL.SMBADDR: 0x00 to 0x07 and 0x78 to 0x7F are reserved. -/
  | smb
  /-- CNT_RSEL.BASE: only bases of Table 19-1. -/
  | cntBase
  /-- CNT_SAMPCTL.INST: above 31 with KIND 1 is reserved. -/
  | sampInst
  /-- DIR_QUERY.LINE: only lines that the slice homes. -/
  | qline
deriving DecidableEq, Repr

/-- A field: offset of its register in the block, lowest bit, width, reset value, access type and check. -/
structure Fld where
  off : Nat
  lo : Nat
  w : Nat
  rst : Nat
  acc : Acc
  chk : Chk
deriving DecidableEq, Repr

/-- The reset domain of a register. -/
inductive Dom where
  | cold | modwarm | side | port | block | never
deriving DecidableEq, Repr

/-- The ports on which a PT_ register exists; elsewhere it reads 0 and drops writes. -/
inductive RoleOf where
  | any | host | io | mem | hostMem
deriving DecidableEq, Repr

/-- A register or an array of registers: offset, (stride, count) of each index, reset domain, ports and fields. -/
structure Reg where
  off : Nat
  dims : List (Nat × Nat)
  dom : Dom
  role : RoleOf
  flds : List Fld
deriving DecidableEq, Repr

end Sys2Proof.Machine
end

