-- ==== Sys2Proof/Machine/DataHome.lean ====
section
/-! DEFINITION. The data of a coherence home: requests, miss registers, buffers, Headgate lines, directory entries, Reservoir
slots, tailwater entries and twin copies (chapters 4 to 8). Lines are named by pool line number, pool address bits [47:6]. -/

namespace Sys2Proof.Machine

/-- The atomic operations of R154, R289 and R368. -/
inductive Amo where
  | add | and | or | xor | swap | cas | minu | maxu
deriving DecidableEq, Repr

/-- The classes of Table 6-6. `wbNoOp` is a write with MetaField No-Op, whose class depends on the recorded owner. -/
inductive HostCls where
  | rdCur | rdShared | rdOwn | own | share | release | touch | wbInv | wbShared | wbKeep | wbNoOp
deriving DecidableEq, Repr

/-- The line operations of range engines (Table 12-1). -/
inductive Maint where
  | clean | flush | discard | zero | prefetch
deriving DecidableEq, Repr

/-- What a request asks of the home slice (Tables 6-6 and 6-8). -/
inductive Op where
  | host (c : HostCls)
  | ioRead | ioWrite | load | store | flumeRead | flumeWrite
  | atomic (a : Amo) (off size : Nat) (opnd cmp : Nat)
  /-- Takes the rights of the ports of a presence vector away, and frees the entry when none is left (Table 3-4, Table 3-13). -/
  | evictPorts (ps : Nat)
  /-- A range line; `grp` is the group number of an aligned group of four lines (R318). -/
  | maint (q : Maint) (grp : Option Nat)
  | prefetch
deriving DecidableEq, Repr

/-- Who receives the completion of a request. The numbers are a port, engine, channel or range engine, then a transaction. -/
inductive Src where
  | host (p id : Nat) | io (p id : Nat) | load (e : Nat) | store (e : Nat) | amo (e : Nat)
  | flume (c k : Nat) | range (n k : Nat) | ext (p e : Nat) | regw (ent : Nat)
  /-- Line `k` of ring record `i` of the counter collector (R479). -/
  | ring (i k : Nat)
  | none
deriving DecidableEq, Repr

/-- The states of a directory entry that is not free (Table 6-4). -/
inductive DirSt where
  | s | o | e | m
deriving DecidableEq, Repr

/-- A line image and its poison mark. -/
structure Img where
  data : Line
  poison : Bool
deriving DecidableEq, Repr

/-- The attributes of a line's region (Table 3-6). -/
structure Attr where
  ports : Nat
  wpol : Nat
  hga : Bool
  rsa : Bool
  pf : Bool
  priv : Bool
  owner : Nat
  pclass : Nat
  mir : Bool
  covered : Bool
deriving DecidableEq, Repr

/-- A request as it travels on the REQ network: the data and mask of a write, and whether the data is poisoned. -/
structure Req where
  op : Op
  src : Src
  pln : Nat
  data : Line
  mask : Mask
  poison : Bool
  /-- The rights that the home's directory change has given the host that asked (R148). -/
  rights : Option DirSt := none
  /-- The attributes of its region when it was decoded (R60); none for what the module asks of itself. -/
  attr : Option Attr := none
deriving DecidableEq, Repr

/-- The transient states of Table 6-9 that a miss register holds. VR is held in recall slots. -/
inductive Trans where
  | si | oi | os | oc
  /-- Rights of a line whose directory set is lost are being taken away from every permitted port (R396). -/
  | lost
deriving DecidableEq, Repr

/-- What a miss register waits for. -/
inductive Phase where
  /-- Its directory set is being read from the store (R145). -/
  | dirFill
  /-- It waits in the directory-wait queue or for a recall (R160, R161). -/
  | dirWait
  /-- Snoops of the listed ports are open (Table 6-9). -/
  | snoop (t : Trans) (left : List Nat)
  /-- A slot read and tailwater lookup are due (R107). -/
  | lookup
  /-- A sled read is outstanding or held (R59, R111). -/
  | sled
  /-- The fill has been sent to the register (R77). -/
  | filled
  /-- The line is whole; the install is due or held (R74, R78). -/
  | full
  /-- A formed image waits for its twin acknowledgment (R176, R182). -/
  | twin
  /-- A posted write is prepared and waits for its release (R176). -/
  | prepared
  /-- A formed image waits for the sled's acknowledgment (Table 4-7, Table 8-9). -/
  | sledWrite
deriving DecidableEq, Repr

/-- Do snoops of the line wait for their answers? -/
def Phase.snooping : Phase → Bool
  | .snoop _ _ => true
  | _ => false

/-- What a request's directory lookup has counted (Table 6-16): nothing, a miss of the directory cache, or all. -/
inductive Looked where
  | no | missed | yes
deriving DecidableEq, Repr

/-- A miss register of slice `h` (R75, R76): its merged requests in arrival order and one maintenance waiter. -/
structure Mshr where
  h : Nat
  pln : Nat
  phase : Phase
  reqs : List Req
  waiter : Option Req
  buf : Option Img
  /-- Coherence is settled for the first merged request. -/
  coh : Bool
  /-- Some request lets the line be allocated in the Headgate. -/
  alloc : Bool
  /-- Snoop data that is not merged yet (R156): of less than a line that waits for the fill, or of a write that waits for the answers. -/
  late : List Req
  /-- The buffer is newer than the sled. -/
  dirty : Bool
  /-- The line came from a Dirty or Poisoned slot, so an install sends a take (R108). -/
  take : Bool
  /-- Opened by a prefetch and joined by no demand request (R89). -/
  pf : Bool
  /-- Some merged request was a demand request, so the install updates the node bits (R72). -/
  demand : Bool
  /-- The line came from a sled, so it may be offered at fill time (R109). -/
  fromSled : Bool
  /-- The snoops of R396 have been answered for the first merged request. -/
  lostDone : Bool
  /-- Hosts whose write was taken as the data of their open snoop (R156). -/
  gave : List Nat
  /-- The first merged request is the one that allocated the register, and has not yet asked for the line's fetch (R87). -/
  own : Bool
  /-- The directory lookup of the first merged request. -/
  seen : Looked
deriving DecidableEq, Repr

/-- A Formed write-buffer entry (R80). -/
structure WbEnt where
  h : Nat
  pln : Nat
  img : Img
deriving DecidableEq, Repr

/-- A victim-buffer entry (R90). -/
structure VbEnt where
  h : Nat
  pln : Nat
  img : Img
  dirty : Bool
  pf : Bool
deriving DecidableEq, Repr

/-- A valid Headgate way: tag entry and line (R66). -/
structure HgLine where
  tag : Nat
  d : Bool
  pf : Bool
  img : Img
deriving DecidableEq, Repr

/-- A fill on its way to a miss register (R77). -/
structure Fill where
  h : Nat
  pln : Nat
  img : Img
  dirty : Bool
  take : Bool
  fromSled : Bool
deriving DecidableEq, Repr

/-- A directory entry: TAG, STATE and PRES (Table 6-4). -/
structure DirEnt where
  tag : Nat
  st : DirSt
  pres : Nat
deriving DecidableEq, Repr

/-- A way of a slice's directory cache: which half's set it holds, its tag and whether it differs from the store (R145). -/
structure DcWay where
  half : Nat
  tag : Nat
  dirty : Bool
deriving DecidableEq, Repr

/-- A recall slot: a directory victim whose holders are being snooped in VR (R160). -/
structure Recall where
  h : Nat
  key : Nat
  pln : Nat
  left : List Nat
  /-- Hosts whose write was taken as the recall's data (R156). -/
  gave : List Nat
  /-- Line of the register that waits for the recalled way. -/
  cause : Nat
deriving DecidableEq, Repr

/-- A BIRsp that a tile has matched, on its way to the home (R155). -/
structure SnpRsp where
  h : Nat
  pln : Nat
  port : Nat
  st : Option DirSt
deriving DecidableEq, Repr

/-- A cleaning pass over a way (R95); `again` records that the way was enabled again during it. -/
structure WayPass where
  h : Nat
  way : Nat
  clear : Bool
  again : Bool
deriving DecidableEq, Repr

/-- Work that other blocks ask of a home slice as internal work: a release check (R197), a clean request (R196), a re-twin
request (R397). -/
inductive HomeNote where
  | relCheck (h pln : Nat) | cleanReq (h pln : Nat) | retwin (h pln : Nat)
deriving DecidableEq, Repr

/-- A lost-set sweep of a directory set (R396). -/
structure LostSet where
  half : Nat
  set : Nat
  /-- Lines of the set swept so far. -/
  pos : Nat
deriving DecidableEq, Repr

/-- The home slices of both sides, slice by global number, and what travels to them. -/
structure Home where
  reqQ : List (Nat × Req)
  fillQ : List Fill
  rspQ : List SnpRsp
  snpData : List (Nat × Req)
  pfQ : List (Nat × Nat)
  notes : List HomeNote
  mshrs : List Mshr
  mwq : List (Nat × Req)
  wb : List WbEnt
  vb : List VbEnt
  hg : List (Nat × HgLine)
  plru : List (Nat × Nat)
  ways : List WayPass
  dir : List (Nat × DirEnt)
  mirror : List (Nat × DirEnt)
  dc : List (Nat × DcWay)
  dcPlru : List (Nat × Nat)
  dwq : List (Nat × Nat)
  recalls : List Recall
  /-- Ports whose lost-port sweep has not ended (R165). -/
  lostSweeps : List Nat
  lostSets : List LostSet
deriving DecidableEq, Repr

/-- States of a slot that is not Invalid (Table 5-5). -/
inductive SlotSt where
  | clean | dirty | poisoned
deriving DecidableEq, Repr

/-- A Reservoir slot (Table 5-4). -/
structure Slot where
  tag : Nat
  st : SlotSt
  epoch : Nat
  data : Line
deriving DecidableEq, Repr

/-- Where an offered line comes from, which decides what follows when it is taken or declined (R109 to R112). -/
inductive OfferFrom where
  | victim | fill | writeThrough | formed
deriving DecidableEq, Repr

/-- An offer of a line to the Reservoir of side `sd` (R112). -/
structure Offer where
  sd : Nat
  pln : Nat
  img : Img
  dirty : Bool
  pf : Bool
  from_ : OfferFrom
deriving DecidableEq, Repr

/-- A retirement operation of a controller (R131, R132). -/
structure FrameMove where
  op : Nat
  pc : Nat
  frame : Nat
  /-- The engine whose FRET waits for the result, if any. -/
  eng : Option Nat
deriving DecidableEq, Repr

/-- What a Reservoir controller keeps beside its registers (R115, R116). -/
structure Ctl where
  dirUp : Bool
  first : Bool
  offers : Nat
  hits : Nat
  lookups : Nat
  lastHits : Nat
  lastLookups : Nat
  move : Option FrameMove
deriving DecidableEq, Repr

/-- What a tailwater write completes, and what follows at the home when it is acknowledged. -/
inductive TwDone where
  /-- A write that completes to its writer, with the result of an atomic. -/
  | writer (r : Req) (result : Nat)
  /-- A write that completes although its data is lost with the sled (Table 3-12). -/
  | lostWriter (r : Req)
  /-- A miss register that holds the formed image closes. -/
  | mshr (h : Nat)
  /-- The Headgate way becomes clean if it still holds this image (Table 4-7, WPOL 1 and 2). -/
  | cleanWay (h : Nat) (img : Img)
  /-- A twin record of the taken half frees (R211). -/
  | drain (sd : Nat)
  /-- Nothing waits. -/
  | none
deriving DecidableEq, Repr

/-- A line whose sled write has been acknowledged and whose slot is still to be written Clean, with what completes then
(R117). -/
structure CleanWr where
  sd : Nat
  pln : Nat
  img : Img
  mask : Mask
  done : List TwDone
deriving DecidableEq, Repr

/-- The Reservoir of both sides. -/
structure Rsv where
  /-- Side times 2^31 plus index (R105). -/
  slots : List (Nat × Slot)
  /-- Round keys k1 to k4 of (side, epoch) (R104). -/
  keys : List (Nat × List Nat)
  /-- Hash key of a side's predictors (R115). -/
  predKey : List (Nat × Nat)
  /-- Controller times 4096 plus counter (R115). -/
  pred : List (Nat × Nat)
  ctls : List (Nat × Ctl)
  /-- (controller, pseudo-channel, frame): 0 barred, 1 not remapped, n + 2 for spare frame n (R130). -/
  remap : List (Nat × Nat)
  /-- Spare frames used in each (controller, pseudo-channel). -/
  spares : List (Nat × Nat)
  offers : List Offer
  takes : List (Nat × Nat)
  /-- Clean slot writes that are due (R117). -/
  cleanWr : List CleanWr
  /-- The next slot index of each side's background cleaner (R202). -/
  cleanPtr : List (Nat × Nat)
  /-- Slots that the rekey sweep has finished on each channel, (side, channel) (R228). -/
  rekPos : List (Nat × Nat)
deriving DecidableEq, Repr

/-- The states of a used tailwater entry (Table 5-11). -/
inductive TwSt where
  | waiting | issued | held
deriving DecidableEq, Repr

/-- Where a waiting sled write stands until the buffer takes it (R124). -/
inductive TwOrigin where
  | victim (h : Nat) | other
deriving DecidableEq, Repr

/-- A sled write on its way into the tailwater buffer of side `sd` (R119). -/
structure TwIn where
  sd : Nat
  pln : Nat
  img : Img
  mask : Mask
  done : List TwDone
  origin : TwOrigin
deriving DecidableEq, Repr

/-- A tailwater entry (R118): locations as (MEM port, sled plot), those still to acknowledge, and the writers merged. -/
structure TwEnt where
  sd : Nat
  pln : Nat
  img : Img
  mask : Mask
  locs : List (Nat × Nat)
  left : List Nat
  st : TwSt
  done : List TwDone
  /-- Age: the entry's place in the order in which the side's entries became Waiting (R118, R123). -/
  age : Nat
deriving DecidableEq, Repr

/-- What a twin acknowledgment completes (R193). -/
inductive AckFor where
  /-- A write in the Headgate or a snoop's data: completes `r`. -/
  | write (r : Req) (result : Nat)
  /-- A formed image in a miss register (R176, R182). -/
  | formed (r : Req) (result : Nat)
  /-- Nothing waits (poisoning under R164, a re-twin). -/
  | none
deriving DecidableEq, Repr

/-- A twin search target (R394): a Headgate set of a slice, or a slot index of a side. -/
inductive Target where
  | hgSet (h set : Nat)
  | slot (sd i : Nat)
deriving DecidableEq, Repr

/-- What a twin lookup repairs (R393, Table 15-4): a slot, a Headgate way, a victim-buffer entry, a tailwater entry. -/
inductive Repair where
  | slot (sd i : Nat)
  | way (h set w : Nat)
  | victim (h : Nat)
  | tail (sd : Nat)
deriving DecidableEq, Repr

/-- A message of a home slice's stream over the bridge (R192, Table 8-4). -/
inductive Stream where
  | twinWrite (pln : Nat) (img : Img) (pending : Bool) (ack : AckFor)
  | release (pln : Nat)
  | mirror (key : Nat) (ent : Option DirEnt) (grant : Option (Nat × Nat))
  | commit (pln : Nat)
  | lookup (pln : Nat) (what : Repair)
  | search (t : Target)
deriving DecidableEq, Repr

/-- A staged twin copy on side `sd` (Table 8-3). -/
structure Staged where
  sd : Nat
  pln : Nat
  img : Img
  pending : Bool
deriving DecidableEq, Repr

/-- A twin record in the bucket store (Table 8-2). -/
structure Rec where
  pln : Nat
  img : Img
  secondary : Bool
deriving DecidableEq, Repr

/-- A twin acknowledgment on its way to slice `h` (R198). -/
structure TwinAck where
  h : Nat
  pln : Nat
  isNew : Bool
  ack : AckFor
deriving DecidableEq, Repr

/-- The twin logs of both sides and the bridge between them. -/
structure Twin where
  stream : List (Nat × Stream)
  acks : List TwinAck
  /-- Writer and the result of an atomic. -/
  notices : List (Src × Nat)
  /-- Notices received by engines, channels and range engines for accesses not yet complete (Table 8-7). -/
  unitNotices : List (Src × Nat)
  /-- Sides whose line was released. -/
  relAcks : List (Nat × Nat)
  /-- Port and line of a grant. -/
  mirAcks : List (Nat × Nat)
  /-- Least recently written first. -/
  staged : List Staged
  /-- (side, bucket, record). -/
  recs : List (Nat × Rec)
  ovf : List (Nat × Nat)
  bucketKey : List (Nat × Nat)
  /-- Lines of each home side that have a twin copy, or that are dirty and untwinned (R212). -/
  untwinned : List (Nat × Nat)
  /-- Home sides that a twin refresh has been asked of (0 and 1), and those whose twin writes have been sent (2 and 3) (R395). -/
  refresh : List Nat
  /-- Heartbeats and health pulses missed in a row, by side. -/
  hbRun : List (Nat × Nat)
  hpRun : List (Nat × Nat)
  /-- A planned stop: the side and what asked for it (R216). -/
  stopping : Option Nat
  /-- Spillway entry is under way, or Spillway mode is on (R219). -/
  entering : Bool
  /-- The stopped or failed side that returns (R217). -/
  returning : Option Nat
  /-- Replication to the returning side has ended (Table 8-12, step 5). -/
  replicated : Bool
  /-- Slice pairs already handed back (R218). -/
  handed : Nat
  /-- The slice pair whose requests the tiles hold for its handback (R218). -/
  holding : Option Nat
  /-- An error of class UCC or SFE has been recorded on the returning side since its soak period began (Table 8-12, step 6). -/
  soakBad : Bool
deriving DecidableEq, Repr

end Sys2Proof.Machine
end

