-- ==== Sys2Proof/Machine/DataEng.lean ====
section
/-! DEFINITION. The data of sluice engines, their program stores, range engines and flume channels (chapters 10 to 12). -/

namespace Sys2Proof.Machine

/-- Trap codes (R266). -/
inductive TrapCode where
  | illegal | priv | align | access | ifetchUe | dataPoison | timeout
deriving DecidableEq, Repr

/-- The number of a trap code. -/
def TrapCode.num : TrapCode → Nat
  | .illegal => 0 | .priv => 1 | .align => 2 | .access => 3 | .ifetchUe => 4 | .dataPoison => 5 | .timeout => 6

/-- A trap to be reported: its code, the word index of the instruction and the address of its access (Table 10-14). -/
structure Trap where
  code : TrapCode
  pc : Nat
  addr : Nat
deriving DecidableEq, Repr

/-- The access spaces of Table 11-3. -/
inductive Space where
  | pool | scratch | control
deriving DecidableEq, Repr

/-- A store-buffer entry (R181): target, effective address without its tag, bytes and data, and the word index of its store. -/
structure SbEnt where
  space : Space
  addr : Nat
  size : Nat
  data : Nat
  pc : Nat
  sent : Bool
  /-- Its target has completed it. -/
  ack : Bool
  /-- An engine reset ended its call after it was sent (Table 7-7). -/
  orphan : Bool
deriving DecidableEq, Repr

/-- A pool access that an engine waits for: a load with what its first line has returned, or an atomic. -/
inductive EngWait where
  | none
  | load (rd size : Nat) (signed : Bool) (addr : Nat) (got : Option (Nat × Nat))
  | amo (rd size off addr : Nat)
deriving DecidableEq, Repr

/-- A handle of R294, in start order. -/
structure Handle where
  flume : Bool
  unit : Nat
  seq : Nat
deriving DecidableEq, Repr

/-- The states of Table 10-3. -/
inductive EngSt where
  | idle | running | waiting | draining | held
deriving DecidableEq, Repr

/-- SE_ENG.STATE (Table 10-13). -/
def EngSt.num : EngSt → Nat
  | .idle => 0 | .running => 1 | .waiting => 2 | .draining => 3 | .held => 4

/-- A sluice engine beside its registers g0 to g31 and its scratch memory. -/
structure Eng where
  st : EngSt
  pc : Nat
  bank : Nat
  keeper : Bool
  port : Nat
  queue : Nat
  tag : Nat
  entry : Nat
  gen : Nat
  /-- Call record of the call that runs. -/
  call : Option Nat
  /-- Time of the call's first instruction and its limit in µs (R252). -/
  start : Nat
  limit : Option Nat
  /-- The limit has been reached. -/
  late : Bool
  /-- Store buffer, head first. -/
  sb : List SbEnt
  /-- A FENCE.SL holds loads until the buffer is empty (R185). -/
  slFence : Bool
  wait : EngWait
  /-- A trap that waits for the drain, or a refused store's trap that waits for the instruction boundary (R274, R511). -/
  trap : Option Trap
  handles : List Handle
  /-- Progress of the kind P instruction at the PC once it has begun (R292). -/
  p : Option Nat
  seq : Nat
  instret : Nat
  /-- Lines of loads and atomics that a reset abandoned and whose completions are still to come. -/
  ghosts : List Nat
  /-- RESULT of the frame retirement that this engine's FRET started, once it has ended (R305). -/
  fret : Option Nat
  /-- Outcome and sequence number of this engine's settings commit, once it has ended (R306). -/
  commit : Option (Nat × Nat)
deriving DecidableEq, Repr

/-- An idle engine. -/
def Eng.fresh : Eng :=
  { st := .idle, pc := 0, bank := 0, keeper := false, port := 0, queue := 0, tag := 0, entry := 0, gen := 0, call := none, start := 0
    limit := none, late := false, sb := [], slFence := false, wait := .none, trap := none, handles := [], p := none, seq := 0, instret := 0
    ghosts := [], fret := none, commit := none }

/-- A range operation bound to range engine `n` (R315 to R319). -/
structure RangeOp where
  n : Nat
  op : Nat
  first : Nat
  lines : Nat
  /-- Lines of the quanta started. -/
  begun : Nat
  /-- Lines of the current quantum whose requests are still to reach their homes, and those not yet completed. -/
  toSend : List Nat
  open_ : List Nat
  finished : Nat
  /-- Lowest nonzero status met. -/
  status : Nat
  stop : Bool
  ended : Bool
deriving DecidableEq, Repr

/-- The completion of a range line on its way to its engine. -/
structure RangeDone where
  n : Nat
  pln : Nat
  status : Nat
deriving DecidableEq, Repr

/-- A step in flight of a flume channel: its number, the trackers still to confirm, lines to read, lines to write. -/
structure FlumeStep where
  idx : Nat
  /-- Names this run of the step, so that no answer to a step that was abandoned is taken for one of it. -/
  tag : Nat
  clears : List Nat
  reads : List Nat
  writes : List Nat
deriving DecidableEq, Repr

/-- A flume operation bound to channel `c` (R322 to R326). -/
structure FlumeOp where
  c : Nat
  kind : Nat
  steps : Nat
  src : Nat
  dst : Nat
  /-- Steps completed. -/
  finished : Nat
  /-- Steps in flight, lowest first. -/
  run : List FlumeStep
  /-- Number of steps started. -/
  begun : Nat
  status : Nat
  stop : Bool
  ended : Bool
deriving DecidableEq, Repr

/-- Engines, program stores, and the units they start. -/
structure Engines where
  eng : List (Nat × Eng)
  /-- Register r of engine e under 32 e + r. -/
  greg : List (Nat × Word)
  /-- Scratch byte a of engine e under 65536 e + a. -/
  scratch : List Host.Cell
  /-- Program words that differ from their bank's base: word w of bank b of side s under (2 s + b) 2^18 + w, and of spare page i under
  2^20 + (8 (2 s + b) + i) 2^10 + w. -/
  prog : List (Nat × Nat)
  /-- The shipped image that each bank 2 s + b was loaded from; 0 when none. -/
  progBase : List (Nat × Nat)
  /-- Blocks of eight program words that are uncorrectable (R402), under the key of their first word. -/
  progBad : List Nat
  /-- HOST port that the dispatcher last served (R258). -/
  turn : Nat
  ranges : List RangeOp
  rangeQ : List RangeDone
  flumes : List FlumeOp
deriving DecidableEq, Repr

end Sys2Proof.Machine
end

