-- ==== Sys2Proof/Machine/DataPort.lean ====
section
/-! DEFINITION. The data of ports, composition and the tiles (chapters 3, 6, 7, 10 and 14), and the messages the module sends. -/

namespace Sys2Proof.Machine

/-- How an access ended: performed; refused because the plot has no storage (R54); or performed on a line whose sled is lost, so
that the data is gone (Table 3-12). -/
inductive How where
  | ok | refused | lost
deriving DecidableEq, Repr

/-- The completion of a request on its way to its requester: data, state granted to a host, result of an atomic, and how it
ended. -/
structure Done where
  src : Src
  pln : Nat
  img : Option Img
  grant : Option DirSt
  result : Nat
  how : How
  /-- The rights that the home's directory change has given the host (R148). -/
  rights : Option DirSt
deriving DecidableEq, Repr

/-- The NDR messages of Table 6-2. -/
inductive Ndr where
  | cmp | cmpS | cmpE | biConflictAck
deriving DecidableEq, Repr

/-- QoS telemetry of a response (R362). -/
inductive DevLoad where
  | light | optimal | moderate | severe
deriving DecidableEq, Repr

/-- The back-invalidate snoops of Table 6-2. -/
inductive Snp where
  | cur | data | inv | invBlk
deriving DecidableEq, Repr

/-- A completion status of a PCIe request. -/
inductive CplSt where
  | sc | ur
deriving DecidableEq, Repr

/-- Return codes of the memory-device mailbox and the FM API. -/
inductive Rc where
  | success | unsupported | invalid | started
deriving DecidableEq, Repr

/-- Messages and signals that leave the module, oldest first in the outbox. -/
inductive Out where
  | ndr (p : Nat) (k : Ndr) (tag : Nat) (load : DevLoad)
  | drs (p tag : Nat) (img : Img) (load : DevLoad)
  | bisnp (p : Nat) (k : Snp) (pln : Nat)
  | ioCpl (p tag : Nat) (st : CplSt) (data : Line) (off len : Nat) (poison : Bool)
  | sledRead (p id addr : Nat)
  | sledWrite (p id addr : Nat) (img : Img) (mask : Mask)
  | sledCmd (p : Nat) (name : String)
  | cfgReq (p : Nat) (write : Bool) (func off be data : Nat)
  | cxlIo (p : Nat) (name : String) (vals : List Nat)
  /-- The completion of a host BAR read. -/
  | barRead (p val : Nat)
  | mailbox (p : Nat) (cmd : String) (rc : Rc) (vals : List Nat)
  | msix (p vec : Nat)
  | perst (p : Nat) (low : Bool)
  | train (p : Nat)
  | mgmt (name : String) (vals : List Nat)
  /-- The completion of a Ditchrider's control access: the value read, or a bus error. -/
  | ctl (a : Nat) (v : Option Nat)
  | alert (low : Bool)
  | fault (low : Bool)
deriving DecidableEq, Repr

/-- What a sled request is for. -/
inductive SledFor where
  /-- A fill of a miss register; `second` when the second location is read (R55). -/
  | fill (h pln : Nat) (second : Bool)
  /-- A tailwater entry. -/
  | tail (sd pln : Nat)
  /-- The write of repaired data to the primary (R55). -/
  | repair (pln : Nat)
  | flumeRead (c k : Nat) | flumeWrite (c k : Nat)
deriving DecidableEq, Repr

/-- A sled request of a MEM port: a port transaction table entry (R366, R367). -/
structure SledReq where
  id : Nat
  port : Nat
  sd : Nat
  what : SledFor
  addr : Nat
  /-- Sent to the sled; otherwise held until the port is Up and has an entry free. -/
  sent : Bool
  /-- Its side was fenced, so the response is discarded (R207). -/
  fenced : Bool
  /-- The replay copy of a write (R380). -/
  img : Img
  mask : Mask
  /-- Sent before, so that sending it again reissues it (R380). -/
  again : Bool
deriving DecidableEq, Repr

/-- A port transaction table entry of a HOST or IO port: the request, the partner's tag, its state and its twin notice. -/
structure Ptt where
  id : Nat
  port : Nat
  tag : Nat
  req : Req
  /-- Posted writes: issued, prepared or released (R176); others: sent to their home or held at the tile. -/
  held : Bool
  posted : Bool
  prepared : Bool
  released : Bool
  ro : Bool
  ido : Bool
  rid : Nat
  /-- Twin notice with the result (R193). -/
  notice : Option Nat
  /-- Bytes of the response: first byte and count, for IO completions. -/
  off : Nat
  len : Nat
  /-- Data that has returned and waits for earlier completions of the same read (Table 7-2). -/
  got : Option Img
  /-- Its port was lost or its link went down: nothing is sent for it any more (Table 14-8). -/
  dead : Bool
  /-- The HPA or DMA address that was asked for (Table 3-9). -/
  ask : Nat
deriving DecidableEq, Repr

/-- An open back-invalidate in a tile's snoop table (Table 6-17): per line, with the lines of its block still unanswered. -/
structure OpenSnp where
  port : Nat
  pln : Nat
  kind : Snp
  h : Nat
  /-- The failed side's snoop: its later answer is discarded without an error (Table 8-7). -/
  fenced : Bool
  /-- Sent to the host; otherwise it waits while the port has 1,024 outstanding (Table 6-2). -/
  sent : Bool
deriving DecidableEq, Repr

/-- A grant record (R148). -/
structure Grant where
  port : Nat
  pln : Nat
  st : DirSt
deriving DecidableEq, Repr

/-- A committed or configured HDM decoder (R40). -/
structure Hdm where
  base : Nat
  size : Nat
  dpa : Nat
  committed : Bool
  lock : Bool
deriving DecidableEq, Repr

/-- A region table entry: its two words (Table 3-6). -/
structure Region where
  w0 : Nat
  w1 : Nat
deriving DecidableEq, Repr

/-- The record of a REGW on a region entry (R300): its old and final images, the plots swept, the lines of the current plot still
open, the request number at its latest installation, and the engine whose program holds the entry. -/
structure RegPlan where
  ent : Nat
  old : Region
  final : Region
  /-- The image of PHASE 2 is installed. -/
  installed : Bool
  pos : Nat
  left : Nat
  mark : Nat
  /-- Pool accesses of engines, range engines and flume channels that were under way at the latest installation. -/
  units : List Src
  /-- The image of PHASE 4 is installed. -/
  last : Bool
  eng : Option Nat
deriving DecidableEq, Repr

/-- Composition beside the registers: region table, placement table copies and caches, routing keys. -/
structure Compose where
  regions : List (Nat × Region)
  plans : List RegPlan
  /-- Side times 2^27 plus plot. -/
  plc : List (Nat × Nat)
  plcCache : List (Nat × Nat)
  /-- Routing keys: KS and KR_0 to KR_4 (chapter 9). -/
  ks : Nat
  kr : List Nat
  hdm : List (Nat × Hdm)
deriving DecidableEq, Repr

/-- A need, or a no-snoop notice, of one line of a group of four at an owner's tile (R318). -/
structure BlkNeed where
  grp : Nat
  port : Nat
  pln : Nat
  h : Nat
  need : Bool
deriving DecidableEq, Repr

/-- A HOST port's CXL configuration state, mailbox and interrupts (R361 to R364, Tables 14-3 and 14-4). -/
structure HostCfg where
  /-- BI Enable (R363). -/
  biEn : Bool
  /-- Masked vectors, masked function and pending bits of MSI-X (R364). -/
  vmask : Nat
  fmask : Bool
  vpend : Nat
  /-- Set Timestamp's value and the time it was set. -/
  stamp : Nat
  stampAt : Nat
  evPolicy : Nat
  alertCfg : Nat
  /-- DPAs of the Failure log's General Media events. -/
  failLog : List Nat
  /-- Dynamic Capacity log: 0 Add, 1 Release, 2 Forced Release, and the extent. -/
  dcLog : List (Nat × Nat)
  /-- An SPDM session is open on the DOE mailbox. -/
  spdm : Bool
  /-- CXL RAS status: protocol error, and uncorrectable with its header log. -/
  rasCor : Bool
  rasUnc : Option Nat
  /-- AER correctable status. -/
  aerCor : Bool
deriving DecidableEq, Repr

/-- A conventional reset leaves BI disabled and every vector masked, as the standard does. -/
def HostCfg.reset : HostCfg :=
  { biEn := false, vmask := 7, fmask := false, vpend := 0, stamp := 0, stampAt := 0, evPolicy := 0, alertCfg := 0, failLog := []
    dcLog := [], spdm := false, rasCor := false, rasUnc := none, aerCor := false }

/-- Where a call came from: a HOST port's queue, the keeper queue or the internal queue (R258). -/
inductive CallFrom where
  | host (p : Nat) | keeper | internal
deriving DecidableEq, Repr

/-- A call record (R261): queue, tag, entry, whether its first reservation is unused, whether it has posted, whether its port has
restarted, the global engine once one has it, and the position in its queue's order. -/
structure Call where
  id : Nat
  from_ : CallFrom
  tag : Nat
  entry : Nat
  notify : Bool
  first : Bool
  posted : Bool
  gone : Bool
  side : Nat
  eng : Option Nat
  args : List Nat
  /-- What dispatch read from the entry and the side: PC, privilege, bank, its generation, and MAXT (R247, R252, R308). -/
  pc : Nat
  keeper : Bool
  bank : Nat
  gen : Nat
  maxt : Nat
deriving DecidableEq, Repr

/-- A descriptor of the internal queue: its entry, TAG and arguments (R239, R272). -/
structure IqDesc where
  entry : Nat
  tag : Nat
  args : List Nat
deriving DecidableEq, Repr

/-- Command and result queues (R261 to R272); queue 32 is the keeper queue (R469). -/
structure Queues where
  /-- Words of the slots: queue × 512 + slot × 8 + word. -/
  words : List (Nat × Nat)
  /-- Committed slots not yet taken: queue × 64 + slot. -/
  commits : List Nat
  /-- Descriptors committed in each slot since port start, modulo 2: queue × 64 + slot. -/
  laps : List (Nat × Nat)
  /-- Descriptors taken from each queue since port start; from the keeper and internal queues, numbers 32 and 33, since cold start. -/
  taken : List (Nat × Nat)
  /-- Result words, oldest first: queue and word. -/
  results : List (Nat × Nat)
  /-- Results removed from each port's result queue since port start. -/
  popped : List (Nat × Nat)
  iq : List IqDesc
  calls : List Call
deriving DecidableEq, Repr

/-- The release of a view extent whose lines are being back-invalidated (Table 3-4): lines still open, and whether class 0x07 is
posted when it is Free. -/
structure ExtRel where
  port : Nat
  ext : Nat
  left : Nat
  post : Bool
deriving DecidableEq, Repr

/-- The port tables. -/
structure Ports where
  ptt : List Ptt
  sleds : List SledReq
  snps : List OpenSnp
  grants : List Grant
  /-- Granting responses held for want of a grant record (R148). -/
  heldRsp : List Done
  cfg : List (Nat × HostCfg)
  queues : Queues
  extRel : List ExtRel
  /-- INTx and PM messages discarded and counted on each IO port (R368). -/
  discards : List (Nat × Nat)
  /-- Plots that each MEM port's sled reported at its last identification since the module started (Tables 11-10, 14-5). -/
  sledCap : List (Nat × Nat)
  /-- MEM ports whose LOSS_WAIT runs (R56). -/
  lossWait : List Nat
  /-- Ports whose EQMIN condition or training retry the tile watches need no state; MEM and IO ports whose PERST# pulse runs. -/
  pulses : List Nat
  blk : List BlkNeed
  /-- Posted writes reported prepared on their way to the tile: port, transaction (R176). -/
  prepQ : List (Nat × Nat)
  /-- Releases on their way to the home: slice, line, port, transaction (R176). -/
  relQ : List (Nat × Nat × Nat × Nat)
deriving DecidableEq, Repr

end Sys2Proof.Machine
end

