-- ==== Sys2Proof/Machine/DataMgmt.lean ====
section
/-! DEFINITION. The data of the network, of repair and retirement, of start-up, flash and retained settings, of power and thermal
control, of the Ditchrider, and of the counter collector (chapters 13 and 15 to 19). -/

namespace Sys2Proof.Machine

/-- A counter (R474 to R477): live count and OVF, the settings in force, whether it wrapped in this tick, the last value of a Level
event, the writes that wait for the end of the tick, and the snapshot. -/
structure Cnt where
  count : Nat
  ovf : Bool
  event : Nat
  edge : Bool
  en : Bool
  wrapped : Bool
  level : Bool
  /-- Its event, of kind Level and counted by cycles, was true at some moment of the tick. -/
  seen : Bool
  wcount : Option Nat
  wovf : Bool
  wcfg : Bool
  snap : Nat
  snapOvf : Bool
deriving DecidableEq, Repr

/-- A counter at reset. -/
def Cnt.reset : Cnt :=
  { count := 0, ovf := false, event := 0, edge := false, en := false, wrapped := false, level := false, seen := false, wcount := none, wovf := false
    wcfg := false, snap := 0, snapOvf := false }

/-- A packet held at a gateway (R347): network, header (Table 13-4) and first data word. -/
structure Packet where
  sd : Nat
  site : Nat
  net : Nat
  hdr : Nat
  d0 : Nat
deriving DecidableEq, Repr

/-- The paths of Table 2-6 on which a control access comes: a keeper program, a tenant program of a port, the Ditchrider. -/
inductive Path where
  | keeper | tenant (p : Nat) | ditch
deriving DecidableEq, Repr

/-- A control access held at a gateway (Table 2-11): a write of `val`, a read, or a read that a vendor message asks for. -/
inductive CtlKind where
  | write | read | message
deriving DecidableEq, Repr

structure CtlWr where
  addr : Nat
  val : Nat
  kind : CtlKind
deriving DecidableEq, Repr

/-- The network beside its registers: held packets and control writes, trace records (side and words, oldest first), the capture
sequence of each side, and route markers not yet acknowledged (side, tile, VN number). -/
structure Net where
  held : List Packet
  ctl : List CtlWr
  trace : List (Nat × List Nat)
  tseq : List (Nat × Nat)
  markers : List (Nat × Nat × Nat)
deriving DecidableEq, Repr

/-- A row outside the cache area (R406): controller, pseudo-channel, bank, row. -/
structure Row where
  k : Nat
  pc : Nat
  bank : Nat
  row : Nat
deriving DecidableEq, Repr

/-- A record of the trim store (R409, R427). -/
inductive TrimRec where
  | frame (k pc frame : Nat) (barred : Bool)
  | bank (k pc bank : Nat)
  | area (r : Row)
  | stack (k : Nat)
  | presets (p : Nat) (v : Nat)
  | stackSettings (k : Nat) (v : Nat)
deriving DecidableEq, Repr

/-- Repair, scrubbing and retirement beside their registers (chapter 15). -/
structure Ras where
  targets : List Target
  /-- Correction counts of tracked locations (R401): structure, instance, location, count; least recently counted first. -/
  track : List (Nat × Nat × Nat × Nat)
  /-- Trim records that the Ditchrider has still to write (R409, R427). -/
  pend : List TrimRec
  /-- Locations whose hard fault has been recorded. -/
  hard : List (Nat × Nat × Nat)
  /-- Corrected errors of each side in the current scrub window. -/
  ceWin : List (Nat × Nat)
  /-- Area remaps in force, and the one that runs. -/
  area : List Row
  areaRun : Option Row
  /-- Locations that an injection has corrupted: structure, instance, key of the location, bits flipped (R411). -/
  injected : List (Nat × Nat × Nat × Nat)
deriving DecidableEq, Repr

/-- A trim record and whether each copy holds it valid (R427). -/
structure TrimEnt where
  rec_ : TrimRec
  t0 : Bool
  t1 : Bool
deriving DecidableEq, Repr

/-- A settings image (R423, Table 16-5): RS fields that differ from reset, regions, view extents, placement, and the program image as the shipped
image it began as and the words that differ from it. -/
structure Image where
  seq : Nat
  size : Nat
  format : Nat
  valid : Bool
  rs : List (Nat × Nat)
  regions : List (Nat × Region)
  vext : List (Nat × Nat)
  plc : List (Nat × Nat)
  progBase : Nat
  prog : List (Nat × Nat)
  gen : Nat
deriving DecidableEq, Repr

/-- A firmware package in a slot (R455), and whether the slot is wholly written. -/
structure Pkg where
  pkg : Package
  whole : Bool
deriving DecidableEq, Repr

/-- Flash and fuses (R455, Table 18-1): settings slots, trim store, firmware slots 0 A, 1 B, 2 factory, the start record's BOOT,
security-version fuses and revocation fuses. The persistent event ring is in the event log. -/
structure Flash where
  slots : List (Nat × Image)
  trim : List TrimEnt
  fw : List (Nat × Pkg)
  boots : Nat
  svnFuse : Nat
  revoked : Nat
deriving DecidableEq, Repr

/-- A settings commit that runs (R425): the slot it writes, its image, and the engine that issued it. -/
structure CommitOp where
  slot : Nat
  img : Image
  eng : Nat
deriving DecidableEq, Repr

/-- A module-level start, and the pins of the management connector that the module drives. -/
structure Boot where
  /-- The start timer runs (R429). -/
  timing : Bool
  /-- MRST# is held low after a cold reset began (R414). -/
  held : Bool
  /-- The module has power in PD0 and PD1. -/
  power : Bool
  /-- Both feeds are lost and the hold-up capacitors run (R442). -/
  holdUp : Bool
  /-- Sides that cannot serve in this start: failed self-test or stack test, retired stack, or fault (R408, R410, R512). -/
  bad : Nat
  /-- Boot mode for the next start in place of CFGSEL (R431). -/
  next : Option Nat
  /-- An orderly warm reset waits for Spillway (R415). -/
  orderly : Bool
  /-- REQ 6 waits for Spillway entry (R220). -/
  toRecovery : Bool
  faultLow : Bool
  alertLow : Bool
  commit : Option CommitOp
  /-- How the last commit ended: SCOMMIT's STATUS and the image's sequence number. -/
  lastCommit : Option (Nat × Nat)
deriving DecidableEq, Repr

/-- Power, clock and thermal loops beside their registers (chapter 17). -/
structure Pwr where
  /-- Evaluations in a row with slack above SHI, of each side (R447). -/
  run : List (Nat × Nat)
  /-- Sensors at or above their trip temperature at the last sample. -/
  hot : List Nat
  /-- Tiles whose ports behave as Disabled (Table 17-6). -/
  tileTrip : List Nat
  /-- Voltage monitors: reading in mV, and how far it lies from nominal: 0 inside 5 %, 1 beyond 5 %, 2 beyond 8 % (Table 18-4). -/
  volts : List (Nat × Nat)
  /-- Rail currents in 0.1 A (R464). -/
  rails : List Nat
deriving DecidableEq, Repr

/-- A firmware update in progress (R466): the agent, the component of the transfer, the slot that component 0x0001 is written to. -/
structure Update where
  agent : Nat
  comp : Nat
  slot : Nat
  /-- 0 learn components, 1 ready to transfer, 2 downloading, 3 verifying, 4 applying. -/
  phase : Nat
  bytes : Nat
  pkg : Option Package
  /-- Component 0x0001 has been applied and can be activated. -/
  ready : Bool
deriving DecidableEq, Repr

/-- A call result held for the endpoint that owns its tag (R469). -/
structure HeldRes where
  ep : Nat
  tag : Nat
  word : Nat
deriving DecidableEq, Repr

/-- The Ditchrider beside its registers (chapter 18). -/
structure Mgmt where
  /-- EID on each transport: 0 SMBus, 1 Ethernet. -/
  eid : List (Nat × Nat)
  tid : Nat
  /-- Where PlatformEventMessages go. -/
  receiver : Option Nat
  /-- Platform events not yet polled: sensor and state or level. -/
  events : List (Nat × Nat)
  /-- Last reading of each sensor that has thresholds, as a level. -/
  levels : List (Nat × Nat)
  upd : Option Update
  /-- The staged shipped program image, and the sides that PROGACT has still to write. -/
  staged : Option Nat
  progact : List Nat
  /-- Owner of each submitted tag, the next tag, and held results. -/
  tags : List (Nat × Nat)
  nextTag : Nat
  results : List HeldRes
  /-- The FM API's background call: its tag, and its end status once posted. -/
  fmTag : Option Nat
  fmResult : Option Nat
  /-- The watchdog is suspended by a self-contained activation (Table 18-11). -/
  suspended : Bool
  /-- Tiles whose PHY firmware has not yet been swapped (R470). -/
  phy : List Nat
deriving DecidableEq, Repr

/-- A ring record on its way to the pool (R479): its number, lines, and the lines not yet complete. -/
structure RingRec where
  /-- Number that names the record's writes while they are in flight. -/
  i : Nat
  pln : Nat
  data : List Line
  left : List Nat
deriving DecidableEq, Repr

/-- The counter collector beside its registers (chapter 19). -/
structure Col where
  /-- Length in µs of the tick that runs (R476). -/
  interval : Nat
  ring : List RingRec
  /-- Next record number to issue. -/
  next : Nat
  /-- Ring settings in force: BASE, SIZELOG and MODE (R479). -/
  base : Nat
  sizelog : Nat
  mode : Bool
  /-- Interval counts of sampler and source: sampler × 64 + instance (R482). -/
  sampCount : List (Nat × Nat)
  /-- Intervals that have ended and whose sample is still to be chosen: sampler × 64 + instance. -/
  due : List Nat
  samples : List (List Nat)
  seq : Nat
deriving DecidableEq, Repr

end Sys2Proof.Machine
end

