-- ==== Sys2Proof/Machine/DataSys.lean ====
section
/-! DEFINITION. The data of the event log and error reporting (chapters 10, 15 and 18). -/

namespace Sys2Proof.Machine

/-- An event notice: its class, the VALUE of its event word (R510), and whether an error record already logs it. -/
structure Event where
  cls : Nat
  val : Nat
  logged : Bool
deriving DecidableEq, Repr

/-- A 64-byte record of the event log (R461): words 0 to 6, and BOOT of word 7. Its CRC is a function of words 0 to 6. -/
structure LogRec where
  words : List Nat
  boot : Nat
deriving DecidableEq, Repr

/-- An error to be recorded (Table 15-6). Positions of corrected bits are 0x7F where there is none. -/
structure Err where
  sev : Nat
  hard : Bool
  repaired : Bool
  dataloss : Bool
  poisoned : Bool
  struct_ : Nat
  btype : Nat
  inst : Nat
  found : Nat
  loc : Nat
  /-- Pool address; all ones when unknown. -/
  addr : Nat
  action : Nat
  /-- Word 4: positions corrected. -/
  bits : Nat
deriving DecidableEq, Repr

/-- CE records of one structure instance in the current second, and errors that wait to be counted (R404). -/
structure CeRate where
  sec : Nat
  sent : Nat
  wait : Nat
deriving DecidableEq, Repr

/-- The event log (R461 to R463). -/
structure Log where
  /-- Next sequence number. -/
  seq : Nat
  /-- The PD0 notice queue of 256 records. -/
  held : List LogRec
  /-- The SRAM ring, oldest first. -/
  ring : List LogRec
  /-- Records that wait for the persistent ring. -/
  pend : List LogRec
  /-- The persistent ring in flash, oldest first. -/
  pers : List LogRec
  ce : List (Nat × CeRate)
deriving DecidableEq, Repr

/-- A hot-table entry (R236). -/
structure Hot where
  plot : Nat
  count : Nat
  hold : Nat
deriving DecidableEq, Repr

/-- A proposal record (Table 9-11, PLC_PROP), with its side. -/
structure Proposal where
  sd : Nat
  plot : Nat
  src : Nat
  dst : Nat
  count : Nat
  seq : Nat
deriving DecidableEq, Repr

/-- The levelling and placement loops beside their registers (chapter 9). -/
structure Loops where
  /-- Sides with a FORCE that waits for the next window end (R226). -/
  force : List Nat
  /-- Time at which a side's last rekey ended or the side started. -/
  since : List (Nat × Nat)
  /-- Slot commands on each channel in the current window: side × 128 + channel (R225). -/
  chan : List (Nat × Nat)
  /-- Hot tables: side × 16384 + entry; an unlisted entry is free. -/
  hot : List (Nat × Hot)
  props : List Proposal
  /-- Next proposal sequence number of a side. -/
  seq : List (Nat × Nat)
deriving DecidableEq, Repr

end Sys2Proof.Machine
end

