-- ==== Sys2Proof/Machine/Mach.lean ====
section
/-! DEFINITION. The machine without its command queue: every register field and every array, queue and buffer of the module. -/

namespace Sys2Proof.Machine

/-- Everything the spec gives the module. Commands change it; the queue of waiting commands stands beside it in State. -/
structure Mach where
  /-- Register fields under 8 × control address + lowest bit; a field not listed holds its reset value. -/
  regs : List (Nat × Nat)
  /-- Counters under 8 × block address + counter (R474). -/
  cnts : List (Nat × Cnt)
  home : Home
  rsv : Rsv
  twIn : List TwIn
  tw : List TwEnt
  twin : Twin
  comp : Compose
  ports : Ports
  eng : Engines
  /-- Completions that the command now running has produced. -/
  done : List Done
  /-- Event notices that the command now running has raised. -/
  events : List Event
  log : Log
  loops : Loops
  /-- Tailwater writes that the command now running has finished: side, line and what that completes. -/
  twDone : List (Nat × Nat × TwDone)
  /-- Sled accesses of a side not yet passed over by its sampler: side and plot (R235). -/
  sampleQ : List (Nat × Nat)
  /-- Results of frame retirements for engines that wait in FRET: engine and RESULT. -/
  fretDone : List (Nat × Nat)
  /-- Retirements whose record is still to be written: controller and operation (R405). -/
  retireQ : List (Nat × FrameMove)
  net : Net
  ras : Ras
  flash : Flash
  boot : Boot
  pwr : Pwr
  mgmt : Mgmt
  col : Col
  /-- Sides whose failure the command now running has caused: side and CAUSE (R204, R394). -/
  fails : List (Nat × Nat)
  /-- Addresses of watermark registers whose reset has ended in the command now running (R36). -/
  markStart : List Nat
  /-- Fields that a W1C write has cleared in the cycle in which the next command acts, and whether the command now running wrote them (R32). -/
  clash : List (Nat × Bool)
  outbox : List Out
  nextId : Nat
  /-- Draws made so far from the open values of Config. -/
  free : Nat
  timeUs : Nat
deriving DecidableEq, Repr

/-- The home slices with nothing in them. -/
def Home.reset : Home :=
  { reqQ := [], fillQ := [], rspQ := [], snpData := [], pfQ := [], notes := [], mshrs := [], mwq := [], wb := [], vb := [], hg := []
    plru := [], ways := [], dir := [], mirror := [], dc := [], dcPlru := [], dwq := [], recalls := [], lostSweeps := [], lostSets := [] }

/-- The Reservoir with every slot Invalid and no keys. -/
def Rsv.reset : Rsv :=
  { slots := [], keys := [], predKey := [], pred := [], ctls := [], remap := [], spares := [], offers := [], takes := [], cleanWr := []
    cleanPtr := [], rekPos := [] }

/-- The twin logs empty, with no stop, return or entry under way. -/
def Twin.reset : Twin :=
  { stream := [], acks := [], notices := [], unitNotices := [], relAcks := [], mirAcks := [], staged := [], recs := [], ovf := []
    bucketKey := [], untwinned := [], refresh := [], hbRun := [], hpRun := [], stopping := none, entering := false, returning := none
    replicated := false, handed := 0, holding := none, soakBad := false }

/-- No region, placement or routing key. -/
def Compose.reset : Compose := { regions := [], plans := [], plc := [], plcCache := [], ks := 0, kr := [], hdm := [] }

/-- Empty queues. -/
def Queues.reset : Queues := { words := [], commits := [], laps := [], taken := [], results := [], popped := [], iq := [], calls := [] }

/-- Empty port tables. -/
def Ports.reset : Ports :=
  { ptt := [], sleds := [], snps := [], grants := [], heldRsp := [], cfg := [], queues := Queues.reset, extRel := [], discards := []
    sledCap := [], lossWait := [], pulses := [], blk := [], prepQ := [], relQ := [] }

/-- Idle engines, and units with no operation. -/
def Engines.reset : Engines :=
  { eng := [], greg := [], scratch := [], prog := [], progBase := [], progBad := [], turn := 0, ranges := [], rangeQ := [], flumes := [] }

/-- An empty log. -/
def Log.reset : Log := { seq := 0, held := [], ring := [], pend := [], pers := [], ce := [] }

/-- The loops with nothing counted. -/
def Loops.reset : Loops := { force := [], since := [], chan := [], hot := [], props := [], seq := [] }

def Net.reset : Net := { held := [], ctl := [], trace := [], tseq := [], markers := [] }
def Ras.reset : Ras := { targets := [], track := [], pend := [], hard := [], ceWin := [], area := [], areaRun := none, injected := [] }
def Flash.reset : Flash := { slots := [], trim := [], fw := [], boots := 0, svnFuse := 0, revoked := 0 }
def Pwr.reset : Pwr := { run := [], hot := [], tileTrip := [], volts := [], rails := [] }

/-- Before any power. -/
def Boot.reset : Boot :=
  { timing := false, held := false, power := false, holdUp := false, bad := 0, next := none, orderly := false, toRecovery := false
    faultLow := false, alertLow := false, commit := none, lastCommit := none }

/-- The Ditchrider's firmware before it has run. -/
def Mgmt.reset : Mgmt :=
  { eid := [], tid := 0, receiver := none, events := [], levels := [], upd := none, staged := none, progact := [], tags := []
    nextTag := 0x8000, results := [], fmTag := none, fmResult := none, suspended := false, phy := [] }

def Col.reset : Col := { interval := 10, ring := [], next := 0, base := 0, sizelog := 10, mode := false, sampCount := [], due := [], samples := [], seq := 0 }

/-- Every register at its reset value, every memory, queue and buffer empty, flash erased, no power. -/
def Mach.reset : Mach :=
  { regs := [], cnts := [], home := Home.reset, rsv := Rsv.reset, twIn := [], tw := [], twin := Twin.reset, comp := Compose.reset
    ports := Ports.reset, eng := Engines.reset, done := [], events := [], log := Log.reset, loops := Loops.reset, twDone := [], sampleQ := []
    fretDone := [], retireQ := [], net := Net.reset, ras := Ras.reset, flash := Flash.reset, boot := Boot.reset, pwr := Pwr.reset
    mgmt := Mgmt.reset, col := Col.reset, fails := [], markStart := [], clash := [], outbox := [], nextId := 0, free := 0, timeUs := 0 }

end Sys2Proof.Machine
end

