-- ==== Sys2Proof/Machine/Map.lean ====
section
/-! DEFINITION. Sparse data: a list of key and value pairs with strictly rising keys, which is how registers, arrays and
memories of every size are held. A cell that a list does not name holds its default, and no pair holds the default. -/

namespace Sys2Proof.Machine

/-- What is held under key `k`, if anything. -/
def mget {α : Type} : List (Nat × α) → Nat → Option α
  | [], _ => none
  | (a, v) :: m, k => if a = k then some v else mget m k

/-- `m` with `v` under key `k`. -/
def mput {α : Type} : List (Nat × α) → Nat → α → List (Nat × α)
  | [], k, v => [(k, v)]
  | (a, x) :: m, k, v =>
    if a = k then (k, v) :: m else if k < a then (k, v) :: (a, x) :: m else (a, x) :: mput m k v

/-- `m` with nothing under key `k`. -/
def mdel {α : Type} : List (Nat × α) → Nat → List (Nat × α)
  | [], _ => []
  | (a, x) :: m, k => if a = k then mdel m k else (a, x) :: mdel m k

/-- The value of cell `k`, whose default is `d`. -/
def sget {α : Type} (d : α) (m : List (Nat × α)) (k : Nat) : α := (mget m k).getD d

/-- Writes cell `k`, whose default is `d`: a default value is not listed. -/
def sset {α : Type} [DecidableEq α] (d : α) (m : List (Nat × α)) (k : Nat) (v : α) : List (Nat × α) :=
  if v = d then mdel m k else mput m k v

/-- Writes or clears cell `k`. -/
def mset {α : Type} (m : List (Nat × α)) (k : Nat) : Option α → List (Nat × α)
  | some v => mput m k v
  | none => mdel m k

/-- The canonical form: every key is below the keys that follow it. -/
def Rising {α : Type} : List (Nat × α) → Prop
  | [] => True
  | (a, _) :: m => (∀ p ∈ m, a < p.1) ∧ Rising m

/-- The canonical form of a map whose cells default to `d`: rising keys, and no cell that holds the default is listed. -/
def Canon {α : Type} (d : α) (m : List (Nat × α)) : Prop := Rising m ∧ ∀ c ∈ m, c.2 ≠ d

/-- Removes every pair whose key satisfies `p`. -/
def mdrop {α : Type} (m : List (Nat × α)) (p : Nat → Bool) : List (Nat × α) := m.filter fun c => !p c.1

end Sys2Proof.Machine
end

