-- ==== Sys2Proof/Machine/RegTable.lean ====
section
/-! DEFINITION. The registers of the manual, field by field (R20 to R35 and the register tables of every chapter), as
offset, lowest bit, width, reset value, access type and reserved-encoding check; and, for each block, its registers. -/
namespace Sys2Proof.Machine
namespace R
def AON_OPMODE_MODE : Fld := ⟨0x40, 0, 3, 0, .ro, .any⟩
def AON_OPMODE_SIDE_UP : Fld := ⟨0x40, 4, 2, 0, .ro, .any⟩
def AON_OPMODE_REINTEG : Fld := ⟨0x40, 6, 1, 0, .ro, .any⟩
def AON_OPMODE_CAUSE : Fld := ⟨0x40, 8, 4, 0, .ro, .any⟩
def AON_OPMODE_CHANGES : Fld := ⟨0x40, 16, 16, 0, .ro, .any⟩
def AON_OPMODE_CHANGED : Fld := ⟨0x40, 32, 1, 0, .w1c, .any⟩
def SE_TWIN_EN : Fld := ⟨0x800, 0, 1, 0, .rw, .any⟩
def SE_TWIN_R : Fld := ⟨0x800, 1, 1, 0, .rw, .any⟩
def SE_TWIN_W : Fld := ⟨0x800, 2, 1, 0, .rw, .any⟩
def SE_TWIN_SIZE : Fld := ⟨0x800, 4, 5, 12, .rw, .rng 12 20⟩
def SE_TWIN_BASE : Fld := ⟨0x800, 12, 20, 0, .rw, .twin⟩
def SE_TWIN_PORTS : Fld := ⟨0x800, 32, 32, 0, .rw, .any⟩
def PT_VEXT_A_DPA_PLOT : Fld := ⟨0x800, 0, 27, 0, .ro, .any⟩
def PT_VEXT_A_LENM1 : Fld := ⟨0x800, 32, 27, 0, .ro, .any⟩
def PT_VEXT_B_POOL_PLOT : Fld := ⟨0x808, 0, 27, 0, .ro, .any⟩
def PT_VEXT_B_STATE : Fld := ⟨0x808, 32, 2, 0, .ro, .any⟩
def PT_IOWINA_SIZE : Fld := ⟨0x400, 0, 6, 12, .rs, .rng 12 46⟩
def PT_IOWINA_EN : Fld := ⟨0x400, 6, 1, 0, .rs, .any⟩
def PT_IOWINA_R : Fld := ⟨0x400, 7, 1, 0, .rs, .any⟩
def PT_IOWINA_W : Fld := ⟨0x400, 8, 1, 0, .rs, .any⟩
def PT_IOWINA_ATOM : Fld := ⟨0x400, 9, 1, 0, .rs, .any⟩
def PT_IOWINA_DMA_BASE : Fld := ⟨0x400, 12, 52, 0, .rs, .any⟩
def PT_VIOL_VIOL : Fld := ⟨0x100, 0, 1, 0, .w1c, .any⟩
def PT_VIOL_KIND : Fld := ⟨0x100, 1, 3, 0, .ro, .any⟩
def PT_VIOL_COUNT : Fld := ⟨0x100, 16, 32, 0, .ro, .any⟩
def PT_VIOLADDR_ADDR : Fld := ⟨0x108, 0, 64, 0, .ro, .any⟩
def PT_MEMCTL_LOSS_WAIT : Fld := ⟨0x110, 0, 5, 15, .rs, .rng 5 30⟩
def PT_MEMCTL_STATE : Fld := ⟨0x110, 8, 2, 1, .ro, .any⟩
def PT_MEMCTL_DECLARE : Fld := ⟨0x110, 12, 1, 0, .wo, .any⟩
def PT_MEMCTL_READMIT : Fld := ⟨0x110, 13, 1, 0, .wo, .any⟩
def PT_MEMCTL_PLOTS : Fld := ⟨0x110, 32, 28, 0, .ro, .any⟩
def HS_CTL_PFEN : Fld := ⟨0x40, 0, 1, 1, .rs, .any⟩
def HS_CTL_PF_FREE : Fld := ⟨0x40, 2, 10, 128, .rs, .rng 32 1023⟩
def HS_CTL_WB_HIGH : Fld := ⟨0x40, 16, 6, 48, .rs, .rng 8 63⟩
def HS_STATUS_STATE : Fld := ⟨0x48, 0, 3, 0, .ro, .any⟩
def HS_STATUS_MSHR_USED : Fld := ⟨0x48, 8, 11, 0, .ro, .any⟩
def HS_STATUS_WB_USED : Fld := ⟨0x48, 20, 7, 0, .ro, .any⟩
def HS_STATUS_MWQ_USED : Fld := ⟨0x48, 28, 7, 0, .ro, .any⟩
def HS_STATUS_VB_USED : Fld := ⟨0x48, 36, 5, 0, .ro, .any⟩
def HS_STATUS_EAST_ON : Fld := ⟨0x48, 41, 1, 0, .ro, .any⟩
def HS_WAYEN_EN : Fld := ⟨0x50, 0, 16, 65535, .rs, .any⟩
def HS_WAYEN_OFF : Fld := ⟨0x50, 16, 16, 0, .ro, .any⟩
def HS_WAYEN_BUSY : Fld := ⟨0x50, 32, 16, 0, .ro, .any⟩
def HS_MSHRMARK_MARK : Fld := ⟨0x58, 0, 11, 960, .rw, .rng 1 1024⟩
def HS_MSHRMARK_LEVEL : Fld := ⟨0x58, 16, 1, 0, .ro, .any⟩
def HS_MSHRMARK_CROSSED : Fld := ⟨0x58, 17, 1, 0, .w1c, .any⟩
def HS_MSHRMARK_CROSSINGS : Fld := ⟨0x58, 32, 16, 0, .ro, .any⟩
def HS_WBMARK_MARK : Fld := ⟨0x60, 0, 7, 56, .rw, .rng 1 64⟩
def HS_WBMARK_LEVEL : Fld := ⟨0x60, 16, 1, 0, .ro, .any⟩
def HS_WBMARK_CROSSED : Fld := ⟨0x60, 17, 1, 0, .w1c, .any⟩
def HS_WBMARK_CROSSINGS : Fld := ⟨0x60, 32, 16, 0, .ro, .any⟩
def HS_OCC_VALID : Fld := ⟨0x68, 0, 16, 0, .ro, .any⟩
def HS_OCC_DIRTY : Fld := ⟨0x68, 16, 16, 0, .ro, .any⟩
def HS_OCC_PFPEND : Fld := ⟨0x68, 32, 16, 0, .ro, .any⟩
def CNTCFG_EVENT : Fld := ⟨0x200, 0, 8, 0, .rw, .event⟩
def CNTCFG_EDGE : Fld := ⟨0x200, 8, 1, 0, .rw, .any⟩
def CNTCFG_EN : Fld := ⟨0x200, 9, 1, 0, .rw, .any⟩
def CNTVAL_COUNT : Fld := ⟨0x240, 0, 48, 0, .rw, .any⟩
def CNTVAL_OVF : Fld := ⟨0x240, 63, 1, 0, .w1c, .any⟩
def RSV_CTL_PREDEN : Fld := ⟨0x40, 0, 1, 1, .rs, .any⟩
def RSV_CTL_THR_MIN : Fld := ⟨0x40, 4, 4, 0, .rs, .any⟩
def RSV_CTL_THR_MAX : Fld := ⟨0x40, 8, 4, 12, .rs, .any⟩
def RSV_CTL_WINLOG : Fld := ⟨0x40, 12, 5, 20, .rs, .rng 16 24⟩
def RSV_STATUS_STATE : Fld := ⟨0x48, 0, 3, 0, .ro, .any⟩
def RSV_STATUS_SWEEP_PTR : Fld := ⟨0x48, 8, 20, 0, .ro, .any⟩
def RSV_STATUS_THRESH : Fld := ⟨0x48, 28, 4, 0, .ro, .any⟩
def RSV_STATUS_REFSTEP : Fld := ⟨0x48, 32, 3, 0, .ro, .any⟩
def RSV_STATUS_REMAP_USED : Fld := ⟨0x48, 36, 13, 0, .ro, .any⟩
def RSV_REFRESH_TEMP : Fld := ⟨0x50, 0, 8, 0, .ro, .any⟩
def RSV_REFRESH_CHANGES : Fld := ⟨0x50, 16, 16, 0, .ro, .any⟩
def RSV_RETIRE_FRAME : Fld := ⟨0x58, 0, 19, 0, .rw, .any⟩
def RSV_RETIRE_PC : Fld := ⟨0x58, 19, 5, 0, .rw, .any⟩
def RSV_RETIRE_OP : Fld := ⟨0x58, 24, 2, 0, .rw, .rng 1 3⟩
def RSV_RETIRE_GO : Fld := ⟨0x58, 26, 1, 0, .wo, .any⟩
def RSV_RETIRE_BUSY : Fld := ⟨0x58, 27, 1, 0, .ro, .any⟩
def RSV_RETIRE_RESULT : Fld := ⟨0x58, 28, 3, 0, .ro, .any⟩
def RSV_BANKBAR_BARS : Fld := ⟨0x80, 0, 64, 0, .ro, .any⟩
def RSV_TWCTL_PORTMAX : Fld := ⟨0x800, 0, 10, 128, .rs, .rng 16 512⟩
def RSV_TWSTAT_USED : Fld := ⟨0x808, 0, 10, 0, .ro, .any⟩
def RSV_TWSTAT_WAITING : Fld := ⟨0x808, 16, 10, 0, .ro, .any⟩
def RSV_TWSTAT_ISSUED : Fld := ⟨0x808, 32, 10, 0, .ro, .any⟩
def RSV_TWSTAT_HELD : Fld := ⟨0x808, 48, 10, 0, .ro, .any⟩
def RSV_TWMARK_MARK : Fld := ⟨0x810, 0, 10, 448, .rw, .rng 1 512⟩
def RSV_TWMARK_LEVEL : Fld := ⟨0x810, 16, 1, 0, .ro, .any⟩
def RSV_TWMARK_CROSSED : Fld := ⟨0x810, 17, 1, 0, .w1c, .any⟩
def RSV_TWMARK_CROSSINGS : Fld := ⟨0x810, 32, 16, 0, .ro, .any⟩
def DIR_CTL_BITO : Fld := ⟨0x300, 0, 5, 15, .rs, .rng 5 30⟩
def DIR_CTL_LOSS_E : Fld := ⟨0x300, 5, 1, 1, .rs, .any⟩
def DIR_CTL_BLKSNP : Fld := ⟨0x300, 6, 1, 1, .rs, .any⟩
def DIR_STATUS_DWQ_USED : Fld := ⟨0x308, 0, 7, 0, .ro, .any⟩
def DIR_STATUS_RECALL_USED : Fld := ⟨0x308, 8, 5, 0, .ro, .any⟩
def DIR_STATUS_SNP_OPEN : Fld := ⟨0x308, 16, 11, 0, .ro, .any⟩
def DIR_STATUS_CACHED : Fld := ⟨0x308, 32, 17, 0, .ro, .any⟩
def DIR_DWQMARK_MARK : Fld := ⟨0x310, 0, 7, 48, .rw, .rng 1 64⟩
def DIR_DWQMARK_LEVEL : Fld := ⟨0x310, 16, 1, 0, .ro, .any⟩
def DIR_DWQMARK_CROSSED : Fld := ⟨0x310, 17, 1, 0, .w1c, .any⟩
def DIR_DWQMARK_CROSSINGS : Fld := ⟨0x310, 32, 16, 0, .ro, .any⟩
def DIR_LOST_MASK : Fld := ⟨0x318, 0, 32, 0, .ro, .any⟩
def DIR_QUERY_LINE : Fld := ⟨0x320, 0, 41, 0, .rw, .qline⟩
def DIR_QUERY_GO : Fld := ⟨0x320, 41, 1, 0, .wo, .any⟩
def DIR_QUERY_BUSY : Fld := ⟨0x320, 42, 1, 0, .ro, .any⟩
def DIR_QRES_PAYLOAD : Fld := ⟨0x328, 0, 64, 0, .ro, .any⟩
def PT_IOORD_IDO_EN : Fld := ⟨0x120, 0, 1, 1, .rs, .any⟩
def PT_IOORD_RO_EN : Fld := ⟨0x120, 1, 1, 1, .rs, .any⟩
def PT_IOORD_WINDOW : Fld := ⟨0x120, 4, 9, 128, .rs, .rng 16 256⟩
def PT_IOORD_PREP_USED : Fld := ⟨0x120, 16, 9, 0, .ro, .any⟩
def PT_IOORD_IDS_USED : Fld := ⟨0x120, 26, 7, 0, .ro, .any⟩
def AON_MODECTL_REQ : Fld := ⟨0x48, 0, 4, 0, .wo, .rng 1 6⟩
def AON_MODECTL_BUSY : Fld := ⟨0x48, 4, 1, 0, .ro, .any⟩
def AON_MODECTL_RESULT : Fld := ⟨0x48, 5, 3, 0, .ro, .any⟩
def AON_ARB_PREFER : Fld := ⟨0x50, 0, 1, 0, .rs, .any⟩
def AON_ARB_A_OK : Fld := ⟨0x50, 1, 1, 0, .ro, .any⟩
def AON_ARB_B_OK : Fld := ⟨0x50, 2, 1, 0, .ro, .any⟩
def AON_ARB_COPYERR : Fld := ⟨0x50, 3, 1, 0, .w1c, .any⟩
def AON_FOREC_SIDE : Fld := ⟨0x58, 0, 1, 0, .ro, .any⟩
def AON_FOREC_CAUSE : Fld := ⟨0x58, 1, 3, 0, .ro, .any⟩
def AON_FOREC_DET_US : Fld := ⟨0x58, 8, 8, 0, .ro, .any⟩
def AON_FOREC_FENCE_US : Fld := ⟨0x58, 16, 8, 0, .ro, .any⟩
def AON_FOREC_TAKE_US : Fld := ⟨0x58, 24, 10, 0, .ro, .any⟩
def AON_FOREC_REPLAYED : Fld := ⟨0x58, 36, 20, 0, .ro, .any⟩
def AON_FOREC_COUNT : Fld := ⟨0x58, 56, 8, 0, .ro, .any⟩
def BRG_STATUS_UP : Fld := ⟨0x40, 0, 1, 0, .ro, .any⟩
def BRG_STATUS_SPARES : Fld := ⟨0x40, 1, 4, 0, .ro, .any⟩
def BRG_STATUS_HB_RUN : Fld := ⟨0x40, 8, 8, 0, .ro, .any⟩
def BRG_STATUS_HB_TOTAL : Fld := ⟨0x40, 16, 32, 0, .ro, .any⟩
def TWN_CTL_SSPOL : Fld := ⟨0x40, 0, 1, 0, .rs, .any⟩
def TWN_CTL_CLEANEN : Fld := ⟨0x40, 1, 1, 1, .rs, .any⟩
def TWN_CTL_CLEANRATE : Fld := ⟨0x40, 4, 4, 2, .rs, .rng 1 8⟩
def TWN_CTL_DRAINRATE : Fld := ⟨0x40, 8, 4, 4, .rs, .rng 1 8⟩
def TWN_CTL_REINTRATE : Fld := ⟨0x40, 12, 4, 2, .rs, .rng 1 8⟩
def TWN_CTL_SOAK : Fld := ⟨0x40, 16, 10, 120, .rs, .rng 10 600⟩
def TWN_GAUGE_LINES : Fld := ⟨0x48, 0, 28, 0, .ro, .any⟩
def TWN_GAUGE_FORCED : Fld := ⟨0x48, 28, 1, 0, .ro, .any⟩
def TWN_GAUGE_UNTWINNED : Fld := ⟨0x48, 29, 1, 0, .ro, .any⟩
def TWN_GAUGE_CLEANING : Fld := ⟨0x48, 30, 1, 0, .ro, .any⟩
def TWN_GAUGE_SPILLS : Fld := ⟨0x48, 32, 32, 0, .ro, .any⟩
def TWN_HIMARK_MARK : Fld := ⟨0x50, 0, 14, 9216, .rw, .rng 1 12287⟩
def TWN_HIMARK_LEVEL : Fld := ⟨0x50, 16, 1, 0, .ro, .any⟩
def TWN_HIMARK_CROSSED : Fld := ⟨0x50, 17, 1, 0, .w1c, .any⟩
def TWN_HIMARK_CROSSINGS : Fld := ⟨0x50, 32, 16, 0, .ro, .any⟩
def TWN_LOG_STATE : Fld := ⟨0x60, 0, 2, 0, .ro, .any⟩
def TWN_LOG_USED : Fld := ⟨0x60, 4, 28, 0, .ro, .any⟩
def TWN_LOG_STAGED : Fld := ⟨0x60, 32, 16, 0, .ro, .any⟩
def TWN_REINT_STEP : Fld := ⟨0x68, 0, 4, 0, .ro, .any⟩
def TWN_REINT_PCT : Fld := ⟨0x68, 8, 7, 0, .ro, .any⟩
def LVL_CTL_EN : Fld := ⟨0x40, 0, 1, 1, .rs, .any⟩
def LVL_CTL_WINDOW : Fld := ⟨0x40, 1, 10, 100, .rs, .rng 10 1000⟩
def LVL_CTL_RATIO : Fld := ⟨0x40, 11, 8, 32, .rs, .rng 12 128⟩
def LVL_CTL_UTIL : Fld := ⟨0x40, 19, 7, 50, .rs, .rng 10 100⟩
def LVL_CTL_SUSTAIN : Fld := ⟨0x40, 26, 10, 64, .rs, .rng 1 1023⟩
def LVL_CTL_MININT : Fld := ⟨0x40, 36, 10, 10, .rs, .rng 1 600⟩
def LVL_CTL_RKRATE : Fld := ⟨0x40, 46, 4, 2, .rs, .rng 1 8⟩
def LVL_CTL_FORCE : Fld := ⟨0x40, 50, 1, 0, .wo, .any⟩
def LVL_STATUS_STATE : Fld := ⟨0x48, 0, 2, 3, .ro, .any⟩
def LVL_STATUS_EPOCH : Fld := ⟨0x48, 2, 1, 0, .ro, .any⟩
def LVL_STATUS_PTR : Fld := ⟨0x48, 4, 20, 0, .ro, .any⟩
def LVL_STATUS_RUNWIN : Fld := ⟨0x48, 24, 10, 0, .ro, .any⟩
def LVL_STATUS_LASTCH : Fld := ⟨0x48, 34, 7, 0, .ro, .any⟩
def LVL_STATUS_REKEYS : Fld := ⟨0x48, 48, 16, 0, .ro, .any⟩
def LVL_LAST_MAXCNT : Fld := ⟨0x50, 0, 20, 0, .ro, .any⟩
def LVL_LAST_MEANCNT : Fld := ⟨0x50, 20, 20, 0, .ro, .any⟩
def LVL_LAST_SINCE : Fld := ⟨0x50, 40, 24, 0, .ro, .any⟩
def PLC_CTL_EN : Fld := ⟨0x100, 0, 1, 1, .rs, .any⟩
def PLC_CTL_AUTO : Fld := ⟨0x100, 1, 1, 0, .rs, .any⟩
def PLC_CTL_SAMPLE : Fld := ⟨0x100, 2, 4, 6, .rs, .rng 0 10⟩
def PLC_CTL_PERIOD : Fld := ⟨0x100, 6, 6, 10, .rs, .rng 1 50⟩
def PLC_CTL_PORT_HI : Fld := ⟨0x100, 12, 7, 70, .rs, .rng 10 100⟩
def PLC_CTL_PORT_LO : Fld := ⟨0x100, 19, 7, 40, .rs, .rng 0 90⟩
def PLC_CTL_MINHOT : Fld := ⟨0x100, 26, 16, 64, .rs, .any⟩
def PLC_CTL_PROPMAX : Fld := ⟨0x100, 42, 4, 2, .rs, .rng 1 8⟩
def PLC_CTL_MAXMIG : Fld := ⟨0x100, 46, 5, 4, .rs, .rng 1 16⟩
def PLC_CTL_FINALMAX : Fld := ⟨0x100, 51, 9, 8, .rs, .rng 1 64⟩
def PLC_CTL_MAXPASS : Fld := ⟨0x100, 60, 4, 8, .rs, .rng 1 15⟩
def PLC_CTL2_HOLDMAX : Fld := ⟨0x108, 0, 10, 50, .rs, .rng 10 500⟩
def PLC_CTL2_DEST : Fld := ⟨0x108, 32, 32, 4294967295, .rs, .any⟩
def PLC_STATUS_HOTUSED : Fld := ⟨0x110, 0, 15, 0, .ro, .any⟩
def PLC_STATUS_PROPQ : Fld := ⟨0x110, 16, 7, 0, .ro, .any⟩
def PLC_STATUS_MIGRUN : Fld := ⟨0x110, 24, 5, 0, .ro, .any⟩
def PLC_STATUS_DROPS : Fld := ⟨0x110, 32, 32, 0, .ro, .any⟩
def PLC_PROP_PLOT : Fld := ⟨0x118, 0, 27, 0, .ro, .any⟩
def PLC_PROP_SRC : Fld := ⟨0x118, 27, 5, 0, .ro, .any⟩
def PLC_PROP_DST : Fld := ⟨0x118, 32, 5, 0, .ro, .any⟩
def PLC_PROP_COUNT : Fld := ⟨0x118, 37, 16, 0, .ro, .any⟩
def PLC_PROP_SEQ : Fld := ⟨0x118, 53, 10, 0, .ro, .any⟩
def PLC_PROP_V : Fld := ⟨0x118, 63, 1, 0, .ro, .any⟩
def PLC_PROPPOP_POP : Fld := ⟨0x120, 0, 1, 0, .wo, .any⟩
def PLC_LOAD_LOAD0 : Fld := ⟨0x180, 0, 16, 0, .ro, .any⟩
def PLC_LOAD_LOAD1 : Fld := ⟨0x180, 16, 16, 0, .ro, .any⟩
def PLC_LOAD_LOAD2 : Fld := ⟨0x180, 32, 16, 0, .ro, .any⟩
def PLC_LOAD_LOAD3 : Fld := ⟨0x180, 48, 16, 0, .ro, .any⟩
def PLC_MIGT_PLOT : Fld := ⟨0x400, 0, 27, 0, .rw, .any⟩
def PLC_MIGT_EN : Fld := ⟨0x400, 27, 1, 0, .rw, .any⟩
def PLC_MIGT_HOLD : Fld := ⟨0x400, 28, 1, 0, .rw, .any⟩
def PLC_MIGT_HOLDEXP : Fld := ⟨0x400, 29, 1, 0, .w1c, .any⟩
def PLC_MIGT_QUIET : Fld := ⟨0x400, 30, 1, 0, .ro, .any⟩
def PLC_MIGT_STEPS : Fld := ⟨0x400, 32, 10, 0, .ro, .any⟩
def PLC_MIGT_HELDW : Fld := ⟨0x400, 42, 10, 0, .ro, .any⟩
def PLC_MIGBM_BITS : Fld := ⟨0x800, 0, 64, 0, .ro, .any⟩
def PT_RESQ_POP_WORD : Fld := ⟨0x2000, 0, 64, 0, .ro, .any⟩
def PT_RESQ_PEEK_WORD : Fld := ⟨0x2008, 0, 64, 0, .ro, .any⟩
def PT_RESQ_ADV_ADV : Fld := ⟨0x2010, 0, 1, 0, .wo, .any⟩
def PT_CMDQ_CRED_CRED : Fld := ⟨0x2018, 0, 32, 0, .ro, .any⟩
def PT_QSTAT_RQ_USED : Fld := ⟨0x2020, 0, 9, 0, .ro, .any⟩
def PT_QSTAT_RQ_RSV : Fld := ⟨0x2020, 16, 7, 0, .ro, .any⟩
def PT_QSTAT_CQ_PEND : Fld := ⟨0x2020, 32, 7, 0, .ro, .any⟩
def PT_QSTAT_RUNNING : Fld := ⟨0x2020, 40, 6, 0, .ro, .any⟩
def PT_QSTAT_OVRN : Fld := ⟨0x2020, 48, 1, 0, .w1c, .any⟩
def PT_QSTAT_RESLOST : Fld := ⟨0x2020, 49, 1, 0, .w1c, .any⟩
def PT_QSTAT_EVLOST : Fld := ⟨0x2020, 50, 1, 0, .w1c, .any⟩
def PT_QERR_CQ_CE : Fld := ⟨0x2028, 0, 16, 0, .ro, .any⟩
def PT_QERR_RQ_CE : Fld := ⟨0x2028, 16, 16, 0, .ro, .any⟩
def PT_QERR_OVRN_CNT : Fld := ⟨0x2028, 32, 16, 0, .ro, .any⟩
def PT_QERR_LOST_CNT : Fld := ⟨0x2028, 48, 16, 0, .ro, .any⟩
def SE_CTL_KPORTS : Fld := ⟨0x40, 0, 32, 0, .rs, .any⟩
def SE_CTL_KRES : Fld := ⟨0x40, 32, 4, 2, .rs, .rng 0 8⟩
def SE_CTL_PORTMAX : Fld := ⟨0x40, 36, 5, 4, .rs, .rng 1 16⟩
def SE_CTL_POSTWAIT : Fld := ⟨0x40, 41, 8, 10, .rs, .rng 1 255⟩
def SE_CTL_HOLDTRAP : Fld := ⟨0x40, 49, 1, 0, .rs, .any⟩
def SE_PSCTL_ACTIVE : Fld := ⟨0x48, 0, 1, 0, .ro, .any⟩
def SE_PSCTL_SWAP : Fld := ⟨0x48, 1, 1, 0, .wo, .any⟩
def SE_PSCTL_NEXTGEN : Fld := ⟨0x48, 16, 16, 0, .rw, .any⟩
def SE_PSCTL_ACTGEN : Fld := ⟨0x48, 32, 16, 0, .ro, .any⟩
def SE_PSCTL_OLDBUSY : Fld := ⟨0x48, 48, 5, 0, .ro, .any⟩
def SE_DISP_IDLE : Fld := ⟨0x50, 0, 5, 0, .ro, .any⟩
def SE_DISP_CE : Fld := ⟨0x50, 8, 8, 0, .ro, .any⟩
def SE_DISP_CALLS : Fld := ⟨0x50, 32, 32, 0, .ro, .any⟩
def SE_ENG_STATE : Fld := ⟨0x1000, 0, 3, 0, .ro, .any⟩
def SE_ENG_BANK : Fld := ⟨0x1000, 3, 1, 0, .ro, .any⟩
def SE_ENG_KEEPER : Fld := ⟨0x1000, 4, 1, 0, .ro, .any⟩
def SE_ENG_PORT : Fld := ⟨0x1000, 5, 5, 0, .ro, .any⟩
def SE_ENG_QUEUE : Fld := ⟨0x1000, 10, 2, 0, .ro, .any⟩
def SE_ENG_TAG : Fld := ⟨0x1000, 12, 16, 0, .ro, .any⟩
def SE_ENG_PC : Fld := ⟨0x1000, 28, 18, 0, .ro, .any⟩
def SE_ENG_RST : Fld := ⟨0x1000, 48, 1, 0, .wo, .any⟩
def SE_ENG_RELEASE : Fld := ⟨0x1000, 49, 1, 0, .wo, .any⟩
def SE_ENG_CE : Fld := ⟨0x1000, 56, 8, 0, .ro, .any⟩
def SE_TRAP_CODE : Fld := ⟨0x1008, 0, 3, 0, .ro, .any⟩
def SE_TRAP_VALID : Fld := ⟨0x1008, 3, 1, 0, .w1c, .any⟩
def SE_TRAP_PC : Fld := ⟨0x1008, 4, 18, 0, .ro, .any⟩
def SE_TRAP_BANK : Fld := ⟨0x1008, 22, 1, 0, .ro, .any⟩
def SE_TRAP_COUNT : Fld := ⟨0x1008, 32, 16, 0, .ro, .any⟩
def SE_TRAPADDR_ADDR : Fld := ⟨0x1010, 0, 64, 0, .ro, .any⟩
def AON_EVRT_PORTS : Fld := ⟨0x400, 0, 32, 0, .rs, .any⟩
def AON_EVRT_IQ : Fld := ⟨0x400, 32, 1, 0, .rs, .any⟩
def AON_EVRT_ALERT : Fld := ⟨0x400, 33, 1, 0, .rs, .any⟩
def AON_EVRT_LOG : Fld := ⟨0x400, 34, 1, 0, .rs, .any⟩
def AON_ALERT_PEND : Fld := ⟨0x60, 0, 32, 0, .w1c, .any⟩
def AON_IQSTAT_USED : Fld := ⟨0x68, 0, 7, 0, .ro, .any⟩
def AON_IQSTAT_DROPS : Fld := ⟨0x68, 16, 16, 0, .ro, .any⟩
def AON_IQSTAT_CE : Fld := ⟨0x68, 32, 16, 0, .ro, .any⟩
def SE_GREG_VALUE : Fld := ⟨0x3000, 0, 64, 0, .ro, .any⟩
def RGE_STATUS_BUSY : Fld := ⟨0x40, 0, 1, 0, .ro, .any⟩
def RGE_STATUS_OP : Fld := ⟨0x40, 1, 3, 0, .ro, .any⟩
def RGE_STATUS_ENGINE : Fld := ⟨0x40, 5, 5, 0, .ro, .any⟩
def RGE_STATUS_STATUS : Fld := ⟨0x40, 16, 8, 0, .ro, .any⟩
def RGE_STATUS_STARTS : Fld := ⟨0x40, 32, 32, 0, .ro, .any⟩
def RGE_CUR_NEXT : Fld := ⟨0x48, 6, 42, 0, .ro, .any⟩
def RGE_LEFT_LEFT : Fld := ⟨0x50, 0, 43, 0, .ro, .any⟩
def RGE_CTL_ABORT : Fld := ⟨0x58, 0, 1, 0, .wo, .any⟩
def RGE_CTL_GAP : Fld := ⟨0x58, 8, 8, 0, .rs, .any⟩
def RGE_CCTL_OFF : Fld := ⟨0x800, 0, 3, 0, .rw, .off⟩
def RGE_CCTL_RDRATE : Fld := ⟨0x800, 8, 4, 8, .rw, .rng 1 8⟩
def RGE_CSTAT_HG : Fld := ⟨0x808, 0, 2, 0, .ro, .any⟩
def RGE_CSTAT_RS : Fld := ⟨0x808, 2, 2, 0, .ro, .any⟩
def RGE_CSTAT_EAST : Fld := ⟨0x808, 4, 2, 0, .ro, .any⟩
def RGE_CSTAT_BUSY : Fld := ⟨0x808, 6, 1, 0, .ro, .any⟩
def RGE_CSTAT_WT : Fld := ⟨0x808, 7, 1, 0, .ro, .any⟩
def RGE_CSTAT_DONE : Fld := ⟨0x808, 8, 1, 0, .w1c, .any⟩
def RGE_CSTAT_TRANSITIONS : Fld := ⟨0x808, 16, 16, 0, .ro, .any⟩
def FC_STATUS_STATE : Fld := ⟨0x0, 0, 2, 0, .ro, .any⟩
def FC_STATUS_KIND : Fld := ⟨0x0, 2, 2, 0, .ro, .any⟩
def FC_STATUS_ENGINE : Fld := ⟨0x0, 5, 5, 0, .ro, .any⟩
def FC_STATUS_STATUS : Fld := ⟨0x0, 16, 8, 0, .ro, .any⟩
def FC_STATUS_STEPS : Fld := ⟨0x0, 32, 32, 0, .ro, .any⟩
def FC_SRC_WORD : Fld := ⟨0x8, 0, 64, 0, .ro, .any⟩
def FC_CTL_RESUME : Fld := ⟨0x18, 0, 1, 0, .wo, .any⟩
def FC_CTL_ABORT : Fld := ⟨0x18, 1, 1, 0, .wo, .any⟩
def FC_ERR_UE : Fld := ⟨0x20, 0, 16, 0, .ro, .any⟩
def FC_ERR_POISONED : Fld := ⟨0x20, 16, 16, 0, .ro, .any⟩
def FC_ERR_HALTS : Fld := ⟨0x20, 32, 16, 0, .ro, .any⟩
def FC_GCTL_HALTWAIT : Fld := ⟨0x40, 0, 8, 0, .rs, .any⟩
def FC_GCTL_BWCAP : Fld := ⟨0x40, 8, 8, 0, .rs, .any⟩
def FC_GSTAT_RUNNING : Fld := ⟨0x48, 0, 6, 0, .ro, .any⟩
def FC_GSTAT_HALTED : Fld := ⟨0x48, 8, 6, 0, .ro, .any⟩
def NOC_CTL_AGEINT : Fld := ⟨0x40, 0, 4, 3, .rs, .rng 0 8⟩
def NOC_STATUS_RECONF : Fld := ⟨0x48, 0, 16, 0, .ro, .any⟩
def NOC_STATUS_BOUNCES : Fld := ⟨0x48, 16, 16, 0, .ro, .any⟩
def NOC_STATUS_BDISC : Fld := ⟨0x48, 32, 8, 0, .ro, .any⟩
def NOC_STATUS_UPLINK : Fld := ⟨0x48, 44, 4, 0, .ro, .any⟩
def NOC_STATUS_DETOUR : Fld := ⟨0x48, 48, 4, 0, .ro, .any⟩
def NOC_GW_STATE : Fld := ⟨0x400, 0, 3, 0, .ro, .any⟩
def NOC_GW_ABORT : Fld := ⟨0x400, 3, 1, 0, .ro, .any⟩
def NOC_GW_HELD : Fld := ⟨0x400, 8, 8, 0, .ro, .any⟩
def NOC_GW_WAKES : Fld := ⟨0x400, 16, 16, 0, .ro, .any⟩
def NOC_GW_ABORTS : Fld := ⟨0x400, 32, 16, 0, .ro, .any⟩
def NOC_GW_DISCARDS : Fld := ⟨0x400, 48, 16, 0, .ro, .any⟩
def NOC_QCE_REQ : Fld := ⟨0x600, 0, 16, 0, .ro, .any⟩
def NOC_QCE_SNP : Fld := ⟨0x600, 16, 16, 0, .ro, .any⟩
def NOC_QCE_RSP : Fld := ⟨0x600, 32, 16, 0, .ro, .any⟩
def NOC_QCE_DAT : Fld := ⟨0x600, 48, 16, 0, .ro, .any⟩
def NOC_PRBCTL_EN : Fld := ⟨0x800, 0, 1, 0, .rw, .any⟩
def NOC_PRBCTL_NET : Fld := ⟨0x800, 1, 2, 0, .rw, .any⟩
def NOC_PRBCTL_RTR : Fld := ⟨0x800, 3, 3, 0, .rw, .any⟩
def NOC_PRBCTL_PORT : Fld := ⟨0x800, 6, 2, 0, .rw, .prbPort⟩
def NOC_PRBCTL_DIR : Fld := ⟨0x800, 8, 1, 0, .rw, .any⟩
def NOC_PRBCTL_VNMASK : Fld := ⟨0x800, 9, 6, 0, .rw, .any⟩
def NOC_PRBCTL_ADREN : Fld := ⟨0x800, 15, 1, 0, .rw, .any⟩
def NOC_PRBCTL_TRACE : Fld := ⟨0x800, 16, 1, 0, .rw, .any⟩
def NOC_PRBMATCH_MATCH : Fld := ⟨0x808, 0, 64, 0, .rw, .any⟩
def NOC_PRBADDR_LO : Fld := ⟨0x818, 0, 27, 0, .rw, .any⟩
def NOC_PRBADDR_HI : Fld := ⟨0x818, 32, 27, 0, .rw, .any⟩
def NOC_TRCTL_EN : Fld := ⟨0x900, 0, 1, 0, .rw, .any⟩
def NOC_TRCTL_MODE : Fld := ⟨0x900, 1, 1, 0, .rw, .any⟩
def NOC_TRCTL_DATA : Fld := ⟨0x900, 2, 1, 0, .rw, .any⟩
def NOC_TRSTAT_USED : Fld := ⟨0x908, 0, 11, 0, .ro, .any⟩
def NOC_TRSTAT_LOST : Fld := ⟨0x908, 32, 16, 0, .ro, .any⟩
def NOC_TRREC_WORD : Fld := ⟨0x910, 0, 64, 0, .ro, .any⟩
def NOC_TRADV_ADV : Fld := ⟨0x930, 0, 1, 0, .wo, .any⟩
def PT_ROLE_ROLE : Fld := ⟨0x40, 0, 2, 0, .ro, .any⟩
def PT_ROLE_SRC : Fld := ⟨0x40, 2, 2, 0, .ro, .any⟩
def PT_ROLE_CFG : Fld := ⟨0x40, 4, 2, 0, .rs, .any⟩
def PT_LINK_STATE : Fld := ⟨0x48, 0, 3, 0, .ro, .any⟩
def PT_LINK_RATE : Fld := ⟨0x48, 3, 3, 0, .ro, .any⟩
def PT_LINK_WIDTH : Fld := ⟨0x48, 6, 2, 0, .ro, .any⟩
def PT_LINK_FLIT : Fld := ⟨0x48, 8, 1, 0, .ro, .any⟩
def PT_LINK_PRESENT : Fld := ⟨0x48, 9, 1, 0, .ro, .any⟩
def PT_LINK_PERST : Fld := ⟨0x48, 10, 1, 0, .ro, .any⟩
def PT_LINK_IDE : Fld := ⟨0x48, 11, 1, 0, .ro, .any⟩
def PT_LINK_DOWNS : Fld := ⟨0x48, 16, 16, 0, .ro, .any⟩
def PT_LINK_RECOVS : Fld := ⟨0x48, 32, 16, 0, .ro, .any⟩
def PT_LCTL_DIS : Fld := ⟨0x50, 0, 1, 0, .rs, .any⟩
def PT_LCTL_MAXRATE : Fld := ⟨0x50, 1, 3, 6, .rs, .rng 1 6⟩
def PT_LCTL_MAXWIDTH : Fld := ⟨0x50, 4, 2, 3, .rs, .rng 1 3⟩
def PT_LCTL_EQREDO : Fld := ⟨0x50, 6, 1, 0, .rs, .any⟩
def PT_LCTL_EQMIN : Fld := ⟨0x50, 8, 8, 64, .rs, .any⟩
def PT_LCTL_PERST_MS : Fld := ⟨0x50, 16, 8, 10, .rs, .rng 1 255⟩
def PT_LCTL_MEMTO : Fld := ⟨0x50, 24, 4, 5, .rs, .rng 2 10⟩
def PT_LCTL_PRST : Fld := ⟨0x50, 28, 1, 0, .wo, .any⟩
def PT_LCTL_RETRAIN : Fld := ⟨0x50, 29, 1, 0, .wo, .any⟩
def PT_LEV_LDOWN : Fld := ⟨0x58, 0, 1, 0, .w1c, .any⟩
def PT_LEV_LUP : Fld := ⟨0x58, 1, 1, 0, .w1c, .any⟩
def PT_LEV_PRSCHG : Fld := ⟨0x58, 2, 1, 0, .w1c, .any⟩
def PT_LEV_PERSTCHG : Fld := ⟨0x58, 3, 1, 0, .w1c, .any⟩
def PT_LEV_EQLOW : Fld := ⟨0x58, 4, 1, 0, .w1c, .any⟩
def PT_LEV_WIDTHLOW : Fld := ⟨0x58, 5, 1, 0, .w1c, .any⟩
def PT_LEV_IDEFAIL : Fld := ⟨0x58, 6, 1, 0, .w1c, .any⟩
def PT_LEV_PROTO : Fld := ⟨0x58, 7, 1, 0, .w1c, .any⟩
def PT_PTT_USED : Fld := ⟨0x60, 0, 12, 0, .ro, .any⟩
def PT_PTT_WRHELD : Fld := ⟨0x60, 16, 12, 0, .ro, .any⟩
def PT_PTT_SNPOPEN : Fld := ⟨0x60, 32, 11, 0, .ro, .any⟩
def PT_PTT_REPLAYED : Fld := ⟨0x60, 48, 16, 0, .ro, .any⟩
def PT_PTTMARK_MARK : Fld := ⟨0x68, 0, 12, 1792, .rw, .rng 1 2048⟩
def PT_PTTMARK_LEVEL : Fld := ⟨0x68, 16, 1, 0, .ro, .any⟩
def PT_PTTMARK_CROSSED : Fld := ⟨0x68, 17, 1, 0, .w1c, .any⟩
def PT_PTTMARK_CROSSINGS : Fld := ⟨0x68, 32, 16, 0, .ro, .any⟩
def PT_ERR_FECCOR : Fld := ⟨0x70, 0, 16, 0, .ro, .any⟩
def PT_ERR_REPLAY : Fld := ⟨0x70, 16, 16, 0, .ro, .any⟩
def PT_ERR_PROTO : Fld := ⟨0x70, 32, 16, 0, .ro, .any⟩
def PT_ERR_UR : Fld := ⟨0x70, 48, 16, 0, .ro, .any⟩
def PT_EQ_MARGIN : Fld := ⟨0x78, 0, 8, 0, .ro, .any⟩
def PT_EQ_LANE : Fld := ⟨0x78, 8, 4, 0, .ro, .any⟩
def PT_EQ_LEARNED : Fld := ⟨0x78, 12, 1, 0, .ro, .any⟩
def PT_EQ_ADAPT : Fld := ⟨0x78, 16, 32, 0, .ro, .any⟩
def PT_EQ_REDOS : Fld := ⟨0x78, 48, 8, 0, .ro, .any⟩
def PT_IDE_REQ : Fld := ⟨0x80, 0, 1, 0, .rs, .any⟩
def PT_IDE_STATE : Fld := ⟨0x80, 1, 2, 0, .ro, .any⟩
def PT_IDE_MODE : Fld := ⟨0x80, 3, 1, 0, .ro, .any⟩
def PT_IDE_REFRESH : Fld := ⟨0x80, 16, 16, 0, .ro, .any⟩
def PT_IDE_FAILS : Fld := ⟨0x80, 32, 16, 0, .ro, .any⟩
def PT_CFGA_OFFSET : Fld := ⟨0x90, 0, 12, 0, .rw, .mult4⟩
def PT_CFGA_BE : Fld := ⟨0x90, 12, 4, 0, .rw, .any⟩
def PT_CFGA_FUNC : Fld := ⟨0x90, 16, 3, 0, .rw, .any⟩
def PT_CFGA_WRITE : Fld := ⟨0x90, 24, 1, 0, .rw, .any⟩
def PT_CFGA_GO : Fld := ⟨0x90, 25, 1, 0, .wo, .any⟩
def PT_CFGA_BUSY : Fld := ⟨0x90, 26, 1, 0, .ro, .any⟩
def PT_CFGA_STATUS : Fld := ⟨0x90, 27, 3, 0, .ro, .any⟩
def PT_CFGD_DATA : Fld := ⟨0x98, 0, 32, 0, .rw, .any⟩
def TL_STATUS_UPA : Fld := ⟨0x40, 0, 1, 0, .ro, .any⟩
def TL_STATUS_UPB : Fld := ⟨0x40, 1, 1, 0, .ro, .any⟩
def TL_STATUS_PHYVER : Fld := ⟨0x40, 8, 16, 0, .ro, .any⟩
def TL_STATUS_TEMP : Fld := ⟨0x40, 24, 8, 0, .ro, .any⟩
def ERR_SUM_CE : Fld := ⟨0x2000, 0, 24, 0, .ro, .any⟩
def ERR_SUM_UCC : Fld := ⟨0x2000, 24, 16, 0, .ro, .any⟩
def ERR_SUM_SFE : Fld := ⟨0x2000, 40, 8, 0, .ro, .any⟩
def ERR_SUM_MFE : Fld := ⟨0x2000, 48, 4, 0, .ro, .any⟩
def ERR_SUM_SRCHFULL : Fld := ⟨0x2000, 52, 8, 0, .ro, .any⟩
def ERR_LAST_WORD : Fld := ⟨0x2040, 0, 64, 0, .ro, .any⟩
def ERR_SCRUB_EN : Fld := ⟨0x2100, 0, 1, 1, .rs, .any⟩
def ERR_SCRUB_PERIOD : Fld := ⟨0x2100, 1, 8, 24, .rs, .rng 1 168⟩
def ERR_SCRUB_HGPER : Fld := ⟨0x2100, 9, 7, 60, .rs, .rng 1 120⟩
def ERR_SCRUB_CEHI : Fld := ⟨0x2100, 16, 16, 64, .rs, .any⟩
def ERR_SCRUB_CELO : Fld := ⟨0x2100, 32, 16, 8, .rs, .any⟩
def ERR_SCRUB_MULTMAX : Fld := ⟨0x2100, 48, 3, 4, .rs, .rng 0 4⟩
def ERR_SCRUB_REPEAT : Fld := ⟨0x2100, 52, 4, 3, .rs, .rng 2 15⟩
def ERR_SCRSTAT_MLOG : Fld := ⟨0x2108, 0, 3, 0, .ro, .any⟩
def ERR_SCRSTAT_PCT : Fld := ⟨0x2108, 8, 7, 0, .ro, .any⟩
def ERR_SCRSTAT_PASSES : Fld := ⟨0x2108, 16, 32, 0, .ro, .any⟩
def ERR_SCRSTAT_CELAST : Fld := ⟨0x2108, 48, 16, 0, .ro, .any⟩
def ERR_AREMAP_CTL : Fld := ⟨0x2200, 0, 3, 0, .rw, .any⟩
def ERR_AREMAP_PC : Fld := ⟨0x2200, 3, 5, 0, .rw, .any⟩
def ERR_AREMAP_BANK : Fld := ⟨0x2200, 8, 4, 0, .rw, .any⟩
def ERR_AREMAP_ROW : Fld := ⟨0x2200, 12, 16, 0, .rw, .any⟩
def ERR_AREMAP_GO : Fld := ⟨0x2200, 28, 1, 0, .wo, .any⟩
def ERR_AREMAP_BUSY : Fld := ⟨0x2200, 29, 1, 0, .ro, .any⟩
def ERR_AREMAP_RESULT : Fld := ⟨0x2200, 30, 3, 0, .ro, .any⟩
def ERR_AREMAP_USED : Fld := ⟨0x2200, 33, 7, 0, .ro, .any⟩
def ERR_PSMAP_PAGE : Fld := ⟨0x2300, 0, 8, 0, .rs, .any⟩
def ERR_PSMAP_V : Fld := ⟨0x2300, 8, 1, 0, .rs, .any⟩
def ERR_RETSTAT_PEND : Fld := ⟨0x2400, 0, 16, 0, .ro, .any⟩
def ERR_RETSTAT_USED : Fld := ⟨0x2400, 32, 32, 0, .ro, .any⟩
def ERR_STKRET_RETIRED : Fld := ⟨0x2408, 0, 8, 0, .ro, .any⟩
def ERR_STKRET_STACK : Fld := ⟨0x2408, 8, 3, 0, .rw, .any⟩
def ERR_STKRET_GO : Fld := ⟨0x2408, 11, 1, 0, .wo, .any⟩
def ERR_STKRET_BUSY : Fld := ⟨0x2408, 12, 1, 0, .ro, .any⟩
def ERR_STKRET_RESULT : Fld := ⟨0x2408, 13, 3, 0, .ro, .any⟩
def ERR_BIST_DONE : Fld := ⟨0x2500, 0, 1, 0, .ro, .any⟩
def ERR_BIST_AON_OK : Fld := ⟨0x2500, 1, 1, 0, .ro, .any⟩
def ERR_BIST_SIDE_OK : Fld := ⟨0x2500, 2, 2, 0, .ro, .any⟩
def ERR_BIST_STK_OK : Fld := ⟨0x2500, 4, 8, 0, .ro, .any⟩
def ERR_BIST_PORT_OK : Fld := ⟨0x2500, 16, 32, 0, .ro, .any⟩
def ERR_BISTFAIL_STRUCT : Fld := ⟨0x2508, 0, 8, 0, .ro, .any⟩
def ERR_BISTFAIL_BTYPE : Fld := ⟨0x2508, 8, 8, 0, .ro, .any⟩
def ERR_BISTFAIL_INST : Fld := ⟨0x2508, 16, 8, 0, .ro, .any⟩
def ERR_BISTFAIL_PATTERN : Fld := ⟨0x2508, 24, 6, 0, .ro, .any⟩
def ERR_INJ_STRUCT : Fld := ⟨0x2600, 0, 8, 0, .rw, .struct⟩
def ERR_INJ_INST : Fld := ⟨0x2600, 8, 8, 0, .rw, .any⟩
def ERR_INJ_POS0 : Fld := ⟨0x2600, 16, 7, 0, .rw, .any⟩
def ERR_INJ_POS1 : Fld := ⟨0x2600, 23, 7, 0, .rw, .any⟩
def ERR_INJ_POS2 : Fld := ⟨0x2600, 30, 7, 0, .rw, .any⟩
def ERR_INJ_NBITS : Fld := ⟨0x2600, 37, 2, 0, .rw, .rng 1 3⟩
def ERR_INJ_ARM : Fld := ⟨0x2600, 39, 1, 0, .w1s, .any⟩
def AON_RST_CAUSE_CAUSE : Fld := ⟨0x100, 0, 4, 0, .ro, .any⟩
def AON_RST_CAUSE_COLD : Fld := ⟨0x100, 4, 1, 0, .ro, .any⟩
def AON_RST_CAUSE_TIME : Fld := ⟨0x100, 16, 48, 0, .ro, .any⟩
def AON_CFGSEL_CODE : Fld := ⟨0x108, 0, 10, 0, .ro, .any⟩
def AON_CFGSEL_INDEX : Fld := ⟨0x108, 10, 4, 0, .ro, .any⟩
def AON_CFGSEL_FORCED : Fld := ⟨0x108, 14, 1, 0, .ro, .any⟩
def AON_CFGSEL_TRIES : Fld := ⟨0x108, 16, 4, 0, .ro, .any⟩
def AON_LOAD_TRIM : Fld := ⟨0x110, 0, 1, 0, .ro, .any⟩
def AON_LOAD_COMMON : Fld := ⟨0x110, 1, 1, 0, .ro, .any⟩
def AON_LOAD_SIDE_A : Fld := ⟨0x110, 2, 1, 0, .ro, .any⟩
def AON_LOAD_SIDE_B : Fld := ⟨0x110, 3, 1, 0, .ro, .any⟩
def AON_LOAD_DONE : Fld := ⟨0x110, 4, 1, 0, .ro, .any⟩
def AON_LOAD_SRC : Fld := ⟨0x110, 8, 2, 0, .ro, .any⟩
def AON_LOAD_BOOT : Fld := ⟨0x110, 10, 2, 0, .ro, .any⟩
def AON_LOAD_SEQ : Fld := ⟨0x110, 32, 32, 0, .ro, .any⟩
def AON_SETIMG_SEQ : Fld := ⟨0x118, 0, 32, 0, .ro, .any⟩
def AON_SETIMG_VALID : Fld := ⟨0x118, 32, 1, 0, .ro, .any⟩
def AON_SETIMG_WRITING : Fld := ⟨0x118, 33, 1, 0, .ro, .any⟩
def AON_SETIMG_SIZE : Fld := ⟨0x118, 40, 10, 0, .ro, .any⟩
def AON_FS_COUNT_COUNT : Fld := ⟨0x128, 0, 3, 0, .ro, .any⟩
def AON_FS_COUNT_CLR : Fld := ⟨0x128, 8, 1, 0, .wo, .any⟩
def AON_FS_COUNT_TOTAL : Fld := ⟨0x128, 16, 16, 0, .ro, .any⟩
def RST_CTL_REQ : Fld := ⟨0x130, 0, 3, 0, .wo, .rng 1 4⟩
def RST_CTL_BUSY : Fld := ⟨0x130, 3, 1, 0, .ro, .any⟩
def RST_CTL_BOOT : Fld := ⟨0x130, 4, 2, 3, .rw, .rng 1 3⟩
def RST_START_STARTWAIT : Fld := ⟨0x138, 0, 5, 20, .rs, .rng 5 25⟩
def PWR_DOM_STATE : Fld := ⟨0x3000, 0, 3, 0, .ro, .any⟩
def PWR_DOM_ABORT : Fld := ⟨0x3000, 3, 1, 0, .ro, .any⟩
def PWR_DOM_MV : Fld := ⟨0x3000, 8, 12, 0, .ro, .any⟩
def PWR_DOM_UPS : Fld := ⟨0x3000, 32, 16, 0, .ro, .any⟩
def PWR_DOM_ABORTS : Fld := ⟨0x3000, 48, 16, 0, .ro, .any⟩
def PWR_SLEEP_EN : Fld := ⟨0x3100, 0, 1, 0, .rs, .any⟩
def PWR_SLEEP_HOLD : Fld := ⟨0x3100, 1, 1, 0, .rw, .any⟩
def PWR_SLEEP_IDLE : Fld := ⟨0x3100, 4, 10, 100, .rs, .rng 10 1000⟩
def PWR_SLEEP_SLEEPS : Fld := ⟨0x3100, 32, 16, 0, .ro, .any⟩
def PWR_FEED_VIN : Fld := ⟨0x3110, 0, 10, 0, .ro, .any⟩
def PWR_FEED_IIN : Fld := ⟨0x3110, 10, 10, 0, .ro, .any⟩
def PWR_FEED_PRESENT : Fld := ⟨0x3110, 20, 1, 0, .ro, .any⟩
def PWR_FEED_LOST : Fld := ⟨0x3110, 21, 1, 0, .w1c, .any⟩
def PWR_FEED_LOSSES : Fld := ⟨0x3110, 32, 16, 0, .ro, .any⟩
def PWR_INPUT_WATTS : Fld := ⟨0x3120, 0, 12, 0, .ro, .any⟩
def PWR_INPUT_HOLDUP : Fld := ⟨0x3120, 16, 8, 0, .ro, .any⟩
def PWR_INPUT_HOLDLOW : Fld := ⟨0x3120, 24, 1, 0, .ro, .any⟩
def PWR_INPUT_PHASEFAIL : Fld := ⟨0x3120, 32, 16, 0, .ro, .any⟩
def CLK_OSC_SEL : Fld := ⟨0x3400, 0, 1, 0, .ro, .any⟩
def CLK_OSC_OK0 : Fld := ⟨0x3400, 1, 1, 0, .ro, .any⟩
def CLK_OSC_OK1 : Fld := ⟨0x3400, 2, 1, 0, .ro, .any⟩
def CLK_OSC_FAILED : Fld := ⟨0x3400, 3, 1, 0, .w1c, .any⟩
def CLK_OSC_SWITCHES : Fld := ⟨0x3400, 16, 16, 0, .ro, .any⟩
def CLK_FAB_FTARGET : Fld := ⟨0x3410, 0, 6, 40, .rs, .rng 28 44⟩
def CLK_FAB_SLO : Fld := ⟨0x3410, 8, 7, 20, .rs, .rng 5 100⟩
def CLK_FAB_SHI : Fld := ⟨0x3410, 16, 7, 45, .rs, .rng 15 120⟩
def CLK_FAB_FNOW : Fld := ⟨0x3410, 24, 6, 20, .ro, .any⟩
def CLK_FAB_VNOW : Fld := ⟨0x3410, 32, 10, 0, .ro, .any⟩
def CLK_FAB_FCAP : Fld := ⟨0x3410, 42, 6, 0, .ro, .any⟩
def CLK_FABSTAT_STRETCH : Fld := ⟨0x3418, 0, 16, 0, .ro, .any⟩
def CLK_FABSTAT_SLACK : Fld := ⟨0x3418, 16, 8, 0, .ro, .any⟩
def CLK_FABSTAT_ATVMAX : Fld := ⟨0x3418, 24, 1, 0, .ro, .any⟩
def CLK_FABSTAT_CAPPED : Fld := ⟨0x3418, 25, 1, 0, .ro, .any⟩
def CLK_FABSTAT_STEPS : Fld := ⟨0x3418, 32, 32, 0, .ro, .any⟩
def PWR_TSTAT_SIDEA : Fld := ⟨0x3800, 0, 3, 0, .ro, .any⟩
def PWR_TSTAT_SIDEB : Fld := ⟨0x3800, 3, 3, 0, .ro, .any⟩
def PWR_TSTAT_TILE : Fld := ⟨0x3800, 8, 8, 0, .ro, .any⟩
def PWR_TSTAT_STACK : Fld := ⟨0x3800, 16, 16, 0, .ro, .any⟩
def PWR_TSTAT_CHANGES : Fld := ⟨0x3800, 32, 32, 0, .ro, .any⟩
def PWR_TEMP_TEMPS : Fld := ⟨0x3840, 0, 64, 0, .ro, .any⟩
def MGT_STATUS_STATE : Fld := ⟨0x40, 0, 3, 0, .ro, .any⟩
def MGT_STATUS_SLOT : Fld := ⟨0x40, 3, 2, 0, .ro, .any⟩
def MGT_STATUS_SVNFUSE : Fld := ⟨0x40, 8, 8, 0, .ro, .any⟩
def MGT_STATUS_SVN : Fld := ⟨0x40, 16, 8, 0, .ro, .any⟩
def MGT_STATUS_VERSION : Fld := ⟨0x40, 32, 32, 0, .ro, .any⟩
def MGT_SEC_REVOKED : Fld := ⟨0x48, 0, 4, 0, .ro, .any⟩
def MGT_SEC_KEY : Fld := ⟨0x48, 4, 2, 0, .ro, .any⟩
def MGT_SEC_SVNAUTO : Fld := ⟨0x48, 6, 1, 1, .rs, .any⟩
def MGT_SEC_FACTSVN : Fld := ⟨0x48, 8, 8, 0, .ro, .any⟩
def MGT_UPD_STATE : Fld := ⟨0x50, 0, 3, 0, .ro, .any⟩
def MGT_UPD_PROGPEND : Fld := ⟨0x50, 3, 1, 0, .ro, .any⟩
def MGT_UPD_PROGACT : Fld := ⟨0x50, 4, 1, 0, .wo, .any⟩
def MGT_UPD_PROGBUSY : Fld := ⟨0x50, 5, 1, 0, .ro, .any⟩
def MGT_UPD_RESULT : Fld := ⟨0x50, 8, 3, 0, .ro, .any⟩
def MGT_WD_KICK : Fld := ⟨0x58, 0, 1, 0, .wo, .any⟩
def MGT_WD_PERIOD : Fld := ⟨0x58, 1, 6, 10, .rs, .rng 1 50⟩
def MGT_WD_WARM : Fld := ⟨0x58, 7, 1, 0, .rs, .any⟩
def MGT_WD_LEVEL : Fld := ⟨0x58, 8, 2, 0, .ro, .any⟩
def MGT_WD_EXPIRIES : Fld := ⟨0x58, 16, 16, 0, .ro, .any⟩
def MGT_IFCTL_SMBADDR : Fld := ⟨0x60, 0, 7, 78, .rs, .smb⟩
def MGT_IFCTL_ETHEN : Fld := ⟨0x60, 7, 1, 1, .rs, .any⟩
def MGT_IFCTL_DHCP : Fld := ⟨0x60, 8, 1, 1, .rs, .any⟩
def MGT_IFCTL_KEEPER : Fld := ⟨0x60, 9, 2, 1, .rs, .any⟩
def MGT_IFCTL_UDPPORT : Fld := ⟨0x60, 16, 16, 28674, .rs, .any⟩
def MGT_IFCTL_IPV4 : Fld := ⟨0x60, 32, 32, 0, .rs, .any⟩
def MGT_FMCTL_FMDC : Fld := ⟨0x68, 0, 1, 0, .rs, .any⟩
def MGT_FMCTL_ENTRY : Fld := ⟨0x68, 8, 8, 0, .rs, .any⟩
def MGT_LOGSTAT_PEND : Fld := ⟨0x70, 0, 8, 0, .ro, .any⟩
def MGT_LOGSTAT_HELD : Fld := ⟨0x70, 16, 9, 0, .ro, .any⟩
def MGT_LOGSTAT_DROPS : Fld := ⟨0x70, 32, 16, 0, .ro, .any⟩
def MGT_LOGSTAT_BOOT : Fld := ⟨0x70, 48, 16, 0, .ro, .any⟩
def MGT_LOGRD_SEQ : Fld := ⟨0x78, 0, 32, 0, .rw, .any⟩
def MGT_LOGRD_BOOT : Fld := ⟨0x78, 32, 16, 0, .rw, .any⟩
def MGT_LOGRD_RING : Fld := ⟨0x78, 48, 1, 0, .rw, .any⟩
def MGT_LOGRD_GO : Fld := ⟨0x78, 49, 1, 0, .wo, .any⟩
def MGT_LOGRD_BUSY : Fld := ⟨0x78, 50, 1, 0, .ro, .any⟩
def MGT_LOGRD_STATUS : Fld := ⟨0x78, 51, 2, 0, .ro, .any⟩
def MGT_LOGDAT_WORD : Fld := ⟨0x80, 0, 64, 0, .ro, .any⟩
def CNT_CTL_TICK : Fld := ⟨0x40, 0, 10, 10, .rs, .rng 1 1000⟩
def CNT_SEQ_SEQ : Fld := ⟨0x48, 0, 32, 0, .ro, .any⟩
def CNT_SEQ_TIME : Fld := ⟨0x48, 32, 32, 0, .ro, .any⟩
def CNT_RCTL_EN : Fld := ⟨0x50, 0, 1, 0, .rw, .any⟩
def CNT_RCTL_MODE : Fld := ⟨0x50, 1, 1, 0, .rw, .any⟩
def CNT_RCTL_SIZELOG : Fld := ⟨0x50, 2, 5, 10, .rw, .rng 6 24⟩
def CNT_RCTL_BASE : Fld := ⟨0x50, 12, 36, 0, .rw, .any⟩
def CNT_RPTR_WP : Fld := ⟨0x58, 0, 32, 0, .ro, .any⟩
def CNT_RPTR_RP : Fld := ⟨0x58, 32, 32, 0, .rw, .any⟩
def CNT_RSTAT_USED : Fld := ⟨0x60, 0, 25, 0, .ro, .any⟩
def CNT_RSTAT_LOST : Fld := ⟨0x60, 32, 16, 0, .ro, .any⟩
def CNT_RSTAT_SKIPPED : Fld := ⟨0x60, 48, 16, 0, .ro, .any⟩
def CNT_RMARK_MARK : Fld := ⟨0x68, 0, 6, 48, .rw, .rng 1 63⟩
def CNT_RMARK_LEVEL : Fld := ⟨0x68, 16, 1, 0, .ro, .any⟩
def CNT_RMARK_CROSSED : Fld := ⟨0x68, 17, 1, 0, .w1c, .any⟩
def CNT_RMARK_CROSSINGS : Fld := ⟨0x68, 32, 16, 0, .ro, .any⟩
def CNT_RSEL_V : Fld := ⟨0x400, 0, 1, 0, .rw, .any⟩
def CNT_RSEL_BASE : Fld := ⟨0x400, 12, 20, 0, .rw, .cntBase⟩
def CNT_SAMPCTL_EN : Fld := ⟨0x800, 0, 1, 0, .rw, .any⟩
def CNT_SAMPCTL_KIND : Fld := ⟨0x800, 1, 1, 0, .rw, .any⟩
def CNT_SAMPCTL_ALL : Fld := ⟨0x800, 2, 1, 0, .rw, .any⟩
def CNT_SAMPCTL_INST : Fld := ⟨0x800, 8, 6, 0, .rw, .sampInst⟩
def CNT_SAMPCTL_INTLOG : Fld := ⟨0x800, 16, 5, 16, .rw, .rng 4 24⟩
def CNT_SAMPCTL_PORTEN : Fld := ⟨0x800, 21, 1, 0, .rw, .any⟩
def CNT_SAMPCTL_PORT : Fld := ⟨0x800, 22, 5, 0, .rw, .any⟩
def CNT_SSTAT_USED : Fld := ⟨0x900, 0, 13, 0, .ro, .any⟩
def CNT_SSTAT_LOST : Fld := ⟨0x900, 32, 16, 0, .ro, .any⟩
def CNT_SREC_WORD : Fld := ⟨0x910, 0, 64, 0, .ro, .any⟩
def CNT_SADV_ADV : Fld := ⟨0x930, 0, 1, 0, .wo, .any⟩
def CNT_SMARK_MARK : Fld := ⟨0x938, 0, 13, 3072, .rw, .rng 1 4096⟩
def CNT_SMARK_LEVEL : Fld := ⟨0x938, 16, 1, 0, .ro, .any⟩
def CNT_SMARK_CROSSED : Fld := ⟨0x938, 17, 1, 0, .w1c, .any⟩
def CNT_SMARK_CROSSINGS : Fld := ⟨0x938, 32, 16, 0, .ro, .any⟩
def TWN_LOMARK_MARK : Fld := ⟨0x58, 0, 14, 6144, .rw, .rng 1 12287⟩
def TWN_LOMARK_LEVEL : Fld := ⟨0x58, 16, 1, 0, .ro, .any⟩
def TWN_LOMARK_CROSSED : Fld := ⟨0x58, 17, 1, 0, .w1c, .any⟩
def TWN_LOMARK_CROSSINGS : Fld := ⟨0x58, 32, 16, 0, .ro, .any⟩
def FC_DST_WORD : Fld := ⟨0x10, 0, 64, 0, .ro, .any⟩
def NOC_PRBMASK_MASK : Fld := ⟨0x810, 0, 64, 0, .rw, .any⟩
def PT_IOWINB_POOL_BASE : Fld := ⟨0x408, 12, 36, 0, .rs, .any⟩

/-- The registers of block `aon`. -/
def aonRegs : List Reg :=
  [⟨0x40, [], .modwarm, .any, [AON_OPMODE_MODE, AON_OPMODE_SIDE_UP, AON_OPMODE_REINTEG, AON_OPMODE_CAUSE, AON_OPMODE_CHANGES, AON_OPMODE_CHANGED]⟩,
   ⟨0x48, [], .modwarm, .any, [AON_MODECTL_REQ, AON_MODECTL_BUSY, AON_MODECTL_RESULT]⟩,
   ⟨0x50, [], .cold, .any, [AON_ARB_PREFER, AON_ARB_A_OK, AON_ARB_B_OK, AON_ARB_COPYERR]⟩,
   ⟨0x58, [], .cold, .any, [AON_FOREC_SIDE, AON_FOREC_CAUSE, AON_FOREC_DET_US, AON_FOREC_FENCE_US, AON_FOREC_TAKE_US, AON_FOREC_REPLAYED, AON_FOREC_COUNT]⟩,
   ⟨0x400, [(8, 32)], .cold, .any, [AON_EVRT_PORTS, AON_EVRT_IQ, AON_EVRT_ALERT, AON_EVRT_LOG]⟩,
   ⟨0x60, [], .cold, .any, [AON_ALERT_PEND]⟩,
   ⟨0x68, [], .cold, .any, [AON_IQSTAT_USED, AON_IQSTAT_DROPS, AON_IQSTAT_CE]⟩,
   ⟨0x2000, [], .cold, .any, [ERR_SUM_CE, ERR_SUM_UCC, ERR_SUM_SFE, ERR_SUM_MFE, ERR_SUM_SRCHFULL]⟩,
   ⟨0x2040, [(8, 8)], .cold, .any, [ERR_LAST_WORD]⟩,
   ⟨0x2100, [(32, 2)], .cold, .any, [ERR_SCRUB_EN, ERR_SCRUB_PERIOD, ERR_SCRUB_HGPER, ERR_SCRUB_CEHI, ERR_SCRUB_CELO, ERR_SCRUB_MULTMAX, ERR_SCRUB_REPEAT]⟩,
   ⟨0x2108, [(32, 2)], .cold, .any, [ERR_SCRSTAT_MLOG, ERR_SCRSTAT_PCT, ERR_SCRSTAT_PASSES, ERR_SCRSTAT_CELAST]⟩,
   ⟨0x2200, [], .cold, .any, [ERR_AREMAP_CTL, ERR_AREMAP_PC, ERR_AREMAP_BANK, ERR_AREMAP_ROW, ERR_AREMAP_GO, ERR_AREMAP_BUSY, ERR_AREMAP_RESULT, ERR_AREMAP_USED]⟩,
   ⟨0x2300, [(128, 2), (64, 2), (8, 8)], .cold, .any, [ERR_PSMAP_PAGE, ERR_PSMAP_V]⟩,
   ⟨0x2400, [], .cold, .any, [ERR_RETSTAT_PEND, ERR_RETSTAT_USED]⟩,
   ⟨0x2408, [], .cold, .any, [ERR_STKRET_RETIRED, ERR_STKRET_STACK, ERR_STKRET_GO, ERR_STKRET_BUSY, ERR_STKRET_RESULT]⟩,
   ⟨0x2500, [], .cold, .any, [ERR_BIST_DONE, ERR_BIST_AON_OK, ERR_BIST_SIDE_OK, ERR_BIST_STK_OK, ERR_BIST_PORT_OK]⟩,
   ⟨0x2508, [], .cold, .any, [ERR_BISTFAIL_STRUCT, ERR_BISTFAIL_BTYPE, ERR_BISTFAIL_INST, ERR_BISTFAIL_PATTERN]⟩,
   ⟨0x2600, [], .cold, .any, [ERR_INJ_STRUCT, ERR_INJ_INST, ERR_INJ_POS0, ERR_INJ_POS1, ERR_INJ_POS2, ERR_INJ_NBITS, ERR_INJ_ARM]⟩,
   ⟨0x100, [], .never, .any, [AON_RST_CAUSE_CAUSE, AON_RST_CAUSE_COLD, AON_RST_CAUSE_TIME]⟩,
   ⟨0x108, [], .modwarm, .any, [AON_CFGSEL_CODE, AON_CFGSEL_INDEX, AON_CFGSEL_FORCED, AON_CFGSEL_TRIES]⟩,
   ⟨0x110, [], .modwarm, .any, [AON_LOAD_TRIM, AON_LOAD_COMMON, AON_LOAD_SIDE_A, AON_LOAD_SIDE_B, AON_LOAD_DONE, AON_LOAD_SRC, AON_LOAD_BOOT, AON_LOAD_SEQ]⟩,
   ⟨0x118, [(8, 2)], .modwarm, .any, [AON_SETIMG_SEQ, AON_SETIMG_VALID, AON_SETIMG_WRITING, AON_SETIMG_SIZE]⟩,
   ⟨0x128, [], .never, .any, [AON_FS_COUNT_COUNT, AON_FS_COUNT_CLR, AON_FS_COUNT_TOTAL]⟩,
   ⟨0x130, [], .cold, .any, [RST_CTL_REQ, RST_CTL_BUSY, RST_CTL_BOOT]⟩,
   ⟨0x138, [], .cold, .any, [RST_START_STARTWAIT]⟩,
   ⟨0x3000, [(8, 26)], .cold, .any, [PWR_DOM_STATE, PWR_DOM_ABORT, PWR_DOM_MV, PWR_DOM_UPS, PWR_DOM_ABORTS]⟩,
   ⟨0x3100, [(8, 2)], .cold, .any, [PWR_SLEEP_EN, PWR_SLEEP_HOLD, PWR_SLEEP_IDLE, PWR_SLEEP_SLEEPS]⟩,
   ⟨0x3110, [(8, 2)], .cold, .any, [PWR_FEED_VIN, PWR_FEED_IIN, PWR_FEED_PRESENT, PWR_FEED_LOST, PWR_FEED_LOSSES]⟩,
   ⟨0x3120, [], .cold, .any, [PWR_INPUT_WATTS, PWR_INPUT_HOLDUP, PWR_INPUT_HOLDLOW, PWR_INPUT_PHASEFAIL]⟩,
   ⟨0x3400, [], .cold, .any, [CLK_OSC_SEL, CLK_OSC_OK0, CLK_OSC_OK1, CLK_OSC_FAILED, CLK_OSC_SWITCHES]⟩,
   ⟨0x3410, [(16, 2)], .cold, .any, [CLK_FAB_FTARGET, CLK_FAB_SLO, CLK_FAB_SHI, CLK_FAB_FNOW, CLK_FAB_VNOW, CLK_FAB_FCAP]⟩,
   ⟨0x3418, [(16, 2)], .side, .any, [CLK_FABSTAT_STRETCH, CLK_FABSTAT_SLACK, CLK_FABSTAT_ATVMAX, CLK_FABSTAT_CAPPED, CLK_FABSTAT_STEPS]⟩,
   ⟨0x3800, [], .cold, .any, [PWR_TSTAT_SIDEA, PWR_TSTAT_SIDEB, PWR_TSTAT_TILE, PWR_TSTAT_STACK, PWR_TSTAT_CHANGES]⟩,
   ⟨0x3840, [(8, 10)], .cold, .any, [PWR_TEMP_TEMPS]⟩]
/-- The registers of block `se`. -/
def seRegs : List Reg :=
  [⟨0x800, [(8, 16)], .side, .any, [SE_TWIN_EN, SE_TWIN_R, SE_TWIN_W, SE_TWIN_SIZE, SE_TWIN_BASE, SE_TWIN_PORTS]⟩,
   ⟨0x40, [], .side, .any, [SE_CTL_KPORTS, SE_CTL_KRES, SE_CTL_PORTMAX, SE_CTL_POSTWAIT, SE_CTL_HOLDTRAP]⟩,
   ⟨0x48, [], .side, .any, [SE_PSCTL_ACTIVE, SE_PSCTL_SWAP, SE_PSCTL_NEXTGEN, SE_PSCTL_ACTGEN, SE_PSCTL_OLDBUSY]⟩,
   ⟨0x50, [], .side, .any, [SE_DISP_IDLE, SE_DISP_CE, SE_DISP_CALLS]⟩,
   ⟨0x1000, [(256, 16)], .side, .any, [SE_ENG_STATE, SE_ENG_BANK, SE_ENG_KEEPER, SE_ENG_PORT, SE_ENG_QUEUE, SE_ENG_TAG, SE_ENG_PC, SE_ENG_RST, SE_ENG_RELEASE, SE_ENG_CE]⟩,
   ⟨0x1008, [(256, 16)], .side, .any, [SE_TRAP_CODE, SE_TRAP_VALID, SE_TRAP_PC, SE_TRAP_BANK, SE_TRAP_COUNT]⟩,
   ⟨0x1010, [(256, 16)], .side, .any, [SE_TRAPADDR_ADDR]⟩,
   ⟨0x3000, [(256, 16), (8, 32)], .side, .any, [SE_GREG_VALUE]⟩]
/-- The registers of block `pt`. -/
def ptRegs : List Reg :=
  [⟨0x800, [(16, 64)], .cold, .host, [PT_VEXT_A_DPA_PLOT, PT_VEXT_A_LENM1]⟩,
   ⟨0x808, [(16, 64)], .cold, .host, [PT_VEXT_B_POOL_PLOT, PT_VEXT_B_STATE]⟩,
   ⟨0x400, [(16, 64)], .cold, .io, [PT_IOWINA_SIZE, PT_IOWINA_EN, PT_IOWINA_R, PT_IOWINA_W, PT_IOWINA_ATOM, PT_IOWINA_DMA_BASE]⟩,
   ⟨0x100, [], .port, .any, [PT_VIOL_VIOL, PT_VIOL_KIND, PT_VIOL_COUNT]⟩,
   ⟨0x108, [], .port, .any, [PT_VIOLADDR_ADDR]⟩,
   ⟨0x110, [], .cold, .mem, [PT_MEMCTL_LOSS_WAIT, PT_MEMCTL_STATE, PT_MEMCTL_DECLARE, PT_MEMCTL_READMIT, PT_MEMCTL_PLOTS]⟩,
   ⟨0x120, [], .cold, .io, [PT_IOORD_IDO_EN, PT_IOORD_RO_EN, PT_IOORD_WINDOW, PT_IOORD_PREP_USED, PT_IOORD_IDS_USED]⟩,
   ⟨0x2000, [], .port, .any, [PT_RESQ_POP_WORD]⟩,
   ⟨0x2008, [], .port, .any, [PT_RESQ_PEEK_WORD]⟩,
   ⟨0x2010, [], .port, .any, [PT_RESQ_ADV_ADV]⟩,
   ⟨0x2018, [], .port, .any, [PT_CMDQ_CRED_CRED]⟩,
   ⟨0x2020, [], .port, .any, [PT_QSTAT_RQ_USED, PT_QSTAT_RQ_RSV, PT_QSTAT_CQ_PEND, PT_QSTAT_RUNNING, PT_QSTAT_OVRN, PT_QSTAT_RESLOST, PT_QSTAT_EVLOST]⟩,
   ⟨0x2028, [], .port, .any, [PT_QERR_CQ_CE, PT_QERR_RQ_CE, PT_QERR_OVRN_CNT, PT_QERR_LOST_CNT]⟩,
   ⟨0x40, [], .cold, .any, [PT_ROLE_ROLE, PT_ROLE_SRC, PT_ROLE_CFG]⟩,
   ⟨0x48, [], .port, .any, [PT_LINK_STATE, PT_LINK_RATE, PT_LINK_WIDTH, PT_LINK_FLIT, PT_LINK_PRESENT, PT_LINK_PERST, PT_LINK_IDE, PT_LINK_DOWNS, PT_LINK_RECOVS]⟩,
   ⟨0x50, [], .cold, .any, [PT_LCTL_DIS, PT_LCTL_MAXRATE, PT_LCTL_MAXWIDTH, PT_LCTL_EQREDO, PT_LCTL_EQMIN, PT_LCTL_PERST_MS, PT_LCTL_MEMTO, PT_LCTL_PRST, PT_LCTL_RETRAIN]⟩,
   ⟨0x58, [], .port, .any, [PT_LEV_LDOWN, PT_LEV_LUP, PT_LEV_PRSCHG, PT_LEV_PERSTCHG, PT_LEV_EQLOW, PT_LEV_WIDTHLOW, PT_LEV_IDEFAIL, PT_LEV_PROTO]⟩,
   ⟨0x60, [], .port, .any, [PT_PTT_USED, PT_PTT_WRHELD, PT_PTT_SNPOPEN, PT_PTT_REPLAYED]⟩,
   ⟨0x68, [], .port, .any, [PT_PTTMARK_MARK, PT_PTTMARK_LEVEL, PT_PTTMARK_CROSSED, PT_PTTMARK_CROSSINGS]⟩,
   ⟨0x70, [], .port, .any, [PT_ERR_FECCOR, PT_ERR_REPLAY, PT_ERR_PROTO, PT_ERR_UR]⟩,
   ⟨0x78, [], .port, .any, [PT_EQ_MARGIN, PT_EQ_LANE, PT_EQ_LEARNED, PT_EQ_ADAPT, PT_EQ_REDOS]⟩,
   ⟨0x80, [], .cold, .hostMem, [PT_IDE_REQ, PT_IDE_STATE, PT_IDE_MODE, PT_IDE_REFRESH, PT_IDE_FAILS]⟩,
   ⟨0x90, [], .port, .io, [PT_CFGA_OFFSET, PT_CFGA_BE, PT_CFGA_FUNC, PT_CFGA_WRITE, PT_CFGA_GO, PT_CFGA_BUSY, PT_CFGA_STATUS]⟩,
   ⟨0x98, [], .port, .io, [PT_CFGD_DATA]⟩,
   ⟨0x408, [(16, 64)], .cold, .io, [PT_IOWINB_POOL_BASE]⟩]
/-- The registers of block `hs`. -/
def hsRegs : List Reg :=
  [⟨0x40, [], .side, .any, [HS_CTL_PFEN, HS_CTL_PF_FREE, HS_CTL_WB_HIGH]⟩,
   ⟨0x48, [], .side, .any, [HS_STATUS_STATE, HS_STATUS_MSHR_USED, HS_STATUS_WB_USED, HS_STATUS_MWQ_USED, HS_STATUS_VB_USED, HS_STATUS_EAST_ON]⟩,
   ⟨0x50, [], .side, .any, [HS_WAYEN_EN, HS_WAYEN_OFF, HS_WAYEN_BUSY]⟩,
   ⟨0x58, [], .side, .any, [HS_MSHRMARK_MARK, HS_MSHRMARK_LEVEL, HS_MSHRMARK_CROSSED, HS_MSHRMARK_CROSSINGS]⟩,
   ⟨0x60, [], .side, .any, [HS_WBMARK_MARK, HS_WBMARK_LEVEL, HS_WBMARK_CROSSED, HS_WBMARK_CROSSINGS]⟩,
   ⟨0x68, [], .side, .any, [HS_OCC_VALID, HS_OCC_DIRTY, HS_OCC_PFPEND]⟩,
   ⟨0x300, [], .side, .any, [DIR_CTL_BITO, DIR_CTL_LOSS_E, DIR_CTL_BLKSNP]⟩,
   ⟨0x308, [], .side, .any, [DIR_STATUS_DWQ_USED, DIR_STATUS_RECALL_USED, DIR_STATUS_SNP_OPEN, DIR_STATUS_CACHED]⟩,
   ⟨0x310, [], .side, .any, [DIR_DWQMARK_MARK, DIR_DWQMARK_LEVEL, DIR_DWQMARK_CROSSED, DIR_DWQMARK_CROSSINGS]⟩,
   ⟨0x318, [], .side, .any, [DIR_LOST_MASK]⟩,
   ⟨0x320, [], .side, .any, [DIR_QUERY_LINE, DIR_QUERY_GO, DIR_QUERY_BUSY]⟩,
   ⟨0x328, [], .side, .any, [DIR_QRES_PAYLOAD]⟩]
/-- The registers of block `shared`. -/
def sharedRegs : List Reg :=
  [⟨0x200, [(8, 8)], .side, .any, [CNTCFG_EVENT, CNTCFG_EDGE, CNTCFG_EN]⟩,
   ⟨0x240, [(8, 8)], .side, .any, [CNTVAL_COUNT, CNTVAL_OVF]⟩]
/-- The registers of block `rsv`. -/
def rsvRegs : List Reg :=
  [⟨0x40, [], .side, .any, [RSV_CTL_PREDEN, RSV_CTL_THR_MIN, RSV_CTL_THR_MAX, RSV_CTL_WINLOG]⟩,
   ⟨0x48, [], .side, .any, [RSV_STATUS_STATE, RSV_STATUS_SWEEP_PTR, RSV_STATUS_THRESH, RSV_STATUS_REFSTEP, RSV_STATUS_REMAP_USED]⟩,
   ⟨0x50, [], .side, .any, [RSV_REFRESH_TEMP, RSV_REFRESH_CHANGES]⟩,
   ⟨0x58, [], .side, .any, [RSV_RETIRE_FRAME, RSV_RETIRE_PC, RSV_RETIRE_OP, RSV_RETIRE_GO, RSV_RETIRE_BUSY, RSV_RETIRE_RESULT]⟩,
   ⟨0x80, [(8, 8)], .side, .any, [RSV_BANKBAR_BARS]⟩,
   ⟨0x800, [], .side, .any, [RSV_TWCTL_PORTMAX]⟩,
   ⟨0x808, [], .side, .any, [RSV_TWSTAT_USED, RSV_TWSTAT_WAITING, RSV_TWSTAT_ISSUED, RSV_TWSTAT_HELD]⟩,
   ⟨0x810, [], .side, .any, [RSV_TWMARK_MARK, RSV_TWMARK_LEVEL, RSV_TWMARK_CROSSED, RSV_TWMARK_CROSSINGS]⟩]
/-- The registers of block `brg`. -/
def brgRegs : List Reg :=
  [⟨0x40, [], .side, .any, [BRG_STATUS_UP, BRG_STATUS_SPARES, BRG_STATUS_HB_RUN, BRG_STATUS_HB_TOTAL]⟩]
/-- The registers of block `twn`. -/
def twnRegs : List Reg :=
  [⟨0x40, [], .side, .any, [TWN_CTL_SSPOL, TWN_CTL_CLEANEN, TWN_CTL_CLEANRATE, TWN_CTL_DRAINRATE, TWN_CTL_REINTRATE, TWN_CTL_SOAK]⟩,
   ⟨0x48, [], .side, .any, [TWN_GAUGE_LINES, TWN_GAUGE_FORCED, TWN_GAUGE_UNTWINNED, TWN_GAUGE_CLEANING, TWN_GAUGE_SPILLS]⟩,
   ⟨0x50, [], .side, .any, [TWN_HIMARK_MARK, TWN_HIMARK_LEVEL, TWN_HIMARK_CROSSED, TWN_HIMARK_CROSSINGS]⟩,
   ⟨0x60, [], .side, .any, [TWN_LOG_STATE, TWN_LOG_USED, TWN_LOG_STAGED]⟩,
   ⟨0x68, [], .side, .any, [TWN_REINT_STEP, TWN_REINT_PCT]⟩,
   ⟨0x58, [], .side, .any, [TWN_LOMARK_MARK, TWN_LOMARK_LEVEL, TWN_LOMARK_CROSSED, TWN_LOMARK_CROSSINGS]⟩]
/-- The registers of block `lvl`. -/
def lvlRegs : List Reg :=
  [⟨0x40, [], .side, .any, [LVL_CTL_EN, LVL_CTL_WINDOW, LVL_CTL_RATIO, LVL_CTL_UTIL, LVL_CTL_SUSTAIN, LVL_CTL_MININT, LVL_CTL_RKRATE, LVL_CTL_FORCE]⟩,
   ⟨0x48, [], .side, .any, [LVL_STATUS_STATE, LVL_STATUS_EPOCH, LVL_STATUS_PTR, LVL_STATUS_RUNWIN, LVL_STATUS_LASTCH, LVL_STATUS_REKEYS]⟩,
   ⟨0x50, [], .side, .any, [LVL_LAST_MAXCNT, LVL_LAST_MEANCNT, LVL_LAST_SINCE]⟩,
   ⟨0x100, [], .side, .any, [PLC_CTL_EN, PLC_CTL_AUTO, PLC_CTL_SAMPLE, PLC_CTL_PERIOD, PLC_CTL_PORT_HI, PLC_CTL_PORT_LO, PLC_CTL_MINHOT, PLC_CTL_PROPMAX, PLC_CTL_MAXMIG, PLC_CTL_FINALMAX, PLC_CTL_MAXPASS]⟩,
   ⟨0x108, [], .side, .any, [PLC_CTL2_HOLDMAX, PLC_CTL2_DEST]⟩,
   ⟨0x110, [], .side, .any, [PLC_STATUS_HOTUSED, PLC_STATUS_PROPQ, PLC_STATUS_MIGRUN, PLC_STATUS_DROPS]⟩,
   ⟨0x118, [], .side, .any, [PLC_PROP_PLOT, PLC_PROP_SRC, PLC_PROP_DST, PLC_PROP_COUNT, PLC_PROP_SEQ, PLC_PROP_V]⟩,
   ⟨0x120, [], .side, .any, [PLC_PROPPOP_POP]⟩,
   ⟨0x180, [(8, 8)], .side, .any, [PLC_LOAD_LOAD0, PLC_LOAD_LOAD1, PLC_LOAD_LOAD2, PLC_LOAD_LOAD3]⟩,
   ⟨0x400, [(16, 16)], .side, .any, [PLC_MIGT_PLOT, PLC_MIGT_EN, PLC_MIGT_HOLD, PLC_MIGT_HOLDEXP, PLC_MIGT_QUIET, PLC_MIGT_STEPS, PLC_MIGT_HELDW]⟩,
   ⟨0x800, [(64, 16), (8, 8)], .side, .any, [PLC_MIGBM_BITS]⟩]
/-- The registers of block `rge`. -/
def rgeRegs : List Reg :=
  [⟨0x40, [], .side, .any, [RGE_STATUS_BUSY, RGE_STATUS_OP, RGE_STATUS_ENGINE, RGE_STATUS_STATUS, RGE_STATUS_STARTS]⟩,
   ⟨0x48, [], .side, .any, [RGE_CUR_NEXT]⟩,
   ⟨0x50, [], .side, .any, [RGE_LEFT_LEFT]⟩,
   ⟨0x58, [], .side, .any, [RGE_CTL_ABORT, RGE_CTL_GAP]⟩,
   ⟨0x800, [], .side, .any, [RGE_CCTL_OFF, RGE_CCTL_RDRATE]⟩,
   ⟨0x808, [], .side, .any, [RGE_CSTAT_HG, RGE_CSTAT_RS, RGE_CSTAT_EAST, RGE_CSTAT_BUSY, RGE_CSTAT_WT, RGE_CSTAT_DONE, RGE_CSTAT_TRANSITIONS]⟩]
/-- The registers of block `fc`. -/
def fcRegs : List Reg :=
  [⟨0x0, [], .side, .any, [FC_STATUS_STATE, FC_STATUS_KIND, FC_STATUS_ENGINE, FC_STATUS_STATUS, FC_STATUS_STEPS]⟩,
   ⟨0x8, [], .side, .any, [FC_SRC_WORD]⟩,
   ⟨0x18, [], .side, .any, [FC_CTL_RESUME, FC_CTL_ABORT]⟩,
   ⟨0x20, [], .side, .any, [FC_ERR_UE, FC_ERR_POISONED, FC_ERR_HALTS]⟩,
   ⟨0x10, [], .side, .any, [FC_DST_WORD]⟩]
/-- The registers of block `fcg`. -/
def fcgRegs : List Reg :=
  [⟨0x40, [], .side, .any, [FC_GCTL_HALTWAIT, FC_GCTL_BWCAP]⟩,
   ⟨0x48, [], .side, .any, [FC_GSTAT_RUNNING, FC_GSTAT_HALTED]⟩]
/-- The registers of block `noc`. -/
def nocRegs : List Reg :=
  [⟨0x40, [], .side, .any, [NOC_CTL_AGEINT]⟩,
   ⟨0x48, [], .side, .any, [NOC_STATUS_RECONF, NOC_STATUS_BOUNCES, NOC_STATUS_BDISC, NOC_STATUS_UPLINK, NOC_STATUS_DETOUR]⟩,
   ⟨0x400, [(8, 64)], .side, .any, [NOC_GW_STATE, NOC_GW_ABORT, NOC_GW_HELD, NOC_GW_WAKES, NOC_GW_ABORTS, NOC_GW_DISCARDS]⟩,
   ⟨0x600, [(8, 63)], .side, .any, [NOC_QCE_REQ, NOC_QCE_SNP, NOC_QCE_RSP, NOC_QCE_DAT]⟩,
   ⟨0x800, [(32, 8)], .side, .any, [NOC_PRBCTL_EN, NOC_PRBCTL_NET, NOC_PRBCTL_RTR, NOC_PRBCTL_PORT, NOC_PRBCTL_DIR, NOC_PRBCTL_VNMASK, NOC_PRBCTL_ADREN, NOC_PRBCTL_TRACE]⟩,
   ⟨0x808, [(32, 8)], .side, .any, [NOC_PRBMATCH_MATCH]⟩,
   ⟨0x818, [(32, 8)], .side, .any, [NOC_PRBADDR_LO, NOC_PRBADDR_HI]⟩,
   ⟨0x900, [], .side, .any, [NOC_TRCTL_EN, NOC_TRCTL_MODE, NOC_TRCTL_DATA]⟩,
   ⟨0x908, [], .side, .any, [NOC_TRSTAT_USED, NOC_TRSTAT_LOST]⟩,
   ⟨0x910, [(8, 4)], .side, .any, [NOC_TRREC_WORD]⟩,
   ⟨0x930, [], .side, .any, [NOC_TRADV_ADV]⟩,
   ⟨0x810, [(32, 8)], .side, .any, [NOC_PRBMASK_MASK]⟩]
/-- The registers of block `tl`. -/
def tlRegs : List Reg :=
  [⟨0x40, [], .cold, .any, [TL_STATUS_UPA, TL_STATUS_UPB, TL_STATUS_PHYVER, TL_STATUS_TEMP]⟩]
/-- The registers of block `mgt`. -/
def mgtRegs : List Reg :=
  [⟨0x40, [], .cold, .any, [MGT_STATUS_STATE, MGT_STATUS_SLOT, MGT_STATUS_SVNFUSE, MGT_STATUS_SVN, MGT_STATUS_VERSION]⟩,
   ⟨0x48, [], .cold, .any, [MGT_SEC_REVOKED, MGT_SEC_KEY, MGT_SEC_SVNAUTO, MGT_SEC_FACTSVN]⟩,
   ⟨0x50, [], .cold, .any, [MGT_UPD_STATE, MGT_UPD_PROGPEND, MGT_UPD_PROGACT, MGT_UPD_PROGBUSY, MGT_UPD_RESULT]⟩,
   ⟨0x58, [], .cold, .any, [MGT_WD_KICK, MGT_WD_PERIOD, MGT_WD_WARM, MGT_WD_LEVEL, MGT_WD_EXPIRIES]⟩,
   ⟨0x60, [], .cold, .any, [MGT_IFCTL_SMBADDR, MGT_IFCTL_ETHEN, MGT_IFCTL_DHCP, MGT_IFCTL_KEEPER, MGT_IFCTL_UDPPORT, MGT_IFCTL_IPV4]⟩,
   ⟨0x68, [], .cold, .any, [MGT_FMCTL_FMDC, MGT_FMCTL_ENTRY]⟩,
   ⟨0x70, [], .cold, .any, [MGT_LOGSTAT_PEND, MGT_LOGSTAT_HELD, MGT_LOGSTAT_DROPS, MGT_LOGSTAT_BOOT]⟩,
   ⟨0x78, [], .cold, .any, [MGT_LOGRD_SEQ, MGT_LOGRD_BOOT, MGT_LOGRD_RING, MGT_LOGRD_GO, MGT_LOGRD_BUSY, MGT_LOGRD_STATUS]⟩,
   ⟨0x80, [(8, 8)], .cold, .any, [MGT_LOGDAT_WORD]⟩]
/-- The registers of block `cnt`. -/
def cntRegs : List Reg :=
  [⟨0x40, [], .cold, .any, [CNT_CTL_TICK]⟩,
   ⟨0x48, [], .cold, .any, [CNT_SEQ_SEQ, CNT_SEQ_TIME]⟩,
   ⟨0x50, [], .cold, .any, [CNT_RCTL_EN, CNT_RCTL_MODE, CNT_RCTL_SIZELOG, CNT_RCTL_BASE]⟩,
   ⟨0x58, [], .cold, .any, [CNT_RPTR_WP, CNT_RPTR_RP]⟩,
   ⟨0x60, [], .cold, .any, [CNT_RSTAT_USED, CNT_RSTAT_LOST, CNT_RSTAT_SKIPPED]⟩,
   ⟨0x68, [], .cold, .any, [CNT_RMARK_MARK, CNT_RMARK_LEVEL, CNT_RMARK_CROSSED, CNT_RMARK_CROSSINGS]⟩,
   ⟨0x400, [(8, 64)], .cold, .any, [CNT_RSEL_V, CNT_RSEL_BASE]⟩,
   ⟨0x800, [(8, 16)], .cold, .any, [CNT_SAMPCTL_EN, CNT_SAMPCTL_KIND, CNT_SAMPCTL_ALL, CNT_SAMPCTL_INST, CNT_SAMPCTL_INTLOG, CNT_SAMPCTL_PORTEN, CNT_SAMPCTL_PORT]⟩,
   ⟨0x900, [], .cold, .any, [CNT_SSTAT_USED, CNT_SSTAT_LOST]⟩,
   ⟨0x910, [(8, 4)], .cold, .any, [CNT_SREC_WORD]⟩,
   ⟨0x930, [], .cold, .any, [CNT_SADV_ADV]⟩,
   ⟨0x938, [], .cold, .any, [CNT_SMARK_MARK, CNT_SMARK_LEVEL, CNT_SMARK_CROSSED, CNT_SMARK_CROSSINGS]⟩]
end R
end Sys2Proof.Machine
end

