-- ==== Sys2Proof/Machine/Ops.lean ====
section
/-! DEFINITION. The named operations over registers, counters, notices and the outbox that every chapter uses. -/

namespace Sys2Proof.Machine

/-- Base of a side (Table 2-1). -/
def sideBase (sd : Nat) : Nat := 0x1000000 + sd * 0x800000

/-- Window of home slice `h`, numbered globally (R21). -/
def hsBase (h : Nat) : Nat := sideBase (h / 32) + (h % 32) * 0x1000

/-- Window of Reservoir controller `k`. -/
def rsvBase (k : Nat) : Nat := sideBase (k / 4) + 0x40000 + (k % 4) * 0x1000

/-- Sluice cluster of a side. -/
def seBase (sd : Nat) : Nat := sideBase sd + 0x80000

/-- Range engine `n`. -/
def rgeBase (n : Nat) : Nat := sideBase (n / 4) + 0xA0000 + (n % 4) * 0x1000

/-- Flume channel `c`. -/
def fcBase (c : Nat) : Nat := sideBase (c / 32) + 0xB0000 + (c % 32) * 0x100

/-- Header and group registers of a side's flume channels (R22). -/
def fcgBase (sd : Nat) : Nat := sideBase sd + 0xB2000

/-- On-chip network of a side. -/
def nocBase (sd : Nat) : Nat := sideBase sd + 0xC0000

/-- Bridge end of a side. -/
def brgBase (sd : Nat) : Nat := sideBase sd + 0xD0000

/-- Twin block of a side. -/
def twnBase (sd : Nat) : Nat := sideBase sd + 0xE0000

/-- Levelling and placement loops of a side. -/
def lvlBase (sd : Nat) : Nat := sideBase sd + 0xF0000

/-- Window of port `p` (Table 2-1). -/
def ptBase (p : Nat) : Nat := 0x100000 + (p / 8) * 0x20000 + (p % 8) * 0x4000

/-- Registers of tile `t`: page 3 of the window of port 8t. -/
def tlBase (t : Nat) : Nat := 0x100000 + t * 0x20000 + 0x3000

/-- Always-on block, Ditchrider mailbox and counter collector. -/
def aonBase : Nat := 0
def mgtBase : Nat := 0x10000
def cntBase : Nat := 0x2000000

/-- The classes whose AON_EVRT entry resets with ALERT 1, and with LOG 1 (Table 10-8). -/
def evrtAlert (c : Nat) : Bool := c == 1 || c == 9 || c == 10 || c == 15 || c == 16
def evrtLog (c : Nat) : Bool := decide (1 ≤ c) && decide (c ≤ 16)

/-- The reset value of field `f` at control address `addr`, where it depends on the instance (Table 10-8, R354). -/
def resetOf (addr : Nat) (f : Fld) : Nat :=
  if f.off = 0x400 then
    if addr < 0x500 then
      if f.lo = 33 then b2n (evrtAlert ((addr - 0x400) / 8))
      else if f.lo = 34 then b2n (evrtLog ((addr - 0x400) / 8)) else f.rst
    else if 0xC05E0 ≤ addr % 0x800000 && addr % 0x800000 < 0xC0600 && f.lo == 0 then 5 else f.rst
  else f.rst

/-- The key of field `f` of the block at `base` (an array's index times its stride counts into `base`). -/
def fkey (base : Nat) (f : Fld) : Nat := (base + f.off) * 8 + f.lo

/-- Reads a register field. -/
def fget (m : Mach) (base : Nat) (f : Fld) : Nat := sget (resetOf (base + f.off) f) m.regs ((base + f.off) * 8 + f.lo) % 2 ^ f.w

/-- Is the one-bit field 1? -/
def fon (m : Mach) (base : Nat) (f : Fld) : Bool := fget m base f == 1

/-- Does the field stand at 1 for what sets it now: is it 1, or cleared by software in the very cycle (R32)? -/
def stands (m : Mach) (base : Nat) (f : Fld) : Bool := fon m base f || m.clash.any fun c => c.1 == fkey base f

/-- Writes a register field, whatever its access type: what the hardware does. -/
def fset (m : Mach) (base : Nat) (f : Fld) (v : Nat) : Mach :=
  { m with regs := sset (resetOf (base + f.off) f) m.regs ((base + f.off) * 8 + f.lo) (v % 2 ^ f.w) }

/-- Adds to a field that wraps. -/
def finc (m : Mach) (base : Nat) (f : Fld) (n : Nat := 1) : Mach := fset m base f (fget m base f + n)

/-- Adds to a field that saturates. -/
def fsat (m : Mach) (base : Nat) (f : Fld) (n : Nat := 1) : Mach :=
  fset m base f (satAdd (2 ^ f.w - 1) (fget m base f) n)

/-- Takes the next open value (marked DESIGN CHOICE in the log: nothing constrains it). -/
def drawn (m : Mach) : Nat := (Config.freeValue m.free).toNat
def draw (m : Mach) : Mach := { m with free := m.free + 1 }

/-- An element of a list; which one is an open value. -/
def anyOf {α : Type} (m : Mach) (l : List α) : Option α := l[drawn m % l.length]?

/-- A poisoned line whose data the spec leaves open; `draw` follows its use. -/
def openPoison (m : Mach) : Img := ⟨Config.freeLine m.free, true⟩

/-- Raises an event notice of class `c` from source instance `inst` with `det` in VALUE[39:16] (R269, R271, R510); `settle` routes
it. -/
def notice (m : Mach) (c inst det : Nat) : Mach :=
  { m with events := m.events ++ [⟨c, c + (inst % 256) * 256 + (det % 2 ^ 24) * 65536, false⟩] }

/-- Sends a message to a partner. -/
def send (m : Mach) (o : Out) : Mach := { m with outbox := m.outbox ++ [o] }

/-- Hands a completion to its requester; `settle` delivers it. -/
def complete (m : Mach) (d : Done) : Mach := { m with done := m.done ++ [d] }

/-- Power domain of a control address (Tables 2-1, 2-2). -/
def domOf (a : Nat) : Nat :=
  if a < 0x10000 then 0
  else if a < 0x20000 then 1
  else if a < 0x180000 then 2 + (a - 0x100000) / 0x20000
  else if a < 0x2000000 then
    let sd := (a - 0x1000000) / 0x800000
    let o := a % 0x800000
    6 * sd + (if 0x40000 ≤ o && o < 0x80000 then 9
      else if (0x80000 ≤ o && o < 0xA0000) || 0x400000 ≤ o then 10
      else if 0xD0000 ≤ o && o < 0xE0000 then 11 else 6)
  else 1

/-- State of a power domain (Table 17-2). -/
def domSt (m : Mach) (d : Nat) : Nat := fget m (8 * d) R.PWR_DOM_STATE

/-- Sets it. -/
def domPut (m : Mach) (d st : Nat) : Mach := fset m (8 * d) R.PWR_DOM_STATE st

/-- Counter `k` of the block at `base`. -/
def cntOf (m : Mach) (base k : Nat) : Cnt := sget Cnt.reset m.cnts (base * 8 + k)

/-- Writes it. -/
def cntPut (m : Mach) (base k : Nat) (c : Cnt) : Mach := { m with cnts := sset Cnt.reset m.cnts (base * 8 + k) c }

/-- A counter that counts `n` more; it wraps at 2^48 and sets OVF (R475). -/
def Cnt.add (c : Cnt) (n : Nat) : Cnt :=
  if 2 ^ 48 ≤ c.count + n then { c with count := (c.count + n) % 2 ^ 48, ovf := true, wrapped := true } else { c with count := c.count + n }

/-- Counts `n` occurrences of event `code` of the block at `base` in every counter that selects it (R97, R475). -/
def count (m : Mach) (base code : Nat) (n : Nat := 1) : Mach :=
  if n == 0 || m.cnts.isEmpty || !(domSt m (domOf base) == 1 || domSt m (domOf base) == 2) then m
  else forN 8 (fun k m =>
    let c := cntOf m base k
    if c.en && c.event == code then cntPut m base k (c.add n) else m) m

end Sys2Proof.Machine
end

