-- ==== Sys2Proof/Machine/Marks.lean ====
section
/-! DEFINITION. The watermark registers (Table 2-10, R36 to R38): where each stands and which fields it has. -/

namespace Sys2Proof.Machine

/-- The watermarks of the module: miss registers, write buffer and directory-wait queue of a slice, tailwater buffer and dirty gauge of a side,
transaction table of a port, ring and sample buffer of the collector. -/
inductive Wm where
  | mshr (h : Nat) | wb (h : Nat) | dwq (h : Nat) | tail (sd : Nat) | dirtyHi (sd : Nat) | dirtyLo (sd : Nat) | ptt (p : Nat) | ring | samples
deriving DecidableEq, Repr

/-- Every watermark. -/
def Wm.all : List Wm :=
  (List.range 64).map Wm.mshr ++ (List.range 64).map Wm.wb ++ (List.range 64).map Wm.dwq ++ (List.range 2).map Wm.tail ++
  (List.range 2).map Wm.dirtyHi ++ (List.range 2).map Wm.dirtyLo ++ (List.range 32).map Wm.ptt ++ [Wm.ring, Wm.samples]

/-- Base of the block instance that holds the register. -/
def Wm.base : Wm → Nat
  | .mshr h => hsBase h
  | .wb h => hsBase h
  | .dwq h => hsBase h
  | .tail sd => rsvBase (4 * sd)
  | .dirtyHi sd => twnBase sd
  | .dirtyLo sd => twnBase sd
  | .ptt p => ptBase p
  | .ring => cntBase
  | .samples => cntBase

/-- MARK, LEVEL, CROSSED and CROSSINGS of the register. -/
def Wm.mark : Wm → Fld
  | .mshr _ => R.HS_MSHRMARK_MARK
  | .wb _ => R.HS_WBMARK_MARK
  | .dwq _ => R.DIR_DWQMARK_MARK
  | .tail _ => R.RSV_TWMARK_MARK
  | .dirtyHi _ => R.TWN_HIMARK_MARK
  | .dirtyLo _ => R.TWN_LOMARK_MARK
  | .ptt _ => R.PT_PTTMARK_MARK
  | .ring => R.CNT_RMARK_MARK
  | .samples => R.CNT_SMARK_MARK

def Wm.level : Wm → Fld
  | .mshr _ => R.HS_MSHRMARK_LEVEL
  | .wb _ => R.HS_WBMARK_LEVEL
  | .dwq _ => R.DIR_DWQMARK_LEVEL
  | .tail _ => R.RSV_TWMARK_LEVEL
  | .dirtyHi _ => R.TWN_HIMARK_LEVEL
  | .dirtyLo _ => R.TWN_LOMARK_LEVEL
  | .ptt _ => R.PT_PTTMARK_LEVEL
  | .ring => R.CNT_RMARK_LEVEL
  | .samples => R.CNT_SMARK_LEVEL

def Wm.crossed : Wm → Fld
  | .mshr _ => R.HS_MSHRMARK_CROSSED
  | .wb _ => R.HS_WBMARK_CROSSED
  | .dwq _ => R.DIR_DWQMARK_CROSSED
  | .tail _ => R.RSV_TWMARK_CROSSED
  | .dirtyHi _ => R.TWN_HIMARK_CROSSED
  | .dirtyLo _ => R.TWN_LOMARK_CROSSED
  | .ptt _ => R.PT_PTTMARK_CROSSED
  | .ring => R.CNT_RMARK_CROSSED
  | .samples => R.CNT_SMARK_CROSSED

def Wm.crossings : Wm → Fld
  | .mshr _ => R.HS_MSHRMARK_CROSSINGS
  | .wb _ => R.HS_WBMARK_CROSSINGS
  | .dwq _ => R.DIR_DWQMARK_CROSSINGS
  | .tail _ => R.RSV_TWMARK_CROSSINGS
  | .dirtyHi _ => R.TWN_HIMARK_CROSSINGS
  | .dirtyLo _ => R.TWN_LOMARK_CROSSINGS
  | .ptt _ => R.PT_PTTMARK_CROSSINGS
  | .ring => R.CNT_RMARK_CROSSINGS
  | .samples => R.CNT_SMARK_CROSSINGS

/-- Control address of the register. -/
def Wm.addr (w : Wm) : Nat := w.base + w.mark.off

/-- Block type code and global instance that a notice names (Table 10-17). -/
def Wm.source : Wm → Nat × Nat
  | .mshr h => (0x10, h)
  | .wb h => (0x10, h)
  | .dwq h => (0x10, h)
  | .tail sd => (0x11, 4 * sd)
  | .dirtyHi sd => (0x17, sd)
  | .dirtyLo sd => (0x17, sd)
  | .ptt p => (0x03, p)
  | .ring => (0x04, 0)
  | .samples => (0x04, 0)

/-- The reset of the registers that satisfy `p` ends: their watermarks take their live value without a crossing (R36). -/
def marksBegin (p : Nat → Bool) (m : Mach) : Mach := { m with markStart := m.markStart ++ (Wm.all.map Wm.addr).filter p }

end Sys2Proof.Machine
end

