-- ==== Sys2Proof/Machine/Report.lean ====
section
/-! DEFINITION. What the module reports: event records and the log rings (R461 to R463), error records (R390, R403, R404), and
refused accesses of a port (R51, R385). -/

namespace Sys2Proof.Machine

/-- An event of a sampling source counts in every sampler that watches it; one whose count reaches 2^INTLOG restarts, and its sample falls
due (R482, R483). `kind`: 0 a request accepted at a slice, 1 an instruction retired by an engine. -/
def sampleCount (m : Mach) (kind inst : Nat) (port : Option Nat) : Mach :=
  forN 16 (fun j m =>
    let b := cntBase + 8 * j
    let k := j * 64 + inst
    if !fon m b R.CNT_SAMPCTL_EN || fget m b R.CNT_SAMPCTL_KIND != kind then m
    else if !fon m b R.CNT_SAMPCTL_ALL && fget m b R.CNT_SAMPCTL_INST != inst then m
    else if fon m b R.CNT_SAMPCTL_PORTEN && port != some (fget m b R.CNT_SAMPCTL_PORT) then m
    else
      let n := sget 0 m.col.sampCount k + 1
      if n < 2 ^ fget m b R.CNT_SAMPCTL_INTLOG then { m with col := { m.col with sampCount := sset 0 m.col.sampCount k n } }
      else { m with col := { m.col with sampCount := sset 0 m.col.sampCount k 0, due := m.col.due ++ [k] } }) m

/-- Is the Ditchrider running (MGT_STATUS.STATE 1)? -/
def ditchRuns (m : Mach) : Bool := fget m mgtBase R.MGT_STATUS_STATE == 1

/-- Records that the persistent ring holds, and records of an erase block (R462). -/
def persMax : Nat := 1048576

/-- Writes the pending list to the persistent ring, erasing the oldest block when the ring wraps (R462); the mailbox counts it as one flash block
written (entry 115). -/
def logFlush (m : Mach) : Mach :=
  let all := m.log.pers ++ m.log.pend
  let all := if persMax < all.length then all.drop 1024 else all
  count { m with log := { m.log with pers := all, pend := [] } } mgtBase 0x03 (b2n (!m.log.pend.isEmpty))

/-- Does the record stay out of the persistent ring: KIND 0x01 with SEV CE and HARD 0 (R462)? -/
def LogRec.ceOnly (r : LogRec) : Bool :=
  let w := r.words.getD 0 0
  bitsOf w 0 8 == 1 && bitsOf w 8 3 == 0 && !bitOf w 11

/-- The running Ditchrider writes a record to the rings (R462). -/
def logWrite (m : Mach) (r : LogRec) : Mach :=
  let m := count m mgtBase 0x02
  let ring := m.log.ring ++ [r]
  let m := { m with log := { m.log with ring := if 65536 < ring.length then ring.drop 1 else ring } }
  if r.ceOnly then m
  else
    let m := { m with log := { m.log with pend := m.log.pend ++ [r] } }
    if 128 ≤ m.log.pend.length then logFlush m else m

/-- A record with words 0 and 2 to 5 given: it takes TIME, SEQ and BOOT, and waits in PD0 while the Ditchrider does not run
(R463). -/
def logRecord (m : Mach) (w0 : Nat) (w25 : List Nat) : Mach :=
  let r : LogRec := { words := [w0, m.timeUs] ++ w25 ++ [m.log.seq], boot := fget m mgtBase R.MGT_LOGSTAT_BOOT }
  let next (m : Mach) : Mach := { m with log := { m.log with seq := m.log.seq + 1 } }
  if ditchRuns m then next (logWrite m r)
  else if m.log.held.length < 256 then next { m with log := { m.log with held := m.log.held ++ [r] } }
  else fsat m mgtBase R.MGT_LOGSTAT_DROPS

/-- A record of a kind other than 0x01 (Table 18-3). -/
def eventRecord (m : Mach) (kind cls btype inst detail : Nat) (data : List Nat) : Mach :=
  logRecord m (kind + cls * 2 ^ 8 + btype * 2 ^ 16 + (inst % 256) * 2 ^ 24 + (detail % 2 ^ 32) * 2 ^ 32)
    ((data ++ [0, 0, 0, 0]).take 4)

/-- Word 0 of an error record (Table 15-6). -/
def Err.word0 (e : Err) (count : Nat) : Nat :=
  1 + e.sev * 2 ^ 8 + b2n e.hard * 2 ^ 11 + b2n e.repaired * 2 ^ 12 + b2n e.dataloss * 2 ^ 13 + b2n e.poisoned * 2 ^ 14 +
  e.struct_ * 2 ^ 16 + e.btype * 2 ^ 24 + (e.inst % 256) * 2 ^ 32 + e.found * 2 ^ 40 + (min count 65535) * 2 ^ 48

/-- Side of a block instance that lies in one (Table 2-2). -/
def Err.side (e : Err) : Option Nat := match e.btype with
  | 0x10 => some (e.inst / 32)
  | 0x11 => some (e.inst / 4)
  | 0x13 => some (e.inst / 4)
  | 0x14 => some (e.inst / 32)
  | 0x12 => some e.inst
  | 0x15 => some e.inst
  | 0x16 => some e.inst
  | 0x17 => some e.inst
  | 0x18 => some e.inst
  | _ => none

/-- An error of class UCC or SFE on the returning side counts against its soak (Table 8-12, step 6). -/
def soakErr (m : Mach) (e : Err) : Mach :=
  match m.twin.returning, e.side with
  | some r, some s =>
    if r == s && e.sev != 0 && fget m (twnBase (1 - r)) R.TWN_REINT_STEP == 6 then { m with twin := { m.twin with soakBad := true } } else m
  | _, _ => m

/-- Writes an error record and raises its notice (R403, R404, R510); the latest of class UCC or higher is held in ERR_LAST. -/
def errWrite (m : Mach) (e : Err) (count : Nat) : Mach :=
  let w0 := e.word0 count
  let w25 := [e.loc, e.addr, e.bits, e.action]
  let seq := m.log.seq
  let m := soakErr m e
  let m :=
    if e.sev == 0 then m
    else
      let ws := [w0, m.timeUs] ++ w25 ++ [seq, 0]
      forN 8 (fun i m => fset m (aonBase + 8 * i) R.ERR_LAST_WORD (ws.getD i 0)) m
  let m := logRecord m w0 w25
  let cls := if e.sev == 0 then 8 else if e.sev == 1 then 9 else 10
  let det := if e.sev < 2 then e.struct_ + e.btype * 2 ^ 8 + (seq % 256) * 2 ^ 16
    else 1 + e.struct_ * 2 ^ 8 + e.btype * 2 ^ 16
  { m with events := m.events ++ [⟨cls, cls + (e.inst % 256) * 256 + (det % 2 ^ 24) * 65536, true⟩] }

/-- R404: counts an error in ERR_SUM and records it; at most 16 CE records of one structure instance per second. -/
def err (m : Mach) (e : Err) : Mach :=
  let m := fsat m aonBase (match e.sev with
    | 0 => R.ERR_SUM_CE
    | 1 => R.ERR_SUM_UCC
    | 2 => R.ERR_SUM_SFE
    | _ => R.ERR_SUM_MFE)
  if e.sev == 0 && !e.hard then
    let key := (e.struct_ * 256 + e.btype) * 256 + e.inst
    let sec := m.timeUs / 1000000
    let c0 := sget ⟨0, 0, 0⟩ m.log.ce key
    let c := if c0.sec == sec then c0 else ⟨sec, 0, c0.wait⟩
    let put (m : Mach) (c : CeRate) : Mach := { m with log := { m.log with ce := sset ⟨0, 0, 0⟩ m.log.ce key c } }
    if c.sent < 16 then errWrite (put m { c with sent := c.sent + 1, wait := 0 }) e (c.wait + 1)
    else put m { c with wait := c.wait + 1 }
  else errWrite m e 1

/-- An error of a block with nothing repaired, lost or known of its place. -/
def errOf (sev struct_ btype inst : Nat) : Err :=
  { sev := sev, hard := false, repaired := false, dataloss := false, poisoned := false, struct_ := struct_, btype := btype
    inst := inst, found := 0, loc := 0, addr := 2 ^ 64 - 1, action := 0, bits := 0x7F7F }

/-- The block header's fields (Tables 2-4, 2-5). -/
def hdrLock : Fld := ⟨0x08, 0, 1, 0, .w1s, .any⟩
def hdrRej : Fld := ⟨0x10, 0, 1, 0, .w1c, .any⟩
def hdrCause : Fld := ⟨0x10, 1, 3, 0, .ro, .any⟩
def hdrOffset : Fld := ⟨0x10, 5, 11, 0, .ro, .any⟩
def hdrCount : Fld := ⟨0x10, 16, 16, 0, .ro, .any⟩

/-- A refused write to offset `off` of the instance at `base` is recorded in its REJECT register (Table 2-5). -/
def reject (m : Mach) (base cause off : Nat) : Mach :=
  fsat (fset (fset (fset m base hdrRej 1) base hdrCause cause) base hdrOffset (off / 8)) base hdrCount

/-- Refusals of a port in PT_VIOL and PT_VIOLADDR (Table 3-9). -/
def viol (m : Mach) (p kind addr : Nat) : Mach :=
  let b := ptBase p
  let m := count m b 0x06
  let m := fsat m b R.PT_VIOL_COUNT
  if fon m b R.PT_VIOL_VIOL then m
  else fset (fset (fset m b R.PT_VIOL_VIOL 1) b R.PT_VIOL_KIND kind) b R.PT_VIOLADDR_ADDR addr

/-- A protocol error of a HOST port (Table 14-10). -/
def protoErr (m : Mach) (p : Nat) : Mach := fset (fsat m (ptBase p) R.PT_ERR_PROTO) (ptBase p) R.PT_LEV_PROTO 1

/-- An Unsupported Request recorded for an IO port: PT_ERR and the error record hold the root port's AER status (R368). -/
def urRecord (m : Mach) (p addr : Nat) : Mach :=
  err (fsat m (ptBase p) R.PT_ERR_UR) { errOf 1 0 0x03 p with addr := addr }

end Sys2Proof.Machine
end

