-- ==== Sys2Proof/Machine/Route.lean ====
section
/-! DEFINITION. Where a line lives: side and slice hashes (R222, R223), serving side (R210), Headgate set and tag (R65), Feistel
index (R104, R105), region attributes (R47 to R54, R507) and placement (R52). -/

namespace Sys2Proof.Machine

/-- Role of a port: 0 Off, 1 HOST, 2 MEM, 3 IO (Table 14-11). -/
def roleOf (m : Mach) (p : Nat) : Nat := fget m (ptBase p) R.PT_ROLE_ROLE

/-- Side-local line address pool[47:7] of a pool line (R13). -/
def lineL (pln : Nat) : Nat := pln / 2

/-- Plot number of a pool line (R12). -/
def plotOf (pln : Nat) : Nat := pln / 32768

/-- The home half of a line by its keyed hash: 0 for Side A, 1 for Side B (R13, R222). -/
def halfOf (m : Mach) (pln : Nat) : Nat := (pln % 2 + b2n (parity 41 (lineL pln &&& m.comp.ks))) % 2

/-- The pool line that has side-local address `l` and home half `half`. -/
def plnOf (m : Mach) (half l : Nat) : Nat := 2 * l + (half + b2n (parity 41 (l &&& m.comp.ks))) % 2

/-- Slice number within a side (R223). -/
def sliceIn (m : Mach) (l : Nat) : Nat :=
  forN 5 (fun i s => s + 2 ^ i * ((bitsOf l i 1 + b2n (parity 21 (bitsOf l 5 21 &&& (m.comp.kr.getD i 0)))) % 2)) 0

/-- Does side `sd` home pool lines (AON_OPMODE.SIDE_UP)? -/
def sideUp (m : Mach) (sd : Nat) : Bool := bitOf (fget m aonBase R.AON_OPMODE_SIDE_UP) sd

/-- Do both sides home pool lines? -/
def bothUp (m : Mach) : Bool := fget m aonBase R.AON_OPMODE_SIDE_UP == 3

/-- The operating mode (R18): 0 Starting, 1 Normal, 2 Single-side, 3 Spillway, 4 Recovery. -/
def opMode (m : Mach) : Nat := fget m aonBase R.AON_OPMODE_MODE

/-- The side that serves a line: its home half while that side is up and, in a reintegration, its slice pair has been handed
back; otherwise the survivor (R210, R218). -/
def servingSide (m : Mach) (pln : Nat) : Nat :=
  let half := halfOf m pln
  if sideUp m half then half
  else match m.twin.returning with
    | some r => if r = half && sliceIn m (lineL pln) < m.twin.handed then half else 1 - half
    | none => 1 - half

/-- Global number of the slice that orders a line's requests (R63). -/
def homeSlice (m : Mach) (pln : Nat) : Nat := servingSide m pln * 32 + sliceIn m (lineL pln)

/-- Is the line of the half that the survivor took over (R210)? -/
def taken (m : Mach) (pln : Nat) : Bool := servingSide m pln != halfOf m pln

/-- Are the writes and directory changes of a line twinned and mirrored on the other side: while both sides serve, and once the
replication of a reintegration has ended (R192, R218)? -/
def twinned (m : Mach) (pln : Nat) : Bool := (bothUp m || m.twin.replicated) && !taken m pln

/-- Headgate set of L (R65). -/
def hgSet (l : Nat) : Nat := l % 1024 + 1024 * (l / 1024 % 3)

/-- Headgate tag of L (R65). -/
def hgTag (l : Nat) : Nat := l / 1024

/-- The L of set `s` and tag `t`. -/
def hgLineOf (s t : Nat) : Nat := t * 1024 + s % 1024

/-- Key of way `w` of set `s` of slice `h`. -/
def hgKey (h s w : Nat) : Nat := (h * 3072 + s) * 16 + w

/-- Directory set of L (R143). -/
def dirSet (l : Nat) : Nat := l % 2 ^ 26

/-- Key of way `w` of directory set `set` of half `half`. -/
def dirKey (half set w : Nat) : Nat := (half * 2 ^ 26 + set) * 8 + w

/-- The S-box of R104. -/
def sbox (n : Nat) : Nat := [6, 11, 3, 14, 9, 0, 13, 5, 12, 1, 7, 10, 4, 15, 2, 8].getD n 0

/-- R104's mix of 20 bits. -/
def mix (u : Nat) : Nat :=
  rotl20by4 (forN 5 (fun i s => s + sbox (bitsOf u (4 * i) 4) * 2 ^ (4 * i)) 0)

/-- R104's widening of 20 bits to 21. -/
def halfA (t : Nat) : Nat := b2n (parity 20 t) * 2 ^ 20 + t

/-- R104's fold of 21 bits to 20. -/
def fold20 (a k : Nat) : Nat := (a % 2 ^ 20) ^^^ k ^^^ (if bitOf a 20 then 0xFFFFF else 0)

/-- The permutation of R104 under round keys `ks`: the 41-bit result. -/
def permute (ks : List Nat) (l : Nat) : Nat :=
  let a0 := bitsOf l 20 21
  let b0 := bitsOf l 0 20
  let a1 := a0 ^^^ halfA (mix (b0 ^^^ ks.getD 0 0))
  let b1 := b0 ^^^ mix (fold20 a1 (ks.getD 1 0))
  let a2 := a1 ^^^ halfA (mix (b1 ^^^ ks.getD 2 0))
  let b2 := b1 ^^^ mix (fold20 a2 (ks.getD 3 0))
  a2 * 2 ^ 20 + b2

/-- The inverse of `permute`: the four steps in reverse order (R104). -/
def unpermute (ks : List Nat) (y : Nat) : Nat :=
  let a2 := bitsOf y 20 21
  let b2 := bitsOf y 0 20
  let b1 := b2 ^^^ mix (fold20 a2 (ks.getD 3 0))
  let a1 := a2 ^^^ halfA (mix (b1 ^^^ ks.getD 2 0))
  let b0 := b1 ^^^ mix (fold20 a1 (ks.getD 1 0))
  let a0 := a1 ^^^ halfA (mix (b0 ^^^ ks.getD 0 0))
  a0 * 2 ^ 20 + b0

/-- Is plot `p` inside a valid region entry? -/
def Region.covers (r : Region) (p : Nat) : Bool :=
  bitOf r.w0 59 && bitsOf r.w0 0 27 ≤ p && p ≤ bitsOf r.w0 0 27 + bitsOf r.w0 32 27

/-- The attributes of an entry. -/
def Region.attr (r : Region) : Attr :=
  { ports := bitsOf r.w1 0 32, wpol := bitsOf r.w1 32 2, hga := bitOf r.w1 34, rsa := bitOf r.w1 35, pf := bitOf r.w1 36
    priv := bitOf r.w1 37, owner := bitsOf r.w1 38 5, pclass := bitsOf r.w1 43 2, mir := bitOf r.w1 45, covered := true }

/-- The region entry that covers a plot, with its number. -/
def regionOf (m : Mach) (plot : Nat) : Option (Nat × Region) := m.comp.regions.find? fun r => r.2.covers plot

/-- The attributes of a line: its region's, or those of R507 for an uncovered line. -/
def attrOf (m : Mach) (pln : Nat) : Attr :=
  match regionOf m (plotOf pln) with
  | some r => r.2.attr
  | none => { ports := 0, wpol := 2, hga := false, rsa := false, pf := false, priv := false, owner := 0, pclass := 0
              mir := false, covered := false }

/-- The attributes under which a request runs: those in force when it was decoded (R60). -/
def attrFor (m : Mach) (q : Req) : Attr := q.attr.getD (attrOf m q.pln)

/-- A request as the home receives it once decoded (R60). -/
def Req.decoded (q : Req) (m : Mach) : Req := { q with attr := some (attrOf m q.pln) }

/-- Placement entry of a plot in side `sd`'s copy (R52). -/
def plcGet (m : Mach) (sd plot : Nat) : Nat := sget 0 m.comp.plc (sd * 2 ^ 27 + plot)

/-- Fields of a placement entry (Table 3-10). -/
def plcV (e : Nat) : Bool := bitOf e 28
def plcM2 (e : Nat) : Bool := bitOf e 29
def plcMig (e : Nat) : Bool := bitOf e 58
def plcLoc1 (e : Nat) : Nat × Nat := (bitsOf e 23 5, bitsOf e 0 23)
def plcLoc2 (e : Nat) : Nat × Nat := (bitsOf e 53 5, bitsOf e 30 23)

/-- State of a MEM port: 0 Up, 1 Waiting, 2 Lost (Table 3-11). -/
def memState (m : Mach) (p : Nat) : Nat := fget m (ptBase p) R.PT_MEMCTL_STATE

/-- The locations to which a sled write of a plot goes: a Lost port's location is left out while the other remains (R55). -/
def writeLocs (m : Mach) (e : Nat) : List (Nat × Nat) :=
  if plcM2 e then
    if memState m (plcLoc1 e).1 == 2 then [plcLoc2 e]
    else if memState m (plcLoc2 e).1 == 2 then [plcLoc1 e] else [plcLoc1 e, plcLoc2 e]
  else [plcLoc1 e]

/-- Byte address of a line in a sled plot (R14). -/
def sledAddr (splot pln : Nat) : Nat := splot * 0x200000 + (pln % 32768) * 64

/-- The slot keys of a side's epoch. -/
def slotKeys (m : Mach) (sd ep : Nat) : List Nat := sget [] m.rsv.keys (sd * 2 + ep)

/-- Is a rekey of the side running (R227)? -/
def rekeying (m : Mach) (sd : Nat) : Bool := fget m (lvlBase sd) R.LVL_STATUS_STATE == 2

/-- Current epoch of a side. -/
def epochOf (m : Mach) (sd : Nat) : Nat := fget m (lvlBase sd) R.LVL_STATUS_EPOCH

/-- Frame, pseudo-channel, local stack and channel of an index (Table 5-6, R225). -/
def idxFrame (i : Nat) : Nat := bitsOf i 12 19
def idxPc (i : Nat) : Nat := bitsOf i 5 5
def idxStack (i : Nat) : Nat := bitsOf i 10 2
def idxBank (i : Nat) : Nat := bitsOf i 12 4
def idxChan (i : Nat) : Nat := bitsOf i 5 7

/-- Controller of index `i` on side `sd`. -/
def ctlOf (sd i : Nat) : Nat := sd * 4 + idxStack i

/-- Key of a frame of a pseudo-channel of a controller. -/
def frameKey (k pc frame : Nat) : Nat := (k * 32 + pc) * 2 ^ 19 + frame

/-- Controller state (Table 5-13). -/
def rsvState (m : Mach) (k : Nat) : Nat := fget m (rsvBase k) R.RSV_STATUS_STATE

/-- Is bank `b` of pseudo-channel `pc` barred (R132)? -/
def bankBarred (m : Mach) (k pc b : Nat) : Bool :=
  bitOf (fget m (rsvBase k + 8 * (pc / 4)) R.RSV_BANKBAR_BARS) (16 * (pc % 4) + b)

/-- What a controller keeps beside its registers. -/
def ctlGet (m : Mach) (k : Nat) : Ctl := sget ⟨true, true, 0, 0, 0, 0, 0, none⟩ m.rsv.ctls k

/-- Writes it. -/
def ctlSet (m : Mach) (k : Nat) (c : Ctl) : Mach :=
  { m with rsv := { m.rsv with ctls := sset ⟨true, true, 0, 0, 0, 0, 0, none⟩ m.rsv.ctls k c } }

/-- Is the frame being moved by the running retirement of its controller (R131, R132)? -/
def moving (m : Mach) (k pc frame : Nat) : Bool :=
  match (ctlGet m k).move with
  | none => false
  | some v => v.pc == pc && (if v.op == 3 then frame % 16 == v.frame % 16 else v.frame == frame)

/-- R121: may the slot be used? Not while the Reservoir is Draining or Off (Table 12-6). -/
def usable (m : Mach) (sd i : Nat) : Bool :=
  let k := ctlOf sd i
  let st := rsvState m k
  let rs := fget m (rgeBase (4 * sd)) R.RGE_CSTAT_RS
  (rs == 0 || rs == 3) && (st == 2 || (st == 1 && idxFrame i < fget m (rsvBase k) R.RSV_STATUS_SWEEP_PTR)) &&
  !bankBarred m k (idxPc i) (idxBank i) && !moving m k (idxPc i) (idxFrame i) &&
  sget 1 m.rsv.remap (frameKey k (idxPc i) (idxFrame i)) != 0

/-- A UCC error about the sled data of a pool line, named by its primary MEM port, with poison delivered or written (R54, R59,
Table 15-4 row 14). -/
def noteUcc (m : Mach) (pln : Nat) : Mach :=
  err m { errOf 1 0x13 0x03 (plcLoc1 (plcGet m 0 (plotOf pln))).1 with poisoned := true, addr := pln * 64, action := 14 }

/-- Slot held at index `i` of side `sd`. -/
def slotAt (m : Mach) (sd i : Nat) : Option Slot := mget m.rsv.slots (sd * 2 ^ 31 + i)

/-- Writes or invalidates a slot. -/
def setSlot (m : Mach) (sd i : Nat) (s : Option Slot) : Mach :=
  { m with rsv := { m.rsv with slots := mset m.rsv.slots (sd * 2 ^ 31 + i) s } }

/-- Index and tag of L under the keys of an epoch (R104). -/
def slotIdx (m : Mach) (sd ep l : Nat) : Nat × Nat :=
  let y := permute (slotKeys m sd ep) l
  (y % 2 ^ 31, y / 2 ^ 31)

/-- L of the line that slot `i` of side `sd` holds (R104, R233: with the keys of the occupant's epoch). -/
def slotLine (m : Mach) (sd i : Nat) (s : Slot) : Nat := unpermute (slotKeys m sd s.epoch) (s.tag * 2 ^ 31 + i)

/-- The slot that holds L under epoch `ep`, usable or not: the tag and the epoch agree (R106). -/
def slotHolds (m : Mach) (sd ep l : Nat) : Option (Nat × Slot) :=
  let (i, t) := slotIdx m sd ep l
  match slotAt m sd i with
  | some s => if s.tag == t && s.epoch == ep then some (i, s) else none
  | none => none

/-- The usable slot that holds L under epoch `ep` (R106, R121). -/
def slotHits (m : Mach) (sd ep l : Nat) : Option (Nat × Slot) := (slotHolds m sd ep l).filter fun x => usable m sd x.1

/-- Position of the rekey sweep on a channel of a side: slots finished there, which is frames times 32 plus slots. -/
def rekeyPos (m : Mach) (sd ch : Nat) : Nat := sget 0 m.rsv.rekPos (sd * 128 + ch)

/-- Is L swept: does its old frame lie below the rekey pointer (R228)? -/
def swept (m : Mach) (sd l : Nat) : Bool := idxFrame (slotIdx m sd (epochOf m sd) l).1 < fget m (lvlBase sd) R.LVL_STATUS_PTR

/-- Has the rekey sweep passed the old slot of L on its channel (R229, R230)? -/
def rekeyPassed (m : Mach) (sd l : Nat) : Bool :=
  let io := (slotIdx m sd (epochOf m sd) l).1
  idxFrame io * 32 + io % 32 < rekeyPos m sd (idxChan io)

/-- The slot that holds L, by the lookup of R106 or, while a rekey runs, the probes of R229. -/
def findSlot (m : Mach) (sd l : Nat) : Option (Nat × Slot) :=
  let e := epochOf m sd
  if rekeying m sd then
    if swept m sd l then slotHits m sd (1 - e) l
    else (slotHits m sd e l).or (slotHits m sd (1 - e) l)
  else slotHits m sd e l

/-- The slot that holds L, usable or not. -/
def slotAny (m : Mach) (sd l : Nat) : Option (Nat × Slot) :=
  (slotHolds m sd (epochOf m sd) l).or (if rekeying m sd then slotHolds m sd (1 - epochOf m sd) l else none)

/-- Indices that a lookup of L reads: one slot, or under a rekey the new slot of a swept line and both slots of any other; where the sweep has
passed the old slot the controller answers moved and the new one is probed again (R106, R229). A slot that is unusable is not read (R121). -/
def slotProbes (m : Mach) (sd l : Nat) : List Nat :=
  let e := epochOf m sd
  let io := (slotIdx m sd e l).1
  let i := (slotIdx m sd (1 - e) l).1
  let all := if !rekeying m sd then [io] else if swept m sd l then [i] else if rekeyPassed m sd l then [io, i, i] else [io, i]
  all.filter (usable m sd)

/-- Where an install of L goes: index, tag and epoch (R230). -/
def installAt (m : Mach) (sd l : Nat) : Nat × Nat × Nat :=
  let e := epochOf m sd
  let (io, t) := slotIdx m sd e l
  if rekeying m sd && rekeyPassed m sd l then
    let (i, t') := slotIdx m sd (1 - e) l
    (i, t', 1 - e)
  else (io, t, e)

end Sys2Proof.Machine
end

