-- ==== Sys2Proof/Machine/Layout.lean ====
section
/-! DEFINITION. How the stored structures are laid out in bits: the Headgate tag entry (R66), the Reservoir slot's codewords and beats (R100 to
R103), directory entries (R142, R143, R389), the areas of a stack (R99) and the twin log's bursts (R194, R195). State holds what these words
carry; the check bits are a function of it. -/

namespace Sys2Proof.Machine

/-! ## Headgate (R66) -/

/-- Bits 34:0 of a valid way's tag entry. -/
def HgLine.low (x : HgLine) : Nat := x.tag % 2 ^ 31 + 2 ^ 31 + b2n x.d * 2 ^ 32 + b2n x.img.poison * 2 ^ 33 + b2n x.pf * 2 ^ 34

/-- The 36-bit tag entry of a way: PAR makes the number of ones even. An entry that holds no line is 0. -/
def tagEntry (x : Option HgLine) : Nat := match x with
  | some x => x.low + b2n (parity 35 x.low) * 2 ^ 35
  | none => 0

/-! ## Slots (R100 to R103) -/

/-- STATE of a slot (Table 5-4). -/
def SlotSt.code : SlotSt → Nat
  | .clean => 1
  | .dirty => 2
  | .poisoned => 3

/-- What STATE means: nothing for 0; none for 4 to 7, which are handled as an uncorrectable codeword (R103). -/
def slotState (n : Nat) : Option (Option SlotSt) := match n with
  | 0 => some none
  | 1 => some (some .clean)
  | 2 => some (some .dirty)
  | 3 => some (some .poisoned)
  | _ => none

/-- The 16 metadata bits of a slot (Table 5-4). -/
def slotMeta (s : Option Slot) : Nat := match s with
  | some s => s.tag % 2 ^ 10 + s.st.code * 2 ^ 10 + s.epoch % 2 * 2 ^ 13
  | none => 0

/-- An 80-bit codeword: a word, two metadata bits and 14 check bits over them (Table 5-3, R389). The spec names the code and gives no generator:
the check bits are an open function (Config.bch). -/
def codeword (word meta2 : Nat) : Nat :=
  let low := word % 2 ^ 64 + meta2 % 4 * 2 ^ 64
  low + (Config.bch (BitVec.ofNat 66 low)).toNat * 2 ^ 66

/-- Codeword `j` of a burst that carries a line and 16 metadata bits (Table 5-3). -/
def burstCode (data : Line) (meta16 j : Nat) : Nat := codeword (data.toNat / 2 ^ (64 * j)) (meta16 / 4 ^ j)

/-- Beat `b` of 16: codeword bits 39:0 in the even beat, 79:40 in the odd one (R100). -/
def burstBeat (data : Line) (meta16 b : Nat) : Nat := burstCode data meta16 (b / 2) / 2 ^ (40 * (b % 2)) % 2 ^ 40

/-- Codeword `j` of a slot. -/
def slotCode (s : Option Slot) (j : Nat) : Nat := burstCode ((s.map fun s => s.data).getD 0) (slotMeta s) j

/-! ## Directory (R142, R143) -/

/-- The 64-bit payload of a directory entry (Table 6-4); a free way reads STATE 0. -/
def dirWord (e : Option DirEnt) : Nat := match e with
  | some e => e.tag % 2 ^ 15 + (match e.st with
      | .s => 1
      | .o => 2
      | .e => 3
      | .m => 4) * 2 ^ 15 + e.pres % 2 ^ 32 * 2 ^ 18
  | none => 0

/-- Codeword of a directory entry: its two metadata bits are 0 (R389). -/
def dirCode (e : Option DirEnt) : Nat := codeword (dirWord e) 0

/-- Pseudo-channel, local stack and position of a directory set; the other side's mirror of a set has the same place in the mirror half (Table
6-5). -/
def dirPlace (set : Nat) : Nat × Nat × Nat := (set % 32, set / 32 % 4, set / 128 % 2 ^ 19)

/-- Local stack that holds a directory set, or its mirror. -/
def dirStack (set : Nat) : Nat := (dirPlace set).2.1

/-! ## Stacks (R99) -/

/-- The areas of a stack (Table 5-2). -/
inductive Area where
  | slots | directory | twinLog | placement | spares
deriving DecidableEq, Repr

/-- MiB of an area in each of a stack's 32 pseudo-channels. -/
def Area.mib : Area → Nat
  | .slots => 1280
  | .directory => 80
  | .twinLog => 132
  | .placement => 10
  | .spares => 34

/-- Local stack that holds the placement codeword of a plot: one plot of each four in each stack (R99); which of the four is open. -/
def plcStack (plot : Nat) : Nat := (plot + Config.stackOf 0x09 (plot / 4)) % 4

/-! ## Twin log (R194, R195) -/

/-- Channel of a bucket (local stack c[6:5], pseudo-channel c[4:0]) and its first byte in that pseudo-channel's twin log area (Table 8-1). -/
def bucketPlace (b : Nat) : Nat × Nat := (b % 128, 880 * (b / 128))

/-- The 50 bits of record `j` in its bucket's header (Table 8-2). -/
def recBits (m : Mach) (t b j : Nat) : Nat := match mget m.twin.recs ((t * 20132608 + b) * 10 + j) with
  | some r => lineL r.pln % 2 ^ 41 + 2 ^ 41 + b2n r.img.poison * 2 ^ 42
  | none => 0

/-- The 512 payload bits of a bucket's header burst. -/
def headerBits (m : Mach) (t b : Nat) : Nat := forN 10 (fun j n => n + recBits m t b j * 2 ^ (50 * j)) 0

/-- OVF of a bucket, in metadata bits 3:0 of its header. -/
def headerMeta (m : Mach) (t b : Nat) : Nat := sget 0 m.twin.ovf (t * 20132608 + b) % 16

/-- Codeword `i` of a bucket's header, and of the data burst of its record `j`, whose metadata bits 3:0 hold `j`. -/
def headerCode (m : Mach) (t b i : Nat) : Nat := burstCode (BitVec.ofNat 512 (headerBits m t b)) (headerMeta m t b) i
def dataCode (r : Rec) (j i : Nat) : Nat := burstCode r.img.data j i

end Sys2Proof.Machine
end

