-- ==== Sys2Proof/Machine/Gate.lean ====
section
/-! DEFINITION. The block map (Tables 2-1, 2-2), the gateways of power domains (R347, Tables 13-2, 17-2), and what a control access to a
domain meets there (R39, Table 2-11). -/

namespace Sys2Proof.Machine

/-- A block instance: its base, type code, global instance, registers, and whether it has the header of R22 and the counters of R474. -/
structure Blk where
  base : Nat
  hdr : Bool
  type : Nat
  inst : Nat
  regs : List Reg
  counters : Bool

/-- Is the block a port's pages 0 to 2, and not the tile's registers in page 3 (R386)? -/
def Blk.isPort (b : Blk) : Bool := b.type == 3 && b.counters

/-- The block instance whose window holds offset `o` of side `sd`. -/
def sideBlkAt (sd o : Nat) : Option Blk :=
  let b := sideBase sd
  if o < 0x20000 then some ⟨b + o / 0x1000 * 0x1000, true, 0x10, sd * 32 + o / 0x1000, R.hsRegs, true⟩
  else if 0x40000 ≤ o && o < 0x44000 then
    some ⟨b + 0x40000 + (o - 0x40000) / 0x1000 * 0x1000, true, 0x11, sd * 4 + (o - 0x40000) / 0x1000, R.rsvRegs, true⟩
  else if 0x80000 ≤ o && o < 0xA0000 then some ⟨b + 0x80000, true, 0x12, sd, R.seRegs, true⟩
  else if 0xA0000 ≤ o && o < 0xA4000 then
    some ⟨b + 0xA0000 + (o - 0xA0000) / 0x1000 * 0x1000, true, 0x13, sd * 4 + (o - 0xA0000) / 0x1000, R.rgeRegs, true⟩
  else if 0xB0000 ≤ o && o < 0xB2000 then
    some ⟨b + 0xB0000 + (o - 0xB0000) / 0x100 * 0x100, false, 0x14, sd * 32 + (o - 0xB0000) / 0x100, R.fcRegs, false⟩
  else if 0xB2000 ≤ o && o < 0xB3000 then some ⟨b + 0xB2000, true, 0x14, sd, R.fcgRegs, true⟩
  else if 0xC0000 ≤ o && o < 0xD0000 then some ⟨b + 0xC0000, true, 0x15, sd, R.nocRegs, true⟩
  else if 0xD0000 ≤ o && o < 0xE0000 then some ⟨b + 0xD0000, true, 0x16, sd, R.brgRegs, true⟩
  else if 0xE0000 ≤ o && o < 0xF0000 then some ⟨b + 0xE0000, true, 0x17, sd, R.twnRegs, true⟩
  else if 0xF0000 ≤ o && o < 0x100000 then some ⟨b + 0xF0000, true, 0x18, sd, R.lvlRegs, true⟩
  else none

/-- The mailbox's queue registers, with the layout of Table 10-11 (R469). -/
def mgtQueueRegs : List Reg :=
  (R.ptRegs.filter fun r => decide (0x2000 ≤ r.off) && decide (r.off ≤ 0x2028)).map fun r => { r with role := .any, dom := .cold }

/-- The block instance whose window holds a control address, the program store apart; none for an unmapped address (R20). -/
def blkAt (a : Nat) : Option Blk :=
  if a < 0x10000 then some ⟨0, true, 1, 0, R.aonRegs, true⟩
  else if a < 0x20000 then some ⟨0x10000, true, 2, 0, R.mgtRegs ++ mgtQueueRegs, true⟩
  else if 0x100000 ≤ a && a < 0x180000 then
    let t := (a - 0x100000) / 0x20000
    let p := 8 * t + (a - 0x100000) % 0x20000 / 0x4000
    if (a - 0x100000) % 0x4000 < 0x3000 then some ⟨ptBase p, true, 3, p, R.ptRegs, true⟩
    else if p % 8 == 0 then some ⟨tlBase t, true, 3, t, R.tlRegs, false⟩
    else some ⟨ptBase p + 0x3000, false, 3, p, [], false⟩
  else if 0x1000000 ≤ a && a < 0x2000000 then sideBlkAt ((a - 0x1000000) / 0x800000) (a % 0x800000)
  else if 0x2000000 ≤ a && a < 0x2100000 then some ⟨0x2000000, true, 4, 0, R.cntRegs, true⟩
  else none

/-- Side, bank and 64-bit word of an address in a program store. -/
def progStoreAt (a : Nat) : Option (Nat × Nat × Nat) :=
  let o := a % 0x800000
  if 0x1000000 ≤ a && a < 0x2000000 && 0x400000 ≤ o && o < 0x600000 then
    some ((a - 0x1000000) / 0x800000, (o - 0x400000) / 0x100000, (o - 0x400000) % 0x100000 / 8)
  else none

/-- Is the address in a listed span (R20)? -/
def mapped (a : Nat) : Bool := (blkAt a).isSome || (progStoreAt a).isSome

/-- Leaf sites of a power domain on side `sd` (Table 13-2). -/
def sitesOf (sd d : Nat) : List Nat :=
  if d == 9 + 6 * sd then [32, 33, 34, 35]
  else if d == 10 + 6 * sd then [52]
  else if d == 11 + 6 * sd then [58]
  else if d == 6 + 6 * sd then (List.range 32) ++ (List.range 12).map (· + 40) ++ [53, 54, 55, 56, 59]
  else if 2 ≤ d && d ≤ 5 then [34 + d]
  else if d == 0 then [57]
  else []

/-- Base for the gateway register of a site. -/
def gwBase (sd site : Nat) : Nat := nocBase sd + 8 * site

/-- State of a gateway (Table 13-5). -/
def gwState (m : Mach) (sd site : Nat) : Nat := fget m (gwBase sd site) R.NOC_GW_STATE

/-- Packets held at a gateway, at most 16 in each VN; those behind wait in the network. -/
def gwHeld (m : Mach) (sd site : Nat) : Nat :=
  let mine := m.net.held.filter fun p => p.sd == sd && p.site == site
  ((List.range 4).map fun n => ((List.range 8).map fun v =>
    min 16 (mine.filter fun p => p.net == n && p.hdr % 8 == v).length).sum).sum

/-- The gateway of a site takes a state; HELD follows. -/
def gwPut (m : Mach) (sd site st : Nat) : Mach :=
  let m := fset m (gwBase sd site) R.NOC_GW_STATE st
  let m := if st == 1 then m else fset m (gwBase sd site) R.NOC_GW_ABORT 0
  fset m (gwBase sd site) R.NOC_GW_HELD (gwHeld m sd site)

/-- Every gateway of a domain takes a state: the tiles and the always-on region have gateways on both sides. -/
def gwsPut (m : Mach) (d st : Nat) : Mach :=
  let m := (sitesOf 0 d).foldl (fun m s => gwPut m 0 s st) m
  (sitesOf 1 d).foldl (fun m s => gwPut m 1 s st) m

/-- Is the packet held at a gateway of the domain? -/
def heldIn (d : Nat) (p : Packet) : Bool := (sitesOf p.sd d).contains p.site

/-- The packets held at a domain's gateways are delivered (`out`) or discarded. -/
def gwsRelease (m : Mach) (d : Nat) : Mach := { m with net := { m.net with held := m.net.held.filter fun p => !heldIn d p } }

/-- A domain starts to drain, or to power up, with its gateways (Tables 13-5, 17-2). -/
def domDrain (m : Mach) (d : Nat) : Mach := gwsPut (fset (domPut m d 3) (8 * d) R.PWR_DOM_ABORT 0) d 1
def domWake (m : Mach) (d : Nat) : Mach := gwsPut (domPut m d 1) d 3

/-- A packet with WAKE or HOLD meets the cluster's domain (Table 17-2): a drain is marked aborted, a Retained cluster wakes. -/
def clusterWake (m : Mach) (sd : Nat) : Mach :=
  let d := 10 + 6 * sd
  match domSt m d with
  | 3 => fset (fset m (8 * d) R.PWR_DOM_ABORT 1) (gwBase sd 52) R.NOC_GW_ABORT 1
  | 4 => domWake m d
  | _ => m

/-- A packet with WAKE wakes the cluster of side `sd`: its gateway counts a wake that it starts (R437, Tables 13-5, 13-11). -/
def packetWake (m : Mach) (sd : Nat) : Mach :=
  if domSt m (10 + 6 * sd) == 4 then finc (count (clusterWake m sd) (nocBase sd) 0x05) (gwBase sd 52) R.NOC_GW_WAKES else clusterWake m sd

/-- Is a side's sluice cluster On? -/
def clusterOn (m : Mach) (sd : Nat) : Bool := domSt m (10 + 6 * sd) == 2

/-- What a control access to an address meets (Table 2-11): it is served, held until the domain is On or Off, or not answered. -/
inductive Reach where
  | open_ | hold | dead
deriving DecidableEq, Repr

/-- R39. PD0 always answers; a sleeping cluster answers as an Off domain (R438). -/
def reach (m : Mach) (a : Nat) : Reach :=
  if domOf a == 0 then .open_
  else match domSt m (domOf a) with
    | 2 => .open_
    | 1 => .hold
    | 3 => .hold
    | _ => .dead

/-- The event record of an access that a domain does not answer (Table 2-11), or to an unmapped address (Table 2-6). -/
def noAnswer (m : Mach) (a : Nat) : Mach :=
  match blkAt a with
  | some b => eventRecord m 2 0 b.type b.inst a []
  | none => eventRecord m 2 0 0 0 a []

/-- A bus error is returned to the Ditchrider (Table 2-6, Table 2-11, R255). -/
def busError (a : Nat) (m : Mach) : Mach := send m (.ctl a none)

/-- A control write of value `v` at `a` on the Ditchrider's path that performs `body` at its block. -/
def gated (a v : Nat) (body : Mach → Mach) (m : Mach) : Mach :=
  match reach m a with
  | .open_ => body m
  | .hold => { m with net := { m.net with ctl := m.net.ctl ++ [⟨a, v, .write⟩] } }
  | .dead => busError a (noAnswer m a)

end Sys2Proof.Machine
end

