-- ==== Sys2Proof/Machine/Reservoir.lean ====
section
/-! DEFINITION. The Reservoir and the tailwater buffer as operations: predictor, offers, takes, clean slot writes, and sled
writes entering and leaving the tailwater buffer (R112 to R125). -/

namespace Sys2Proof.Machine

/-- Counter number of L in its controller's predictor (R115): a keyed hash of the plot number l[40:14]. -/
def predIdx (m : Mach) (sd l : Nat) : Nat := Config.predHash (sget 0 m.rsv.predKey sd) (l / 2 ^ 14) % 4096

/-- Value of L's predictor counter at controller `k`. -/
def predGet (m : Mach) (sd k l : Nat) : Nat := sget 8 m.rsv.pred (k * 4096 + predIdx m sd l)

/-- Sets it. -/
def predSet (m : Mach) (sd k l v : Nat) : Mach :=
  { m with rsv := { m.rsv with pred := sset 8 m.rsv.pred (k * 4096 + predIdx m sd l) v } }

/-- Side `sd`'s reads and writes of slots, `n` of them, on the channel of index `i` count in the levelling window (R112, R225). -/
def slotCmds (m : Mach) (sd i n : Nat) : Mach :=
  let k := sd * 128 + idxChan i
  { m with loops := { m.loops with chan := sset 0 m.loops.chan k (sget 0 m.loops.chan k + n) } }

/-- Is a take of the line on its way, so that its slot's image has moved to the Headgate (R108)? -/
def takePending (m : Mach) (sd pln : Nat) : Bool := m.rsv.takes.contains (sd, pln)

/-- R115: is a clean line not worth keeping? -/
def predDrop (m : Mach) (sd k l : Nat) (pf : Bool) : Bool :=
  let b := rsvBase k
  let on := fon m b R.RSV_CTL_PREDEN
  let thr := if on then fget m b R.RSV_STATUS_THRESH else 0
  let c := predGet m sd k l
  c < thr || (on && pf && c < thr + 4)

/-- R115: a hit on a slot adds 2 to the line's counter. -/
def predHit (m : Mach) (sd k l : Nat) : Mach := predSet m sd k l (satAdd 15 (predGet m sd k l) 2)

/-- R115: an overwritten Clean occupant of another line subtracts 1. -/
def predDown (m : Mach) (sd k l : Nat) : Mach := predSet m sd k l (predGet m sd k l - 1)

/-- Entries of side `sd` that MEM port `p` holds. -/
def twPortUsed (m : Mach) (sd p : Nat) : Nat :=
  (m.tw.filter fun e => e.sd == sd && e.locs.any fun l => l.1 == p).length

/-- Entries of side `sd` in use. -/
def twUsed (m : Mach) (sd : Nat) : Nat := (m.tw.filter fun e => e.sd == sd).length

/-- R124: is there room for a new entry of the line? -/
def twRoom (m : Mach) (sd pln : Nat) : Bool :=
  twUsed m sd < 512 &&
  (writeLocs m (plcGet m sd (plotOf pln))).all fun l =>
    twPortUsed m sd l.1 < fget m (rsvBase (4 * sd)) R.RSV_TWCTL_PORTMAX

/-- Would a write of the line merge into an entry already there? -/
def twMerges (m : Mach) (sd pln : Nat) : Bool :=
  m.tw.any fun e => e.sd == sd && e.pln == pln && (e.st == .waiting || e.st == .held)

/-- A sled write of the line needs no entry: its plot has no storage (R54), or every location is Lost (R59). -/
def twLost (m : Mach) (sd pln : Nat) : Bool :=
  let e := plcGet m sd (plotOf pln)
  !plcV e || (writeLocs m e).all fun l => memState m l.1 == 2

/-- R124: does a write of the line need an entry that it cannot have? -/
def twFull (m : Mach) (sd pln : Nat) : Bool := !twLost m sd pln && !twMerges m sd pln && !twRoom m sd pln

/-- Must a line wait where it is: behind an earlier write of the line (R169), or for an entry (R124)? -/
def twMustWait (m : Mach) (sd pln : Nat) : Bool := (m.twIn.any fun e => e.sd == sd && e.pln == pln) || twFull m sd pln

/-- Reports what a finished sled write completes, and when it was the line's last asks the home for a release check (R197). -/
def twFinish (m : Mach) (sd pln : Nat) (done : List TwDone) : Mach :=
  let last := !m.tw.any fun e => e.sd == sd && e.pln == pln
  { m with twDone := m.twDone ++ done.map (fun d => (sd, pln, d))
           home := { m.home with notes := m.home.notes ++ (if last then [.relCheck (homeSlice m pln) pln] else []) } }

/-- A writer whose data goes nowhere. -/
def TwDone.lose : TwDone → TwDone
  | .writer r _ => .lostWriter r
  | d => d

/-- A masked sled write whose data is lost leaves no Clean slot with the older bytes. -/
def slotStale (m : Mach) (sd pln : Nat) (mask : Mask) : Mach :=
  if mask == fullMask || taken m pln then m
  else match slotAny m sd (lineL pln) with
    | some (i, s) => if s.st == .clean then setSlot m sd i none else m
    | none => m

/-- The data of a sled write is lost with its sleds (Table 3-12). -/
def twDrop (m : Mach) (sd pln : Nat) (mask : Mask) (done : List TwDone) : Mach :=
  twFinish (noteUcc (slotStale m sd pln mask) pln) sd pln (done.map TwDone.lose)

/-- A sled write enters the tailwater buffer (Table 5-11); it has room, merges, or has no place to go. -/
def twTake (m : Mach) (sd pln : Nat) (img : Img) (mask : Mask) (done : List TwDone) : Mach :=
  if twLost m sd pln then twDrop m sd pln mask done
  else if twMerges m sd pln then
    let m := count m (rsvBase (4 * sd)) 0x22
    let hit (e : TwEnt) : Bool := e.sd == sd && e.pln == pln && (e.st == .waiting || e.st == .held)
    let upd (e : TwEnt) : TwEnt :=
      let poison := img.poison || (e.img.poison && mask != fullMask)
      { e with img := ⟨mergeLine e.img.data img.data mask, poison⟩, mask := e.mask ||| mask, done := e.done ++ done }
    { m with tw := mapFirst hit upd m.tw }
  else
    let locs := writeLocs m (plcGet m sd (plotOf pln))
    let held := m.tw.any fun e => e.sd == sd && e.pln == pln
    let m := count m (rsvBase (4 * sd)) 0x21
    { m with nextId := m.nextId + 1
             tw := m.tw ++ [{ sd := sd, pln := pln, img := img, mask := mask, locs := locs, left := [],
                              st := if held then .held else .waiting, done := done, age := m.nextId }] }

/-- Older dirty images of a line below the Headgate give way to a newer one that goes to the sled: a dirty offer that no victim-buffer entry
holds is dropped, and a Dirty or Poisoned slot takes the newer image, Clean (R68, R117). -/
def supersede (m : Mach) (sd pln : Nat) (img : Img) : Mach :=
  let m := { m with rsv := { m.rsv with offers := m.rsv.offers.filter fun o => !(o.pln == pln && o.dirty && o.from_ != .victim) } }
  if taken m pln then m
  else match slotAny m sd (lineL pln) with
    | none => m
    | some (i, s) =>
      if s.st == .clean then m
      else setSlot m sd i (if img.poison then none else some { s with st := .clean, data := img.data })

/-- Queues a sled write for `TAILWATER_WRITE` (R119). -/
def twQueue (m : Mach) (sd pln : Nat) (img : Img) (mask : Mask) (done : List TwDone) (o : TwOrigin) : Mach :=
  let m := if mask == fullMask then supersede m sd pln img else m
  { m with twIn := m.twIn ++ [{ sd := sd, pln := pln, img := img, mask := mask, done := done, origin := o }] }

/-- Newest tailwater entry of a line: Held, else Waiting, else Issued (R120). -/
def twNewest (m : Mach) (sd pln : Nat) : Option TwEnt :=
  let es := m.tw.filter fun e => e.sd == sd && e.pln == pln
  match es.find? (fun e => e.st == .held) with
  | some e => some e
  | none => match es.find? (fun e => e.st == .waiting) with
    | some e => some e
    | none => es.head?

/-- Asks for the event counts of a clean offer and keeps the window of R116. -/
def offerCounted (m : Mach) (k : Nat) : Mach :=
  let m := count m (rsvBase k) 0x06
  let c := ctlGet m k
  ctlSet m k { c with offers := c.offers + 1 }

/-- Result of an offer: taken or declined with the new state, or waiting for the tailwater buffer (R124). -/
inductive OfferRes where
  | done (m : Mach) (kept : Bool)
  | wait

/-- The slot state an offered line takes (R113). -/
def stateOf (dirty poison : Bool) : SlotSt := if poison then .poisoned else if dirty then .dirty else .clean

/-- R112 to R114, R230: an offer of line `pln` to its controller, as one locked read-modify-write. -/
def offerLine (m : Mach) (sd pln : Nat) (img : Img) (dirty pf : Bool) : OfferRes :=
  let l := lineL pln
  let (i, tag, ep) := installAt m sd l
  let k := ctlOf sd i
  if !usable m sd i then
    if dirty then
      if twMustWait m sd pln then .wait else .done (twTake m sd pln img fullMask []) false
    else .done (count (offerCounted m k) (rsvBase k) 0x09) false
  else if !dirty && (img.poison || predDrop m sd k l pf) then .done (count (offerCounted m k) (rsvBase k) 0x09) false
  else
    let s := slotAt m sd i
    let mine := match s with
      | some s => s.tag == tag && s.epoch == ep
      | none => false
    let occDirty := match s with
      | some s => s.st != .clean
      | none => false
    if !dirty && mine then .done (count (offerCounted (slotCmds m sd i 1) k) (rsvBase k) (if occDirty then 0x08 else 0x07)) false
    else if !dirty && occDirty then .done (count (offerCounted (slotCmds m sd i 1) k) (rsvBase k) 0x08) false
    else
      let m0 := m
      let m := if dirty then m else offerCounted m k
      let m := slotCmds m sd i 2
      let new : Slot := { tag := tag, st := stateOf dirty img.poison, epoch := ep, data := img.data }
      match s with
      | none => .done (setSlot (count m (rsvBase k) (if dirty then 0x0B else 0x0A)) sd i (some new)) true
      | some o =>
        let opln := plnOf m sd (slotLine m sd i o)
        if o.st != .clean && !mine && takePending m0 sd opln then
          .done (setSlot (count m (rsvBase k) 0x0B) sd i (some new)) true
        else if o.st != .clean && !mine then
          if twMustWait m0 sd opln then .wait
          else
            let m := twTake m sd opln ⟨o.data, o.st == .poisoned⟩ fullMask []
            .done (setSlot (count (count m (rsvBase k) 0x0C) (rsvBase k) 0x0B) sd i (some new)) true
        else
          let m := if o.st == .clean && !mine then predDown m sd k (slotLine m sd i o) else m
          .done (setSlot (count m (rsvBase k) (if dirty then 0x0B else 0x0A)) sd i (some new)) true

/-- R108: a take invalidates the slot that hit. -/
def takeLine (m : Mach) (sd pln : Nat) : Mach :=
  match slotAny m sd (lineL pln) with
  | some (i, _) => setSlot (count (slotCmds m sd i 1) (rsvBase (ctlOf sd i)) 0x0E) sd i none
  | none => m

/-- R117: the line's slot, if it holds the line, is written Clean with the written bytes, by a locked read-modify-write. A slot in which a
newer dirty image stands keeps it. A slot cannot be Clean and poisoned: where the bytes written are poisoned it becomes Invalid and no
clean install is counted (DESIGN CHOICE, entry 88). -/
def slotCleanWrite (m : Mach) (sd pln : Nat) (img : Img) (mask : Mask) : Mach :=
  match findSlot m sd (lineL pln) with
  | some (i, s) =>
    let m := slotCmds m sd i 2
    if s.st != .clean then m
    else if img.poison then setSlot m sd i none
    else setSlot (count m (rsvBase (ctlOf sd i)) 0x0D) sd i
      (some { s with st := .clean, data := mergeLine s.data img.data mask })
  | none => m

end Sys2Proof.Machine
end

