-- ==== Sys2Proof/Machine/Directory.lean ====
section
/-! DEFINITION. The directory: its sets, cache, mirror updates and victims, and the lost-port rule (R142 to R148, R160 to R165). -/

namespace Sys2Proof.Machine

/-- Sends a message in slice `h`'s stream over the bridge (R192). -/
def streamPut (m : Mach) (h : Nat) (s : Stream) : Mach :=
  { m with twin := { m.twin with stream := m.twin.stream ++ [(h, s)] } }

/-- Number of a directory entry state in Table 6-4. -/
def DirSt.code : DirSt → Nat
  | .s => 1
  | .o => 2
  | .e => 3
  | .m => 4

/-- Way that holds a line's entry in its directory set (R142), with the entry. -/
def dirFind (m : Mach) (half l : Nat) : Option (Nat × DirEnt) :=
  (List.range 8).findSome? fun w =>
    match mget m.home.dir (dirKey half (dirSet l) w) with
    | some e => if e.tag == l / 2 ^ 26 then some (w, e) else none
    | none => none

/-- DIR_LOST.MASK of slice `h`. -/
def lostMask (m : Mach) (h : Nat) : Nat := fget m (hsBase h) R.DIR_LOST_MASK

/-- Presence bits that are not of lost ports (R164). -/
def livePres (m : Mach) (h pres : Nat) : Nat := pres - (pres &&& lostMask m h)

/-- The ports of a presence vector, in order. -/
def portsOf (pres : Nat) : List Nat := (List.range 32).filter fun p => bitOf pres p

/-- Marks the directory-cache way of a set as changed (R145). -/
def dcTouch (m : Mach) (h half set : Nat) (dirty : Bool) : Mach :=
  let cs := h * 2048 + set % 2048
  match (List.range 4).find? fun w => match mget m.home.dc (cs * 4 + w) with
      | some d => d.half == half && d.tag == set / 2048
      | none => false with
  | some w =>
    let d := match mget m.home.dc (cs * 4 + w) with
      | some d => { d with dirty := d.dirty || dirty }
      | none => ⟨half, set / 2048, dirty⟩
    let b0 := if w < 2 then 1 else 0
    let p := sget 0 m.home.dcPlru cs
    let p := setBits p 0 1 b0
    let p := setBits p (1 + w / 2) 1 (1 - w % 2)
    { m with home := { m.home with dc := mput m.home.dc (cs * 4 + w) d, dcPlru := sset 0 m.home.dcPlru cs p } }
  | none => m

/-- Is the set in the slice's directory cache (R145)? -/
def dcHas (m : Mach) (h half set : Nat) : Bool :=
  (List.range 4).any fun w => match mget m.home.dc ((h * 2048 + set % 2048) * 4 + w) with
    | some d => d.half == half && d.tag == set / 2048
    | none => false

/-- Has directory set `set` of `half` an open transaction at slice `h`: a miss register or a recall slot? -/
def setOpen (m : Mach) (h half set : Nat) : Bool :=
  (m.home.mshrs.any fun r => r.h == h && dirSet (lineL r.pln) == set && halfOf m r.pln == half) ||
  (m.home.recalls.any fun r => r.h == h && dirSet (lineL r.pln) == set && halfOf m r.pln == half)

/-- The way of the cache set that a new directory set takes: an empty way, else the way of the tree walk among those without an
open transaction (R145); none while all four hold sets with open transactions. -/
def dcVictim (m : Mach) (h set : Nat) : Option Nat :=
  let cs := h * 2048 + set % 2048
  let free w := (mget m.home.dc (cs * 4 + w)).isNone
  let shut w := match mget m.home.dc (cs * 4 + w) with
    | some d => !setOpen m h d.half (d.tag * 2048 + set % 2048)
    | none => true
  match (List.range 4).find? free with
  | some w => some w
  | none =>
    let p := sget 0 m.home.dcPlru cs
    let hi := bitsOf p 0 1
    let lo := bitsOf p (1 + hi) 1
    let order := [2 * hi + lo, 2 * hi + (1 - lo), 2 * (1 - hi) + bitsOf p (2 - hi) 1, 2 * (1 - hi) + (1 - bitsOf p (2 - hi) 1)]
    order.find? shut

/-- Brings a set into the directory cache; a changed victim set is written back (R145). -/
def dcFill (m : Mach) (h half set : Nat) : Option Mach :=
  if dcHas m h half set then some m
  else
    match dcVictim m h set with
    | none => none
    | some w =>
      let key := (h * 2048 + set % 2048) * 4 + w
      let m := match mget m.home.dc key with
        | some d => if d.dirty then count m (hsBase h) 0x33 else m
        | none => m
      let m := { m with home := { m.home with dc := mput m.home.dc key ⟨half, set / 2048, false⟩ } }
      some (dcTouch (count m (hsBase h) 0x32) h half set false)

/-- Writes or frees a directory entry, marks its set changed and mirrors the change (R146, R147); `grant` names the port whose
tile holds a grant record (R148). -/
def dirPut (m : Mach) (h pln w : Nat) (e : Option DirEnt) (grant : Option (Nat × Nat)) : Mach :=
  let half := halfOf m pln
  let key := dirKey half (dirSet (lineL pln)) w
  let m := { m with home := { m.home with dir := mset m.home.dir key e } }
  let m := dcTouch m h half (dirSet (lineL pln)) true
  if twinned m pln then streamPut m h (.mirror key e grant) else m

/-- A way of the line's set that is free, or whose entry has only lost ports' bits (R160). -/
def dirFreeWay (m : Mach) (h half l : Nat) : Option Nat :=
  (List.range 8).find? fun w =>
    match mget m.home.dir (dirKey half (dirSet l) w) with
    | none => true
    | some e => livePres m h e.pres == 0

/-- Line of way `w` of a set. -/
def dirLineOf (m : Mach) (half set : Nat) (e : DirEnt) : Nat := plnOf m half (e.tag * 2 ^ 26 + set)

/-- Has the line an open miss register, snoop or recall slot at the slice? -/
def lineOpen (m : Mach) (h pln : Nat) : Bool :=
  (m.home.mshrs.any fun r => r.h == h && r.pln == pln) || (m.home.recalls.any fun r => r.h == h && r.pln == pln) ||
  (m.ports.snps.any fun s => s.h == h && s.pln == pln && !s.fenced)

/-- R160's rank of an entry. -/
def dirRank (m : Mach) (h w : Nat) (e : DirEnt) : Nat :=
  (match e.st with
    | .s => 0
    | .o => 0
    | .e => 1
    | .m => 2) * 1000 + popc 32 (livePres m h e.pres) * 10 + w

/-- The directory victim of R160. -/
def dirVictim (m : Mach) (h half l : Nat) : Option (Nat × DirEnt) :=
  (List.range 8).foldl (fun (best : Option (Nat × DirEnt)) w =>
    match mget m.home.dir (dirKey half (dirSet l) w) with
    | none => best
    | some e =>
      if lineOpen m h (dirLineOf m half (dirSet l) e) then best
      else match best with
        | none => some (w, e)
        | some (bw, be) => if dirRank m h w e < dirRank m h bw be then some (w, e) else best) none

/-- Back-invalidates outstanding at port `p` (Table 6-2). -/
def snpsOut (m : Mach) (p : Nat) : Nat := (m.ports.snps.filter fun s => s.port == p && s.sent).length

/-- Opens a back-invalidate in the tile's snoop table and sends it (R155); it waits there while 1,024 are outstanding at the port (Table 6-2). -/
def snoop (m : Mach) (h pln : Nat) (k : Snp) (p : Nat) : Mach :=
  let m := count m (hsBase h) (match k with
    | .cur => 0x39
    | .data => 0x38
    | .inv => 0x37
    | .invBlk => 0x37)
  let go := snpsOut m p < 1024
  let s : OpenSnp := { port := p, pln := pln, kind := k, h := h, fenced := false, sent := go }
  let m := { m with ports := { m.ports with snps := m.ports.snps ++ [s] } }
  if go then send m (.bisnp p k pln) else m

/-- Back-invalidates that waited are sent as others close. -/
def snpsGo (m : Mach) : Mach :=
  m.ports.snps.foldl (fun m s =>
    if s.sent || s.fenced || 1024 ≤ snpsOut m s.port then m
    else
      let upd (x : OpenSnp) : OpenSnp := { x with sent := true }
      send { m with ports := { m.ports with snps := mapFirst (fun x => x == s) upd m.ports.snps } } (.bisnp s.port s.kind s.pln)) m

/-- Sends a snoop to each port. -/
def snoopAll (m : Mach) (h pln : Nat) (k : Snp) (ps : List Nat) : Mach := ps.foldl (fun m p => snoop m h pln k p) m

end Sys2Proof.Machine
end

