-- ==== Sys2Proof/Machine/Slice.lean ====
section
/-! DEFINITION. A home slice: coherence (Tables 6-7 to 6-9), writes by region attributes (Table 4-7), miss registers, victims,
installs and the Headgate (chapters 4 and 6, R192, R211, R212, Table 12-1). -/

namespace Sys2Proof.Machine

/-- The open miss register of a line. -/
def mshrOf (m : Mach) (h pln : Nat) : Option Mshr := m.home.mshrs.find? fun r => r.h == h && r.pln == pln

/-- Writes a miss register back. -/
def mshrPut (m : Mach) (r : Mshr) : Mach :=
  { m with home := { m.home with mshrs := mapFirst (fun x => x.h == r.h && x.pln == r.pln) (fun _ => r) m.home.mshrs } }

/-- Closes a miss register. -/
def mshrDel (m : Mach) (h pln : Nat) : Mach :=
  { m with home := { m.home with mshrs := dropFirst (fun x => x.h == h && x.pln == pln) m.home.mshrs } }

/-- Miss registers of slice `h` in use. -/
def mshrUsed (m : Mach) (h : Nat) : Nat := (m.home.mshrs.filter fun r => r.h == h).length

/-- Does the slice consult its Headgate for the line? Not in Bypass (Table 8-14), nor for the taken half (R210). -/
def cached (m : Mach) (h pln : Nat) : Bool := fget m (hsBase h) R.HS_STATUS_STATE == 1 && !taken m pln

/-- Is the line cached at its home at all? Not in Spillway's Bypass, nor for the taken half; a Headgate taken out of service leaves the
Reservoir (R210, R329, Table 8-14). -/
def served (m : Mach) (h pln : Nat) : Bool :=
  let st := fget m (hsBase h) R.HS_STATUS_STATE
  !taken m pln && (st == 1 || ((st == 3 || st == 0) && 2 ≤ fget m (rgeBase (h / 32 * 4)) R.RGE_CSTAT_HG && opMode m != 3))

/-- Way of the Headgate that holds a line. -/
def hgFind (m : Mach) (h pln : Nat) : Option (Nat × HgLine) :=
  if cached m h pln then
    let l := lineL pln
    (List.range 16).findSome? fun w => match mget m.home.hg (hgKey h (hgSet l) w) with
      | some x => if x.tag == hgTag l then some (w, x) else none
      | none => none
  else none

/-- Write-buffer entry of a line (R80). -/
def wbOf (m : Mach) (h pln : Nat) : Option WbEnt := m.home.wb.find? fun e => e.h == h && e.pln == pln

/-- Victim-buffer entry of a line. -/
def vbOf (m : Mach) (h pln : Nat) : Option VbEnt := m.home.vb.find? fun e => e.h == h && e.pln == pln

/-- The image the slice holds of a line: the write-buffer entry's bytes before the array's (R80). -/
def heldImg (m : Mach) (h pln : Nat) : Option Img :=
  match hgFind m h pln with
  | none => none
  | some (_, x) => match wbOf m h pln with
    | some e => some e.img
    | none => some x.img

/-- Has the line a twin copy, staged or stored (Table 8-3)? -/
def hasTwin (m : Mach) (pln : Nat) : Bool :=
  (m.twin.staged.any fun s => s.pln == pln) || (m.twin.recs.any fun r => r.2.pln == pln)

/-- R68: is a dirty copy of the line held at the home? -/
def dirtyAtHome (m : Mach) (h pln : Nat) : Bool :=
  (match hgFind m h pln with
    | some (_, x) => x.d
    | none => false) ||
  (m.home.vb.any fun e => e.h == h && e.pln == pln && e.dirty) ||
  (m.home.mshrs.any fun r => r.h == h && r.pln == pln && r.dirty) ||
  (m.tw.any fun e => e.pln == pln && (e.st == .waiting || e.st == .held)) ||
  (m.twIn.any fun e => e.pln == pln) || (m.rsv.offers.any fun o => o.pln == pln && o.dirty) ||
  (!taken m pln && match slotAny m (h / 32) (lineL pln) with
    | some (_, s) => s.st != .clean
    | none => false)

/-- Region attributes `a` of a line as Spillway entry (R219), a cache level that is not On (R328, R329), a full budget (R203) and Single-side
policy (R212) change them. -/
def effOf (m : Mach) (h pln : Nat) (a : Attr) : Attr :=
  let sd := h / 32
  let cs := rgeBase (4 * sd)
  let wt := m.twin.entering || fon m cs R.RGE_CSTAT_WT ||
    (twinned m pln && fon m (twnBase sd) R.TWN_GAUGE_FORCED && !hasTwin m pln) ||
    (!twinned m pln && !taken m pln && fon m (twnBase sd) R.TWN_CTL_SSPOL)
  let hga := a.hga && !m.twin.entering && fget m cs R.RGE_CSTAT_HG == 0 && cached m h pln
  let rsa := a.rsa && !m.twin.entering && fget m cs R.RGE_CSTAT_RS == 0 && served m h pln
  let w := if a.wpol == 0 && wt then 1 else a.wpol
  { a with hga := hga, rsa := rsa
           wpol := if !served m h pln then 2 else if w == 0 && !hga && !rsa then 2 else w }

/-- The attributes in force for a line, and for a request. -/
def effAttr (m : Mach) (h pln : Nat) : Attr := effOf m h pln (attrOf m pln)
def effFor (m : Mach) (h : Nat) (q : Req) : Attr := effOf m h q.pln (attrFor m q)

/-- Twin search targets that are open or on their way to the twin side (R394). -/
def openTargets (m : Mach) : List Target :=
  m.ras.targets ++ m.twin.stream.filterMap fun x => match x.2 with
    | .search t => some t
    | _ => none

/-- Does a line belong to a search target: does it map to the set of the slice, or to the slot index? -/
def inTarget (m : Mach) (pln : Nat) : Target → Bool
  | .hgSet h set => homeSlice m pln == h && hgSet (lineL pln) == set
  | .slot sd i => halfOf m pln == sd && ((slotIdx m sd 0 (lineL pln)).1 == i || (slotIdx m sd 1 (lineL pln)).1 == i)

/-- Is every request to the line held for a repair (R394, R397)? -/
def repairHeld (m : Mach) (pln : Nat) : Bool :=
  ((openTargets m).any fun t => inTarget m pln t) || m.twin.stream.any fun x => match x.2 with
    | .lookup p _ => p == pln
    | _ => false

/-- Is the line's directory set listed for a lost-set sweep (R396)? -/
def setLost (m : Mach) (pln : Nat) : Bool :=
  m.home.lostSets.any fun s => s.half == halfOf m pln && s.set == dirSet (lineL pln)

/-- Is the request a demand request (R72)? -/
def Op.demand : Op → Bool
  | .host _ => true
  | .load => true
  | .store => true
  | .atomic _ _ _ _ _ => true
  | _ => false

/-- Demand requests of I/O devices are none: the requester tells (R72). -/
def Req.demand (q : Req) : Bool := q.op.demand && match q.src with
  | .io _ _ => false
  | .ring _ _ => false
  | _ => true

/-- May the request allocate its line in the Headgate (R107, R153)? -/
def Req.allocs (q : Req) : Bool := match q.op with
  | .ioRead => false
  | .flumeRead => false
  | .flumeWrite => false
  | .maint .prefetch _ => true
  | .maint _ _ => false
  | .evictPorts _ => false
  | _ => true

/-- Points the tree away from way `w` (R72). -/
def plruTouch (m : Mach) (h set w : Nat) : Mach :=
  let k := h * 3072 + set
  let p := sget 0 m.home.plru k
  let b3 := bitOf w 3
  let b2 := bitOf w 2
  let b1 := bitOf w 1
  let b0 := bitOf w 0
  let n1 := 1 + b2n b3
  let n2 := 2 * n1 + 1 + b2n b2
  let n3 := 2 * n2 + 1 + b2n b1
  let p := setBit p 0 (!b3)
  let p := setBit p n1 (!b2)
  let p := setBit p n2 (!b1)
  let p := setBit p n3 (!b0)
  { m with home := { m.home with plru := sset 0 m.home.plru k p } }

/-- Is way `w` of a set eligible for a fill (R73)? -/
def wayEligible (m : Mach) (h set w : Nat) : Bool :=
  let b := hsBase h
  bitOf (fget m b R.HS_WAYEN_EN) w && (w < 8 || (fon m b R.HS_STATUS_EAST_ON && fget m (rgeBase (h / 32 * 4)) R.RGE_CSTAT_EAST == 0)) &&
  !bitOf (fget m b R.HS_WAYEN_BUSY) w && match mget m.home.hg (hgKey h set w) with
    | none => true
    | some x =>
      let pln := plnOf m (h / 32) (hgLineOf set x.tag)
      !lineOpen m h pln && (wbOf m h pln).isNone

/-- The victim way of R73: the lowest empty eligible way, else the way of the tree walk. -/
def victimWay (m : Mach) (h set : Nat) : Option Nat :=
  let el := (List.range 16).filter (wayEligible m h set)
  match el with
  | [] => none
  | _ =>
    match el.find? fun w => (mget m.home.hg (hgKey h set w)).isNone with
    | some w => some w
    | none =>
      let p := sget 0 m.home.plru (h * 3072 + set)
      let go (pre level n : Nat) : Nat :=
        let d := bitsOf p n 1
        let ok := el.any fun w => w / 2 ^ level == 2 * pre + d
        if ok then d else 1 - d
      let d3 := go 0 3 0
      let n1 := 1 + d3
      let d2 := go d3 2 n1
      let n2 := 2 * n1 + 1 + d2
      let d1 := go (2 * d3 + d2) 1 n2
      let n3 := 2 * n2 + 1 + d1
      let d0 := go (4 * d3 + 2 * d2 + d1) 0 n3
      some (8 * d3 + 4 * d2 + 2 * d1 + d0)

/-- Is a line that leaves the Headgate level offered to the Reservoir: RSA 1, and not while Spillway is being entered (R91, R219)? -/
def goesDown (m : Mach) (h pln : Nat) : Bool := (attrOf m pln).rsa && !m.twin.entering && served m h pln

/-- Is the Headgate of the slice's side being drained (Table 12-6)? -/
def hgDrains (m : Mach) (h : Nat) : Bool := fget m (rgeBase (h / 32 * 4)) R.RGE_CSTAT_HG == 1

/-- Hands a line that leaves the Headgate level onward: to the Reservoir when its region has RSA 1, else a dirty line to the
tailwater buffer (R91). A dirty line of a Headgate that is being drained goes to the tailwater buffer (Table 12-6). -/
def handOn (m : Mach) (h pln : Nat) (img : Img) (dirty pf : Bool) (o : OfferFrom) : Mach :=
  if goesDown m h pln && !(dirty && hgDrains m h) then
    { m with rsv := { m.rsv with offers := m.rsv.offers ++ [⟨h / 32, pln, img, dirty, pf, o⟩] } }
  else if dirty then twQueue m (h / 32) pln img fullMask [] (if o == .victim then .victim h else .other)
  else m

/-- A valid way becomes a victim: it is read into the victim buffer and offered onward (R90, R91). -/
def evict (m : Mach) (h set w : Nat) : Mach :=
  match mget m.home.hg (hgKey h set w) with
  | none => m
  | some x =>
    let pln := plnOf m (h / 32) (hgLineOf set x.tag)
    let m := { m with home := { m.home with hg := mdel m.home.hg (hgKey h set w) } }
    let m := if x.pf then count m (hsBase h) 0x11 else m
    if x.d || goesDown m h pln then
      let m := count m (hsBase h) (if x.d then 0x13 else 0x12)
      let m := { m with home := { m.home with vb := m.home.vb ++ [⟨h, pln, x.img, x.d, x.pf⟩] } }
      handOn m h pln x.img x.d x.pf .victim
    else m

/-- Victim-buffer entries of slice `h`. -/
def vbUsed (m : Mach) (h : Nat) : Nat := (m.home.vb.filter fun e => e.h == h).length

/-- R73, R74, R90: can a fill of the line be installed now? -/
def installWay (m : Mach) (h pln : Nat) : Option Nat :=
  match victimWay m h (hgSet (lineL pln)) with
  | none => none
  | some w =>
    match mget m.home.hg (hgKey h (hgSet (lineL pln)) w) with
    | none => some w
    | some _ => if vbUsed m h < 16 then some w else none

/-- Installs a line in way `w` (R73, R89, R108). -/
def install (m : Mach) (r : Mshr) (img : Img) (w : Nat) : Mach :=
  let l := lineL r.pln
  let m := evict m r.h (hgSet l) w
  let x : HgLine := { tag := hgTag l, d := r.dirty || r.take, pf := r.pf, img := img }
  let m := { m with home := { m.home with hg := mput m.home.hg (hgKey r.h (hgSet l) w) x } }
  let m := if r.demand then plruTouch m r.h (hgSet l) w else m
  if r.take then { m with rsv := { m.rsv with takes := m.rsv.takes ++ [(r.h / 32, r.pln)] } } else m

/-- Sends a completion to a request's requester. -/
def fin (m : Mach) (q : Req) (img : Option Img) (grant : Option DirSt) (result : Nat) : Mach :=
  complete m { src := q.src, pln := q.pln, img := img, grant := grant, result := result, how := .ok, rights := q.rights }

/-- Counts a dirty line without a twin in the survivor's gauge (R212). -/
def gaugeUntwinned (m : Mach) (sd pln : Nat) : Mach :=
  if m.twin.untwinned.any fun x => x.2 == pln then m
  else
    let m := { m with twin := { m.twin with untwinned := m.twin.untwinned ++ [(sd, pln)] } }
    fset (finc m (twnBase sd) R.TWN_GAUGE_LINES) (twnBase sd) R.TWN_GAUGE_UNTWINNED 1

/-- Lines that a side's budget holds (R200). -/
def budget : Nat := 201326080

/-- Twin writes of a home side in flight that may create a new copy (R200). -/
def inFlight (m : Mach) (sd : Nat) : Nat :=
  (m.twin.stream.filter fun x => x.1 / 32 == sd && match x.2 with
    | .twinWrite pln _ _ _ => !hasTwin m pln
    | _ => false).length + (m.twin.acks.filter fun a => a.h / 32 == sd && a.isNew).length

/-- Sets FORCED when the count, with the twin writes in flight, reaches the budget, and clears it below the high mark (R200, R203). -/
def forcedCheck (m : Mach) (sd : Nat) : Mach :=
  let b := twnBase sd
  let n := fget m b R.TWN_GAUGE_LINES
  if bothUp m then
    if budget ≤ n + inFlight m sd then fset m b R.TWN_GAUGE_FORCED 1
    else if n < fget m b R.TWN_HIMARK_MARK * 16384 then fset m b R.TWN_GAUGE_FORCED 0 else m
  else fset m b R.TWN_GAUGE_FORCED 0

/-- Sends a twin write (R192), or in Single-side mode counts the line and completes the write at once (R212). -/
def twinWrite (m : Mach) (h pln : Nat) (img : Img) (pending : Bool) (ack : AckFor) : Mach :=
  if twinned m pln then forcedCheck (streamPut m h (.twinWrite pln img pending ack)) (h / 32)
  else
    let m := gaugeUntwinned m (h / 32) pln
    match ack with
    | .write q res => fin m q none none res
    | _ => m

/-- Request `q` starts a next-line prefetch (R87). -/
def pfTrigger (m : Mach) (h : Nat) (q : Req) : Mach :=
  let a := effFor m h q
  let pln := q.pln
  let l := lineL pln
  if fon m (hsBase h) R.HS_CTL_PFEN && a.pf && a.hga && l % 16384 != 16383 then
    let t := plnOf m (halfOf m pln) (l + 1)
    let m := count m (hsBase h) 0x0E
    { m with home := { m.home with pfQ := m.home.pfQ ++ [(homeSlice m t, t)] } }
  else m

/-- Host reads and sluice loads may be demand triggers (R87). -/
def Op.triggers : Op → Bool
  | .host .rdCur => true
  | .host .rdShared => true
  | .host .rdOwn => true
  | .load => true
  | _ => false

/-- A hit of request `q` on a Headgate way: node bits, and the first demand hit of a prefetched line (R72, R87). -/
def hgHit (m : Mach) (h : Nat) (q : Req) : Mach :=
  match hgFind m h q.pln with
  | none => m
  | some (w, x) =>
    if q.demand then
      let set := hgSet (lineL q.pln)
      let m := plruTouch m h set w
      if x.pf then
        let m := { m with home := { m.home with hg := mput m.home.hg (hgKey h set w) { x with pf := false } } }
        let m := count m (hsBase h) 0x10
        if q.op.triggers then pfTrigger m h q else m
      else m
    else m

/-- Write-buffer entries of slice `h`. -/
def wbUsed (m : Mach) (h : Nat) : Nat := (m.home.wb.filter fun e => e.h == h).length

/-- May a write of a held line enter the write buffer (R82, R84)? -/
def wbRoom (m : Mach) (h pln : Nat) : Bool := (wbOf m h pln).isSome || wbUsed m h < 64

/-- Orders a whole-line image of a held line in the write buffer and sets its way's D bit (R80 to R82, Table 4-7). -/
def wbWrite (m : Mach) (h pln : Nat) (img : Img) (d : Bool) : Mach :=
  match hgFind m h pln with
  | none => m
  | some (w, x) =>
    let hg := mput m.home.hg (hgKey h (hgSet (lineL pln)) w) { x with d := d }
    match wbOf m h pln with
    | some _ =>
      let m := count m (hsBase h) 0x0C
      { m with home := { m.home with hg := hg, wb := mapFirst (fun e => e.h == h && e.pln == pln) (fun e => { e with img := img }) m.home.wb } }
    | none => { m with home := { m.home with hg := hg, wb := m.home.wb ++ [⟨h, pln, img⟩] } }

/-- A line image after the write of `q` (R81, Table 4-8): a full-line write replaces the poison, any other keeps it. -/
def writeImg (base : Img) (q : Req) : Img :=
  ⟨mergeLine base.data q.data q.mask, q.poison || (base.poison && q.mask != fullMask)⟩

/-- Result of a step of a miss register's head request. -/
inductive PumpRes where
  /-- The head request is done and leaves the register. -/
  | next (m : Mach)
  /-- The line must be fetched first. -/
  | lookup (m : Mach)
  /-- The register waits: its phase, or its place, has been set. -/
  | stop (m : Mach)

/-- The register after its head request has left it. -/
def Mshr.dropHead (r : Mshr) : Mshr :=
  { r with reqs := r.reqs.drop 1, coh := false, lostDone := false, seen := .no, own := false }

/-- The register without the request of `q`'s requester, when that is the first of its requests. -/
def Mshr.dropOf (r : Mshr) (q : Req) : Mshr := if r.reqs.head?.any fun x => x.src == q.src then r.dropHead else r

/-- What a write that `placeWrite` places is. -/
inductive WriteFor where
  /-- The bytes of a request. -/
  | request
  /-- A range zero or a flume write, for which HGA is 0 (Table 12-1, R324). -/
  | uncached
  /-- The data of a snoop, whose cause, if it is still open, is `cause` (R152, R153, R156). -/
  | snooped (cause : Option Op)
deriving DecidableEq, Repr

/-- Is the request a read of Table 6-8, which completes only once the snoop's data is twinned (R152)? -/
def Op.readsHome : Op → Bool
  | .ioRead => true
  | .load => true
  | .flumeRead => true
  | .maint .clean _ => true
  | _ => false

/-- Does a write become visible only once it is held outside its side: a pool access of an engine on the home's side (R182), or the
data of a snoop that a non-caching read waits for (R152)? -/
def WriteFor.waits (w : WriteFor) (sd : Nat) (q : Req) : Bool := match w, q.src with
  | .snooped c, _ => c.any Op.readsHome
  | _, .store e => e / 16 == sd
  | _, .amo e => e / 16 == sd
  | _, _ => false

/-- Is the write a demand request (R72)? Neither range and flume work nor a snoop's data is. -/
def WriteFor.demand (w : WriteFor) (q : Req) : Bool := match w with
  | .request => q.demand
  | _ => false

/-- Does the write leave its line outside the Headgate: range and flume work, or what a host returned to an I/O read (R153)? -/
def WriteFor.outside (w : WriteFor) : Bool := match w with
  | .uncached => true
  | .snooped c => c == some .ioRead
  | .request => false

/-- Is the newest dirty image of the line in a Reservoir slot, or on its way there (R68)? -/
def dirtyBelow (m : Mach) (sd pln : Nat) : Bool :=
  (m.rsv.offers.any fun o => o.pln == pln && o.dirty) ||
  (!taken m pln && match slotAny m sd (lineL pln) with
    | some (_, s) => s.st != .clean
    | none => false)

/-- Is the line's dirty image in a slot that no lookup may read now, since its frame is being moved or its Reservoir drained? -/
def slotShut (m : Mach) (sd pln : Nat) : Bool :=
  !taken m pln && match slotAny m sd (lineL pln) with
    | some (i, s) => s.st != .clean && !usable m sd i
    | none => false

/-- Is the write an unassigned access: of a plot without storage (R51, R54)? What a snoop brings home of such a plot is no access. -/
def WriteFor.unassigned (w : WriteFor) (m : Mach) (sd pln : Nat) : Bool := match w with
  | .snooped _ => false
  | _ => !plcV (plcGet m sd (plotOf pln))

/-- R54, R61, R85: a write whose bytes are known, placed by Table 4-7, Table 8-9 or R507. `res` is the result of an atomic. -/
def placeWrite (m : Mach) (r : Mshr) (q : Req) (res : Nat) (w : WriteFor) : PumpRes :=
  let h := r.h
  let sd := h / 32
  let a0 := effFor m h q
  let a := if w == .uncached then { a0 with hga := false } else a0
  let a := if a.wpol == 0 && !a.hga && !a.rsa then { a with wpol := 2 } else a
  let held := heldImg m h q.pln
  let full := q.mask == fullMask
  let base : Option Img := match r.buf with
    | some b => some b
    | none => match held with
      | some b => some b
      | none => if full then some ⟨q.data, q.poison⟩ else none
  if w.unassigned m sd q.pln then
    .next (complete m { src := q.src, pln := q.pln, img := none, grant := none, result := 0, how := .refused, rights := q.rights })
  else
  let waits := w.waits sd q
  let asks := w.demand q
  let inHg := held.isSome && r.buf.isNone
  let m0 := m
  let m := count m (hsBase h) (if held.isSome then 0x04 else 0x05)
  let m := if full || base.isNone then m else count m (hsBase h) 0x0B
  let m := if inHg && asks then hgHit m h q else m
  let r := { r with demand := r.demand || asks, pf := r.pf && !asks }
  match base with
  | none =>
    if a.wpol == 2 && !taken m q.pln && !dirtyBelow m sd q.pln then
      .stop (twQueue (mshrPut m { r.dropOf q with phase := .sledWrite }) sd q.pln ⟨q.data, q.poison⟩ q.mask [.writer q res, .mshr h] .other)
    else .lookup m0
  | some b =>
    let img := writeImg b q
    if a.wpol == 0 then
      let alloc := r.alloc || (a.hga && !w.outside)
      if waits && twinned m q.pln then
        .stop (twinWrite (mshrPut m { r with phase := .twin, buf := some img, dirty := true, alloc := alloc }) h q.pln img false
          (.formed q res))
      else if inHg then
        if wbRoom m h q.pln then .next (twinWrite (wbWrite m h q.pln img true) h q.pln img false (.write q res)) else .stop m0
      else
        let m := if full && r.buf.isNone && a.hga then count m (hsBase h) 0x0D else m
        .next (twinWrite (mshrPut m { r with buf := some img, dirty := true, alloc := alloc }) h q.pln img false (.write q res))
    else if inHg && !waits then
      if wbRoom m h q.pln then
        .next (twQueue (wbWrite m h q.pln img true) sd q.pln img fullMask [.writer q res, .cleanWay h img] .other)
      else .stop m0
    else if a.wpol == 1 && a.hga && !waits && held.isNone then
      .next (twQueue (mshrPut m { r with buf := some img, dirty := true, alloc := r.alloc || !w.outside })
        sd q.pln img fullMask [.writer q res, .cleanWay h img] .other)
    else
      let done := [TwDone.writer q res, .mshr h] ++ (if taken m q.pln then [.drain sd] else [])
      let whole := a.wpol == 1 || r.buf.isSome || held.isSome || taken m q.pln
      .stop (twQueue (mshrPut m { r.dropOf q with phase := .sledWrite, buf := if whole then some img else none, dirty := false, take := false
                                                  alloc := a.wpol == 1 && (r.alloc || a.hga) && !w.outside, fromSled := a.wpol == 1 })
        sd q.pln (if whole then img else ⟨q.data, q.poison⟩) (if whole then fullMask else q.mask) done .other)

/-- Result and new value of an atomic on `size` bytes (R154, R289, R368). -/
def amoDo (a : Amo) (size old opnd cmp : Nat) : Nat :=
  let w := 2 ^ (8 * size)
  let o := opnd % w
  match a with
  | .add => (old + o) % w
  | .and => old &&& o
  | .or => old ||| o
  | .xor => old ^^^ o
  | .swap => o
  | .cas => if old == cmp % w then o else old
  | .minu => min old o
  | .maxu => max old o

/-- Twin copies of side `sd`'s log, staged entries. -/
def stagedOn (m : Mach) (sd : Nat) : Nat := (m.twin.staged.filter fun s => s.sd == sd).length

/-- Records of side `sd`'s bucket store. -/
def recsOn (m : Mach) (sd : Nat) : Nat := (m.twin.recs.filter fun r => r.1 / (20132608 * 10) == sd).length

/-- The records of a line on side `t` are cleared; one in a secondary bucket lowers OVF of its primary, unless that stands at 15 (Table 8-2,
Table 8-3). -/
def recsFree (m : Mach) (t pln : Nat) : Mach :=
  let mine (c : Nat × Rec) : Bool := c.1 / (20132608 * 10) == t && c.2.pln == pln
  let dec (m : Mach) (c : Nat × Rec) : Mach :=
    let k := t * 20132608 + (Config.bucketHash (sget 0 m.twin.bucketKey t) 0 (lineL pln) % 2 ^ 64) * 20132608 / 2 ^ 64
    let o := sget 0 m.twin.ovf k
    if !c.2.secondary || o == 15 then m else { m with twin := { m.twin with ovf := sset 0 m.twin.ovf k (o - 1) } }
  let m := (m.twin.recs.filter mine).foldl dec m
  { m with twin := { m.twin with recs := m.twin.recs.filter fun c => !mine c } }

/-- Frees the twin copy of a line that side `t` holds, staged or stored (Table 8-3). -/
def copyFree (m : Mach) (t pln : Nat) : Mach :=
  recsFree { m with twin := { m.twin with staged := m.twin.staged.filter fun s => !(s.sd == t && s.pln == pln) } } t pln

/-- Frees the twin copy of a taken-half line held on side `sd`; the drain that frees the last one ends, and the log is Off (R211). -/
def drainFree (m : Mach) (sd pln : Nat) : Mach :=
  let m := copyFree m sd pln
  if fget m (twnBase sd) R.TWN_LOG_STATE == 2 && stagedOn m sd + recsOn m sd == 0 then fset m (twnBase sd) R.TWN_LOG_STATE 0 else m

/-- Removes every copy of a line from the home's caches: Headgate way, write-buffer entry and slot (Table 12-1). -/
def dropCopies (m : Mach) (h pln : Nat) : Mach :=
  let m := match hgFind m h pln with
    | some (w, _) => { m with home := { m.home with hg := mdel m.home.hg (hgKey h (hgSet (lineL pln)) w)
                                                    wb := dropFirst (fun e => e.h == h && e.pln == pln) m.home.wb } }
    | none => m
  if taken m pln then m
  else match findSlot m (h / 32) (lineL pln) with
    | some (i, _) => setSlot (slotCmds m (h / 32) i 2) (h / 32) i none
    | none => (slotProbes m (h / 32) (lineL pln)).foldl (fun m i => slotCmds m (h / 32) i 1) m

/-- The newest dirty image that a range clean or flush writes to the sled (Table 12-1), with whether it is a slot's. -/
def dirtyImg (m : Mach) (r : Mshr) : Option Img :=
  let h := r.h
  match r.buf, r.dirty with
  | some b, true => some b
  | _, _ =>
    match hgFind m h r.pln with
    | some (_, x) => if x.d then heldImg m h r.pln else none
    | none =>
      if taken m r.pln then
        match m.twin.staged.find? fun s => s.pln == r.pln with
        | some s => some s.img
        | none => (m.twin.recs.find? fun e => e.2.pln == r.pln).map fun e => e.2.img
      else match findSlot m (h / 32) (lineL r.pln) with
        | some (_, s) => if s.st != .clean then some ⟨s.data, s.st == .poisoned⟩ else none
        | none => none

/-- A range engine's sled write counts there (Table 12-13). -/
def rangeWrote (m : Mach) (q : Req) : Mach := match q.src with
  | .range n _ => count m (rgeBase n) 4
  | _ => m

/-- A range operation on one line, after its snoops (Table 12-1). A clean, flush or discard follows what is on its way to the Reservoir or
to the tailwater buffer. -/
def maintDo (m : Mach) (r : Mshr) (q : Req) (k : Maint) : PumpRes :=
  let h := r.h
  let sd := h / 32
  let drain : List TwDone := if taken m q.pln then [.drain sd] else []
  let below : Bool := slotShut m sd q.pln || (m.twIn.any fun e => e.pln == q.pln) || m.rsv.offers.any fun o => o.pln == q.pln && o.dirty
  let after (m : Mach) : Mach := match twNewest m sd q.pln with
    | some e => { m with tw := mapFirst (fun x => x == e) (fun e => { e with done := e.done ++ [.writer q 0] }) m.tw }
    | none => fin m q none none 0
  if below && k != .zero && k != .prefetch then .stop m
  else match k with
  | .zero => placeWrite m r { q with data := 0, mask := fullMask, poison := false } 0 .uncached
  | .prefetch =>
    let a := effFor m h q
    let owned := !a.priv && match dirFind m (halfOf m q.pln) (lineL q.pln) with
      | some (_, e) => e.st == .e || e.st == .m
      | none => false
    match r.buf, heldImg m h q.pln with
    | none, none => if owned || (!a.hga && !a.rsa) then .next (fin m q none none 0) else .lookup m
    | _, _ => .next (fin m q none none 0)
  | .discard =>
    let m := dropCopies m h q.pln
    let m := if taken m q.pln then drainFree m sd q.pln else m
    let m := mshrPut m { r with buf := none, dirty := false, take := false, late := [] }
    let m := if m.tw.any (fun e => e.pln == q.pln) || !twinned m q.pln then m else streamPut m h (.release q.pln)
    .next (fin m q none none 0)
  | .clean =>
    match dirtyImg m r with
    | some img => .next (twQueue (rangeWrote m q) sd q.pln img fullMask ([.writer q 0, .cleanWay h img] ++ drain) .other)
    | none => .next (after m)
  | .flush =>
    match dirtyImg m r with
    | some img =>
      let m := dropCopies (rangeWrote m q) h q.pln
      .stop (twQueue (mshrPut m { r.dropHead with phase := .sledWrite, buf := none, dirty := false, take := false })
        sd q.pln img fullMask ([.writer q 0, .mshr h] ++ drain) .other)
    | none =>
      let m := dropCopies m h q.pln
      .next (after (mshrPut m { r with buf := none, take := false }))

/-- An I/O write is prepared: its image stands in the register, and the tile hears of it (R176). -/
def prepare (m : Mach) (r : Mshr) (q : Req) : Mach :=
  let note := match q.src with
    | .io p id => [(p, id)]
    | _ => []
  mshrPut { m with ports := { m.ports with prepQ := m.ports.prepQ ++ note } } { r with phase := .prepared }

/-- The head request of a miss register whose coherence is settled (an engine's atomic leaves a poisoned line unchanged, R289; the result carries the line's poison in bit 64): data, write, atomic or range operation. -/
def perform (m : Mach) (r : Mshr) (q : Req) : PumpRes :=
  let h := r.h
  let img : Option Img := match r.buf with
    | some b => some b
    | none => match heldImg m h q.pln with
      | some b => some b
      | none => match q.op, vbOf m h q.pln with
        | .host _, some e => some e.img
        | .ioRead, some e => some e.img
        | .load, some e => some e.img
        | .flumeRead, some e => some e.img
        | _, _ => none
  let hit (m : Mach) : Mach := if r.buf.isNone then hgHit m h q else m
  let read (g : Option DirSt) : PumpRes := match img with
    | some b => .next (fin (if r.buf.isNone then count (hit m) (hsBase h) 0x02 else m) q (some b) g 0)
    | none => .lookup m
  match q.op with
  | .host .rdCur => read none
  | .host .rdShared => read (some .s)
  | .host .rdOwn => read (some .e)
  | .host .own => .next (fin (hit m) q none (some .e) 0)
  | .host .share => .next (fin (hit m) q none (some .s) 0)
  | .host .release => .next (fin (hit m) q none none 0)
  | .host .touch => .next (fin (hit m) q none none 0)
  | .host _ => placeWrite m r q 0 .request
  | .ioRead => read none
  | .load => read none
  | .flumeRead => read none
  | .store => placeWrite m r q 0 .request
  | .flumeWrite => placeWrite m r q 0 .uncached
  | .ioWrite =>
    let a := effFor m h q
    let noFill := q.mask == fullMask || (a.wpol == 2 && !taken m q.pln && !dirtyBelow m (h / 32) q.pln)
    if img.isNone && !noFill then .lookup m
    else
      let form := if img.isNone && q.mask != fullMask then none else some (writeImg (img.getD ⟨q.data, q.poison⟩) q)
      match form with
      | some i =>
        if a.wpol == 0 && twinned m q.pln then
          .stop (twinWrite (mshrPut m { r with phase := .twin, buf := some i, dirty := true, alloc := r.alloc || a.hga })
            h q.pln i true (.formed q 0))
        else .stop (prepare m { r with buf := some i } q)
      | none => .stop (prepare m r q)
  | .atomic a off size o c =>
    match img with
    | none => .lookup m
    | some b =>
      let old := bytesAt b.data off size
      let new := amoDo a size old o c
      let engine := match q.src with
        | .amo _ => true
        | _ => false
      if engine && b.poison then .next (fin m q none none (old + 2 ^ 64)) else
      placeWrite m r { q with data := lineAt off size new, mask := maskAt off size } (old + b2n b.poison * 2 ^ 64) .request
  | .maint k _ => maintDo m r q k
  | .evictPorts _ => .next (fin m q none none 0)
  | .prefetch => match img with
    | none => .lookup m
    | some _ => .next m

end Sys2Proof.Machine
end

