-- ==== Sys2Proof/Machine/Order.lean ====
section
/-! DEFINITION. How a home slice orders requests to a line: the stable states, snoops and transient states of Tables 6-7 to 6-9, the
lost-port rule R164, the processing of merged requests (R76 to R78) and what a new request meets (R71, R75, R79). -/

namespace Sys2Proof.Machine

/-- Outcome of the coherence step of a request. -/
inductive Coh where
  /-- Rights and snoops are settled; `g`: the rights that the change adds for the host that asked (R148). -/
  | ok (m : Mach) (g : Option DirSt := none)
  /-- Snoops are needed first. -/
  | snoop (m : Mach) (t : Trans) (k : Snp) (ps : List Nat)
  /-- The directory set must be read from the store (R145). -/
  | fill (m : Mach)
  /-- The register waits for the way of a recall that it has started (R160). -/
  | recall (m : Mach)
  /-- The register joins the directory-wait queue (R161). -/
  | wait (m : Mach)

/-- S, or O while a dirty copy is at the home (R139). -/
def sharedSt (m : Mach) (h pln : Nat) (dirty : Bool) : DirSt :=
  if dirty || (dirtyAtHome m h pln && opMode m != 3) then .o else .s

/-- The home's newest image of a line, wherever the home holds it. -/
def homeImg (m : Mach) (h pln : Nat) : Option Img :=
  let sd := h / 32
  let buf := (mshrOf m h pln).bind fun r => r.buf
  let off := (m.rsv.offers.reverse.find? fun o : Offer => o.pln == pln).map fun o : Offer => o.img
  let inq := (m.twIn.reverse.find? fun e : TwIn => e.pln == pln && e.mask == fullMask).map fun e : TwIn => e.img
  let tw := (twNewest m sd pln).bind fun e => if e.mask == fullMask then some e.img else none
  let slot := if taken m pln then none else (slotAny m sd (lineL pln)).map fun x => (⟨x.2.data, x.2.st == .poisoned⟩ : Img)
  [buf, heldImg m h pln, (vbOf m h pln).map fun e => e.img, off, inq, tw, slot].findSome? id

/-- Marks the home copy of a line poisoned, in the place R68 gives, as a write under Table 4-7 (R164). Bits that the home does not hold are open
(Config.freeLine). -/
def poisonHome (m : Mach) (h pln : Nat) : Mach :=
  let img : Img := ⟨((homeImg m h pln).map fun b => b.data).getD (Config.freeLine m.free), true⟩
  let m := count (draw m) (hsBase h) 0x3E
  let a := effAttr m h pln
  let twin (m : Mach) : Mach := if a.wpol == 0 then twinWrite m h pln img false .none else m
  let mark (q : Req) : Req := { q with poison := true }
  let m := match mshrOf m h pln with
    | some r => mshrPut m { r with late := r.late.map mark, buf := r.buf.map fun _ => img, dirty := r.dirty || (r.buf.isSome && a.wpol == 0) }
    | none => m
  let inBuf := (mshrOf m h pln).any fun r => r.buf.isSome
  match hgFind m h pln, vbOf m h pln with
  | some _, _ =>
    let m := wbWrite m h pln img true
    if a.wpol == 0 then twin m else twQueue m (h / 32) pln img fullMask [.cleanWay h img] .other
  | none, some _ =>
    let mark (e : VbEnt) : VbEnt := { e with img := img, dirty := true }
    let off (o : Offer) : Offer := if o.pln == pln then { o with img := img, dirty := true } else o
    let tin (e : TwIn) : TwIn := if e.pln == pln then { e with img := img } else e
    twin { m with home := { m.home with vb := mapFirst (fun e => e.h == h && e.pln == pln) mark m.home.vb }
                  rsv := { m.rsv with offers := m.rsv.offers.map off }, twIn := m.twIn.map tin }
  | none, none =>
    if inBuf && a.wpol == 0 then twin m
    else if a.wpol == 0 && a.rsa then
      { twin m with rsv := { (twin m).rsv with offers := (twin m).rsv.offers ++ [⟨h / 32, pln, img, true, false, .formed⟩] } }
    else twQueue (twin m) (h / 32) pln img fullMask [] .other

/-- R164 applied to the entry of a line at lookup: bits of lost ports go, and a lost owner's line is poisoned. -/
def applyLost (m : Mach) (h pln : Nat) : Mach :=
  match dirFind m (halfOf m pln) (lineL pln) with
  | none => m
  | some (w, e) =>
    let live := livePres m h e.pres
    if live == e.pres then m
    else
      let m := if e.st == .m || (e.st == .e && fon m (hsBase h) R.DIR_CTL_LOSS_E) then poisonHome m h pln else m
      dirPut m h pln w (if live == 0 then none else some { e with pres := live }) none

/-- What a grant that needs an entry finds: a way, a recall that it has started, or nothing yet. -/
inductive WayRes where
  | way (m : Mach) (w : Nat)
  | recall (m : Mach)
  | queue

/-- Is the directory-wait queue of slice `h` full (R161)? -/
def dwqFull (m : Mach) (h : Nat) : Bool := 64 ≤ (m.home.dwq.filter fun x => x.1 == h).length

/-- Finds or makes a way for a grant: the line's own entry, a free way, or a recall of a victim (R160, R161). A free way goes to the oldest
waiting request of the set first. -/
def grantWay (m : Mach) (h pln : Nat) : WayRes :=
  let half := halfOf m pln
  let l := lineL pln
  match dirFind m half l with
  | some (w, _) => .way m w
  | none =>
    let waits := m.home.dwq.any fun d => d.1 == h && dirSet (lineL d.2) == dirSet l && halfOf m d.2 == half && d.2 != pln
    match dirFreeWay m h half l with
    | some w =>
      if waits then .queue
      else
        let m := match mget m.home.dir (dirKey half (dirSet l) w) with
          | some e => applyLost m h (dirLineOf m half (dirSet l) e)
          | none => m
        .way (count m (hsBase h) 0x34) w
    | none =>
      if 16 ≤ (m.home.recalls.filter fun r => r.h == h).length then .queue
      else match dirVictim m h half l with
        | none => .queue
        | some (w, e) =>
          let v := dirLineOf m half (dirSet l) e
          let ps := portsOf (livePres m h e.pres)
          let m := count m (hsBase h) 0x35
          let m := { m with home := { m.home with recalls := m.home.recalls ++ [⟨h, dirKey half (dirSet l) w, v, ps, [], pln⟩] } }
          .recall (snoopAll m h v .inv ps)

/-- Writes the entry of a grant before the grant leaves the slice (R146). -/
def grantEnt (m : Mach) (h pln : Nat) (st : DirSt) (pres : Nat) (p : Nat) : Coh :=
  match grantWay m h pln with
  | .way m w =>
    let e : DirEnt := ⟨lineL pln / 2 ^ 26, st, pres⟩
    if mget m.home.dir (dirKey (halfOf m pln) (dirSet (lineL pln)) w) == some e then .ok m
    else .ok (dirPut m h pln w (some e) (some (p, pln))) (some st)
  | .recall m => .recall m
  | .queue => .wait m

/-- Frees the entry of a line. -/
def freeEnt (m : Mach) (h pln : Nat) : Mach :=
  match dirFind m (halfOf m pln) (lineL pln) with
  | some (w, _) => dirPut m h pln w none none
  | none => m

/-- Rewrites the entry of a line. -/
def setEnt (m : Mach) (h pln : Nat) (st : DirSt) (pres : Nat) : Mach :=
  match dirFind m (halfOf m pln) (lineL pln) with
  | some (w, e) => dirPut m h pln w (some { e with st := st, pres := pres }) none
  | none => m

/-- Rewrites the entry of a line so that port `p` gains rights (R148). -/
def addRights (m : Mach) (h pln : Nat) (st : DirSt) (pres p : Nat) : Coh :=
  match dirFind m (halfOf m pln) (lineL pln) with
  | some (w, e) => .ok (dirPut m h pln w (some { e with st := st, pres := pres }) (some (p, pln))) (some st)
  | none => .ok m

/-- A host request as from state I (Table 6-7, first rows); `wdirty`: what it writes is held dirty. -/
def fromI (m : Mach) (h pln p : Nat) (c : HostCls) (wdirty : Bool) : Coh :=
  match c with
  | .rdShared => grantEnt m h pln (sharedSt m h pln false) (2 ^ p) p
  | .share => grantEnt m h pln (sharedSt m h pln false) (2 ^ p) p
  | .rdOwn => grantEnt m h pln .e (2 ^ p) p
  | .own => grantEnt m h pln .m (2 ^ p) p
  | .wbShared => grantEnt m h pln (sharedSt m h pln wdirty) (2 ^ p) p
  | .wbKeep => grantEnt m h pln .m (2 ^ p) p
  | .rdCur => .ok (freeEnt m h pln)
  | .release => .ok (freeEnt m h pln)
  | .wbInv => .ok (freeEnt m h pln)
  | .touch => .ok m
  | .wbNoOp => .ok m

/-- Is a host class a write? -/
def HostCls.isWrite : HostCls → Bool
  | .wbInv => true
  | .wbShared => true
  | .wbKeep => true
  | .wbNoOp => true
  | _ => false

/-- Table 6-7: a host request of port `p` at the home; `wdirty`: what it writes is held dirty; `first`: its first lookup, which counts. Event 0x31 counts reads, Own and Share of a
host whose presence bit is set; R162 does not say whether a write-back, a Release or a Touch, which the host may send while it holds the
line, counts too, and the model leaves them out (DESIGN CHOICE, entry 89). -/
def cohHost (m : Mach) (h pln p : Nat) (c : HostCls) (wdirty first : Bool) : Coh :=
  match dirFind m (halfOf m pln) (lineL pln) with
  | none => fromI m h pln p c wdirty
  | some (_, e) =>
    let mine := bitOf e.pres p
    let others := portsOf (e.pres - (if mine then 2 ^ p else 0))
    let m := if first && mine && !c.isWrite && c != .release && c != .touch then count m (hsBase h) 0x31 else m
    match c with
    | .touch => .ok m
    | _ =>
    if e.st == .s || e.st == .o then
      match c with
      | .rdCur => .ok m
      | .rdShared => if mine then .ok m else addRights m h pln e.st (e.pres ||| 2 ^ p) p
      | .share => if mine then .ok m else addRights m h pln e.st (e.pres ||| 2 ^ p) p
      | .rdOwn => if others.isEmpty then grantEnt m h pln .e (2 ^ p) p else .snoop m .si .inv others
      | .own => if others.isEmpty then grantEnt m h pln .m (2 ^ p) p else .snoop m .si .inv others
      | .release => .ok (if others.isEmpty then freeEnt m h pln
                         else if mine then setEnt m h pln e.st (e.pres - 2 ^ p) else m)
      | _ => if others.isEmpty then .ok (freeEnt m h pln) else .snoop m .si .inv others
    else if mine then
      match c with
      | .wbShared => .ok (setEnt m h pln (sharedSt m h pln wdirty) e.pres)
      | .wbKeep => if e.st == .m then .ok m else addRights m h pln .m e.pres p
      | .wbNoOp => if e.st == .m then .ok m else addRights m h pln .m e.pres p
      | c => fromI m h pln p c wdirty
    else
      match c with
      | .rdCur => .snoop m .oc .cur others
      | .rdShared => .snoop m .os .data others
      | .share => .snoop m .os .data others
      | .release => .ok m
      | _ => .snoop m .oi .inv others

/-- Snoop that a non-caching request needs (Table 6-8). -/
def Op.ncSnoop : Op → Option Snp
  | .ioRead => some .cur
  | .load => some .cur
  | .flumeRead => some .cur
  | .maint .clean _ => some .cur
  | .maint .prefetch _ => none
  | .prefetch => none
  | _ => some .inv

/-- The owner that must be snooped for every line of a plot whose region entry is in transition from host-private to shared (R300). -/
def transOwner (m : Mach) (plot : Nat) : Option Nat :=
  (m.comp.plans.find? fun x => x.installed && x.old.attr.priv && !x.final.attr.priv && bitOf x.final.w0 59 &&
    (x.old.covers plot || x.final.covers plot)).map fun x => x.old.attr.owner

/-- Coherence of a request before its data (Tables 6-7 and 6-8, R159, R507, R164). -/
def coher (m : Mach) (r : Mshr) (q : Req) : Coh :=
  let h := r.h
  let a : Attr := match q.src with
    | .regw ent => match m.comp.plans.find? (fun x : RegPlan => x.ent == ent) with
      | some x => x.old.attr
      | none => attrFor m q
    | _ => attrFor m q
  let wdirty := (effOf m h q.pln a).wpol == 0
  let own : Option Nat := if q.attr.any fun x => x.priv then none else transOwner m (plotOf q.pln)
  if !a.covered then .ok m
  else if let some ow := own then
    match q.op, q.src with
    | .host c, .host p _ =>
      if dcHas m h (halfOf m q.pln) (dirSet (lineL q.pln)) then
        cohHost (applyLost (dcTouch (if r.seen != .no then m else count m (hsBase h) 0x30) h (halfOf m q.pln) (dirSet (lineL q.pln)) false) h q.pln)
          h q.pln p c wdirty (r.seen != .yes)
      else .fill m
    | op, _ => match op.ncSnoop with
      | none => .ok m
      | some k => if bitOf (lostMask m h) ow then .ok m else .snoop m (if k == .cur then .oc else .oi) k [ow]
  else if a.priv then
    match q.op, q.src with
    | .host _, .host _ _ => .ok m
    | op, _ => match op.ncSnoop with
      | none => .ok m
      | some k =>
        let spared := match op with
          | .evictPorts ps => !bitOf ps a.owner
          | _ => false
        if spared || bitOf (lostMask m h) a.owner then .ok m
        else .snoop m (if k == .cur then .oc else .oi) k [a.owner]
  else if !dcHas m h (halfOf m q.pln) (dirSet (lineL q.pln)) then .fill m
  else
    let m := if r.seen != .no then m else count m (hsBase h) 0x30
    let m := dcTouch m h (halfOf m q.pln) (dirSet (lineL q.pln)) false
    let m := applyLost m h q.pln
    let others := (List.range 32).filter fun p =>
      bitOf a.ports p && roleOf m p == 1 && !bitOf (lostMask m h) p && (match q.src with
        | .host x _ => x != p
        | _ => true)
    if setLost m q.pln && !r.lostDone && !others.isEmpty then .snoop m .lost .inv others
    else match q.op, q.src with
    | .host c, .host p _ => cohHost m h q.pln p c wdirty (r.seen != .yes)
    | op, _ =>
      match dirFind m (halfOf m q.pln) (lineL q.pln) with
      | none => .ok m
      | some (_, e) =>
        let own := e.st == .e || e.st == .m
        match op with
        | .evictPorts ps =>
          let hit := portsOf (livePres m h e.pres &&& ps)
          if hit.isEmpty then .ok m else .snoop m (if own then .oi else .si) .inv hit
        | _ => match op.ncSnoop with
        | none => .ok m
        | some .cur => if own then .snoop m .oc .cur (portsOf e.pres) else .ok m
        | some k => .snoop m (if own then .oi else .si) k (portsOf e.pres)

/-- The entry after the last response of a transient state (Table 6-9), and the rights that it gives the host that asked (R148); `st` is
the state the owner reported. Data of the snoop that is still to be merged makes the line dirty where it is not written through (R139). -/
def afterSnoop (m : Mach) (r : Mshr) (t : Trans) (port : Nat) (st : Option DirSt) : Mach × Option DirSt :=
  match r.reqs.head? with
  | none => (m, none)
  | some q =>
    if (attrFor m q).priv then (m, none)
    else
      let h := r.h
      let shared := sharedSt m h q.pln (!r.late.isEmpty && (effFor m h q).wpol == 0)
      let grant (ds : DirSt) (pres p : Nat) : Mach × Option DirSt :=
        match dirFind m (halfOf m q.pln) (lineL q.pln) with
        | some (w, e) => (dirPut m h q.pln w (some { e with st := ds, pres := pres }) (some (p, q.pln)), some ds)
        | none => (m, none)
      match t with
      | .oc => match st with
        | some .e => (setEnt m h q.pln .e (2 ^ port), none)
        | some .s => (setEnt m h q.pln shared (2 ^ port), none)
        | _ => (freeEnt m h q.pln, none)
      | .lost => match dirFind m (halfOf m q.pln) (lineL q.pln), q.src with
        | some (_, e), .host p _ => (if bitOf e.pres p then setEnt m h q.pln e.st (2 ^ p) else freeEnt m h q.pln, none)
        | _, _ => (freeEnt m h q.pln, none)
      | .os => match q.src with
        | .host p _ => grant shared ((if st == some .s then 2 ^ port else 0) ||| 2 ^ p) p
        | _ => (m, none)
      | _ => match q.op, q.src with
        | .host .rdOwn, .host p _ => grant .e (2 ^ p) p
        | .host .own, .host p _ => grant .m (2 ^ p) p
        | .evictPorts ps, _ => match dirFind m (halfOf m q.pln) (lineL q.pln) with
          | some (_, e) =>
            let left := e.pres - (e.pres &&& ps)
            (if left == 0 then freeEnt m h q.pln else setEnt m h q.pln e.st left, none)
          | none => (m, none)
        | _, _ => (freeEnt m h q.pln, none)

/-- Hands the register's line to the next level, or installs it, once every merged request is done (R78, Table 4-7). -/
def closeMshr (m : Mach) (r : Mshr) : Mach :=
  match r.buf with
  | none => mshrDel m r.h r.pln
  | some img =>
    if (hgFind m r.h r.pln).isSome then
      if !r.dirty && heldImg m r.h r.pln == some img then mshrDel m r.h r.pln
      else if wbRoom m r.h r.pln then mshrDel (wbWrite m r.h r.pln img r.dirty) r.h r.pln else m
    else if r.alloc && (effAttr m r.h r.pln).hga && !(r.pf && (img.poison || r.take)) then
      match installWay m r.h r.pln with
      | some w => mshrDel (install m r img w) r.h r.pln
      | none => m
    else
      let m := mshrDel m r.h r.pln
      if r.dirty then handOn m r.h r.pln img true false .formed
      else if r.fromSled && !(attrOf m r.pln).hga then handOn m r.h r.pln img false r.pf .fill
      else m

/-- Applies snoop data to the line once its image can be formed (R152, R156). -/
def applyLate (m : Mach) (r : Mshr) (q : Req) : PumpRes :=
  placeWrite m { r with late := r.late.drop 1 } q 0 (.snooped (r.reqs.head?.map fun c => c.op))

/-- The owner that range work snoops for every line of a region: a host-private one, or one in transition to shared (R300, R318). -/
def ownerOf (m : Mach) (a : Attr) (pln : Nat) : Option Nat := if a.priv then some a.owner else transOwner m (plotOf pln)

/-- Sends a group's need or no-snoop notice to the owner's tile (R318). -/
def blkNote (m : Mach) (r : Mshr) (q : Req) (need : Bool) : Mach :=
  match q.op, ownerOf m (attrFor m q) q.pln with
  | .maint _ (some g), some p => { m with ports := { m.ports with blk := m.ports.blk ++ [⟨g, p, q.pln, r.h, need⟩] } }
  | _, _ => m

/-- Has the register a discard as its first request, which drops what its snoop brings home (Table 12-1)? -/
def Mshr.discards (r : Mshr) : Bool := match r.reqs.head? with
  | some q => match q.op with
    | .maint .discard _ => true
    | _ => false
  | none => false

/-- Is the request a read of the line's data (Table 4-15, event 0x03)? -/
def Op.fetches : Op → Bool
  | .host c => c == .rdCur || c == .rdShared || c == .rdOwn
  | .ioRead => true
  | .load => true
  | .flumeRead => true
  | _ => false

/-- Processes a register's merged requests in arrival order until one must wait, then closes it (R76, R78). -/
def pump : Nat → Mach → Nat → Nat → Mach
  | 0, m, _, _ => m
  | n + 1, m, h, pln =>
    match mshrOf m h pln with
    | none => m
    | some r =>
      if r.phase != .full && !r.phase.snooping then m
      else match r.late with
        | q :: _ => if r.discards then pump n (fin (mshrPut m { r with late := r.late.drop 1 }) q none none 0) h pln else match applyLate m r q with
          | .next m' => match mshrOf m' h pln with
            | some r' => pump n (mshrPut m' { r' with late := r'.late.drop (if r'.late.length == r.late.length then 1 else 0) }) h pln
            | none => m'
          | .lookup m' => if r.phase.snooping then m else mshrPut m' { r with phase := .lookup }
          | .stop m' => if r.phase.snooping then m else m'
        | [] => if r.phase.snooping then m else match r.reqs with
          | [] => match r.waiter with
            | some q =>
              pump n (mshrPut m { r with reqs := [q], waiter := none, coh := false, lostDone := false, seen := .no, own := false }) h pln
            | none => closeMshr m r
          | q :: _ =>
            if !r.coh then
              let reg (m' : Mach) : Mshr := { (mshrOf m' h pln).getD r with seen := .yes }
              match coher m r q with
              | .ok m' g =>
                pump n (mshrPut (blkNote m' r q false) { reg m' with coh := true, reqs := { q with rights := g } :: r.reqs.drop 1 }) h pln
              | .snoop m' t k ps =>
                let m' := mshrPut m' { reg m' with phase := .snoop t ps }
                match q.op with
                | .maint _ (some _) =>
                  if fon m (hsBase h) R.DIR_CTL_BLKSNP && k == .inv && (ownerOf m (attrFor m q) pln).isSome then blkNote m' r q true
                  else snoopAll (blkNote m' r q false) h pln k ps
                | _ => snoopAll m' h pln k ps
              | .fill m' => mshrPut m' { reg m' with phase := .dirFill, seen := r.seen }
              | .recall m' => mshrPut m' { reg m' with phase := .dirWait }
              | .wait m' =>
                if dwqFull m' h then mshrPut m' (reg m')
                else
                  let m' := mshrPut m' { reg m' with phase := .dirWait }
                  { m' with home := { m'.home with dwq := m'.home.dwq ++ [(h, pln)] } }
            else match perform m r q with
              | .next m' => match mshrOf m' h pln with
                | some r' => pump n (mshrPut m' r'.dropHead) h pln
                | none => m'
              | .lookup m' =>
                let m' := mshrPut m' { r with phase := .lookup, own := false }
                if r.own then
                  let m' := if q.op.fetches then count m' (hsBase h) 0x03 else m'
                  if q.op.triggers && !r.pf then pfTrigger m' h q else m'
                else m'
              | .stop m' => m'

/-- Enough steps for eight merged requests, each with its coherence, and a waiter. -/
def pumpAll (m : Mach) (h pln : Nat) : Mach := pump 24 m h pln

/-- A fresh miss register for request `q`. -/
def freshMshr (h : Nat) (q : Req) : Mshr :=
  { h := h, pln := q.pln, phase := .full, reqs := [q], waiter := none, buf := none, coh := false, alloc := q.allocs, late := []
    dirty := false, take := false, pf := q.op == .prefetch || (match q.op with
      | .maint .prefetch _ => true
      | _ => false)
    demand := q.demand, fromSled := false, lostDone := false, gave := [], own := true, seen := .no }

/-- R75: requests of hosts and I/O devices leave the last 16 miss registers free. -/
def mayAlloc (m : Mach) (h : Nat) (q : Req) : Bool :=
  match q.src with
  | .host _ _ => mshrUsed m h + 16 < 1024
  | .io _ _ => mshrUsed m h + 16 < 1024
  | _ => mshrUsed m h < 1024

/-- Puts a request at the end of the miss-wait queue (R79); none while it holds 64. -/
def toMwq (m : Mach) (h : Nat) (q : Req) : Option Mach :=
  if (m.home.mwq.filter fun x => x.1 == h).length < 64 then
    some (count { m with home := { m.home with mwq := m.home.mwq ++ [(h, q)] } } (hsBase h) 0x07)
  else none

/-- Is the request a read that the victim buffer may serve (Table 4-8)? -/
def Op.isRead : Op → Bool
  | .host c => !c.isWrite
  | .ioRead => true
  | .load => true
  | .flumeRead => true
  | _ => false

/-- Is the taken line's copy pending, until the I/O write that prepared it, which its tile reissues, is released (Tables 8-7, 8-9)? -/
def copyPends (m : Mach) (pln : Nat) : Bool := taken m pln && m.twin.staged.any fun s => s.pln == pln && s.pending

/-- What a request meets at Decide (R71, R75, R76, R79, Table 4-8); none when it cannot be accepted now. `retry` is the miss-wait
queue's own head. -/
def decideReq (m : Mach) (h : Nat) (q : Req) (retry : Bool) : Option Mach :=
  let queued := !retry && m.home.mwq.any fun x => x.1 == h && x.2.pln == q.pln
  let wait := if retry then none else toMwq m h q
  if queued || m.home.recalls.any fun x => x.h == h && x.pln == q.pln then wait
  else match mshrOf m h q.pln with
    | some r => match q.op with
      | .maint _ _ => if r.waiter.isNone then some (pumpAll (mshrPut m { r with waiter := some q }) h q.pln) else wait
      | _ =>
        if r.reqs.length < 8 then
          let m := count m (hsBase h) 0x06
          let r := { r with pf := r.pf && !q.demand, demand := r.demand || q.demand, alloc := r.alloc || q.allocs }
          if r.phase == .lookup && q.op == .ioWrite && copyPends m q.pln then
            some (pumpAll (mshrPut m { r with reqs := q :: r.reqs, phase := .full, coh := false, lostDone := false, seen := .no }) h q.pln)
          else some (pumpAll (mshrPut m { r with reqs := r.reqs ++ [q] }) h q.pln)
        else wait
    | none =>
      if (vbOf m h q.pln).isSome && !q.op.isRead then wait
      else
        let m' := pumpAll { m with home := { m.home with mshrs := m.home.mshrs ++ [freshMshr h q] } } h q.pln
        match mshrOf m' h q.pln with
        | none => some m'
        | some r =>
          if r.phase == .full && r.buf.isNone then wait
          else if !mayAlloc m h q then wait
          else some m'

end Sys2Proof.Machine
end

