-- ==== Sys2Proof/Machine/Repair.lean ====
section
/-! DEFINITION. Repair of uncorrectable errors (R393 to R398, Table 15-4) and hard-fault tracking (R401). -/

namespace Sys2Proof.Machine

/-- A failure that a step has caused inside a side: `settle` acts on it (R204, R394). -/
def failLater (m : Mach) (sd cause : Nat) : Mach := { m with fails := m.fails ++ [(sd, cause)] }

/-- Does side `sd` hold a twin of its own dirty lines and a mirror of its directory on the other side? -/
def twinSide (m : Mach) (sd : Nat) : Bool := bothUp m || (m.twin.replicated && sideUp m sd)

/-- LOC of a codeword of a slot (Table 15-6). -/
def slotLoc (i cw : Nat) : Nat := idxPc i + idxBank i * 2 ^ 5 + idxFrame i / 16 * 2 ^ 9 + i % 32 * 2 ^ 25 + cw * 2 ^ 30

/-- LOC of an SRAM word. -/
def sramLoc (set way word : Nat) : Nat := set + way * 2 ^ 12 + word * 2 ^ 16

/-- R401: a corrected read counts against its location, named by structure, instance and `key`; at most `cap` locations of an instance are
tracked, none when `cap` is 0, and the least recently counted gives way. At REPEAT the location is rewritten and read back; an error in the
readback makes it a hard fault, which stays tracked and is recorded once. -/
def corrected (m : Mach) (sd : Nat) (e : Err) (key cap : Nat) (again : Bool) : Mach :=
  let bits := drawn m % 2 ^ 15
  let m := err (draw m) { e with bits := bits }
  let m := { m with ras := { m.ras with ceWin := sset 0 m.ras.ceWin sd (sget 0 m.ras.ceWin sd + 1) } }
  let mine (t : Nat × Nat × Nat × Nat) : Bool := t.1 == e.struct_ && t.2.1 == e.inst && t.2.2.1 == key
  let group (t : Nat × Nat × Nat × Nat) : Bool := t.2.1 == e.inst && (cap == 64) == (t.1 == 5 || t.1 == 6 || t.1 == 7 || t.1 == 9)
  if cap == 0 then m
  else
    let old := ((m.ras.track.find? mine).map fun t => t.2.2.2).getD 0
    let all := m.ras.track.filter fun t => !mine t
    let full := cap ≤ (all.filter group).length
    let out (h : Nat × Nat × Nat) : Bool := full && (all.find? group).any fun t => (t.1, t.2.1, t.2.2.1) == h
    let rest := if full then dropFirst group all else all
    let m := { m with ras := { m.ras with hard := m.ras.hard.filter fun h => !out h } }
    let put (l : List (Nat × Nat × Nat × Nat)) (m : Mach) : Mach := { m with ras := { m.ras with track := l } }
    if m.ras.hard.contains (e.struct_, e.inst, key) then put (rest ++ [(e.struct_, e.inst, key, old)]) m
    else if old + 1 < fget m (32 * sd) R.ERR_SCRUB_REPEAT then put (rest ++ [(e.struct_, e.inst, key, old + 1)]) m
    else if again then
      let m := put (rest ++ [(e.struct_, e.inst, key, old + 1)]) m
      err { m with ras := { m.ras with hard := m.ras.hard ++ [(e.struct_, e.inst, key)] } } { e with hard := true, bits := bits }
    else put rest m

/-- The error of a slot of side `sd` at index `i`. -/
def slotErr (sev sd i pln : Nat) : Err :=
  { errOf sev 0x05 0x11 (ctlOf sd i) with loc := slotLoc i 0, addr := pln * 64 }

/-- A readable slot with an uncorrectable data word (Table 15-4, rows 1 to 4). A Dirty slot waits for its twin's image. -/
def slotBad (m : Mach) (sd i found : Nat) : Mach :=
  match slotAt m sd i with
  | none => m
  | some s =>
    let pln := plnOf m sd (slotLine m sd i s)
    let e := slotErr 0 sd i pln
    match s.st with
    | .poisoned => m
    | .clean => err (setSlot m sd i none) { e with repaired := true, action := 1, found := found }
    | .dirty =>
      if repairHeld m pln then m
      else if twinned m pln then streamPut m (homeSlice m pln) (.lookup pln (.slot sd i))
      else
        let m := twQueue (setSlot m sd i none) sd pln ⟨s.data, true⟩ fullMask [] .other
        err m { e with sev := 1, poisoned := true, action := 3, found := found }

/-- DATALOSS of a lost structure (R391): the side holds untwinned dirty lines of its own half. -/
def dataloss (m : Mach) (sd : Nat) : Bool := fget m (twnBase sd) R.TWN_GAUGE_LINES != 0

/-- A twin search is asked for a target, or the loss recorded where there is no twin (Table 15-4, rows 5, 6 and 10). -/
def searchFor (m : Mach) (sd h : Nat) (t : Target) (e : Err) (actTwin actSingle : Nat) : Mach :=
  if twinSide m sd then
    let m := if (openTargets m).contains t then m else streamPut m h (.search t)
    err m { e with repaired := true, action := actTwin }
  else err m { e with sev := 1, dataloss := dataloss m sd, action := actSingle }

/-- A slot that is not readable (Table 15-4, rows 5 and 6). -/
def slotUnreadable (m : Mach) (sd i found : Nat) : Mach :=
  searchFor (setSlot m sd i none) sd (32 * sd) (.slot sd i)
    { errOf 0 0x05 0x11 (ctlOf sd i) with loc := slotLoc i 0, found := found } 5 6

/-- Without a twin's image, the value that a lookup was to mend is poisoned (Table 15-4, rows 3, 9, 11 and 12). -/
def repairPoison (m : Mach) (pln : Nat) (w : Repair) : Mach :=
  let rec_ (m : Mach) (e : Err) (act : Nat) : Mach := err m { e with sev := 1, poisoned := true, action := act, addr := pln * 64 }
  match w with
  | .slot sd i => match slotAt m sd i with
    | some s =>
      if s.st == SlotSt.dirty && plnOf m sd (slotLine m sd i s) == pln then
        rec_ (twQueue (setSlot m sd i none) sd pln ⟨s.data, true⟩ fullMask [] .other) (slotErr 1 sd i pln) 3
      else m
    | none => m
  | .way h set w =>
    match mget m.home.hg (hgKey h set w) with
    | some x =>
      if plnOf m (h / 32) (hgLineOf set x.tag) == pln then
        let x := { x with img := ⟨x.img.data, true⟩ }
        rec_ { m with home := { m.home with hg := mput m.home.hg (hgKey h set w) x } } { errOf 1 0x01 0x10 h with loc := sramLoc set w 0 } 9
      else m
    | none => m
  | .victim h =>
    let mark (o : Offer) : Offer := if o.pln == pln then { o with img := ⟨o.img.data, true⟩ } else o
    let mv (e : VbEnt) : VbEnt := if e.h == h && e.pln == pln then { e with img := ⟨e.img.data, true⟩ } else e
    rec_ { m with rsv := { m.rsv with offers := m.rsv.offers.map mark }, home := { m.home with vb := m.home.vb.map mv } } (errOf 1 0x01 0x10 h) 11
  | .tail sd =>
    let mark (e : TwEnt) : TwEnt := if e.sd == sd && e.pln == pln && e.st == TwSt.waiting then { e with img := ⟨e.img.data, true⟩ } else e
    rec_ { m with tw := m.tw.map mark } (errOf 1 0x0C 0x11 (4 * sd)) 12

/-- The image that a twin lookup returns (R393): the staging buffer's, else the record's. -/
def repairImg (m : Mach) (pln : Nat) : Option Img :=
  match m.twin.staged.find? fun s : Staged => s.pln == pln with
  | some s => some s.img
  | none => (m.twin.recs.find? fun r : Nat × Rec => r.2.pln == pln).map fun r : Nat × Rec => r.2.img

/-- A twin lookup's answer mends its place (R393, Table 15-4, rows 2, 8, 11 and 12). -/
def repairApply (m : Mach) (pln : Nat) (w : Repair) : Mach :=
  match repairImg m pln with
  | none => repairPoison m pln w
  | some g =>
    let rec_ (m : Mach) (e : Err) (act : Nat) : Mach := err m { e with sev := 0, repaired := true, action := act, addr := pln * 64 }
    match w with
    | .slot sd i => match slotAt m sd i with
      | some s =>
        if s.st == SlotSt.dirty && plnOf m sd (slotLine m sd i s) == pln then
          rec_ (setSlot m sd i (some { s with data := g.data, st := stateOf true g.poison })) (slotErr 0 sd i pln) 2
        else m
      | none => m
    | .way h set w =>
      match mget m.home.hg (hgKey h set w) with
      | some x =>
        if plnOf m (h / 32) (hgLineOf set x.tag) == pln then
          rec_ { m with home := { m.home with hg := mput m.home.hg (hgKey h set w) { x with img := g } } }
            { errOf 0 0x01 0x10 h with loc := sramLoc set w 0 } 8
        else m
      | none => m
    | .victim h =>
      let mark (o : Offer) : Offer := if o.pln == pln && o.dirty then { o with img := g } else o
      let mv (e : VbEnt) : VbEnt := if e.h == h && e.pln == pln && e.dirty then { e with img := g } else e
      rec_ { m with rsv := { m.rsv with offers := m.rsv.offers.map mark }, home := { m.home with vb := m.home.vb.map mv } } (errOf 0 0x01 0x10 h) 11
    | .tail sd =>
      let mark (e : TwEnt) : TwEnt := if e.sd == sd && e.pln == pln && e.st == TwSt.waiting then { e with img := g, mask := fullMask } else e
      rec_ { m with tw := m.tw.map mark } (errOf 0 0x0C 0x11 (4 * sd)) 12

/-- A twin search target joins the scan; a 17th makes its side fail (R394). -/
def searchJoin (m : Mach) (h : Nat) (t : Target) : Mach :=
  let sd := h / 32
  let on (x : Target) : Bool := match x with
    | .hgSet g _ => g / 32 == sd
    | .slot s _ => s == sd
  if (m.ras.targets.filter on).length < 16 then { m with ras := { m.ras with targets := m.ras.targets ++ [t] } }
  else failLater (err (fsat m aonBase R.ERR_SUM_SRCHFULL) { errOf 2 0x07 0x17 sd with action := 31 }) sd 2

/-- A directory set that no copy gives back (R396): it is written with every way I and listed; a 17th of a slice makes its side fail. -/
def lostSetPut (m : Mach) (half set found : Nat) : Mach :=
  let s : LostSet := ⟨half, set, 0⟩
  let h := homeSlice m (plnOf m half set)
  let mine (x : LostSet) : Bool := homeSlice m (plnOf m x.half x.set) == h
  if m.home.lostSets.any fun x => x.half == half && x.set == set then m
  else if 16 ≤ (m.home.lostSets.filter mine).length then
    failLater (err m { errOf 2 0x06 0x10 h with action := 31 }) (h / 32) 2
  else
    let m := { m with home := { m.home with dir := mdrop m.home.dir (fun k => k / 8 == half * 2 ^ 26 + set)
                                            lostSets := m.home.lostSets ++ [s] } }
    err m { errOf 0 0x06 0x10 h with repaired := true, action := 24, found := found }

/-- What the code of an injected location reports: one or two flipped bits are corrected, an odd parity is detected; otherwise `ck` stands
(R388, R411). -/
def injected (m : Mach) (struct_ inst key : Nat) (ck : Check) : Check :=
  match m.ras.injected.find? fun x => x.1 == struct_ && x.2.1 == inst && x.2.2.1 == key with
  | none => ck
  | some x =>
    let n := x.2.2.2
    if struct_ == 0x02 || struct_ == 0x15 then (if n % 2 == 1 then .bad else ck)
    else if n ≤ (if struct_ == 0x04 || struct_ == 0x0D then 1 else 2) then (match ck with
      | .corrected c a => .corrected c a
      | _ => .corrected 0 false)
    else ck

end Sys2Proof.Machine
end

