-- ==== Sys2Proof/Machine/HomeCmd.lean ====
section
/-! DEFINITION. What the home's own steps do: requests accepted, fills, retries, directory fills and waits, snoop responses and data,
the write buffer, slot lookups, way cleaning, lost ports and queries (chapters 4 to 6). -/

namespace Sys2Proof.Machine

/-- Does slice `h` return no REQ credits: while it invalidates its tags or is fenced, or with its miss-wait queue or directory-wait queue full
(R79, R93, R161)? -/
def creditsShut (m : Mach) (h : Nat) : Bool :=
  let st := fget m (hsBase h) R.HS_STATUS_STATE
  st == 0 || st == 2 || 64 ≤ (m.home.mwq.filter fun x => x.1 == h).length || dwqFull m h

/-- The first pair for slice `h`, and the list without it. -/
def popFor {α : Type} (h : Nat) (l : List (Nat × α)) : Option (α × List (Nat × α)) :=
  (l.find? fun x => x.1 == h).map fun x => (x.2, dropFirst (fun x => x.1 == h) l)

/-- The first request for slice `h` whose line is not held for a repair, and the list without it. -/
def popReq (m : Mach) (h : Nat) (l : List (Nat × Req)) : Option (Req × List (Nat × Req)) :=
  let free (x : Nat × Req) : Bool := x.1 == h && !repairHeld m x.2.pln
  (l.find? free).map fun x => (x.2, dropFirst free l)

/-- NEW_REQUEST_ACCEPT (R70, R71): the oldest request that waits at slice `h`; it stays while the slice returns no credit. -/
def doNewRequestAccept (h : Fin 64) (m : Mach) : Mach :=
  match popReq m h m.home.reqQ with
  | none => m
  | some (q, rest) =>
    if creditsShut m h then m
    else match decideReq (count m (hsBase h) 0x01) h q false with
      | none => m
      | some m' =>
        let port := match q.src with
          | .host p _ => some p
          | .io p _ => some p
          | _ => none
        sampleCount { m' with home := { m'.home with reqQ := rest ++ m'.home.reqQ.drop m.home.reqQ.length } } 0 h port

/-- R88: does the target slice drop a prefetch of the line? -/
def pfDrops (m : Mach) (h pln : Nat) : Bool :=
  let a := effAttr m h pln
  let e := plcGet m (h / 32) (plotOf pln)
  (heldImg m h pln).isSome || (mshrOf m h pln).isSome || (wbOf m h pln).isSome || (vbOf m h pln).isSome ||
  (m.home.mwq.any fun x => x.1 == h) || !a.pf || !a.hga || !a.covered || !plcV e ||
  1024 - mshrUsed m h < fget m (hsBase h) R.HS_CTL_PF_FREE || memState m (plcLoc1 e).1 != 0 || opMode m == 3

/-- PREFETCH_REQUEST (R88): the oldest prefetch request at slice `h` is dropped or fetched. -/
def doPrefetchRequest (h : Fin 64) (m : Mach) : Mach :=
  match popFor h.val m.home.pfQ with
  | none => m
  | some (pln, rest) =>
    let m := { m with home := { m.home with pfQ := rest } }
    let m := count m (hsBase h) 0x01
    if pfDrops m h pln || repairHeld m pln then count m (hsBase h) 0x0F
    else
      let q : Req := { op := .prefetch, src := .none, pln := pln, data := 0, mask := 0, poison := false }
      let r := { freshMshr h q with phase := .lookup, coh := true, pf := true }
      { m with home := { m.home with mshrs := m.home.mshrs ++ [r] } }

/-- FILL_RETURN (R77): the oldest fill for slice `h` reaches its miss register; `ue` says that a word was uncorrectable. -/
def doFillReturn (h : Fin 64) (ue : Bool) (m : Mach) : Mach :=
  match m.home.fillQ.find? fun f => f.h == h.val with
  | none => m
  | some f =>
    let m := { m with home := { m.home with fillQ := dropFirst (fun f => f.h == h.val) m.home.fillQ } }
    match mshrOf m h f.pln with
    | none => m
    | some r =>
      let m := if ue then err m { errOf 1 0x11 0x10 h with poisoned := true, addr := f.pln * 64, action := 13 } else m
      let img : Img := ⟨f.img.data, f.img.poison || ue⟩
      pumpAll (mshrPut m { r with phase := .full, buf := some img, dirty := r.dirty || f.dirty, take := f.take
                                  fromSled := f.fromSled }) h f.pln

/-- INSTALL_RETRY (R74): held installs and held array writes of slice `h` are tried again. -/
def doInstallRetry (h : Fin 64) (m : Mach) : Mach :=
  (m.home.mshrs.filter fun r => r.h == h.val && r.phase == .full).foldl (fun m r => pumpAll m h r.pln) m

/-- MISS_WAIT_RETRY (R79): the head of the miss-wait queue is tried again. -/
def doMissWaitRetry (h : Fin 64) (m : Mach) : Mach :=
  match popReq m h m.home.mwq with
  | none => m
  | some (q, rest) =>
    match decideReq { m with home := { m.home with mwq := rest } } h q true with
    | some m' => m'
    | none => m

/-- A waiting request tries again behind the older waiting requests only, and keeps its place while it waits on; none where nothing that
it waits for is free. -/
def dirRetry (m : Mach) (d : Nat × Nat) : Option Mach :=
  match mshrOf m d.1 d.2 with
  | none => none
  | some r =>
    let older := m.home.dwq.takeWhile fun x => x != d
    let m0 := { m with home := { m.home with dwq := older } }
    let m1 := pumpAll (mshrPut m0 { r with phase := .full }) d.1 d.2
    let stays := match mshrOf m1 d.1 d.2 with
      | some r' => match r'.phase with
        | .dirWait => m1.home.dwq.contains d
        | .dirFill => (dcFill m1 d.1 (halfOf m1 d.2) (dirSet (lineL d.2))).isNone
        | _ => false
      | none => false
    if stays then none
    else some { m1 with home := { m1.home with dwq := m1.home.dwq ++ m.home.dwq.drop (older.length + 1) } }

/-- DIRECTORY_WAIT_RETRY (R161): the oldest waiting request of slice `h` whose set has a way, recall slot or cache way tries again. -/
def doDirectoryWaitRetry (h : Fin 64) (m : Mach) : Mach :=
  ((m.home.dwq.filter fun d => d.1 == h.val).findSome? (dirRetry m)).getD m

/-- WRITE_BUFFER_ARRAY_WRITE (R83): the oldest Formed entry of slice `h` is written to the array and freed. -/
def doWriteBufferArrayWrite (h : Fin 64) (m : Mach) : Mach :=
  match m.home.wb.find? fun e => e.h == h.val with
  | none => m
  | some e =>
    let m' := { m with home := { m.home with wb := dropFirst (fun e => e.h == h.val) m.home.wb } }
    match hgFind m h e.pln with
    | none => m'
    | some (w, x) =>
      { m' with home := { m'.home with hg := mput m'.home.hg (hgKey h (hgSet (lineL e.pln)) w) { x with img := e.img } } }

/-- A register's directory set arrives, or it joins the directory-wait queue while its four cache ways hold sets with open
transactions (R145, R161); none while it can do neither. -/
def dirArrive (m : Mach) (r : Mshr) : Option Mach :=
  match dcFill m r.h (halfOf m r.pln) (dirSet (lineL r.pln)) with
  | some m' => some (pumpAll (mshrPut m' { r with phase := .full, seen := if r.seen == .no then .missed else r.seen }) r.h r.pln)
  | none =>
    if dwqFull m r.h then none
    else some (mshrPut { m with home := { m.home with dwq := m.home.dwq ++ [(r.h, r.pln)] } } { r with phase := .dirWait })

/-- DIRECTORY_CACHE_FILL (R145): the set of the oldest register that waits for one, and can take it, arrives. -/
def doDirectoryCacheFill (h : Fin 64) (m : Mach) : Mach :=
  ((m.home.mshrs.filter fun r => r.h == h.val && r.phase == .dirFill).findSome? (dirArrive m)).getD m

/-- Does slice `a.h` wait for an answer of `a.port` for the line? -/
def snoopWaits (m : Mach) (a : SnpRsp) : Bool :=
  match m.home.recalls.find? fun x => x.h == a.h && x.pln == a.pln with
  | some rc => rc.left.contains a.port
  | none => match mshrOf m a.h a.pln with
    | some r => match r.phase with
      | .snoop _ left => left.contains a.port
      | _ => false
    | none => false

/-- A recall has ended: its register goes on (Table 6-9, row VR). -/
def recallDone (m : Mach) (h pln : Nat) : Mach :=
  match mshrOf m h pln with
  | some r =>
    if r.phase == .dirWait && !m.home.dwq.contains (h, pln) then pumpAll (mshrPut m { r with phase := .full }) h pln else m
  | none => m

/-- Is the entry that a snoop of the line went to no longer there: a sweep of a lost port has freed it (R165)? -/
def entryGone (m : Mach) (r : Mshr) : Bool :=
  !((r.reqs.head?.map (attrFor m)).getD (attrOf m r.pln)).priv && (dirFind m (halfOf m r.pln) (lineL r.pln)).isNone && (match r.reqs.head? with
    | some q => match q.op with
      | .host _ => true
      | _ => (transOwner m (plotOf r.pln)).isNone
    | none => true)

/-- One answer to an open snoop (Table 6-9): a recall's, or a miss register's. An answer of a lost port comes after R164's rules for it. -/
def answerSnoop (m : Mach) (a : SnpRsp) : Mach :=
  let m := if bitOf (lostMask m a.h) a.port && snoopWaits m a then applyLost m a.h a.pln else m
  match m.home.recalls.find? fun x => x.h == a.h && x.pln == a.pln with
  | some rc =>
    let left := rc.left.filter fun p => p != a.port
    let m := if a.st.isNone && rc.left.contains a.port && !rc.gave.contains a.port then count m (hsBase a.h) 0x3A else m
    if left.isEmpty then
      let m := { m with home := { m.home with recalls := dropFirst (fun x => x.h == a.h && x.pln == a.pln) m.home.recalls } }
      recallDone (freeEnt m a.h a.pln) a.h rc.cause
    else
      let upd (x : Recall) : Recall := { x with left := left }
      { m with home := { m.home with recalls := mapFirst (fun x => x.h == a.h && x.pln == a.pln) upd m.home.recalls } }
  | none => match mshrOf m a.h a.pln with
    | none => m
    | some r => match r.phase with
      | .snoop t left =>
        if left.contains a.port then
          let m := if a.st.isNone && !r.gave.contains a.port then count m (hsBase a.h) 0x3A else m
          let rest := left.filter fun p => p != a.port
          if rest.isEmpty then
            let gone := entryGone m r
            let (m, g) := if gone then (m, none) else afterSnoop m r t a.port a.st
            let reqs := match r.reqs with
              | q :: qs => { q with rights := g } :: qs
              | [] => []
            pumpAll (mshrPut m { r with phase := .full, coh := t != .lost && !gone, lostDone := r.lostDone || t == .lost, gave := []
                                        reqs := reqs }) a.h a.pln
          else
            let m := match t, dirFind m (halfOf m a.pln) (lineL a.pln) with
              | .si, some (w, e) =>
                if bitOf e.pres a.port then dirPut m a.h a.pln w (some { e with pres := e.pres - 2 ^ a.port }) none else m
              | _, _ => m
            mshrPut m { r with phase := .snoop t rest }
        else m
      | _ => m

/-- The HOST port that sent a request, or none. -/
def Req.hostPort (q : Req) : List Nat := match q.src with
  | .host p _ => [p]
  | _ => []

/-- R156: a write is merged as the newest value of the line that slice `h` is snooping. -/
def takeSnpData (h : Nat) (m : Mach) (q : Req) : Mach :=
  let m := count m (hsBase h) 0x3B
  let gave (x : Recall) : Recall := { x with gave := x.gave ++ q.hostPort }
  let m := { m with home := { m.home with recalls := mapFirst (fun x => x.h == h && x.pln == q.pln) gave m.home.recalls } }
  match mshrOf m h q.pln with
  | some r => pumpAll (mshrPut m { r with late := r.late ++ [q], gave := if r.phase.snooping then r.gave ++ q.hostPort else r.gave }) h q.pln
  | none =>
    pumpAll { m with home := { m.home with mshrs := m.home.mshrs ++
      [{ freshMshr h q with reqs := [], late := [q], demand := false }] } } h q.pln

/-- Is the request a write of the answer's line by the answer's port? -/
def ownWrite (a : SnpRsp) (q : Req) : Bool :=
  q.pln == a.pln && match q.op, q.src with
    | .host c, .host p _ => c.isWrite && p == a.port
    | _, _ => false

/-- R339: before an answer is applied, the writes of its line by its port that slice `a.h` holds are taken as the snoop's data: those
merged behind the cause or waiting for Accept, and those on their way. -/
def takeParked (m : Mach) (a : SnpRsp) : Mach :=
  if !snoopWaits m a then m
  else
    let merged := match mshrOf m a.h a.pln with
      | some r => r.reqs.filter (ownWrite a)
      | none => []
    let at_ (x : Nat × Req) : Bool := x.1 == a.h && ownWrite a x.2
    let parked := (m.home.reqQ.filter at_).length
    let ws := merged ++ ((m.home.mwq ++ m.home.reqQ ++ m.home.snpData).filter at_).map fun x => x.2
    let m := match mshrOf m a.h a.pln with
      | some r => mshrPut m { r with reqs := r.reqs.filter fun q => !ownWrite a q }
      | none => m
    let m := { m with home := { m.home with mwq := m.home.mwq.filter (fun x => !at_ x), reqQ := m.home.reqQ.filter (fun x => !at_ x)
                                            snpData := m.home.snpData.filter (fun x => !at_ x) } }
    let m := count m (nocBase (a.h / 32)) 0x0D parked
    ws.foldl (takeSnpData a.h) m

/-- SNOOP_RESPONSE (R155, R339): the oldest answer on its way to slice `h` is taken, after the snoop's data. -/
def doSnoopResponse (h : Fin 64) (m : Mach) : Mach :=
  match m.home.rspQ.find? fun a => a.h == h.val with
  | none => m
  | some a =>
    answerSnoop (takeParked { m with home := { m.home with rspQ := dropFirst (fun a => a.h == h.val) m.home.rspQ } } a) a

/-- SNOOP_DATA_WRITE (R156): a write taken as a snoop's data merges as the newest value of the line. -/
def doSnoopDataWrite (h : Fin 64) (m : Mach) : Mach :=
  match popFor h.val m.home.snpData with
  | none => m
  | some (q, rest) => takeSnpData h { m with home := { m.home with snpData := rest } } q

/-- Does the request carry data that is written? -/
def Op.isWrite : Op → Bool
  | .host c => c.isWrite
  | .ioWrite => true
  | .store => true
  | .flumeWrite => true
  | _ => false

/-- R163: a HOST port is lost: its reads are dropped and its writes performed without completion (Table 14-8), its snoops, and what a
group's assembly still needs of it (R318), close as BIRspI, MASK bit p sets in every slice of both sides
and the directory sweep starts (R165). -/
def losePort (m : Mach) (p : Nat) : Mach :=
  if m.home.lostSweeps.contains p then m
  else
    let closed := ((m.ports.snps.filter fun s => s.port == p && !s.fenced).map fun s => (⟨s.h, s.pln, p, none⟩ : SnpRsp)) ++
      ((m.ports.blk.filter fun b => b.port == p && b.need).map fun b => (⟨b.h, b.pln, p, none⟩ : SnpRsp))
    let m := forN 64 (fun h m => fset m (hsBase h) R.DIR_LOST_MASK (setBit (lostMask m h) p true)) m
    let keep (t : Ptt) : Bool := t.port != p || t.req.op.isWrite
    let ptt := (m.ports.ptt.filter keep).map fun t => { t with dead := t.dead || t.port == p }
    { m with ports := { m.ports with snps := m.ports.snps.filter (fun s => s.port != p)
                                     blk := m.ports.blk.filter (fun b => b.port != p)
                                     ptt := ptt
                                     grants := m.ports.grants.filter (fun g => g.port != p)
                                     heldRsp := m.ports.heldRsp.filter (fun d => match d.src with
                                       | .host q _ => q != p
                                       | _ => true) }
             home := { m.home with lostSweeps := m.home.lostSweeps ++ [p], rspQ := m.home.rspQ ++ closed } }

/-- BISNP_TIMEOUT (R158): a back-invalidate to port `p` has not been answered within BITO. -/
def doBisnpTimeout (p : Fin 32) (m : Mach) : Mach :=
  match m.ports.snps.find? fun s => s.port == p.val && !s.fenced && s.sent with
  | none => m
  | some s => losePort (count m (hsBase s.h) 0x3D) p

/-- LOST_PORT_SWEEP_END (R165): every entry with bit p has been rewritten under R164; MASK bit p clears and an event posts. -/
def doLostPortSweepEnd (p : Fin 32) (m : Mach) : Mach :=
  if m.home.lostSweeps.contains p.val then
    let m := m.home.dir.foldl (fun m c =>
      if bitOf c.2.pres p then
        let half := c.1 / 2 ^ 29
        let pln := plnOf m half (c.2.tag * 2 ^ 26 + c.1 / 8 % 2 ^ 26)
        applyLost m (homeSlice m pln) pln
      else m) m
    let m := forN 64 (fun h m => fset m (hsBase h) R.DIR_LOST_MASK (setBit (lostMask m h) p false)) m
    notice { m with home := { m.home with lostSweeps := m.home.lostSweeps.filter fun x => x != p.val } } 0x04 p 0
  else m

/-- The payload of a directory entry as R164 presents it (Tables 6-4, 6-15). -/
def dirPayload (m : Mach) (h pln : Nat) : Nat :=
  let l := lineL pln
  let priv := (attrOf m pln).priv
  match dirFind m (halfOf m pln) l with
  | some (_, e) =>
    let p := livePres m h e.pres
    if p == 0 || priv then l / 2 ^ 26 else l / 2 ^ 26 + e.st.code * 2 ^ 15 + p * 2 ^ 18
  | none => l / 2 ^ 26

/-- DIR_QUERY (R167): GO reads the queried line's entry as ordered at Decide into DIR_QRES. LINE is written by the same control
write; a line that the slice does not home is refused (`Control` checks it). A side-local line address names a line of each half: the
slice reads its own half's, and where it homes only the other half's, that one (DESIGN CHOICE, entry 90: in Single-side mode the spec does
not say which of the two a survivor's slice reads). -/
def doDirQuery (h : Fin 64) (line : BitVec 41) (m : Mach) : Mach :=
  let half := if bothUp m || sideUp m (h.val / 32) then h.val / 32 else 1 - h.val / 32
  let pln := plnOf m half line.toNat
  let b := hsBase h
  if fon m b R.DIR_QUERY_BUSY then m
  else if sliceIn m line.toNat != h.val % 32 then
    reject m b 2 0x320
  else fset (fset m b R.DIR_QUERY_LINE line.toNat) b R.DIR_QRES_PAYLOAD (dirPayload m h pln)

/-- HEADGATE_WAYEN_WRITE (R95): clears start cleaning passes, sets start clears; disabling every west way is refused (CAUSE 2). -/
def doHeadgateWayenWrite (h : Fin 64) (en : BitVec 16) (m : Mach) : Mach :=
  let b := hsBase h
  let old := fget m b R.HS_WAYEN_EN
  if en.toNat % 256 == 0 then
    reject m b 2 0x50
  else
    let m := fset m b R.HS_WAYEN_EN en.toNat
    forN 16 (fun w m =>
      let was := bitOf old w
      let is := bitOf en.toNat w
      if was == is then m
      else if is then
        if m.home.ways.any fun x => x.h == h.val && x.way == w then
          { m with home := { m.home with ways := mapFirst (fun x => x.h == h.val && x.way == w) (fun x => { x with again := true }) m.home.ways } }
        else
          let m := fset m b R.HS_WAYEN_BUSY (setBit (fget m b R.HS_WAYEN_BUSY) w true)
          { m with home := { m.home with ways := m.home.ways ++ [⟨h.val, w, true, false⟩] } }
      else if m.home.ways.any fun x => x.h == h.val && x.way == w then
        let upd (x : WayPass) : WayPass := { x with clear := false, again := false }
        { m with home := { m.home with ways := mapFirst (fun x => x.h == h.val && x.way == w) upd m.home.ways } }
      else
        let m := fset m b R.HS_WAYEN_BUSY (setBit (fget m b R.HS_WAYEN_BUSY) w true)
        { m with home := { m.home with ways := m.home.ways ++ [⟨h.val, w, false, false⟩] } }) m

/-- Keys of the valid lines of way `w` of slice `h`. -/
def wayLines (m : Mach) (h w : Nat) : List Nat :=
  (m.home.hg.filter fun c => c.1 / 49152 == h && c.1 % 16 == w).map fun c => c.1

/-- WAY_CLEAN_LINE (R95): a cleaning pass makes one valid line of its way a victim, when the victim buffer has room; for a level drain or the east
pass it counts in event 0x06 of Table 12-13, dirty or not (DEDUCED, entry 112). -/
def doWayCleanLine (h : Fin 64) (m : Mach) : Mach :=
  match m.home.ways.find? fun x => x.h == h.val && !x.clear with
  | none => m
  | some x =>
    let free := (wayLines m h x.way).find? fun k => match mget m.home.hg k with
      | none => false
      | some l =>
        let pln := plnOf m (h.val / 32) (hgLineOf (k / 16 % 3072) l.tag)
        !lineOpen m h pln && (wbOf m h pln).isNone
    match free with
    | none => m
    | some k =>
      let sd := h.val / 32
      let drains := hgDrains m h || (8 ≤ x.way && fget m (rgeBase (4 * sd)) R.RGE_CSTAT_EAST == 1)
      if 16 ≤ vbUsed m h then m
      else evict (if drains then count m (rgeBase (4 * sd)) 6 else m) h (k / 16 % 3072) (k % 16)

/-- The locations of a retired way leave the tracker (R401). -/
def untrackWay (m : Mach) (h w : Nat) : Mach :=
  let gone (st key : Nat) : Bool := st == 0x01 && key / 8 / 49152 == h && key / 8 % 16 == w
  { m with ras := { m.ras with track := m.ras.track.filter (fun t => !gone t.1 t.2.2.1), hard := m.ras.hard.filter fun t => !gone t.1 t.2.2 } }

/-- WAY_CLEAN_COMPLETE (R95): the oldest pass of slice `h` whose way is empty ends, or a cleared way returns to service. -/
def doWayCleanComplete (h : Fin 64) (m : Mach) : Mach :=
  match m.home.ways.find? fun x => x.h == h.val && (x.clear || (wayLines m h x.way).isEmpty) with
  | none => m
  | some x =>
    let b := hsBase h
    let rest := dropFirst (fun y => y == x) m.home.ways
    if x.clear then
      let m := { m with home := { m.home with ways := rest, hg := mdrop m.home.hg fun k => k / 49152 == h.val && k % 16 == x.way } }
      let m := fset m b R.HS_WAYEN_BUSY (setBit (fget m b R.HS_WAYEN_BUSY) x.way false)
      fset m b R.HS_WAYEN_OFF (setBit (fget m b R.HS_WAYEN_OFF) x.way (8 ≤ x.way && !fon m b R.HS_STATUS_EAST_ON))
    else if x.again then { m with home := { m.home with ways := rest ++ [⟨h.val, x.way, true, false⟩] } }
    else
      let m := untrackWay { m with home := { m.home with ways := rest } } h x.way
      let m := fset m b R.HS_WAYEN_BUSY (setBit (fget m b R.HS_WAYEN_BUSY) x.way false)
      fset m b R.HS_WAYEN_OFF (setBit (fget m b R.HS_WAYEN_OFF) x.way true)

end Sys2Proof.Machine
end

