-- ==== Sys2Proof/Machine/RsvCmd.lean ====
section
/-! DEFINITION. What the Reservoir's own steps do: lookups, offers, takes, clean slot writes, the sweep, refresh, retirement, and the
tailwater buffer's writes, issues and acknowledgments (chapter 5). -/

namespace Sys2Proof.Machine

/-- Sends a fill to a miss register. -/
def fillPut (m : Mach) (r : Mshr) (img : Img) (take fromSled : Bool) : Mach :=
  let m := mshrPut m { r with phase := .filled }
  { m with home := { m.home with fillQ := m.home.fillQ ++ [⟨r.h, r.pln, img, false, take, fromSled⟩] } }

/-- May the module send its sled a further request: the port is Up and one of its 2,048 entries is free (R365, R380)? -/
def sledRoom (m : Mach) (p : Nat) : Bool :=
  memState m p == 0 && decide ((m.ports.sleds.filter fun s => s.port == p && s.sent).length < 2048)

/-- A sled request goes to the sled, for the first time or again (R380). -/
def sledSend (m : Mach) (s : SledReq) : Mach :=
  let m := if s.again then fsat (count m (ptBase s.port) 0x07) (ptBase s.port) R.PT_PTT_REPLAYED else count m (ptBase s.port) 0x0D
  let upd (x : SledReq) : SledReq := { x with sent := true, again := true }
  let m := { m with ports := { m.ports with sleds := mapFirst (fun x => x.id == s.id) upd m.ports.sleds } }
  match s.what with
  | .fill _ _ _ => send m (.sledRead s.port s.id s.addr)
  | .flumeRead _ _ => send m (.sledRead s.port s.id s.addr)
  | _ => send m (.sledWrite s.port s.id s.addr s.img s.mask)

/-- A sled request of the module is made; it is sent at once when the port is Up and has an entry free, and is held otherwise (Table 3-12, R365,
R367). -/
def sledReq (m : Mach) (sd p : Nat) (what : SledFor) (addr : Nat) (img : Img) (mask : Mask) : Mach :=
  let s : SledReq := ⟨m.nextId, p, sd, what, addr, false, false, img, mask, false⟩
  let m' := { m with nextId := m.nextId + 1, ports := { m.ports with sleds := m.ports.sleds ++ [s] } }
  if sledRoom m p then sledSend m' s else m'

/-- A sled read through MEM port `p`. -/
def sledReadReq (m : Mach) (sd p : Nat) (what : SledFor) (addr : Nat) : Mach := sledReq m sd p what addr ⟨0, false⟩ 0

/-- A sled write through MEM port `p`. -/
def sledWriteReq (m : Mach) (sd p : Nat) (what : SledFor) (addr : Nat) (img : Img) (mask : Mask) : Mach := sledReq m sd p what addr img mask

/-- R51, R54: a miss to a plot without storage answers every merged request as refused, and closes the register. -/
def refuseAll (m : Mach) (r : Mshr) : Mach :=
  let m := (r.reqs ++ r.late ++ r.waiter.toList).foldl (fun m q =>
    complete m { src := q.src, pln := q.pln, img := none, grant := none, result := 0, how := .refused, rights := q.rights }) m
  mshrDel m r.h r.pln

/-- A sled read or write that side `sd` issues for a plot passes the side's sampler (R235). -/
def sampleDue (m : Mach) (sd plot : Nat) : Mach :=
  if fon m (lvlBase sd) R.PLC_CTL_EN then { m with sampleQ := m.sampleQ ++ [(sd, plot)] } else m

/-- The sled read of a miss, through the placement table (Table 5-8, R55, R59, Table 3-12). -/
def sledFill (m : Mach) (r : Mshr) : Mach :=
  let sd := r.h / 32
  let plot := plotOf r.pln
  let e := plcGet m sd plot
  let m := { m with comp := { m.comp with plcCache := mput m.comp.plcCache (sd * 2 ^ 27 + plot) e } }
  if !plcV e then refuseAll m r
  else
    let l1 := plcLoc1 e
    let lost1 := memState m l1.1 == 2
    if lost1 && (!plcM2 e || memState m (plcLoc2 e).1 == 2) then
      let img := openPoison m
      fillPut (noteUcc (mshrPut (draw m) { r with alloc := false }) r.pln) { r with alloc := false } img false false
    else
      let loc := if lost1 then plcLoc2 e else l1
      let m := mshrPut m { r with phase := .sled }
      sledReadReq (sampleDue m sd plot) sd loc.1 (.fill r.h r.pln (lost1 || false)) (sledAddr loc.2 r.pln)

/-- A register whose line is looked up for a prefetch that meets a Dirty or Poisoned slot (R89): the prefetch is done, and sends no take. Other
requests that merged are served from the slot as requests of their own kind; a maintenance waiter alone is then processed. -/
def pfMeets (m : Mach) (r : Mshr) (img : Img) : Mach :=
  let isPf (q : Req) : Bool := match q.op with
    | .prefetch => true
    | .maint .prefetch _ => true
    | _ => false
  let m := (r.reqs.filter isPf).foldl (fun m q => fin m q none none 0) m
  let left := r.reqs.filter fun q => !isPf q
  let r := { r with reqs := left, pf := false, alloc := left.any Req.allocs, coh := false, lostDone := false, seen := .no, own := false }
  if !left.isEmpty || !r.late.isEmpty then fillPut m r img true false
  else if r.waiter.isSome then pumpAll (mshrPut m { r with phase := .full }) r.h r.pln
  else mshrDel m r.h r.pln

/-- The slot read of a lookup (R106, R107, R121, R229): what it counts, and how many slots it reads. -/
def lookupCounted (m : Mach) (sd l : Nat) : Mach :=
  let i := (installAt m sd l).1
  let k := ctlOf sd i
  let c := ctlGet m k
  let m0 := m
  let m := ctlSet (count m (rsvBase k) 0x01) k { c with lookups := c.lookups + 1 }
  let m := if rekeying m sd && !swept m sd l then count m (lvlBase sd) 0x04 else m
  let m := if rekeying m sd && !swept m sd l && rekeyPassed m sd l then count m (lvlBase sd) 0x05 else m
  (slotProbes m0 sd l).foldl (fun m i => slotCmds m sd i 1) m

/-- Must a lookup of the line wait: for a repair, for what is on its way to the Reservoir or the tailwater buffer, for a take or a clean slot write
of the line, for a slot that cannot be read, for a masked entry (R120), or, but for the reissued I/O write itself, while the taken line's copy is pending
(Tables 8-7, 8-9)? -/
def lookupWaits (m : Mach) (sd : Nat) (r : Mshr) : Bool :=
  let pln := r.pln
  repairHeld m pln || (m.twIn.any fun e => e.pln == pln) || (m.rsv.offers.any fun o => o.pln == pln && o.dirty) ||
  takePending m sd pln || (m.rsv.cleanWr.any fun c => c.sd == sd && c.pln == pln) || slotShut m sd pln ||
  ((twNewest m sd pln).any fun e => e.mask != fullMask) || (copyPends m pln && !(r.reqs.head?.any fun q => q.op == .ioWrite))

/-- SLOT_LOOKUP (R107, Table 5-8, Table 8-9): the oldest register of slice `h` that needs its line looks up the Reservoir and the
tailwater buffer; `ck0` is what the checker reports of the slot read (Table 15-4). -/
def doSlotLookup (h : Fin 64) (ck0 : Check) (m : Mach) : Mach :=
  match m.home.mshrs.find? fun r => r.h == h.val && r.phase == .lookup && !lookupWaits m (h.val / 32) r with
  | none => m
  | some r =>
    let sd := h.val / 32
    match twNewest m sd r.pln with
    | some e => fillPut (count m (rsvBase (4 * sd)) 0x20) r e.img false false
    | none =>
      if taken m r.pln then
        match m.twin.staged.find? fun s => s.pln == r.pln with
        | some s => fillPut m r s.img false false
        | none => match m.twin.recs.find? fun e => e.2.pln == r.pln with
          | some e => fillPut m r e.2.img false false
          | none => sledFill m r
      else
        let l := lineL r.pln
        let (i, _, _) := installAt m sd l
        let b := rsvBase (ctlOf sd i)
        let reads := !(slotProbes m sd l).isEmpty
        let m := lookupCounted m sd l
        if !reads then sledFill (count (count m b 0x05) b 0x04) r
        else
        let at_ := ((findSlot m sd l).map fun f => f.1).getD i
        let ck := injected m 0x05 (ctlOf sd at_) (sd * 2 ^ 31 + at_) ck0.ofSlot
        let e := { slotErr 0 sd at_ r.pln with found := 0 }
        let m := match ck with
          | .corrected cw again =>
            corrected (count m b 0x10) sd { e with loc := slotLoc at_ cw.val } ((sd * 2 ^ 31 + at_) * 8 + cw.val) 64 again
          | _ => m
        if ck == .unreadable && (slotAt m sd i).isSome then slotUnreadable (count m b 0x11) sd i 0
        else match findSlot m sd l with
        | some (j, s) =>
          if ck == .bad && s.st != .poisoned then slotBad (count m b 0x11) sd j 0
          else
          let m := count m b (if s.st == .clean then 0x02 else 0x03)
          let c := ctlGet m (ctlOf sd i)
          let m := predHit (ctlSet m (ctlOf sd i) { c with hits := c.hits + 1 }) sd (ctlOf sd j) l
          let img : Img := ⟨s.data, s.st == .poisoned⟩
          if r.pf && s.st != .clean then pfMeets m r img else fillPut m r img (s.st != .clean) false
        | none => sledFill (count m b 0x04) r

/-- TAKE (R108): controller `k` writes the oldest taken slot Invalid. -/
def doTake (k : Fin 8) (m : Mach) : Mach :=
  let mine (t : Nat × Nat) : Bool := match slotAny m t.1 (lineL t.2) with
    | some (i, _) => ctlOf t.1 i == k.val
    | none => t.1 * 4 == k.val
  match m.rsv.takes.find? mine with
  | none => m
  | some t => takeLine { m with rsv := { m.rsv with takes := dropFirst (fun x => x == t) m.rsv.takes } } t.1 t.2

/-- OFFER (R112): controller `k` takes or declines the oldest line offered to it; a line that needs a displacement waits while the
tailwater buffer has no room (R124). `ue`: a word of the line was uncorrectable when it was read (Table 15-4, row 11). -/
def doOffer (k : Fin 8) (ue : Bool) (m : Mach) : Mach :=
  match m.rsv.offers.find? fun o => ctlOf o.sd (installAt m o.sd (lineL o.pln)).1 == k.val && !repairHeld m o.pln && !takePending m o.sd o.pln with
  | none => m
  | some o =>
    let h := homeSlice m o.pln
    let gone (m : Mach) : Mach :=
      { m with rsv := { m.rsv with offers := dropFirst (fun x => x == o) m.rsv.offers }
               home := { m.home with vb := if o.from_ == .victim then dropFirst (fun e => e.pln == o.pln) m.home.vb else m.home.vb } }
    if ue && !o.dirty then err (gone m) { errOf 0 0x01 0x10 h with repaired := true, addr := o.pln * 64, action := 11 }
    else if ue && twinned m o.pln then streamPut m h (.lookup o.pln (.victim h))
    else
    let m := if ue then repairPoison m o.pln (.victim h) else m
    let o := if ue then { o with img := ⟨o.img.data, true⟩ } else o
    match offerLine m o.sd o.pln o.img o.dirty o.pf with
    | .wait => m
    | .done m' kept =>
      let m' := { m' with rsv := { m'.rsv with offers := dropFirst (fun x => x == o) m'.rsv.offers } }
      if o.from_ == .victim then
        let h := homeSlice m o.pln
        let m' := if kept then m' else if o.dirty then m' else count m' (hsBase h) 0x14
        { m' with home := { m'.home with vb := dropFirst (fun e => e.pln == o.pln) m'.home.vb } }
      else m'

/-- PREDICTOR_WINDOW_END (R116): after 2^WINLOG clean offers THRESH moves one step and the rate is recorded. -/
def doPredictorWindowEnd (k : Fin 8) (m : Mach) : Mach :=
  let b := rsvBase k
  let c := ctlGet m k
  if c.offers < 2 ^ fget m b R.RSV_CTL_WINLOG then m
  else
    let worse := !c.first && c.hits * c.lastLookups < c.lastHits * c.lookups
    let up := if worse then !c.dirUp else c.dirUp
    let t := fget m b R.RSV_STATUS_THRESH
    let t := if up then t + 1 else t - 1
    let t := max (fget m b R.RSV_CTL_THR_MIN) (min (fget m b R.RSV_CTL_THR_MAX) t)
    let t := if fon m b R.RSV_CTL_PREDEN then t else 0
    fset (ctlSet m k { c with dirUp := up, first := false, offers := 0, hits := 0, lookups := 0
                              lastHits := c.hits, lastLookups := c.lookups }) b R.RSV_STATUS_THRESH t

/-- CLEAN_SLOT_WRITE (R117): the oldest due write of side `sd` updates its slot, and then completes what waits for it. -/
def doCleanSlotWrite (sd : Fin 2) (m : Mach) : Mach :=
  match m.rsv.cleanWr.find? fun c => c.sd == sd.val with
  | none => m
  | some c =>
    let m := { m with rsv := { m.rsv with cleanWr := dropFirst (fun c => c.sd == sd.val) m.rsv.cleanWr } }
    twFinish (slotCleanWrite m sd c.pln c.img c.mask) sd c.pln c.done

/-- Invalidates every slot of frame `f` of the controller's 32 pseudo-channels. -/
def clearFrame (m : Mach) (k f : Nat) : Mach :=
  let inFrame (key : Nat) : Bool := ctlOf (key / 2 ^ 31) (key % 2 ^ 31) == k && idxFrame (key % 2 ^ 31) == f
  { m with rsv := { m.rsv with slots := mdrop m.rsv.slots inFrame } }

/-- SWEEP_FRAME (R127, Table 5-13): a Sweeping controller writes one frame Invalid; at 2^19 it becomes Serving. -/
def doSweepFrame (k : Fin 8) (m : Mach) : Mach :=
  let b := rsvBase k
  if rsvState m k != 1 then m
  else
    let p := fget m b R.RSV_STATUS_SWEEP_PTR
    let m := clearFrame m k p
    let m := fset m b R.RSV_STATUS_SWEEP_PTR (p + 1)
    if p + 1 == 0x80000 then fset m b R.RSV_STATUS_STATE 2 else m

/-- REFRESH_COMMAND (R129): a refresh of a bank is issued; it changes no data. -/
def doRefreshCommand (k : Fin 8) (m : Mach) : Mach :=
  if rsvState m k == 0 then m else count m (rsvBase k) 0x0F

/-- Lower bound of a refresh step in °C (Table 5-14). -/
def refBound (s : Nat) : Nat := [0, 50, 85, 95].getD s 95

/-- The step for a temperature, from the current step (R129). -/
def refNext (s t : Nat) : Nat :=
  let up := if 95 ≤ t then 3 else if 85 ≤ t then 2 else if 50 ≤ t then 1 else 0
  if s < up then up else
    let d1 := if 1 ≤ s && t + 3 ≤ refBound s then s - 1 else s
    let d2 := if d1 < s && 1 ≤ d1 && t + 3 ≤ refBound d1 then d1 - 1 else d1
    if d2 < d1 && 1 ≤ d2 && t + 3 ≤ refBound d2 then d2 - 1 else d2

/-- STACK_TEMPERATURE_SAMPLE (R129): the controller reads its hottest sensor and moves its refresh step. -/
def doStackTemperatureSample (k : Fin 8) (temp : BitVec 8) (m : Mach) : Mach :=
  let b := rsvBase k
  if rsvState m k == 0 then m
  else
    let m := fset m b R.RSV_REFRESH_TEMP temp.toNat
    let s := fget m b R.RSV_STATUS_REFSTEP
    let n := refNext s temp.toNat
    if n == s then m else finc (fset m b R.RSV_STATUS_REFSTEP n) b R.RSV_REFRESH_CHANGES

/-- Spare frames of a pseudo-channel already used. -/
def sparesUsed (m : Mach) (k pc : Nat) : Nat := sget 0 m.rsv.spares (k * 32 + pc)

/-- Remap entries of a controller (R130). -/
def remapUsed (m : Mach) (k : Nat) : Nat := (m.rsv.remap.filter fun c => c.1 / 2 ^ 24 == k).length

/-- Starts a retirement operation (R131, R132), or sets RESULT 1 to 4 (Table 5-18). -/
def startRetire (m : Mach) (k op pc frame : Nat) (eng : Option Nat) : Mach :=
  let b := rsvBase k
  let fail (r : Nat) : Mach :=
    let m := fset m b R.RSV_RETIRE_RESULT r
    match eng with
    | some e => { m with fretDone := m.fretDone ++ [(e, r)] }
    | none => m
  if rsvState m k != 2 then fail 4
  else if bankBarred m k pc (frame % 16) || (op != 3 && sget 1 m.rsv.remap (frameKey k pc frame) == 0) then fail 3
  else if op != 3 && remapUsed m k ≥ 4096 && sget 1 m.rsv.remap (frameKey k pc frame) == 1 then fail 1
  else if op == 1 && sparesUsed m k pc ≥ 13312 then fail 2
  else fset (ctlSet m k { ctlGet m k with move := some ⟨op, pc, frame, eng⟩ }) b R.RSV_RETIRE_BUSY 1

/-- A write of RSV_RETIRE with GO 1 and OP `op`: the fields take their values and the operation starts unless BUSY. -/
def retireGo (k : Fin 8) (op : Nat) (pc : Fin 32) (frame : BitVec 19) (m : Mach) : Mach :=
  let b := rsvBase k
  let busy := fon m b R.RSV_RETIRE_BUSY
  let m := fset (fset (fset m b R.RSV_RETIRE_FRAME frame.toNat) b R.RSV_RETIRE_PC pc.val) b R.RSV_RETIRE_OP op
  if busy then m else startRetire m k op pc frame.toNat none

/-- The slots of the frames that a retirement moves. -/
def movedSlots (m : Mach) (k : Nat) (v : FrameMove) : List (Nat × Slot) :=
  m.rsv.slots.filter fun c =>
    let i := c.1 % 2 ^ 31
    ctlOf (c.1 / 2 ^ 31) i == k && idxPc i == v.pc &&
      (if v.op == 3 then idxFrame i % 16 == v.frame % 16 else idxFrame i == v.frame)

/-- A slot that a frame move reads (R131, R398): a Dirty or Poisoned line goes to the tailwater buffer when there is room and stays in its slot
until then, a Clean one is dropped, and a slot with an uncorrectable codeword, named in `bad`, is handled under Table 15-4. -/
def moveSlot (k : Nat) (bad : List (BitVec 31 × Fin 8)) (m : Mach) (c : Nat × Slot) : Mach :=
  let sd := k / 4
  let i := c.1 % 2 ^ 31
  let pln := plnOf m sd (slotLine m sd i c.2)
  let pass : Mach :=
    if c.2.st == .clean || takePending m sd pln then setSlot m sd i none
    else if twMustWait m sd pln then m
    else twTake (setSlot m sd i none) sd pln ⟨c.2.data, c.2.st == .poisoned⟩ fullMask []
  if repairHeld m pln then m
  else match bad.find? fun x => x.1.toNat == i with
    | none => pass
    | some x =>
      let m := count m (rsvBase k) 0x11
      if (Check.codeword x.2).ofSlot == .unreadable then slotUnreadable m sd i 3
      else if c.2.st == .poisoned then m
      else slotBad m sd i 3

/-- FRAME_MOVE_COMPLETE (R131, R132): the lines of the moving frames go where `moveSlot` says; once no slot of them holds a line, the remap entry or
bank-bar bit is installed and the operation ends. -/
def doFrameMoveComplete (k : Fin 8) (bad : List (BitVec 31 × Fin 8)) (m : Mach) : Mach :=
  let b := rsvBase k
  match (ctlGet m k).move with
  | none => m
  | some v =>
    let m := (movedSlots m k v).foldl (moveSlot k bad) m
    if !(movedSlots m k v).isEmpty then m else
    let m :=
      if v.op == 3 then
        let r := b + 8 * (v.pc / 4)
        fset m r R.RSV_BANKBAR_BARS (setBit (fget m r R.RSV_BANKBAR_BARS) (16 * (v.pc % 4) + v.frame % 16) true)
      else if v.op == 2 then { m with rsv := { m.rsv with remap := sset 1 m.rsv.remap (frameKey k v.pc v.frame) 0 } }
      else
        let n := sparesUsed m k v.pc
        { m with rsv := { m.rsv with remap := sset 1 m.rsv.remap (frameKey k v.pc v.frame) (n + 2)
                                     spares := sset 0 m.rsv.spares (k.val * 32 + v.pc) (n + 1) } }
    let m := fset m b R.RSV_STATUS_REMAP_USED (remapUsed m k)
    let m := ctlSet m k { ctlGet m k with move := none }
    let m := fset (fset m b R.RSV_RETIRE_RESULT 0) b R.RSV_RETIRE_BUSY 0
    let m := { m with retireQ := m.retireQ ++ [(k.val, v)] }
    match v.eng with
    | some e => { m with fretDone := m.fretDone ++ [(e, 0)] }
    | none => m

/-- TAILWATER_WRITE (R122): the oldest sled write of side `sd` that has room enters the buffer, none overtaking another of its line. -/
def doTailwaterWrite (sd : Fin 2) (m : Mach) : Mach :=
  let go (acc : List Nat × Option TwIn) (e : TwIn) : List Nat × Option TwIn :=
    match acc.2 with
    | some _ => acc
    | none =>
      if e.sd != sd.val || acc.1.contains e.pln then acc
      else if twFull m sd e.pln then (e.pln :: acc.1, none) else (acc.1, some e)
  match (m.twIn.foldl go ([], none)).2 with
  | none => m
  | some e =>
    let m := { m with twIn := dropFirst (fun x => x == e) m.twIn }
    let m := twTake m sd e.pln e.img e.mask e.done
    match e.origin with
    | .victim h => { m with home := { m.home with vb := dropFirst (fun v => v.h == h && v.pln == e.pln) m.home.vb } }
    | .other => m

/-- Entries Issued to port `p` on side `sd`. -/
def twIssuedTo (m : Mach) (sd p : Nat) : Nat :=
  (m.tw.filter fun e => e.sd == sd && e.st == .issued && e.locs.any fun l => l.1 == p).length

/-- Is a tracker holding the side's writes of the plot (R241)? -/
def plotHeld (m : Mach) (sd plot : Nat) : Bool :=
  (List.range 16).any fun t =>
    let b := lvlBase sd + 16 * t
    fon m b R.PLC_MIGT_HOLD && fget m b R.PLC_MIGT_PLOT == plot

/-- TAILWATER_ISSUE (R122, R123, R207): the head Waiting entry of MEM port `p`'s queue on side `sd` is sent to every location.
`ue`: a word of the entry was uncorrectable (Table 15-4, row 12). -/
def doTailwaterIssue (sd : Fin 2) (p : Fin 32) (ue : Bool) (m : Mach) : Mach :=
  let inQ (e : TwEnt) : Bool := e.sd == sd.val && e.st == .waiting && (e.locs.head?.map fun l => l.1) == some p.val
  let held (e : TwEnt) : Bool := plotHeld m sd (plotOf e.pln)
  let head := (m.tw.filter fun e => inQ e && !held e && !repairHeld m e.pln).foldl (fun (r : Option TwEnt) e => match r with
    | none => some e
    | some x => if e.age < x.age then some e else r) none
  match head with
  | none => m
  | some e =>
    if ue && twinned m e.pln then streamPut m (homeSlice m e.pln) (.lookup e.pln (.tail sd))
    else if ue then repairPoison m e.pln (.tail sd)
    else
    let fenced := m.ports.sleds.any fun s => s.fenced && match s.what with
      | .tail _ pln => pln == e.pln
      | _ => false
    if !(e.locs.all fun l => memState m l.1 == 0) || 64 ≤ twIssuedTo m sd p || fenced then m
    else
      let upd (x : TwEnt) : TwEnt := { x with st := .issued, left := x.locs.map fun l => l.1 }
      let m := { m with tw := mapFirst (fun x => x == e) upd m.tw }
      let m := count m (rsvBase (4 * sd.val)) 0x23
      e.locs.foldl (fun m l =>
        sledWriteReq (sampleDue m sd (plotOf e.pln)) sd l.1 (.tail sd e.pln) (sledAddr l.2 e.pln) e.img e.mask) m

/-- The line's Issued entry is freed: its writers complete, a clean slot write is due first where R117 asks for one, and its Held
entry joins the end of its port's queue (Table 5-11). -/
def twFree (m : Mach) (e : TwEnt) : Mach :=
  let m := { m with tw := dropFirst (fun x => x == e) m.tw }
  let m := count m (rsvBase (4 * e.sd)) 0x24
  let stays := e.done.any fun d => match d with
    | .cleanWay _ _ => true
    | .mshr _ => true
    | _ => false
  let m :=
    if stays && !taken m e.pln && (findSlot m e.sd (lineL e.pln)).isSome then
      { m with rsv := { m.rsv with cleanWr := m.rsv.cleanWr ++ [⟨e.sd, e.pln, e.img, e.mask, e.done⟩] } }
    else twFinish m e.sd e.pln e.done
  match m.tw.find? fun x => x.sd == e.sd && x.pln == e.pln && x.st == .held with
  | none => m
  | some x =>
    let m := { m with tw := dropFirst (fun y => y == x) m.tw }
    if twLost m e.sd e.pln then twDrop m e.sd e.pln x.mask x.done
    else
      let x' := { x with st := .waiting, locs := writeLocs m (plcGet m e.sd (plotOf e.pln)), age := m.nextId }
      { m with nextId := m.nextId + 1, tw := m.tw ++ [x'] }

/-- Sets the tracker bit of the step of an acknowledged sled write (R240). -/
def trackWrite (m : Mach) (sd pln : Nat) : Mach :=
  forN 16 (fun t m =>
    let b := lvlBase sd + 16 * t
    if fon m b R.PLC_MIGT_EN && fget m b R.PLC_MIGT_PLOT == plotOf pln then
      let step := pln % 32768 / 64
      let j := lvlBase sd + 64 * t + 8 * (step / 64)
      fset (count m (lvlBase sd) 0x0C) j R.PLC_MIGBM_BITS (setBit (fget m j R.PLC_MIGBM_BITS) (step % 64) true)
    else m) m

/-- SLED_WRITE_ACKNOWLEDGMENT (R122): the sled on MEM port `p` acknowledges write `id`; a fenced one is discarded (R207). -/
def doSledWriteAck (p : Fin 32) (id : Nat) (m : Mach) : Mach :=
  match m.ports.sleds.find? fun s => s.id == id && s.port == p.val && s.sent with
  | none => m
  | some s =>
    let m' := count { m with ports := { m.ports with sleds := dropFirst (fun x => x == s) m.ports.sleds } } (ptBase p) 0x0E
    match s.what with
    | .tail sd pln =>
      if s.fenced then m'
      else match m'.tw.find? fun e => e.sd == sd && e.pln == pln && e.st == .issued with
        | none => m'
        | some e =>
          let m' := trackWrite m' sd pln
          let left := e.left.filter fun x => x != p.val
          let e' := { e with left := left }
          let m' := { m' with tw := mapFirst (fun x => x == e) (fun _ => e') m'.tw }
          if left.isEmpty then twFree m' e' else m'
    | .flumeWrite c k => if s.fenced then m' else complete m' ⟨.flume c k, 0, none, none, 0, .ok, none⟩
    | .repair _ => m'
    | _ => m

end Sys2Proof.Machine
end

