-- ==== Sys2Proof/Machine/TwinCmd.lean ====
section
/-! DEFINITION. What the twin logs and mirrors do: twin writes, acknowledgments and notices, staging and records, releases, commits,
mirror updates and grant records, the gauge, the cleaner and the twin drain (chapter 8, R147, R148). -/

namespace Sys2Proof.Machine

/-- The first message of slice `h`'s stream. -/
def streamHead (m : Mach) (h : Nat) : Option Stream := (m.twin.stream.find? fun x => x.1 == h).map fun x => x.2

/-- A message of Table 8-4 from side `sd` crosses the bridge: both ends count it in the step that takes it from its queue (R487, entry 116). -/
def bridgeMsg (m : Mach) (sd : Nat) : Mach := count (count m (brgBase sd) 0x01) (brgBase (1 - sd)) 0x02

/-- The stream without its first message of slice `h`, which crosses the bridge. -/
def streamPop (m : Mach) (h : Nat) : Mach :=
  bridgeMsg { m with twin := { m.twin with stream := dropFirst (fun x => x.1 == h) m.twin.stream } } (h / 32)

/-- The stream without its first message of slice `h`, one that Table 8-4 does not list. -/
def streamDrop (m : Mach) (h : Nat) : Mach :=
  { m with twin := { m.twin with stream := dropFirst (fun x => x.1 == h) m.twin.stream } }

/-- Stages an image on side `t` as the most recently written entry (Table 8-3). -/
def stage (m : Mach) (t pln : Nat) (img : Img) (pending : Bool) : Mach :=
  let old := m.twin.staged.find? fun s => s.sd == t && s.pln == pln
  let pend := pending || (match old with
    | some s => s.pending
    | none => false)
  { m with twin := { m.twin with staged := (dropFirst (fun s => s.sd == t && s.pln == pln) m.twin.staged) ++ [⟨t, pln, img, pend⟩] } }

/-- Who wrote a twin-written image, for the notice (R193). -/
def AckFor.notice : AckFor → Option (Src × Nat)
  | .write q r => some (q.src, r)
  | .formed q r => some (q.src, r)
  | .none => Option.none

/-- Applies one message of a stream at the twin side (R193, R198, R147). A release of a line that has no copy there is not acknowledged
(Table 8-3 has a release acknowledgment only from Staged or Stored). -/
def applyStream (m : Mach) (h : Nat) (x : Stream) : Mach :=
  let t := 1 - h / 32
  match x with
  | .twinWrite pln img pending ack =>
    let isNew := !hasTwin m pln
    let m := count (count m (twnBase t) 0x01) (twnBase t) 0x02 (b2n isNew)
    let m := stage m t pln img pending
    { m with twin := { m.twin with acks := m.twin.acks ++ [⟨h, pln, isNew, ack⟩]
                                   notices := m.twin.notices ++ (ack.notice.filter fun s => s.1 != .none).toList } }
  | .release pln =>
    let m := count m (twnBase t) 0x06
    if !hasTwin m pln then m
    else
      let m := copyFree m t pln
      { m with twin := { m.twin with relAcks := m.twin.relAcks ++ [(h, pln)] } }
  | .mirror key ent grant =>
    { m with home := { m.home with mirror := mset m.home.mirror key ent }
             twin := { m.twin with mirAcks := m.twin.mirAcks ++ grant.toList } }
  | .lookup pln w => repairApply m pln w
  | .search g => searchJoin m h g
  | .commit pln =>
    { m with twin := { m.twin with staged := m.twin.staged.map fun s => if s.pln == pln then { s with pending := false } else s } }

/-- MIRROR_UPDATE (R147): the next message of slice `h`'s stream, when it is a mirror update. -/
def doMirrorUpdate (h : Fin 64) (m : Mach) : Mach :=
  match streamHead m h with
  | some (.mirror k e g) => applyStream (streamPop m h) h (.mirror k e g)
  | _ => m

/-- GRANT_RECORD_RELEASE (R148): the oldest mirror acknowledgment for port `p` frees its grant record; a held granting response is
sent in its place. -/
def doGrantRecordRelease (p : Fin 32) (m : Mach) : Mach :=
  match m.twin.mirAcks.find? fun a => a.1 == p.val with
  | none => m
  | some a =>
    let m := { m with twin := { m.twin with mirAcks := dropFirst (fun x => x.1 == p.val) m.twin.mirAcks }
                      ports := { m.ports with grants := dropFirst (fun g => g.port == p.val && g.pln == a.2) m.ports.grants } }
    let mine (d : Done) : Bool := match d.src with
      | .host q _ => q == p.val
      | _ => false
    match m.ports.heldRsp.find? mine with
    | none => m
    | some d => complete { m with ports := { m.ports with heldRsp := dropFirst mine m.ports.heldRsp } } d

/-- Is the next message of slice `h`'s stream a twin write for which side `1 - h / 32` returns no bridge credit, its staging buffer being full
(R196, R199)? -/
def creditWait (m : Mach) (h : Nat) : Bool := match streamHead m h with
  | some (.twinWrite pln _ _ _) =>
    32768 ≤ stagedOn m (1 - h / 32) && !(m.twin.staged.any fun s => s.sd == 1 - h / 32 && s.pln == pln)
  | _ => false

/-- TWIN_WRITE (R193, R196): the next message of slice `h`'s stream, when it is a twin write and the staging buffer can take it. -/
def doTwinWrite (h : Fin 64) (m : Mach) : Mach :=
  match streamHead m h with
  | some (.twinWrite pln img pend ack) =>
    if creditWait m h then m
    else applyStream (streamPop m h) h (.twinWrite pln img pend ack)
  | _ => m

/-- What a twin acknowledgment completes at the home. -/
def ackDone (m : Mach) (h pln : Nat) (a : AckFor) : Mach :=
  match a with
  | .none => m
  | .write q res => fin m q none none res
  | .formed q res =>
    match mshrOf m h pln with
    | none => m
    | some r => match q.op, q.src with
      | .ioWrite, .io p id =>
        mshrPut { m with ports := { m.ports with prepQ := m.ports.prepQ ++ [(p, id)] } } { r with phase := .prepared }
      | _, _ =>
        pumpAll (mshrPut (fin m q none none res) { r.dropOf q with phase := .full }) h pln

/-- TWIN_ACK (R193, R198): the oldest acknowledgment for slice `h`: the write completes and a new copy counts in the gauge. -/
def doTwinAck (h : Fin 64) (m : Mach) : Mach :=
  match m.twin.acks.find? fun a => a.h == h.val with
  | none => m
  | some a =>
    let m := bridgeMsg { m with twin := { m.twin with acks := dropFirst (fun a => a.h == h.val) m.twin.acks } } (1 - h.val / 32)
    let sd := h.val / 32
    let m := if a.isNew then finc m (twnBase sd) R.TWN_GAUGE_LINES else m
    ackDone (forcedCheck m sd) h a.pln a.ack

/-- TWIN_NOTICE (R193): the oldest twin notice reaches its writer's port tile, engine or channel, which records it. -/
def doTwinNotice (m : Mach) : Mach :=
  match m.twin.notices with
  | [] => m
  | (src, res) :: rest =>
    let m := { m with twin := { m.twin with notices := rest } }
    let rec_ (id : Nat) : Mach :=
      let upd (t : Ptt) : Ptt := { t with notice := some res }
      { m with ports := { m.ports with ptt := mapFirst (fun t => t.id == id) upd m.ports.ptt } }
    match src with
    | .host _ id => rec_ id
    | .io _ id => rec_ id
    | s => { m with twin := { m.twin with unitNotices := m.twin.unitNotices ++ [(s, res)] } }

/-- Primary and secondary bucket of L on side `t` (R194). -/
def buckets (m : Mach) (t l : Nat) : Nat × Nat :=
  let k := sget 0 m.twin.bucketKey t
  let b (i : Nat) : Nat := (Config.bucketHash k i l % 2 ^ 64) * 20132608 / 2 ^ 64
  let p := b 0
  let s := b 1
  (p, if s == p then (s + 1) % 20132608 else s)

/-- Key of record `j` of bucket `b` on side `t`. -/
def recKey (t b j : Nat) : Nat := (t * 20132608 + b) * 10 + j

/-- STAGING_EVICTION (R196): while more than 30,720 entries are in use, the least recently written entry without the pending flag is
written to a record, or stays with a clean request to its home. An entry that finds no place goes to the most recently written end, so that the
next try takes another (DESIGN CHOICE, entry 91: R196 gives no order of retries). -/
def doStagingEviction (t : Fin 2) (m : Mach) : Mach :=
  if stagedOn m t ≤ 30720 then m
  else match m.twin.staged.find? fun s => s.sd == t.val && !s.pending with
    | none => m
    | some s =>
      let l := lineL s.pln
      let (p, q) := buckets m t l
      let rec_ (b : Nat) (f : Option Rec → Bool) : Option Nat := (List.range 10).find? fun j => f (mget m.twin.recs (recKey t b j))
      let mine (r : Option Rec) : Bool := match r with
        | some r => r.pln == s.pln
        | none => false
      let store (b j : Nat) (sec : Bool) : Mach :=
        { m with twin := { m.twin with staged := dropFirst (fun x => x == s) m.twin.staged
                                       recs := mput m.twin.recs (recKey t b j) ⟨s.pln, s.img, sec⟩ } }
      let ev (m : Mach) : Mach := count m (twnBase t) 0x03
      match rec_ p mine with
      | some j => ev (store p j false)
      | none => match rec_ q mine with
        | some j => ev (store q j true)
        | none => match rec_ p Option.isNone with
          | some j => ev (store p j false)
          | none => match rec_ q Option.isNone with
            | some j =>
              let m := store q j true
              let k := t.val * 20132608 + p
              let o := sget 0 m.twin.ovf k
              count (ev { m with twin := { m.twin with ovf := sset 0 m.twin.ovf k (satAdd 15 o 1) } }) (twnBase t) 0x04
            | none =>
              let m := count m (twnBase t) 0x05
              { m with home := { m.home with notes := m.home.notes ++ [.cleanReq (homeSlice m s.pln) s.pln] }
                       twin := { m.twin with staged := dropFirst (fun x => x == s) m.twin.staged ++ [s] } }

/-- The first note of a kind for slice `h`, and the notes without it. -/
def popNote (h : Nat) (sel : HomeNote → Option (Nat × Nat)) (m : Mach) : Option (Nat × Mach) :=
  let mine (n : HomeNote) : Bool := match sel n with
    | some (x, _) => x == h
    | none => false
  match m.home.notes.find? mine with
  | none => none
  | some n => match sel n with
    | some (_, pln) => some (pln, { m with home := { m.home with notes := dropFirst mine m.home.notes } })
    | none => none

/-- CLEAN_REQUEST (R196): the home writes the line to its sled through the tailwater buffer; a Dirty slot is rewritten Clean. -/
def doCleanRequest (h : Fin 64) (m : Mach) : Mach :=
  match popNote h.val (fun n => match n with
    | .cleanReq x p => some (x, p)
    | _ => none) m with
  | none => m
  | some (pln, m) =>
    let sd := h.val / 32
    let m := fsat m (twnBase sd) R.TWN_GAUGE_SPILLS
    let q : Req := { op := .maint .clean none, src := .none, pln := pln, data := 0, mask := 0, poison := false }
    match dirtyImg m (freshMshr h q) with
    | some img => twQueue m sd pln img fullMask [.cleanWay h img] .other
    | none => m

/-- RELEASE_CHECK (R197, R139): a line's last sled write is freed; with no dirty copy left its entry changes from O to S and its twin
copy is released. -/
def doReleaseCheck (h : Fin 64) (m : Mach) : Mach :=
  match popNote h.val (fun n => match n with
    | .relCheck x p => some (x, p)
    | _ => none) m with
  | none => m
  | some (pln, m) =>
    let sd := h.val / 32
    if dirtyAtHome m h pln || (m.tw.any fun e => e.pln == pln) then count m (twnBase sd) 0x07
    else
      let m := match dirFind m (halfOf m pln) (lineL pln) with
        | some (w, e) => if e.st == .o then count (dirPut m h pln w (some { e with st := .s }) none) (hsBase h) 0x3F else m
        | none => m
      if twinned m pln then streamPut m h (.release pln)
      else if m.twin.untwinned.any fun x => x.2 == pln then
        let rest := m.twin.untwinned.filter fun x => x.2 != pln
        let m := { m with twin := { m.twin with untwinned := rest } }
        let m := fset m (twnBase sd) R.TWN_GAUGE_LINES (fget m (twnBase sd) R.TWN_GAUGE_LINES - 1)
        fset m (twnBase sd) R.TWN_GAUGE_UNTWINNED (b2n (!rest.isEmpty))
      else m

/-- RELEASE (R198): the next message of slice `h`'s stream, when it is a release. -/
def doRelease (h : Fin 64) (m : Mach) : Mach :=
  match streamHead m h with
  | some (.release p) => applyStream (streamPop m h) h (.release p)
  | _ => m

/-- RELEASE_ACK (R200): the oldest release acknowledgment for slice `h`; the dirty gauge decrements. -/
def doReleaseAck (h : Fin 64) (m : Mach) : Mach :=
  match m.twin.relAcks.find? fun a => a.1 == h.val with
  | none => m
  | some _ =>
    let sd := h.val / 32
    let m := bridgeMsg { m with twin := { m.twin with relAcks := dropFirst (fun a => a.1 == h.val) m.twin.relAcks } } (1 - sd)
    forcedCheck (fset m (twnBase sd) R.TWN_GAUGE_LINES (fget m (twnBase sd) R.TWN_GAUGE_LINES - 1)) sd

/-- TWIN_LOOKUP (R393): the next message of slice `h`'s stream, when it is a lookup: its image, or none, mends the place. -/
def doTwinLookup (h : Fin 64) (m : Mach) : Mach :=
  match streamHead m h with
  | some (.lookup p w) => applyStream (streamDrop m h) h (.lookup p w)
  | _ => m

/-- TWIN_SEARCH (R394): the next message of slice `h`'s stream, when it is a search target: it joins the circular scan. -/
def doTwinSearch (h : Fin 64) (m : Mach) : Mach :=
  match streamHead m h with
  | some (.search g) => applyStream (streamDrop m h) h (.search g)
  | _ => m

/-- COMMIT (R198): the next message of slice `h`'s stream, when it is a commit. -/
def doCommit (h : Fin 64) (m : Mach) : Mach :=
  match streamHead m h with
  | some (.commit p) => applyStream (streamPop m h) h (.commit p)
  | _ => m

/-- CLEANER_SLOT (R202): while the cleaner of side `sd` runs, it reads the next slot in index order; a Dirty or Poisoned line goes to
the tailwater buffer and its slot becomes Clean or Invalid. It stays at a slot whose line the buffer cannot take yet (R124). -/
def doCleanerSlot (sd : Fin 2) (m : Mach) : Mach :=
  let b := twnBase sd
  if !(fon m b R.TWN_GAUGE_CLEANING) && !m.twin.entering && !(fon m b R.TWN_GAUGE_FORCED) then m
  else
    let i := sget 0 m.rsv.cleanPtr sd.val
    let m0 := m
    let m := { m with rsv := { m.rsv with cleanPtr := sset 0 m.rsv.cleanPtr sd.val ((i + 1) % 2 ^ 31) } }
    if !usable m sd i then m
    else match slotAt m sd i with
      | none => slotCmds m sd i 1
      | some s =>
        let pln := plnOf m sd (slotLine m sd i s)
        if s.st == .clean || takePending m sd pln then slotCmds m sd i 1
        else if repairHeld m pln || twMustWait m sd pln then m0
        else
          let m := twTake (count (slotCmds m sd i 2) b 0x08) sd pln ⟨s.data, s.st == .poisoned⟩ fullMask []
          setSlot m sd i (if s.st == .dirty then some { s with st := .clean } else none)

/-- TWIN_DRAIN_WRITE (R211): the draining side writes one twin copy to its sled; the copy frees on the acknowledgment. -/
def doTwinDrainWrite (sd : Fin 2) (m : Mach) : Mach :=
  let b := twnBase sd
  if fget m b R.TWN_LOG_STATE != 2 then m
  else
    let busy (pln : Nat) : Bool := (m.tw.any fun e => e.pln == pln) || (m.twIn.any fun e => e.pln == pln) ||
      (m.home.mshrs.any fun r => r.pln == pln)
    let st := m.twin.staged.filter fun s => s.sd == sd.val && !s.pending && !busy s.pln
    match st with
    | s :: _ => twQueue (count m b 0x0B) sd s.pln s.img fullMask [.drain sd] .other
    | [] =>
      match m.twin.recs.find? fun c => c.1 / (20132608 * 10) == sd.val && !busy c.2.pln &&
          !(m.twin.staged.any fun s => s.sd == sd.val && s.pln == c.2.pln) with
      | some c => twQueue (count m b 0x0B) sd c.2.pln c.2.img fullMask [.drain sd] .other
      | none => if stagedOn m sd + recsOn m sd == 0 then fset m b R.TWN_LOG_STATE 0 else m

/-- What a finished sled write completes at the home: its writers, a register, a way that becomes clean, a drained twin copy. -/
def homeDone (m : Mach) (x : Nat × Nat × TwDone) : Mach :=
  match x with
  | (_, _, .none) => m
  | (_, _, .writer q res) => fin m q none none res
  | (_, _, .lostWriter q) => complete m { src := q.src, pln := q.pln, img := none, grant := none, result := 0, how := .lost, rights := q.rights }
  | (_, pln, .mshr h) => match mshrOf m h pln with
    | some r => if r.phase == .sledWrite then pumpAll (mshrPut m { r with phase := .full }) h pln else m
    | none => m
  | (_, pln, .cleanWay h img) =>
    let m := match mshrOf m h pln with
      | some r => if r.buf == some img then mshrPut m { r with dirty := false } else m
      | none => m
    match hgFind m h pln with
    | some (w, l) =>
      if heldImg m h pln == some img then
        { m with home := { m.home with hg := mput m.home.hg (hgKey h (hgSet (lineL pln)) w) { l with d := false } } }
      else m
    | none => m
  | (_, pln, .drain t) => drainFree m t pln

end Sys2Proof.Machine
end

