-- ==== Sys2Proof/Machine/PortOps.lean ====
section
/-! DEFINITION. What a port tile does for any port: roles, interrupts, decoding (R40 to R46, R50), the transaction table (R377,
R378), MEM port states (R56 to R59) and link loss (R381 to R384). -/

namespace Sys2Proof.Machine

/-- Is the link in L0 (PT_LINK.STATE Up)? -/
def linkUp (m : Mach) (p : Nat) : Bool := fget m (ptBase p) R.PT_LINK_STATE == 3

/-- A HOST port's configuration state. -/
def cfgOf (m : Mach) (p : Nat) : HostCfg := sget HostCfg.reset m.ports.cfg p

/-- Writes it. -/
def cfgSet (m : Mach) (p : Nat) (c : HostCfg) : Mach :=
  { m with ports := { m.ports with cfg := sset HostCfg.reset m.ports.cfg p c } }

/-- R364: vector `v` falls due. -/
def msix (m : Mach) (p v : Nat) : Mach :=
  let c := cfgOf m p
  if c.fmask || bitOf c.vmask v then cfgSet m p { c with vpend := setBit c.vpend v true } else send m (.msix p v)

/-- Transaction table entries of a port in use: partners' requests on a HOST or IO port, sled requests on a MEM port (R377, R380). -/
def pttUsed (m : Mach) (p : Nat) : Nat :=
  (m.ports.ptt.filter fun t => t.port == p).length + min 2048 (m.ports.sleds.filter fun s => s.port == p).length

/-- Entries that hold write data (PT_PTT.WRHELD). -/
def pttWrites (m : Mach) (p : Nat) : Nat :=
  (m.ports.ptt.filter fun t => t.port == p && match t.req.op with
    | .host c => c.isWrite
    | .ioWrite => true
    | _ => false).length +
  min 2048 (m.ports.sleds.filter fun s => s.port == p && match s.what with
    | .fill _ _ _ => false
    | .flumeRead _ _ => false
    | _ => true).length

/-- R378: does the tile return request credits? -/
def credits (m : Mach) (p : Nat) : Bool := pttUsed m p + 64 ≤ 2048

/-- R362: DevLoad of a HOST port, from PT_PTT.USED as it stands when the response is sent, its own entry already free (DESIGN CHOICE, entry 111). -/
def devLoad (m : Mach) (p : Nat) : DevLoad :=
  let n := pttUsed m p
  if !credits m p then .severe else if 1792 ≤ n then .moderate else if 1024 ≤ n then .optimal else .light

/-- S2M NDR and DRS messages with their DevLoad (R362). -/
def sendNdr (m : Mach) (p : Nat) (k : Ndr) (tag : Nat) : Mach := send m (.ndr p k tag (devLoad m p))
def sendDrs (m : Mach) (p tag : Nat) (img : Img) : Mach := send m (.drs p tag img (devLoad m p))

/-- The answer to an access that is refused or has no data to give: poisoned zero data where the class asks for data, and Cmp (Table 3-8). -/
def sendNothing (m : Mach) (p tag : Nat) (wants : Bool) : Mach :=
  sendNdr (if wants then sendDrs m p tag ⟨0, true⟩ else m) p .cmp tag

/-- R163, R165, R363, R372, R378: does the tile take CXL.mem requests of the port? -/
def takesMem (m : Mach) (p : Nat) : Bool :=
  roleOf m p == 1 && linkUp m p && (cfgOf m p).biEn && !m.home.lostSweeps.contains p && credits m p &&
  (!fon m (ptBase p) R.PT_IDE_REQ || fon m (ptBase p) R.PT_LINK_IDE)

/-- State of view extent `e` (Table 3-3): 0 Free, 1 Offered, 2 Accepted, 3 Releasing. -/
def extState (m : Mach) (p e : Nat) : Nat := fget m (ptBase p + 16 * e) R.PT_VEXT_B_STATE
def extDpa (m : Mach) (p e : Nat) : Nat := fget m (ptBase p + 16 * e) R.PT_VEXT_A_DPA_PLOT
def extLen (m : Mach) (p e : Nat) : Nat := fget m (ptBase p + 16 * e) R.PT_VEXT_A_LENM1 + 1
def extPool (m : Mach) (p e : Nat) : Nat := fget m (ptBase p + 16 * e) R.PT_VEXT_B_POOL_PLOT

/-- A checked access: the pool line, or the KIND of its refusal (Table 3-9). -/
inductive Decoded where
  | line (pln : Nat)
  | viol (kind : Nat)
deriving DecidableEq, Repr

/-- R50: is the pool line covered by a valid region that permits the port? -/
def regionCheck (m : Mach) (p pln : Nat) : Decoded :=
  match regionOf m (plotOf pln) with
  | none => .viol 5
  | some r => if bitOf r.2.attr.ports p then .line pln else .viol 6

/-- R41, R43: a host line address (HPA in units of 64 bytes) through the decoders and the view. -/
def hostLine (m : Mach) (p hpa : Nat) : Decoded :=
  let decs := (List.range 8).filterMap fun d => mget m.comp.hdm (p * 8 + d)
  match decs.find? fun d => d.committed && d.base * 2 ^ 22 ≤ hpa && hpa < (d.base + d.size) * 2 ^ 22 with
  | none => .viol 1
  | some d =>
    let dpa := hpa - d.base * 2 ^ 22 + d.dpa * 2 ^ 22
    match (List.range 64).find? fun e => 2 ≤ extState m p e && extDpa m p e * 32768 ≤ dpa &&
        dpa < (extDpa m p e + extLen m p e) * 32768 with
    | none => .viol 2
    | some e => .line (extPool m p e * 32768 + (dpa - extDpa m p e * 32768))

/-- R50: a host line address with the region check. -/
def hostDecode (m : Mach) (p hpa : Nat) : Decoded :=
  match hostLine m p hpa with
  | .line pln => regionCheck m p pln
  | .viol k => .viol k

/-- Is a back-invalidate of the line to the port open at its tile? -/
def snoopOpen (m : Mach) (p pln : Nat) : Bool := m.ports.snps.any fun s => s.port == p && s.pln == pln && !s.fenced && s.sent

/-- What a host request meets at its tile (R50); a write that is the data of an open snoop is taken home also where the region no longer
permits the port (R61, Table 3-13). -/
def hostReach (m : Mach) (p hpa : Nat) (write : Bool) : Decoded :=
  match hostDecode m p hpa with
  | .line pln => .line pln
  | .viol k => match hostLine m p hpa with
    | .line pln => if write && snoopOpen m p pln then .line pln else .viol k
    | .viol _ => .viol k

/-- The DPA byte address of a pool line in a port's Accepted or Releasing extents, when one holds it. -/
def dpaOf (m : Mach) (p pln : Nat) : Option Nat :=
  ((List.range 64).find? fun e => 2 ≤ extState m p e && extPool m p e * 32768 ≤ pln &&
    pln < (extPool m p e + extLen m p e) * 32768).map fun e => (extDpa m p e * 32768 + (pln - extPool m p e * 32768)) * 64

/-- Do the tiles hold new requests of the line: for a side that is stopping (R216) or a slice pair in handback (R218)? -/
def tileHolds (m : Mach) (pln : Nat) : Bool :=
  m.twin.stopping == some (servingSide m pln) || m.twin.holding == some (sliceIn m (lineL pln))

/-- R339: is the entry a host's write whose line has an open back-invalidate to the port: that snoop's data? -/
def Ptt.isSnoopData (t : Ptt) (m : Mach) : Bool := snoopOpen m t.port t.req.pln && match t.req.op with
  | .host c => c.isWrite
  | _ => false

/-- R339: a request leaves the tile for its home; a write whose line has an open back-invalidate to the port is its data. -/
def toHome (m : Mach) (t : Ptt) : Mach :=
  let h := homeSlice m t.req.pln
  let sent (x : Ptt) : Ptt := if x.id == t.id then { x with held := false } else x
  let m := { m with ports := { m.ports with ptt := m.ports.ptt.map sent } }
  if t.isSnoopData m then
    { m with home := { m.home with snpData := m.home.snpData ++ [(h, t.req)] } }
  else { m with home := { m.home with reqQ := m.home.reqQ ++ [(h, t.req)] } }

/-- Is the entry a non-posted request of an IO port? -/
def Ptt.nonPosted (t : Ptt) : Bool := !t.posted && match t.req.src with
  | .io _ _ => true
  | _ => false

/-- R175: may a later request pass an earlier posted write of its port? RO and IDO are the attributes as honoured at reception. -/
def mayPass (later earlier : Ptt) : Bool := (later.posted && later.ro) || (later.ido && later.rid != earlier.rid)

/-- Posted writes before entry `t` of its port, not released, that it may not pass (R176, R177). -/
def blockedBy (ptt : List Ptt) (t : Ptt) : Bool :=
  (ptt.takeWhile fun x => x.id != t.id).any fun x => x.port == t.port && x.posted && !x.released && !mayPass t x

/-- Has the port an earlier non-posted request whose data or result has not come back? -/
def afterNonPosted (ptt : List Ptt) (t : Ptt) : Bool :=
  (ptt.takeWhile fun x => x.id != t.id).any fun x => x.port == t.port && x.nonPosted && x.got.isNone

/-- May a held entry go to its home now? Snoop data goes at once (R339). A posted write goes only when the earlier non-posted requests of its port
have been answered: R175 lists no case in which it may become visible before one (DEDUCED, entry 100). -/
def maySend (m : Mach) (t : Ptt) : Bool :=
  t.held && (t.isSnoopData m || (!tileHolds m t.req.pln && !(t.nonPosted && blockedBy m.ports.ptt t) &&
    !(t.posted && afterNonPosted m.ports.ptt t)))

/-- Sends every held request that may go, in arrival order. -/
def sendHeld (m : Mach) : Mach :=
  m.ports.ptt.foldl (fun m t => if maySend m t then toHome m t else m) m

/-- Takes a transaction table entry for a request of address `ask` (R377), which `sendHeld` sends when it may go. -/
def pttTake (m : Mach) (p tag : Nat) (op : Op) (io : Bool) (pln : Nat) (data : Line) (mask : Mask) (poison posted ro ido : Bool)
    (rid off len ask : Nat) : Mach :=
  let id := m.nextId
  let q : Req := { op := op, src := if io then .io p id else .host p id, pln := pln, data := data, mask := mask, poison := poison
                   attr := some (attrOf m pln) }
  { m with nextId := id + 1
           ports := { m.ports with ptt := m.ports.ptt ++ [
             { id := id, port := p, tag := tag, req := q, held := true, posted := posted, prepared := false, released := false
               ro := ro, ido := ido, rid := rid, notice := none, off := off, len := len, got := none, dead := false, ask := ask }] } }

/-- Frees an entry. -/
def pttFree (m : Mach) (id : Nat) : Mach :=
  { m with ports := { m.ports with ptt := m.ports.ptt.filter fun t => t.id != id } }

/-- Placement locations that name a MEM port (PT_MEMCTL.PLOTS). -/
def plotsOf (m : Mach) (p : Nat) : Nat :=
  let sd := if sideUp m 0 || !sideUp m 1 then 0 else 1
  (m.comp.plc.map fun c =>
    if c.1 / 2 ^ 27 == sd && plcV c.2 then b2n ((plcLoc1 c.2).1 == p) + b2n (plcM2 c.2 && (plcLoc2 c.2).1 == p) else 0).sum

/-- A change of a MEM port's state posts one event of class 0x03 (R56). -/
def memSet (m : Mach) (p st : Nat) : Mach :=
  if memState m p == st then m else notice (fset m (ptBase p) R.PT_MEMCTL_STATE st) 3 p st

/-- R380: the tile sends every held request of an Up port in its original order, as far as entries are free. -/
def reissue (m : Mach) (p : Nat) : Mach :=
  m.ports.sleds.foldl (fun m s => if s.port == p && !s.sent && sledRoom m p then sledSend m s else m) m

/-- Sled requests that found no entry free go when one has come free. -/
def sledsGo (m : Mach) : Mach :=
  ((m.ports.sleds.filter fun s => !s.sent).map fun s => s.port).eraseDups.foldl reissue m

/-- A Waiting MEM port whose link is trained and whose required IDE is active becomes Up (R56, R372). -/
def memReady (m : Mach) (p : Nat) : Mach :=
  let b := ptBase p
  if roleOf m p == 2 && memState m p == 1 && linkUp m p && (!fon m b R.PT_IDE_REQ || fon m b R.PT_LINK_IDE) then
    let m := { m with ports := { m.ports with lossWait := m.ports.lossWait.filter fun x => x != p } }
    reissue (memSet m p 0) p
  else m

/-- R59: a sled request of a port that became Lost settles. -/
def settleSled (m : Mach) (s : SledReq) : Mach :=
  match s.what with
  | .fill h pln _ => match mshrOf m h pln with
    | some r => if r.phase == .sled && !s.fenced then sledFill m r else m
    | none => m
  | .flumeRead c k => complete m ⟨.flume c k, 0, none, none, 0, .lost, none⟩
  | .flumeWrite c k => complete m ⟨.flume c k, 0, none, none, 0, .lost, none⟩
  | _ => m

/-- R59: a tailwater entry with a location on a port that became Lost: the other location completes it, or its data is lost. -/
def settleTail (m : Mach) (p : Nat) (e : TwEnt) : Mach :=
  if !e.locs.any (fun l => l.1 == p) then m
  else
    let locs := e.locs.filter fun l => l.1 != p
    let left := e.left.filter fun x => x != p
    let drop (m : Mach) : Mach := { m with tw := dropFirst (fun x => x == e) m.tw }
    let put (m : Mach) (e' : TwEnt) : Mach := { m with tw := mapFirst (fun x => x == e) (fun _ => e') m.tw }
    match e.st with
    | .issued =>
      if locs.isEmpty then
        let e' := { e with done := e.done.map TwDone.lose, left := [] }
        twFree (noteUcc (slotStale (put m e') e.sd e.pln e.mask) e.pln) e'
      else
        let e' := { e with left := left }
        if left.isEmpty then twFree (put m e') e' else put m e'
    | .waiting =>
      if locs.isEmpty then twDrop (drop m) e.sd e.pln e.mask e.done else put m { e with locs := locs }
    | .held => m

/-- A MEM port becomes Lost (R56, R59): held requests go to the second location or end with poison, and tailwater entries settle. -/
def memLose (m : Mach) (p : Nat) : Mach :=
  if memState m p == 2 then m
  else
    let m := memSet { m with ports := { m.ports with lossWait := m.ports.lossWait.filter fun x => x != p } } p 2
    let mine := m.ports.sleds.filter fun s => s.port == p
    let m := { m with ports := { m.ports with sleds := m.ports.sleds.filter fun s => s.port != p } }
    let m := m.tw.foldl (fun m e => settleTail m p e) m
    mine.foldl settleSled m

/-- Every register of a port's reset domain takes its reset value (R381, R413); PRESENT and PERST show live pins. -/
def portRegsReset (m : Mach) (p : Nat) : Mach :=
  let offs := (R.ptRegs.filter fun r => r.dom == .port).map fun r => r.off
  let hit (o : Nat) : Bool := offs.contains o || decide (o < 0x18) || (decide (0x200 ≤ o) && decide (o < 0x240))
  let b := ptBase p
  let a (k : Nat) : Nat := k / 64 * 8
  let m := marksBegin (fun x => x == b + R.PT_PTTMARK_MARK.off) m
  { m with regs := m.regs.filter (fun c => !(decide (b ≤ a c.1) && decide (a c.1 < b + 0x3000) && hit (a c.1 - b)) ||
                       c.1 == fkey b R.PT_LINK_PRESENT || c.1 == fkey b R.PT_LINK_PERST)
           cnts := m.cnts.filter fun c => c.1 / 8 != b }

/-- R265: descriptors not yet taken are discarded, and the results of running calls are dropped when they come. -/
def queuesDown (m : Mach) (p : Nat) : Mach :=
  let q := m.ports.queues
  let calls := q.calls.map fun c => if c.from_ == .host p then { c with gone := true } else c
  { m with ports := { m.ports with queues := { q with commits := q.commits.filter (fun k => k / 64 != p), calls := calls } } }

/-- R265: port start leaves every slot empty and expecting PHASE 1, 64 credits granted and the result queue clear. -/
def queuesStart (m : Mach) (p : Nat) : Mach :=
  let m := queuesDown m p
  let q := m.ports.queues
  let m := fset m (ptBase p) R.PT_CMDQ_CRED_CRED 0
  let q := { q with laps := mdrop q.laps (fun k => k / 64 == p), taken := mdel q.taken p, popped := mdel q.popped p }
  let q := { q with words := mdrop q.words (fun k => k / 512 == p), results := q.results.filter (fun r => r.1 != p) }
  { m with ports := { m.ports with queues := q } }

/-- R381: a HOST port's conventional reset: lost under R163, port-domain registers and CXL configuration state reset. -/
def hostReset (m : Mach) (p : Nat) : Mach :=
  let m := portRegsReset (queuesDown (losePort m p) p) p
  let m := cfgSet m p HostCfg.reset
  { m with comp := { m.comp with hdm := mdrop m.comp.hdm fun k => k / 8 == p } }

/-- R190, Table 14-9: an IO port's link goes down: posted writes go on to be performed, non-posted requests are discarded. -/
def ioDown (m : Mach) (p : Nat) : Mach :=
  let keep (t : Ptt) : Bool := t.port != p || t.posted || !t.held
  { m with ports := { m.ports with ptt := (m.ports.ptt.filter keep).map fun t => { t with dead := t.dead || t.port == p } } }

/-- R380: a MEM port's link goes down: its requests are held; from Up it becomes Waiting with LOSS_WAIT running (R56). -/
def memDown (m : Mach) (p : Nat) : Mach :=
  let sleds := (m.ports.sleds.filter fun s => !(s.port == p && s.fenced)).map fun s => if s.port == p then { s with sent := false } else s
  let m := { m with ports := { m.ports with sleds := sleds } }
  if memState m p == 0 then memSet { m with ports := { m.ports with lossWait := m.ports.lossWait ++ [p] } } p 1 else m

/-- A link goes down (R384, Table 14-9): `st` is the link state it enters. -/
def linkDown (m : Mach) (p st : Nat) : Mach :=
  let b := ptBase p
  let m := match roleOf m p with
    | 1 => hostReset m p
    | 2 => memDown m p
    | 3 => ioDown m p
    | _ => m
  let m := finc (fset m b R.PT_LINK_STATE st) b R.PT_LINK_DOWNS
  let m := fset (fset (fset (fset m b R.PT_LINK_RATE 0) b R.PT_LINK_WIDTH 0) b R.PT_LINK_FLIT 0) b R.PT_LINK_IDE 0
  let m := if fget m b R.PT_IDE_STATE == 3 then m else fset m b R.PT_IDE_STATE 0
  err (fset m b R.PT_LEV_LDOWN 1) (errOf 1 0 0x03 p)

/-- PERST# of a port changes (PT_LINK.PERST, PT_LEV.PERSTCHG); a tile drives it on MEM and IO ports (R382). -/
def perstSet (m : Mach) (p : Nat) (low : Bool) : Mach :=
  let b := ptBase p
  if fon m b R.PT_LINK_PERST == low then m
  else
    let m := fset (fset m b R.PT_LINK_PERST (b2n low)) b R.PT_LEV_PERSTCHG 1
    if 2 ≤ roleOf m p then send m (.perst p low) else m

/-- R382: the tile starts a PERST# pulse of PERST_MS on a MEM or IO port. -/
def pulseStart (m : Mach) (p : Nat) : Mach :=
  let m := fset (perstSet m p true) (ptBase p) R.PT_LINK_STATE 5
  { m with ports := { m.ports with pulses := p :: m.ports.pulses.filter fun x => x != p } }

/-- May the port's link be used at all: its tile is powered and has not tripped, it is not disabled, and the module is not in Recovery mode
(R17, R382, Table 17-6)? -/
def portAble (m : Mach) (p : Nat) : Bool :=
  domSt m (2 + p / 8) == 2 && !m.pwr.tileTrip.contains (p / 8) && !fon m (ptBase p) R.PT_LCTL_DIS && opMode m != 4

/-- Training begins (R374). -/
def trainStart (m : Mach) (p : Nat) : Mach :=
  if portAble m p then send (fset m (ptBase p) R.PT_LINK_STATE 1) (.train p) else fset m (ptBase p) R.PT_LINK_STATE 0

end Sys2Proof.Machine
end

