-- ==== Sys2Proof/Machine/NocCmd.lean ====
section
/-! DEFINITION. The on-chip network: packets at gateways, probes and tracing, and route changes (chapter 13). -/

namespace Sys2Proof.Machine

/-- Fields of a packet header (Table 13-4). -/
def hdrVn (h : Nat) : Nat := bitsOf h 0 3
def hdrSSide (h : Nat) : Nat := bitsOf h 21 1
def hdrSSite (h : Nat) : Nat := bitsOf h 22 6
def hdrWake (h : Nat) : Bool := bitOf h 56
def hdrDetour (h : Nat) : Bool := bitOf h 58
def hdrAddr (h : Nat) : Nat := bitsOf h 64 48

/-- Routers from the one to which a site attaches up to the root (R340). -/
def climb : Nat → Nat → List Nat
  | 0, _ => []
  | n + 1, r => r :: (if r == 0 then [] else climb n ((r - 1) / 2))

/-- The routers above a site. -/
def above (site : Nat) : List Nat := climb 6 (31 + site / 2)

/-- A pass of a packet through a port of a router: router, port (0 parent or bridge, 1 and 2 the children), and outbound or inbound. -/
structure Hop where
  side : Nat
  rtr : Nat
  port : Nat
  out : Bool
deriving DecidableEq, Repr

/-- Number of the child port of router `p` that leads to router `c`. -/
def childPort (c : Nat) : Nat := if c % 2 == 1 then 1 else 2

/-- The passes of a climb: into each router from below, and out of it upwards. -/
def hopsUp (sd : Nat) : Nat → List Nat → List Hop
  | _, [] => []
  | from_, r :: rs => ⟨sd, r, from_, false⟩ :: (if rs.isEmpty then [] else ⟨sd, r, 0, true⟩ :: hopsUp sd (childPort r) rs)

/-- The passes of a descent from the last router of a list of routers above a site. -/
def hopsDown (sd : Nat) : Nat → List Nat → List Hop
  | _, [] => []
  | dst, r :: rs => (if rs.isEmpty then [] else hopsDown sd (childPort r) rs ++ [⟨sd, r, 0, false⟩]) ++ [⟨sd, r, dst, true⟩]

/-- The routers of `a` up to the first that `b` has too. -/
def upTo (a b : List Nat) : List Nat :=
  a.takeWhile (fun r => !b.contains r) ++ (a.dropWhile fun r => !b.contains r).take 1

/-- Source side of a packet that reaches a gateway of side `sd` (R342, R348): a tile sends for a side through its uplink into it, or
when the packet detours through the other. -/
def srcSide (sd hdr : Nat) : Nat :=
  let s := hdrSSite hdr
  if 36 ≤ s && s < 40 then (if hdrDetour hdr then 1 - sd else sd) else hdrSSide hdr

/-- The passes of a packet on its way to a site (R342). Site s lies on child port 1 + s mod 2 of its router. -/
def route (sd site hdr : Nat) : List Hop :=
  let s := hdrSSite hdr
  let ss := srcSide sd hdr
  let a := above s
  let b := above site
  if ss == sd then hopsUp sd (1 + s % 2) (upTo a b) ++ (hopsDown sd (1 + site % 2) (upTo b a)).drop 0
  else hopsUp ss (1 + s % 2) a ++ [⟨ss, 0, 0, true⟩, ⟨sd, 0, 0, false⟩] ++ hopsDown sd (1 + site % 2) b

/-- Does probe `k` of side `sd` watch one of the passes (R351)? Router number 7 is the root's bridge link. -/
def probeSees (m : Mach) (sd k net hdr : Nat) (hops : List Hop) : Bool :=
  let b := nocBase sd + 0x20 * k
  let rtr := fget m b R.NOC_PRBCTL_RTR
  let rtr := if rtr == 7 then 0 else rtr
  let port := fget m b R.NOC_PRBCTL_PORT
  let mask := fget m b R.NOC_PRBMASK_MASK
  let plot := hdrAddr hdr / 2 ^ 21
  fon m b R.NOC_PRBCTL_EN && fget m b R.NOC_PRBCTL_NET == net &&
  hops.any (fun x => x.side == sd && x.rtr == rtr && x.port == port && x.out == fon m b R.NOC_PRBCTL_DIR) &&
  bitOf (fget m b R.NOC_PRBCTL_VNMASK) (hdrVn hdr) &&
  (hdr % 2 ^ 64) &&& mask == fget m b R.NOC_PRBMATCH_MATCH &&& mask &&
  (!fon m b R.NOC_PRBCTL_ADREN || (fget m b R.NOC_PRBADDR_LO ≤ plot && plot ≤ fget m b R.NOC_PRBADDR_HI))

/-- Trace records of a side. -/
def traceOf (m : Mach) (sd : Nat) : List (List Nat) := (m.net.trace.filter fun t => t.1 == sd).map fun t => t.2

/-- Captures a match in the trace buffer (R352). The cycle of capture is an open value. -/
def traceCapture (m : Mach) (sd k net hdr d0 : Nat) : Mach :=
  let b := nocBase sd
  if !fon m b R.NOC_TRCTL_EN then m
  else
    let lost (m : Mach) : Mach := fsat (count m b 0x0F) b R.NOC_TRSTAT_LOST
    let full := 1024 ≤ (traceOf m sd).length
    if full && !fon m b R.NOC_TRCTL_MODE then lost m
    else
      let m := if full then lost { m with net := { m.net with trace := dropFirst (fun t => t.1 == sd) m.net.trace } } else m
      let seq := sget 0 m.net.tseq sd
      let t := drawn m % 2 ^ 40
      let d := if fon m b R.NOC_TRCTL_DATA && net == 3 then d0 else 0
      let rec_ := [hdr % 2 ^ 64, hdr / 2 ^ 64 % 2 ^ 64, t + k * 2 ^ 40 + seq * 2 ^ 43 + 2 ^ 63, d]
      let m := draw (count m b 0x0E)
      { m with net := { m.net with trace := m.net.trace ++ [(sd, rec_)], tseq := sset 0 m.net.tseq sd ((seq + 1) % 65536) } }

/-- A packet passes the probes of a side on its way. -/
def probes (m : Mach) (sd net hdr d0 : Nat) (hops : List Hop) : Mach :=
  (List.range 8).foldl (fun m k =>
    if probeSees m sd k net hdr hops then
      let m := count m (nocBase sd) (0x10 + k)
      if fon m (nocBase sd + 0x20 * k) R.NOC_PRBCTL_TRACE then traceCapture m sd k net hdr d0 else m
    else m) m

/-- What a packet's passage counts (Table 13-11). -/
def passCount (m : Mach) (hops : List Hop) : Mach :=
  (List.range 2).foldl (fun m sd =>
    let b := nocBase sd
    let mine := hops.filter fun x => x.side == sd && x.rtr == 0
    let m := if mine.isEmpty then m else count m b 0x01
    let m := if mine.any (fun x => x.port == 0 && x.out) then count m b 0x02 else m
    if mine.any (fun x => x.port == 0 && !x.out) then count m b 0x03 else m) m

/-- A packet waits at a gateway (R347). -/
def gwHold (m : Mach) (p : Packet) : Mach :=
  let m := count { m with net := { m.net with held := m.net.held ++ [p] } } (nocBase p.sd) 0x04
  fset m (gwBase p.sd p.site) R.NOC_GW_HELD (gwHeld m p.sd p.site)

/-- A packet is discarded and counted; `rec_` writes the error record of Table 13-5. -/
def gwDiscard (m : Mach) (p : Packet) (rec_ : Bool) : Mach :=
  let m := fsat (count m (nocBase p.sd) 0x07) (gwBase p.sd p.site) R.NOC_GW_DISCARDS
  if rec_ then err m { errOf 1 0 0x15 p.sd with addr := hdrAddr p.hdr } else m

/-- Domain of a site on side `sd`. -/
def siteDom (sd site : Nat) : Option Nat := (List.range 26).find? fun d => (sitesOf sd d).contains site

/-- A packet reaches the gateway of a site of side `sd` (R347, Table 13-5) and passes the probes on its way. -/
def gwArrive (sd : Fin 2) (site : Fin 64) (net : Fin 4) (hdr : BitVec 128) (d0 : Word) (m : Mach) : Mach :=
  let p : Packet := ⟨sd, site, net, hdr.toNat, d0.toNat⟩
  let hops := route sd site hdr.toNat
  let m := passCount m hops
  let m := probes (probes m 0 net hdr.toNat d0.toNat hops) 1 net hdr.toNat d0.toNat hops
  let g := gwBase sd site
  let ctl := net.val == 0 && hdrVn hdr.toNat == 2
  match gwState m sd site with
  | 0 => m
  | 1 =>
    let m := gwHold m p
    if hdrWake hdr.toNat then
      let m := fset m g R.NOC_GW_ABORT 1
      match siteDom sd site with
      | some d => fset m (8 * d) R.PWR_DOM_ABORT 1
      | none => m
    else m
  | 2 =>
    if ctl then noAnswer m (bitsOf hdr.toNat 64 32)
    else match siteDom sd site with
      | some d =>
        if hdrWake hdr.toNat && (d == 10 || d == 16) && domSt m d == 4 then
          let m := finc (count (gwPut (domPut m d 1) sd site 3) (nocBase sd) 0x05) g R.NOC_GW_WAKES
          gwHold m p
        else gwDiscard m p true
      | none => gwDiscard m p true
  | 3 => gwHold m p
  | 4 => if ctl then noAnswer m (bitsOf hdr.toNat 64 32) else gwDiscard m p false
  | _ => gwDiscard m p true

/-- The field of NOC_QCE that counts for a network. -/
def qceFld : Nat → Fld
  | 0 => R.NOC_QCE_REQ
  | 1 => R.NOC_QCE_SNP
  | 2 => R.NOC_QCE_RSP
  | _ => R.NOC_QCE_DAT

/-- What the checks of a packet of network `net` report is counted and recorded (R344; Table 15-1, STRUCT 0x10 and 0x11; Table 15-4, rows 13 and 31). -/
def netCheck (m : Mach) (sd net addr : Nat) (ck : NetCheck) : Mach :=
  let st := if net == 3 then 0x11 else 0x10
  match ck with
  | .good => m
  | .corrected r =>
    let m := fsat (count m (nocBase sd) 0x0C) (nocBase sd + 8 * r.val) (qceFld net)
    corrected m sd { errOf 0 st 0x15 sd with addr := addr } 0 0 false
  | .word =>
    if net == 3 then err m { errOf 1 0x11 0x15 sd with poisoned := true, action := 13, addr := addr }
    else failLater (err m { errOf 2 0x10 0x15 sd with action := 31 }) sd 2
  | .header => failLater (err m { errOf 2 0x10 0x15 sd with action := 31 }) sd 2

/-- GATEWAY_PACKET (R344, R347, Table 13-5): a packet of network `net` (0 REQ, 1 SNP, 2 RSP, 3 DAT) with header `hdr` and first data word `d0`
reaches the gateway of a site of side `sd`. One whose header is uncorrectable is not delivered. -/
def doGatewayPacket (sd : Fin 2) (site : Fin 64) (net : Fin 4) (hdr : BitVec 128) (d0 : Word) (ck : NetCheck) (m : Mach) : Mach :=
  let m := netCheck m sd net (hdrAddr hdr.toNat) ck
  if ck == .header || (ck == .word && net != 3) then m else gwArrive sd site net hdr d0 m

/-- Is tile `t`'s uplink into side `sd` trained? -/
def uplink (m : Mach) (sd t : Nat) : Bool := bitOf (fget m (nocBase sd) R.NOC_STATUS_UPLINK) t

/-- Sets it, with the tile's own status bit. -/
def uplinkPut (m : Mach) (sd t : Nat) (on : Bool) : Mach :=
  let m := fset m (nocBase sd) R.NOC_STATUS_UPLINK (setBit (fget m (nocBase sd) R.NOC_STATUS_UPLINK) t on)
  fset m (tlBase t) (if sd == 0 then R.TL_STATUS_UPA else R.TL_STATUS_UPB) (b2n on)

/-- A tile takes a detour for a side, or stops. -/
def detourPut (m : Mach) (sd t : Nat) (on : Bool) : Mach :=
  fset m (nocBase sd) R.NOC_STATUS_DETOUR (setBit (fget m (nocBase sd) R.NOC_STATUS_DETOUR) t on)

/-- Is a side running, so that routes through it exist? -/
def sideRuns (m : Mach) (sd : Nat) : Bool := domSt m (6 + 6 * sd) == 2

/-- A tile that reaches no side is cut off: its HOST ports are lost (Table 13-6, R163). -/
def cutOff (m : Mach) (t : Nat) : Mach :=
  if (uplink m 0 t && sideRuns m 0) || (uplink m 1 t && sideRuns m 1) then m
  else (List.range 8).foldl (fun m i => if roleOf m (8 * t + i) == 1 then losePort m (8 * t + i) else m) m

/-- UPLINK_FAIL (R348 to R350): tile `t`'s uplink into side `sd` fails; `bounced` packets are returned for rerouting and `again`, already
bounced once, are discarded. -/
def doUplinkFail (sd : Fin 2) (t : Fin 4) (bounced again : BitVec 8) (m : Mach) : Mach :=
  if !uplink m sd t then m
  else
    let b := nocBase sd
    let m := detourPut (uplinkPut m sd t false) sd t true
    let m := { m with net := { m.net with markers := m.net.markers.filter fun x => !(x.1 == sd.val && x.2.1 == t.val) } }
    let m := fsat (count m b 0x08 bounced.toNat) b R.NOC_STATUS_BOUNCES bounced.toNat
    let m := fsat (count m b 0x09 again.toNat) b R.NOC_STATUS_BDISC again.toNat
    let m := forN again.toNat (fun _ m => err m (errOf 1 0 0x15 sd)) m
    cutOff (count (finc m b R.NOC_STATUS_RECONF) b 0x0A) t

/-- The VNs of the four networks (Table 13-1), numbered from 0. -/
def allVns : List Nat := List.range 15

/-- UPLINK_RETURN (R349): the uplink is trained again; a route marker is sent on each VN along the detour. -/
def doUplinkReturn (sd : Fin 2) (t : Fin 4) (m : Mach) : Mach :=
  if uplink m sd t || !sideRuns m sd then m
  else
    let m := uplinkPut m sd t true
    if bitOf (fget m (nocBase sd) R.NOC_STATUS_DETOUR) t then
      { m with net := { m.net with markers := m.net.markers ++ allVns.map fun v => (sd.val, t.val, v) } }
    else m

/-- ROUTE_MARKER_ACK (R349): the direct route opens for a VN; with the last VN the route change is complete. -/
def doRouteMarkerAck (sd : Fin 2) (t : Fin 4) (vn : Fin 15) (m : Mach) : Mach :=
  if !m.net.markers.contains (sd.val, t.val, vn.val) then m
  else
    let rest := m.net.markers.filter fun x => x != (sd.val, t.val, vn.val)
    let m := { m with net := { m.net with markers := rest } }
    if rest.any fun x => x.1 == sd.val && x.2.1 == t.val then m
    else count (finc (detourPut m sd t false) (nocBase sd) R.NOC_STATUS_RECONF) (nocBase sd) 0x0A

/-- NOC_TRADV (R352). -/
def doNocTradv (sd : Fin 2) : Mach → Mach :=
  gated (nocBase sd + 0x930) 1 fun m => { m with net := { m.net with trace := dropFirst (fun t => t.1 == sd.val) m.net.trace } }

end Sys2Proof.Machine
end

