-- ==== Sys2Proof/Machine/HostMsg.lean ====
section
/-! DEFINITION. CXL.mem messages of hosts (R137, R149, R155 to R157, R508, Table 3-8) and what the tile answers when a home
completes a request. -/

namespace Sys2Proof.Machine

/-- Class of a MemRd (Table 6-6). -/
def Meta.rdCls : Sys2Proof.Meta → HostCls
  | .i => .rdCur
  | .s => .rdShared
  | .a => .rdOwn
  | .noOp => .rdCur

/-- Class of a MemInv or MemInvNT (Table 6-6). -/
def Meta.invCls : Sys2Proof.Meta → HostCls
  | .i => .release
  | .s => .share
  | .a => .own
  | .noOp => .touch

/-- Class of a MemWr or MemWrPtl (Table 6-6). -/
def Meta.wrCls : Sys2Proof.Meta → HostCls
  | .i => .wbInv
  | .s => .wbShared
  | .a => .wbKeep
  | .noOp => .wbNoOp

/-- Does the class ask for data? -/
def HostCls.wantsData : HostCls → Bool
  | .rdCur => true
  | .rdShared => true
  | .rdOwn => true
  | _ => false

/-- A host request arrives (R50, R377): it is decoded and checked, and goes to its home or is answered under Table 3-8. -/
def hostReq (p tag hpa : Nat) (c : HostCls) (data : Line) (mask : Mask) (poison : Bool) (m : Mach) : Mach :=
  if !takesMem m p then m
  else
    let m := count m (ptBase p) (if c.isWrite then 2 else 1)
    match hostReach m p hpa c.isWrite with
    | .line pln => sendHeld (pttTake m p tag (.host c) false pln data mask poison false false false 0 0 64 (hpa * 64))
    | .viol k =>
      let m := viol m p k (hpa * 64)
      sendNothing m p tag c.wantsData

/-- MEMRD (R149). -/
def doMemRd (p : Fin 32) (tag : BitVec 16) (hpa : BitVec 46) (mv : Sys2Proof.Meta) : Mach → Mach :=
  hostReq p tag.toNat hpa.toNat (Meta.rdCls mv) 0 0 false

/-- MEMINV (R149). -/
def doMemInv (p : Fin 32) (tag : BitVec 16) (hpa : BitVec 46) (mv : Sys2Proof.Meta) : Mach → Mach :=
  hostReq p tag.toNat hpa.toNat (Meta.invCls mv) 0 0 false

/-- MEMINVNT (R149): the non-temporal hint is not used. -/
def doMemInvNt (p : Fin 32) (tag : BitVec 16) (hpa : BitVec 46) (mv : Sys2Proof.Meta) : Mach → Mach :=
  hostReq p tag.toNat hpa.toNat (Meta.invCls mv) 0 0 false

/-- MEMSPECRD (Table 6-2): accepted; no action, whether or not it passes the checks. -/
def doMemSpecRd (_p : Fin 32) (_tag : BitVec 16) (_hpa : BitVec 46) (m : Mach) : Mach := m

/-- MEMWR (R149). -/
def doMemWr (p : Fin 32) (tag : BitVec 16) (hpa : BitVec 46) (mv : Sys2Proof.Meta) (data : Line) (poison : Bool) : Mach → Mach :=
  hostReq p tag.toNat hpa.toNat (Meta.wrCls mv) data fullMask poison

/-- MEMWRPTL (R149): merged under R81 by its byte mask. -/
def doMemWrPtl (p : Fin 32) (tag : BitVec 16) (hpa : BitVec 46) (mv : Sys2Proof.Meta) (data : Line) (mask : Mask)
    (poison : Bool) : Mach → Mach :=
  hostReq p tag.toNat hpa.toNat (Meta.wrCls mv) data mask poison

/-- A protocol error of the host's messages is also in the port's CXL RAS status (Table 14-10). -/
def rasProto (m : Mach) (p : Nat) : Mach := cfgSet (protoErr m p) p { cfgOf m p with rasCor := true }

/-- A response outside Table 6-17 makes the port lost (R508, Table 14-10); it counts as a protocol error (DEDUCED, entry 113). -/
def badRsp (m : Mach) (p pln : Nat) : Mach := losePort (cfgSet (protoErr m p) p { cfgOf m p with rasUnc := some pln }) p

/-- Does the host's side of the link reach the tile? -/
def hostLink (m : Mach) (p : Nat) : Bool := roleOf m p == 1 && linkUp m p

/-- Does snoop `k` accept the response that reports state `st` (Table 6-17)? -/
def permits (k : Snp) (st : Option DirSt) : Bool := match k, st with
  | .cur, some .e => true
  | .cur, some .s => true
  | .data, some .s => true
  | _, none => true
  | _, _ => false

/-- Closes an open snoop: the answer goes to the line's home (R155). -/
def snpClose (m : Mach) (s : OpenSnp) (st : Option DirSt) : Mach :=
  { m with ports := { m.ports with snps := dropFirst (fun x => x == s) m.ports.snps }
           home := { m.home with rspQ := m.home.rspQ ++ [⟨s.h, s.pln, s.port, st⟩] } }

/-- A per-line BIRsp (R166, R209, R508): it answers the oldest open snoop of the line to the port; an answer to a failed side's snoop is
discarded. -/
def biRsp (p pln : Nat) (st : Option DirSt) (m : Mach) : Mach :=
  if !hostLink m p then m
  else match m.ports.snps.find? fun s => s.port == p && s.pln == pln && s.sent with
    | some s =>
      if s.fenced then { m with ports := { m.ports with snps := dropFirst (fun x => x == s) m.ports.snps } }
      else if permits s.kind st then snpClose m s st
      else badRsp m p pln
    | none =>
      if m.ports.snps.any fun s => s.port == p && s.pln / 4 == pln / 4 && s.kind == .invBlk && !s.fenced then badRsp m p pln
      else rasProto m p

/-- BIRSPI, BIRSPS and BIRSPE (R508): the line is named by its pool line number. -/
def doBiRspI (p : Fin 32) (pln : BitVec 42) : Mach → Mach := biRsp p pln.toNat none
def doBiRspS (p : Fin 32) (pln : BitVec 42) : Mach → Mach := biRsp p pln.toNat (some .s)
def doBiRspE (p : Fin 32) (pln : BitVec 42) : Mach → Mach := biRsp p pln.toNat (some .e)

/-- The lines of an aligned group of four that a mask names. -/
def blkLines (grp : Nat) (mask : BitVec 4) : List Nat := ((List.range 4).filter fun i => bitOf mask.toNat i).map fun i => grp * 4 + i

/-- Open snoops of port `p` on the lines of a group, answered or not yet by a side that was fenced. -/
def blkOpen (m : Mach) (p grp : Nat) (fenced : Bool) : List OpenSnp :=
  m.ports.snps.filter fun s => s.port == p && s.pln / 4 == grp && s.fenced == fenced && s.sent

/-- BIRSPIBLK (R508, Table 6-17): the lines that the response names, each open in a BISnpInvBlk, close as BIRspI. -/
def doBiRspIBlk (p : Fin 32) (grp : BitVec 40) (lines : BitVec 4) (m : Mach) : Mach :=
  let g := grp.toNat
  if !hostLink m p then m
  else
    let named := blkLines g lines
    let old := (blkOpen m p g true).filter fun s => s.kind == .invBlk && named.contains s.pln
    if !old.isEmpty then { m with ports := { m.ports with snps := m.ports.snps.filter fun s => !old.contains s } }
    else if (blkOpen m p g false).isEmpty then
      if (blkOpen m p g true).isEmpty then rasProto m p
      else { m with ports := { m.ports with snps := m.ports.snps.filter fun s => !(s.port == p.val && s.pln / 4 == g && s.fenced) } }
    else
      let open_ := (blkOpen m p g false).filter fun s => s.kind == .invBlk && named.contains s.pln
      if named.isEmpty || open_.length != named.length then badRsp m p (g * 4)
      else open_.foldl (fun m s => snpClose m s none) m

/-- A block response that no snoop accepts (R508). -/
def badBlk (p : Fin 32) (grp : BitVec 40) (m : Mach) : Mach :=
  let g := grp.toNat
  if !hostLink m p then m
  else if !(blkOpen m p g true).isEmpty then
    { m with ports := { m.ports with snps := m.ports.snps.filter fun s => !(s.port == p.val && s.pln / 4 == g && s.fenced) } }
  else if !(blkOpen m p g false).isEmpty then badRsp m p (g * 4)
  else rasProto m p

/-- BIRSPSBLK and BIRSPEBLK (R508). -/
def doBiRspSBlk (p : Fin 32) (grp : BitVec 40) : Mach → Mach := badBlk p grp
def doBiRspEBlk (p : Fin 32) (grp : BitVec 40) : Mach → Mach := badBlk p grp

/-- BICONFLICT (R157, R379): the acknowledgment follows every NDR already sent for the line; without an open snoop it is a
protocol error. -/
def doBiConflict (p : Fin 32) (pln : BitVec 42) (m : Mach) : Mach :=
  if !hostLink m p then m
  else
    let m := count m (ptBase p) 0x05
    match m.ports.snps.find? fun s => s.port == p.val && s.pln == pln.toNat && s.sent with
    | some s => sendNdr (if s.fenced then m else count m (hsBase s.h) 0x3C) p .biConflictAck pln.toNat
    | none => rasProto m p

/-- Is the mirror update of a grant to port `p` still unacknowledged (R148)? -/
def grantOpen (m : Mach) (p pln : Nat) : Bool :=
  m.twin.mirAcks.contains (p, pln) || m.twin.stream.any fun x => match x.2 with
    | .mirror _ _ (some g) => g == (p, pln)
    | _ => false

/-- A completion that gives its host rights leaves a grant record while the mirror update is unacknowledged (R148). -/
def grantHold (m : Mach) (p : Nat) (d : Done) : Mach := match d.rights with
  | some st => if grantOpen m p d.pln then { m with ports := { m.ports with grants := m.ports.grants ++ [⟨p, d.pln, st⟩] } } else m
  | none => m

/-- Must the completion wait for a grant record's place (R148)? -/
def grantFull (m : Mach) (p : Nat) (d : Done) : Bool :=
  d.rights.isSome && grantOpen m p d.pln && 256 ≤ (m.ports.grants.filter fun g => g.port == p).length

/-- NDR opcode that a granted state is sent with. -/
def grantNdr : Option DirSt → Ndr
  | some .s => .cmpS
  | some .o => .cmpS
  | some _ => .cmpE
  | none => .cmp

/-- A home's completion reaches a HOST tile (R148, R377, Tables 3-8, 14-8, 14-10). -/
def hostDone (m : Mach) (p id : Nat) (d : Done) : Mach :=
  match m.ports.ptt.find? fun t => t.id == id with
  | none => m
  | some t =>
    if t.dead then pttFree m id
    else
      let tag := t.tag
      let wants := match t.req.op with
        | .host c => c.wantsData
        | _ => false
      match d.how with
      | .refused =>
        let m := viol (pttFree m id) p 5 t.ask
        sendNothing m p tag wants
      | .lost =>
        let m := sendNdr (grantHold (pttFree m id) p d) p .cmp tag
        match dpaOf m p t.req.pln with
        | some a => msix (cfgSet m p { cfgOf m p with failLog := (cfgOf m p).failLog ++ [a] }) p 2
        | none => m
      | .ok =>
        if grantFull m p d then { m with ports := { m.ports with heldRsp := m.ports.heldRsp ++ [d] } }
        else
          let m := grantHold (pttFree m id) p d
          match wants, d.img with
          | true, some img => sendNdr (sendDrs (count m (ptBase p) 0x03) p tag img) p (grantNdr d.grant) tag
          | _, _ => sendNdr m p (grantNdr d.grant) tag

end Sys2Proof.Machine
end

