-- ==== Sys2Proof/Machine/HostBox.lean ====
section
/-! DEFINITION. What a HOST port offers beside CXL.mem: HDM decoders (R40), configuration and DOE (R361, R371), the memory-device
mailbox (R363), dynamic capacity (R43), MSI-X (R364), and the command and result queues (R262 to R268). -/

namespace Sys2Proof.Machine

/-- HDM_DECODER_COMMIT (R40): base, size and DPA base in units of 256 MiB. It fails for an option outside Table 3-1, an overlap, a
break of the order by number, or BI Enable at 0, and for nothing else; a decoder that is locked stays committed as it is. -/
def doHdmDecoderCommit (p : Fin 32) (d : Fin 8) (base size dpa : BitVec 36) (ways : BitVec 4) (lock other : Bool) (m : Mach) : Mach :=
  if !hostLink m p then m
  else
    let decs := (List.range 8).filterMap fun k => if k == d.val then none else
      (mget m.comp.hdm (p.val * 8 + k)).bind fun x => if x.committed then some (k, x) else none
    let overlaps (a n b k : Nat) : Bool := n != 0 && k != 0 && a < b + k && b < a + n
    let mine := mget m.comp.hdm (p.val * 8 + d.val)
    let fixed := mine.any fun x => x.committed && x.lock
    let ok := (cfgOf m p).biEn && ways == 0 && !other && decs.all (fun x => !overlaps base.toNat size.toNat x.2.base x.2.size && !overlaps dpa.toNat size.toNat x.2.dpa x.2.size &&
        x.1 < d.val && x.2.base < base.toNat) && decs.length == d.val
    let hdm := mput m.comp.hdm (p.val * 8 + d.val) ⟨base.toNat, size.toNat, dpa.toNat, true, lock⟩
    let m := if ok && !fixed then { m with comp := { m.comp with hdm := hdm } } else m
    send m (.cxlIo p "HDM decoder commit" [d.val, b2n (ok || fixed)])

/-- HOST_CONFIG_ACCESS (R361, Table 14-3). Registers whose contents the spec leaves to the standard read an open value. -/
def doHostConfigAccess (p : Fin 32) (a : CfgAcc) (m : Mach) : Mach :=
  if !hostLink m p then m
  else
    let c := cfgOf m p
    match a with
    | .biEnable on => cfgSet m p { c with biEn := on }
    | .maskVector v => cfgSet m p { c with vmask := setBit c.vmask v true }
    | .maskFunction => cfgSet m p { c with fmask := true }
    | .uncommit d => match mget m.comp.hdm (p.val * 8 + d.val) with
      | some x => if x.lock then m else { m with comp := { m.comp with hdm := mdel m.comp.hdm (p.val * 8 + d.val) } }
      | none => m
    | .read off =>
      let v := drawn m % 2 ^ 32
      send (draw m) (.cxlIo p "configuration read" [off.toNat,
        if off == 0 then 0x0512 * 2 ^ 16 + v % 2 ^ 16 else if off == 8 then 0x050210 * 2 ^ 8 + v % 2 ^ 8 else v])

/-- DOE_REQUEST (R361, R371): CDAT, SPDM, and IDE key programming over an SPDM session, which makes CXL.mem IDE active. -/
def doDoeRequest (p : Fin 32) (k : DoeMsg) (m : Mach) : Mach :=
  if !hostLink m p then m
  else
    let b := ptBase p
    let c := cfgOf m p
    match k with
    | .cdat => send m (.cxlIo p "CDAT" [0])
    | .spdm => send (cfgSet m p { c with spdm := true }) (.cxlIo p "SPDM 1.2" [])
    | .ideProgram =>
      if !c.spdm then send m (.cxlIo p "IDE_KM" [0])
      else
        let m := if fget m b R.PT_IDE_STATE == 2 then m else fset m b R.PT_IDE_STATE 1
        send m (.cxlIo p "IDE_KM" [1])
    | .ideGo containment =>
      if !c.spdm then m
      else if fget m b R.PT_IDE_STATE == 2 then finc m b R.PT_IDE_REFRESH
      else if fget m b R.PT_IDE_STATE == 1 then
        fset (fset (fset m b R.PT_IDE_STATE 2) b R.PT_IDE_MODE (b2n containment)) b R.PT_LINK_IDE 1
      else m

/-- A mailbox command completes with its answer, and vector 2 falls due (R363, R364). -/
def mbox (p : Nat) (cmd : String) (rc : Rc) (vals : List Nat) (m : Mach) : Mach :=
  if hostLink m p then msix (send m (.mailbox p cmd rc vals)) p 2 else m

/-- An answer whose payload the spec leaves to the standard: one open value. -/
def mboxOpen (p : Nat) (cmd : String) (m : Mach) : Mach :=
  if hostLink m p then mbox p cmd .success [drawn m] (draw m) else m

def doIdentify (p : Fin 32) : Mach → Mach := mboxOpen p "Identify"
def doBackgroundOperationStatus (p : Fin 32) : Mach → Mach := mbox p "Background Operation Status" .success [0]
/-- One log, the CEL. -/
def doGetSupportedLogs (p : Fin 32) : Mach → Mach := mbox p "Get Supported Logs" .success [1]
/-- Only the CEL can be read. -/
def doGetLog (p : Fin 32) (cel : Bool) : Mach → Mach :=
  if cel then mboxOpen p "Get Log" else mbox p "Get Log" .invalid []

/-- GET_TIMESTAMP: the port's own timestamp in ns, running from Set Timestamp; 0 before. -/
def doGetTimestamp (p : Fin 32) (m : Mach) : Mach :=
  let c := cfgOf m p
  mbox p "Get Timestamp" .success [if c.stamp == 0 then 0 else c.stamp + (m.timeUs - c.stampAt) * 1000] m

def doSetTimestamp (p : Fin 32) (ns : BitVec 64) (m : Mach) : Mach :=
  if hostLink m p then mbox p "Set Timestamp" .success [] (cfgSet m p { cfgOf m p with stamp := ns.toNat, stampAt := m.timeUs }) else m

/-- GET_EVENT_RECORDS (Table 14-4): the Informational, Warning and Fatal logs are always empty. -/
def doGetEventRecords (p : Fin 32) (l : EvLog) (m : Mach) : Mach :=
  mbox p "Get Event Records" .success (match l with
    | .failure => (cfgOf m p).failLog
    | .dynamicCapacity => (cfgOf m p).dcLog.map fun x => x.1 * 64 + x.2
    | _ => []) m

/-- CLEAR_EVENT_RECORDS: removes the `n` oldest records of a log. -/
def doClearEventRecords (p : Fin 32) (l : EvLog) (n : Nat) (m : Mach) : Mach :=
  let c := cfgOf m p
  if !hostLink m p then m
  else mbox p "Clear Event Records" .success [] (match l with
    | .failure => cfgSet m p { c with failLog := c.failLog.drop n }
    | .dynamicCapacity => cfgSet m p { c with dcLog := c.dcLog.drop n }
    | _ => m)

def doGetEventInterruptPolicy (p : Fin 32) (m : Mach) : Mach :=
  mbox p "Get Event Interrupt Policy" .success [(cfgOf m p).evPolicy] m
def doSetEventInterruptPolicy (p : Fin 32) (v : BitVec 40) (m : Mach) : Mach :=
  if hostLink m p then mbox p "Set Event Interrupt Policy" .success [] (cfgSet m p { cfgOf m p with evPolicy := v.toNat }) else m
/-- One firmware slot, with the running version. -/
def doGetFwInfo (p : Fin 32) (m : Mach) : Mach :=
  mbox p "Get FW Info" .success [1, fget m mgtBase R.MGT_STATUS_VERSION] m
/-- Static capacity 0, volatile and persistent. -/
def doIdentifyMemoryDevice (p : Fin 32) : Mach → Mach := mbox p "Identify Memory Device" .success [0, 0]
def doGetHealthInfo (p : Fin 32) : Mach → Mach := mboxOpen p "Get Health Info"
def doGetAlertConfiguration (p : Fin 32) (m : Mach) : Mach :=
  mbox p "Get Alert Configuration" .success [(cfgOf m p).alertCfg] m
def doSetAlertConfiguration (p : Fin 32) (v : BitVec 64) (m : Mach) : Mach :=
  if hostLink m p then mbox p "Set Alert Configuration" .success [] (cfgSet m p { cfgOf m p with alertCfg := v.toNat }) else m

/-- Pool lines whose copy in the module is marked poisoned (R392). -/
def poisonedLines (m : Mach) : List Nat :=
  (m.home.hg.filterMap fun c =>
    if c.2.img.poison then some (plnOf m (c.1 / 16 / 3072 / 32) (hgLineOf (c.1 / 16 % 3072) c.2.tag)) else none) ++
  (m.home.wb.filterMap fun e => if e.img.poison then some e.pln else none) ++
  (m.home.vb.filterMap fun e => if e.img.poison then some e.pln else none) ++
  (m.rsv.slots.filterMap fun c =>
    if c.2.st == .poisoned then some (plnOf m (c.1 / 2 ^ 31) (slotLine m (c.1 / 2 ^ 31) (c.1 % 2 ^ 31) c.2)) else none) ++
  (m.tw.filterMap fun e => if e.img.poison then some e.pln else none)

/-- GET_POISON_LIST (Table 14-4): up to 256 DPAs of poisoned lines in the port's Accepted extents. -/
def doGetPoisonList (p : Fin 32) (m : Mach) : Mach :=
  mbox p "Get Poison List" .success (((poisonedLines m).eraseDups.filterMap fun l => dpaOf m p l).take 256) m

/-- GET_DYNAMIC_CAPACITY_CONFIGURATION: region 0 under Table 3-1: its base, length and block size, and the extents a port can hold. -/
def doGetDynamicCapacityConfiguration (p : Fin 32) : Mach → Mach :=
  mbox p "Get Dynamic Capacity Configuration" .success [1, 0, 2 ^ 48, 2 ^ 21, 64]

/-- The Accepted extents of a port as DPA and length pairs. -/
def extentList (m : Mach) (p : Nat) : List Nat :=
  ((List.range 64).filter fun e => extState m p e == 2).flatMap fun e => [extDpa m p e * 2 ^ 21, extLen m p e * 2 ^ 21]

def doGetDynamicCapacityExtentList (p : Fin 32) (m : Mach) : Mach :=
  mbox p "Get Dynamic Capacity Extent List" .success (extentList m p) m

/-- Writes an extent's state. -/
def extSet (m : Mach) (p e st : Nat) : Mach := fset m (ptBase p + 16 * e) R.PT_VEXT_B_STATE st

/-- ADD_DYNAMIC_CAPACITY_RESPONSE (R43): the host accepts or declines an Offered extent. -/
def doAddDynamicCapacityResponse (p : Fin 32) (e : Fin 64) (accept : Bool) (m : Mach) : Mach :=
  if !hostLink m p then m
  else if extState m p e == 1 then
    mbox p "Add Dynamic Capacity Response" .success [] (extSet m p e (if accept then 2 else 0))
  else mbox p "Add Dynamic Capacity Response" .invalid [] m

/-- Lines of a range of plots that the directory shows in state other than free for which `hit` holds of the presence bits. -/
def dirLines (m : Mach) (plot n : Nat) (hit : Nat → Bool) : List Nat :=
  m.home.dir.filterMap fun c =>
    let pln := plnOf m (c.1 / 2 ^ 29) (c.2.tag * 2 ^ 26 + c.1 / 8 % 2 ^ 26)
    if plot ≤ plotOf pln && plotOf pln < plot + n && hit c.2.pres then some pln else none

/-- The extent becomes Free, once nothing is left to back-invalidate (Table 3-4). -/
def extFree (m : Mach) (p e : Nat) (post : Bool) : Mach :=
  let m := extSet m p e 0
  if post then notice m 7 p e else m

/-- Back-invalidates the lines of an extent that the directory shows held by the port; the extent is Free when they are done. -/
def extRelease (m : Mach) (p e : Nat) (post : Bool) : Mach :=
  if m.ports.extRel.any fun x => x.port == p && x.ext == e then m
  else
    let ls := dirLines m (extPool m p e) (extLen m p e) fun pres => bitOf pres p
    if ls.isEmpty then extFree m p e post
    else
      let reqs := ls.map fun l =>
        (homeSlice m l, ({ op := .evictPorts (2 ^ p), src := .ext p e, pln := l, data := 0, mask := 0, poison := false } : Req))
      { m with ports := { m.ports with extRel := m.ports.extRel ++ [⟨p, e, ls.length, post⟩] }
               home := { m.home with reqQ := m.home.reqQ ++ reqs } }

/-- RELEASE_DYNAMIC_CAPACITY (R43): fails for an extent that the host does not hold. -/
def doReleaseDynamicCapacity (p : Fin 32) (e : Fin 64) (m : Mach) : Mach :=
  if !hostLink m p then m
  else if extState m p e == 2 then mbox p "Release Dynamic Capacity" .success [] (extRelease m p e true)
  else if extState m p e == 3 then mbox p "Release Dynamic Capacity" .success [] (extRelease m p e false)
  else mbox p "Release Dynamic Capacity" .invalid [] m

/-- A back-invalidated line of an extent is done. -/
def extDone (m : Mach) (p e : Nat) : Mach :=
  match m.ports.extRel.find? fun x => x.port == p && x.ext == e with
  | none => m
  | some x =>
    let rest := m.ports.extRel.filter fun y => y != x
    if x.left ≤ 1 then extFree { m with ports := { m.ports with extRel := rest } } p e x.post
    else { m with ports := { m.ports with extRel := { x with left := x.left - 1 } :: rest } }

/-- MAILBOX_UNSUPPORTED_COMMAND (R363). -/
def doMailboxUnsupportedCommand (p : Fin 32) : Mach → Mach := mbox p "other" .unsupported []

/-- EXTENT_OFFER_TIMEOUT (R43): an Offered extent without a response for 1 s is Free; the program that offered it gets DECLINED. -/
def doExtentOfferTimeout (p : Fin 32) (e : Fin 64) (m : Mach) : Mach := if extState m p e == 1 then extSet m p e 0 else m

/-- MSIX_UNMASK (R364): a vector, or with `none` the function, is unmasked; each pending vector now unmasked sends one message. -/
def doMsixUnmask (p : Fin 32) (v : Option (Fin 3)) (m : Mach) : Mach :=
  if !hostLink m p then m
  else
    let c := cfgOf m p
    let c := match v with
      | some v => { c with vmask := setBit c.vmask v false }
      | none => { c with fmask := false }
    forN 3 (fun v m =>
      let c := cfgOf m p
      if bitOf c.vpend v && !c.fmask && !bitOf c.vmask v then send (cfgSet m p { c with vpend := setBit c.vpend v false }) (.msix p v)
      else m) (cfgSet m p c)

/-- A register word after a write of one of its halves (R27). -/
def mergeHalf (old : Nat) (h : Half) (v : Nat) : Nat := match h with
  | .full => v % 2 ^ 64
  | .low => old / 2 ^ 32 * 2 ^ 32 + v % 2 ^ 32
  | .high => old % 2 ^ 32 + v % 2 ^ 32 * 2 ^ 32

/-- Word `w` of slot `s` of queue `q`. -/
def slotWord (m : Mach) (q s w : Nat) : Nat := sget 0 m.ports.queues.words (q * 512 + s * 8 + w)

/-- Stores a word of a slot. -/
def slotPut (m : Mach) (q s w v : Nat) : Mach :=
  let ws := sset 0 m.ports.queues.words (q * 512 + s * 8 + w) v
  { m with ports := { m.ports with queues := { m.ports.queues with words := ws } } }

/-- Does the slot hold a committed descriptor not yet taken? -/
def slotBusy (m : Mach) (q s : Nat) : Bool := m.ports.queues.commits.contains (q * 64 + s)

/-- The PHASE that the slot expects (R262): 1 on even laps. -/
def slotPhase (m : Mach) (q s : Nat) : Nat := 1 - sget 0 m.ports.queues.laps (q * 64 + s)

/-- Commits a slot; the mailbox counts a keeper descriptor (R487). -/
def slotCommit (m : Mach) (q s : Nat) : Mach :=
  let k := q * 64 + s
  let qs := m.ports.queues
  let qs := { qs with commits := qs.commits ++ [k], laps := sset 0 qs.laps k (slotPhase m q s) }
  let m := { m with ports := { m.ports with queues := qs } }
  if q == 32 then count m mgtBase 0x01 else m

/-- Writes word `w` of a free slot; a header write that carries byte 7 with the expected PHASE commits it (R262). -/
def slotWrite (m : Mach) (q s w : Nat) (h : Half) (v : Nat) : Mach :=
  let new := mergeHalf (slotWord m q s w) h v
  let m := slotPut m q s w new
  if w == 0 && h != .low && new / 2 ^ 63 == slotPhase m q s then slotCommit m q s else m

/-- R264: a write to a slot that holds a committed descriptor is dropped whole. -/
def cmdqOverrun (m : Mach) (p s : Nat) : Mach :=
  notice (fsat (fset m (ptBase p) R.PT_QSTAT_OVRN 1) (ptBase p) R.PT_QERR_OVRN_CNT) 0x0E p s

/-- CMDQ_ARG_WRITE (R262): argument word ARG`a`. -/
def doCmdqArgWrite (p : Fin 32) (s : Fin 64) (a : Fin 7) (h : Half) (v : Word) (m : Mach) : Mach :=
  if !hostLink m p then m
  else if slotBusy m p s then cmdqOverrun m p s else slotWrite m p s (a.val + 1) h v.toNat

/-- CMDQ_HEADER_WRITE (R262). -/
def doCmdqHeaderWrite (p : Fin 32) (s : Fin 64) (h : Half) (v : Word) (m : Mach) : Mach :=
  if !hostLink m p then m
  else if slotBusy m p s then cmdqOverrun m p s else slotWrite m p s 0 h v.toNat

/-- Result words of queue `q`, oldest first. -/
def resultsOf (m : Mach) (q : Nat) : List Nat := (m.ports.queues.results.filter fun r => r.1 == q).map fun r => r.2

/-- A result word (R266). -/
def resWord (status tag value : Nat) : Nat := 2 ^ 63 + status % 128 * 2 ^ 56 + tag % 65536 * 2 ^ 40 + value % 2 ^ 40

/-- Removes the oldest result of queue `q`, if any. -/
def resultPop (m : Mach) (q : Nat) : Mach :=
  let qs := m.ports.queues
  if (resultsOf m q).isEmpty then m
  else
    let qs := { qs with results := dropFirst (fun r => r.1 == q) qs.results, popped := sset 0 qs.popped q (sget 0 qs.popped q + 1) }
    { m with ports := { m.ports with queues := qs } }

/-- PT_RESQ_POP (R267): a 64-bit read returns and removes the oldest result, or 0; a 32-bit read returns its half. An
uncorrectable entry is returned as Table 15-4 states. -/
def doPtResqPop (p : Fin 32) (h : Half) (ck : Check) (m : Mach) : Mach :=
  if !hostLink m p then m
  else match (resultsOf m p).head? with
    | none => send m (.barRead p 0)
    | some w => match h with
      | .full =>
        if ck.isBad then
          let m := err m { errOf 1 0x12 0x03 p with action := 28 }
          send (resultPop m p) (.barRead p (resWord 0x0C 0 (sget 0 m.ports.queues.popped p % 256)))
        else
          let m := if ck == .good then m else err (fsat m (ptBase p) R.PT_QERR_RQ_CE) (errOf 0 0x12 0x03 p)
          send (resultPop m p) (.barRead p w)
      | .low => send m (.barRead p (w % 2 ^ 32))
      | .high => send m (.barRead p (w / 2 ^ 32))

/-- PT_RESQ_ADV (R267). -/
def doPtResqAdv (p : Fin 32) (m : Mach) : Mach := if hostLink m p then resultPop m p else m

/-- HOST_BAR_BAD_ACCESS (R27): completes with no effect and counts as a protocol error; a read returns 0. -/
def doHostBarBadAccess (p : Fin 32) (write : Bool) (m : Mach) : Mach :=
  if !hostLink m p then m else if write then rasProto m p else send (rasProto m p) (.barRead p 0)

end Sys2Proof.Machine
end

