-- ==== Sys2Proof/Machine/IoCmd.lean ====
section
/-! DEFINITION. DMA of I/O devices (R44, R174 to R179, R368, Table 14-6): reads, posted writes in their two phases, atomics and
messages; configuration requests (R370) and I/O windows (R45). -/

namespace Sys2Proof.Machine

/-- The pool byte address of an access through the window table (R44), or the KIND of its refusal. `rights` reads the window's
permission. -/
inductive IoDec where
  | addr (a : Nat)
  | viol (kind : Nat)
deriving DecidableEq, Repr

/-- Window `w` of a port: base, size and pool base. -/
def winBase (m : Mach) (p : Nat) : Nat := fget m p R.PT_IOWINA_DMA_BASE * 4096
def winIn (m : Mach) (b a n : Nat) : Bool :=
  fon m b R.PT_IOWINA_EN && winBase m b ≤ a && a + n ≤ winBase m b + 2 ^ fget m b R.PT_IOWINA_SIZE

/-- R44: the lowest enabled window that holds every byte and permits the access. -/
def ioDecode (m : Mach) (p a n : Nat) (rights : Nat → Bool) : IoDec :=
  let bases := (List.range 64).map fun w => ptBase p + 16 * w
  match bases.find? fun b => winIn m b a n && rights b with
  | some b => .addr (fget m b R.PT_IOWINB_POOL_BASE * 4096 + (a - winBase m b))
  | none => if bases.any fun b => winIn m b a n then .viol 4 else .viol 3

/-- The lines that an access touches: line, first byte and count. -/
def pieces (a n : Nat) : List (Nat × Nat × Nat) :=
  (List.range ((a + n - 1) / 64 - a / 64 + 1)).map fun i =>
    let l := a / 64 + i
    let lo := max a (l * 64)
    let hi := min (a + n) (l * 64 + 64)
    (l, lo - l * 64, hi - lo)

/-- R50: every line of an access is in a region that permits the port; otherwise the KIND of the refusal. -/
def piecesCheck (m : Mach) (p : Nat) (ls : List (Nat × Nat × Nat)) : Option Nat :=
  ls.foldl (fun r x => match r, regionCheck m p x.1 with
    | some k, _ => some k
    | none, .viol k => some k
    | none, .line _ => none) none

/-- Does an IO port take requests? -/
def ioUp (m : Mach) (p : Nat) : Bool := roleOf m p == 3 && linkUp m p && credits m p

/-- Does it take a further non-posted request: at most 1,024 are outstanding (Table 14-6)? -/
def npUp (m : Mach) (p : Nat) : Bool :=
  ioUp m p && decide (((m.ports.ptt.filter fun t => t.port == p && t.nonPosted).map fun t => t.tag).eraseDups.length < 1024)

/-- A refused non-posted request (Table 3-8): Unsupported Request. -/
def ioRefuse (m : Mach) (p tag kind a : Nat) : Mach :=
  send (urRecord (viol m p kind a) p a) (.ioCpl p tag .ur 0 0 0 false)

/-- Requester IDs of the port's posted writes in the prepare window (R175). -/
def idsOf (m : Mach) (p : Nat) : List Nat :=
  ((m.ports.ptt.filter fun t => t.port == p && t.posted && !t.released).map fun t => t.rid).eraseDups

/-- The Requester IDs that the port tracks: at most 64 (Table 7-2). -/
def idsTracked (m : Mach) (p : Nat) : List Nat := (idsOf m p).take 64

/-- Is ID-Based Ordering honoured for a request of this Requester ID (R175)? -/
def idoOn (m : Mach) (p rid : Nat) (ido : Bool) : Bool :=
  ido && fon m (ptBase p) R.PT_IOORD_IDO_EN && ((idsTracked m p).contains rid || (idsTracked m p).length < 64)

/-- Posted writes that the tile has taken and not released. -/
def prepHeld (m : Mach) (p : Nat) : Nat := (m.ports.ptt.filter fun t => t.port == p && t.posted && !t.released).length

/-- Posted writes issued and not released (R179). -/
def prepUsed (m : Mach) (p : Nat) : Nat := (m.ports.ptt.filter fun t => t.port == p && t.posted && !t.held && !t.released).length

/-- IO_DMA_READ (R44, R50, R177): one non-allocating snooping read for each line, sent once earlier posted writes are released. -/
def doIoDmaRead (p : Fin 32) (tag : BitVec 14) (a : BitVec 64) (n : Fin 4097) (ido : Bool) (rid : BitVec 16) (m : Mach) : Mach :=
  if !npUp m p || n.val == 0 then m
  else
    let m := count m (ptBase p) 0x01
    match ioDecode m p a.toNat n (fun b => fon m b R.PT_IOWINA_R) with
    | .viol k => ioRefuse m p tag.toNat k a.toNat
    | .addr x =>
      let ls := pieces x n
      match piecesCheck m p ls with
      | some k => ioRefuse m p tag.toNat k a.toNat
      | none =>
        let ido := idoOn m p rid.toNat ido
        sendHeld (ls.foldl (fun m l =>
          pttTake m p tag.toNat .ioRead true l.1 0 0 false false false ido rid.toNat l.2.1 l.2.2 a.toNat) m)

/-- IO_POSTED_WRITE (R176, R179): one write for each line, issued for its prepare phase; `en` enables the bytes of `data`. A write that touches
several lines counts once for each of them in WINDOW and PREP_USED (DESIGN CHOICE, entry 97: the spec counts posted writes, and does not say
how one that spans lines counts). -/
def doIoPostedWrite (p : Fin 32) (a : BitVec 64) (n : Fin 257) (data : BitVec 2048) (en : BitVec 256) (poison ro ido : Bool)
    (rid : BitVec 16) (m : Mach) : Mach :=
  let ls0 := pieces a.toNat n
  if !ioUp m p || n.val == 0 || fget m (ptBase p) R.PT_IOORD_WINDOW < prepHeld m p + ls0.length then m
  else
    let m := count m (ptBase p) 0x02
    match ioDecode m p a.toNat n (fun b => fon m b R.PT_IOWINA_W) with
    | .viol k => urRecord (viol m p k a.toNat) p a.toNat
    | .addr x =>
      let ls := pieces x n
      match piecesCheck m p ls with
      | some k => urRecord (viol m p k a.toNat) p a.toNat
      | none =>
        let ido := idoOn m p rid.toNat ido
        let ro := ro && fon m (ptBase p) R.PT_IOORD_RO_EN
        let bytes := data.toNat * 2 ^ (8 * (x % 64))
        let mask := (en.toNat % 2 ^ n.val) * 2 ^ (x % 64)
        sendHeld (ls.foldl (fun m l =>
          let i := l.1 - x / 64
          pttTake m p 0 .ioWrite true l.1 (BitVec.ofNat 512 (bytes / 2 ^ (512 * i))) (BitVec.ofNat 64 (mask / 2 ^ (64 * i))) poison
            true ro ido rid.toNat l.2.1 l.2.2 a.toNat) m)

/-- A PCIe AtomicOp (R154, R177, Table 3-8): permitted only by a window with ATOM, R and W. -/
def ioAtomic (p : Fin 32) (tag : BitVec 14) (a : BitVec 64) (size : Nat) (op : Amo) (opnd cmp : Nat) (ido : Bool) (rid : BitVec 16)
    (m : Mach) : Mach :=
  if !npUp m p then m
  else
    let m := count m (ptBase p) 0x02
    if a.toNat % size != 0 then send (urRecord m p a.toNat) (.ioCpl p tag.toNat .ur 0 0 0 false)
    else match ioDecode m p a.toNat size (fun b => fon m b R.PT_IOWINA_ATOM && fon m b R.PT_IOWINA_R && fon m b R.PT_IOWINA_W) with
      | .viol k => ioRefuse m p tag.toNat k a.toNat
      | .addr x =>
        match piecesCheck m p (pieces x size) with
        | some k => ioRefuse m p tag.toNat k a.toNat
        | none => sendHeld (pttTake m p tag.toNat (.atomic op (x % 64) size opnd cmp) true (x / 64) 0 0 false false false
            (idoOn m p rid.toNat ido) rid.toNat 0 size a.toNat)

/-- IO_FETCHADD, IO_SWAP (R368): 4 or 8 bytes. -/
def doIoFetchAdd (p : Fin 32) (tag : BitVec 14) (a : BitVec 64) (wide : Bool) (v : Word) (ido : Bool) (rid : BitVec 16) : Mach → Mach :=
  ioAtomic p tag a (if wide then 8 else 4) .add v.toNat 0 ido rid
def doIoSwap (p : Fin 32) (tag : BitVec 14) (a : BitVec 64) (wide : Bool) (v : Word) (ido : Bool) (rid : BitVec 16) : Mach → Mach :=
  ioAtomic p tag a (if wide then 8 else 4) .swap v.toNat 0 ido rid

/-- IO_CAS (R368): size 0 is 4 bytes and 1 is 8 bytes; a 128-bit CAS completes with UR. -/
def doIoCas (p : Fin 32) (tag : BitVec 14) (a : BitVec 64) (size : Fin 3) (cmp swap : Word) (ido : Bool) (rid : BitVec 16)
    (m : Mach) : Mach :=
  if size.val == 2 then
    if npUp m p then send (urRecord m p a.toNat) (.ioCpl p tag.toNat .ur 0 0 0 false) else m
  else ioAtomic p tag a (if size.val == 1 then 8 else 4) .cas swap.toNat cmp.toNat ido rid m

/-- IO_UNSUPPORTED_REQUEST (R368): an I/O, ATS, PRI or PASID request. -/
def doIoUnsupportedRequest (p : Fin 32) (tag : BitVec 14) (m : Mach) : Mach :=
  if npUp m p then send (urRecord m p (2 ^ 64 - 1)) (.ioCpl p tag.toNat .ur 0 0 0 false) else m

/-- A device's error message is recorded with its Requester ID; nothing else is done (Table 14-10). `sev` is 0 correctable,
1 non-fatal, 2 fatal. -/
def devErr (p : Fin 32) (sev : Nat) (rid : BitVec 16) (m : Mach) : Mach :=
  if roleOf m p == 3 && linkUp m p then err m { errOf (if sev == 0 then 0 else 1) 0 0x03 p with loc := rid.toNat } else m

def doErrCor (p : Fin 32) (rid : BitVec 16) : Mach → Mach := devErr p 0 rid
def doErrNonfatal (p : Fin 32) (rid : BitVec 16) : Mach → Mach := devErr p 1 rid
def doErrFatal (p : Fin 32) (rid : BitVec 16) : Mach → Mach := devErr p 2 rid

/-- IO_MESSAGE_DISCARDED (R368): an INTx or PM message is discarded and counted, any other discarded. -/
def doIoMessageDiscarded (p : Fin 32) (counted : Bool) (m : Mach) : Mach :=
  if roleOf m p == 3 && linkUp m p && counted then
    { m with ports := { m.ports with discards := sset 0 m.ports.discards p (sget 0 m.ports.discards p + 1) } }
  else m

/-- Releases every prepared write of port `p` whose earlier writes that it may not pass are released (R176). -/
def releaseReady (m : Mach) (p : Nat) : Mach :=
  m.ports.ptt.foldl (fun m t =>
    match m.ports.ptt.find? fun x => x.id == t.id with
    | some t =>
      if t.port == p && t.posted && t.prepared && !t.released && !blockedBy m.ports.ptt t then
        let upd (x : Ptt) : Ptt := { x with released := true }
        let ptt := mapFirst (fun x => x.id == t.id) upd m.ports.ptt
        let rel := m.ports.relQ ++ [(homeSlice m t.req.pln, t.req.pln, p, t.id)]
        { m with ports := { m.ports with ptt := ptt, relQ := rel } }
      else m
    | none => m) m

/-- WRITE_PREPARED (R176, R178): the oldest report of a prepared write for port `p` reaches the tile. -/
def doWritePrepared (p : Fin 32) (m : Mach) : Mach :=
  match m.ports.prepQ.find? fun x => x.1 == p.val with
  | none => m
  | some (_, id) =>
    let upd (x : Ptt) : Ptt := { x with prepared := true }
    let ptt := mapFirst (fun x => x.id == id) upd m.ports.ptt
    sendHeld (releaseReady { m with ports := { m.ports with ptt := ptt, prepQ := dropFirst (fun x => x.1 == p.val) m.ports.prepQ } } p)

/-- WRITE_RELEASE (R176, R198): the oldest release for slice `h`: the image is installed, a commit goes to the twin, and the write
is globally visible. A write that is not twinned is performed now. -/
def doWriteRelease (h : Fin 64) (m : Mach) : Mach :=
  match m.ports.relQ.find? fun x => x.1 == h.val with
  | none => m
  | some (_, pln, p, id) =>
    let m := { m with ports := { m.ports with relQ := dropFirst (fun x => x.1 == h.val) m.ports.relQ } }
    match mshrOf m h pln with
    | none => m
    | some r => match r.reqs.head?, r.phase with
      | some q, .prepared =>
        if q.src != .io p id then m
        else if r.buf.isSome && m.twin.staged.any fun s => s.pln == pln && s.pending && s.sd != h.val / 32 then
          pumpAll (mshrPut (fin (streamPut m h (.commit pln)) q none none 0)
            { r.dropHead with phase := .full }) h pln
        else pumpAll (mshrPut m { r with phase := .full, reqs := { q with op := .store } :: r.reqs.drop 1, coh := true }) h pln
      | _, _ => m

/-- Sends the completions of a read in address order, as far as data has returned (Table 7-2). -/
def flushRead : Nat → Mach → Nat → Nat → Mach
  | 0, m, _, _ => m
  | k + 1, m, p, tag =>
    match m.ports.ptt.find? fun t => t.port == p && t.tag == tag && !t.posted with
    | none => m
    | some t => match t.got with
      | none => m
      | some img => flushRead k (send (pttFree m t.id) (.ioCpl p tag .sc img.data t.off t.len img.poison)) p tag

/-- A home's completion reaches an IO tile (R377, Table 14-10). A posted write whose data is lost with its sled is recorded as a refusal is; the
KIND of that record is open (DESIGN CHOICE, entry 108: Table 3-9 names no kind for it). -/
def ioDone (m : Mach) (p id : Nat) (d : Done) : Mach :=
  match m.ports.ptt.find? fun t => t.id == id with
  | none => m
  | some t =>
    if t.posted then
      let m := releaseReady (pttFree m id) p
      match d.how with
      | .ok => m
      | .refused => urRecord (viol m p 5 t.ask) p t.ask
      | .lost => urRecord (viol (draw m) p (drawn m % 6 + 1) t.ask) p t.ask
    else if t.dead then pttFree m id
    else match d.how with
      | .refused => ioRefuse (pttFree m id) p t.tag 5 t.ask
      | _ =>
        let img : Img := match d.img, d.how with
          | some i, _ => i
          | none, .lost => ⟨0, true⟩
          | none, _ => ⟨lineAt 0 t.len d.result, 2 ^ 64 ≤ d.result⟩
        let upd (x : Ptt) : Ptt := { x with got := some img }
        let m := count m (ptBase p) 0x03
        flushRead m.ports.ptt.length { m with ports := { m.ports with ptt := mapFirst (fun x => x.id == id) upd m.ports.ptt } } p t.tag

/-- CONFIGURATION_REQUEST (R370): PT_CFGA is written with GO 1. An OFFSET that is no multiple of 4 is refused (CAUSE 2). -/
def doConfigurationRequest (p : Fin 32) (off : BitVec 12) (be : BitVec 4) (func : Fin 8) (write : Bool) (m : Mach) : Mach :=
  let b := ptBase p
  if roleOf m p != 3 then m
  else
    let bad := off.toNat % 4 != 0
    let m := if bad then reject m b 2 0x90 else fset m b R.PT_CFGA_OFFSET off.toNat
    let m := fset (fset (fset m b R.PT_CFGA_BE be.toNat) b R.PT_CFGA_FUNC func.val) b R.PT_CFGA_WRITE (b2n write)
    if fon m b R.PT_CFGA_BUSY then m
    else if !linkUp m p then fset m b R.PT_CFGA_STATUS 5
    else send (fset m b R.PT_CFGA_BUSY 1)
      (.cfgReq p write func.val (fget m b R.PT_CFGA_OFFSET) be.toNat (fget m b R.PT_CFGD_DATA))

/-- CONFIGURATION_COMPLETION (R370): STATUS 0 to 3, and the data of a read. -/
def doConfigurationCompletion (p : Fin 32) (st : Fin 4) (data : BitVec 32) (m : Mach) : Mach :=
  let b := ptBase p
  if roleOf m p == 3 && fon m b R.PT_CFGA_BUSY then
    let m := fset (fset m b R.PT_CFGA_BUSY 0) b R.PT_CFGA_STATUS st.val
    if st.val == 0 && !fon m b R.PT_CFGA_WRITE then fset m b R.PT_CFGD_DATA data.toNat else m
  else m

/-- CONFIGURATION_TIMEOUT (R370). -/
def doConfigurationTimeout (p : Fin 32) (m : Mach) : Mach :=
  let b := ptBase p
  if roleOf m p == 3 && fon m b R.PT_CFGA_BUSY then fset (fset m b R.PT_CFGA_BUSY 0) b R.PT_CFGA_STATUS 4 else m

/-- PT_IOWIN_WRITE (R31, R45): word A or B of window `w`. A reserved SIZE keeps its field (CAUSE 2); a write that leaves EN at 1
with a base that has a bit below SIZE is refused whole (CAUSE 3). -/
def doPtIowinWrite (p : Fin 32) (w : Fin 64) (wordB : Bool) (v : Word) (m : Mach) : Mach :=
  let b := ptBase p + 16 * w.val
  if roleOf m p != 3 then m
  else
    let off := 0x400 + 16 * w.val + (if wordB then 8 else 0)
    let n := v.toNat
    let size := bitsOf n 0 6
    let bad := !wordB && !(12 ≤ size && size ≤ 46)
    let m1 :=
      if wordB then fset m b R.PT_IOWINB_POOL_BASE (bitsOf n 12 36)
      else
        let m := if bad then m else fset m b R.PT_IOWINA_SIZE size
        let m := fset (fset m b R.PT_IOWINA_EN (bitsOf n 6 1)) b R.PT_IOWINA_R (bitsOf n 7 1)
        fset (fset (fset m b R.PT_IOWINA_W (bitsOf n 8 1)) b R.PT_IOWINA_ATOM (bitsOf n 9 1)) b R.PT_IOWINA_DMA_BASE (bitsOf n 12 52)
    let sz := fget m1 b R.PT_IOWINA_SIZE
    let aligned (f : Fld) : Bool := fget m1 b f * 4096 % 2 ^ sz == 0
    if fon m1 b R.PT_IOWINA_EN && !(aligned R.PT_IOWINA_DMA_BASE && aligned R.PT_IOWINB_POOL_BASE) then reject m (ptBase p) 3 off
    else if bad then reject m1 (ptBase p) 2 off else m1

end Sys2Proof.Machine
end

