-- ==== Sys2Proof/Machine/LinkCmd.lean ====
section
/-! DEFINITION. Links, reset pins and memory sleds (chapters 3 and 14): sled responses, training, link loss, PERST#, presence, IDE,
adaptation, and the port controls that act at once. -/

namespace Sys2Proof.Machine

/-- SLED_READ_RESPONSE (R55, R77, R188): data for the register that asked, or `bad` data, which a mirrored plot replaces from its
second location and rewrites; a fenced response is discarded (R207). -/
def doSledReadResponse (p : Fin 32) (id : Nat) (data : Line) (bad : Bool) (m : Mach) : Mach :=
  match m.ports.sleds.find? fun s => s.id == id && s.port == p.val && s.sent with
  | none => m
  | some s =>
    let m' := count { m with ports := { m.ports with sleds := dropFirst (fun x => x == s) m.ports.sleds } } (ptBase p) 0x0E
    match s.what with
    | .fill h pln second =>
      if s.fenced then m'
      else match mshrOf m' h pln with
        | none => m'
        | some r =>
          let e := plcGet m' s.sd (plotOf pln)
          let other := plcLoc2 e
          if bad && !second && plcM2 e && memState m' other.1 != 2 then
            sledReadReq (sampleDue m' s.sd (plotOf pln)) s.sd other.1 (.fill h pln true) (sledAddr other.2 pln)
          else if bad then fillPut (noteUcc m' pln) r ⟨data, true⟩ false true
          else
            let m' :=
              if second && memState m' (plcLoc1 e).1 != 2 then
                let m' := err m' { errOf 0 0x13 0x03 (plcLoc1 e).1 with repaired := true, addr := pln * 64, action := 14 }
                twQueue m' s.sd pln ⟨data, false⟩ fullMask [] .other
              else m'
            fillPut m' r ⟨data, false⟩ false true
    | .flumeRead c k => if s.fenced then m' else complete m' ⟨.flume c k, 0, some ⟨data, bad⟩, none, 0, .ok, none⟩
    | _ => m

/-- SLED_REQUEST_TIMEOUT (R367): a request sent to the sled is unanswered for MEMTO; the link is disabled and trained again. -/
def doSledRequestTimeout (p : Fin 32) (m : Mach) : Mach :=
  if roleOf m p == 2 && linkUp m p && m.ports.sleds.any fun s => s.port == p.val && s.sent then
    trainStart (linkDown (err m (errOf 1 0x13 0x03 p)) p 1) p
  else m

/-- SLED_POLL (R365): Get Health Info and Get Event Records; the sled's records are copied to the event log (KIND 0x06). -/
def doSledPoll (p : Fin 32) (recs : List (BitVec 256)) (m : Mach) : Mach :=
  if roleOf m p == 2 && memState m p == 0 then
    let m := send (send m (.sledCmd p "Get Health Info")) (.sledCmd p "Get Event Records")
    recs.foldl (fun m r =>
      eventRecord m 6 0 0x03 p 0 ((List.range 4).map fun i => bitsOf r.toNat (64 * i) 64)) m
  else m

/-- R365: at port start and readmission the sled is identified and its decoder 0 programmed; required IDE is set up (R372). -/
def sledStart (m : Mach) (p : Nat) : Mach :=
  let m := send (send m (.sledCmd p "Identify Memory Device")) (.sledCmd p "program decoder 0")
  if fon m (ptBase p) R.PT_IDE_REQ && !fon m (ptBase p) R.PT_LINK_IDE then
    send (fset m (ptBase p) R.PT_IDE_STATE 1) (.sledCmd p "SPDM and IDE key exchange")
  else m

/-- May the port's link train: it has a role, its cable is present, it is not disabled, in reset or up? -/
def mayTrain (m : Mach) (p : Nat) : Bool :=
  let b := ptBase p
  roleOf m p != 0 && portAble m p && fon m b R.PT_LINK_PRESENT && !fon m b R.PT_LINK_PERST &&
  fget m b R.PT_LINK_STATE ≤ 2

/-- LINK_UP (R358, R359, R374): the link reaches L0 at a rate and width that PT_LCTL allows; a HOST port starts (R265), a MEM port's
state advances (R56, R380); `cap` is the capacity in bytes that the sled identifies with (Table 14-5). -/
def doLinkUp (p : Fin 32) (rate : Fin 8) (width : Fin 4) (flit learned : Bool) (cap : Word) (m : Mach) : Mach :=
  let b := ptBase p
  let maxR := fget m b R.PT_LCTL_MAXRATE
  let maxW := fget m b R.PT_LCTL_MAXWIDTH
  let okRate := 1 ≤ rate.val && rate.val ≤ maxR && rate.val ≤ 6 && (roleOf m p == 3 || (5 ≤ rate.val && flit)) && (rate.val < 6 || flit)
  if !mayTrain m p || !okRate || width.val == 0 || maxW < width.val then m
  else
    let m := fset (fset m b R.PT_LINK_STATE 3) b R.PT_LINK_RATE rate.val
    let m := fset (fset m b R.PT_LINK_WIDTH width.val) b R.PT_LINK_FLIT (b2n flit)
    let m := fset (fset m b R.PT_LEV_LUP 1) b R.PT_EQ_LEARNED (b2n learned)
    let m := if rate.val < maxR || width.val < maxW then fset m b R.PT_LEV_WIDTHLOW 1 else m
    match roleOf m p with
    | 1 => queuesStart m p
    | 2 =>
      let plots := min (cap.toNat / 2 ^ 21) (2 ^ 23)
      let m := { m with ports := { m.ports with sledCap := mput m.ports.sledCap p.val plots } }
      if memState m p == 2 then m else memReady (sledStart m p) p
    | _ => m

/-- TRAINING_RETRY (R374). -/
def doTrainingRetry (p : Fin 32) (m : Mach) : Mach :=
  if mayTrain m p then send (fset m (ptBase p) R.PT_LINK_STATE 2) (.train p) else m

/-- HOST_LINK_DOWN, MEM_LINK_DOWN, IO_LINK_DOWN (R384, Table 14-9): the link is trained again. -/
def downOf (role : Nat) (p : Fin 32) (m : Mach) : Mach :=
  if roleOf m p == role && linkUp m p then trainStart (linkDown m p 1) p else m

def doHostLinkDown (p : Fin 32) : Mach → Mach := downOf 1 p
def doMemLinkDown (p : Fin 32) : Mach → Mach := downOf 2 p
def doIoLinkDown (p : Fin 32) : Mach → Mach := downOf 3 p

/-- PERST_ASSERT (R381): PERST# at a HOST port for `ns` nanoseconds or more; below 1 µs it is ignored. -/
def doPerstAssert (p : Fin 32) (ns : Nat) (m : Mach) : Mach :=
  if roleOf m p != 1 || ns < 1000 || fon m (ptBase p) R.PT_LINK_PERST then m
  else
    let m := if linkUp m p then linkDown m p 5 else hostReset m p
    perstSet (fset m (ptBase p) R.PT_LINK_STATE 5) p true

/-- PERST_RELEASE (R381): training starts. -/
def doPerstRelease (p : Fin 32) (m : Mach) : Mach :=
  if roleOf m p == 1 && fon m (ptBase p) R.PT_LINK_PERST then trainStart (perstSet m p false) p else m

/-- HOT_RESET (R381). -/
def doHotReset (p : Fin 32) (m : Mach) : Mach :=
  if hostLink m p then trainStart (linkDown m p 1) p else m

/-- LINK_DISABLE (R381): the link stays disabled until the host enables it again. -/
def doLinkDisable (p : Fin 32) (m : Mach) : Mach := if hostLink m p then linkDown m p 0 else m

/-- A MEM or IO port without its cable: PERST# is driven low (R382). -/
def portAbsent (m : Mach) (p : Nat) : Mach :=
  let m := fset (perstSet m p true) (ptBase p) R.PT_LINK_STATE 5
  { m with ports := { m.ports with pulses := m.ports.pulses.filter fun x => x != p } }

/-- CABLE_PRESENCE_CHANGE (R382, R383). -/
def doCablePresenceChange (p : Fin 32) (present : Bool) (m : Mach) : Mach :=
  let b := ptBase p
  if fon m b R.PT_LINK_PRESENT == present then m
  else
    let m := if !present && linkUp m p then linkDown m p 1 else m
    let m := fset (fset m b R.PT_LINK_PRESENT (b2n present)) b R.PT_LEV_PRSCHG 1
    let dis := fon m b R.PT_LCTL_DIS
    if roleOf m p == 0 || dis then m
    else if roleOf m p == 1 then
      if present && !fon m b R.PT_LINK_PERST then trainStart m p else m
    else if present then pulseStart m p
    else portAbsent m p

/-- IDE_INTEGRITY_FAILURE (R373): link down of the port, IDEFAIL set. -/
def doIdeIntegrityFailure (p : Fin 32) (m : Mach) : Mach :=
  let b := ptBase p
  if linkUp m p && fon m b R.PT_LINK_IDE then
    let m := fsat (fset m b R.PT_IDE_STATE 3) b R.PT_IDE_FAILS
    fset (trainStart (linkDown m p 1) p) b R.PT_LEV_IDEFAIL 1
  else m

/-- A passage through Recovery (R384). -/
def recovery (m : Mach) (p : Nat) : Mach := fsat (count m (ptBase p) 0x0C) (ptBase p) R.PT_LINK_RECOVS

/-- LINK_RECOVERY (R384): `flits` are replayed by link retry and nothing is lost; a HOST port's AER correctable status records it. -/
def doLinkRecovery (p : Fin 32) (flits : BitVec 16) (m : Mach) : Mach :=
  if linkUp m p then
    let m := fsat (count (recovery m p) (ptBase p) 0x0B flits.toNat) (ptBase p) R.PT_ERR_REPLAY flits.toNat
    if roleOf m p == 1 && flits != 0 then cfgSet m p { cfgOf m p with aerCor := true } else m
  else m

/-- ADAPTATION_STEP (R375): the worst lane's margin; `fec` flits were corrected since the last step (Table 14-10). -/
def doAdaptationStep (p : Fin 32) (margin : BitVec 8) (lane : Fin 16) (fec : BitVec 16) (m : Mach) : Mach :=
  let b := ptBase p
  if linkUp m p then
    let m := finc (count m b 0x0F) b R.PT_EQ_ADAPT
    let m := fset (fset m b R.PT_EQ_MARGIN margin.toNat) b R.PT_EQ_LANE lane.val
    let m := fsat (count m b 0x0A fec.toNat) b R.PT_ERR_FECCOR fec.toNat
    if roleOf m p == 1 && fec != 0 then cfgSet m p { cfgOf m p with aerCor := true } else m
  else m

/-- EQUALIZATION_MARGIN_LOW (R376): MARGIN has been below EQMIN for 100 ms. -/
def doEqualizationMarginLow (p : Fin 32) (m : Mach) : Mach :=
  let b := ptBase p
  if linkUp m p && fget m b R.PT_EQ_MARGIN < fget m b R.PT_LCTL_EQMIN then
    let m := fset m b R.PT_LEV_EQLOW 1
    if fon m b R.PT_LCTL_EQREDO then recovery (fsat m b R.PT_EQ_REDOS) p else m
  else m

/-- PRST (R382): PERST# of a MEM or IO port is pulsed; its link goes down. -/
def doPrst (p : Fin 32) (m : Mach) : Mach :=
  let b := ptBase p
  if roleOf m p < 2 || fon m b R.PT_LCTL_DIS || !fon m b R.PT_LINK_PRESENT then m
  else pulseStart (if linkUp m p then linkDown m p 1 else m) p

/-- PERST_PULSE_END (R382). -/
def doPerstPulseEnd (p : Fin 32) (m : Mach) : Mach :=
  if m.ports.pulses.contains p.val then
    trainStart (perstSet { m with ports := { m.ports with pulses := m.ports.pulses.filter fun x => x != p.val } } p false) p
  else m

/-- RETRAIN (R358): the link is retrained through Recovery. -/
def doRetrain (p : Fin 32) (m : Mach) : Mach := if linkUp m p then recovery m p else m

/-- The registers of a role start from their reset values when a port takes the role (R357). -/
def roleRegsReset (m : Mach) (p : Nat) : Mach :=
  let offs := (R.ptRegs.filter fun r => r.role != .any).map fun r => (r.off, r.dims)
  let inReg (o : Nat) : Bool := offs.any fun x =>
    o == x.1 || x.2.any fun d => x.1 ≤ o && o < x.1 + d.1 * d.2 && (o - x.1) % d.1 == 0
  let b := ptBase p
  let a (k : Nat) : Nat := k / 64 * 8
  { m with regs := m.regs.filter fun c => !(b ≤ a c.1 && a c.1 < b + 0x1000 && inReg (a c.1 - b)) }

/-- A port is taken out of use: its link goes down, and a MEM or IO port's PERST# is held low (R382). -/
def portDown (m : Mach) (p : Nat) : Mach :=
  let b := ptBase p
  let m := if linkUp m p then linkDown m p 0 else fset m b R.PT_LINK_STATE 0
  if 2 ≤ roleOf m p then
    perstSet { m with ports := { m.ports with pulses := m.ports.pulses.filter fun x => x != p } } p true
  else m

/-- A port comes into use again: a MEM port that is not Lost is Waiting, with no LOSS_WAIT running, and training or a PERST# pulse starts (R56,
R58, R382). -/
def portEnable (m : Mach) (p : Nat) : Mach :=
  let b := ptBase p
  let m := if roleOf m p == 2 && memState m p != 2 then
      memSet { m with ports := { m.ports with lossWait := m.ports.lossWait.filter fun x => x != p } } p 1
    else m
  match roleOf m p with
  | 0 => m
  | 1 => if fon m b R.PT_LINK_PRESENT && !fon m b R.PT_LINK_PERST then trainStart m p else m
  | _ => if fon m b R.PT_LINK_PRESENT then pulseStart m p else portAbsent m p

/-- Is the port on a tile that has tripped (Table 17-6)? -/
def tileTripped (m : Mach) (p : Nat) : Bool := m.pwr.tileTrip.contains (p / 8)

/-- PORT_DISABLE (R56, R357, R382): PT_LCTL.DIS is written. Leaving Disabled applies a pending role of profile 3, makes a MEM port
Waiting and pulses PERST#; on a tripped tile the port stays down until the trip ends. -/
def doPortDisable (p : Fin 32) (dis : Bool) (m : Mach) : Mach :=
  let b := ptBase p
  if fon m b R.PT_LCTL_DIS == dis then m
  else if dis then portDown (fset m b R.PT_LCTL_DIS 1) p
  else
    let m := fset m b R.PT_LCTL_DIS 0
    let cfg := fget m b R.PT_ROLE_CFG
    let m := if fget m b R.PT_ROLE_SRC == 3 && cfg != roleOf m p then fset (roleRegsReset m p) b R.PT_ROLE_ROLE cfg else m
    if tileTripped m p then m else portEnable m p

/-- LOSS_WAIT_EXPIRY (R56). -/
def doLossWaitExpiry (p : Fin 32) (m : Mach) : Mach :=
  if roleOf m p == 2 && memState m p == 1 && m.ports.lossWait.contains p.val then memLose m p else m

/-- STARTWAIT_EXPIRY (R432): a port not Up within STARTWAIT of its PERST# release becomes Lost. Where no cable is present PERST# is not released, and
the wait runs from first configuration (DEDUCED, entry 114). -/
def doStartwaitExpiry (p : Fin 32) (m : Mach) : Mach :=
  if roleOf m p == 2 && memState m p == 1 && !m.ports.lossWait.contains p.val && !m.ports.pulses.contains p.val then memLose m p else m

/-- DECLARE (R56): the MEM port is Lost at once. -/
def doDeclare (p : Fin 32) (m : Mach) : Mach := if roleOf m p == 2 then memLose m p else m

/-- READMIT (R58): a Lost port becomes Up only when PLOTS is 0, its link is trained and required IDE is active. -/
def doReadmit (p : Fin 32) (m : Mach) : Mach :=
  let b := ptBase p
  if roleOf m p == 2 && memState m p == 2 && plotsOf m p == 0 && linkUp m p &&
      (!fon m b R.PT_IDE_REQ || fon m b R.PT_LINK_IDE) then memSet (sledStart m p) p 0
  else m

/-- MEM_IDE_KEY_REFRESH (R371): new keys from the random-number source. -/
def doMemIdeKeyRefresh (p : Fin 32) (m : Mach) : Mach :=
  if roleOf m p == 2 && linkUp m p && fon m (ptBase p) R.PT_LINK_IDE then finc (draw m) (ptBase p) R.PT_IDE_REFRESH else m

/-- CXL_MEM_IDE_ACTIVE (R56, R371, R372): the key exchange with the sled is done, in containment mode, and a Waiting port becomes
Up. -/
def doCxlMemIdeActive (p : Fin 32) (m : Mach) : Mach :=
  let b := ptBase p
  if roleOf m p == 2 && linkUp m p && fon m b R.PT_IDE_REQ && !fon m b R.PT_LINK_IDE then
    memReady (fset (fset (fset (draw m) b R.PT_IDE_STATE 2) b R.PT_IDE_MODE 1) b R.PT_LINK_IDE 1) p
  else m

end Sys2Proof.Machine
end

