-- ==== Sys2Proof/Machine/LoopCmd.lean ====
section
/-! DEFINITION. The levelling loop with its rekeys and the placement loop with its trackers (chapter 9). -/

namespace Sys2Proof.Machine

/-- Is every Reservoir controller of the side Serving? -/
def allServing (m : Mach) (sd : Nat) : Bool := (List.range 4).all fun k => rsvState m (sd * 4 + k) == 2

/-- Seconds since the side's last rekey ended or the side started. -/
def sinceRekey (m : Mach) (sd : Nat) : Nat := (m.timeUs - sget 0 m.loops.since sd) / 1000000

/-- Four round keys of 20 bits drawn for an epoch of a side (R104, R227). -/
def drawKeys (m : Mach) (sd ep : Nat) : Mach :=
  let d (i : Nat) : Nat := (Config.freeValue (m.free + i)).toNat % 2 ^ 20
  { m with free := m.free + 4, rsv := { m.rsv with keys := sset [] m.rsv.keys (sd * 2 + ep) [d 0, d 1, d 2, d 3] } }

/-- R227: a rekey starts. -/
def startRekey (m : Mach) (sd : Nat) : Mach :=
  let b := lvlBase sd
  let m := drawKeys m sd (1 - epochOf m sd)
  let m := { m with rsv := { m.rsv with rekPos := mdrop m.rsv.rekPos fun k => k / 128 == sd } }
  fset (fset m b R.LVL_STATUS_STATE 2) b R.LVL_STATUS_PTR 0

/-- LEVELLING_WINDOW_END (R225, R226). RUNWIN stays at 1,023 when more windows than that qualify in a row (DESIGN CHOICE, entry 98), and with EN 0 no
window ends, so that a FORCE already written waits until EN is 1 again (DESIGN CHOICE, entry 99). -/
def doLevellingWindowEnd (sd : Fin 2) (m : Mach) : Mach :=
  let b := lvlBase sd
  if !fon m b R.LVL_CTL_EN || !sideUp m sd then m
  else
    let cnt (c : Nat) : Nat := sget 0 m.loops.chan (sd.val * 128 + c)
    let m0 := { m with loops := { m.loops with chan := mdrop m.loops.chan fun k => k / 128 == sd.val } }
    if rekeying m sd then fset m0 b R.LVL_STATUS_RUNWIN 0
    else if !allServing m sd then fset (fset m0 b R.LVL_STATUS_RUNWIN 0) b R.LVL_STATUS_STATE 3
    else
      let mx := (List.range 128).foldl (fun (r : Nat × Nat) c => if r.2 < cnt c then (c, cnt c) else r) (0, cnt 0)
      let sum := ((List.range 128).map cnt).sum
      let win := fget m b R.LVL_CTL_WINDOW
      let qual := decide (sum * fget m b R.LVL_CTL_RATIO ≤ mx.2 * 8 * 128) && decide (5 * win * fget m b R.LVL_CTL_UTIL ≤ mx.2)
      let run := if qual then min 1023 (fget m b R.LVL_STATUS_RUNWIN + 1) else 0
      let m1 := fset (fset m0 b R.LVL_STATUS_LASTCH mx.1) b R.LVL_LAST_MAXCNT (min mx.2 (2 ^ 20 - 1))
      let m1 := fset (fset m1 b R.LVL_LAST_MEANCNT (min (sum / 128) (2 ^ 20 - 1))) b R.LVL_LAST_SINCE (min (sinceRekey m sd) (2 ^ 24 - 1))
      let m1 := count m1 b 0x01
      let m1 := if qual then count m1 b 0x02 else m1
      if m.loops.force.contains sd.val || (fget m b R.LVL_CTL_SUSTAIN ≤ run && fget m b R.LVL_CTL_MININT ≤ sinceRekey m sd) then
        let m1 := fset { m1 with loops := { m1.loops with force := m1.loops.force.filter fun x => x != sd.val } } b R.LVL_STATUS_RUNWIN 0
        startRekey m1 sd
      else fset (fset m1 b R.LVL_STATUS_RUNWIN run) b R.LVL_STATUS_STATE (if 0 < run then 1 else 0)

/-- FORCE (R226): ignored while a rekey runs. -/
def doForce (sd : Fin 2) (m : Mach) : Mach :=
  if rekeying m sd || m.loops.force.contains sd.val then m
  else { m with loops := { m.loops with force := m.loops.force ++ [sd.val] } }

/-- R232: the new epoch becomes current and the old keys are destroyed. -/
def rekeyEnd (m : Mach) (sd : Nat) : Mach :=
  let b := lvlBase sd
  let e := epochOf m sd
  let m := { m with rsv := { m.rsv with keys := mdel m.rsv.keys (sd * 2 + e), rekPos := mdrop m.rsv.rekPos (fun k => k / 128 == sd) }
                    loops := { m.loops with since := sset 0 m.loops.since sd m.timeUs } }
  let m := fset (fset m b R.LVL_STATUS_EPOCH (1 - e)) b R.LVL_STATUS_STATE 0
  let m := finc (fset (fset m b R.LVL_STATUS_PTR 0) b R.LVL_LAST_SINCE 0) b R.LVL_STATUS_REKEYS
  notice m 5 sd ((1 - e) + fget m b R.LVL_STATUS_REKEYS * 2)

/-- The move of old slot `io` (R231), or none while it waits for the tailwater buffer (R124). A line whose new slot is its old slot is
rewritten in place. -/
def rekeyMove (m : Mach) (sd io : Nat) : Option Mach :=
  let b := lvlBase sd
  let e := epochOf m sd
  if !usable m sd io then some m
  else match slotAt m sd io with
    | none => some m
    | some s =>
      if s.epoch != e then some m
      else
        let l := slotLine m sd io s
        let (i, tag) := slotIdx m sd (1 - e) l
        let new : Slot := { s with tag := tag, epoch := 1 - e }
        let clear (m : Mach) : Mach := setSlot m sd io none
        let spill : Option Mach :=
          let pln := plnOf m sd l
          if takePending m sd pln then some (clear m)
          else if twMustWait m sd pln then none
          else some (clear (count (twTake m sd pln ⟨s.data, s.st == .poisoned⟩ fullMask []) b 0x08))
        if i == io then some (count (setSlot m sd io (some new)) b 0x06)
        else if !usable m sd i then if s.st == .clean then some (clear (count m b 0x07)) else spill
        else match slotAt m sd i with
          | some t =>
            if t.st != .clean then if s.st == .clean then some (clear (count m b 0x07)) else spill
            else some (clear (count (setSlot (predDown m sd (ctlOf sd i) (slotLine m sd i t)) sd i (some new)) b 0x06))
          | none => some (clear (count (setSlot m sd i (some new)) b 0x06))

/-- REKEY_SWEEP_MOVE (R228, R231, R232): the sweep of side `sd` acts on the next old slot of channel `c`. -/
def doRekeySweepMove (sd : Fin 2) (c : Fin 128) (m : Mach) : Mach :=
  let pos := rekeyPos m sd c
  if !rekeying m sd || m.twin.entering || 2 ^ 24 ≤ pos then m
  else match rekeyMove m sd (pos / 32 * 2 ^ 12 + c.val * 32 + pos % 32) with
    | none => m
    | some m =>
      let m := { m with rsv := { m.rsv with rekPos := sset 0 m.rsv.rekPos (sd.val * 128 + c.val) (pos + 1) } }
      let ptr := (List.range 128).foldl (fun r c => min r (rekeyPos m sd c / 32)) (2 ^ 19)
      if ptr == 2 ^ 19 then rekeyEnd m sd else fset m (lvlBase sd) R.LVL_STATUS_PTR ptr

/-- Tracking side of a plot (R235). -/
def trackSide (m : Mach) (plot : Nat) : Nat :=
  if bothUp m then plot % 2 else if sideUp m 1 then 1 else 0

/-- The lowest entry of a side's hot table that is free, in use order of the sorted table. -/
def freeHot (sd : Nat) : List (Nat × Hot) → Nat → Nat
  | [], i => i
  | (k, _) :: t, i => if k / 16384 != sd then freeHot sd t i else if k % 16384 == i then freeHot sd t (i + 1) else i

/-- R236: a note for a plot. -/
def hotNote (m : Mach) (sd plot : Nat) : Mach :=
  let put (k : Nat) (h : Hot) : Mach := { m with loops := { m.loops with hot := mput m.loops.hot k h } }
  let mine := m.loops.hot.filter fun c => c.1 / 16384 == sd
  match mine.find? fun c => c.2.plot == plot with
  | some c => put c.1 { c.2 with count := min 65535 (c.2.count + 1) }
  | none =>
    let f := freeHot sd m.loops.hot 0
    let low := mine.foldl (fun (r : Option (Nat × Hot)) c => match r with
      | none => some c
      | some x => if c.2.count < x.2.count then some c else r) none
    match low with
    | some c =>
      if f < 16384 && (0 < c.2.count || f < c.1 % 16384) then put (sd * 16384 + f) ⟨plot, 1, 0⟩
      else count (put c.1 ⟨plot, min 65535 (c.2.count + 1), 0⟩) (lvlBase sd) 0x0A
    | none => put (sd * 16384 + f) ⟨plot, 1, 0⟩

/-- SAMPLE_NOTE (R235, R236): the sampler of side `sd` passes over `i` of its sled accesses and chooses the next, whose note reaches
the plot's tracking side. With SAMPLE 0 it passes over none. -/
def doSampleNote (sd : Fin 2) (i : Nat) (m : Mach) : Mach :=
  let mine := m.sampleQ.filter fun x => x.1 == sd.val
  let i := if fget m (lvlBase sd) R.PLC_CTL_SAMPLE == 0 then 0 else i
  match mine[i]? with
  | none => m
  | some (_, plot) =>
    let m := { m with sampleQ := m.sampleQ.filter (fun x => x.1 != sd.val) ++ mine.drop (i + 1) }
    let t := trackSide m plot
    if fon m (lvlBase t) R.PLC_CTL_EN then hotNote (count m (lvlBase t) 0x09) t plot else m

/-- Load of port `p` in the side's PLC_LOAD. -/
def loadOf (w : Line) (p : Nat) : Nat := min 1000 (bitsOf w.toNat (16 * p) 16)

/-- Trackers of a side in use. -/
def migRun (m : Mach) (sd : Nat) : Nat := ((List.range 16).filter fun t => fon m (lvlBase sd + 16 * t) R.PLC_MIGT_EN).length

/-- A tracker pair whose EN is 0 on both sides (R239); which one is an open value. -/
def freePair (m : Mach) : Option Nat :=
  anyOf m <| (List.range 16).filter fun t => !fon m (lvlBase 0 + 16 * t) R.PLC_MIGT_EN && !fon m (lvlBase 1 + 16 * t) R.PLC_MIGT_EN

/-- R238, R239: waiting proposals of a side with AUTO 1 are posted to the internal queue as migration calls. -/
def postProps (m : Mach) : Mach :=
  m.loops.props.foldl (fun m x =>
    let b := lvlBase x.sd
    match freePair m with
    | some t =>
      if fon m b R.PLC_CTL_AUTO && migRun m x.sd < fget m b R.PLC_CTL_MAXMIG && m.ports.queues.iq.length < 64 then
        let d : IqDesc := { entry := 0x10, tag := x.seq
                            args := [x.plot, x.dst, x.src, x.count + x.seq * 2 ^ 16, x.sd + t * 2 ^ 8, 0, 0] }
        let m := draw { m with loops := { m.loops with props := dropFirst (fun y => y == x) m.loops.props } }
        count { m with ports := { m.ports with queues := { m.ports.queues with iq := m.ports.queues.iq ++ [d] } } } aonBase 2
      else m
    | none => m) m

/-- An element with the highest value of `f`; which of several is an open value. -/
def pick {α : Type} (m : Mach) (f : α → Nat) (l : List α) : Option α :=
  let top := l.foldl (fun n x => max n (f x)) 0
  anyOf m (l.filter fun x => f x == top)

/-- R237: one proposal, with the loads as they stand; none when there is none to make. `share` is an open value. -/
def proposeOne (m : Mach) (sd : Nat) (load : List Nat) : Option (Mach × List Nat) :=
  let b := lvlBase sd
  let ports := (List.range 32).filter fun p => roleOf m p == 2
  let l (p : Nat) : Nat := load.getD p 0
  let dests := ports.filter fun p => bitOf (fget m b R.PLC_CTL2_DEST) p && memState m p == 0
  let hs := pick m (fun p => l p) ports
  let cs := pick (draw m) (fun p => 1000 - l p) dests
  let m := draw (draw m)
  match hs, cs with
  | some h, some c =>
    if l h < fget m b R.PLC_CTL_PORT_HI * 10 || fget m b R.PLC_CTL_PORT_LO * 10 < l c then none
    else
      let ok (x : Nat × Hot) : Bool :=
        let e := plcGet m sd x.2.plot
        x.1 / 16384 == sd && fget m b R.PLC_CTL_MINHOT ≤ x.2.count && x.2.hold == 0 && plcV e && (plcLoc1 e).1 == h && !plcMig e &&
        (!plcM2 e || (plcLoc2 e).1 != c)
      let best := pick m (fun x => x.2.count) (m.loops.hot.filter ok)
      let m := draw m
      match best with
      | none => none
      | some (k, x) =>
        let seq := sget 0 m.loops.seq sd
        let m := count { m with loops := { m.loops with hot := mput m.loops.hot k { x with hold := 16 }
                                                        seq := sset 0 m.loops.seq sd ((seq + 1) % 1024) } } b 0x0B
        let m :=
          if (m.loops.props.filter fun y => y.sd == sd).length < 64 then
            { m with loops := { m.loops with props := m.loops.props ++ [⟨sd, x.plot, h, c, x.count, seq⟩] } }
          else fsat m b R.PLC_STATUS_DROPS
        let share := drawn m % 1001
        some (draw m, (load.set h (l h - share)).set c (l c + share))
  | _, _ => none

/-- Up to `n` proposals. -/
def proposeN : Nat → Mach → Nat → List Nat → Mach
  | 0, m, _, _ => m
  | n + 1, m, sd, load => match proposeOne m sd load with
    | some (m', load') => proposeN n m' sd load'
    | none => m

/-- PLACEMENT_TICK (R236, R237): counts halve, hold-offs decrement, the ports' measured loads (16 bits each, in 0.1 %) are recorded
and proposals are made. -/
def doPlacementTick (sd : Fin 2) (loads : Line) (m : Mach) : Mach :=
  let b := lvlBase sd
  if !fon m b R.PLC_CTL_EN || !sideUp m sd then m
  else
    let halve (c : Nat × Hot) : Nat × Hot :=
      if c.1 / 16384 == sd.val then (c.1, { c.2 with count := c.2.count / 2, hold := c.2.hold - 1 }) else c
    let m := { m with loops := { m.loops with hot := m.loops.hot.map halve } }
    let load (p : Nat) : Nat := if roleOf m p == 2 then loadOf loads p else 0
    let m := forN 8 (fun j m =>
      let bj := b + 8 * j
      fset (fset (fset (fset m bj R.PLC_LOAD_LOAD0 (load (4 * j))) bj R.PLC_LOAD_LOAD1 (load (4 * j + 1)))
        bj R.PLC_LOAD_LOAD2 (load (4 * j + 2))) bj R.PLC_LOAD_LOAD3 (load (4 * j + 3))) m
    proposeN (fget m b R.PLC_CTL_PROPMAX) m sd ((List.range 32).map load)

/-- POP (R238): the oldest proposal of the side is discarded. -/
def doPop (sd : Fin 2) (m : Mach) : Mach :=
  { m with loops := { m.loops with props := dropFirst (fun x => x.sd == sd.val) m.loops.props } }

/-- TRACKER_ENABLE (R240): PLC_MIGT is written with PLOT and EN; EN 1 sets every step bit, EN 0 frees the tracker. -/
def trackerSet (sd t plot : Nat) (en : Bool) (m : Mach) : Mach :=
  let b := lvlBase sd + 16 * t
  let m := if fon m b R.PLC_MIGT_EN then m else fset m b R.PLC_MIGT_PLOT plot
  let m := fset m b R.PLC_MIGT_EN (b2n en)
  if en then forN 8 (fun j m => fset m (lvlBase sd + 64 * t + 8 * j) R.PLC_MIGBM_BITS (2 ^ 64 - 1)) m
  else fset m b R.PLC_MIGT_HOLD 0

def doTrackerEnable (sd : Fin 2) (t : Fin 16) (plot : BitVec 27) (en : Bool) : Mach → Mach := trackerSet sd t plot.toNat en

/-- TRACKER_HOLD (R241): HOLD is written. -/
def doTrackerHold (sd : Fin 2) (t : Fin 16) (hold : Bool) (m : Mach) : Mach :=
  fset m (lvlBase sd + 16 * t.val) R.PLC_MIGT_HOLD (b2n hold)

/-- HOLD_EXPIRY (R241): HOLDMAX µs after it was set. -/
def doHoldExpiry (sd : Fin 2) (t : Fin 16) (m : Mach) : Mach :=
  let b := lvlBase sd + 16 * t.val
  if fon m b R.PLC_MIGT_HOLD then
    notice (fset (fset (count m (lvlBase sd) 0x0E) b R.PLC_MIGT_HOLD 0) b R.PLC_MIGT_HOLDEXP 1) 6 sd t.val
  else m

/-- Is no sled write of the side to the plot Issued (PLC_MIGT.QUIET)? -/
def plotQuiet (m : Mach) (sd plot : Nat) : Bool := !m.tw.any fun e => e.sd == sd && e.st == .issued && plotOf e.pln == plot

end Sys2Proof.Machine
end

