-- ==== Sys2Proof/Machine/EngCore.lean ====
section
/-! DEFINITION. Sluice engines: registers, scratch, fetch, issue, traps and call results (R246 to R253, R266 to R274, R279 to R284), and
the dispatcher (R258 to R261). -/

namespace Sys2Proof.Machine

/-- Side of an engine. -/
def engSide (e : Nat) : Nat := e / 16

/-- Engine `e` (global number). -/
def engOf (m : Mach) (e : Nat) : Eng := sget Eng.fresh m.eng.eng e

/-- Writes it. -/
def engSet (m : Mach) (e : Nat) (x : Eng) : Mach := { m with eng := { m.eng with eng := sset Eng.fresh m.eng.eng e x } }

/-- Register g`r` of an engine; g0 reads 0 (R279). -/
def greg (m : Mach) (e r : Nat) : Word := if r = 0 then 0 else sget 0 m.eng.greg (32 * e + r)

/-- Writes g`r`; a write of g0 is discarded (R279). -/
def gput (m : Mach) (e r : Nat) (v : Word) : Mach :=
  if r = 0 then m else { m with eng := { m.eng with greg := sset 0 m.eng.greg (32 * e + r) v } }

/-- Registers g0 to g31 of an engine become 0. -/
def gregsClear (e : Nat) (m : Mach) : Mach := { m with eng := { m.eng with greg := mdrop m.eng.greg fun k => k / 32 == e } }

/-- An engine's scratch memory becomes 0 (R248). -/
def scrClear (e : Nat) (m : Mach) : Mach := { m with eng := { m.eng with scratch := mdrop m.eng.scratch fun k => k / 65536 == e } }

/-- `n` bytes of an engine's scratch memory from byte `a`, little-endian (R279). -/
def scrGet (m : Mach) (e : Nat) : Nat → Nat → Nat
  | 0, _ => 0
  | n + 1, a => (sget 0 m.eng.scratch (65536 * e + a)).toNat + 256 * scrGet m e n (a + 1)

/-- Writes `n` bytes. -/
def scrPut (e : Nat) : Nat → Nat → Nat → Mach → Mach
  | 0, _, _, m => m
  | n + 1, a, v, m =>
    let s := sset 0 m.eng.scratch (65536 * e + a) (BitVec.ofNat 8 v)
    scrPut e n (a + 1) (v / 256) { m with eng := { m.eng with scratch := s } }

/-- Key of word `w` of bank `b` of side `sd`'s program store. -/
def progKey (sd b w : Nat) : Nat := (sd * 2 + b) * 2 ^ 18 + w

/-- Spare page that serves page `w` / 1024 of a bank, if any (R407). -/
def spareOf (m : Mach) (sd b w : Nat) : Option Nat :=
  (List.range 8).find? fun i =>
    let a := 0x80 * sd + 0x40 * b + 8 * i
    fon m a R.ERR_PSMAP_V && fget m a R.ERR_PSMAP_PAGE == w / 1024

/-- Where word `w` of a bank is held: in the bank or in the spare page that serves it. -/
def progAt (m : Mach) (sd b w : Nat) : Nat := match spareOf m sd b w with
  | some i => 2 ^ 20 + (8 * (2 * sd + b) + i) * 1024 + w % 1024
  | none => progKey sd b w

/-- A program word. -/
def progWord (m : Mach) (sd b w : Nat) : Nat :=
  let k := progAt m sd b w
  match mget m.eng.prog k with
  | some v => v
  | none =>
    let base := sget 0 m.eng.progBase (2 * sd + b)
    if base == 0 || 2 ^ 20 ≤ k then 0 else Config.shippedWord base w % 2 ^ 32

/-- Is the block of a program word uncorrectable (R402)? -/
def progBad (m : Mach) (sd b w : Nat) : Bool := !m.eng.progBad.isEmpty && m.eng.progBad.contains (progAt m sd b w / 8)

/-- Instruction words of the formats of Table 11-1. -/
def encA (op rd ra rb fn : Nat) : Nat := op * 2 ^ 26 + rd * 2 ^ 21 + ra * 2 ^ 16 + rb * 2 ^ 11 + fn
def encI (op rd ra imm : Nat) : Nat := op * 2 ^ 26 + rd * 2 ^ 21 + ra * 2 ^ 16 + imm
def encJ (rd off : Nat) : Nat := 0x26 * 2 ^ 26 + rd * 2 ^ 21 + off
def encX (xop rd ra rb q : Nat) : Nat := 0x3E * 2 ^ 26 + rd * 2 ^ 21 + ra * 2 ^ 16 + rb * 2 ^ 11 + xop * 8 + q

/-- The FENCE word (Table 11-14), which the table of steps gives no row: an engine passes it before its next instruction. -/
def fenceWord : Nat := encA 0x3F 0 0 0 0

/-- Queue number of a call's results: its port's, or 32 for the keeper result queue. -/
def CallFrom.queue : CallFrom → Nat
  | .host p => p
  | _ => 32

/-- Result entries of queue `q` reserved by its calls (R261, R268). -/
def resRsv (m : Mach) (q : Nat) : Nat :=
  (m.ports.queues.calls.map fun c => if c.from_.queue == q && !c.gone then 1 + b2n c.first else 0).sum

/-- Free, unreserved entries of queue `q`. -/
def resFree (m : Mach) (q : Nat) : Nat := 256 - (resultsOf m q).length - resRsv m q

/-- Puts a result word at the end of queue `q`. -/
def resPut (m : Mach) (q w : Nat) : Mach :=
  { m with ports := { m.ports with queues := { m.ports.queues with results := m.ports.queues.results ++ [(q, w)] } } }

/-- A result of a call becomes readable (R265, R268, R270); the results of a call whose port has gone down are counted and dropped. -/
def resSend (m : Mach) (c : Call) (notify : Bool) (status value : Nat) : Mach :=
  match c.from_ with
  | .host p =>
    if c.gone then fsat m (ptBase p) R.PT_QERR_LOST_CNT
    else
      let m := resPut m p (resWord status c.tag value)
      if notify then msix m p 0 else m
  | _ => resPut m 32 (resWord status c.tag value)

/-- The call record with identity `id`. -/
def callOf (m : Mach) (id : Nat) : Option Call := m.ports.queues.calls.find? fun c => c.id == id

/-- Writes a call record. -/
def callPut (m : Mach) (c : Call) : Mach :=
  { m with ports := { m.ports with queues := { m.ports.queues with
      calls := mapFirst (fun x => x.id == c.id) (fun _ => c) m.ports.queues.calls } } }

/-- Frees a call record with its reservations. -/
def callFree (m : Mach) (id : Nat) : Mach :=
  { m with ports := { m.ports with queues := { m.ports.queues with calls := m.ports.queues.calls.filter fun c => c.id != id } } }

/-- Does no engine hold a handle of the unit? -/
def unheld (m : Mach) (flume : Bool) (unit : Nat) : Bool :=
  !m.eng.eng.any fun x => x.2.handles.any fun h => h.flume == flume && h.unit == unit

/-- Frees units that are bound to no handle and have ended (R295, R322). -/
def unitsFree (m : Mach) : Mach :=
  let ranges := m.eng.ranges.filter fun r => !(r.ended && unheld m false r.n)
  let flumes := m.eng.flumes.filter fun f => !(f.ended && unheld m true f.c)
  { m with eng := { m.eng with ranges := ranges, flumes := flumes } }

/-- Does the call hold the unit? -/
def holds (x : Eng) (flume : Bool) (unit : Nat) : Bool := x.handles.any fun h => h.flume == flume && h.unit == unit

/-- A call that ends by trap or reset stops its range and flume operations at their next quantum or step (R252). -/
def unitsStop (m : Mach) (x : Eng) : Mach :=
  let ranges := m.eng.ranges.map fun r => if holds x false r.n then { r with stop := true } else r
  let flumes := m.eng.flumes.map fun f => if holds x true f.c then { f with stop := true } else f
  { m with eng := { m.eng with ranges := ranges, flumes := flumes } }

/-- Region entries that the engine's program holds are held no more; those not yet installed are as if not begun (R300,
Table 11-12). -/
def plansDrop (m : Mach) (e : Nat) : Mach :=
  let plans := m.comp.plans.filter fun x => !(x.eng == some e && !x.installed)
  { m with comp := { m.comp with plans := plans.map fun x => if x.eng == some e then { x with eng := none } else x } }

/-- The call of engine `e` ends; with a status it posts it as its end status (R268). The engine goes to state `st`. -/
def callEnd (m : Mach) (e : Nat) (st : EngSt) (status : Option (Nat × Nat)) : Mach :=
  let x := engOf m e
  let m := match x.call.bind (callOf m) with
    | none => m
    | some c =>
      let m := callFree m c.id
      match status with
      | some (s, v) => resSend m c c.notify s v
      | none => m
  let m := plansDrop m e
  unitsFree (engSet m e { x with st := st, call := none, handles := [], wait := .none, p := none, trap := none, late := false, slFence := false
                                 fret := none, commit := none })

/-- Trap word of Table 10-7. -/
def trapWord (e bank pc : Nat) : Nat := pc + bank * 2 ^ 18 + e * 2 ^ 24

/-- The engine stops issuing and drains for a trap at its instruction (R274); a refused store's trap replaces it (R511). -/
def trapNow (m : Mach) (e : Nat) (code : TrapCode) (addr : Nat) : Mach :=
  let x := engOf m e
  engSet m e { x with st := .draining, wait := .none, p := none, trap := some (x.trap.getD ⟨code, x.pc, addr⟩) }

/-- What an engine meets at an instruction boundary: a refused store's trap, then its time limit (R252, R511). -/
def boundary (m : Mach) (e : Nat) : Mach :=
  let x := engOf m e
  if x.trap.isSome then engSet m e { x with st := .draining, p := none } else if x.late then trapNow m e .timeout 0 else m

/-- An instruction ends and the engine continues at `pc`. -/
def retireTo (m : Mach) (e pc : Nat) : Mach :=
  let x := engOf m e
  let m := engSet m e { x with st := .running, pc := pc % 2 ^ 18, wait := .none, p := none, instret := x.instret + 1 }
  boundary (sampleCount (count m (seBase (engSide e)) 3) 1 e (if x.queue == 0 then some x.port else none)) e

/-- An instruction ends and the engine continues at the next word (R280). -/
def retire (m : Mach) (e : Nat) : Mach := retireTo m e ((engOf m e).pc + 1)

/-- The engine waits at its instruction (Table 10-3). -/
def engWaits (m : Mach) (e : Nat) : Mach := engSet m e { engOf m e with st := .waiting }

/-- Passes FENCE words at the PC while the store buffer is empty (R185). -/
def passFences : Nat → Nat → Mach → Mach
  | 0, _, m => m
  | n + 1, e, m =>
    let x := engOf m e
    if x.st == .running && x.sb.isEmpty && x.pc < 0x3FC00 && !progBad m (engSide e) x.bank x.pc &&
      progWord m (engSide e) x.bank x.pc == fenceWord then passFences n e (retire m e) else m

/-- Issues an instruction on engine `e` when the word at its PC satisfies `ok`: the checks of fetch (R280, R284, R402) and of an
instruction boundary come first, and those of a step boundary where the instruction has waited (R291). -/
def issueIf (e : Nat) (ok : Nat → Bool) (k : Mach → Mach) (m : Mach) : Mach :=
  let x := engOf m e
  if !(x.st == .running || x.st == .waiting) || x.wait != .none then m
  else
    let m := passFences (2 ^ 18) e m
    let x := engOf m e
    if (x.st == .running && x.trap.isSome) || x.late then boundary m e
    else if !(x.st == .running || x.st == .waiting) then m
    else if 0x3FC00 ≤ x.pc then trapNow m e .access 0
    else if progBad m (engSide e) x.bank x.pc then trapNow m e .ifetchUe 0
    else if ok (progWord m (engSide e) x.bank x.pc) then k m
    else m

/-- Issues the instruction with word `w`. -/
def issue (e w : Nat) (k : Mach → Mach) : Mach → Mach := issueIf e (fun x => x == w) k

/-- Writes rd and ends the instruction. -/
def retireRd (e rd : Nat) (v : Word) (m : Mach) : Mach := retire (gput m e rd v) e

/-- Keeper-only instructions trap PRIV in a tenant call (R250, R293). -/
def keeperOnly (e : Nat) (k : Mach → Mach) (m : Mach) : Mach := if (engOf m e).keeper then k m else trapNow m e .priv 0

/-- Entry of call `n` in the active bank of side `sd` (Table 10-4): its two low words. -/
def callEntry (m : Mach) (sd n : Nat) : Nat :=
  let b := fget m (seBase sd) R.SE_PSCTL_ACTIVE
  progWord m sd b (0x3FC00 + 4 * n) + progWord m sd b (0x3FC00 + 4 * n + 1) * 2 ^ 32

/-- Is a side eligible for dispatch (R257)? In Starting and Recovery modes its AON_LOAD flag decides. -/
def eligible (m : Mach) (sd : Nat) : Bool :=
  if opMode m == 0 || opMode m == 4 then fon m aonBase (if sd == 0 then R.AON_LOAD_SIDE_A else R.AON_LOAD_SIDE_B)
  else
    let gen (s : Nat) : Nat := fget m (seBase s) R.SE_PSCTL_ACTGEN
    let top := max (if sideUp m 0 then gen 0 else 0) (if sideUp m 1 then gen 1 else 0)
    sideUp m sd && gen sd == top

/-- Calls handed to a side's dispatcher and not yet started: its ready list. -/
def readyOf (m : Mach) (sd : Nat) : List Call := m.ports.queues.calls.filter fun c => c.side == sd && c.eng.isNone

/-- Engines of a side that are Idle and not spoken for. -/
def idleOf (m : Mach) (sd : Nat) : Nat :=
  ((List.range 16).filter fun i => (engOf m (16 * sd + i)).st == .idle).length - (readyOf m sd).length

/-- Idle engines of a side that a call may use (R258). -/
def idleFor (m : Mach) (sd : Nat) (keeper : Bool) : Nat :=
  if keeper then idleOf m sd else idleOf m sd - fget m (seBase sd) R.SE_CTL_KRES

/-- A descriptor as the dispatcher reads it. -/
structure Desc where
  from_ : CallFrom
  slot : Nat
  entry : Nat
  tag : Nat
  notify : Bool
  order : Bool
  args : List Nat
deriving DecidableEq, Repr

/-- The head descriptor of a queue (R258, R262): the slot after those taken, once committed. -/
def headOf (m : Mach) (f : CallFrom) : Option Desc :=
  match f with
  | .internal => m.ports.queues.iq.head?.map fun d =>
      { from_ := f, slot := sget 0 m.ports.queues.taken 33 % 64, entry := d.entry, tag := d.tag, notify := false, order := false, args := d.args }
  | _ =>
    let q := f.queue
    let s := sget 0 m.ports.queues.taken q % 64
    if slotBusy m q s then
      let w := slotWord m q s 0
      some { from_ := f, slot := s, entry := bitsOf w 0 8, tag := bitsOf w 8 16, notify := bitOf w 24, order := bitOf w 25
             args := (List.range 7).map fun i => slotWord m q s (i + 1) }
    else none

/-- Frees the slot of a taken or refused descriptor (R260, R261, R263). -/
def takeHead (m : Mach) (d : Desc) : Mach :=
  match d.from_ with
  | .internal =>
    let qs := m.ports.queues
    { m with ports := { m.ports with queues := { qs with iq := qs.iq.drop 1, taken := sset 0 qs.taken 33 (sget 0 qs.taken 33 + 1) } } }
  | f =>
    let q := f.queue
    let qs := m.ports.queues
    let n := sget 0 qs.taken q
    let qs := { qs with commits := qs.commits.filter (fun k => k != q * 64 + d.slot), taken := sset 0 qs.taken q (n + 1) }
    let m := { m with ports := { m.ports with queues := qs } }
    match f with
    | .host p => finc m (ptBase p) R.PT_CMDQ_CRED_CRED
    | _ => finc m mgtBase R.PT_CMDQ_CRED_CRED

/-- The queue a refusal reports for: a call record that holds nothing. -/
def Desc.call (d : Desc) : Call :=
  { id := 0, from_ := d.from_, tag := d.tag, entry := d.entry, notify := d.notify, first := false, posted := false, gone := false
    side := 0, eng := none, args := d.args, pc := 0, keeper := false, bank := 0, gen := 0, maxt := 0 }

/-- R249: the privilege of a call of an entry, or none when it is denied. -/
def privOf (m : Mach) (sd : Nat) (f : CallFrom) (ent : Nat) : Option Bool :=
  match f with
  | .host p =>
    if !bitOf ent (32 + p) then none
    else if bitOf ent 19 then (if bitOf (fget m (seBase sd) R.SE_CTL_KPORTS) p then some true else none)
    else some false
  | _ => if bitOf ent 19 then some true else none

/-- The side that runs a call of an entry (R259). -/
def sideFor (m : Mach) (ent : Nat) (keeper : Bool) (arg0 : Nat) : Nat :=
  let any : Nat :=
    if !eligible m 1 then 0
    else if !eligible m 0 then 1
    else if idleFor m 0 keeper < idleFor m 1 keeper then 1 else 0
  let prefer (sd : Nat) : Nat := if eligible m sd then sd else 1 - sd
  match bitsOf ent 20 2 with
  | 0 => any
  | 1 => prefer 0
  | 2 => prefer 1
  | _ => prefer (halfOf m (bitsOf arg0 6 42))

/-- What the dispatcher finds for the head descriptor of a queue. -/
inductive Dispatch where
  /-- A condition of R258 other than an idle engine fails. -/
  | wait
  /-- It waits for an idle engine of the side. -/
  | noEngine (sd : Nat)
  /-- The side's cluster is not On; its handoff carries WAKE (R437). -/
  | asleep (sd : Nat)
  /-- No side is eligible (R259). -/
  | sideLost
  /-- R260, decided by the entry table of the side. -/
  | refused (sd status value : Nat)
  /-- It goes to the side as a call of an entry. -/
  | call (sd ent : Nat) (keeper : Bool)
deriving DecidableEq, Repr

/-- The calls of a queue that its port tile, the mailbox or the always-on block records. -/
def callsOf (m : Mach) (f : CallFrom) : List Call := m.ports.queues.calls.filter fun c => c.from_ == f

/-- Is the queue a command queue? -/
def CallFrom.isHost : CallFrom → Bool
  | .host _ => true
  | _ => false

/-- The side whose entry table decides a descriptor: that of its SIDE where that side is eligible. -/
def lookSide (m : Mach) (entry : Nat) : Nat :=
  let look := if eligible m 0 then 0 else 1
  match bitsOf (callEntry m look entry) 20 2 with
  | 1 => if eligible m 0 then 0 else 1
  | 2 => if eligible m 1 then 1 else 0
  | _ => look

/-- R258 to R260: the decision on a queue's head descriptor. `ue`: one of its words is uncorrectable. -/
def decideHead (m : Mach) (f : CallFrom) (d : Desc) (ue : Bool) : Dispatch :=
  let mine := callsOf m f
  if resFree m f.queue < 2 || (d.order && !mine.isEmpty) then .wait
  else if f.isHost && (opMode m == 0 || opMode m == 4) then .wait
  else if !eligible m 0 && !eligible m 1 then .sideLost
  else
    let look := lookSide m d.entry
    let ent := callEntry m look d.entry
    if !clusterOn m look then .asleep look
    else if ue then .refused look 0x0C d.slot
    else if !bitOf ent 18 then .refused look 0x08 d.entry
    else match privOf m look f ent with
      | none => .refused look 0x09 d.entry
      | some keeper =>
        let sd := sideFor m ent keeper (d.args.getD 0 0)
        if f.isHost && (fget m (seBase sd) R.SE_CTL_PORTMAX ≤ mine.length || 32 ≤ mine.length) then .wait
        else if !clusterOn m sd then .asleep sd
        else if idleFor m sd keeper == 0 then .noEngine sd
        else .call sd ent keeper

/-- A descriptor leaves its queue with a status as its result (R259, R260). -/
def refuse (m : Mach) (d : Desc) (status value : Nat) : Mach := resSend (takeHead m d) d.call d.notify status value

/-- A descriptor is handed to the dispatcher of a side: its call is recorded and its slot is free (R259, R261). -/
def handCall (m : Mach) (d : Desc) (sd ent : Nat) (keeper : Bool) : Mach :=
  let c : Call := { d.call with id := m.nextId, first := true, side := sd, pc := bitsOf ent 0 18, keeper := keeper
                                bank := fget m (seBase sd) R.SE_PSCTL_ACTIVE, gen := fget m (seBase sd) R.SE_PSCTL_ACTGEN, maxt := bitsOf ent 22 8 }
  let m := takeHead { m with nextId := m.nextId + 1 } d
  let m := { m with ports := { m.ports with queues := { m.ports.queues with calls := m.ports.queues.calls ++ [c] } } }
  finc (count m (seBase sd) 1) (seBase sd) R.SE_DISP_CALLS

/-- What the dispatcher does with the head descriptor of a queue; none while it must wait (R258 to R261). -/
def dispatchOne (m : Mach) (f : CallFrom) (ue : Bool) : Option Mach :=
  match headOf m f with
  | none => none
  | some d => match decideHead m f d ue with
    | .wait => none
    | .noEngine _ => none
    | .asleep _ => none
    | .sideLost => some (refuse m d 0x0A 2)
    | .refused sd status value => some (refuse (count m (seBase sd) 2) d status value)
    | .call sd ent keeper => some (handCall m d sd ent keeper)

/-- The HOST ports in the order in which the dispatcher tries them. -/
def turnOrder (m : Mach) : List Nat := (List.range 32).map fun i => (m.eng.turn + 1 + i) % 32

/-- A corrected word of a queue is counted and recorded (R276, R404). -/
def queueCe (m : Mach) (f : CallFrom) : Mach := match f with
  | .host p => err (fsat m (ptBase p) R.PT_QERR_CQ_CE) (errOf 0 0x12 0x03 p)
  | .keeper => err (fsat m mgtBase R.PT_QERR_CQ_CE) (errOf 0 0x12 0x02 0)
  | .internal => err (fsat m aonBase R.AON_IQSTAT_CE) (errOf 0 0x12 0x01 0)

/-- Does the check leave the word uncorrectable? -/
def ckBad (ck : Check) : Bool := ck.isBad

/-- A queue's head descriptor is taken or refused; `ck` is what the check of its words gives. -/
def dispatchFrom (m : Mach) (ck : Check) (f : CallFrom) : Option Mach :=
  (dispatchOne m f (ckBad ck)).map fun m' => if ckBad ck || ck == .good then m' else queueCe m' f

/-- A queue's head descriptor that goes to a cluster which sleeps or drains wakes it and waits (R437, Table 17-3). -/
def wakeFor (m : Mach) (f : CallFrom) : Mach :=
  match (headOf m f).map fun d => decideHead m f d false with
  | some (.asleep sd) => packetWake m sd
  | _ => m

/-- The queues whose heads the dispatcher looks at: internal, keeper, then the command queues. -/
def dispatchQueues (m : Mach) : List CallFrom :=
  [.internal, .keeper] ++ ((turnOrder m).filter fun p => roleOf m p == 1).map .host

/-- DESCRIPTOR_DISPATCH (R258): the internal queue, the keeper queue, then the command queues round robin. -/
def doDescriptorDispatch (ck : Check) (m : Mach) : Mach :=
  let m := (dispatchQueues m).foldl wakeFor m
  match dispatchFrom m ck .internal with
  | some m' => m'
  | none => match dispatchFrom m ck .keeper with
    | some m' => m'
    | none =>
      match (turnOrder m).findSome? fun p =>
          if roleOf m p == 1 then (dispatchFrom m ck (.host p)).map fun m' => { m' with eng := { m'.eng with turn := p } } else none with
      | some m' => m'
      | none => m

/-- Caller word (Table 10-2). -/
def callerWord (x : Eng) : Nat := x.port + x.queue * 2 ^ 5 + b2n x.keeper * 2 ^ 7 + x.tag * 2 ^ 8 + x.entry * 2 ^ 24

/-- R252: a call's time limit in µs. -/
def limitOf (c : Call) : Option Nat := if c.maxt == 0 then (if c.keeper then none else some 100000) else some (c.maxt * 10000)

/-- A program-store block found uncorrectable is recorded once, as UCC (R402). -/
def progMark (m : Mach) (sd b w : Nat) : Mach :=
  if progBad m sd b w then m
  else
    let m := { m with eng := { m.eng with progBad := (progAt m sd b w / 8) :: m.eng.progBad } }
    err m { errOf 1 0x0D 0x12 sd with loc := progKey 0 b w }

/-- A corrected call record of a HOST port counts with its result queue (R276). -/
def recordCe (m : Mach) (f : CallFrom) : Mach := match f with
  | .host p => err (fsat m (ptBase p) R.PT_QERR_RQ_CE) (errOf 0 0x0F 0x03 p)
  | _ => m

/-- CALL_START (R247, R248): the oldest call handed to the side starts on its idle engine `e`. `ue`: the block of its first
instruction is uncorrectable; `ce`: its entry of the ready list was corrected; `cr`: so was its call record in the port tile (R276). -/
def doCallStart (e : Fin 32) (ue ce cr : Bool) (m : Mach) : Mach :=
  let sd := engSide e
  let x := engOf m e
  match (readyOf m sd).head? with
  | none => m
  | some c =>
    if x.st != .idle then m
    else
      let (port, queue) := match c.from_ with
        | .host p => (p, 0)
        | .keeper => (0, 1)
        | .internal => (0, 2)
      let y : Eng := { Eng.fresh with st := .running, pc := c.pc, bank := c.bank, keeper := c.keeper, port := port, queue := queue
                                      tag := c.tag, entry := c.entry, gen := c.gen, call := some c.id, start := m.timeUs
                                      limit := limitOf c, sb := x.sb, ghosts := x.ghosts }
      let m := callPut m { c with eng := some e.val }
      let m := engSet m e y
      let m := gregsClear e m
      let m := forN 7 (fun i m => gput m e (i + 1) (BitVec.ofNat 64 (c.args.getD i 0))) m
      let m := gput m e 8 (BitVec.ofNat 64 (callerWord y))
      let m := if c.keeper then m else scrClear e m
      let m := if ce then err (fsat m (seBase sd) R.SE_DISP_CE) (errOf 0 0x0F 0x12 sd) else m
      let m := if cr then recordCe m c.from_ else m
      if ue then progMark m sd c.bank c.pc else m

/-- CALL_TIME_LIMIT (R252): the call's limit has passed; the trap is taken at the next instruction or step boundary. -/
def doCallTimeLimit (e : Fin 32) (m : Mach) : Mach :=
  let x := engOf m e
  if x.limit.isSome && (x.st == .running || x.st == .waiting) then
    let m := engSet m e { x with late := true }
    if x.st == .running && x.wait == .none then boundary m e else m
  else m

/-- STEP_CUT (R291): an engine between two steps of a waiting instruction acts on its time limit; PC stays at the instruction. -/
def doStepCut (e : Fin 32) (m : Mach) : Mach :=
  let x := engOf m e
  if x.late && (x.st == .waiting || x.st == .running) && x.wait == .none then boundary m e else m

/-- TRAP_DRAIN_COMPLETE (R274): the store buffer is empty; the trap is recorded and its status posted. -/
def doTrapDrainComplete (e : Fin 32) (m : Mach) : Mach :=
  let x := engOf m e
  match x.st, x.trap with
  | .draining, some t =>
    if !x.sb.isEmpty then m
    else
      let sd := engSide e
      let b := seBase sd + e.val % 16 * 0x100
      let m := fset (fset (fset (fset m b R.SE_TRAP_CODE t.code.num) b R.SE_TRAP_VALID 1) b R.SE_TRAP_PC t.pc) b R.SE_TRAP_BANK x.bank
      let m := fset (fsat m b R.SE_TRAP_COUNT) b R.SE_TRAPADDR_ADDR t.addr
      let m := callEnd (unitsStop m x) e (if fon m (seBase sd) R.SE_CTL_HOLDTRAP then .held else .idle)
        (some (0x10 + t.code.num, trapWord e x.bank t.pc))
      notice (count m (seBase sd) 6) 0x0B e (t.code.num + t.pc * 2 ^ 3 + x.bank * 2 ^ 21)
  | _, _ => m

/-- ENGINE_RESET (R251, Table 7-7): unsent stores are discarded; a running call ends with ENGRESET. -/
def doEngineReset (e : Fin 32) (m : Mach) : Mach :=
  let x := engOf m e
  let ghost := match x.wait with
    | .none => []
    | .load _ _ _ a got => [match got with
      | none => a / 64
      | some _ => a / 64 + 1]
    | .amo _ _ _ a => [a / 64]
  let m := callEnd (unitsStop m x) e .idle (if x.call.isSome then some (0x0B, e.val) else none)
  let y := engOf m e
  engSet m e { y with sb := (y.sb.filter fun s => s.sent).map fun s => { s with orphan := true }, ghosts := y.ghosts ++ ghost, late := false }

/-- ENGINE_RELEASE (R251). -/
def doEngineRelease (e : Fin 32) (m : Mach) : Mach :=
  let x := engOf m e
  if x.st == .held then engSet m e { x with st := .idle } else m

/-- Engines that still fetch, or will fetch, from the inactive bank of a side (R256). -/
def oldBusy (m : Mach) (sd : Nat) : Nat :=
  let b := fget m (seBase sd) R.SE_PSCTL_ACTIVE
  ((List.range 16).filter fun i =>
    let x := engOf m (16 * sd + i)
    x.call.isSome && x.bank != b).length + ((readyOf m sd).filter fun c => c.bank != b).length

/-- SE_PSCTL_SWAP (R256); no effect while OLDBUSY is not 0. -/
def doSePsctlSwap (sd : Fin 2) (m : Mach) : Mach :=
  let b := seBase sd
  if oldBusy m sd != 0 then m
  else fset (fset m b R.SE_PSCTL_ACTIVE (1 - fget m b R.SE_PSCTL_ACTIVE)) b R.SE_PSCTL_ACTGEN (fget m b R.SE_PSCTL_NEXTGEN)

/-- Does the program store of the side accept a write of bank `b` (R255)? -/
def progOpen (m : Mach) (sd b : Nat) : Bool := b != fget m (seBase sd) R.SE_PSCTL_ACTIVE && oldBusy m sd == 0

/-- Writes an aligned 64-bit word of a bank: instruction words 2`i` and 2`i` + 1, whose block is sound again (R402). -/
def progPut (m : Mach) (sd b i v : Nat) : Mach :=
  let k := progAt m sd b (2 * i)
  let prog := mput (mput m.eng.prog k (v % 2 ^ 32)) (k + 1) (v / 2 ^ 32 % 2 ^ 32)
  { m with eng := { m.eng with prog := prog, progBad := m.eng.progBad.filter fun x => x != k / 8 } }

/-- PROGRAM_STORE_WRITE (R255): a control write of an aligned 64-bit word by the Ditchrider; for the active bank or while OLDBUSY is not 0 it is
dropped with a bus error. What programs store goes through their store buffers. -/
def doProgramStoreWrite (sd : Fin 2) (b : Fin 2) (i : Fin 131072) (v : Word) (m : Mach) : Mach :=
  if progOpen m sd b then progPut m sd b i v.toNat else send m (.ctl (sideBase sd + 0x400000 + 0x100000 * b.val + 8 * i.val) none)

end Sys2Proof.Machine
end

