-- ==== Sys2Proof/Machine/EngAlu.lean ====
section
/-! DEFINITION. Sluice instructions that use only the engine: the ALU group, immediates, branches, POST, RDCW and the system group (R185,
R268, R281, R285, R286, R290, R307 to R309). -/

namespace Sys2Proof.Machine

/-- 1 for true, 0 for false. -/
def flag (b : Bool) : Word := if b then 1 else 0

/-- Leading zeros of a 64-bit number. -/
def clz (n : Nat) : Nat := if n == 0 then 64 else 63 - Nat.log2 n

/-- Trailing zeros of a 64-bit number. -/
def ctz (n : Nat) : Nat := (lowest? 64 fun i => bitOf n i).getD 64

/-- An instruction of the ALU group (Table 11-4). -/
def alu (e rd ra rb fn : Nat) (f : Word → Word → Word) : Mach → Mach :=
  issue e (encA 0 rd ra rb fn) fun m => retireRd e rd (f (greg m e ra) (greg m e rb)) m

/-- An immediate instruction (Table 11-5). -/
def alui (e op rd ra : Nat) (imm : BitVec 16) (f : Word → BitVec 16 → Word) : Mach → Mach :=
  issue e (encI op rd ra imm.toNat) fun m => retireRd e rd (f (greg m e ra) imm) m

/-- `pc` plus a signed word offset, modulo 2^18 (R290). -/
def pcPlus {w : Nat} (pc : Nat) (off : BitVec w) : Nat := (BitVec.ofNat 18 pc + off.signExtend 18).toNat

/-- A branch (R290). -/
def branch (e op ra rb : Nat) (off : BitVec 16) (c : Word → Word → Bool) : Mach → Mach :=
  issue e (encI op ra rb off.toNat) fun m =>
    if c (greg m e ra) (greg m e rb) then retireTo m e (pcPlus (engOf m e).pc off) else retire m e

/-- JAL (R290). -/
def doJal (e : Fin 32) (rd : Fin 32) (off : BitVec 21) : Mach → Mach :=
  issue e (encJ rd off.toNat) fun m =>
    let pc := (engOf m e).pc
    retireTo (gput m e rd (BitVec.ofNat 64 ((pc + 1) % 2 ^ 18))) e (pcPlus pc off)

/-- JALR (R290): ra is read before rd is written. -/
def doJalr (e : Fin 32) (rd ra : Fin 32) (imm : BitVec 16) : Mach → Mach :=
  issue e (encI 0x27 rd ra imm.toNat) fun m =>
    let t := (greg m e ra + imm.signExtend 64).toNat % 2 ^ 18
    retireTo (gput m e rd (BitVec.ofNat 64 (((engOf m e).pc + 1) % 2 ^ 18))) e t

/-- EXT and INS: a field that runs past bit 63 traps ILLEGAL (R286). -/
def extIns (e op rd ra lo wm1 : Nat) (f : Word → Word → Word) : Mach → Mach :=
  issue e (encI op rd ra (lo + wm1 * 64)) fun m =>
    if 64 < lo + wm1 + 1 then trapNow m e .illegal 0 else retireRd e rd (f (greg m e rd) (greg m e ra)) m

/-- EXT (R286): a bit field of ra. -/
def doExt (e : Fin 32) (rd ra : Fin 32) (lo wm1 : Fin 64) : Mach → Mach :=
  extIns e 0x0D rd ra lo wm1 fun _ a => BitVec.ofNat 64 (bitsOf a.toNat lo (wm1.val + 1))

/-- INS (R286): the low bits of ra into a field of rd. -/
def doIns (e : Fin 32) (rd ra : Fin 32) (lo wm1 : Fin 64) : Mach → Mach :=
  extIns e 0x0E rd ra lo wm1 fun d a => BitVec.ofNat 64 (setBits d.toNat lo (wm1.val + 1) a.toNat)

/-- Is the STATUS one that a program may post (R266, R307)? -/
def postable (s : Nat) : Bool := s ≤ 5 || (0x40 ≤ s && s ≤ 0x7E)

/-- POST (R268, R307). -/
def doPost (e : Fin 32) (ra rb : Fin 32) : Mach → Mach :=
  issue e (encX 0x30 0 ra rb 0) fun m =>
    let x := engOf m e
    let s := (greg m e rb).toNat % 128
    if !postable s then trapNow m e .illegal 0
    else if !x.sb.isEmpty then m
    else match x.call.bind (callOf m) with
      | none => m
      | some c =>
        let put := { c with first := false, posted := true }
        if c.first || c.gone || 0 < resFree m c.from_.queue then
          retire (resSend (callPut m put) c (c.notify && !c.posted) s ((greg m e ra).toNat % 2 ^ 40)) e
        else engWaits m e

/-- Does a word hold a POST? -/
def isPost (w : Nat) : Bool := w / 2 ^ 21 == 0x3E * 32 && w % 2 ^ 11 == 0x30 * 8

/-- The block that holds the registers of an engine's result queue: its port's, or the mailbox's. -/
def Eng.queueBase (x : Eng) : Nat := if x.queue == 0 then ptBase x.port else mgtBase

/-- POST_WAIT_EXPIRY (R268): the result of a POST that still finds no entry is dropped and the program continues. -/
def doPostWaitExpiry (e : Fin 32) (m : Mach) : Mach :=
  let x := engOf m e
  if x.st == .waiting && isPost (progWord m (engSide e) x.bank x.pc) && (x.call.bind (callOf m)).any (fun c => resFree m c.from_.queue == 0) then
    let m := count m (seBase (engSide e)) 8
    let m := fsat (fset m x.queueBase R.PT_QSTAT_RESLOST 1) x.queueBase R.PT_QERR_LOST_CNT
    retire (notice m 0x0D (if x.queue == 0 then x.port else 0xFF) x.tag) e
  else m

/-- RDCW (R308): control word `n`. CYCLE and RAND are open values. -/
def doRdcw (e : Fin 32) (rd n : Fin 32) : Mach → Mach :=
  issue e (encX 0x31 rd n 0 0) fun m =>
    let x := engOf m e
    let ret (v : Nat) : Mach := retireRd e rd (BitVec.ofNat 64 v) m
    match n.val with
    | 0 => retireRd e rd (BitVec.ofNat 64 (drawn m)) (draw m)
    | 1 => ret x.instret
    | 2 => ret m.timeUs
    | 3 => ret (e.val + engSide e * 2 ^ 5 + x.bank * 2 ^ 6 + x.gen * 2 ^ 16)
    | 4 => ret (callerWord x)
    | 5 => ret (match x.limit with
      | none => 2 ^ 64 - 1
      | some l => x.start + l - m.timeUs)
    | 6 => ret x.sb.length
    | 7 => retireRd e rd (BitVec.ofNat 64 (drawn m)) (draw m)
    | 8 => ret ((x.handles.filter fun h => !h.flume).length + (x.handles.filter fun h => h.flume).length * 2 ^ 8)
    | _ => trapNow m e .illegal 0

/-- FENCE.SL (R185): later pool and control loads wait until the store buffer is empty. -/
def doFenceSl (e : Fin 32) : Mach → Mach :=
  issue e (encA 0x3F 0 0 0 1) fun m =>
    let x := engOf m e
    retire (engSet m e { x with slFence := !x.sb.isEmpty }) e

/-- TRAP (R309): traps ILLEGAL with SE_TRAPADDR 0. -/
def doTrap (e : Fin 32) : Mach → Mach := issue e (encA 0x3F 0 0 0 2) fun m => trapNow m e .illegal 0

/-- YIELD (R309): the pause and the injection turn are timing. -/
def doYield (e : Fin 32) : Mach → Mach := issue e (encA 0x3F 0 0 0 3) fun m => retire m e

/-- Has the operation of a handle ended? -/
def handleEnded (m : Mach) (h : Handle) : Bool :=
  if h.flume then !m.eng.flumes.any fun f => f.c == h.unit && !f.ended else !m.eng.ranges.any fun r => r.n == h.unit && !r.ended

/-- HALT (R268, R295): once the store buffer is empty and held operations have ended, the call ends, posting OK if it posted nothing. -/
def doHalt (e : Fin 32) : Mach → Mach :=
  issue e (encA 0x3F 0 0 0 5) fun m =>
    let x := engOf m e
    if !x.sb.isEmpty || !x.handles.all (handleEnded m) then m
    else
      let posted := match x.call.bind (callOf m) with
        | some c => c.posted
        | none => true
      let m := count (sampleCount (count m (seBase (engSide e)) 3) 1 e (if x.queue == 0 then some x.port else none)) (seBase (engSide e)) 5
      callEnd m e .idle (if posted then none else some (0, 0))

/-- Is the word an instruction of Tables 11-2 to 11-14 with every field that must be 0 at 0 (R281)? -/
def legalWord (w : Nat) : Bool :=
  let op := bitsOf w 26 6
  let rd := bitsOf w 21 5
  let ra := bitsOf w 16 5
  let rb := bitsOf w 11 5
  let fn := bitsOf w 0 11
  let imm := bitsOf w 0 16
  let xop := bitsOf w 3 8
  let q := bitsOf w 0 3
  if op == 0 then fn < 0x16 || (fn < 0x1A && rb == 0)
  else if op ≤ 0x0F then
    if 5 ≤ op && op ≤ 7 then imm < 64
    else if op == 8 then ra == 0
    else if op == 0x0D || op == 0x0E then imm < 4096 && imm % 64 + imm / 64 < 64
    else true
  else if op ≤ 0x16 then true
  else if op == 0x17 then fn == 0
  else if op ≤ 0x1B then true
  else if op == 0x1C then bitsOf fn 0 4 < 8 && (bitsOf fn 4 2 == 2 || bitsOf fn 4 2 == 3) && bitsOf fn 6 5 == 0
  else if 0x20 ≤ op && op ≤ 0x27 then true
  else if op == 0x3E then
    match xop with
    | 0x01 => q < 5
    | 0x02 => q == 0 && rb == 0
    | 0x03 => (q == 0 && rb == 0) || q == 1
    | 0x04 => q == 0 && rb == 0
    | 0x10 => q == 0
    | 0x11 => q == 0
    | 0x12 => q == 0
    | 0x13 => q == 0 && rb == 0
    | 0x14 => q == 0 && rb == 0
    | 0x15 => q < 2
    | 0x16 => q < 2 && rb == 0
    | 0x17 => q < 3
    | 0x20 => 1 ≤ q && q ≤ 3
    | 0x21 => q == 0 && ra == 0 && rb == 0
    | 0x30 => q == 0 && rd == 0
    | 0x31 => q == 0 && rb == 0 && ra < 9
    | _ => false
  else if op == 0x3F then
    let sel := bitsOf fn 0 8
    let sub := bitsOf fn 8 3
    if sel == 4 then sub < 3 else sel ≤ 5 && sub == 0 && rd == 0 && ra == 0 && rb == 0
  else false

/-- ILLEGAL_OPCODE (R281): an unlisted opcode, selector or nonzero required field traps ILLEGAL. -/
def doIllegalOpcode (e : Fin 32) : Mach → Mach := issueIf e (fun w => !legalWord w) fun m => trapNow m e .illegal 0

/-- ADD (R285): ra + rb. -/
def doAdd (e : Fin 32) (rd ra rb : Fin 32) : Mach → Mach := alu e rd ra rb 0x00 fun a b => a + b

/-- SUB (R285): ra − rb. -/
def doSub (e : Fin 32) (rd ra rb : Fin 32) : Mach → Mach := alu e rd ra rb 0x01 fun a b => a - b

/-- AND (R285): bitwise AND. -/
def doAnd (e : Fin 32) (rd ra rb : Fin 32) : Mach → Mach := alu e rd ra rb 0x02 fun a b => a &&& b

/-- OR (R285): bitwise OR. -/
def doOr (e : Fin 32) (rd ra rb : Fin 32) : Mach → Mach := alu e rd ra rb 0x03 fun a b => a ||| b

/-- XOR (R285): bitwise exclusive OR. -/
def doXor (e : Fin 32) (rd ra rb : Fin 32) : Mach → Mach := alu e rd ra rb 0x04 fun a b => a ^^^ b

/-- ANDN (R285): ra AND NOT rb. -/
def doAndn (e : Fin 32) (rd ra rb : Fin 32) : Mach → Mach := alu e rd ra rb 0x05 fun a b => a &&& ~~~b

/-- SLL (R285): left shift by rb[5:0]. -/
def doSll (e : Fin 32) (rd ra rb : Fin 32) : Mach → Mach := alu e rd ra rb 0x06 fun a b => a <<< (b.toNat % 64)

/-- SRL (R285): logical right shift. -/
def doSrl (e : Fin 32) (rd ra rb : Fin 32) : Mach → Mach := alu e rd ra rb 0x07 fun a b => a >>> (b.toNat % 64)

/-- SRA (R285): arithmetic right shift. -/
def doSra (e : Fin 32) (rd ra rb : Fin 32) : Mach → Mach := alu e rd ra rb 0x08 fun a b => a.sshiftRight (b.toNat % 64)

/-- ROTL (R285): rotate left. -/
def doRotl (e : Fin 32) (rd ra rb : Fin 32) : Mach → Mach := alu e rd ra rb 0x09 fun a b => a.rotateLeft (b.toNat % 64)

/-- SEQ (R285): equality. -/
def doSeq (e : Fin 32) (rd ra rb : Fin 32) : Mach → Mach := alu e rd ra rb 0x0A fun a b => flag (a == b)

/-- SNE (R285): inequality. -/
def doSne (e : Fin 32) (rd ra rb : Fin 32) : Mach → Mach := alu e rd ra rb 0x0B fun a b => flag (a != b)

/-- SLT (R285): signed order. -/
def doSlt (e : Fin 32) (rd ra rb : Fin 32) : Mach → Mach := alu e rd ra rb 0x0C fun a b => flag (a.slt b)

/-- SLTU (R285): unsigned order. -/
def doSltu (e : Fin 32) (rd ra rb : Fin 32) : Mach → Mach := alu e rd ra rb 0x0D fun a b => flag (a.ult b)

/-- MIN (R285): signed minimum. -/
def doMin (e : Fin 32) (rd ra rb : Fin 32) : Mach → Mach := alu e rd ra rb 0x0E fun a b => if a.slt b then a else b

/-- MAX (R285): signed maximum. -/
def doMax (e : Fin 32) (rd ra rb : Fin 32) : Mach → Mach := alu e rd ra rb 0x0F fun a b => if a.slt b then b else a

/-- MINU (R285): unsigned minimum. -/
def doMinu (e : Fin 32) (rd ra rb : Fin 32) : Mach → Mach := alu e rd ra rb 0x10 fun a b => if a.ult b then a else b

/-- MAXU (R285): unsigned maximum. -/
def doMaxu (e : Fin 32) (rd ra rb : Fin 32) : Mach → Mach := alu e rd ra rb 0x11 fun a b => if a.ult b then b else a

/-- MUL (R285): low 64 bits of the product. -/
def doMul (e : Fin 32) (rd ra rb : Fin 32) : Mach → Mach := alu e rd ra rb 0x12 fun a b => a * b

/-- MULHU (R285): high 64 bits of the unsigned product. -/
def doMulhu (e : Fin 32) (rd ra rb : Fin 32) : Mach → Mach := alu e rd ra rb 0x13 fun a b => BitVec.ofNat 64 (a.toNat * b.toNat / 2 ^ 64)

/-- DIVU (R285): unsigned quotient; all ones when rb is 0. -/
def doDivu (e : Fin 32) (rd ra rb : Fin 32) : Mach → Mach := alu e rd ra rb 0x14 fun a b => if b = 0 then BitVec.allOnes 64 else a / b

/-- REMU (R285): unsigned remainder; ra when rb is 0. -/
def doRemu (e : Fin 32) (rd ra rb : Fin 32) : Mach → Mach := alu e rd ra rb 0x15 fun a b => if b = 0 then a else a % b

/-- POPC (R285): number of ones of ra. -/
def doPopc (e : Fin 32) (rd ra : Fin 32) : Mach → Mach := alu e rd ra 0 0x16 fun a _ => BitVec.ofNat 64 (popc 64 a.toNat)

/-- CLZ (R285): leading zeros of ra. -/
def doClz (e : Fin 32) (rd ra : Fin 32) : Mach → Mach := alu e rd ra 0 0x17 fun a _ => BitVec.ofNat 64 (clz a.toNat)

/-- CTZ (R285): trailing zeros of ra. -/
def doCtz (e : Fin 32) (rd ra : Fin 32) : Mach → Mach := alu e rd ra 0 0x18 fun a _ => BitVec.ofNat 64 (ctz a.toNat)

/-- PAR (R285): parity of ra. -/
def doPar (e : Fin 32) (rd ra : Fin 32) : Mach → Mach := alu e rd ra 0 0x19 fun a _ => flag (parity 64 a.toNat)

/-- ADDI (R286). -/
def doAddi (e : Fin 32) (rd ra : Fin 32) (imm : BitVec 16) : Mach → Mach := alui e 0x01 rd ra imm fun a i => a + i.signExtend 64

/-- ANDI (R286). -/
def doAndi (e : Fin 32) (rd ra : Fin 32) (imm : BitVec 16) : Mach → Mach := alui e 0x02 rd ra imm fun a i => a &&& i.zeroExtend 64

/-- ORI (R286). -/
def doOri (e : Fin 32) (rd ra : Fin 32) (imm : BitVec 16) : Mach → Mach := alui e 0x03 rd ra imm fun a i => a ||| i.zeroExtend 64

/-- XORI (R286). -/
def doXori (e : Fin 32) (rd ra : Fin 32) (imm : BitVec 16) : Mach → Mach := alui e 0x04 rd ra imm fun a i => a ^^^ i.zeroExtend 64

/-- ORS (R286). -/
def doOrs (e : Fin 32) (rd ra : Fin 32) (imm : BitVec 16) : Mach → Mach := alui e 0x09 rd ra imm fun a i => a ||| (i.zeroExtend 64 <<< 32)

/-- SLTI (R286). -/
def doSlti (e : Fin 32) (rd ra : Fin 32) (imm : BitVec 16) : Mach → Mach := alui e 0x0A rd ra imm fun a i => flag (a.slt (i.signExtend 64))

/-- SLTIU (R286). -/
def doSltiu (e : Fin 32) (rd ra : Fin 32) (imm : BitVec 16) : Mach → Mach := alui e 0x0B rd ra imm fun a i => flag (a.ult (i.signExtend 64))

/-- SEQI (R286). -/
def doSeqi (e : Fin 32) (rd ra : Fin 32) (imm : BitVec 16) : Mach → Mach := alui e 0x0C rd ra imm fun a i => flag (a == i.signExtend 64)

/-- ORT (R286). -/
def doOrt (e : Fin 32) (rd ra : Fin 32) (imm : BitVec 16) : Mach → Mach := alui e 0x0F rd ra imm fun a i => a ||| (i.zeroExtend 64 <<< 48)

/-- SLLI (R286): imm[15:6] is 0. -/
def doSlli (e : Fin 32) (rd ra : Fin 32) (sh : Fin 64) : Mach → Mach := alui e 0x05 rd ra (BitVec.ofNat 16 sh) fun a i => a <<< i.toNat

/-- SRLI (R286): imm[15:6] is 0. -/
def doSrli (e : Fin 32) (rd ra : Fin 32) (sh : Fin 64) : Mach → Mach := alui e 0x06 rd ra (BitVec.ofNat 16 sh) fun a i => a >>> i.toNat

/-- SRAI (R286): imm[15:6] is 0. -/
def doSrai (e : Fin 32) (rd ra : Fin 32) (sh : Fin 64) : Mach → Mach := alui e 0x07 rd ra (BitVec.ofNat 16 sh) fun a i => a.sshiftRight i.toNat

/-- LUI (R286): ra is 0. -/
def doLui (e : Fin 32) (rd : Fin 32) (imm : BitVec 16) : Mach → Mach := alui e 0x08 rd 0 imm fun _ i => i.zeroExtend 64 <<< 16

/-- BEQ (R290). -/
def doBeq (e : Fin 32) (ra rb : Fin 32) (off : BitVec 16) : Mach → Mach := branch e 0x20 ra rb off fun a b => a == b

/-- BNE (R290). -/
def doBne (e : Fin 32) (ra rb : Fin 32) (off : BitVec 16) : Mach → Mach := branch e 0x21 ra rb off fun a b => a != b

/-- BLT (R290). -/
def doBlt (e : Fin 32) (ra rb : Fin 32) (off : BitVec 16) : Mach → Mach := branch e 0x22 ra rb off fun a b => a.slt b

/-- BGE (R290). -/
def doBge (e : Fin 32) (ra rb : Fin 32) (off : BitVec 16) : Mach → Mach := branch e 0x23 ra rb off fun a b => !a.slt b

/-- BLTU (R290). -/
def doBltu (e : Fin 32) (ra rb : Fin 32) (off : BitVec 16) : Mach → Mach := branch e 0x24 ra rb off fun a b => a.ult b

/-- BGEU (R290). -/
def doBgeu (e : Fin 32) (ra rb : Fin 32) (off : BitVec 16) : Mach → Mach := branch e 0x25 ra rb off fun a b => !a.ult b

end Sys2Proof.Machine
end

