-- ==== Sys2Proof/Machine/RangeCmd.lean ====
section
/-! DEFINITION. Range engines, flume channels and cache control (chapter 12, R240). -/

namespace Sys2Proof.Machine

/-- The range operation of engine `n`. -/
def rangeOf (m : Mach) (n : Nat) : Option RangeOp := m.eng.ranges.find? fun r => r.n == n

/-- Writes it. -/
def rangePut (m : Mach) (r : RangeOp) : Mach :=
  { m with eng := { m.eng with ranges := mapFirst (fun x => x.n == r.n) (fun _ => r) m.eng.ranges } }

/-- The line operation that q names (R296). -/
def maintOf : Nat → Maint
  | 0 => .clean | 1 => .flush | 2 => .discard | 3 => .zero | _ => .prefetch

/-- The lower of two statuses, 0 being none (R319). -/
def statusMin (a b : Nat) : Nat := if a == 0 then b else if b == 0 then a else min a b

/-- A range operation ends (R319). -/
def rangeEnd (m : Mach) (r : RangeOp) (status : Nat) : Mach :=
  let s := statusMin r.status status
  unitsFree (rangePut (fset m (rgeBase r.n) R.RGE_STATUS_STATUS s) { r with status := s, ended := true })

/-- RANGE_QUANTUM_START (R315, R316): the next quantum of up to 64 lines, or the end of a stopped operation. -/
def doRangeQuantumStart (n : Fin 8) (m : Mach) : Mach :=
  match rangeOf m n with
  | none => m
  | some r =>
    if r.ended || !r.toSend.isEmpty || !r.open_.isEmpty then m
    else if r.stop then rangeEnd m r 1
    else if r.lines ≤ r.begun then m
    else
      let k := min 64 (r.lines - r.begun)
      let ls := (List.range k).map fun i => r.first + r.begun + i
      let m := fset m (rgeBase n) R.RGE_CUR_NEXT (r.first + r.begun + k)
      count (rangePut m { r with begun := r.begun + k, toSend := ls, open_ := ls }) (rgeBase n) 1

/-- The group number of a line whose aligned group of four lies wholly inside the range and is snooped as one block (R318). -/
def groupOf (m : Mach) (r : RangeOp) (h pln : Nat) : Option Nat :=
  let g := pln / 4
  if fon m (hsBase h) R.DIR_CTL_BLKSNP && 1 ≤ r.op && r.op ≤ 3 && (ownerOf m (attrOf m pln) pln).isSome && r.first ≤ 4 * g && 4 * g + 3 < r.first + r.lines then some g
  else none

/-- RANGE_LINE_REQUEST (R316, R317): line `i` of those still to be sent reaches its home and is ordered there; a line without storage is
skipped. -/
def doRangeLineRequest (n : Fin 8) (i : Fin 64) (m : Mach) : Mach :=
  match rangeOf m n with
  | none => m
  | some r => match r.toSend[i.val]? with
    | none => m
    | some pln =>
      let sent := rangePut m { r with toSend := r.toSend.eraseIdx i.val }
      let h := homeSlice m pln
      if !plcV (plcGet m (h / 32) (plotOf pln)) then
        { sent with eng := { sent.eng with rangeQ := sent.eng.rangeQ ++ [⟨n, pln, 4⟩] } }
      else
        let q : Req := { op := .maint (maintOf r.op) (groupOf m r h pln), src := .range n pln, pln := pln, data := 0, mask := 0
                         poison := false, attr := some (attrOf m pln) }
        match decideReq (count sent (hsBase h) 0x01) h q false with
        | none => m
        | some m' =>
          match mshrOf m' h pln with
          | some x => if x.waiter == some q then count m' (rgeBase n) 3 else m'
          | none => m'

/-- RANGE_LINE_COMPLETE (R319): the oldest line back at the engine is counted; the last one ends the operation. -/
def doRangeLineComplete (n : Fin 8) (m : Mach) : Mach :=
  match m.eng.rangeQ.find? fun d => d.n == n.val with
  | none => m
  | some d =>
    let m := { m with eng := { m.eng with rangeQ := dropFirst (fun x => x == d) m.eng.rangeQ } }
    match rangeOf m n with
    | none => m
    | some r =>
      if !r.open_.contains d.pln then m
      else
        let b := rgeBase n
        let r := { r with open_ := dropFirst (fun x => x == d.pln) r.open_, finished := r.finished + 1
                          status := statusMin r.status d.status }
        let m := fset (fset (rangePut m r) b R.RGE_LEFT_LEFT (r.lines - r.finished)) b R.RGE_STATUS_STATUS r.status
        let m := count (if d.status == 4 then count m b 5 else m) b 2
        if r.finished == r.lines then rangeEnd m r 0 else m

/-- RANGE_ABORT (R316): the operation stops at its next quantum boundary. -/
def doRangeAbort (n : Fin 8) (m : Mach) : Mach :=
  match rangeOf m n with
  | none => m
  | some r => if r.ended then m else rangePut m { r with stop := true }

/-- BLOCK_SNOOP_ASSEMBLY (R318): the owner's tile holds all four needs of a group, or holds a no-snoop notice, or 2 µs have passed. -/
def doBlockSnoopAssembly (p : Fin 32) (grp : BitVec 40) (expired : Bool) (m : Mach) : Mach :=
  let g := grp.toNat
  let mine := m.ports.blk.filter fun x => x.port == p.val && x.grp == g
  let needs := mine.filter fun x => x.need
  let rest := m.ports.blk.filter fun x => !(x.port == p.val && x.grp == g)
  let m0 := { m with ports := { m.ports with blk := rest } }
  if needs.length == 4 && snpsOut m p + 4 ≤ 1024 then
    let opened := needs.map fun x => ({ port := p, pln := x.pln, kind := .invBlk, h := x.h, fenced := false, sent := true } : OpenSnp)
    let m1 := needs.foldl (fun m x => count m (hsBase x.h) 0x37) m0
    send { m1 with ports := { m1.ports with snps := m1.ports.snps ++ opened } } (.bisnp p .invBlk (4 * g))
  else if mine.length != needs.length || (expired && !needs.isEmpty) then
    needs.foldl (fun m x => snoop m x.h x.pln .inv p) m0
  else m

/-- The flume operation of channel `c`. -/
def flumeOf (m : Mach) (c : Nat) : Option FlumeOp := m.eng.flumes.find? fun f => f.c == c

/-- Writes it. -/
def flumePut (m : Mach) (f : FlumeOp) : Mach :=
  { m with eng := { m.eng with flumes := mapFirst (fun x => x.c == f.c) (fun _ => f) m.eng.flumes } }

/-- Is the channel Halted (FC_STATUS.STATE 2)? -/
def flumeHalted (m : Mach) (c : Nat) : Bool := fget m (fcBase c) R.FC_STATUS_STATE == 2

/-- A flume operation ends; its steps in flight are abandoned. -/
def flumeEnd (m : Mach) (f : FlumeOp) (status : Nat) : Mach :=
  let b := fcBase f.c
  unitsFree (flumePut (fset (fset m b R.FC_STATUS_STATE 0) b R.FC_STATUS_STATUS status) { f with status := status, ended := true, run := [] })

/-- A stopped operation ends at its step boundary with STATUS 1, and at once with STATUS 5 when Halted (Table 12-5). -/
def flumeStop (m : Mach) (f : FlumeOp) : Mach :=
  if f.ended || !f.stop then m
  else if flumeHalted m f.c then flumeEnd m f 5
  else if f.run.isEmpty then flumeEnd m f 1 else m

/-- Ends every stopped flume operation that is at a step boundary. -/
def flumesStop (m : Mach) : Mach := m.eng.flumes.foldl flumeStop m

/-- A sled step word `k` steps on (R323): bits 31:0 advance by `k`, PLOT by one at each wrap of STEP. -/
def stepWord (w k : Nat) : Nat :=
  let lo := (bitsOf w 0 32 + k) % 2 ^ 32
  let plot := (bitsOf w 37 27 + (bitsOf w 0 9 + k) / 512) % 2 ^ 27
  lo + bitsOf w 32 5 * 2 ^ 32 + plot * 2 ^ 37

/-- SRC and DST words of step `k` (R323). -/
def flumeSrc (f : FlumeOp) (k : Nat) : Nat := match f.kind with
  | 0 => f.src + 4096 * k
  | 1 => stepWord f.src k
  | _ => f.src
def flumeDst (f : FlumeOp) (k : Nat) : Nat := if f.kind == 0 then f.dst + 4096 * k else stepWord f.dst k

/-- Sled byte address of line `i` of a sled step word, and its MEM port. -/
def wordAddr (w i : Nat) : Nat := bitsOf w 9 23 * 0x200000 + bitsOf w 0 9 * 4096 + i * 64
def wordPort (w : Nat) : Nat := bitsOf w 32 5

/-- Side of a flume channel. -/
def flumeSide (c : Nat) : Nat := c / 32

/-- A sled access of a step copy (KIND 1) passes the sampler with the plot of its source word (R235, R297). The words of a sled fill name no plot,
so a fill's writes leave no note (DESIGN CHOICE, entry 109). -/
def flumeSample (m : Mach) (f : FlumeOp) (s : FlumeStep) : Mach :=
  if f.kind == 1 then sampleDue m (flumeSide f.c) (bitsOf (flumeSrc f s.idx) 37 27) else m

/-- The write of one line of a step (R324). -/
def flumeWriteLine (m : Mach) (f : FlumeOp) (s : FlumeStep) (i : Nat) (img : Img) : Mach :=
  let dst := flumeDst f s.idx
  if f.kind == 0 then
    let pln := dst / 64 + i
    let q : Req := { op := .flumeWrite, src := .flume f.c (s.tag * 64 + i), pln := pln, data := img.data, mask := fullMask
                     poison := img.poison }
    { m with home := { m.home with reqQ := m.home.reqQ ++ [(homeSlice m pln, q.decoded m)] } }
  else sledWriteReq (flumeSample m f s) (flumeSide f.c) (wordPort dst) (.flumeWrite f.c (s.tag * 64 + i)) (wordAddr dst i) img fullMask

/-- The read of one line of a step. -/
def flumeReadLine (m : Mach) (f : FlumeOp) (s : FlumeStep) (i : Nat) : Mach :=
  let src := flumeSrc f s.idx
  if f.kind == 0 then
    let pln := src / 64 + i
    let q : Req := { op := .flumeRead, src := .flume f.c (s.tag * 64 + i), pln := pln, data := 0, mask := 0, poison := false }
    { m with home := { m.home with reqQ := m.home.reqQ ++ [(homeSlice m pln, q.decoded m)] } }
  else sledReadReq (flumeSample m f s) (flumeSide f.c) (wordPort src) (.flumeRead f.c (s.tag * 64 + i)) (wordAddr src i)

/-- The 64-bit pattern in every word of a line. -/
def patternLine (w : Nat) : Line := BitVec.ofNat 512 ((w % 2 ^ 64) * ((2 ^ 512 - 1) / (2 ^ 64 - 1)))

/-- A step whose trackers are clear starts: its reads, or the writes of a fill (R324). -/
def flumeGo (m : Mach) (f : FlumeOp) (s : FlumeStep) : Mach :=
  let upd (x : FlumeStep) : Mach := flumePut m { f with run := f.run.map fun y => if y.idx == s.idx then x else y }
  let all := List.range 64
  if f.kind ≤ 1 then all.foldl (fun m i => flumeReadLine m f s i) (upd { s with clears := [], reads := all, writes := [] })
  else
    let img : Img := if f.kind == 2 then ⟨patternLine f.src, false⟩ else ⟨0, true⟩
    all.foldl (fun m i => flumeWriteLine m f s i img) (upd { s with clears := [], reads := [], writes := all })

/-- Sides whose tracker is armed for a plot (R240). -/
def armedFor (m : Mach) (sd plot : Nat) : Option Nat :=
  lowest? 16 fun t => fon m (lvlBase sd + 16 * t) R.PLC_MIGT_EN && fget m (lvlBase sd + 16 * t) R.PLC_MIGT_PLOT == plot

/-- FLUME_STEP_START (R322, R324): the next step starts, or ends the operation when a port is not Up or a plot has no storage. A step of
a tracked plot first waits for TRACKER_CLEAR. -/
def doFlumeStepStart (c : Fin 64) (m : Mach) : Mach :=
  match flumeOf m c with
  | none => m
  | some f =>
    let b := fcBase c
    if f.ended || f.stop || fget m b R.FC_STATUS_STATE != 1 || f.steps ≤ f.begun || 2 ≤ f.run.length ||
      f.run.any (fun s => !s.reads.isEmpty || !s.clears.isEmpty) then m
    else
      let k := f.begun
      let src := flumeSrc f k
      let dst := flumeDst f k
      let plots := if f.kind == 0 then [src / 0x200000, dst / 0x200000] else []
      let ports := (if f.kind == 1 then [wordPort src] else []) ++ (if f.kind == 0 then [] else [wordPort dst])
      if plots.any fun p => !plcV (plcGet m (flumeSide c) p) then flumeEnd m f 4
      else if ports.any fun p => memState m p != 0 then flumeEnd m f 2
      else
        let sides := [0, 1].filter fun sd => sideUp m sd && f.kind == 1 && (armedFor m sd (bitsOf src 37 27)).isSome
        let s : FlumeStep := { idx := k, tag := m.nextId, clears := sides, reads := [], writes := [] }
        let f := { f with begun := k + 1, run := f.run ++ [s] }
        let m := { fset (fset (flumePut m f) b R.FC_SRC_WORD src) b R.FC_DST_WORD dst with nextId := m.nextId + 1 }
        if sides.isEmpty then flumeGo m f s else m

/-- TRACKER_CLEAR (R240): both sides clear the step's bit and confirm, and the step's reads start. -/
def doTrackerClear (c : Fin 64) (m : Mach) : Mach :=
  match flumeOf m c with
  | none => m
  | some f => match f.run.find? fun s => !s.clears.isEmpty with
    | none => m
    | some s =>
      let src := flumeSrc f s.idx
      let step := bitsOf src 0 9
      let m := s.clears.foldl (fun m sd => match armedFor m sd (bitsOf src 37 27) with
        | some t =>
          let b := lvlBase sd + 64 * t + 8 * (step / 64)
          fset m b R.PLC_MIGBM_BITS (setBit (fget m b R.PLC_MIGBM_BITS) (step % 64) false)
        | none => m) m
      flumeGo (count m (fcgBase (flumeSide c)) 2) f s

/-- A line of a flume step returns: read data is written to the destination, a completed write is counted off (R324, R326). -/
def flumeDone (m : Mach) (c k : Nat) (d : Done) : Mach :=
  match flumeOf m c with
  | none => m
  | some f => match f.run.find? fun s => s.tag == k / 64 with
    | none => m
    | some s =>
      let i := k % 64
      let b := fcBase c
      let put (x : FlumeStep) : FlumeOp := { f with run := f.run.map fun y => if y.idx == s.idx then x else y }
      if s.reads.contains i then
        match d.how, d.img with
        | .ok, some img =>
          let s' := { s with reads := s.reads.filter (fun x => x != i), writes := s.writes ++ [i] }
          let m := if img.poison then count (fsat m b R.FC_ERR_POISONED) (fcgBase (flumeSide c)) 4 else m
          flumeWriteLine (flumePut m (put s')) (put s') s' i img
        | .refused, _ => flumeEnd m f 4
        | _, _ => flumeEnd m f 2
      else if s.writes.contains i then
        match d.how with
        | .refused => flumeEnd m f 4
        | .lost => if f.kind == 0 then flumePut m (put { s with writes := s.writes.filter fun x => x != i }) else flumeEnd m f 2
        | .ok => flumePut m (put { s with writes := s.writes.filter fun x => x != i })
      else m

/-- An uncorrectable error in the channel's data halts it, or ends the operation with STATUS 5 while HALTWAIT is 0 (Table 12-5). -/
def flumeHalt (m : Mach) (f : FlumeOp) : Mach :=
  let b := fcBase f.c
  let g := fcgBase (flumeSide f.c)
  let m := err (fsat m b R.FC_ERR_UE) { errOf 1 0x14 0x14 f.c with loc := f.finished }
  let m := count (fsat m b R.FC_ERR_HALTS) g 3
  let f := { f with run := [], begun := f.finished }
  if fget m g R.FC_GCTL_HALTWAIT == 0 then flumeEnd m f 5 else flumePut (fset m b R.FC_STATUS_STATE 2) f

/-- FLUME_STEP_COMPLETE (R322, R326): the lowest step in flight completes, or with `ue` its data is found uncorrectable. -/
def doFlumeStepComplete (c : Fin 64) (ue : Bool) (m : Mach) : Mach :=
  match flumeOf m c with
  | none => m
  | some f => match f.run with
    | [] => m
    | s :: rest =>
      if ue then flumeHalt m f
      else if !s.clears.isEmpty || !s.reads.isEmpty || !s.writes.isEmpty then m
      else
        let f := { f with run := rest, finished := f.finished + 1 }
        let m := count (fset (flumePut m f) (fcBase c) R.FC_STATUS_STEPS f.finished) (fcgBase (flumeSide c)) 1
        if f.finished == f.steps then flumeEnd m f 0 else flumeStop m f

/-- RESUME (R326): a Halted channel copies its failing step again. -/
def doResume (c : Fin 64) (m : Mach) : Mach := if flumeHalted m c then fset m (fcBase c) R.FC_STATUS_STATE 1 else m

/-- FLUME_ABORT (R326). -/
def doFlumeAbort (c : Fin 64) (m : Mach) : Mach :=
  match flumeOf m c with
  | none => m
  | some f => if f.ended then m else flumeStop (flumePut m { f with stop := true }) { f with stop := true }

/-- HALTWAIT_EXPIRY (R326). -/
def doHaltwaitExpiry (c : Fin 64) (m : Mach) : Mach :=
  match flumeOf m c with
  | none => m
  | some f => if flumeHalted m c then flumeEnd m f 5 else m

/-- A level's bit of RGE_CCTL.OFF and its state field in RGE_CSTAT. -/
def levelBit : Level → Nat
  | .headgate => 0 | .reservoir => 1 | .east => 2
def levelFld : Level → Fld
  | .headgate => R.RGE_CSTAT_HG | .reservoir => R.RGE_CSTAT_RS | .east => R.RGE_CSTAT_EAST

/-- Where a side's cache control registers lie (R327). -/
def cctlBase (sd : Nat) : Nat := rgeBase (4 * sd)

/-- State of a level: 0 On, 1 Draining, 2 Off, 3 Enabling. -/
def levelOf (m : Mach) (sd : Nat) (l : Level) : Nat := fget m (cctlBase sd) (levelFld l)

/-- Is a level of the side Draining or Enabling (RGE_CSTAT.BUSY)? -/
def levelBusy (m : Mach) (sd : Nat) : Bool := [Level.headgate, .reservoir, .east].any fun l => levelOf m sd l % 2 == 1

/-- Starts cleaning passes over the given ways of every slice of a side (R95, R328, R332). -/
def passWays (m : Mach) (sd : Nat) (ws : List Nat) : Mach :=
  (List.range 32).foldl (fun m i =>
    let h := sd * 32 + i
    let b := hsBase h
    let ws := ws.filter fun w => !m.home.ways.any fun x => x.h == h && x.way == w
    let m := { m with home := { m.home with ways := m.home.ways ++ ws.map fun w => ⟨h, w, false, false⟩ } }
    fset m b R.HS_WAYEN_BUSY (ws.foldl (fun n w => setBit n w true) (fget m b R.HS_WAYEN_BUSY))) m

/-- Slots that a side's Reservoir holds. -/
def sideSlots (m : Mach) (sd : Nat) : List (Nat × Slot) := m.rsv.slots.filter fun c => c.1 / 2 ^ 31 == sd

/-- Every slot of a side is read and written Invalid (Table 12-6): a Dirty or Poisoned line goes to the tailwater buffer when there is room, and
stays in its slot until then (R124). -/
def drainSlots (m : Mach) (sd : Nat) : Mach :=
  (sideSlots m sd).foldl (fun m c =>
    let i := c.1 % 2 ^ 31
    let pln := plnOf m sd (slotLine m sd i c.2)
    if c.2.st == .clean || takePending m sd pln then setSlot (count m (cctlBase sd) 6) sd i none
    else if repairHeld m pln || twMustWait m sd pln then m
    else twTake (count (setSlot m sd i none) (cctlBase sd) 6) sd pln ⟨c.2.data, c.2.st == .poisoned⟩ fullMask []) m

/-- The slices of side `sd` forget their lines, and with the whole Headgate their node bits (R93, R94). -/
def clearWays (m : Mach) (sd : Nat) (east : Bool) : Mach :=
  let hg := mdrop m.home.hg fun k => k / 49152 / 32 == sd && (!east || 8 ≤ k % 16)
  { m with home := { m.home with hg := hg, plru := if east then m.home.plru else mdrop m.home.plru fun k => k / 3072 / 32 == sd } }

/-- State of every slice of a side (HS_STATUS.STATE). -/
def slicesState (m : Mach) (sd st : Nat) : Mach := forN 32 (fun i m => fset m (hsBase (sd * 32 + i)) R.HS_STATUS_STATE st) m

/-- The east half of a side: EAST_ON, and OFF, which is 1 for disabled ways and for ways 8 to 15 of an east half that is off (R332). -/
def eastSet (m : Mach) (sd : Nat) (on : Bool) : Mach :=
  forN 32 (fun i m =>
    let b := hsBase (sd * 32 + i)
    let dis := 65535 - fget m b R.HS_WAYEN_EN
    let off := dis % 256 + (if on then dis / 256 else 255) * 256
    fset (fset m b R.HS_STATUS_EAST_ON (b2n on)) b R.HS_WAYEN_OFF off) m

/-- Controllers of a side that are not retired change state; a sweep starts at frame 0 with a new key set for epoch 0 (Table 5-13). -/
def ctlsState (m : Mach) (sd st : Nat) : Mach :=
  forN 4 (fun i m =>
    let b := rsvBase (4 * sd + i)
    if fget m b R.RSV_STATUS_STATE == 0 then m
    else fset (if st == 1 then fset m b R.RSV_STATUS_SWEEP_PTR 0 else m) b R.RSV_STATUS_STATE st) m

/-- Leaving Bypass or starting: a new key set for epoch 0, and the controllers sweep (R104, Table 5-13). -/
def startSweep (m : Mach) (sd : Nat) : Mach :=
  ctlsState (fset (drawKeys m sd 0) (lvlBase sd) R.LVL_STATUS_EPOCH 0) sd 1

/-- A transition ends: the level's state, DONE and TRANSITIONS (Table 12-10). -/
def levelEnd (m : Mach) (sd : Nat) (l : Level) (st : Nat) : Mach :=
  let b := cctlBase sd
  finc (fset (fset m b (levelFld l) st) b R.RGE_CSTAT_DONE 1) b R.RGE_CSTAT_TRANSITIONS

/-- WT is 1 while the Headgate or the Reservoir is Draining (R329). -/
def levelWt (m : Mach) (sd : Nat) : Mach :=
  fset m (cctlBase sd) R.RGE_CSTAT_WT (b2n (levelOf m sd .headgate == 1 || levelOf m sd .reservoir == 1))

/-- Acts on a level whose OFF bit and state differ (Table 12-6). A level is returned to service outside Spillway mode only (R331). -/
def levelAct (sd : Nat) (l : Level) (m : Mach) : Mach :=
  let off := bitOf (fget m (cctlBase sd) R.RGE_CCTL_OFF) (levelBit l)
  let st := levelOf m sd l
  if off && st == 0 then
    let m := levelWt (fset m (cctlBase sd) (levelFld l) 1) sd
    match l with
    | .headgate => passWays m sd (List.range 16)
    | .reservoir => drainSlots m sd
    | .east => passWays m sd ((List.range 8).map fun w => w + 8)
  else if !off && st == 2 && (l == .east || opMode m != 3) then
    let m := fset m (cctlBase sd) (levelFld l) 3
    match l with
    | .headgate => clearWays (slicesState m sd 0) sd false
    | .reservoir => startSweep m sd
    | .east => clearWays m sd true
  else m

/-- Acts on RGE_CCTL.OFF once no transition is in progress (R327). -/
def levelsAct (m : Mach) (sd : Nat) : Mach :=
  if levelBusy m sd then m else levelAct sd .east (levelAct sd .reservoir (levelAct sd .headgate m))

/-- Writes RGE_CCTL.OFF; 3 and 7 are reserved encodings (R327). -/
def offWrite (m : Mach) (sd v : Nat) : Mach :=
  if v % 8 == 3 || v % 8 == 7 then reject m (cctlBase sd) 2 0x800
  else levelsAct (fset m (cctlBase sd) R.RGE_CCTL_OFF v) sd

/-- OFF with one level's bit changed. -/
def offBit (sd : Nat) (l : Level) (b : Bool) (m : Mach) : Mach := offWrite m sd (setBit (fget m (cctlBase sd) R.RGE_CCTL_OFF) (levelBit l) b)

/-- HEADGATE_OFF, RESERVOIR_OFF, EAST_HALF_OFF and their returns (R328, R332): RGE_CCTL.OFF is written with the level's bit set or clear. -/
def doHeadgateOff (sd : Fin 2) : Mach → Mach := offBit sd .headgate true
def doReservoirOff (sd : Fin 2) : Mach → Mach := offBit sd .reservoir true
def doEastHalfOff (sd : Fin 2) : Mach → Mach := offBit sd .east true
def doHeadgateOn (sd : Fin 2) : Mach → Mach := offBit sd .headgate false
def doReservoirOn (sd : Fin 2) : Mach → Mach := offBit sd .reservoir false
def doEastHalfOn (sd : Fin 2) : Mach → Mach := offBit sd .east false

/-- Has no line of the side, on its way out of a drained level, a tailwater entry left? -/
def tailEmpty (m : Mach) (sd : Nat) : Bool :=
  !(m.tw.any fun e => e.sd == sd) && !(m.twIn.any fun e => e.sd == sd) && !(m.rsv.offers.any fun o => o.sd == sd && o.dirty)

/-- The cleaning pass of an east half has ended, and no victim buffer holds a line of it (R332). -/
def eastDrained (m : Mach) (sd : Nat) : Bool :=
  !((m.home.vb.any fun e => e.h / 32 == sd) || (m.home.ways.any fun x => x.h / 32 == sd && 8 ≤ x.way) ||
    (m.home.hg.any fun c => c.1 / 49152 / 32 == sd && 8 ≤ c.1 % 16))

/-- The power domain of a side's east half (Table 17-1). -/
def eastDom (sd : Nat) : Nat := 8 + 6 * sd

/-- LEVEL_DRAIN_COMPLETE (R328, R332): every pass of a Draining level has ended and its lines are freed; the
domain of an east half is off. -/
def doLevelDrainComplete (sd : Fin 2) (l : Level) (m : Mach) : Mach :=
  if levelOf m sd l != 1 then m
  else
    let vbs := m.home.vb.any fun e => e.h / 32 == sd.val
    match l with
    | .headgate =>
      if vbs || (m.home.ways.any fun x => x.h / 32 == sd.val) || (m.home.hg.any fun c => c.1 / 49152 / 32 == sd.val) || !tailEmpty m sd then m
      else levelsAct (levelWt (levelEnd (slicesState m sd 3) sd l 2) sd) sd
    | .reservoir =>
      let m := drainSlots m sd
      if !tailEmpty m sd || !(sideSlots m sd).isEmpty then m else levelsAct (levelWt (levelEnd (ctlsState m sd 4) sd l 2) sd) sd
    | .east => if domSt m (eastDom sd) != 0 then m else levelsAct (levelEnd (eastSet m sd false) sd l 2) sd

/-- LEVEL_ENABLE_COMPLETE (R328): the tag clear or the sweep of an Enabling level has ended. -/
def doLevelEnableComplete (sd : Fin 2) (l : Level) (m : Mach) : Mach :=
  if levelOf m sd l != 3 || (l != .east && opMode m == 3) then m
  else match l with
    | .headgate => levelsAct (levelEnd (eastSet (slicesState m sd 1) sd (levelOf m sd .east == 0)) sd l 0) sd
    | .reservoir =>
      if (List.range 4).all fun i => rsvState m (4 * sd + i) == 2 || rsvState m (4 * sd + i) == 0 then levelsAct (levelEnd m sd l 0) sd else m
    | .east => if domSt m (eastDom sd) != 2 then m else levelsAct (levelEnd (eastSet m sd true) sd l 0) sd

end Sys2Proof.Machine
end

