-- ==== Sys2Proof/Machine/EngSvc.lean ====
section
/-! DEFINITION. The service group of the sluice instruction set (R291 to R305, R313): range and flume work, region and placement
entries, trackers, view extents and frame retirement. -/

namespace Sys2Proof.Machine

/-- The address that a trap reports for an effective address (Tables 10-14, 11-3). -/
def eaAddr (ea : Nat) : Nat := match ea / 2 ^ 62 with
  | 0 => ea % 2 ^ 48
  | 1 => ea % 2 ^ 16
  | 2 => ea % 2 ^ 32
  | _ => ea

/-- Gives `k` the scratch byte that register `r` names, for an operand of `n` bytes (R293). -/
def withScr (e r n : Nat) (k : Nat → Mach → Mach) (m : Mach) : Mach :=
  let ea := (greg m e r).toNat
  let a := ea % 2 ^ 62
  if ea % 8 != 0 then trapNow m e .align (eaAddr ea)
  else if ea / 2 ^ 62 != 1 || 65536 < a + n then trapNow m e .access (eaAddr ea)
  else k a m

/-- Waits until the store buffer is empty (Table 7-5). -/
def afterStores (e : Nat) (k : Mach → Mach) (m : Mach) : Mach := if (engOf m e).sb.isEmpty then k m else m

/-- 64-bit scratch word at byte `a`. -/
def scrWord (m : Mach) (e a : Nat) : Nat := scrGet m e 8 a

/-- A progress word (Table 11-8). -/
def progW (count phase : Nat) : Nat := count % 2 ^ 40 + phase % 8 * 2 ^ 48

/-- A kind P instruction ends with STATUS (R292). -/
def pFin (m : Mach) (e rd count phase status : Nat) : Mach :=
  retireRd e rd (BitVec.ofNat 64 (progW count phase + status % 128 * 2 ^ 56 + 2 ^ 63)) m

/-- A step of a kind P instruction ends; rd and the engine hold the progress (R292). -/
def pSave (m : Mach) (e rd count phase : Nat) : Mach :=
  let m := gput m e rd (BitVec.ofNat 64 (progW count phase))
  engSet m e { engOf m e with st := .running, p := some (progW count phase) }

/-- Runs the next step of a kind P instruction from its progress (R292): `valid` says which COUNT and PHASE it can have reached. -/
def kindP (e rd : Nat) (valid : Nat → Nat → Bool) (k : Nat → Nat → Mach → Mach) (m : Mach) : Mach :=
  let w := match (engOf m e).p with
    | some w => w
    | none => (greg m e rd).toNat
  let count := bitsOf w 0 40
  let phase := bitsOf w 48 3
  if bitOf w 63 then retire m e
  else if bitsOf w 40 8 != 0 || bitsOf w 51 5 != 0 || !valid count phase then pFin m e rd count phase 0x7F
  else k count phase m

/-- Does every plot of a run of lines pass R50 for a tenant of port `p`? -/
def tenantRange (m : Mach) (p first lines : Nat) : Bool :=
  (List.range ((first + lines - 1) / 32768 - first / 32768 + 1)).all fun i =>
    match regionCheck m p ((first / 32768 + i) * 32768) with
    | .line _ => true
    | .viol _ => false

/-- R257: in Starting and Recovery modes a call's pool access, RGS or FLS traps ACCESS. -/
def poolOff (m : Mach) : Bool := opMode m == 0 || opMode m == 4

/-- A handle word (R294). -/
def handleWord (h : Handle) : Nat := h.unit + b2n h.flume * 2 ^ 8 + h.seq * 2 ^ 16

/-- Handles of a kind that the call holds. -/
def handlesOf (m : Mach) (e : Nat) (flume : Bool) : List Handle := (engOf m e).handles.filter fun h => h.flume == flume

/-- Binds a unit to a new handle and ends the instruction with it. -/
def bindUnit (m : Mach) (e rd : Nat) (flume : Bool) (unit : Nat) : Mach :=
  let x := engOf m e
  let seq := if x.seq + 1 == 65536 then 1 else x.seq + 1
  let h : Handle := ⟨flume, unit, seq⟩
  retireRd e rd (BitVec.ofNat 64 (handleWord h)) (engSet m e { x with handles := x.handles ++ [h], seq := seq })

/-- RGS (R296) with operation `q`. -/
def rgs (e rd ra rb q : Nat) : Mach → Mach :=
  issue e (encX 0x01 rd ra rb q) fun m =>
    let a := (greg m e ra).toNat
    let n := (greg m e rb).toNat
    let x := engOf m e
    if n == 0 then trapNow m e .illegal 0
    else if q == 2 && !x.keeper then trapNow m e .priv 0
    else if a % 64 != 0 then trapNow m e .align a
    else if poolOff m || 2 ^ 48 < a + 64 * n || (!x.keeper && !tenantRange m x.port (a / 64) n) || 4 ≤ (handlesOf m e false).length then
      trapNow m e .access a
    else afterStores e (fun m =>
      let sd := engSide e
      match anyOf m ((List.range 4).filter fun i => (rangeOf m (4 * sd + i)).isNone) with
      | none => engWaits m e
      | some i =>
        let m := draw m
        let u := 4 * sd + i
        let b := rgeBase u
        let r : RangeOp := { n := u, op := q, first := a / 64, lines := n, begun := 0, toSend := [], open_ := [], finished := 0, status := 0
                             stop := false, ended := false }
        let m := { m with eng := { m.eng with ranges := m.eng.ranges ++ [r] } }
        let m := fset (fset (fset m b R.RGE_STATUS_OP q) b R.RGE_STATUS_ENGINE e) b R.RGE_STATUS_STATUS 0
        let m := fset (fset (finc m b R.RGE_STATUS_STARTS) b R.RGE_CUR_NEXT (a / 64)) b R.RGE_LEFT_LEFT n
        bindUnit m e rd false u) m

def doRgsClean (e : Fin 32) (rd ra rb : Fin 32) : Mach → Mach := rgs e rd ra rb 0
def doRgsFlush (e : Fin 32) (rd ra rb : Fin 32) : Mach → Mach := rgs e rd ra rb 1
def doRgsDiscard (e : Fin 32) (rd ra rb : Fin 32) : Mach → Mach := rgs e rd ra rb 2
def doRgsZero (e : Fin 32) (rd ra rb : Fin 32) : Mach → Mach := rgs e rd ra rb 3
def doRgsPrefetch (e : Fin 32) (rd ra rb : Fin 32) : Mach → Mach := rgs e rd ra rb 4

/-- The completion word of an ended operation (R295). -/
def unitWord (m : Mach) (h : Handle) : Nat :=
  if h.flume then match flumeOf m h.unit with
    | some f => f.status + f.finished % 2 ^ 40 * 2 ^ 8
    | none => 0
  else match rangeOf m h.unit with
    | some r => r.status + r.finished % 2 ^ 40 * 2 ^ 8
    | none => 0

/-- Releases handles. -/
def dropHandles (m : Mach) (e : Nat) (p : Handle → Bool) : Mach :=
  let x := engOf m e
  unitsFree (engSet m e { x with handles := x.handles.filter fun h => !p h })

/-- RGW and FLW (R295): one handle, or with g0 every handle of the kind. -/
def unitWait (e xop rd ra : Nat) (flume : Bool) : Mach → Mach :=
  issue e (encX xop rd ra 0 0) fun m =>
    let hs := handlesOf m e flume
    if ra == 0 then
      if !hs.all (handleEnded m) then engWaits m e
      else
        let w := ((hs.map (unitWord m)).find? fun w => w % 256 != 0).getD 0
        retireRd e rd (BitVec.ofNat 64 w) (dropHandles m e fun h => h.flume == flume)
    else match hs.find? fun h => handleWord h == (greg m e ra).toNat with
      | none => trapNow m e .access 0
      | some h =>
        if handleEnded m h then retireRd e rd (BitVec.ofNat 64 (unitWord m h)) (dropHandles m e fun x => x == h)
        else engWaits m e

def doRgw (e : Fin 32) (rd ra : Fin 32) : Mach → Mach := unitWait e 0x02 rd ra false
def doFlw (e : Fin 32) (rd ra : Fin 32) : Mach → Mach := unitWait e 0x04 rd ra true

/-- Starts a flume operation on the lowest-numbered free channel of the engine's side, or waits (R297, R322). -/
def flumeStart (e rd kind steps src dst : Nat) (m : Mach) : Mach :=
  let sd := engSide e
  match (List.range 32).find? fun i => (flumeOf m (32 * sd + i)).isNone with
  | none => engWaits m e
  | some i =>
    let c := 32 * sd + i
    let b := fcBase c
    let f : FlumeOp := { c := c, kind := kind, steps := steps, src := src, dst := dst, finished := 0, run := [], begun := 0, status := 0
                         stop := false, ended := false }
    let m := { m with eng := { m.eng with flumes := m.eng.flumes ++ [f] } }
    let m := fset (fset (fset m b R.FC_STATUS_STATE 1) b R.FC_STATUS_KIND kind) b R.FC_STATUS_ENGINE e
    let m := fset (fset m b R.FC_STATUS_STATUS 0) b R.FC_STATUS_STEPS 0
    bindUnit m e rd true c

/-- FLS_DESCRIPTOR (R297, R323, Table 12-4). -/
def doFlsDescriptor (e : Fin 32) (rd ra : Fin 32) : Mach → Mach :=
  issue e (encX 0x03 rd ra 0 0) (withScr e ra 32 fun a => afterStores e fun m =>
    let x := engOf m e
    let w0 := scrWord m e a
    let src := scrWord m e (a + 8)
    let dst := scrWord m e (a + 16)
    let kind := bitsOf w0 0 2
    let steps := bitsOf w0 16 32
    let n := 4096 * steps
    let sled (w : Nat) : Bool := bitsOf w 0 32 + steps ≤ 2 ^ 32 && roleOf m (wordPort w) == 2
    if steps == 0 || bitsOf w0 2 14 != 0 || bitsOf w0 48 16 != 0 || scrWord m e (a + 24) != 0 || (kind == 3 && src != 0) ||
      (kind == 0 && src < dst + n && dst < src + n) then trapNow m e .illegal 0
    else if kind != 0 && !x.keeper then trapNow m e .priv 0
    else if kind == 0 && (src % 4096 != 0 || dst % 4096 != 0) then trapNow m e .align (if src % 4096 != 0 then src else dst)
    else if poolOff m || 16 ≤ (handlesOf m e true).length then trapNow m e .access 0
    else if kind == 0 && (2 ^ 48 < src + n || (!x.keeper && !tenantRange m x.port (src / 64) (64 * steps))) then trapNow m e .access src
    else if kind == 0 && (2 ^ 48 < dst + n || (!x.keeper && !tenantRange m x.port (dst / 64) (64 * steps))) then trapNow m e .access dst
    else if (kind == 1 && !sled src) || (kind != 0 && !sled dst) then trapNow m e .access 0
    else flumeStart e rd kind steps src dst m)

/-- FLS_STEP (R297): one step between sled locations. -/
def doFlsStep (e : Fin 32) (rd ra rb : Fin 32) : Mach → Mach :=
  issue e (encX 0x03 rd ra rb 1) (keeperOnly e fun m =>
    let src := (greg m e ra).toNat
    let dst := (greg m e rb).toNat
    if poolOff m || roleOf m (wordPort src) != 2 || roleOf m (wordPort dst) != 2 || 16 ≤ (handlesOf m e true).length then
      trapNow m e .access 0
    else afterStores e (flumeStart e rd 1 1 src dst) m)

/-- Placement entries of a run of plots that satisfy `p`. -/
def plcCount (m : Mach) (lo n : Nat) (p : Nat → Bool) : Nat :=
  (m.comp.plc.filter fun c => lo ≤ c.1 && c.1 < lo + n && p c.2).length

/-- Writes a placement entry to both copies and invalidates both caches (R53). -/
def plcSet (m : Mach) (plot v : Nat) : Mach :=
  let put (sd : Nat) (m : Mach) : Mach :=
    { m with comp := { m.comp with plc := sset 0 m.comp.plc (sd * 2 ^ 27 + plot) v, plcCache := mdel m.comp.plcCache (sd * 2 ^ 27 + plot) } }
  put 1 (put 0 m)

/-- The placement copy that a composition instruction reads: that of the engine's side. -/
def plcNow (m : Mach) (e plot : Nat) : Nat := plcGet m (engSide e) plot

/-- Valid locations of an entry. -/
def plcLocs (w : Nat) : List (Nat × Nat) := if !plcV w then [] else plcLoc1 w :: (if plcM2 w then [plcLoc2 w] else [])

/-- Does a valid region with MIR 1 cover the plot? -/
def mirrored (m : Mach) (plot : Nat) : Bool := match regionOf m plot with
  | some r => r.2.attr.mir
  | none => false

/-- R302: the pair holds the plot, armed, held and quiet on both sides, its bitmaps are 0 and no flume step of the plot runs. -/
def flipReady (m : Mach) (plot : Nat) : Option Nat :=
  let sides := [0, 1].filter (sideUp m)
  let ok (sd t : Nat) : Bool :=
    let b := lvlBase sd + 16 * t
    fon m b R.PLC_MIGT_EN && fget m b R.PLC_MIGT_PLOT == plot && fon m b R.PLC_MIGT_HOLD && plotQuiet m sd plot &&
    (List.range 8).all fun j => fget m (lvlBase sd + 64 * t + 8 * j) R.PLC_MIGBM_BITS == 0
  let busy := m.eng.flumes.any fun f => f.kind == 1 && f.run.any fun s => bitsOf (flumeSrc f s.idx) 37 27 == plot
  if busy || sides.isEmpty then none else lowest? 16 fun t => sides.all fun sd => ok sd t

/-- What a placement write does. -/
inductive PlcRes where
  | status (s : Nat)
  | same | write | drop
  | flip (t : Nat)
deriving DecidableEq, Repr

/-- Table 11-10 for a placement write, from the entry it finds (R53, R54, R301, R302). A change of PORT2 or SPLOT2 while M2 is 0 before and after is
no location change (DESIGN CHOICE, entry 95: R53 lists such a change, and counts the two fields as a location only while M2 is 1). -/
def plcCheck (m : Mach) (plot old new : Nat) : PlcRes :=
  let changed1 := plcV new && (!plcV old || plcLoc1 new != plcLoc1 old)
  let changed2 := plcV new && plcM2 new && (!plcV old || !plcM2 old || plcLoc2 new != plcLoc2 old)
  let adds := (if changed1 then [plcLoc1 new] else []) ++ (if changed2 then [plcLoc2 new] else [])
  let moved := plcLoc1 new != plcLoc1 old || plcM2 new != plcM2 old || (plcM2 new && plcLoc2 new != plcLoc2 old)
  let live := plcV old && moved
  let dropped := plcM2 old && !plcM2 new && plcLoc1 new == plcLoc1 old && plcV new && !plcMig old && !plcMig new
  let swap (o n : Nat × Nat) : Bool := o == n || (memState m o.1 == 2 && memState m n.1 == 0)
  let rebind := plcV new && !plcMig old && !plcMig new && plcM2 new == plcM2 old && swap (plcLoc1 old) (plcLoc1 new) &&
    (!plcM2 old || swap (plcLoc2 old) (plcLoc2 new))
  if plot > 0x7FFFFFF then .status 1
  else if new == old then .same
  else if adds.any fun l => roleOf m l.1 == 2 && (match mget m.ports.sledCap l.1 with
      | some n => n ≤ l.2
      | none => false) then .status 1
  else if bitsOf new 59 5 != 0 || adds.any (fun l => roleOf m l.1 != 2) then .status 3
  else if (plcV new && plcM2 new && (plcLoc1 new).1 == (plcLoc2 new).1) || (mirrored m plot && plcV new && !plcM2 new) then .status 6
  else if plcV old && !plcV new && (regionOf m plot).isSome then .status 7
  else if live && !plcMig old && !dropped && !rebind then .status 8
  else if dropped && memState m (plcLoc1 old).1 != 0 then .status 10
  else if adds.any fun l => memState m l.1 == 2 || (mget m.ports.sledCap l.1).isNone then .status 10
  else if live && plcMig old then
    if plcMig new || !plcV new then .status 11
    else match flipReady m plot with
      | some t => .flip t
      | none => .status 11
  else if dropped then .drop
  else .write

/-- Rewrites the sled locations of a plot's tailwater entries (R53, R243 step 3): entries with nothing left to acknowledge are freed. -/
def tailMove (m : Mach) (plot : Nat) : Mach :=
  m.tw.foldl (fun m e =>
    if plotOf e.pln != plot then m
    else
      let locs := writeLocs m (plcGet m e.sd plot)
      let e' := { e with locs := locs, left := e.left.filter fun p => locs.any fun l => l.1 == p }
      let m := { m with tw := mapFirst (fun x => x == e) (fun _ => e') m.tw }
      if e.st == .issued && e'.left.isEmpty then twFree m e' else m) m

/-- Frees a tracker pair: clears HOLD and EN on both sides (R243, R303). -/
def pairFree (t : Nat) (m : Mach) : Mach :=
  let off (sd : Nat) (m : Mach) : Mach := fset (fset m (lvlBase sd + 16 * t) R.PLC_MIGT_HOLD 0) (lvlBase sd + 16 * t) R.PLC_MIGT_EN 0
  off 1 (off 0 m)

/-- Performs a checked placement write: the status and the machine after it. -/
def plcDo (m : Mach) (plot new : Nat) (r : PlcRes) : Nat × Mach := match r with
  | .status s => (s, m)
  | .same => (0, m)
  | .write => (0, plcSet m plot new)
  | .drop => (0, tailMove (plcSet m plot new) plot)
  | .flip t =>
    let flipped (m : Mach) (sd : Nat) : Mach := if sideUp m sd then count m (lvlBase sd) 0x0F else m
    (0, pairFree t (tailMove (flipped (flipped (plcSet m plot new) 0) 1) plot))

/-- PLCW (R301). -/
def doPlcw (e : Fin 32) (rd ra rb : Fin 32) : Mach → Mach :=
  issue e (encX 0x12 rd ra rb 0) (keeperOnly e fun m =>
    let plot := (greg m e ra).toNat
    let new := (greg m e rb).toNat
    let (s, m) := plcDo m plot new (plcCheck m plot (plcNow m e plot) new)
    retireRd e rd (BitVec.ofNat 64 s) m)

/-- PLCR (R301). -/
def doPlcr (e : Fin 32) (rd ra : Fin 32) : Mach → Mach :=
  issue e (encX 0x13 rd ra 0 0) (keeperOnly e fun m =>
    let plot := (greg m e ra).toNat
    if plot > 0x7FFFFFF then trapNow m e .access 0 else retireRd e rd (BitVec.ofNat 64 (plcNow m e plot)) m)

/-- Entry `i` of a run (R313). -/
def runEntry (w1 w2 i : Nat) : Nat :=
  let np := bitsOf w1 28 5 + 1
  let np2 := bitsOf w2 28 5 + 1
  let first := bitsOf w1 0 23 + i / np + (bitsOf w1 23 5 + i % np) * 2 ^ 23 + bitsOf w1 33 1 * 2 ^ 28
  if bitOf w2 33 then first + 2 ^ 29 + (bitsOf w2 0 23 + i / np2) * 2 ^ 30 + (bitsOf w2 23 5 + i % np2) * 2 ^ 53 else first

/-- The run-wide limits of R313: 0, RANGE or ENCODING. -/
def runCheck (m : Mach) (w0 w1 w2 w3 : Nat) : Nat :=
  let n := bitsOf w0 32 28
  let out (w : Nat) : Bool := 31 < bitsOf w 23 5 + bitsOf w 28 5 || 2 ^ 23 ≤ bitsOf w 0 23 + (n - 1) / (bitsOf w 28 5 + 1)
  let bad (w : Nat) : Bool := (List.range (bitsOf w 28 5 + 1)).any fun i => roleOf m (bitsOf w 23 5 + i) != 2
  let two := bitOf w2 33
  if bitsOf w0 27 5 != 0 || bitsOf w0 60 4 != 0 || bitsOf w1 34 30 != 0 || bitsOf w2 34 30 != 0 || w3 != 0 then 3
  else if n == 0 || 2 ^ 27 < n || 2 ^ 27 < bitsOf w0 0 27 + n || out w1 || (two && out w2) then 1
  else if bad w1 || (two && bad w2) then 3 else 0

/-- PLCRUN (R313): a step of 4,096 entries, checked in full and then written. -/
def doPlcrun (e : Fin 32) (rd ra : Fin 32) : Mach → Mach :=
  issue e (encX 0x14 rd ra 0 0) (keeperOnly e (withScr e ra 32 fun a => afterStores e fun m =>
    let w0 := scrWord m e a
    let w1 := scrWord m e (a + 8)
    let w2 := scrWord m e (a + 16)
    let plot0 := bitsOf w0 0 27
    let n := bitsOf w0 32 28
    kindP e rd (fun c p => p == 0 && c % 4096 == 0 && (c == 0 || c < n)) (fun c _ m =>
      let s := runCheck m w0 w1 w2 (scrWord m e (a + 24))
      if s != 0 then pFin m e rd c 0 s
      else
        let k := min 4096 (n - c)
        let es := (List.range k).map fun i => (plot0 + c + i, runEntry w1 w2 (c + i))
        let rs := es.map fun x => (x, plcCheck m x.1 (plcNow m e x.1) x.2)
        match rs.findSome? fun x => match x.2 with
          | .status s => some s
          | _ => none with
        | some s => pFin m e rd c 0 s
        | none =>
          let m := rs.foldl (fun m x => (plcDo m x.1.1 x.1.2 x.2).2) m
          if c + k == n then pFin m e rd n 0 0 else pSave m e rd (c + k) 0) m))

/-- PLCTRK_ARM (R303). -/
def doPlctrkArm (e : Fin 32) (rd ra rb : Fin 32) : Mach → Mach :=
  issue e (encX 0x15 rd ra rb 1) (keeperOnly e fun m =>
    let t := (greg m e ra).toNat
    let plot := (greg m e rb).toNat
    let en (sd : Nat) : Bool := fon m (lvlBase sd + 16 * t) R.PLC_MIGT_EN
    let other (sd : Nat) : Bool := en sd && fget m (lvlBase sd + 16 * t) R.PLC_MIGT_PLOT != plot
    if 15 < t || 0x7FFFFFF < plot then retireRd e rd 1 m
    else if other 0 || other 1 then retireRd e rd 12 m
    else if en 0 && en 1 then retireRd e rd 0 m
    else retireRd e rd 0 (trackerSet 1 t plot true (trackerSet 0 t plot true m)))

/-- PLCTRK_FREE (R303). -/
def doPlctrkFree (e : Fin 32) (rd ra rb : Fin 32) : Mach → Mach :=
  issue e (encX 0x15 rd ra rb 0) (keeperOnly e fun m =>
    let t := (greg m e ra).toNat
    if 15 < t then retireRd e rd 1 m else retireRd e rd 0 (pairFree t m))

/-- Sets HOLD of a pair on both sides. -/
def pairHold (t : Nat) (h : Bool) (m : Mach) : Mach :=
  fset (fset m (lvlBase 0 + 16 * t) R.PLC_MIGT_HOLD (b2n h)) (lvlBase 1 + 16 * t) R.PLC_MIGT_HOLD (b2n h)

/-- PLCHOLD_SET (R303): sets HOLD once, then waits for QUIET on both sides, or for a HOLD that has expired. A number above 15 names no
pair, and the result is an open value. -/
def doPlcholdSet (e : Fin 32) (rd ra : Fin 32) : Mach → Mach :=
  issue e (encX 0x16 rd ra 0 1) (keeperOnly e fun m =>
    let t := (greg m e ra).toNat
    if 15 < t then retireRd e rd (BitVec.ofNat 64 (drawn m)) (draw m)
    else
      let m := if (engOf m e).st == .waiting then m else pairHold t true m
      let b (sd : Nat) : Nat := lvlBase sd + 16 * t
      let gone (sd : Nat) : Bool := fon m (b sd) R.PLC_MIGT_HOLDEXP && !fon m (b sd) R.PLC_MIGT_HOLD
      if gone 0 || gone 1 then retireRd e rd 0 m
      else if plotQuiet m 0 (fget m (b 0) R.PLC_MIGT_PLOT) && plotQuiet m 1 (fget m (b 1) R.PLC_MIGT_PLOT) then retireRd e rd 1 m
      else engWaits m e)

/-- PLCHOLD_CLEAR (R303). -/
def doPlcholdClear (e : Fin 32) (rd ra : Fin 32) : Mach → Mach :=
  issue e (encX 0x16 rd ra 0 0) (keeperOnly e fun m =>
    let t := (greg m e ra).toNat
    if 15 < t then retireRd e rd (BitVec.ofNat 64 (drawn m)) (draw m) else retireRd e rd 1 (pairHold t false m))

/-- A dynamic capacity event reaches a host's log (Table 3-4): 0 Add Capacity, 1 Release Capacity, 2 Forced Release. -/
def dcEvent (m : Mach) (p kind x : Nat) : Mach := msix (cfgSet m p { cfgOf m p with dcLog := (cfgOf m p).dcLog ++ [(kind, x)] }) p 2

/-- R42, R304: the status of an extent image. -/
def extCheck (m : Mach) (sd p x wa wb : Nat) : Nat :=
  let dpa := bitsOf wa 0 27
  let len := bitsOf wa 32 27 + 1
  let pool := bitsOf wb 0 27
  if 2 ^ 27 < dpa + len || 2 ^ 27 < pool + len then 1
  else if (List.range 64).any fun y => y != x && extState m p y != 0 && dpa < extDpa m p y + extLen m p y && extDpa m p y < dpa + len then 2
  else if bitsOf wa 27 5 != 0 || bitsOf wa 59 5 != 0 || bitsOf wb 27 5 != 0 || bitsOf wb 34 30 != 0 then 3
  else if plcCount m (sd * 2 ^ 27 + pool) len plcV != len then 7
  else if extState m p x != 0 || !linkUp m p then 10 else 0

/-- VEXT (R304): `q` is 0 install, 1 release, 2 forced release. -/
def vext (e rd ra rb q : Nat) : Mach → Mach :=
  issue e (encX 0x17 rd ra rb q) (keeperOnly e (withScr e rb 16 fun a => afterStores e fun m =>
    let p := bitsOf (greg m e ra).toNat 0 5
    let x := bitsOf (greg m e ra).toNat 8 6
    kindP e rd (fun c ph => c == 0 && ph ≤ 1) (fun _ ph m =>
      let st := extState m p x
      if ph == 0 then
        if roleOf m p != 1 then pFin m e rd 0 0 3
        else if q == 0 then
          let wa := scrWord m e a
          let wb := scrWord m e (a + 8)
          let s := extCheck m (engSide e) p x wa wb
          if s != 0 then pFin m e rd 0 0 s
          else
            let b := ptBase p + 16 * x
            let m := fset (fset m b R.PT_VEXT_A_DPA_PLOT (bitsOf wa 0 27)) b R.PT_VEXT_A_LENM1 (bitsOf wa 32 27)
            let m := fset (fset m b R.PT_VEXT_B_POOL_PLOT (bitsOf wb 0 27)) b R.PT_VEXT_B_STATE 1
            pSave (dcEvent m p 0 x) e rd 0 1
        else if q == 1 then
          if st == 2 then pSave (dcEvent (extSet m p x 3) p 1 x) e rd 0 1 else pFin m e rd 0 0 10
        else if st == 2 || st == 3 then pSave (extRelease (dcEvent (extSet m p x 3) p 2 x) p x false) e rd 0 1
        else pFin m e rd 0 0 10
      else if q == 0 then
        if st == 1 then m else pFin m e rd 0 1 (if st == 0 then 9 else 0)
      else if st == 0 then pFin m e rd 0 1 0 else m) m))

def doVextInstall (e : Fin 32) (rd ra rb : Fin 32) : Mach → Mach := vext e rd ra rb 0
def doVextRelease (e : Fin 32) (rd ra rb : Fin 32) : Mach → Mach := vext e rd ra rb 1
def doVextForcedRelease (e : Fin 32) (rd ra rb : Fin 32) : Mach → Mach := vext e rd ra rb 2

/-- FRET (R305) with operation `op`. -/
def fret (e rd ra rb op : Nat) : Mach → Mach :=
  issue e (encX 0x20 rd ra rb op) (keeperOnly e fun m =>
    let k := (greg m e ra).toNat
    let b := rsvBase k
    if 7 < k || !sideUp m (k / 4) then trapNow m e .access 0
    else kindP e rd (fun c ph => c == 0 && ph ≤ 1) (fun _ ph m =>
      let frame := bitsOf (greg m e rb).toNat 0 19
      let pc := bitsOf (greg m e rb).toNat 19 5
      if ph == 0 then
        if fon m b R.RSV_RETIRE_BUSY then m
        else
          let m := fset (fset (fset m b R.RSV_RETIRE_FRAME frame) b R.RSV_RETIRE_PC pc) b R.RSV_RETIRE_OP op
          pSave (startRetire (engSet m e { engOf m e with fret := none }) k op pc frame (some e)) e rd 0 1
      else match (engOf m e).fret with
        | some r => pFin (engSet m e { engOf m e with fret := none }) e rd 0 1 r
        | none => if fon m b R.RSV_RETIRE_BUSY || m.fretDone.any (fun x => x.1 == e) then m else pFin m e rd 0 1 (fget m b R.RSV_RETIRE_RESULT)) m)

def doFretRemap (e : Fin 32) (rd ra rb : Fin 32) : Mach → Mach := fret e rd ra rb 1
def doFretBarFrame (e : Fin 32) (rd ra rb : Fin 32) : Mach → Mach := fret e rd ra rb 2
def doFretBarBank (e : Fin 32) (rd ra rb : Fin 32) : Mach → Mach := fret e rd ra rb 3

/-- First plot and number of plots of a region image. -/
def Region.lo (r : Region) : Nat := bitsOf r.w0 0 27
def Region.len (r : Region) : Nat := bitsOf r.w0 32 27 + 1
def Region.v (r : Region) : Bool := bitOf r.w0 59

/-- An image with its reserved bits 0 (Table 3-6). -/
def Region.clean (r : Region) : Region :=
  ⟨bitsOf r.w0 0 27 + bitsOf r.w0 32 28 * 2 ^ 32, r.w1 % 2 ^ 46⟩

/-- Table 11-10 for the image of region entry `i` (R48, R54): 0 when it may be installed. -/
def regCheck (m : Mach) (sd i : Nat) (r : Region) : Nat :=
  let a := r.attr
  let overlap := m.comp.regions.any fun x => x.1 != i && x.2.v && r.lo < x.2.lo + x.2.len && x.2.lo < r.lo + r.len
  let memBit := (List.range 32).any fun p => bitOf a.ports p && roleOf m p == 2
  let soleHost := ((List.range 32).filter fun p => bitOf a.ports p && roleOf m p == 1) == [a.owner]
  if 2 ^ 27 < r.lo + r.len then 1
  else if r.v && overlap then 2
  else if r.clean != r || a.wpol == 3 || 2 ≤ a.pclass || memBit || (!a.priv && a.owner != 0) then 3
  else if a.priv && !soleHost then 4
  else if a.pclass == 1 && a.wpol == 0 then 5
  else if a.mir && plcCount m (sd * 2 ^ 27 + r.lo) r.len plcM2 != r.len then 6
  else if r.v && plcCount m (sd * 2 ^ 27 + r.lo) r.len plcV != r.len then 7
  else 0

/-- A region image with other PORTS and PRIV. -/
def Region.with (r : Region) (ports : Nat) (priv : Bool) (owner : Nat) : Region :=
  ⟨r.w0, setBits (setBit (setBits r.w1 0 32 ports) 37 priv) 38 5 owner⟩

/-- The image that PHASE 2 installs (Table 11-11). -/
def stage2 (o n : Region) : Region :=
  let a := o.attr
  let b := n.attr
  if !o.v then n
  else if !n.v then o.with 0 a.priv a.owner
  else if !a.priv && b.priv then n.with (2 ^ b.owner) false b.owner
  else if a.priv && !b.priv then n.with (if bitOf b.ports a.owner then 2 ^ a.owner else 0) false 0
  else if a.priv && a.owner != b.owner then n.with 0 true a.owner
  else n

/-- Ports that a sweep takes the rights of a plot from, and whether over every line (Table 11-11, R299). -/
def sweepOf (o n : Region) (plot : Nat) : Nat × Bool :=
  let a := o.attr
  let b := n.attr
  let gone := !n.v || (o.covers plot && !n.covers plot)
  if !o.v then (0, false)
  else if a.priv then
    if gone || !b.priv || a.owner != b.owner then (2 ^ a.owner, true) else (0, false)
  else if gone then (2 ^ 32 - 1, false)
  else if b.priv then (2 ^ 32 - 1 - 2 ^ b.owner, false)
  else (a.ports - (a.ports &&& b.ports), false)

/-- Plots swept by a change: those of the old and of the new image. -/
def sweepLen (o n : Region) : Nat :=
  let before := min n.len (o.lo - n.lo)
  let after := min n.len (n.lo + n.len - (o.lo + o.len))
  if n.v then o.len + before + after else o.len

/-- Plot `i` of a sweep. -/
def sweepPlot (o n : Region) (i : Nat) : Nat :=
  let before := min n.len (o.lo - n.lo)
  if i < o.len then o.lo + i
  else if i < o.len + before then n.lo + (i - o.len)
  else max n.lo (o.lo + o.len) + (i - o.len - before)

/-- Do the stages of a change include a sweep (Table 11-11)? -/
def needsSweep (o n : Region) : Bool :=
  let shrinks := o.lo < n.lo || n.lo + n.len < o.lo + o.len
  o.v && (!n.v || shrinks || (sweepOf o n o.lo).1 != 0)

/-- Is a region entry in transition (R300)? -/
def inTransition (m : Mach) (i : Nat) : Bool := m.comp.plans.any fun x => x.ent == i && x.installed && needsSweep x.old x.final

/-- The plan of an entry. -/
def planOf (m : Mach) (i : Nat) : Option RegPlan := m.comp.plans.find? fun x => x.ent == i

/-- Writes or removes it. -/
def planPut (m : Mach) (x : RegPlan) : Mach :=
  { m with comp := { m.comp with plans := m.comp.plans.filter (fun y => y.ent != x.ent) ++ [x] } }
def planDel (m : Mach) (i : Nat) : Mach := { m with comp := { m.comp with plans := m.comp.plans.filter fun y => y.ent != i } }

/-- The image of entry `i`. -/
def regAt (m : Mach) (i : Nat) : Region := sget ⟨0, 0⟩ m.comp.regions i

/-- Installs an image in every copy (R60). -/
def regPut (m : Mach) (i : Nat) (r : Region) : Mach := { m with comp := { m.comp with regions := sset ⟨0, 0⟩ m.comp.regions i r } }

/-- Pool accesses of engines, range engines and flume channels that are on their way to plots for which `on` holds. -/
def unitsOpen (m : Mach) (on : Nat → Bool) : List Src :=
  let at_ (a : Nat) : Bool := on (plotOf (a / 64))
  let engs := m.eng.eng.flatMap fun x =>
    (match x.2.wait with
    | .load _ _ _ a _ => if at_ a then [Src.load x.1] else []
    | .amo _ _ _ a => if at_ a then [Src.amo x.1] else []
    | .none => []) ++
    (match x.2.sb.head? with
    | some s => if s.space == .pool && s.sent && !s.ack && at_ s.addr then [Src.store x.1] else []
    | none => [])
  let ranges := m.eng.ranges.flatMap fun r =>
    (r.open_.filter fun l => !r.toSend.contains l && on (plotOf l)).map fun l => Src.range r.n l
  let flumes := (m.eng.flumes.filter fun f => f.kind == 0).flatMap fun f => f.run.flatMap fun s =>
    ((if at_ (flumeSrc f s.idx) then s.reads else []) ++ (if at_ (flumeDst f s.idx) then s.writes else [])).map fun i =>
      Src.flume f.c (s.tag * 64 + i)
  engs ++ ranges ++ flumes

/-- Is the plot one of the old or of the final image? -/
def RegPlan.covers (x : RegPlan) (plot : Nat) : Bool := x.old.covers plot || x.final.covers plot

/-- An image of the entry is installed now: what is under way was decoded under the one before (R60). -/
def RegPlan.marked (x : RegPlan) (m : Mach) : RegPlan := { x with mark := m.nextId, units := unitsOpen m x.covers }

/-- Requests decoded before the latest installation that have not completed (R60). -/
def oldReqs (m : Mach) (x : RegPlan) : Bool :=
  (m.ports.ptt.any fun t => t.id < x.mark && x.covers (plotOf t.req.pln)) || x.units.any fun u => (unitsOpen m x.covers).contains u

/-- Back-invalidates the holders of a plot's lines: those the directory shows, or every line of a host-private region. -/
def sweepStart (m : Mach) (x : RegPlan) : Mach :=
  let plot := sweepPlot x.old x.final x.pos
  let (ports, every) := sweepOf x.old x.final plot
  let ls := if ports == 0 then []
    else if every then (List.range 32768).map fun i => plot * 32768 + i
    else dirLines m plot 1 fun pres => pres &&& ports != 0
  let reqs := ls.map fun l =>
    (homeSlice m l, ({ op := .evictPorts ports, src := .regw x.ent, pln := l, data := 0, mask := 0, poison := false } : Req))
  planPut { m with home := { m.home with reqQ := m.home.reqQ ++ reqs } } { x with pos := x.pos + 1, left := ls.length }

/-- A line of a region sweep is done. -/
def regwDone (m : Mach) (i : Nat) : Mach := match planOf m i with
  | some x => planPut m { x with left := x.left - 1 }
  | none => m

/-- Drops the directory entries of a region made host-private (Table 11-11). -/
def dirDrop (m : Mach) (r : Region) : Mach :=
  let inside (c : Nat × DirEnt) : Bool := r.covers (plotOf (plnOf m (c.1 / 2 ^ 29) (c.2.tag * 2 ^ 26 + c.1 / 8 % 2 ^ 26)))
  { m with home := { m.home with dir := m.home.dir.filter (fun c => !inside c), mirror := m.home.mirror.filter fun c => !inside c } }

/-- Do the stages of a change include PHASE 4 (Table 11-11)? -/
def hasLast (o n : Region) : Bool := stage2 o n != n

/-- PHASE 4 (Table 11-11): the final image is installed. -/
def regFinal (m : Mach) (x : RegPlan) : Mach :=
  let m := if x.old.v && x.final.v && !x.old.attr.priv && x.final.attr.priv then dirDrop m x.final else m
  planPut (regPut m x.ent x.final) { x.marked m with last := true }

/-- PHASE 2 (Table 11-11): a new change of entry `i` by engine `e` is recorded and its first image installed. -/
def regInstall (m : Mach) (e i : Nat) (n : Region) : Mach :=
  let o := regAt m i
  let x : RegPlan := { ent := i, old := o, final := n, installed := true, pos := 0, left := 0, mark := 0, units := [], last := false
                       eng := some e }
  planPut (regPut m i (stage2 o n)) (x.marked m)

/-- Which COUNT and PHASE a REGW of entry `i` can have reached (R292, R299). -/
def regwValid (m : Mach) (i c ph : Nat) : Bool :=
  let swept := match planOf m i with
    | some x => x.pos
    | none => 2 ^ 28
  match ph with
  | 1 => c ≤ swept
  | 3 => c ≤ swept
  | ph => ph ≤ 4 && c == 0

/-- The checks of R48 and R54, then PHASE 2, or the end of a REGW that changes nothing. -/
def regwBegin (e rd i : Nat) (n : Region) (m : Mach) : Mach :=
  let s := regCheck m (engSide e) i n
  if s != 0 then pFin m e rd 0 0 s
  else if regAt m i == n then pFin m e rd 0 0 0
  else pSave (regInstall m e i n) e rd 0 2

/-- One step of the recorded work of an entry in stage `phase`: old-entry requests end, then plot after plot is swept; none when it is over. -/
def regwSweep (e rd phase : Nat) (x : RegPlan) (m : Mach) : Option Mach :=
  if 0 < x.left || oldReqs m x then some (planPut m x)
  else if needsSweep x.old x.final && x.pos < sweepLen x.old x.final then some (pSave (sweepStart m x) e rd x.pos phase)
  else none

/-- A step of PHASE 2, 3 or 4 of the REGW that recorded the plan. -/
def regwGo (e rd : Nat) (x : RegPlan) (m : Mach) : Mach :=
  let sweeps := needsSweep x.old x.final
  match regwSweep e rd 3 x m with
  | some m => m
  | none =>
    if x.last then pFin (planDel m x.ent) e rd 0 4 0
    else if hasLast x.old x.final then pSave (regFinal m x) e rd 0 4
    else pFin (planDel m x.ent) e rd (if sweeps then x.pos else 0) (if sweeps then 3 else 2) 0

/-- A step of PHASE 1: the recorded work of another REGW comes first (R300). -/
def regwOther (e rd i : Nat) (n : Region) (x : RegPlan) (m : Mach) : Mach :=
  match regwSweep e rd 1 x m with
  | some m => m
  | none => regwBegin e rd i n (planDel m i)

/-- REGW (R299, R300, Table 11-11): one step. The checks come before the wait for another program that holds the entry. -/
def doRegw (e : Fin 32) (rd ra rb : Fin 32) : Mach → Mach :=
  issue e (encX 0x10 rd ra rb 0) (keeperOnly e (withScr e rb 16 fun a => afterStores e fun m =>
    let i := (greg m e ra).toNat
    let n : Region := ⟨scrWord m e a, scrWord m e (a + 8)⟩
    kindP e rd (regwValid m i) (fun c ph m =>
      let s := regCheck m (engSide e) i n
      if 4095 < i then pFin m e rd 0 0 1
      else if ph == 0 && s != 0 then pFin m e rd 0 0 s
      else match planOf m i with
        | none => if 2 ≤ ph && regAt m i == n then pFin m e rd c ph 0 else regwBegin e rd i n m
        | some x =>
          if x.eng.isSome && x.eng != some e.val then m
          else
            let x := { x with eng := some e.val }
            if ph ≤ 1 || x.final != n then regwOther e rd i n x m else regwGo e rd x m) m))

/-- REGR (R299): entry ra goes to scratch; rd is 1 while it is in transition. -/
def doRegr (e : Fin 32) (rd ra rb : Fin 32) : Mach → Mach :=
  issue e (encX 0x11 rd ra rb 0) (keeperOnly e (withScr e rb 16 fun a => afterStores e fun m =>
    let i := (greg m e ra).toNat
    if 4095 < i then trapNow m e .access 0
    else
      let r := (regAt m i).clean
      retireRd e rd (flag (inTransition m i)) (scrPut e 8 (a + 8) r.w1 (scrPut e 8 a r.w0 m))))

end Sys2Proof.Machine
end

