-- ==== Sys2Proof/Machine/Regs.lean ====
section
/-! DEFINITION. Which register a control address names (Tables 2-1 to 2-5 and the register tables of every chapter), its reset domain,
and resets of a domain with the restoring of RS fields (R33, R413). -/

namespace Sys2Proof.Machine

/-- Does offset `d` from the first register of an array name one of its elements? -/
def dimsHit : List (Nat × Nat) → Nat → Bool
  | [], d => d == 0
  | (stride, n) :: ds, d => decide (d / stride < n) && dimsHit ds (d % stride)

/-- The header registers (Tables 2-3 to 2-5). BLKID is a constant of the block. -/
def hdrUnlock : Fld := ⟨0x08, 1, 1, 0, .wo, .any⟩
def hdrRegs : List Reg :=
  [⟨0x00, [], .never, .any, []⟩, ⟨0x08, [], .block, .any, [hdrLock, hdrUnlock]⟩,
   ⟨0x10, [], .block, .any, [hdrRej, hdrCause, hdrOffset, hdrCount]⟩]

/-- Every register of a block instance. -/
def Blk.all (b : Blk) : List Reg :=
  (if b.hdr then hdrRegs else []) ++ b.regs ++
  (if b.counters then R.sharedRegs.map fun r => { r with dom := .block } else [])

/-- The register at an address of a block, with the base that its fields count from. -/
def Blk.regAt (b : Blk) (a : Nat) : Option (Reg × Nat) :=
  let o := a - b.base
  (b.all.find? fun r => decide (r.off ≤ o) && dimsHit r.dims (o - r.off)).map fun r => (r, a - r.off)

/-- The reset domain of a block's header and counters. -/
def blkDom (b : Blk) : Dom :=
  if b.type == 1 || b.type == 2 || b.type == 4 then .cold else if b.isPort then .port else if b.type == 3 then .cold else .side

/-- The reset domain of the register at an address, and its RS fields' lowest bits. -/
def domAt (a : Nat) : Option (Dom × List Nat) :=
  match blkAt a with
  | none => none
  | some b => (b.regAt a).map fun r =>
      (if r.1.dom == .block then blkDom b else r.1.dom, (r.1.flds.filter fun f => f.acc == .rs).map fun f => f.lo)

/-- Is the register on side `sd`: in its window, or one of the always-on registers kept for it (CLK_FABSTAT)? -/
def onSide (sd a : Nat) : Bool :=
  (decide (sideBase sd ≤ a) && decide (a < sideBase sd + 0x800000)) || a == 0x3418 + 16 * sd

/-- The key of a register field is an RS field's. -/
def rsKey (k : Nat) : Bool := match domAt (k / 64 * 8) with
  | some (_, los) => los.contains (k % 64)
  | none => false

/-- Address of the register that a key belongs to. A field's lowest bit is below 64, so eight keys of registers lie between. -/
def keyAddr (k : Nat) : Nat := k / 64 * 8

/-- The package that the Ditchrider runs. -/
def fwOf (m : Mach) : Option Package := (mget m.flash.fw (fget m mgtBase R.MGT_STATUS_SLOT)).map fun p => p.pkg

/-- The settings image in slot `s`, if the running firmware finds it valid (R423, Table 16-6). -/
def imageAt (m : Mach) (s : Nat) : Option Image :=
  (mget m.flash.slots s).filter fun i => i.valid && i.format ≤ ((fwOf m).map fun p => p.settings).getD 0

/-- The settings image in force (R33): the newest valid slot, or the one loaded when the boot mode is not 3; none in a start that loaded
none. -/
def curImage (m : Mach) : Option Image :=
  let good (s : Nat) : Option Image := imageAt m s
  let src := fget m aonBase R.AON_LOAD_SRC
  if fget m aonBase R.AON_LOAD_BOOT != 3 then (if src < 2 then good src else none)
  else match good 0, good 1 with
    | some a, some b => some (if a.seq < b.seq then b else a)
    | some a, none => some a
    | none, b => b

/-- Registers whose address satisfies `p` take their reset values, their RS fields those of an image (R33, R413). -/
def resetRegs (m : Mach) (p : Nat → Bool) (img : Option Image) : Mach :=
  let m := marksBegin p { m with regs := m.regs.filter (fun c => !p (keyAddr c.1)) }
  match img with
  | none => m
  | some i => i.rs.foldl (fun m c => if p (keyAddr c.1) then { m with regs := mput m.regs c.1 c.2 } else m) m

/-- Is the register at an address of reset domain `d`? -/
def inDom (d : Dom) (a : Nat) : Bool := match domAt a with
  | some x => x.1 == d
  | none => false

end Sys2Proof.Machine
end

