-- ==== Sys2Proof/Machine/SideOps.lean ====
section
/-! DEFINITION. What a side loses when it is fenced or reset, and what it starts with (R207, R413, R420, Table 16-4 steps 5 to 11). -/

namespace Sys2Proof.Machine

/-- The power domains of a side, with its stacks (Table 17-1). -/
def sideDoms (sd : Nat) : List Nat := [6, 7, 8, 9, 10, 11].map (· + 6 * sd) ++ [18, 19, 20, 21].map (· + 4 * sd)

/-- Is the address of a counter or register of side `sd` in its window? -/
def inSide (sd a : Nat) : Bool := decide (sideBase sd ≤ a) && decide (a < sideBase sd + 0x800000)

/-- A call that its side has lost ends with SIDE_LOST (Table 8-7, R266). -/
def sideLostCalls (m : Mach) (sd : Nat) : Mach :=
  let m := (List.range 16).foldl (fun m i =>
    let e := 16 * sd + i
    let x := engOf m e
    if x.call.isSome then callEnd m e .idle (some (0x0A, sd)) else m) m
  (readyOf m sd).foldl (fun m c => resSend (callFree m c.id) c c.notify 0x0A sd) m

/-- Engines, program store, scratch memory, range engines and flume channels of a side lose everything. -/
def clearEngines (m : Mach) (sd : Nat) : Mach :=
  let g := m.eng
  let prog := mdrop g.prog fun k => if k < 2 ^ 20 then k / 2 ^ 19 == sd else (k - 2 ^ 20) / 2 ^ 14 == sd
  let bad := g.progBad.filter fun k => if k < 2 ^ 17 then k / 2 ^ 16 != sd else (k - 2 ^ 17) / 2 ^ 11 != sd
  let g := { g with eng := mdrop g.eng (fun e => e / 16 == sd), greg := mdrop g.greg (fun k => k / 512 == sd), prog := prog }
  let g := { g with scratch := mdrop g.scratch (fun k => k / 65536 / 16 == sd), progBase := mdrop g.progBase (fun b => b / 2 == sd) }
  let g := { g with ranges := g.ranges.filter (fun r => r.n / 4 != sd), rangeQ := g.rangeQ.filter (fun r => r.n / 4 != sd) }
  { m with eng := { g with flumes := g.flumes.filter (fun f => f.c / 32 != sd), progBad := bad } }

/-- The home slices of a side lose everything but the directory content, which stands apart (R413). -/
def clearHome (m : Mach) (sd : Nat) : Mach :=
  let x := m.home
  let on (h : Nat) : Bool := h / 32 == sd
  let x := { x with reqQ := x.reqQ.filter (fun q => !on q.1), fillQ := x.fillQ.filter (fun f => !on f.h) }
  let x := { x with rspQ := x.rspQ.filter (fun r => !on r.h), snpData := x.snpData.filter (fun q => !on q.1) }
  let x := { x with pfQ := x.pfQ.filter (fun q => !on q.1), mshrs := x.mshrs.filter (fun r => !on r.h) }
  let note (n : HomeNote) : Nat := match n with
    | .relCheck h _ => h
    | .cleanReq h _ => h
    | .retwin h _ => h
  let x := { x with notes := x.notes.filter (fun n => !on (note n)), mwq := x.mwq.filter (fun q => !on q.1) }
  let x := { x with wb := x.wb.filter (fun e => !on e.h), vb := x.vb.filter (fun e => !on e.h) }
  let x := { x with hg := mdrop x.hg (fun k => on (k / 49152)), plru := mdrop x.plru (fun k => on (k / 3072)) }
  let x := { x with ways := x.ways.filter (fun w => !on w.h), dwq := x.dwq.filter (fun q => !on q.1) }
  let x := { x with dc := mdrop x.dc (fun k => on (k / 8192)), dcPlru := mdrop x.dcPlru (fun k => on (k / 2048)) }
  { m with home := { x with recalls := x.recalls.filter (fun r => !on r.h) } }

/-- The Reservoir, tailwater buffer and twin log of a side lose everything. -/
def clearStacks (m : Mach) (sd : Nat) : Mach :=
  let v := m.rsv
  let v := { v with slots := mdrop v.slots (fun k => k / 2 ^ 31 == sd), keys := mdrop v.keys (fun k => k / 2 == sd) }
  let v := { v with predKey := mdel v.predKey sd, pred := mdrop v.pred (fun k => k / 4096 / 4 == sd) }
  let v := { v with ctls := mdrop v.ctls (fun k => k / 4 == sd), remap := mdrop v.remap (fun k => k / 2 ^ 24 / 4 == sd) }
  let v := { v with spares := mdrop v.spares (fun k => k / 32 / 4 == sd), offers := v.offers.filter (fun o => o.sd != sd) }
  let v := { v with takes := v.takes.filter (fun t => t.1 != sd), cleanWr := v.cleanWr.filter (fun c => c.sd != sd) }
  let v := { v with cleanPtr := mdel v.cleanPtr sd, rekPos := mdrop v.rekPos (fun k => k / 128 == sd) }
  let t := m.twin
  let t := { t with staged := t.staged.filter (fun s => s.sd != sd), recs := mdrop t.recs (fun k => k / (20132608 * 10) == sd) }
  let t := { t with ovf := mdrop t.ovf (fun k => k / 20132608 == sd), bucketKey := mdel t.bucketKey sd }
  let t := { t with refresh := t.refresh.filter (fun s => s != sd), untwinned := t.untwinned.filter (fun u => u.1 != sd) }
  let keep (x : Target) : Bool := match x with
    | .hgSet h _ => h / 32 != sd
    | .slot s _ => s != sd
  let r := { m.ras with targets := m.ras.targets.filter keep, area := m.ras.area.filter (fun r => r.k / 4 != sd) }
  { m with rsv := v, twin := t, ras := r, twIn := m.twIn.filter (fun x => x.sd != sd), tw := m.tw.filter fun e => e.sd != sd }

/-- The loops of a side lose everything. -/
def clearLoops (m : Mach) (sd : Nat) : Mach :=
  let l := m.loops
  let l := { l with force := l.force.filter (fun s => s != sd), since := mdel l.since sd, chan := mdrop l.chan (fun k => k / 128 == sd) }
  let l := { l with hot := mdrop l.hot (fun k => k / 16384 == sd), props := l.props.filter (fun p => p.sd != sd), seq := mdel l.seq sd }
  { m with loops := l, sampleQ := m.sampleQ.filter fun s => s.1 != sd }

/-- A stack is retired (ERR_STKRET.RETIRED). -/
def stackRetired (m : Mach) (k : Nat) : Bool := bitOf (fget m aonBase R.ERR_STKRET_RETIRED) k

/-- A side is cut off: everything in it is lost, its registers are reset, its domains are off and its gateways Fenced (R207, R413,
Tables 13-5 and 17-2). Its sled requests and back-invalidates are fenced. -/
def clearSide (m : Mach) (sd : Nat) : Mach :=
  let m := sideLostCalls m sd
  let m := clearLoops (clearStacks (clearHome (clearEngines m sd) sd) sd) sd
  let m := resetRegs m (fun a => inSide sd a || a == 0x3418 + 16 * sd) none
  let m := { m with cnts := mdrop m.cnts (fun k => inSide sd (k / 8)) }
  let sleds := m.ports.sleds.map fun s => if s.sd == sd then { s with fenced := true } else s
  let snps := m.ports.snps.map fun s => if s.h / 32 == sd then { s with fenced := true } else s
  let m := { m with ports := { m.ports with sleds := sleds, snps := snps, blk := m.ports.blk.filter (fun b => b.h / 32 != sd) } }
  let m := (sideDoms sd).foldl (fun m d => if 18 ≤ d && stackRetired m (d - 18) then m else domPut m d 5) m
  let m := slicesState m sd 2
  let m := forN 4 (fun i m => fset m (rsvBase (4 * sd + i)) R.RSV_STATUS_STATE (if stackRetired m (4 * sd + i) then 0 else 3)) m
  let m := forN 4 (fun t m => fset m (tlBase t) (if sd == 0 then R.TL_STATUS_UPA else R.TL_STATUS_UPB) 0) m
  let n := m.net
  let m := { m with net := { n with held := n.held.filter (fun p => p.sd != sd), trace := n.trace.filter (fun t => t.1 != sd)
                                    tseq := mdel n.tseq sd, markers := n.markers.filter (fun x => x.1 != sd) } }
  let m := forN 60 (fun s m => gwPut m sd s 4) m
  fset m aonBase (if sd == 0 then R.AON_LOAD_SIDE_A else R.AON_LOAD_SIDE_B) 0

/-- The retirement records restore the remap tables, bank bars and area remaps of a side (R409). -/
def restoreTrim (m : Mach) (sd : Nat) : Mach :=
  let m := m.flash.trim.foldl (fun m t => match t.rec_ with
    | .frame k pc frame barred =>
      if k / 4 != sd then m
      else if barred then { m with rsv := { m.rsv with remap := sset 1 m.rsv.remap (frameKey k pc frame) 0 } }
      else
        let n := sparesUsed m k pc
        { m with rsv := { m.rsv with remap := sset 1 m.rsv.remap (frameKey k pc frame) (n + 2)
                                     spares := sset 0 m.rsv.spares (k * 32 + pc) (n + 1) } }
    | .bank k pc bank =>
      if k / 4 != sd then m
      else
        let r := rsvBase k + 8 * (pc / 4)
        fset m r R.RSV_BANKBAR_BARS (setBit (fget m r R.RSV_BANKBAR_BARS) (16 * (pc % 4) + bank) true)
    | .area r =>
      if r.k / 4 != sd || m.ras.area.contains r then m
      else { m with ras := { m.ras with area := m.ras.area ++ [r] }
                    rsv := { m.rsv with spares := sset 0 m.rsv.spares (r.k * 32 + r.pc) (sparesUsed m r.k r.pc + 1) } }
    | _ => m) m
  forN 4 (fun i m => fset m (rsvBase (4 * sd + i)) R.RSV_STATUS_REMAP_USED (remapUsed m (4 * sd + i))) m

/-- A whole bank is written with a shipped image, `base` - 1, and the words that differ from it. Pages that ERR_PSMAP maps are written in
their spare pages, word for word (R407). -/
def bankLoad (m : Mach) (sd b base : Nat) (words : List (Nat × Nat)) : Mach :=
  let k := 2 * sd + b
  let own (x : Nat) : Bool := if x < 2 ^ 20 then x / 2 ^ 18 == k else (x - 2 ^ 20) / 2 ^ 13 == k
  let prog := mdrop m.eng.prog own
  let bad := m.eng.progBad.filter fun x => !own (8 * x)
  let spare (i : Nat) (prog : List (Nat × Nat)) : List (Nat × Nat) :=
    let a := 0x80 * sd + 0x40 * b + 8 * i
    if base == 0 || !fon m a R.ERR_PSMAP_V then prog
    else forN 1024 (fun w prog => mput prog (2 ^ 20 + (8 * k + i) * 1024 + w)
      (Config.shippedWord base (fget m a R.ERR_PSMAP_PAGE * 1024 + w) % 2 ^ 32)) prog
  let prog := words.foldl (fun p w => mput p (progAt m sd b w.1) w.2) (forN 8 spare prog)
  { m with eng := { m.eng with prog := prog, progBad := bad, progBase := sset 0 m.eng.progBase k base } }

/-- Both program banks of a side take the image's program, or a shipped one (R424, R431). -/
def loadProg (m : Mach) (sd base : Nat) (words : List (Nat × Nat)) (gen : Nat) : Mach :=
  let m := bankLoad (bankLoad m sd 0 base words) sd 1 base words
  fset (fset m (seBase sd) R.SE_PSCTL_ACTIVE 0) (seBase sd) R.SE_PSCTL_ACTGEN gen

/-- Number of the program image that a start without a settings image loads: the factory package's; with no valid slot in boot mode 2 or 3
the spec names none, and it is an open value (R424). -/
def factoryImage (m : Mach) : Nat :=
  if fget m aonBase R.AON_LOAD_SRC == 2 then drawn m else ((mget m.flash.fw 2).map fun p => p.pkg.image).getD (drawn m)

/-- Upper half of what the hottest of `n` sensors from `i` reads (PWR_TEMP). -/
def tempOf (m : Mach) (i : Nat) : Nat := bitsOf (fget m (8 * (i / 8)) R.PWR_TEMP_TEMPS) (8 * (i % 8)) 8
def hottest (m : Mach) (i n : Nat) : Nat := ((List.range n).map fun j => tempOf m (i + j)).foldl max 0

/-- Lower bounds of the steps of a side, and the thermal step that a temperature gives from none (Table 17-6). -/
def sideStep (t : Nat) : Nat := if t < 95 then 0 else if t < 100 then 1 else if t < 105 then 2 else 3
def stackStep (t : Nat) : Nat := if t < 95 then 0 else 1

/-- Thermal step of a side, and of a stack, in PWR_TSTAT. -/
def sideStepPut (m : Mach) (sd v : Nat) : Mach := fset m aonBase (if sd == 0 then R.PWR_TSTAT_SIDEA else R.PWR_TSTAT_SIDEB) v
def stackStepOf (m : Mach) (k : Nat) : Nat := bitsOf (fget m aonBase R.PWR_TSTAT_STACK) (2 * k) 2
def stackStepPut (m : Mach) (k v : Nat) : Mach :=
  fset m aonBase R.PWR_TSTAT_STACK (setBits (fget m aonBase R.PWR_TSTAT_STACK) (2 * k) 2 v)

/-- A domain is On: its rail voltage is an open value; UPS counts (Table 17-2). -/
def domOn (m : Mach) (d : Nat) : Mach :=
  let v := drawn m
  finc (fset (fset (domPut (draw m) d 2) (8 * d) R.PWR_DOM_MV v) (8 * d) R.PWR_DOM_ABORT 0) (8 * d) R.PWR_DOM_UPS

/-- A side starts with nothing in it: registers and RS fields, domains and gateways, remaps, programs, keys, Headgate invalidation and
Reservoir sweep (R420 steps 5 to 11, R93, R127, R450). -/
def startSide (m : Mach) (sd : Nat) (img : Option Image) : Mach :=
  let m := clearSide m sd
  let m := resetRegs m (fun a => inSide sd a || a == 0x3418 + 16 * sd) img
  let m := (sideDoms sd).foldl (fun m d => if 18 ≤ d && stackRetired m (d - 18) then m else domOn m d) m
  let m := forN 60 (fun s m => gwPut m sd s 0) m
  let m := forN 4 (fun t m => uplinkPutStart m sd t) m
  let m := restoreTrim m sd
  let m := match img with
    | some i => loadProg m sd i.progBase i.prog i.gen
    | none => loadProg (draw m) sd (factoryImage m + 1) [] 0
  let m := forN 4 (fun i m => if stackRetired m (4 * sd + i) then fset m (rsvBase (4 * sd + i)) R.RSV_STATUS_STATE 0 else m) m
  let m := forN 4 (fun i m =>
    if stackRetired m (4 * sd + i) then m else fset m (rsvBase (4 * sd + i)) R.RSV_STATUS_STATE 1) m
  let m := startSweep m sd
  let k1 := drawn m
  let m := draw { m with rsv := { m.rsv with predKey := sset 0 m.rsv.predKey sd k1 } }
  let k2 := drawn m
  let m := draw { m with twin := { m.twin with bucketKey := sset 0 m.twin.bucketKey sd k2 } }
  let m := eastSet (slicesState m sd 1) sd true
  let m := { m with loops := { m.loops with since := sset 0 m.loops.since sd m.timeUs } }
  let m := sideStepPut m sd (sideStep (hottest m (24 * sd) 24))
  let m := forN 4 (fun i m => stackStepPut m (4 * sd + i) (stackStep (hottest m (64 + 2 * (4 * sd + i)) 2))) m
  let v := drawn m
  let m := fset (fset (draw m) (16 * sd) R.CLK_FAB_FNOW 20) (16 * sd) R.CLK_FAB_VNOW v
  fset (forN 4 (fun i m => threshStart m (4 * sd + i)) m) aonBase (if sd == 0 then R.AON_LOAD_SIDE_A else R.AON_LOAD_SIDE_B) 1
where
  /-- THRESH starts at THR_MIN, and is held at 0 while PREDEN is 0 (R116). -/
  threshStart (m : Mach) (k : Nat) : Mach :=
    let b := rsvBase k
    fset m b R.RSV_STATUS_THRESH (if fon m b R.RSV_CTL_PREDEN then fget m b R.RSV_CTL_THR_MIN else 0)
  /-- A tile's uplink into the side trains. -/
  uplinkPutStart (m : Mach) (sd t : Nat) : Mach :=
    let m := fset m (nocBase sd) R.NOC_STATUS_UPLINK (setBit (fget m (nocBase sd) R.NOC_STATUS_UPLINK) t true)
    fset m (tlBase t) (if sd == 0 then R.TL_STATUS_UPA else R.TL_STATUS_UPB) 1

end Sys2Proof.Machine
end

