-- ==== Sys2Proof/Machine/Failover.lean ====
section
/-! DEFINITION. Side faults, failover, stops, reintegration, Spillway and Recovery mode (R204 to R220, R509, R512). -/

namespace Sys2Proof.Machine

/-- R18: the operating mode changes; an event follows when CHANGED was 0. What a failover or a return of a side does to the fields of
AON_OPMODE counts as a change of mode also where MODE keeps its value: in Spillway mode, and in Single-side mode when the survivor fails and
the returning side takes over (DESIGN CHOICE, entry 93: Table 8-14 calls the state unchanged and R18 speaks of a change of mode). -/
def setMode (m : Mach) (mode up cause : Nat) : Mach :=
  let was := stands m aonBase R.AON_OPMODE_CHANGED
  let m := fset (fset (fset m aonBase R.AON_OPMODE_MODE mode) aonBase R.AON_OPMODE_SIDE_UP up) aonBase R.AON_OPMODE_CAUSE cause
  let m := fset (finc m aonBase R.AON_OPMODE_CHANGES) aonBase R.AON_OPMODE_CHANGED 1
  if was then m else notice m 1 0 (mode + cause * 2 ^ 3 + fget m aonBase R.AON_OPMODE_CHANGES * 2 ^ 7)

/-- A mode request ends with a result (AON_MODECTL). -/
def modeEnd (m : Mach) (result : Nat) : Mach :=
  if fon m aonBase R.AON_MODECTL_BUSY then fset (fset m aonBase R.AON_MODECTL_BUSY 0) aonBase R.AON_MODECTL_RESULT result else m

/-- Requests that the structures of side `sd` hold, oldest first, whose requester is neither a port nor nobody. -/
def unitReqs (m : Mach) (sd : Nat) : List Req :=
  let on (h : Nat) : Bool := h / 32 == sd
  let dones (l : List TwDone) : List Req := l.filterMap fun d => match d with
    | .writer r _ => some r
    | .lostWriter r => some r
    | _ => none
  let ack (a : AckFor) : List Req := match a with
    | .write q _ => [q]
    | _ => []
  let strm (x : Nat × Stream) : List Req := match x.2 with
    | .twinWrite _ _ _ a => if on x.1 then ack a else []
    | _ => []
  let all :=
    ((m.tw.filter fun e => e.sd == sd).flatMap fun e => dones e.done) ++ ((m.twIn.filter fun e => e.sd == sd).flatMap fun e => dones e.done) ++
    ((m.rsv.cleanWr.filter fun c => c.sd == sd).flatMap fun c => dones c.done) ++
    ((m.twin.acks.filter fun a => on a.h).flatMap fun a => ack a.ack) ++ m.twin.stream.flatMap strm ++
    ((m.home.mshrs.filter fun r => on r.h).flatMap fun r => r.reqs ++ r.waiter.toList) ++
    ((m.home.mwq.filter fun q => on q.1).map fun q => q.2) ++ ((m.home.reqQ.filter fun q => on q.1).map fun q => q.2)
  all.filter fun q => match q.src with
    | .host _ _ => false
    | .io _ _ => false
    | .none => false
    | _ => true

/-- Is the requester a unit on side `sd`? -/
def srcOn (sd : Nat) (s : Src) : Bool := match s with
  | .load e => e / 16 == sd
  | .store e => e / 16 == sd
  | .amo e => e / 16 == sd
  | .flume c _ => c / 32 == sd
  | .range n _ => n / 4 == sd
  | _ => false

/-- R208 step 2: a grant record of the failed side is applied to the content that survivor `t` had as a mirror. A grant whose set has all ways in
use takes the way of R160's victim, whose holders are recalled (DESIGN CHOICE, entry 103: the spec does not say which entry of the mirror
gives way). -/
def applyGrant (t : Nat) (m : Mach) (g : Grant) : Mach :=
  let half := halfOf m g.pln
  let l := lineL g.pln
  let h := 32 * t + sliceIn m l
  let put (m : Mach) (w : Nat) (e : DirEnt) : Mach :=
    { m with home := { m.home with dir := mput m.home.dir (dirKey half (dirSet l) w) e } }
  let tag := l / 2 ^ 26
  let st := if g.st == .s then (if hasTwin m g.pln then DirSt.o else .s) else g.st
  match dirFind m half l with
  | some (w, e) =>
    if g.st == .s then put m w { e with st := st, pres := e.pres ||| 2 ^ g.port } else put m w ⟨tag, g.st, 2 ^ g.port⟩
  | none =>
    match dirFreeWay m h half l, dirVictim m h half l with
    | some w, _ =>
      let m := match mget m.home.dir (dirKey half (dirSet l) w) with
        | some e => applyLost m h (dirLineOf m half (dirSet l) e)
        | none => m
      put m w ⟨tag, st, 2 ^ g.port⟩
    | none, some (w, e) =>
      let v := dirLineOf m half (dirSet l) e
      let ps := portsOf (livePres m h e.pres)
      let m := { m with home := { m.home with recalls := m.home.recalls ++ [⟨h, dirKey half (dirSet l) w, v, ps, [], g.pln⟩] } }
      put (snoopAll m h v .inv ps) w ⟨tag, st, 2 ^ g.port⟩
    | none, none => m

/-- R209: a port transaction addressed to the failed side is completed by its tile when its twin notice has come, and reissued
otherwise; one whose port was lost is dropped, posted writes apart. -/
def replayPtt (m : Mach) (t : Ptt) : Mach :=
  match t.notice, t.posted with
  | some r, false => complete m { src := t.req.src, pln := t.req.pln, img := none, grant := none, result := r, how := .ok, rights := none }
  | _, _ =>
    if t.dead && !t.posted then pttFree m t.id
    else
      let upd (x : Ptt) : Ptt := { x with held := true, notice := none, prepared := false, released := false, got := none }
      let m := { m with ports := { m.ports with ptt := mapFirst (fun x => x.id == t.id) upd m.ports.ptt } }
      fsat m (ptBase t.port) R.PT_PTT_REPLAYED

/-- A unit of the survivor settles an access to the failed side (Table 8-7, R320). -/
def replayUnit (m : Mach) (q : Req) : Mach :=
  match m.twin.unitNotices.find? fun n => n.1 == q.src with
  | some n =>
    let m := { m with twin := { m.twin with unitNotices := dropFirst (fun x => x.1 == q.src) m.twin.unitNotices } }
    complete m { src := q.src, pln := q.pln, img := none, grant := none, result := n.2, how := .ok, rights := none }
  | none => { m with home := { m.home with reqQ := m.home.reqQ ++ [(homeSlice m q.pln, q)] } }

/-- Repairs of the survivor that its lost twin was to serve end as in Single-side mode (Table 15-5). -/
def repairsSingle (m : Mach) (t : Nat) : Mach :=
  let lost (m : Mach) (g : Target) : Mach := match g with
    | .hgSet h _ => if h / 32 == t then err m { errOf 1 0x02 0x10 h with dataloss := dataloss m t, action := 10 } else m
    | .slot s i => if s == t then err m { errOf 1 0x05 0x11 (ctlOf s i) with dataloss := dataloss m t, action := 6, loc := slotLoc i 0 } else m
  let ms := m.twin.stream.filter fun x => x.1 / 32 == t
  let m := (openTargets m).foldl lost m
  let m := { m with ras := { m.ras with targets := [] }, twin := { m.twin with stream := m.twin.stream.filter (fun x => x.1 / 32 != t), refresh := [] } }
  let m := ms.foldl (fun m x => match x.2 with
    | .lookup pln w => repairPoison m pln w
    | _ => m) m
  { m with twin := { m.twin with stream := ms ++ m.twin.stream } }

/-- Own-half writes of the survivor that wait for the failed side complete under R212. -/
def ownAcks (m : Mach) (t : Nat) : Mach :=
  let m := repairsSingle m t
  let ms := m.twin.stream.filter fun x => x.1 / 32 == t
  let as := m.twin.acks.filter fun a => a.h / 32 == t
  let m := { m with twin := { m.twin with stream := [], acks := [], relAcks := [], mirAcks := [] } }
  let m := as.foldl (fun m a => ackDone m a.h a.pln a.ack) m
  ms.foldl (fun m x => match x.2 with
    | .twinWrite pln _ _ a => ackDone m x.1 pln a
    | _ => m) m

/-- Lines of side `t`'s half that are dirty without a twin when side `1 - t` is lost: those that had none before (the lost side was returning), and
those whose twins are lost (R212). -/
def lostTwins (m : Mach) (t : Nat) : List Nat :=
  let was := (m.twin.untwinned.filter fun u => u.1 == t).map fun u => u.2
  let ls := (m.twin.staged.filter fun s => s.sd != t).map (fun s => s.pln) ++
    (m.twin.recs.filter fun r => r.1 / (20132608 * 10) != t).map (fun r => r.2.pln) ++
    m.twin.stream.filterMap fun x => match x.2 with
      | .twinWrite p _ _ _ => if x.1 / 32 == t then some p else none
      | _ => none
  (was ++ ls.filter fun p => dirtyAtHome m (homeSlice m p) p).eraseDups

/-- The bridge is closed at a fence: the survivor's end goes down, and its routes change (R207, R348). -/
def bridgeClose (m : Mach) (t : Nat) : Mach :=
  let m := fset m (brgBase t) R.BRG_STATUS_UP 0
  let m := count (finc m (nocBase t) R.NOC_STATUS_RECONF) (nocBase t) 0x0A
  forN 4 (fun k m => cutOff m k) m

/-- R206 to R212, and Table 8-13: side `sd` fails while the other holds what it needs to serve the whole pool. `kept`: messages of the
failed side's streams that reached the survivor whole. -/
def takeover (m : Mach) (sd cause kept : Nat) : Mach :=
  let t := 1 - sd
  let back := m.twin.returning == some sd
  let units := (unitReqs m sd).filter fun q => !srcOn sd q.src
  let opened := m.ports.ptt.filter fun x => !x.held && servingSide m x.req.pln == sd
  let ids := opened.map fun x => x.id
  let mine := (m.twin.stream.filter fun x => x.1 / 32 == sd).take kept
  let toTwin (x : Stream) : Bool := match x with
    | .lookup _ _ => false
    | .search _ => false
    | _ => true
  let m := (mine.filter fun x => toTwin x.2).foldl (fun m x => applyStream m x.1 x.2) m
  let m := m.twin.notices.foldl (fun m _ => doTwinNotice m) m
  let own := lostTwins m t
  let opened := (m.ports.ptt.filter fun x => ids.contains x.id)
  let grants := m.ports.grants.filter fun g => servingSide m g.pln == sd
  let held := m.ports.heldRsp.filter fun d => servingSide m d.pln == t
  let half (k : Nat) : Bool := k / 2 ^ 29 == sd && (!back || sliceIn m (k / 8 % 2 ^ 26) < m.twin.handed)
  let mode := opMode m
  let spill := mode == 3
  let dir := (m.home.mirror.filter fun c => half c.1).foldl (fun d c => mput d c.1 c.2) (mdrop m.home.dir half)
  let m := clearSide { m with home := { m.home with dir := dir, mirror := [] } } sd
  let pq (x : Nat × Nat) : Bool := !ids.contains x.2
  let m := { m with ports := { m.ports with grants := [], heldRsp := [], prepQ := m.ports.prepQ.filter pq
                                            relQ := m.ports.relQ.filter (fun r => r.1 / 32 != sd) } }
  let logs := stagedOn m t + recsOn m t
  let m := fset m (twnBase t) R.TWN_LOG_STATE (if logs == 0 then 0 else 2)
  let w := m.twin
  let m := { m with twin := { w with returning := none, replicated := false, handed := 0, holding := none, stopping := none
                                     untwinned := own.map (fun p => (t, p)) } }
  let m := fset (fset m aonBase R.AON_OPMODE_SIDE_UP (2 ^ t)) aonBase R.AON_OPMODE_REINTEG 0
  let m := grants.foldl (applyGrant t) m
  let m := fset (fset m (twnBase t) R.TWN_GAUGE_LINES own.length) (twnBase t) R.TWN_GAUGE_UNTWINNED (b2n (!own.isEmpty))
  let m := fset (fset m (twnBase t) R.TWN_GAUGE_FORCED 0) (twnBase t) R.TWN_REINT_STEP 0
  let m := ownAcks m t
  let m := held.foldl complete m
  let m := opened.foldl replayPtt m
  let m := units.foldl replayUnit m
  let m := bridgeClose m t
  let m := if cause == 5 then modeEnd m 0 else if m.twin.entering && mode != 3 then m else modeEnd m 3
  if back then m
  else
    let m := setMode m (if spill then 3 else 2) (2 ^ t) 1
    let d := drawn m
    let f := drawn (draw m)
    let k := drawn (draw (draw m))
    let m := draw (draw (draw m))
    let m := fset (fset m aonBase R.AON_FOREC_SIDE sd) aonBase R.AON_FOREC_CAUSE cause
    let m := fset (fset (fset m aonBase R.AON_FOREC_DET_US d) aonBase R.AON_FOREC_FENCE_US f) aonBase R.AON_FOREC_TAKE_US k
    let m := fsat (fset m aonBase R.AON_FOREC_REPLAYED (opened.length + units.length)) aonBase R.AON_FOREC_COUNT
    notice m 0x0A sd (cause * 2)

/-- Every link of the module goes down and stays down: in Recovery mode (R17, R220) and while the module has no power. -/
def linksDown (m : Mach) : Mach :=
  forN 32 (fun p m => if linkUp m p then linkDown m p 0 else if roleOf m p == 0 then m else fset m (ptBase p) R.PT_LINK_STATE 0) m

/-- R220: Recovery mode. -/
def enterRecovery (m : Mach) (cause : Nat) : Mach :=
  let m := modeEnd m (if cause == 2 then 0 else 3)
  let w := m.twin
  let m := { m with twin := { w with returning := none, replicated := false, handed := 0, holding := none, stopping := none, entering := false }
                    boot := { m.boot with timing := false, toRecovery := false, faultLow := true } }
  let m := send (fset (linksDown m) aonBase R.AON_OPMODE_REINTEG 0) (.fault true)
  setMode m 4 0 cause

/-- The side fault of R204 to R206, R218, R220 and R512. -/
def failSide (m : Mach) (sd cause kept : Nat) : Mach :=
  let t := 1 - sd
  match opMode m with
  | 0 =>
    if m.boot.timing && !bitOf m.boot.bad sd then
      let m := clearSide { m with boot := { m.boot with bad := setBit m.boot.bad sd true } } sd
      notice m 0x0A sd (cause * 2)
    else m
  | 4 => if sideRuns m sd then clearSide m sd else m
  | _ =>
    if sideUp m sd then
      if sideUp m t || (m.twin.returning == some t && m.twin.replicated) then takeover m sd cause kept
      else enterRecovery (clearSide (err m (errOf 3 0x0F 0x01 sd)) sd) 1
    else if m.twin.returning == some sd then takeover m sd cause kept
    else m

/-- HEALTH_PULSE (R204). -/
def doHealthPulse (sd : Fin 2) (m : Mach) : Mach :=
  if sideRuns m sd then
    fset { m with twin := { m.twin with hpRun := mdel m.twin.hpRun sd } } aonBase (if sd == 0 then R.AON_ARB_A_OK else R.AON_ARB_B_OK) 1
  else m

/-- HEALTH_PULSE_MISSED (R204): the third in a row makes the arbiter declare the side failed with CAUSE 1. -/
def doHealthPulseMissed (sd : Fin 2) (kept : Nat) (m : Mach) : Mach :=
  if !sideRuns m sd then m
  else
    let n := sget 0 m.twin.hpRun sd + 1
    if n < 3 then { m with twin := { m.twin with hpRun := sset 0 m.twin.hpRun sd n } }
    else
      let m := { m with twin := { m.twin with hpRun := mdel m.twin.hpRun sd } }
      failSide (fset m aonBase (if sd == 0 then R.AON_ARB_A_OK else R.AON_ARB_B_OK) 0) sd 1 kept

/-- HEARTBEAT (R199): the bridge end of side `sd` receives a heartbeat. -/
def doHeartbeat (sd : Fin 2) (m : Mach) : Mach :=
  if fon m (brgBase sd) R.BRG_STATUS_UP then fset (bridgeMsg m (1 - sd)) (brgBase sd) R.BRG_STATUS_HB_RUN 0 else m

/-- R205: the side that causes 3 and 4 fence. -/
def notPreferred (m : Mach) : Nat := 1 - fget m aonBase R.AON_ARB_PREFER

/-- HEARTBEAT_MISSED (R204, R205): the third in a row, or a bridge that has not retrained in 20 µs, fences a side with CAUSE 3 while both
health lines pulse. -/
def doHeartbeatMissed (sd : Fin 2) (retrain : Bool) (kept : Nat) (m : Mach) : Mach :=
  let b := brgBase sd
  if !fon m b R.BRG_STATUS_UP then m
  else
    let m := fsat (fsat (count m b 0x04) b R.BRG_STATUS_HB_RUN) b R.BRG_STATUS_HB_TOTAL
    let pulse := fon m aonBase R.AON_ARB_A_OK && fon m aonBase R.AON_ARB_B_OK
    if pulse && (retrain || 3 ≤ fget m b R.BRG_STATUS_HB_RUN) then failSide m (notPreferred m) 3 kept else m

/-- FAULT_SIGNAL (R204, R390): an uncorrected error in control state of a side, in structure `st` of block type `bt`, instance `inst`. -/
def doFaultSignal (sd : Fin 2) (st bt inst : BitVec 8) (kept : Nat) (m : Mach) : Mach :=
  if sideRuns m sd then failSide (err m { errOf 2 st.toNat bt.toNat inst.toNat with action := 31 }) sd 2 kept else m

/-- BRIDGE_CREDIT_TIMEOUT (R204, R205): a twin write or mirror update of side `sd` has waited 50 µs for bridge credit. -/
def doBridgeCreditTimeout (sd : Fin 2) (kept : Nat) (m : Mach) : Mach :=
  let waits (x : Nat × Stream) : Bool := x.1 / 32 == sd.val && match x.2 with
    | .twinWrite _ _ _ _ => true
    | .mirror _ _ _ => true
    | _ => false
  if m.twin.stream.any waits && fon m (brgBase sd) R.BRG_STATUS_UP then
    failSide m (notPreferred m) 4 kept
  else m

/-- BRIDGE_LANE_FAIL (R215): a spare lane takes over. -/
def doBridgeLaneFail (m : Mach) : Mach :=
  forN 2 (fun s m =>
    if fon m (brgBase s) R.BRG_STATUS_UP then fsat (count m (brgBase s) 0x05) (brgBase s) R.BRG_STATUS_SPARES else m) m

/-- ARBITER_COPY_FAULT (R205): logged; the other copy decides alone. -/
def doArbiterCopyFault (copy : Fin 2) (m : Mach) : Mach :=
  err (fset m aonBase R.AON_ARB_COPYERR 1) (errOf 1 0x0F 0x01 copy)

/-- Spillway entry begins (Table 8-14): dirty Headgate ways are cleaned, and the cleaners run (`spillClean`, `cleanerRule`). -/
def spillBegin (m : Mach) : Mach := { m with twin := { m.twin with entering := true } }

/-- Table 8-16: what AON_MODECTL.REQ does with a request that runs now. During a reintegration, which keeps BUSY at 1, the requests that Tables 8-13
and 8-16 refuse then (`race`) set RESULT to 1 and change nothing else (DESIGN CHOICE, entry 92: R509's text says that a request is ignored
while BUSY is 1, the tables that these are refused with RESULT 1). -/
def modeReq (race : Bool) (ok : Mach → Option Nat) (go : Mach → Mach) (m : Mach) : Mach :=
  if m.boot.holdUp then m
  else if race && m.twin.returning.isSome then fset m aonBase R.AON_MODECTL_RESULT 1
  else if fon m aonBase R.AON_MODECTL_BUSY then m
  else match ok m with
    | some r => fset m aonBase R.AON_MODECTL_RESULT r
    | none => go (fset (fset m aonBase R.AON_MODECTL_BUSY 1) aonBase R.AON_MODECTL_RESULT 0)

/-- Is the module in Normal or Single-side mode with no reintegration running? -/
def steady (m : Mach) : Bool := (opMode m == 1 || opMode m == 2) && m.twin.returning.isNone

/-- ENTER_SPILLWAY (R219): AON_MODECTL REQ 1. -/
def doEnterSpillway (m : Mach) : Mach :=
  modeReq true (fun m => if steady m && !m.twin.entering then none else some 1) spillBegin m

/-- Sides whose bit is set in SIDE_UP. -/
def upSides (m : Mach) : List Nat := [0, 1].filter fun s => sideUp m s

/-- Table 8-14: is Spillway entry complete? -/
def spillDone (m : Mach) : Bool :=
  m.twin.entering && (opMode m == 1 || opMode m == 2) &&
  (upSides m).all fun s => fget m (twnBase s) R.TWN_GAUGE_LINES == 0 && fget m (twnBase s) R.TWN_LOG_STATE != 2 && stagedOn m s + recsOn m s == 0

/-- Spillway mode begins on the serving sides (Table 8-14), and ends the drains of their levels (R331). -/
def spillEnter (m : Mach) : Mach :=
  let m := (upSides m).foldl (fun m s =>
    let m := ctlsState (slicesState m s 3) s 4
    let m := fset (fset m (twnBase s) R.TWN_GAUGE_CLEANING 0) (twnBase s) R.TWN_LOG_STATE 0
    let m := { m with home := { m.home with hg := mdrop m.home.hg (fun k => k / 49152 / 32 == s), wb := m.home.wb.filter fun e => e.h / 32 != s }
                      rsv := { m.rsv with slots := mdrop m.rsv.slots (fun k => k / 2 ^ 31 == s) } }
    let ends (m : Mach) (l : Level) : Mach := if levelOf m s l == 1 then levelWt (levelEnd m s l 2) s else m
    ends (ends m .headgate) .reservoir) m
  setMode m 3 (fget m aonBase R.AON_OPMODE_SIDE_UP) 2

/-- LEAVE_SPILLWAY (R219, R331): AON_MODECTL REQ 2. Levels whose OFF bit is 1 stay out of service. -/
def doLeaveSpillway (m : Mach) : Mach :=
  modeReq false (fun m => if opMode m == 3 then none else some 1) (fun m =>
    let m := { m with twin := { m.twin with entering := false } }
    let m := (upSides m).foldl (fun m s =>
      let back (l : Level) : Bool := !bitOf (fget m (cctlBase s) R.RGE_CCTL_OFF) (levelBit l) && (levelOf m s l == 0 || levelOf m s l == 3)
      let m := if back .headgate then clearWays (slicesState m s 1) s false else m
      let m := if back .reservoir then startSweep m s else m
      fset m (twnBase s) R.TWN_LOG_STATE (b2n (bothUp m))) m
    let m := setMode m (if bothUp m then 1 else 2) (fget m aonBase R.AON_OPMODE_SIDE_UP) 2
    modeEnd ((upSides m).foldl levelsAct m) 0) m

/-- Table 8-16, REQ 3 and 4: a planned stop of a side begins (R216): the tiles hold new requests for it. -/
def stopSide (sd : Nat) : Mach → Mach :=
  modeReq true
    (fun m => if (opMode m == 1 || opMode m == 3) && bothUp m && m.twin.stopping.isNone && !(m.twin.entering && opMode m == 1) then none else some 1)
    (fun m => { m with twin := { m.twin with stopping := some sd } })

def doStopSideA : Mach → Mach := stopSide 0
def doStopSideB : Mach → Mach := stopSide 1

/-- STOP_DRAIN_END (R216): the drain of the stopping side has ended or its 300 µs have passed; fence and takeover follow. -/
def doStopDrainEnd (kept : Nat) (m : Mach) : Mach :=
  match m.twin.stopping with
  | none => m
  | some sd => takeover m sd 5 kept

/-- REINTEGRATE_STOPPED_SIDE (R217): AON_MODECTL REQ 5. `bridge`: the bridge is not down. -/
def doReintegrateStoppedSide (bridge : Bool) (m : Mach) : Mach :=
  let r := if sideUp m 0 then 1 else 0
  let t := 1 - r
  let ok (m : Mach) : Option Nat :=
    if !((opMode m == 2 || opMode m == 3) && !bothUp m && m.twin.returning.isNone && !(m.twin.entering && opMode m == 2)) then some 1
    else if !bridge || ((List.range 4).any fun i => stackRetired m (4 * r + i)) || fget m (twnBase t) R.TWN_LOG_STATE != 0 then some 2
    else none
  modeReq false ok (fun m =>
    let m := { m with twin := { m.twin with returning := some r, replicated := false, handed := 0, holding := none, soakBad := false } }
    fset (fset m aonBase R.AON_OPMODE_REINTEG 1) (twnBase t) R.TWN_REINT_STEP 1) m

/-- Placement entries of side `t` are copied to side `r` (R422). -/
def copyPlc (m : Mach) (t r : Nat) : Mach :=
  let own := mdrop m.comp.plc fun k => k / 2 ^ 27 == r
  let src := m.comp.plc.filter fun c => c.1 / 2 ^ 27 == t
  { m with comp := { m.comp with plc := src.foldl (fun p c => mput p (r * 2 ^ 27 + c.1 % 2 ^ 27) c.2) own } }

/-- A dirty line of the survivor is twinned to the returning side `r` (Table 8-12, step 5): its newest image, wherever the home holds it. -/
def replicate (r : Nat) (m : Mach) (u : Nat × Nat) : Mach :=
  let h := homeSlice m u.2
  match dirtyAtHome m h u.2, homeImg m h u.2 with
  | true, some img =>
    doStagingEviction ⟨r % 2, Nat.mod_lt _ (by decide)⟩ (stage (count (count m (twnBase r) 0x01) (twnBase r) 0x02) r u.2 img false)
  | _, _ => m

/-- Step 5 begins (R218): the twin scan, with the returning side's log Building, unless the survivor's count exceeds the budget. -/
def scanBegin (m : Mach) (r : Nat) : Mach :=
  if opMode m == 3 || budget < fget m (twnBase (1 - r)) R.TWN_GAUGE_LINES then m else fset m (twnBase r) R.TWN_LOG_STATE 3

/-- Step `s` of Table 8-12, 2 to 5, ends: the start, the copy of the placement table, the rebuild of the directory store and mirror, the twin scan. A scan that the budget has held back starts when the cleaner has brought the count below the high
mark. -/
def replStep (r : Nat) (m : Mach) (s : Nat) : Mach :=
  let t := 1 - r
  let b := twnBase t
  let next (m : Mach) : Mach := fset m b R.TWN_REINT_STEP (s + 1)
  match s with
  | 2 => next m
  | 3 => next (copyPlc m t r)
  | 4 => scanBegin (next { m with home := { m.home with mirror := m.home.dir } }) r
  | 5 =>
    let held := opMode m != 3 && fget m (twnBase r) R.TWN_LOG_STATE != 3 &&
      fget m b R.TWN_HIMARK_MARK * 16384 ≤ fget m b R.TWN_GAUGE_LINES
    if held then m
    else
      let m := { m with home := { m.home with mirror := m.home.dir } }
      let m := (m.twin.untwinned.filter fun u => u.1 == t).foldl (replicate r) m
      let m := { m with twin := { m.twin with untwinned := [], replicated := true, soakBad := false } }
      let m := fset (fset m b R.TWN_GAUGE_UNTWINNED 0) b R.TWN_GAUGE_LINES (stagedOn m r + recsOn m r)
      let m := if opMode m == 3 then m else fset m (twnBase r) R.TWN_LOG_STATE 1
      next m
  | _ => m

/-- REINTEGRATION_REPLICATION_COMPLETE (R217, R218): the step of Table 8-12 that TWN_REINT.STEP shows ends, so that the commands in turn have the
placement table copied, the directory of both halves held on both sides, and the survivor's dirty lines twinned to the returning side; after the
last of them the soak begins. -/
def doReintegrationReplicationComplete (m : Mach) : Mach :=
  match m.twin.returning with
  | none => m
  | some r => replStep r m (fget m (twnBase (1 - r)) R.TWN_REINT_STEP)

/-- SOAK_END (R217): handback begins. A soak period in which an error of class UCC or SFE was recorded on the returning side does not end the
soak, which runs for a further period (DESIGN CHOICE, entry 104: Table 8-12 has the soak end with no such error and does not say what
follows one). -/
def doSoakEnd (m : Mach) : Mach :=
  match m.twin.returning with
  | none => m
  | some r =>
    let b := twnBase (1 - r)
    if fget m b R.TWN_REINT_STEP != 6 then m
    else if m.twin.soakBad then { m with twin := { m.twin with soakBad := false } }
    else fset m b R.TWN_REINT_STEP 7

/-- Work open on lines of slice pair `pair` of the half of side `r`, at the survivor. -/
def pairBusy (m : Mach) (r pair : Nat) : Bool :=
  let mine (pln : Nat) : Bool := halfOf m pln == r && sliceIn m (lineL pln) == pair
  (m.home.mshrs.any fun x => mine x.pln) || (m.home.reqQ.any fun q => mine q.2.pln) || (m.home.mwq.any fun q => mine q.2.pln) ||
  (m.home.snpData.any fun q => mine q.2.pln) || (m.tw.any fun e => mine e.pln) || (m.twIn.any fun e => mine e.pln) ||
  (m.ports.snps.any fun s => mine s.pln && !s.fenced) || (m.home.recalls.any fun c => mine c.pln)

/-- SLICE_PAIR_HANDBACK (R218, Table 8-12 steps 7 and 8): the tiles hold the requests of the next slice pair; once nothing of it is open
the pair is handed back; after the last the module is in Normal mode. -/
def doSlicePairHandback (m : Mach) : Mach :=
  match m.twin.returning with
  | none => m
  | some r =>
    let t := 1 - r
    let pair := m.twin.handed
    if fget m (twnBase t) R.TWN_REINT_STEP != 7 then m
    else if m.twin.holding.isNone then { m with twin := { m.twin with holding := some pair } }
    else if pairBusy m r pair then m
    else
      let m := { m with home := { m.home with mirror := m.home.dir }
                        twin := { m.twin with holding := none, handed := pair + 1 } }
      if pair + 1 < 32 then m
      else
        let m := { m with twin := { m.twin with returning := none, replicated := false, handed := 0 } }
        let m := fset (fset m aonBase R.AON_OPMODE_REINTEG 0) (twnBase t) R.TWN_REINT_STEP 0
        let spill := opMode m == 3
        let m := if spill then m else fset m (twnBase t) R.TWN_LOG_STATE 1
        modeEnd (setMode m (if spill then 3 else 1) 3 3) 0

/-- HANDBACK_HOLD_EXPIRY (R218): the hold is released; the pair is retried later. -/
def doHandbackHoldExpiry (m : Mach) : Mach := { m with twin := { m.twin with holding := none } }

/-- ENTER_RECOVERY (R220): AON_MODECTL REQ 6 from the Ditchrider; from a serving mode Spillway entry completes first. -/
def doEnterRecovery (m : Mach) : Mach :=
  modeReq false (fun m => if opMode m == 4 then some 1 else none) (fun m =>
    if opMode m == 1 || opMode m == 2 then spillBegin { m with boot := { m.boot with toRecovery := true } }
    else enterRecovery m 2) m

end Sys2Proof.Machine
end

