-- ==== Sys2Proof/Machine/PwrCmd.lean ====
section
/-! DEFINITION. Power domains, clocks, the voltage and frequency loop, and thermal control (chapter 17); feeds stand with the resets. -/

namespace Sys2Proof.Machine

/-- The side of a domain in a side, 0 otherwise. -/
def domSide (d : Nat) : Nat := if d < 12 then 0 else if d < 18 then 1 else if d < 22 then 0 else 1

/-- POWER_DOWN_REQUEST (R332, R434, R435): the owner of an east half, its own drain done, asks for power-down. The other domains that this
request could name power down only by a fence or with their stack's retirement. -/
def doPowerDownRequest (d : Fin 26) (m : Mach) : Mach :=
  if (d == 8 || d == 14) && domSt m d == 2 && levelOf m (domSide d) .east == 1 && eastDrained m (domSide d) then domDrain m d else m

/-- DOMAIN_DRAIN_END (R435, Table 13-5): the outbound queues of a Draining domain are empty. -/
def doDomainDrainEnd (d : Fin 26) (m : Mach) : Mach :=
  if domSt m d != 3 then m
  else if fon m (8 * d) R.PWR_DOM_ABORT then
    let m := fsat (fset (domPut m d 2) (8 * d) R.PWR_DOM_ABORT 0) (8 * d) R.PWR_DOM_ABORTS
    let aborts (m : Mach) (sd site : Nat) : Mach := fsat m (gwBase sd site) R.NOC_GW_ABORTS
    let m := [0, 1].foldl (fun m sd => (sitesOf sd d).foldl (fun m s => aborts m sd s) m) m
    gwsPut (gwsRelease (count m (nocBase (domSide d)) 0x06) d) d 0
  else
    let sleep := d == 10 || d == 16
    let mv := drawn m
    let m := if sleep then fset (draw m) (8 * d) R.PWR_DOM_MV mv else fset m (8 * d) R.PWR_DOM_MV 0
    let m := if sleep then finc m (8 * domSide d) R.PWR_SLEEP_SLEEPS else m
    let lost := m.net.held.filter fun p => heldIn d p
    let m := gwsPut (gwsRelease (domPut m d (if sleep then 4 else 0)) d) d 2
    lost.foldl (fun m p =>
      if p.net == 0 && hdrVn p.hdr == 2 then noAnswer m (bitsOf p.hdr 64 32) else gwDiscard m p true) m

/-- POWER_UP_REQUEST (R332, R435, R438): the owner of an east half that is Enabling, or HOLD of a sleeping cluster. -/
def doPowerUpRequest (d : Fin 26) (m : Mach) : Mach :=
  let sd := domSide d
  if (d == 8 || d == 14) && domSt m d == 0 && levelOf m sd .east == 3 then domWake m d
  else if (d == 10 || d == 16) && domSt m d == 4 && fon m (8 * sd) R.PWR_SLEEP_HOLD then domWake m d
  else m

/-- DOMAIN_READY (R435): the rail is in regulation and initialisation has ended; held packets are delivered. -/
def doDomainReady (d : Fin 26) (m : Mach) : Mach :=
  if domSt m d == 1 then gwsPut (gwsRelease (domOn m d) d) d 0 else m

/-- Is every engine of the cluster Idle and its ready list empty (R437)? -/
def clusterIdle (m : Mach) (sd : Nat) : Bool :=
  ((List.range 16).all fun i => (engOf m (16 * sd + i)).st == .idle) && (readyOf m sd).isEmpty

/-- CLUSTER_IDLE_SLEEP (R437): the cluster has been idle for IDLE µs. -/
def doClusterIdleSleep (sd : Fin 2) (m : Mach) : Mach :=
  let d := 10 + 6 * sd.val
  if fon m (8 * sd.val) R.PWR_SLEEP_EN && !fon m (8 * sd.val) R.PWR_SLEEP_HOLD && clusterIdle m sd && domSt m d == 2 then domDrain m d
  else m

/-- HOLD (R438): PWR_SLEEP.HOLD is written 1. -/
def doHold (sd : Fin 2) (m : Mach) : Mach := clusterWake (fset m (8 * sd.val) R.PWR_SLEEP_HOLD 1) sd

/-- PHASE_FAIL (R443): a regulator phase is switched out. -/
def doPhaseFail (m : Mach) : Mach := finc m aonBase R.PWR_INPUT_PHASEFAIL

/-- OSCILLATOR_FAIL (R445): every PLL switches to the other oscillator when the selected one fails and the other is good. -/
def doOscillatorFail (osc : Fin 2) (m : Mach) : Mach :=
  let ok (i : Nat) : Fld := if i == 0 then R.CLK_OSC_OK0 else R.CLK_OSC_OK1
  if !fon m aonBase (ok osc) then m
  else
    let m := fset (fset m aonBase (ok osc) 0) aonBase R.CLK_OSC_FAILED 1
    if fget m aonBase R.CLK_OSC_SEL == osc.val && fon m aonBase (ok (1 - osc.val)) then
      fsat (fset m aonBase R.CLK_OSC_SEL (1 - osc.val)) aonBase R.CLK_OSC_SWITCHES
    else m

/-- Thermal step of a side in PWR_TSTAT. -/
def sideStepOf (m : Mach) (sd : Nat) : Nat := fget m aonBase (if sd == 0 then R.PWR_TSTAT_SIDEA else R.PWR_TSTAT_SIDEB)

/-- FCAP (R447, R449, Table 17-6), in units of 50 MHz: FTARGET above 2.0 GHz holds only in step 0. -/
def fcapOf (m : Mach) (sd : Nat) : Nat :=
  min (fget m (16 * sd) R.CLK_FAB_FTARGET) (match sideStepOf m sd with
    | 0 => 63
    | 1 => 36
    | _ => 28)

/-- VF_EVALUATE (R447): `slack` is the lowest slack in ps since the last evaluation; none when it is negative. -/
def doVfEvaluate (sd : Fin 2) (slack : Option (BitVec 8)) (m : Mach) : Mach :=
  if !sideRuns m sd then m
  else
    let b := 16 * sd.val
    let fcap := fcapOf m sd
    let f := fget m b R.CLK_FAB_FNOW
    let v := fget m b R.CLK_FAB_VNOW
    let open_ := drawn m
    let m := if slack.isNone then draw m else m
    let m := fset m b R.CLK_FABSTAT_SLACK ((slack.map fun x => x.toNat).getD open_)
    let m := fset m b R.CLK_FAB_FCAP fcap
    let step (m : Mach) (n : Nat) : Mach := finc (fset m b R.CLK_FAB_FNOW n) b R.CLK_FABSTAT_STEPS
    let runPut (m : Mach) (n : Nat) : Mach := { m with pwr := { m.pwr with run := sset 0 m.pwr.run sd n } }
    let low := match slack with
      | some x => decide (x.toNat < fget m b R.CLK_FAB_SLO)
      | none => true
    let high := match slack with
      | some x => decide (fget m b R.CLK_FAB_SHI < x.toNat)
      | none => false
    let m :=
      if fcap < f then step m (f - 1)
      else if low then
        runPut (if v < 900 then fset m b R.CLK_FAB_VNOW (v + 5) else if 28 < f then step m (f - 1) else m) 0
      else
        let run := if high then sget 0 m.pwr.run sd + 1 else 0
        if run < 10 then runPut m run
        else runPut (if f < fcap then step m (f + 1) else if 700 < v then fset m b R.CLK_FAB_VNOW (v - 5) else m) 0
    let m := fset m b R.CLK_FABSTAT_ATVMAX (b2n (fget m b R.CLK_FAB_VNOW == 900))
    fset m b R.CLK_FABSTAT_CAPPED (b2n (decide (fcap < fget m b R.CLK_FAB_FTARGET)))

/-- NEGATIVE_SLACK (R448): the clock stretcher lengthens the next 64 cycles. -/
def doNegativeSlack (sd : Fin 2) (m : Mach) : Mach := if sideRuns m sd then fsat m (16 * sd.val) R.CLK_FABSTAT_STRETCH else m

/-- STRETCH_FAULT (R448): at 1.4 GHz and 0.90 V with the stretcher active without a break for 1 ms, the side asserts its fault signal. -/
def doStretchFault (sd : Fin 2) (kept : Nat) (m : Mach) : Mach :=
  let b := 16 * sd.val
  if sideRuns m sd && fget m b R.CLK_FAB_FNOW == 28 && fget m b R.CLK_FAB_VNOW == 900 then
    failSide (err m { errOf 2 0x0F 0x10 (32 * sd.val) with action := 31 }) sd 2 kept
  else m

/-- Steps of a part given the lower bounds of steps 1, 2, …: a step rises at its bound and falls 3 °C below the bound of the current step
(R129, R450). -/
def thermStep (bounds : List Nat) (cur t : Nat) : Nat :=
  let up := (bounds.filter fun b => b ≤ t).length
  if cur ≤ up then up else fall cur
where
  /-- Falls from step `n` while the temperature is 3 °C below its bound. -/
  fall : Nat → Nat
    | 0 => 0
    | n + 1 => if t + 3 ≤ bounds.getD n 0 then fall n else n + 1

/-- The change of a part's step, posted as class 0x0C and counted (R451): part 0 side, 1 tile, 2 stack. -/
def thermEvent (m : Mach) (part inst step t : Nat) : Mach :=
  notice (count (finc m aonBase R.PWR_TSTAT_CHANGES) aonBase 0x04) 0x0C inst (part + step * 2 ^ 2 + t * 2 ^ 8)

/-- Step of a tile in PWR_TSTAT. -/
def tileStepOf (m : Mach) (t : Nat) : Nat := bitsOf (fget m aonBase R.PWR_TSTAT_TILE) (2 * t) 2
def tileStepPut (m : Mach) (t v : Nat) : Mach :=
  fset m aonBase R.PWR_TSTAT_TILE (setBits (fget m aonBase R.PWR_TSTAT_TILE) (2 * t) 2 v)

/-- A part that a sample finds at its trip temperature, for the second sample running: parts are numbered side, 2 + tile, 6 + stack. -/
def tripNow (m : Mach) (part t trip : Nat) : Bool := trip ≤ t && m.pwr.hot.contains part

/-- A side's thermal step at a sample. -/
def thermSide (sd : Nat) (m : Mach) : Mach :=
  let t := hottest m (24 * sd) 24
  let cur := sideStepOf m sd
  if cur == 7 then m
  else if tripNow m sd t 115 then
    failLater (thermEvent (err (sideStepPut m sd 7) (errOf 2 0 0x10 (32 * sd))) 0 sd 7 t) sd 2
  else
    let n := thermStep [95, 100, 105] cur t
    if n == cur then m else thermEvent (sideStepPut m sd n) 0 sd n t

/-- A stack's thermal step at a sample (R450). -/
def thermStack (k : Nat) (m : Mach) : Mach :=
  let t := hottest m (64 + 2 * k) 2
  let cur := stackStepOf m k
  if cur == 3 then m
  else if tripNow m (6 + k) t 105 then
    failLater (thermEvent (err (stackStepPut m k 3) (errOf 2 0 0x11 k)) 2 k 7 t) (k / 4) 2
  else
    let n := thermStep [95] cur t
    if n == cur then m else thermEvent (stackStepPut m k n) 2 k n t

/-- A tile's thermal step at a sample: after a trip all eight ports behave as Disabled until the tile is below 100 °C. -/
def thermTile (i : Nat) (m : Mach) : Mach :=
  let t := hottest m (48 + 4 * i) 4
  let cur := tileStepOf m i
  let ports := (List.range 8).map (· + 8 * i)
  if cur == 3 then
    if 100 ≤ t then m
    else
      let m := thermEvent (tileStepPut { m with pwr := { m.pwr with tileTrip := m.pwr.tileTrip.filter fun x => x != i } } i 0) 1 i 0 t
      ports.foldl (fun m p => if fon m (ptBase p) R.PT_LCTL_DIS then m else portEnable m p) m
  else if tripNow m (2 + i) t 120 then
    let m := thermEvent (err (tileStepPut m i 3) (errOf 1 0 0x03 (8 * i))) 1 i 7 t
    let m := { m with pwr := { m.pwr with tileTrip := m.pwr.tileTrip ++ [i] } }
    ports.foldl (fun m p => if fon m (ptBase p) R.PT_LCTL_DIS then m else portDown m p) m
  else
    let n := thermStep [100] cur t
    if n == cur then m else thermEvent (tileStepPut m i n) 1 i n t

/-- THERMAL_SAMPLE (R450, R451, R464): the sensors are read, and the steps of sides, tiles and stacks move. -/
def doThermalSample (x : Sample) (m : Mach) : Mach :=
  let at_ (i : Nat) : Nat := ((x.temps[i]?).map fun b => b.toNat).getD 0
  let m := forN 10 (fun i m => fset m (8 * i) R.PWR_TEMP_TEMPS (((List.range 8).map fun j => at_ (8 * i + j) * 2 ^ (8 * j)).sum)) m
  let m := fset (fset m 0 R.PWR_FEED_VIN x.vin.1.toNat) 8 R.PWR_FEED_VIN x.vin.2.toNat
  let m := fset (fset m 0 R.PWR_FEED_IIN x.iin.1.toNat) 8 R.PWR_FEED_IIN x.iin.2.toNat
  let m := fset m aonBase R.PWR_INPUT_WATTS x.watts.toNat
  let m := { m with pwr := { m.pwr with volts := x.volts.map fun v => (v.1.toNat, v.2.val), rails := x.rails.map fun r => r.toNat } }
  let m := thermSide 1 (thermSide 0 m)
  let m := forN 4 thermTile m
  let m := forN 8 thermStack m
  let now (part t trip : Nat) : List Nat := if trip ≤ t then [part] else []
  let hot := (List.range 2).flatMap (fun s => now s (hottest m (24 * s) 24) 115) ++
    (List.range 4).flatMap (fun i => now (2 + i) (hottest m (48 + 4 * i) 4) 120) ++
    (List.range 8).flatMap (fun k => now (6 + k) (hottest m (64 + 2 * k) 2) 105)
  { m with pwr := { m.pwr with hot := hot } }

end Sys2Proof.Machine
end

