-- ==== Sys2Proof/Machine/Start.lean ====
section
/-! DEFINITION. Module-level resets and the steps of a module-level start (chapter 16, R456, R457). -/

namespace Sys2Proof.Machine

/-- Everything outside PD0, PD1 and flash is lost: sides, tiles and their registers (Table 16-1). The keeper queue, its results and the
internal queue stand in PD1 and PD0; keeper calls that were running end with SIDE_LOST. -/
def loseDomains (m : Mach) : Mach :=
  let m := clearSide (clearSide m 0) 1
  let m := forN 32 (fun p m => if 2 ≤ roleOf m p && fon m (ptBase p) R.PT_LINK_PERST then perstSet m p false else m) m
  let m := resetRegs m (fun a => inDom .port a || inDom .side a) none
  let kept (b : Nat) : Bool := b == aonBase || b == mgtBase || b == cntBase
  let m := { m with cnts := m.cnts.filter fun c => kept (c.1 / 8) }
  let q := m.ports.queues
  let q := { Queues.reset with words := q.words.filter (fun c => c.1 / 512 == 32), commits := q.commits.filter (fun k => k / 64 == 32)
                               laps := q.laps.filter (fun c => c.1 / 64 == 32), taken := q.taken.filter (fun c => 32 ≤ c.1)
                               results := q.results.filter (fun r => r.1 == 32), iq := q.iq }
  let r := { m.ras with targets := [], track := [], hard := [], ceWin := [], area := [], areaRun := none, injected := [] }
  let m := { m with home := Home.reset, rsv := Rsv.reset, twIn := [], tw := [], twin := Twin.reset, comp := Compose.reset, ras := r }
  let m := { m with ports := { Ports.reset with queues := q }, eng := Engines.reset, loops := Loops.reset, sampleQ := [] }
  let m := { m with done := [], twDone := [], fretDone := [], retireQ := [], fails := [], net := Net.reset, pwr := Pwr.reset }
  let b := { m.boot with timing := false, bad := 0, orderly := false, toRecovery := false, commit := none, lastCommit := none }
  let m := { m with col := { m.col with ring := [], due := [] }, boot := b }
  let m := forN 24 (fun d m => fset (domPut m (d + 2) 0) (8 * (d + 2)) R.PWR_DOM_MV 0) m
  forN 60 (fun s m => if s == 57 then m else gwPut (gwPut m 0 s 2) 1 s 2) m

/-- FAULT# is released or driven. -/
def faultPin (m : Mach) (low : Bool) : Mach :=
  if m.boot.faultLow == low then m else send { m with boot := { m.boot with faultLow := low } } (.fault low)

/-- A module warm reset (R413): PD0 and PD1 keep running. -/
def warmClear (m : Mach) : Mach := faultPin (resetRegs (loseDomains m) (inDom .modwarm) none) false

/-- What survives the loss of PD0 and PD1: flash with its persistent event ring, the start record and AON_RST_CAUSE (Table 16-1, R416). -/
def coldClear (m : Mach) : Mach :=
  let m' := faultPin m false
  let regs := m'.regs.filter fun c => inDom .never (keyAddr c.1)
  let m'' := { Mach.reset with regs := regs, flash := m'.flash, log := { Log.reset with pers := m'.log.pers } }
  marksBegin (fun _ => true) { m'' with outbox := m'.outbox, nextId := m'.nextId, free := m'.free }

/-- The stacks that the trim store retires (ERR_STKRET.RETIRED). -/
def retiredMask (m : Mach) : Nat :=
  m.flash.trim.foldl (fun n t => match t.rec_ with
    | .stack k => setBit n k true
    | _ => n) 0

/-- AON_RST_CAUSE and the event record of a module-level reset (R416). -/
def resetCause (m : Mach) (cause : Nat) (cold : Bool) : Mach :=
  let m := fset (fset m aonBase R.AON_RST_CAUSE_CAUSE cause) aonBase R.AON_RST_CAUSE_COLD (b2n cold)
  let m := fset m aonBase R.AON_RST_CAUSE_TIME (if cold then 0 else m.timeUs / 1000)
  eventRecord m 3 0 1 0 cause []

/-- The lower bounds of Table 16-2 in ten-thousandths, from index 1 up. -/
def cfgBounds : List Nat := [455, 1107, 1503, 1926, 2367, 2824, 3332, 3884, 4466, 5088, 5738, 6392, 7069, 7768, 9060]

/-- Index of a ratio. -/
def cfgIndex (r : Nat) : Nat := (cfgBounds.filter fun b => b ≤ r).length

/-- R418: pairs are taken until one agrees, at most 8; the index applied, whether it is forced, the pairs taken and the last ratio. -/
def cfgMeasure : Nat → List (Nat × Nat) → Nat × Bool × Nat × Nat
  | _, [] => (12, true, 8, 0)
  | n, (a, b) :: ps =>
    if cfgIndex a == cfgIndex b then (cfgIndex a, false, n + 1, b)
    else if n + 1 == 8 || ps.isEmpty then (12, true, n + 1, b)
    else cfgMeasure (n + 1) ps

/-- The boot mode that applies: CFGSEL index[1:0], or RST_CTL.BOOT in a start from Recovery exit (R417, R431). -/
def bootMode (m : Mach) : Nat := m.boot.next.getD (fget m aonBase R.AON_CFGSEL_INDEX % 4)

/-- Enters Recovery mode at a start (R220, R431). -/
def recoveryStart (m : Mach) (cause : Nat) : Mach := setMode (faultPin { m with boot := { m.boot with timing := false } } true) 4 0 cause

/-- R456: a package is valid. -/
def pkgValid (m : Mach) (p : Package) : Bool :=
  p.formatOk && p.sigOk && decide (m.flash.svnFuse ≤ p.svn.toNat) && decide (p.svn.toNat ≤ 64) &&
  match p.key with
  | some k => !bitOf m.flash.revoked k.val
  | none => false

/-- The package of a firmware slot, if it is valid. -/
def slotValid (m : Mach) (s : Nat) : Option Package :=
  ((mget m.flash.fw s).filter fun p => p.whole && pkgValid m p.pkg).map fun p => p.pkg

/-- The valid slots of A and B, higher VERSION first. -/
def slotsAB (m : Mach) : List Nat :=
  match slotValid m 0, slotValid m 1 with
  | some a, some b => if a.version.toNat < b.version.toNat then [1, 0] else [0, 1]
  | some _, none => [0]
  | none, some _ => [1]
  | none, none => []

/-- R457: the valid slots in the order in which a boot mode tries them, and the slot that it skips, if the one it chose is not valid. -/
def slotOrder (m : Mach) (mode : Nat) : List Nat × Option Nat :=
  let ab := slotsAB m
  let fac := if (slotValid m 2).isSome then [2] else []
  match mode with
  | 1 => (fac ++ ab, if fac.isEmpty then some 2 else none)
  | 2 => (ab.reverse ++ fac, match ab with
    | [a] => some (1 - a)
    | [] => some 0
    | _ => none)
  | _ => (ab ++ fac, if ab.isEmpty then some 0 else none)

/-- The Ditchrider firmware of slot `s` runs (MGT_STATUS, MGT_SEC). -/
def runFw (m : Mach) (s : Nat) (p : Package) : Mach :=
  let m := fset (fset (fset m mgtBase R.MGT_STATUS_STATE 1) mgtBase R.MGT_STATUS_SLOT s) mgtBase R.MGT_STATUS_SVN p.svn.toNat
  let m := fset (fset m mgtBase R.MGT_STATUS_VERSION p.version.toNat) mgtBase R.MGT_SEC_KEY ((p.key.map fun k => k.val).getD 0)
  fset m mgtBase R.MGT_SEC_FACTSVN (((slotValid m 2).map fun f => f.svn.toNat).getD 0)

/-- Restarts the core from the first valid slot of a list; the recovery loader runs when there is none (R457, R458). `skip`: a slot that was
chosen and is not valid, named in a KIND 0x05 record. -/
def bootFrom (m : Mach) (ss : List Nat) (skip : Option Nat) : Mach :=
  let m := match ss.head? with
    | some s => match slotValid m s with
      | some p => runFw m s p
      | none => m
    | none => faultPin (fset m mgtBase R.MGT_STATUS_STATE 4) true
  match skip with
  | some k => if ss.isEmpty then m else eventRecord m 5 0 0 0 k []
  | none => m

/-- Port roles of profile `prof` (Table 14-1): 1 HOST, 2 MEM, 3 IO. -/
def roleIn (m : Mach) (prof p : Nat) : Nat :=
  match prof with
  | 0 => if p < 16 then 1 else 2
  | 1 => if p < 24 then 1 else 2
  | 2 => if p < 8 then 1 else if 16 ≤ p && p < 24 then 3 else 2
  | _ => fget m (ptBase p) R.PT_ROLE_CFG

/-- AON_SETIMG mirrors the settings slots (R423). -/
def setimgPut (m : Mach) : Mach :=
  forN 2 (fun s m =>
    let b := 8 * s
    let v := imageAt m s
    let m := fset (fset m b R.AON_SETIMG_SEQ ((v.map fun i => i.seq).getD 0)) b R.AON_SETIMG_VALID (b2n v.isSome)
    fset m b R.AON_SETIMG_SIZE ((v.map fun i => (i.size + 65535) / 65536).getD 0)) m

/-- R424: the settings slot that a boot mode loads. -/
def settingsSlot (m : Mach) (mode : Nat) : Option Nat :=
  match imageAt m 0, imageAt m 1 with
  | some a, some b => if (a.seq < b.seq) == (mode == 3) then some 1 else some 0
  | some _, none => some 0
  | none, some _ => some 1
  | none, none => none

/-- Steps 5 to 8 of Table 16-4: trims, power, self-test and stack training. -/
def startHardware (m : Mach) (env : StartEnv) : Mach :=
  let m := fset m aonBase R.AON_LOAD_TRIM 1
  let m := fset m aonBase R.ERR_STKRET_RETIRED (retiredMask m)
  let learned (k : Nat) : Bool := m.flash.trim.any fun t => match t.rec_ with
    | .stackSettings j _ => j == k && fget m aonBase R.AON_LOAD_BOOT != 1
    | _ => false
  let full := (List.range 8).filter fun k => !stackRetired m k && !learned k
  let m := { m with ras := { m.ras with pend := m.ras.pend ++ full.map fun k => .stackSettings k (drawn m) } }
  let m := forN 4 (fun t m => domOn m (t + 2)) (draw m)
  let m := fset (fset m aonBase R.ERR_BIST_DONE 1) aonBase R.ERR_BIST_AON_OK (b2n env.aonOk)
  let m := fset (fset m aonBase R.ERR_BIST_SIDE_OK env.sideOk.toNat) aonBase R.ERR_BIST_STK_OK env.stkOk.toNat
  let m := fset m aonBase R.ERR_BIST_PORT_OK env.portOk.toNat
  let pass := env.aonOk && env.sideOk == 3 && env.portOk == BitVec.allOnes 32
  let ff := env.firstFail
  let m :=
    if pass then m
    else
      let m := fset (fset m aonBase R.ERR_BISTFAIL_STRUCT ff.1.toNat) aonBase R.ERR_BISTFAIL_BTYPE ff.2.1.toNat
      let m := fset (fset m aonBase R.ERR_BISTFAIL_INST ff.2.2.1.toNat) aonBase R.ERR_BISTFAIL_PATTERN ff.2.2.2.toNat
      err m { errOf 1 ff.1.toNat ff.2.1.toNat ff.2.2.1.toNat with found := 5 }
  let ok (sd : Nat) : Bool :=
    bitOf env.sideOk.toNat sd && (List.range 4).all fun i => bitOf env.stkOk.toNat (4 * sd + i) && !stackRetired m (4 * sd + i)
  { m with boot := { m.boot with bad := b2n (!ok 0) + 2 * b2n (!ok 1) } }

/-- Steps 9 and 10: settings slot, RS fields, region table, view extents, placement copies. `cold`: registers of reset domain cold have been
reset too. -/
def startLoad (m : Mach) (cold : Bool) : Mach × Option Image :=
  let mode := fget m aonBase R.AON_LOAD_BOOT
  let recovery := opMode m == 4
  let slot := if recovery || mode == 1 then none else settingsSlot m mode
  let img := slot.bind (imageAt m)
  let m := fset m aonBase R.AON_LOAD_SRC (if recovery || mode == 1 then 3 else slot.getD 2)
  let m := fset (setimgPut m) aonBase R.AON_LOAD_SEQ ((img.map fun i => i.seq).getD 0)
  let m := if fget m aonBase R.AON_LOAD_SRC == 2 then err m (errOf 1 0 1 0) else m
  let m := match img with
    | none => m
    | some i =>
      let put (m : Mach) (c : Nat × Nat) : Mach := { m with regs := mput m.regs c.1 c.2 }
      let due (k : Nat) : Bool := match domAt (keyAddr k) with
        | some (d, _) => d == .modwarm || d == .port || (cold && d == .cold)
        | none => false
      let m := (i.rs.filter fun c => due c.1).foldl put m
      let m := if cold then i.vext.foldl put m else m
      let both := i.plc.foldl (fun p c => mput (mput p c.1 c.2) (2 ^ 27 + c.1) c.2) []
      { m with comp := { m.comp with regions := i.regions, plc := both } }
  (fset m aonBase R.AON_LOAD_COMMON 1, img)

/-- The routing keys are drawn (R224). -/
def drawRouting (m : Mach) : Mach :=
  let ks := drawn m % 2 ^ 41
  let ds := (List.range 5).map fun i => drawn { m with free := m.free + 1 + i } % 2 ^ 21
  { m with free := m.free + 6, comp := { m.comp with ks := ks, kr := ds } }

/-- Step 12, first configuration: port roles are applied, PERST# is pulsed on MEM and IO ports, HOST ports train when they may. A port whose
checkers failed is Off, and every port in a Recovery start. -/
def firstConfig (m : Mach) (env : StartEnv) (cold : Bool) : Mach :=
  let prof := fget m aonBase R.AON_CFGSEL_INDEX / 4
  forN 32 (fun p m =>
    let b := ptBase p
    let role := if opMode m == 4 || !bitOf env.portOk.toNat p then 0 else roleIn m prof p
    let m := if !cold && role != roleOf m p then roleRegsReset m p else m
    let m := fset (fset m b R.PT_ROLE_ROLE role) b R.PT_ROLE_SRC prof
    let m := fset m b R.PT_LINK_PRESENT (b2n (bitOf env.present.toNat p))
    let m := if role == 1 then fset m b R.PT_LINK_PERST (b2n (bitOf env.perst.toNat p)) else m
    let m := if role == 2 then fset m b R.PT_MEMCTL_STATE 1 else m
    if role == 0 then m else if fon m b R.PT_LCTL_DIS then portDown m p else portEnable m p) m

/-- Steps 5 to 12 of a module-level start. -/
def startBody (m : Mach) (env : StartEnv) (cold : Bool) : Mach :=
  let m := startHardware m env
  let (m, img) := startLoad m cold
  let m := drawRouting m
  let good (sd : Nat) : Bool := !bitOf m.boot.bad sd
  let m := (([0, 1].filter good).foldl (fun m sd => startSide m sd img)) m
  let m := if good 0 && good 1 then fset (fset m (brgBase 0) R.BRG_STATUS_UP 1) (brgBase 1) R.BRG_STATUS_UP 1 else m
  let m := if good 0 || good 1 then fset m aonBase R.AON_LOAD_DONE 1 else m
  let trim := if good 0 || good 1 then m.flash.trim.map fun t => { t with t0 := true, t1 := true } else m.flash.trim
  let m := { m with flash := { m.flash with trim := trim } }
  if good 0 || good 1 then firstConfig m env cold else m

/-- R430, R431: the start record decides between a Recovery start and a start that counts as failed until it is Running. -/
def startRecord (m : Mach) : Mach :=
  let c := fget m aonBase R.AON_FS_COUNT_COUNT
  if bootMode m == 0 then recoveryStart m 5
  else if 3 ≤ c then recoveryStart m 4
  else fset m aonBase R.AON_FS_COUNT_COUNT (c + 1)

/-- Steps 1 to 4, and the steps that follow once firmware runs; with the recovery loader in its place the start is suspended and its timer
stands (R458). -/
def moduleStart (m : Mach) (env : StartEnv) (cause : Nat) (cold : Bool) : Mach :=
  let m := resetCause { m with boot := { m.boot with timing := true, power := true, held := false, holdUp := false } } cause cold
  let m := if cold then domOn (domOn m 0) 1 else m
  let osc (i : Fld) (e : Bool) : Bool := if cold then e else fon m aonBase i
  let ok0 := osc R.CLK_OSC_OK0 env.osc0
  let m := fset (fset m aonBase R.CLK_OSC_OK0 (b2n ok0)) aonBase R.CLK_OSC_OK1 (b2n (osc R.CLK_OSC_OK1 env.osc1))
  let m := fset m aonBase R.CLK_OSC_SEL (b2n (!ok0))
  let m :=
    if !cold then m
    else
      let m := fset (fset m aonBase R.PWR_INPUT_HOLDUP (min 255 env.holdUp)) aonBase R.PWR_INPUT_HOLDLOW (b2n (decide (env.holdUp < 20)))
      if env.holdUp < 20 then err m (errOf 1 0 1 0) else m
  let (idx, forced, tries, last) := cfgMeasure 0 env.cfgsel
  let m := fset (fset m aonBase R.AON_CFGSEL_CODE (min 1023 (last * 1023 / 10000))) aonBase R.AON_CFGSEL_INDEX idx
  let m := fset (fset m aonBase R.AON_CFGSEL_FORCED (b2n forced)) aonBase R.AON_CFGSEL_TRIES tries
  let m := startRecord m
  let m := fset { m with boot := { m.boot with next := none } } aonBase R.AON_LOAD_BOOT (bootMode m)
  let m :=
    if cold then
      let o := slotOrder m (if opMode m == 4 then 3 else bootMode m)
      bootFrom m o.1 o.2
    else m
  if fget m mgtBase R.MGT_STATUS_STATE == 4 then { m with boot := { m.boot with timing := false } } else startBody m env cold

/-- A start that a reset or the loss of both feeds ends before it is Running or in Recovery mode has failed (AON_FS_COUNT.TOTAL, R430). -/
def startFailed (m : Mach) : Mach :=
  if m.boot.power && !m.boot.held && !m.boot.holdUp && opMode m == 0 then fsat m aonBase R.AON_FS_COUNT_TOTAL else m

/-- A module warm reset and the start that follows (R413, R420). -/
def warmReset (m : Mach) (env : StartEnv) (cause : Nat) : Mach := moduleStart (warmClear (startFailed m)) env cause false

/-- A cold reset: a new cold start of the service life, and BOOT in every record (Table 18-3). Feeds that are present stay so. -/
def coldReset (m : Mach) : Mach :=
  let f0 := fon m 0 R.PWR_FEED_PRESENT
  let f1 := fon m 8 R.PWR_FEED_PRESENT
  let n := m.flash.boots + 1
  let m := coldClear { startFailed m with flash := { m.flash with boots := n } }
  let m := fset (fset m 0 R.PWR_FEED_PRESENT (b2n f0)) 8 R.PWR_FEED_PRESENT (b2n f1)
  fset (fset m mgtBase R.MGT_LOGSTAT_BOOT n) aonBase R.ERR_STKRET_RETIRED (retiredMask m)

/-- A side starts alone from the committed image, beside a serving side whose placement copy it takes (R422), with the ports that were lost
meanwhile still to be swept there. -/
def sideStart (m : Mach) (sd : Nat) : Mach := copyPlc (startSide m sd (curImage m)) (1 - sd) sd

end Sys2Proof.Machine
end

