-- ==== Sys2Proof/Machine/ResetCmd.lean ====
section
/-! DEFINITION. Resets, starts, settings commits and feeds (chapters 16 and 17, R219, R415). -/

namespace Sys2Proof.Machine

/-- POWER_ON (R413): the first feed becomes present with none before. -/
def doPowerOn (feed : Fin 2) (env : StartEnv) (m : Mach) : Mach :=
  if m.boot.power then m else moduleStart (coldReset (fset m (8 * feed.val) R.PWR_FEED_PRESENT 1)) env 1 true

/-- MRST_RELEASE (R414): MRST# rises after a low pulse of `us` µs, or ends the cold reset that it held. -/
def doMrstRelease (us : Nat) (env : StartEnv) (m : Mach) : Mach :=
  if m.boot.held then moduleStart m env 3 true
  else if m.boot.power && !m.boot.holdUp && 10 ≤ us && us < 5000000 then warmReset m env 2 else m

/-- MRST_HELD (R414): held low for 5 s, a cold reset begins and lasts until MRST# rises. -/
def doMrstHeld (m : Mach) : Mach :=
  if !m.boot.power || m.boot.held || m.boot.holdUp then m
  else
    let m := coldReset m
    { m with boot := { m.boot with power := true, held := true } }

/-- ORDERLY_MODULE_WARM_RESET (R415): RST_CTL.REQ 1; where no side serves, or Spillway is on, no dirty line remains and the reset follows at
once. While a stop or a reintegration runs it is ignored, as REQ 1 of AON_MODECTL is. -/
def doOrderlyModuleWarmReset (env : StartEnv) (m : Mach) : Mach :=
  if !m.boot.power || fon m aonBase R.RST_CTL_BUSY then m
  else if opMode m == 1 || opMode m == 2 then
    if m.twin.returning.isSome || m.twin.stopping.isSome then m
    else
      let m := fset { m with boot := { m.boot with orderly := true } } aonBase R.RST_CTL_BUSY 1
      if m.twin.entering then m else spillBegin m
  else warmReset m env 4

/-- IMMEDIATE_MODULE_WARM_RESET (R415): RST_CTL.REQ 2. -/
def doImmediateModuleWarmReset (env : StartEnv) (m : Mach) : Mach :=
  if !m.boot.power || fon m aonBase R.RST_CTL_BUSY then m else warmReset m env 5

/-- COLD_RESET_REQUEST (R413): RST_CTL.REQ 3. -/
def doColdResetRequest (env : StartEnv) (m : Mach) : Mach :=
  if !m.boot.power || fon m aonBase R.RST_CTL_BUSY then m else moduleStart (coldReset m) env 6 true

/-- RECOVERY_EXIT (R431): RST_CTL.REQ 4; outside Recovery mode it is refused with CAUSE 2. -/
def doRecoveryExit (env : StartEnv) (m : Mach) : Mach :=
  if !m.boot.power || fon m aonBase R.RST_CTL_BUSY then m
  else if opMode m != 4 then reject m aonBase 2 0x130
  else
    let m := fset m aonBase R.AON_FS_COUNT_COUNT 0
    warmReset { m with boot := { m.boot with next := some (fget m aonBase R.RST_CTL_BOOT) } } env 10

/-- START_TIMEOUT (R429): a start neither Running nor in Recovery mode within 5 s. -/
def doStartTimeout (env : StartEnv) (m : Mach) : Mach :=
  if m.boot.timing && opMode m == 0 && !m.boot.holdUp then warmReset m env 8 else m

/-- Does the placement copy of side `sd` name a MEM port that is still Waiting (R432)? -/
def waitsMem (m : Mach) (sd : Nat) : Bool :=
  m.comp.plc.any fun c => c.1 / 2 ^ 27 == sd && plcV c.2 &&
    (memState m (plcLoc1 c.2).1 == 1 || (plcM2 c.2 && memState m (plcLoc2 c.2).1 == 1))

/-- R459: fuses are blown up to the running package's SVN, never beyond the factory package's. -/
def svnBlow (m : Mach) : Mach :=
  match fwOf m, slotValid m 2 with
  | some p, some f => { m with flash := { m.flash with svnFuse := max m.flash.svnFuse (min p.svn.toNat f.svn.toNat) } }
  | _, _ => m

/-- START_RUNNING (R420): every MEM port that a valid placement location names is Up or Lost. -/
def doStartRunning (m : Mach) : Mach :=
  let up := (if bitOf m.boot.bad 0 then 0 else 1) + (if bitOf m.boot.bad 1 then 0 else 2)
  if !(opMode m == 0 && m.boot.timing && fon m aonBase R.AON_LOAD_DONE) || up == 0 || waitsMem m (if up == 2 then 1 else 0) then m
  else
    let m := setMode m (if up == 3 then 1 else 2) up 0
    let m := if up == 3 then fset (fset m (twnBase 0) R.TWN_LOG_STATE 1) (twnBase 1) R.TWN_LOG_STATE 1 else m
    let m := fset { m with boot := { m.boot with timing := false } } aonBase R.AON_FS_COUNT_COUNT 0
    if fon m mgtBase R.MGT_SEC_SVNAUTO then svnBlow m else m

/-- The bridge is opened at reintegration: both ends come up, and the routes of both sides change (R348). -/
def bridgeOpen (m : Mach) : Mach :=
  let up (m : Mach) (s : Nat) : Mach := count (finc (fset m (brgBase s) R.BRG_STATUS_UP 1) (nocBase s) R.NOC_STATUS_RECONF) (nocBase s) 0x0A
  up (up m 0) 1

/-- SIDE_START (R420 to R422, Table 8-12 steps 1 and 2): the returning side starts; `ok`: its checkers and stacks pass. Ports that are lost are
still to be swept in its directory. -/
def doSideStart (sd : Fin 2) (ok : Bool) (stk : BitVec 4) (m : Mach) : Mach :=
  let t := 1 - sd.val
  let b := twnBase t
  if m.twin.returning != some sd.val || fget m b R.TWN_REINT_STEP != 1 then m
  else
    let bist := fset m aonBase R.ERR_BIST_SIDE_OK (setBit (fget m aonBase R.ERR_BIST_SIDE_OK) sd ok)
    let m := fset bist aonBase R.ERR_BIST_STK_OK (setBits (fget bist aonBase R.ERR_BIST_STK_OK) (4 * sd.val) 4 stk.toNat)
    if !ok || stk != 15 then
      let m := { m with twin := { m.twin with returning := none } }
      modeEnd (fset (fset m aonBase R.AON_OPMODE_REINTEG 0) b R.TWN_REINT_STEP 0) 3
    else
      let m := sideStart m sd
      let m := forN 32 (fun i m => fset m (hsBase (32 * sd.val + i)) R.DIR_LOST_MASK (fget m (hsBase (32 * t)) R.DIR_LOST_MASK)) m
      fset (bridgeOpen m) b R.TWN_REINT_STEP 2

/-- Is a register key part of a view extent? -/
def vextKey (k : Nat) : Bool :=
  let a := keyAddr k
  decide (0x100000 ≤ a) && decide (a < 0x180000) && decide (0x800 ≤ a % 0x4000) && decide (a % 0x4000 < 0xC00)

/-- The program of the active bank of a side: the shipped image it was loaded from, and the words that differ, those of pages served from
spare pages in full. -/
def activeProg (m : Mach) (sd : Nat) : Nat × List (Nat × Nat) :=
  let b := fget m (seBase sd) R.SE_PSCTL_ACTIVE
  let k := 2 * sd + b
  let own := (m.eng.prog.filter fun c => c.1 < 2 ^ 20 && c.1 / 2 ^ 18 == k && (spareOf m sd b (c.1 % 2 ^ 18)).isNone).map fun c =>
    (c.1 % 2 ^ 18, c.2)
  let page (i : Nat) (ws : List (Nat × Nat)) : List (Nat × Nat) :=
    let a := 0x80 * sd + 0x40 * b + 8 * i
    if !fon m a R.ERR_PSMAP_V then ws
    else forN 1024 (fun w ws => mput ws (fget m a R.ERR_PSMAP_PAGE * 1024 + w) (progWord m sd b (fget m a R.ERR_PSMAP_PAGE * 1024 + w))) ws
  (sget 0 m.eng.progBase k, forN 8 page own)

/-- The live settings (Table 16-5), of length `size`, taken on side `sd`. -/
def snapshot (m : Mach) (sd size : Nat) : Image :=
  let seqs := [imageAt m 0, imageAt m 1].map fun i => (i.map fun i => i.seq).getD 0
  let prog := activeProg m sd
  { seq := seqs.foldl max 0 + 1, size := size, format := ((fwOf m).map fun p => p.settings).getD 0, valid := true
    rs := m.regs.filter (fun c => rsKey c.1), regions := m.comp.regions, vext := m.regs.filter (fun c => vextKey c.1)
    plc := (m.comp.plc.filter fun c => c.1 / 2 ^ 27 == sd && plcV c.2).map (fun c => (c.1 % 2 ^ 27, c.2))
    progBase := prog.1, prog := prog.2, gen := fget m (seBase sd) R.SE_PSCTL_ACTGEN }

/-- The slot that a commit writes: the one that does not hold the newer valid image (R425). -/
def commitSlot (m : Mach) : Nat := match settingsSlot m 3 with
  | some s => 1 - s
  | none => 0

/-- SCOMMIT (R306, R425): `size` is the length in bytes that the layout of Table 16-5 gives the live settings. Executed with PHASE 1 in a call that has
begun no commit, it resumes: it waits for the commit that runs and ends as the last one ended, and where none has been begun since the module's start
that PHASE cannot have been reached (R292; DEDUCED, entry 110). -/
def doScommit (e : Fin 32) (rd : Fin 32) (size : BitVec 48) : Mach → Mach :=
  issueIf e (fun w => w == encX 0x21 rd 0 0 0) (keeperOnly e (kindP e rd (fun c p => c == 0 && p ≤ 1) (fun _ ph m =>
    let x := engOf m e
    match (if ph == 1 then x.commit else none) with
    | some (st, seq) => pFin (engSet m e { x with commit := none }) e rd (if st == 0 then seq else 0) 1 st
    | none =>
      if m.boot.commit.isSome then m
      else if ph == 1 then match m.boot.lastCommit with
        | some (st, seq) => pFin m e rd (if st == 0 then seq else 0) 1 st
        | none => pFin m e rd 0 1 0x7F
      else if 32 * 2 ^ 20 < size.toNat then pFin m e rd 0 0 2
      else
        let s := commitSlot m
        let m := { m with boot := { m.boot with commit := some ⟨s, snapshot m (engSide e) size.toNat, e⟩ }
                          flash := { m.flash with slots := mdel m.flash.slots s } }
        let m := fset (setimgPut m) (8 * s) R.AON_SETIMG_WRITING 1
        pSave m e rd 0 1)))

/-- SETTINGS_COMMIT_COMPLETE (R425): the slot has been written and read back; `ok`: the readback is valid. -/
def doSettingsCommitComplete (ok : Bool) (m : Mach) : Mach :=
  match m.boot.commit with
  | none => m
  | some c =>
    let m := count { m with boot := { m.boot with commit := none, lastCommit := some (b2n (!ok), c.img.seq) } } mgtBase 3
    let m := if ok then { m with flash := { m.flash with slots := mput m.flash.slots c.slot c.img } } else m
    let m := fset (setimgPut m) (8 * c.slot) R.AON_SETIMG_WRITING 0
    let m := if ok then fset m mgtBase R.MGT_UPD_PROGPEND (b2n (ok && m.mgmt.staged.isSome)) else m
    let x := engOf m c.eng
    if x.p == some (progW 0 1) then engSet m c.eng { x with commit := some (b2n (!ok), c.img.seq) } else m

/-- CLR (R430): AON_FS_COUNT.CLR from the Ditchrider. -/
def doClr (m : Mach) : Mach := fset m aonBase R.AON_FS_COUNT_COUNT 0

/-- FEED_PRESENT (R440, R442): a feed is present again; during hold-up a module warm reset follows. -/
def doFeedPresent (feed : Fin 2) (env : StartEnv) (m : Mach) : Mach :=
  if !m.boot.power then m
  else
    let m := fset m (8 * feed.val) R.PWR_FEED_PRESENT 1
    if m.boot.holdUp then warmReset m env 9 else m

/-- FEED_LOST (R441, R442): with the other feed present only the feed's flag and count change; otherwise every domain but PD0 and PD1 is off
and the pending event records are written. -/
def doFeedLost (feed : Fin 2) (m : Mach) : Mach :=
  let b := 8 * feed.val
  if !fon m b R.PWR_FEED_PRESENT then m
  else
    let m := fsat (fset (fset m b R.PWR_FEED_PRESENT 0) b R.PWR_FEED_LOST 1) b R.PWR_FEED_LOSSES
    let m := eventRecord m 2 0 1 feed 0 []
    if fon m 0 R.PWR_FEED_PRESENT || fon m 8 R.PWR_FEED_PRESENT then m
    else
      let m := logFlush (loseDomains (startFailed m))
      { m with boot := { m.boot with holdUp := true } }

/-- HOLD_UP_END (R442): PD0 and PD1 lose power. -/
def doHoldUpEnd (m : Mach) : Mach := if m.boot.holdUp then coldClear m else m

/-- SPILLWAY_ENTRY_COMPLETE (R219, R220, R415): the gauges are 0 and the logs off; what asked for the entry follows. -/
def doSpillwayEntryComplete (env : StartEnv) (m : Mach) : Mach :=
  if !spillDone m then m
  else
    let m := modeEnd' (spillEnter m)
    if m.boot.orderly then warmReset m env 4 else if m.boot.toRecovery then enterRecovery m 2 else m
where
  /-- REQ 1 ends; REQ 6 goes on to Recovery mode. -/
  modeEnd' (m : Mach) : Mach := if m.boot.toRecovery then m else modeEnd m 0

end Sys2Proof.Machine
end

