-- ==== Sys2Proof/Machine/ErrCmd.lean ====
section
/-! DEFINITION. Twin searches and refreshes, lost-set sweeps, scrubbing, retirement, the trim store and error injection (chapter 15,
R409, R427). -/

namespace Sys2Proof.Machine

/-- The newest dirty image of a line in the places that R197 lists. -/
def newestDirty (m : Mach) (h pln : Nat) : Option Img :=
  let sd := h / 32
  let buf := (mshrOf m h pln).bind fun r => if r.dirty then r.buf else none
  let way := match hgFind m h pln with
    | some (_, x) => if x.d then heldImg m h pln else none
    | none => none
  let vb := ((vbOf m h pln).filter fun e => e.dirty).map fun e => e.img
  let off := (m.rsv.offers.find? fun o : Offer => o.pln == pln && o.dirty).map fun o : Offer => o.img
  let inq := (m.twIn.reverse.find? fun e : TwIn => e.pln == pln && e.mask == fullMask).map fun e : TwIn => e.img
  let tw := (twNewest m sd pln).bind fun e => if e.mask == fullMask then some e.img else none
  let slot := match findSlot m sd (lineL pln) with
    | some (_, s) => if s.st == .clean then none else some (⟨s.data, s.st == .poisoned⟩ : Img)
    | none => none
  [buf, way, vb, off, inq, tw, slot].findSome? id

/-- Lines of home side `sd` that the twin side holds a copy of: staged ones first. -/
def twinLines (m : Mach) (sd : Nat) : List Nat :=
  let st := (m.twin.staged.filter fun s => s.sd == 1 - sd).map fun s => s.pln
  let rs := (m.twin.recs.filter fun c => c.1 / (20132608 * 10) == 1 - sd).map fun c => c.2.pln
  st ++ rs.filter fun p => !st.contains p

/-- Puts a twin image that a search found back where its copy was lost, as a dirty line (R394). -/
def reinstall (m : Mach) (t : Target) (pln : Nat) (img : Img) : Mach :=
  let l := lineL pln
  match t with
  | .hgSet h set =>
    match (List.range 16).find? fun w => (mget m.home.hg (hgKey h set w)).isNone && wayEligible m h set w with
    | some w => { m with home := { m.home with hg := mput m.home.hg (hgKey h set w) ⟨hgTag l, true, false, img⟩ } }
    | none => twQueue m (h / 32) pln img fullMask [] .other
  | .slot sd i =>
    let (j, tag, ep) := installAt m sd l
    if j == i && usable m sd i && (slotAt m sd i).isNone then setSlot m sd i (some ⟨tag, stateOf true img.poison, ep, img.data⟩)
    else twQueue m sd pln img fullMask [] .other

/-- TWIN_SEARCH_COMPLETE (R394): the scan has covered every bucket since the oldest target of home side `sd` joined. -/
def doTwinSearchComplete (sd : Fin 2) (m : Mach) : Mach :=
  let mine (t : Target) : Bool := match t with
    | .hgSet h _ => h / 32 == sd.val
    | .slot s _ => s == sd.val
  match m.ras.targets.find? mine with
  | none => m
  | some t =>
    let m := (twinLines m sd).foldl (fun m pln =>
      if !inTarget m pln t || dirtyAtHome m (homeSlice m pln) pln || (m.tw.any fun e => e.pln == pln) then m
      else match repairImg m pln with
        | some img => reinstall m t pln img
        | none => m) m
    { m with ras := { m.ras with targets := dropFirst mine m.ras.targets } }

/-- Every line that home side `sd` may hold dirty (R197). -/
def dirtyLines (m : Mach) (sd : Nat) : List Nat :=
  let hg := (m.home.hg.filter fun c => c.1 / 49152 / 32 == sd && c.2.d).map fun c => plnOf m sd (hgLineOf (c.1 / 16 % 3072) c.2.tag)
  let vb := (m.home.vb.filter fun e => e.h / 32 == sd && e.dirty).map fun e => e.pln
  let ms := (m.home.mshrs.filter fun r => r.h / 32 == sd && r.dirty).map fun r => r.pln
  let tw := (m.tw.filter fun e => e.sd == sd && e.st != .issued).map fun e => e.pln
  let tq := (m.twIn.filter fun e => e.sd == sd).map fun e => e.pln
  let of := (m.rsv.offers.filter fun o => o.sd == sd && o.dirty).map fun o => o.pln
  let sl := (m.rsv.slots.filter fun c => c.1 / 2 ^ 31 == sd && c.2.st != .clean).map fun c => plnOf m sd (slotLine m sd (c.1 % 2 ^ 31) c.2)
  (hg ++ vb ++ ms ++ tw ++ tq ++ of ++ sl).eraseDups

/-- TWIN_REFRESH (R395): home side `sd`, asked by its twin side, sends a twin write for every line that it holds dirty. -/
def doTwinRefresh (sd : Fin 2) (m : Mach) : Mach :=
  if !m.twin.refresh.contains sd.val || m.twin.refresh.contains (sd.val + 2) then m
  else
    let m := (dirtyLines m sd).foldl (fun m pln =>
      let h := homeSlice m pln
      match newestDirty m h pln with
      | some img => if twinned m pln then streamPut m h (.twinWrite pln img false .none) else m
      | none => m) m
    { m with twin := { m.twin with refresh := m.twin.refresh.filter (fun x => x != sd.val) ++ [sd.val + 2] } }

/-- TWIN_REFRESH_COMPLETE (R395): the refresh's twin writes are all acknowledged; the gauge takes the twin side's count. -/
def doTwinRefreshComplete (sd : Fin 2) (m : Mach) : Mach :=
  let busy := (m.twin.stream.any fun x => x.1 / 32 == sd.val && match x.2 with
      | .twinWrite _ _ _ _ => true
      | .release _ => true
      | _ => false) || (m.twin.acks.any fun a => a.h / 32 == sd.val) || m.twin.relAcks.any fun a => a.1 / 32 == sd.val
  if !m.twin.refresh.contains (sd.val + 2) || busy then m
  else
    let m := { m with twin := { m.twin with refresh := m.twin.refresh.filter fun x => x != sd.val + 2 } }
    forcedCheck (fset m (twnBase sd) R.TWN_GAUGE_LINES (twinLines m sd).length) sd

/-- RETWIN_REQUEST (R397, Table 15-4 rows 15 and 17): the home twins its dirty copy again, or releases the line. -/
def doRetwinRequest (h : Fin 64) (m : Mach) : Mach :=
  match popNote h.val (fun n => match n with
    | .retwin x p => some (x, p)
    | _ => none) m with
  | none => m
  | some (pln, m) =>
    if !twinned m pln then m
    else match newestDirty m h pln with
      | some img => streamPut m h (.twinWrite pln img false .none)
      | none => if (m.tw.any fun e => e.pln == pln) then m else streamPut m h (.release pln)

/-- LOST_SET_SWEEP (R396): a set that no copy gives back is listed; a listed set's next line is swept, one recall slot per line, and waits
while the line has an open transaction or no recall slot is free. -/
def doLostSetSweep (half : Fin 2) (set : BitVec 26) (m : Mach) : Mach :=
  match m.home.lostSets.find? fun s => s.half == half.val && s.set == set.toNat with
  | none =>
    let pln := plnOf m half set.toNat
    if sideUp m (servingSide m pln) && !twinned m pln then lostSetPut m half set.toNat 0 else m
  | some s =>
    if 32768 ≤ s.pos then m
    else
      let pln := plnOf m half (s.pos * 2 ^ 26 + s.set)
      let h := homeSlice m pln
      let a := attrOf m pln
      let ps := (List.range 32).filter fun p => bitOf a.ports p && roleOf m p == 1 && !bitOf (lostMask m h) p
      let upd (x : LostSet) : LostSet := { x with pos := s.pos + 1 }
      let step (m : Mach) : Mach := { m with home := { m.home with lostSets := mapFirst (fun x => x == s) upd m.home.lostSets } }
      if !a.covered || a.priv || ps.isEmpty then step m
      else if lineOpen m h pln || 16 ≤ (m.home.recalls.filter fun r => r.h == h).length then m
      else
        let m := step { m with home := { m.home with recalls := m.home.recalls ++ [⟨h, dirKey half s.set 0, pln, ps, [], pln⟩] } }
        snoopAll m h pln .inv ps

/-- LOST_SET_SWEEP_END (R396): every line has been swept and answered; the slot frees. -/
def doLostSetSweepEnd (half : Fin 2) (set : BitVec 26) (m : Mach) : Mach :=
  let busy := m.home.recalls.any fun r => halfOf m r.pln == half.val && dirSet (lineL r.pln) == set.toNat
  let gone (s : LostSet) : Bool := s.half == half.val && s.set == set.toNat && 32768 ≤ s.pos
  if busy then m else { m with home := { m.home with lostSets := m.home.lostSets.filter fun s => !gone s } }

/-- Side, structure, instance and key of a location, as records and injections name it. The stacks of a side hold the twin log by Table 8-1; where
they hold the directory and the placement table `Layout` says (R99, R143). -/
def locName (m : Mach) : Loc → Nat × Nat × Nat × Nat
  | .slot sd i => (sd, 0x05, ctlOf sd i.toNat, sd * 2 ^ 31 + i.toNat)
  | .dirStore sd s => (sd, 0x06, 4 * sd + dirStack s.toNat, sd * 2 ^ 26 + s.toNat)
  | .mirror sd s => (sd, 0x06, 4 * sd + dirStack s.toNat, (2 + sd) * 2 ^ 26 + s.toNat)
  | .twinRec sd b j => (sd, 0x07, 4 * sd + b % 128 / 32, recKey sd b j)
  | .placement sd p => (sd, 0x09, 4 * sd + plcStack p.toNat, sd * 2 ^ 27 + p.toNat)
  | .hgWord h s w => (h / 32, 0x01, h, hgKey h s w)
  | .hgTag h s w => (h / 32, 0x02, h, hgKey h s w)
  | .dirCache h s w => (h / 32, 0x04, h, (h * 2048 + s) * 4 + w)
  | .staging sd n => (sd, 0x08, sd, (((m.twin.staged.filter fun s => s.sd == sd.val)[n.val]?).map fun s => s.pln).getD 0)
  | .program sd b w => (sd, 0x0D, sd, progKey sd b w.toNat)

/-- What a record says of a location's place: block type and LOC. -/
def locPlace (l : Loc) (word key : Nat) : Nat × Nat := match l with
  | .slot _ i => (0x11, slotLoc i.toNat word)
  | .dirStore _ _ => (0x11, Config.errLoc 0x06 (key * 8 + word) % 2 ^ 33)
  | .mirror _ _ => (0x11, Config.errLoc 0x06 (key * 8 + word) % 2 ^ 33)
  | .twinRec _ b _ => (0x11, b % 128 % 32 + Config.errLoc 0x07 (key * 8 + word) % 2 ^ 28 * 32)
  | .placement _ _ => (0x11, Config.errLoc 0x09 (key * 8 + word) % 2 ^ 33)
  | .hgWord _ s w => (0x10, sramLoc s w word)
  | .hgTag _ s w => (0x10, sramLoc s w 0)
  | .dirCache _ s w => (0x10, sramLoc s w word)
  | .staging _ _ => (0x17, Config.errLoc 0x08 key % 2 ^ 19)
  | .program _ b w => (0x12, progKey 0 b w.toNat)

/-- How many locations of the structure's instance are tracked (R401). -/
def locCap : Loc → Nat
  | .slot _ _ => 64
  | .dirStore _ _ => 64
  | .mirror _ _ => 64
  | .twinRec _ _ _ => 64
  | .placement _ _ => 64
  | .hgWord _ _ _ => 16
  | .dirCache _ _ _ => 16
  | _ => 0

/-- Is the location in a stack? -/
def locStack (l : Loc) : Bool := locCap l == 64

/-- A Headgate word that is uncorrectable (Table 15-4, rows 7 to 9). A Formed entry will overwrite the whole line. -/
def hgWordBad (m : Mach) (h set w found : Nat) : Mach :=
  match mget m.home.hg (hgKey h set w) with
  | none => m
  | some x =>
    let pln := plnOf m (h / 32) (hgLineOf set x.tag)
    let e := { errOf 0 0x01 0x10 h with loc := sramLoc set w 0, addr := pln * 64, found := found }
    if x.img.poison || repairHeld m pln || (wbOf m h pln).isSome then m
    else if !x.d then err { m with home := { m.home with hg := mdel m.home.hg (hgKey h set w) } } { e with repaired := true, action := 7 }
    else if twinned m pln then streamPut m h (.lookup pln (.way h set w))
    else repairPoison m pln (.way h set w)

/-- A stored twin record that is uncorrectable (Table 15-4, rows 15, 16, 18 and 19); `hdr`: its header is not readable. -/
def twinRecBad (m : Mach) (t key : Nat) (e : Err) (hdr : Bool) : Mach :=
  match mget m.twin.recs key with
  | none => m
  | some r =>
    let e := { e with addr := if hdr then 2 ^ 64 - 1 else r.pln * 64 }
    let drop (m : Mach) : Mach := { m with twin := { m.twin with recs := mdel m.twin.recs key } }
    let busy := (m.tw.any fun x => x.pln == r.pln) || (m.twIn.any fun x => x.pln == r.pln) || m.home.mshrs.any fun x => x.pln == r.pln
    if taken m r.pln then
      if m.twin.staged.any fun s => s.pln == r.pln then err (drop m) { e with repaired := true, action := 15 }
      else if hdr then err (drop m) { e with sev := 1, dataloss := true, action := 19 }
      else if busy then m
      else err (twQueue m t r.pln ⟨r.img.data, true⟩ fullMask [.drain t] .other) { e with sev := 1, poisoned := true, action := 18 }
    else if hdr then
      let m := drop m
      let m := if m.twin.refresh.contains (1 - t) then m else { m with twin := { m.twin with refresh := m.twin.refresh ++ [1 - t] } }
      err m { e with repaired := true, action := 16 }
    else
      let m := { m with home := { m.home with notes := m.home.notes ++ [.retwin (homeSlice m r.pln) r.pln] } }
      err m { e with repaired := true, action := 15 }

/-- A staging-buffer entry that is uncorrectable (Table 15-4, row 17); `hdr`: its L is not readable. -/
def stagingBad (m : Mach) (t pln : Nat) (e : Err) (hdr : Bool) : Mach :=
  if !(m.twin.staged.any fun s => s.sd == t && s.pln == pln) then m
  else
    let m :=
      if hdr then
        let gone (s : Staged) : Bool := s.sd == t && s.pln == pln
        let rf := if m.twin.refresh.contains (1 - t) then m.twin.refresh else m.twin.refresh ++ [1 - t]
        { m with twin := { m.twin with staged := m.twin.staged.filter (fun s => !gone s), refresh := rf } }
      else { m with home := { m.home with notes := m.home.notes ++ [.retwin (homeSlice m pln) pln] } }
    err m { e with addr := if hdr then 2 ^ 64 - 1 else pln * 64, action := 17 }

/-- A placement codeword that is uncorrectable (Table 15-4, row 25): the other side's copy, or the committed settings image, gives the entry. -/
def placementBad (m : Mach) (sd plot : Nat) (e : Err) : Mach :=
  let put (v : Nat) : Mach :=
    { m with comp := { m.comp with plc := sset 0 m.comp.plc (sd * 2 ^ 27 + plot) v, plcCache := mdel m.comp.plcCache (sd * 2 ^ 27 + plot) } }
  let e := { e with addr := plot * 2 ^ 21, action := 25 }
  if bothUp m then err (put (plcGet m (1 - sd) plot)) { e with repaired := true }
  else err (put (((curImage m).bind fun i => mget i.plc plot).getD 0)) { e with sev := 1 }

/-- What an uncorrectable location comes to under Table 15-4, whoever finds it. -/
def locBad (m : Mach) (l : Loc) (e : Err) (hdr : Bool) : Mach :=
  match l with
  | .slot sd i => if hdr then slotUnreadable m sd i.toNat e.found else slotBad m sd i.toNat e.found
  | .dirStore sd s =>
    if twinSide m sd then err m { e with repaired := true, action := 20 } else lostSetPut m sd s.toNat e.found
  | .mirror sd s =>
    if twinSide m (1 - sd) then err m { e with repaired := true, action := 21 }
    else if sideUp m (1 - sd) then m else lostSetPut m (1 - sd) s.toNat e.found
  | .twinRec sd b j => twinRecBad m sd (recKey sd b j) e hdr
  | .placement sd p => placementBad m sd p.toNat e
  | .hgWord h s w => hgWordBad m h s w e.found
  | .hgTag h s w =>
    let m := { m with home := { m.home with hg := mdel m.home.hg (hgKey h s w) } }
    searchFor m (h / 32) h (.hgSet h s) { e with sev := 0 } 10 10
  | .dirCache h s w =>
    match mget m.home.dc ((h * 2048 + s) * 4 + w) with
    | none => m
    | some d =>
      if !d.dirty then err m { e with action := 22 }
      else if twinSide m (h / 32) then err m { e with repaired := true, action := 23 }
      else lostSetPut m d.half (d.tag * 2048 + s) e.found
  | .staging sd _ => stagingBad m sd (locName m l).2.2.2 e hdr
  | .program sd b w => progMark m sd b w.toNat

/-- What a checker reports of a location is acted on; `found` is FOUND of Table 15-6. -/
def locRead (m : Mach) (l : Loc) (ck : Check) (found : Nat) : Mach :=
  let (sd, st, inst, key) := locName m l
  let e (w : Nat) : Err := { errOf 0 st (locPlace l w key).1 inst with loc := (locPlace l w key).2, found := found }
  let ck := match l with
    | .slot _ _ => ck.ofSlot
    | _ => ck
  match injected m st inst key ck with
  | .good => m
  | .codeword w => locBad m l (e w.val) false
  | .reserved => locBad m l (e 0) true
  | .corrected w again =>
    if st == 0x02 then m else corrected m sd (e w) (key * 8 + w) (locCap l) again
  | .bad => locBad m l (e 0) false
  | .unreadable => locBad m l (e 0) true

/-- SCRUB_READ (R399): the patrol scrubber of a side reads and checks its next location; `pct` is the progress of the stack pass. -/
def doScrubRead (l : Loc) (ck : Check) (pct : Fin 101) (m : Mach) : Mach :=
  let sd := (locName m l).1
  let b := 32 * sd
  if !sideUp m sd || !fon m b R.ERR_SCRUB_EN then m
  else
    let m := locRead m l ck 1
    if !locStack l then m
    else
      let m := if pct.val == 100 && fget m b R.ERR_SCRSTAT_PCT != 100 then finc m b R.ERR_SCRSTAT_PASSES else m
      fset m b R.ERR_SCRSTAT_PCT pct.val

/-- SCRUB_WINDOW_END (R400): the window's corrected errors of a side move its multiplier. -/
def doScrubWindowEnd (sd : Fin 2) (m : Mach) : Mach :=
  let b := 32 * sd.val
  let n := sget 0 m.ras.ceWin sd.val
  let g := fget m b R.ERR_SCRSTAT_MLOG
  let g := if fget m b R.ERR_SCRUB_CEHI < n then g + 1 else if n < fget m b R.ERR_SCRUB_CELO then g - 1 else g
  let m := fset m b R.ERR_SCRSTAT_MLOG (min g (fget m b R.ERR_SCRUB_MULTMAX))
  fset { m with ras := { m.ras with ceWin := sset 0 m.ras.ceWin sd.val 0 } } b R.ERR_SCRSTAT_CELAST (min n 65535)

/-- Ends an area remap. -/
def areaEnd (m : Mach) (result : Nat) : Mach :=
  fset (fset { m with ras := { m.ras with areaRun := none } } aonBase R.ERR_AREMAP_RESULT result) aonBase R.ERR_AREMAP_BUSY 0

/-- AREA_REMAP (R406): a write of ERR_AREMAP with GO 1. -/
def doAreaRemap (k : Fin 8) (pc : Fin 32) (bank : Fin 16) (row : BitVec 16) (m : Mach) : Mach :=
  let r : Row := ⟨k, pc, bank, row.toNat⟩
  let m := fset (fset m aonBase R.ERR_AREMAP_CTL k) aonBase R.ERR_AREMAP_PC pc
  let m := fset (fset m aonBase R.ERR_AREMAP_BANK bank) aonBase R.ERR_AREMAP_ROW row.toNat
  if fon m aonBase R.ERR_AREMAP_BUSY then m
  else if !sideUp m (k.val / 4) then areaEnd m 5
  else if row.toNat < 32768 then areaEnd m 4
  else if m.ras.area.contains r then areaEnd m 3
  else if 64 ≤ (m.ras.area.filter fun x => x.k == k.val).length then areaEnd m 1
  else if 13312 ≤ sparesUsed m k pc then areaEnd m 2
  else fset { m with ras := { m.ras with areaRun := some r } } aonBase R.ERR_AREMAP_BUSY 1

/-- AREA_REMAP_COMPLETE (R406): the row has been copied and the entry is installed; `bad` names what could not be corrected in the copy. -/
def doAreaRemapComplete (bad : List (Loc × Bool)) (m : Mach) : Mach :=
  match m.ras.areaRun with
  | none => m
  | some r =>
    if !sideUp m (r.k / 4) then areaEnd m 5
    else
      let m := bad.foldl (fun m x => if (locName m x.1).1 == r.k / 4 then locRead m x.1 (if x.2 then .unreadable else .bad) 3 else m) m
      let m := { m with ras := { m.ras with area := m.ras.area ++ [r], pend := m.ras.pend ++ [TrimRec.area r] } }
      areaEnd { m with rsv := { m.rsv with spares := sset 0 m.rsv.spares (r.k * 32 + r.pc) (sparesUsed m r.k r.pc + 1) } } 0

/-- ERR_PSMAP_WRITE (R407): maps a page of a bank to spare page `i`, which holds no program until it is written; dropped unless the bank is
inactive and OLDBUSY is 0. -/
def doErrPsmapWrite (sd b : Fin 2) (i : Fin 8) (page : BitVec 8) (v : Bool) (m : Mach) : Mach :=
  if !progOpen m sd b then m
  else
    let a := 0x80 * sd.val + 0x40 * b.val + 8 * i.val
    let k := 8 * (2 * sd.val + b.val) + i.val + 1024
    let m := fset (fset m a R.ERR_PSMAP_PAGE page.toNat) a R.ERR_PSMAP_V (b2n v)
    { m with eng := { m.eng with prog := mdrop m.eng.prog fun x => x / 1024 == k } }

/-- STACK_RETIRE (R408): a write of ERR_STKRET with GO 1; the domain of a stack of a stopped side goes off for good. -/
def doStackRetire (k : Fin 8) (m : Mach) : Mach :=
  let m := fset m aonBase R.ERR_STKRET_STACK k
  let done (m : Mach) (r : Nat) : Mach := fset m aonBase R.ERR_STKRET_RESULT r
  let sd := k.val / 4
  if stackRetired m k then done m 2
  else if !(opMode m == 2 || opMode m == 3) || sideUp m sd || m.twin.returning == some sd then done m 1
  else
    let m := fset m aonBase R.ERR_STKRET_RETIRED (setBit (fget m aonBase R.ERR_STKRET_RETIRED) k true)
    let m := fset (domPut m (18 + k.val) 0) (rsvBase k) R.RSV_STATUS_STATE 0
    done { m with ras := { m.ras with pend := m.ras.pend ++ [TrimRec.stack k] } } 0

/-- TRIM_RECORD_APPEND (R409, R427): the Ditchrider writes the oldest record that waits to T0, reads it back and writes it to T1. -/
def doTrimRecordAppend (m : Mach) : Mach :=
  match m.ras.pend with
  | [] => m
  | r :: rest =>
    if !ditchRuns m then m
    else count { m with ras := { m.ras with pend := rest }, flash := { m.flash with trim := m.flash.trim ++ [⟨r, true, true⟩] } } mgtBase 3

/-- LEARNED_PRESET_CAPTURE (R427): port `p` has run at 64 GT/s for 10 s in L0 without Recovery; presets that differ from the stored ones are
appended. -/
def doLearnedPresetCapture (p : Fin 32) (v : BitVec 128) (m : Mach) : Mach :=
  let mine (r : TrimRec) : Option Nat := match r with
    | .presets q x => if q == p.val then some x else none
    | _ => none
  let last := (((m.flash.trim.map fun t => t.rec_) ++ m.ras.pend).reverse).findSome? mine
  if linkUp m p && fget m (ptBase p) R.PT_LINK_RATE == 6 && last != some v.toNat then
    { m with ras := { m.ras with pend := m.ras.pend ++ [TrimRec.presets p v.toNat] } }
  else m

/-- ARM (R411): the next write to the structure instance that ERR_INJ names is corrupted; `settle` sees it. -/
def doArm (m : Mach) : Mach := fset m aonBase R.ERR_INJ_ARM 1

end Sys2Proof.Machine
end

