-- ==== Sys2Proof/Machine/MgmtCmd.lean ====
section
/-! DEFINITION. The Ditchrider: management messages, firmware updates, the event log's reads, the keeper queue and the watchdog
(chapter 18). -/

namespace Sys2Proof.Machine

/-- Is a management message on interface `i` (0 SMBus, 1 Ethernet) answered (R465)? -/
def mgmtOn (m : Mach) (i : Nat) : Bool := ditchRuns m && (i == 0 || fon m mgtBase R.MGT_IFCTL_ETHEN)

/-- A firmware update command is answered by the recovery loader as well, over SMBus (R458). -/
def updOn (m : Mach) (i : Nat) : Bool := mgmtOn m i || (fget m mgtBase R.MGT_STATUS_STATE == 4 && i == 0)

/-- Answers a message. -/
def answer (name : String) (vals : List Nat) (i : Nat) (m : Mach) : Mach := if mgmtOn m i then send m (.mgmt name vals) else m

/-- An answer whose content the spec leaves to the standard: one open value. -/
def answerOpen (name : String) (i : Nat) (m : Mach) : Mach := if mgmtOn m i then send (draw m) (.mgmt name [drawn m]) else m

/-- SET_ENDPOINT_ID (R465). -/
def doSetEndpointId (i : Fin 2) (eid : BitVec 8) (m : Mach) : Mach :=
  if mgmtOn m i then send { m with mgmt := { m.mgmt with eid := mput m.mgmt.eid i.val eid.toNat } } (.mgmt "Set Endpoint ID" [eid.toNat]) else m

/-! ## PLDM base and monitoring (Table 18-6) -/

def doGetTid (i : Fin 2) (m : Mach) : Mach := answer "GetTID" [m.mgmt.tid] i m
def doSetTid (i : Fin 2) (t : BitVec 8) (m : Mach) : Mach :=
  if mgmtOn m i then send { m with mgmt := { m.mgmt with tid := t.toNat } } (.mgmt "SetTID" []) else m
def doGetPldmVersion (i : Fin 2) : Mach → Mach := answerOpen "GetPLDMVersion" i
/-- Types 0 and 2, and firmware update, which the standard numbers 5. -/
def doGetPldmTypes (i : Fin 2) : Mach → Mach := answer "GetPLDMTypes" [0, 2, 5] i
def doGetPldmCommands (i : Fin 2) : Mach → Mach := answerOpen "GetPLDMCommands" i

/-- Sensor IDs of Table 18-4, in order. -/
def sensorIds : List Nat :=
  ((List.range 80).map (· + 1)) ++ ((List.range 40).map (· + 101)) ++ ((List.range 12).map (· + 201)) ++ [301, 302, 303, 401, 402, 403, 404]

/-- Upper warning, critical and fatal thresholds of a sensor; 0 for none (Table 18-4). -/
def sensorBounds (id : Nat) : List Nat :=
  if id ≤ 48 then [95, 100, 115] else if id ≤ 64 then [0, 100, 120] else if id ≤ 80 then [0, 95, 105]
  else if id == 303 then [900, 0, 0] else [0, 0, 0]

/-- Reading of a numeric sensor (Table 18-4). -/
def sensorValue (m : Mach) (id : Nat) : Option Nat :=
  if 1 ≤ id && id ≤ 80 then some (tempOf m (id - 1))
  else if 101 ≤ id && id ≤ 140 then some (((m.pwr.volts[id - 101]?).map fun v => v.1).getD 0)
  else if 201 ≤ id && id ≤ 212 then some ((m.pwr.rails[id - 201]?).getD 0)
  else if id == 301 then some (fget m 0 R.PWR_FEED_VIN)
  else if id == 302 then some (fget m 8 R.PWR_FEED_VIN)
  else if id == 303 then some (fget m aonBase R.PWR_INPUT_WATTS)
  else none

/-- States of a state sensor (Table 18-4). -/
def sensorStates (m : Mach) (id : Nat) : Option (List Nat) :=
  if id == 401 then some [opMode m]
  else if id == 402 then some [fget m 0 R.PWR_FEED_PRESENT]
  else if id == 403 then some [fget m 8 R.PWR_FEED_PRESENT]
  else if id == 404 then
    some [fget m aonBase R.PWR_TSTAT_SIDEA, fget m aonBase R.PWR_TSTAT_SIDEB, fget m aonBase R.PWR_TSTAT_TILE, fget m aonBase R.PWR_TSTAT_STACK]
  else none

def doGetPdrRepositoryInfo (i : Fin 2) : Mach → Mach := answer "GetPDRRepositoryInfo" [sensorIds.length] i

/-- GET_PDR: sensor `n` of Table 18-4 with its thresholds. -/
def doGetPdr (i : Fin 2) (n : Nat) : Mach → Mach := match sensorIds[n]? with
  | some id => answer "GetPDR" (id :: sensorBounds id) i
  | none => answer "GetPDR invalid" [] i

def doGetSensorReading (i : Fin 2) (id : BitVec 16) (m : Mach) : Mach := match sensorValue m id.toNat with
  | some v => answer "GetSensorReading" [v] i m
  | none => answer "GetSensorReading invalid" [] i m

def doGetStateSensorReadings (i : Fin 2) (id : BitVec 16) (m : Mach) : Mach := match sensorStates m id.toNat with
  | some v => answer "GetStateSensorReadings" v i m
  | none => answer "GetStateSensorReadings invalid" [] i m

/-- How far a value has crossed rising bounds; 0 bounds do not exist. -/
def crossed (bs : List Nat) (v : Nat) : Nat := (bs.filter fun b => b != 0 && b ≤ v).length

/-- Level of each sensor that sends events (R464). -/
def sensorLevel (m : Mach) (id : Nat) : Nat :=
  if id ≤ 80 then crossed (sensorBounds id) (tempOf m (id - 1))
  else if id ≤ 140 then ((m.pwr.volts[id - 101]?).map fun v => v.2).getD 0
  else if id ≤ 302 then b2n (decide (fget m (8 * (id - 301)) R.PWR_FEED_VIN < 400))
  else if id == 303 then b2n (decide (900 ≤ fget m aonBase R.PWR_INPUT_WATTS))
  else ((sensorStates m id).getD []).foldl (fun a x => a * 4096 + x) 0

/-- Sensors that send events: those with thresholds, and the state sensors. -/
def eventSensors : List Nat := sensorIds.filter fun id => id ≤ 140 || 301 ≤ id

/-- SET_EVENT_RECEIVER (R464): `poll`: events wait to be polled instead of being sent. Crossings count from now. -/
def doSetEventReceiver (i : Fin 2) (eid : BitVec 8) (poll : Bool) (m : Mach) : Mach :=
  if !mgmtOn m i then m
  else
    let lv := eventSensors.foldl (fun l id => sset 0 l id (sensorLevel m id)) []
    send { m with mgmt := { m.mgmt with receiver := some (eid.toNat + 256 * (if poll then 2 else 1)), levels := lv } } (.mgmt "SetEventReceiver" [])

/-- Each threshold crossing and state change since the last step sends one PlatformEventMessage, or queues it (R464). -/
def platformEvents (m : Mach) : Mach :=
  match m.mgmt.receiver with
  | none => m
  | some r =>
    if !ditchRuns m then m
    else eventSensors.foldl (fun m id =>
      let v := sensorLevel m id
      if v == sget 0 m.mgmt.levels id then m
      else
        let m := { m with mgmt := { m.mgmt with levels := sset 0 m.mgmt.levels id v } }
        if r / 256 == 1 then send m (.mgmt "PlatformEventMessage" [r % 256, id, v])
        else { m with mgmt := { m.mgmt with events := m.mgmt.events ++ [(id, v)] } }) m

/-- POLL_FOR_PLATFORM_EVENT_MESSAGE. -/
def doPollForPlatformEventMessage (i : Fin 2) (m : Mach) : Mach :=
  if !mgmtOn m i then m
  else match m.mgmt.events with
    | [] => send m (.mgmt "PollForPlatformEventMessage" [])
    | (id, v) :: rest => send { m with mgmt := { m.mgmt with events := rest } } (.mgmt "PollForPlatformEventMessage" [id, v])

def doPldmUnsupportedCommand (i : Fin 2) (m : Mach) : Mach := if updOn m i then send m (.mgmt "ERROR_UNSUPPORTED_PLDM_CMD" []) else m

/-! ## PLDM firmware update (Table 18-7) -/

/-- Answers an update command. -/
def updAnswer (name : String) (vals : List Nat) (m : Mach) : Mach := send m (.mgmt name vals)

/-- Update state in MGT_UPD. -/
def updState (m : Mach) (st : Nat) : Mach := fset m mgtBase R.MGT_UPD_STATE st

/-- The update record of R461: component and RESULT. -/
def updRecord (m : Mach) (comp result : Nat) : Mach :=
  eventRecord (fset m mgtBase R.MGT_UPD_RESULT result) 4 0 0 0 (comp + result * 2 ^ 16) []

/-- An update command in phase `ok`; in another phase it is answered so and does nothing else. -/
def updCmd (name : String) (ok : Update → Bool) (go : Update → Mach → Mach) (i : Nat) (m : Mach) : Mach :=
  if !updOn m i then m
  else match m.mgmt.upd with
    | none => updAnswer (name ++ " not in update mode") [] m
    | some u => if ok u then go u m else updAnswer (name ++ " invalid state") [] m

/-- Writes the update back. -/
def updPut (m : Mach) (u : Update) : Mach := { m with mgmt := { m.mgmt with upd := some u } }

def doQueryDeviceIdentifiers (i : Fin 2) (m : Mach) : Mach := if updOn m i then updAnswer "QueryDeviceIdentifiers" [0x0512] m else m

/-- GET_FIRMWARE_PARAMETERS: the running version, and those of the valid packages in slots A, B and factory. -/
def doGetFirmwareParameters (i : Fin 2) (m : Mach) : Mach :=
  let v (s : Nat) : Nat := ((slotValid m s).map fun p => p.version.toNat).getD 0
  if updOn m i then updAnswer "GetFirmwareParameters" [fget m mgtBase R.MGT_STATUS_VERSION, v 0, v 1, v 2] m else m

/-- REQUEST_UPDATE: one agent at a time. -/
def doRequestUpdate (i : Fin 2) (ep : BitVec 8) (m : Mach) : Mach :=
  if !updOn m i then m
  else if m.mgmt.upd.isSome then updAnswer "RequestUpdate ALREADY_IN_UPDATE_MODE" [] m
  else updAnswer "RequestUpdate" [] (updState (updPut m ⟨ep.toNat + 256 * i.val, 0, 0, 0, 0, none, false⟩) 1)

def doPassComponentTable (i : Fin 2) : Mach → Mach :=
  updCmd "PassComponentTable" (fun u => u.phase == 0) (fun u m => updAnswer "PassComponentTable" [] (updPut m { u with phase := 1 })) i

/-- The firmware slot that component 0x0001 is written to: the inactive one of A and B; slot A while neither runs. -/
def updSlot (m : Mach) : Nat := if ditchRuns m && fget m mgtBase R.MGT_STATUS_SLOT == 0 then 1 else 0

/-- The slot of a component's transfer. -/
def compSlot (u : Update) : Option Nat := if u.comp == 1 then some u.slot else if u.comp == 2 then some 2 else none

/-- Erases the slot of the transfer. -/
def updErase (m : Mach) (u : Update) : Mach := match compSlot u with
  | some s => { m with flash := { m.flash with fw := mdel m.flash.fw s } }
  | none => m

/-- UPDATE_COMPONENT: a transfer starts, and the component's slot is erased (Table 18-12). -/
def doUpdateComponent (i : Fin 2) (comp : BitVec 16) : Mach → Mach :=
  updCmd "UpdateComponent" (fun u => u.phase == 1) (fun u m =>
    if 1 ≤ comp.toNat && comp.toNat ≤ 3 then
      let u := { u with comp := comp.toNat, phase := 2, bytes := 0, pkg := none }
      let u := if comp.toNat == 1 then { u with slot := updSlot m, ready := false } else u
      updAnswer "UpdateComponent" [] (updState (updErase (updPut m u) u) 1)
    else updAnswer "UpdateComponent unsupported" [] m) i

/-- REQUEST_FIRMWARE_DATA: a chunk of `n` bytes arrives and is written; at most 256 bytes on SMBus and 1,024 on Ethernet. -/
def doRequestFirmwareData (i : Fin 2) (n : Nat) : Mach → Mach :=
  updCmd "RequestFirmwareData" (fun u => u.phase == 2) (fun u m =>
    if n ≤ (if i.val == 0 then 256 else 1024) then updAnswer "RequestFirmwareData" [u.bytes + n] (updPut m { u with bytes := u.bytes + n })
    else updAnswer "RequestFirmwareData invalid" [] m) i

/-- TRANSFER_COMPLETE: `pkg` is what the chunks hold. -/
def doTransferComplete (i : Fin 2) (pkg : Package) : Mach → Mach :=
  updCmd "TransferComplete" (fun u => u.phase == 2) (fun u m =>
    updAnswer "TransferComplete" [] (updState (updPut m { u with phase := 3, pkg := some pkg }) 2)) i

/-- RESULT of MGT_UPD for a package checked under R456, and under R460 when it is a revocation package. -/
def pkgResult (m : Mach) (comp : Nat) (p : Package) : Nat :=
  let keyOk := match p.key with
    | some k => !bitOf m.flash.revoked k.val && (comp != 3 || match p.revokes with
      | some r => r != k
      | none => false)
    | none => false
  if !p.formatOk then 1 + drawn m % 4
  else if !keyOk then 2
  else if !p.sigOk then 1
  else if comp != 3 && (p.svn.toNat < m.flash.svnFuse || 64 < p.svn.toNat) then 3
  else 0

/-- VERIFY_COMPLETE (R456): the received package is checked; a package that fails leaves its slot invalid. -/
def doVerifyComplete (i : Fin 2) : Mach → Mach :=
  updCmd "VerifyComplete" (fun u => u.phase == 3) (fun u m =>
    match u.pkg with
    | none => m
    | some p =>
      let r := pkgResult m u.comp p
      let m := if p.formatOk then m else draw m
      if r != 0 then updAnswer "VerifyComplete" [r] (updRecord m u.comp r)
      else
        let m := match compSlot u with
          | some s => { m with flash := { m.flash with fw := mput m.flash.fw s ⟨p, true⟩ } }
          | none => m
        updAnswer "VerifyComplete" [0] (updPut (fset m mgtBase R.MGT_UPD_RESULT 0) { u with phase := 4 })) i

/-- APPLY_COMPLETE: the factory and revocation packages take effect; component 0x0001 is ready to activate. -/
def doApplyComplete (i : Fin 2) : Mach → Mach :=
  updCmd "ApplyComplete" (fun u => u.phase == 4) (fun u m =>
    let m := if u.comp == 3 then match u.pkg.bind fun p => p.revokes with
        | some r => { m with flash := { m.flash with revoked := setBit m.flash.revoked r.val true } }
        | none => m
      else m
    let m := if u.comp == 2 then fset m mgtBase R.MGT_SEC_FACTSVN (((slotValid m 2).map fun f => f.svn.toNat).getD 0) else m
    let u := { u with phase := 1, ready := u.ready || u.comp == 1 }
    updAnswer "ApplyComplete" [] (updState (updRecord (updPut m u) u.comp 0) (if u.ready then 3 else 1))) i

/-- ACTIVATE_FIRMWARE (R470, R471): the core restarts from the new slot, or from the one before if the new one is not valid; the watchdog is
suspended, tiles have PHY firmware to swap, and the program image is staged. -/
def doActivateFirmware (i : Fin 2) : Mach → Mach :=
  updCmd "ActivateFirmware" (fun u => u.phase == 1) (fun u m =>
    let m := updState (updAnswer "ActivateFirmware" [] { m with mgmt := { m.mgmt with upd := none } }) 0
    if !u.ready || !ditchRuns m then m
    else
      let old := fget m mgtBase R.MGT_STATUS_SLOT
      match slotValid m u.slot with
      | none => bootFrom m ((if (slotValid m old).isSome then [old] else []) ++ (slotOrder m 3).1) (some u.slot)
      | some p =>
        let m := bootFrom m [u.slot] none
        let m := { m with mgmt := { m.mgmt with suspended := true, phy := [0, 1, 2, 3], staged := some p.image } }
        let m := fset m mgtBase R.MGT_UPD_PROGPEND 1
        if fon m mgtBase R.MGT_SEC_SVNAUTO && 1 ≤ opMode m && opMode m ≤ 3 then svnBlow m else m) i

def doGetStatus (i : Fin 2) (m : Mach) : Mach :=
  if updOn m i then updAnswer "GetStatus" [((m.mgmt.upd.map fun u => u.phase + 1).getD 0), fget m mgtBase R.MGT_UPD_STATE] m else m

/-- CANCEL_UPDATE_COMPONENT: the component being transferred is given up. -/
def doCancelUpdateComponent (i : Fin 2) : Mach → Mach :=
  updCmd "CancelUpdateComponent" (fun u => 2 ≤ u.phase) (fun u m =>
    let m := updErase m u
    updAnswer "CancelUpdateComponent" [] (updState (updRecord (updPut m { u with phase := 1, pkg := none }) u.comp 5) (if u.ready then 3 else 1))) i

/-- CANCEL_UPDATE (R471): a partly written slot is invalid; update mode ends. -/
def doCancelUpdate (i : Fin 2) : Mach → Mach :=
  updCmd "CancelUpdate" (fun _ => true) (fun u m =>
    let m := if 2 ≤ u.phase then updErase m u else m
    updAnswer "CancelUpdate" [] (updState (updRecord { m with mgmt := { m.mgmt with upd := none } } u.comp 5) 0)) i

/-- RECOVERY_LOADER_PACKAGE (R458): the loader writes a package to slot A and checks it; a valid one runs, and the start goes on. -/
def doRecoveryLoaderPackage (pkg : Package) (env : StartEnv) (m : Mach) : Mach :=
  if fget m mgtBase R.MGT_STATUS_STATE != 4 then m
  else
    let m := { m with flash := { m.flash with fw := mput m.flash.fw 0 ⟨pkg, true⟩ }, mgmt := { m.mgmt with upd := none } }
    match slotValid m 0 with
    | none => updRecord m 1 (pkgResult m 1 pkg)
    | some p =>
      let m := runFw m 0 p
      let m := if opMode m == 4 then m else faultPin m false
      if fon m aonBase R.AON_LOAD_DONE || !m.boot.power then m
      else startBody { m with boot := { m.boot with timing := opMode m == 0 } } env (fon m aonBase R.AON_RST_CAUSE_COLD)

/-! ## CXL Fabric Management API (Table 18-8) -/

def doFmIdentify (i : Fin 2) : Mach → Mach := answerOpen "FM Identify" i

/-- The background call and its end status once posted. -/
def doFmBackgroundOperationStatus (i : Fin 2) (m : Mach) : Mach :=
  answer "FM Background Operation Status" [b2n (m.mgmt.fmTag.isSome && m.mgmt.fmResult.isNone), m.mgmt.fmResult.getD 0] i m
def doGetResponseMessageLimit (i : Fin 2) : Mach → Mach := answerOpen "Get Response Message Limit" i
def doGetMultiHeadedInfo (i : Fin 2) : Mach → Mach := answer "Get Multi-Headed Info" [32] i
/-- HOST ports are active heads. -/
def doGetHeadInfo (i : Fin 2) (m : Mach) : Mach := answer "Get Head Info" ((List.range 32).map fun p => b2n (roleOf m p == 1)) i m
def doGetLdInfo (i : Fin 2) : Mach → Mach := answer "Get LD Info" [1] i
/-- Table 3-1: one region per host, in blocks of 2 MiB. -/
def doGetDcdInfo (i : Fin 2) : Mach → Mach := answer "Get DCD Info" [32, 1, 2 ^ 21] i
def doGetHostDcRegionConfiguration (i : Fin 2) (_p : Fin 32) : Mach → Mach := answer "Get Host DC Region Configuration" [1, 0, 2 ^ 48, 2 ^ 21] i
def doGetDcRegionExtentLists (i : Fin 2) (p : Fin 32) (m : Mach) : Mach := answer "Get DC Region Extent Lists" (extentList m p) i m

/-- Commits a descriptor in the next slot of the keeper queue, if that slot is free (R262, R469). -/
def keeperPost (m : Mach) (tag entry flags : Nat) (args : BitVec 448) : Option Mach :=
  let s := (sget 0 m.ports.queues.taken 32 + (m.ports.queues.commits.filter fun k => k / 64 == 32).length) % 64
  if slotBusy m 32 s then none
  else
    let m := forN 7 (fun a m => slotPut m 32 s (a + 1) (bitsOf args.toNat (64 * a) 64)) m
    let hdr := entry % 256 + tag % 65536 * 2 ^ 8 + flags % 4 * 2 ^ 24 + slotPhase m 32 s * 2 ^ 63
    some (slotCommit (slotPut m 32 s 0 hdr) 32 s)

/-- The FM API's capacity changes (R467): a keeper call of MGT_FMCTL.ENTRY with the request in its arguments. The Ditchrider chooses a tag of
its own. One runs at a time. -/
def fmCapacity (name : String) (args : BitVec 448) (i : Nat) (m : Mach) : Mach :=
  if !mgmtOn m i then m
  else if !fon m mgtBase R.MGT_FMCTL_FMDC then send m (.mgmt (name ++ " Unsupported") [])
  else if m.mgmt.fmTag.isSome && m.mgmt.fmResult.isNone then send m (.mgmt (name ++ " Busy") [])
  else
    let tag := drawn m % 2 ^ 15
    match keeperPost (draw m) tag (fget m mgtBase R.MGT_FMCTL_ENTRY) 0 args with
    | none => send m (.mgmt (name ++ " Busy") [])
    | some m => send { m with mgmt := { m.mgmt with fmTag := some tag, fmResult := none } } (.mgmt (name ++ " Background Operation Started") [])

def doInitiateDynamicCapacityAdd (i : Fin 2) (args : BitVec 448) : Mach → Mach := fmCapacity "Initiate Dynamic Capacity Add" args i
def doInitiateDynamicCapacityRelease (i : Fin 2) (args : BitVec 448) : Mach → Mach := fmCapacity "Initiate Dynamic Capacity Release" args i
def doFmUnsupportedCommand (i : Fin 2) : Mach → Mach := answer "FM Unsupported" [] i

/-! ## Event log and vendor messages -/

/-- One step of CRC-32C, reflected. -/
def crcStep (c : Nat) : Nat := if c % 2 == 1 then (c / 2).xor 0x82F63B78 else c / 2

/-- CRC-32C over words of 8 bytes, least significant first. -/
def crc32c (ws : List Nat) : Nat :=
  let word (c w : Nat) : Nat := forN 8 (fun j c => forN 8 (fun _ c => crcStep c) (c.xor (bitsOf w (8 * j) 8))) c
  (ws.foldl word 0xFFFFFFFF).xor 0xFFFFFFFF

/-- The eight words of a record as the rings hold it (Table 18-3). -/
def ringWords (r : LogRec) : List Nat := r.words.take 7 ++ [crc32c (r.words.take 7) + r.boot * 2 ^ 32]

/-- SEQ of a record. -/
def recSeq (r : LogRec) : Nat := r.words.getD 6 0

/-- The records of a ring. -/
def ringOf (m : Mach) (pers : Bool) : List LogRec := if pers then m.log.pers else m.log.ring

/-- LOG_READ (R461): a write of MGT_LOGRD with GO 1. -/
def doLogRead (seq : BitVec 32) (boot : BitVec 16) (pers : Bool) (m : Mach) : Mach :=
  let m := fset (fset (fset m mgtBase R.MGT_LOGRD_SEQ seq.toNat) mgtBase R.MGT_LOGRD_BOOT boot.toNat) mgtBase R.MGT_LOGRD_RING (b2n pers)
  let now := fget m mgtBase R.MGT_LOGSTAT_BOOT
  let hit := (ringOf m pers).find? fun r => recSeq r == seq.toNat && (!pers || r.boot == boot.toNat)
  let waits := (m.log.held.any fun r => recSeq r == seq.toNat) || (pers && m.log.pend.any fun r => recSeq r == seq.toNat)
  let later := if pers then now < boot.toNat || (now == boot.toNat && (m.log.seq ≤ seq.toNat || waits)) else m.log.seq ≤ seq.toNat || waits
  let st := if hit.isSome then 0 else if later then 2 else 1
  let ws := (hit.map ringWords).getD []
  fset (forN 8 (fun w m => fset m (mgtBase + 8 * w) R.MGT_LOGDAT_WORD (ws.getD w 0)) m) mgtBase R.MGT_LOGRD_STATUS st

/-- LOG_FLUSH (R462): the pending records are written to the persistent ring. -/
def doLogFlush (m : Mach) : Mach := if ditchRuns m then logFlush m else m

/-- NOTICE_QUEUE_DRAIN (R463): the PD0 queue becomes records in arrival order. -/
def doNoticeQueueDrain (m : Mach) : Mach :=
  if ditchRuns m then m.log.held.foldl logWrite { m with log := { m.log with held := [] } } else m

/-- READ_RECORDS (vendor message 0x01): up to 8 records from a BOOT and SEQ on. -/
def doReadRecords (i : Fin 2) (boot : BitVec 16) (seq : BitVec 32) (pers : Bool) (m : Mach) : Mach :=
  let rs := (ringOf m pers).filter fun r => r.boot == boot.toNat && seq.toNat ≤ recSeq r
  answer "Read records" ((rs.take 8).flatMap ringWords) i m

/-- A vendor message marked keeper in Table 18-9 (R468). -/
def keeperMsg (name : String) (i : Nat) (go : Mach → Mach) (m : Mach) : Mach :=
  if !mgmtOn m i then m
  else if !bitOf (fget m mgtBase R.MGT_IFCTL_KEEPER) i then send m (.mgmt (name ++ " DENIED") [])
  else go m

/-- The tag after one given to a submitted call: 0x8000 to 0xFFFE in turn (R469). -/
def tagNext (t : Nat) : Nat := if t == 0xFFFE then 0x8000 else t + 1

/-- SUBMIT_CALL (vendor message 0x02): a descriptor of an entry with NOTIFY and ORDER in `flags`. -/
def doSubmitCall (i : Fin 2) (ep : BitVec 8) (entry : BitVec 8) (flags : BitVec 2) (args : BitVec 448) : Mach → Mach :=
  keeperMsg "Submit call" i fun m =>
    let t := m.mgmt.nextTag
    match keeperPost m t entry.toNat flags.toNat args with
    | none => send m (.mgmt "Submit call Busy" [])
    | some m =>
      send { m with mgmt := { m.mgmt with tags := mput m.mgmt.tags t (ep.toNat + 256 * i.val), nextTag := tagNext t } } (.mgmt "Submit call" [t])

/-- READ_RESULTS (vendor message 0x03): the results held for the endpoint's tags. -/
def doReadResults (i : Fin 2) (ep : BitVec 8) (m : Mach) : Mach :=
  answer "Read results" ((m.mgmt.results.filter fun r => r.ep == ep.toNat + 256 * i.val).map fun r => r.word) i m

/-- COMMIT_SVN (vendor message 0x05, R459). -/
def doCommitSvn (i : Fin 2) : Mach → Mach := keeperMsg "Commit SVN" i fun m => send (svnBlow m) (.mgmt "Commit SVN" [])

/-- The Ditchrider drains the keeper result queue (R469): results of submitted calls are held for their endpoints, the end status of the FM API's
call becomes its result, and every other result that is not OK is recorded. A first POST of the FM API's call is not its end. -/
def keeperResults (m : Mach) : Mach :=
  if !ditchRuns m then m
  else
    let rs := resultsOf m 32
    let m := { m with ports := { m.ports with queues := { m.ports.queues with results := m.ports.queues.results.filter fun r => r.1 != 32 } } }
    rs.foldl (fun m w =>
      let tag := bitsOf w 40 16
      let st := bitsOf w 56 7
      match mget m.mgmt.tags tag with
      | some ep => { m with mgmt := { m.mgmt with results := m.mgmt.results ++ [⟨ep, tag, w⟩] } }
      | none =>
        if m.mgmt.fmTag == some tag && tag < 0x8000 && m.mgmt.fmResult.isNone then { m with mgmt := { m.mgmt with fmResult := some st } }
        else if st == 0 then m
        else eventRecord m 2 0 2 0 tag [w]) m

/-- RESULT_HOLD_EXPIRY (R469): the oldest held result has been held for 60 s. -/
def doResultHoldExpiry (m : Mach) : Mach := { m with mgmt := { m.mgmt with results := m.mgmt.results.drop 1 } }

/-- KEEPER_QUEUE_HEADER_WRITE (R469): the Ditchrider writes the header of slot `s`; any other path is refused with CAUSE 4. A slot that holds a
committed descriptor takes no write (R264). -/
def keeperSlotWrite (s w v : Nat) (m : Mach) : Mach :=
  if slotBusy m 32 s then
    let inst := drawn m
    notice (fsat (fset (draw m) mgtBase R.PT_QSTAT_OVRN 1) mgtBase R.PT_QERR_OVRN_CNT) 0x0E inst s
  else slotWrite m 32 s w .full v

/-! ## Program activation, PHY firmware and the watchdog -/

/-- Writes the inactive bank of a side with a shipped image and swaps (R256). -/
def progSwapTo (m : Mach) (sd image : Nat) : Mach :=
  doSePsctlSwap (BitVec.ofNat 1 sd).toFin (bankLoad m sd (1 - fget m (seBase sd) R.SE_PSCTL_ACTIVE) (image + 1) [])

/-- One side of a running PROGACT: it is written once its cluster is On and no call runs on the old program (R470, R471). -/
def progStep (sd : Nat) (m : Mach) : Mach :=
  match m.mgmt.progact, m.mgmt.staged with
  | s :: rest, some image =>
    if s != sd then m
    else if !sideUp m sd then { m with mgmt := { m.mgmt with progact := rest } }
    else if domSt m (10 + 6 * sd) != 2 || oldBusy m sd != 0 then m
    else
      let m := progSwapTo m sd image
      { m with mgmt := { m.mgmt with progact := rest } }
  | _, _ => m

/-- A running PROGACT goes on where it can, and ends when both sides are written. The image stays pending until a commit. -/
def progGo (m : Mach) : Mach :=
  if !fon m mgtBase R.MGT_UPD_PROGBUSY || !ditchRuns m then m
  else
    let m := progStep 1 (progStep 0 m)
    if m.mgmt.progact.isEmpty then fset { m with mgmt := { m.mgmt with staged := none } } mgtBase R.MGT_UPD_PROGBUSY 0 else m

/-- PROGACT (R470): writing MGT_UPD.PROGACT; HOLD keeps the clusters awake. -/
def doProgact (m : Mach) : Mach :=
  if m.mgmt.staged.isNone || fon m mgtBase R.MGT_UPD_PROGBUSY || !ditchRuns m then m
  else
    let sides := [0, 1].filter fun s => sideUp m s
    let m := { m with mgmt := { m.mgmt with progact := sides } }
    let m := if sideUp m 0 then doHold 0 m else m
    let m := if sideUp m 1 then doHold 1 m else m
    progGo (fset m mgtBase R.MGT_UPD_PROGBUSY 1)

/-- PHY_FIRMWARE_ACTIVATION (R470): a tile's PHY controllers swap images. -/
def doPhyFirmwareActivation (t : Fin 4) (m : Mach) : Mach :=
  if ditchRuns m then { m with mgmt := { m.mgmt with phy := m.mgmt.phy.filter fun x => x != t.val } } else m

/-- KICK (R472): writing MGT_WD.KICK. -/
def doKick (m : Mach) : Mach := { m with mgmt := { m.mgmt with suspended := false } }

/-- WATCHDOG_EXPIRY (R472, Table 18-13). -/
def doWatchdogExpiry (env : StartEnv) (m : Mach) : Mach :=
  if !ditchRuns m || m.mgmt.suspended then m
  else
    let l := fget m mgtBase R.MGT_WD_LEVEL
    let s := fget m mgtBase R.MGT_STATUS_SLOT
    let m := fsat m mgtBase R.MGT_WD_EXPIRIES
    let report (m : Mach) : Mach :=
      let n := fget m mgtBase R.MGT_WD_LEVEL
      notice (eventRecord m 8 0 0 0 n []) 0x10 0 n
    let ok (x : Nat) : List Nat := if (slotValid m x).isSome then [x] else []
    match l with
    | 0 => report (fset (bootFrom m (ok s ++ (slotOrder m 3).1) none) mgtBase R.MGT_WD_LEVEL 1)
    | 1 => report (fset (bootFrom m ((if s < 2 then ok (1 - s) else slotsAB m) ++ ok 2 ++ ok s) none) mgtBase R.MGT_WD_LEVEL 2)
    | _ =>
      if fon m mgtBase R.MGT_WD_WARM then warmReset (report (fset m mgtBase R.MGT_WD_LEVEL 0)) env 7
      else report (fset (fset m mgtBase R.MGT_STATUS_STATE 3) mgtBase R.MGT_WD_LEVEL 3)

/-- WATCHDOG_LEVEL_DECAY (R472): 60 s without an expiry. -/
def doWatchdogLevelDecay (m : Mach) : Mach :=
  if fget m mgtBase R.MGT_WD_LEVEL == 3 then m else fset m mgtBase R.MGT_WD_LEVEL 0

/-- WATCHDOG_HELD_RESTART (R472): 600 s Held. -/
def doWatchdogHeldRestart (m : Mach) : Mach :=
  if fget m mgtBase R.MGT_STATUS_STATE != 3 then m
  else
    let o := slotOrder m 3
    fset (bootFrom m o.1 o.2) mgtBase R.MGT_WD_LEVEL 1

end Sys2Proof.Machine
end

