-- ==== Sys2Proof/Machine/CntCmd.lean ====
section
/-! DEFINITION. The counter collector: ticks and snapshots, the ring, samples (chapter 19). -/

namespace Sys2Proof.Machine

/-- A counter at the end of a tick (R476, R477): the snapshot, then the writes of the tick. `ev`, `ed`, `en` are the settings written. -/
def Cnt.tick (c : Cnt) (ev : Nat) (ed en : Bool) : Cnt :=
  let c' := { c with snap := c.count, snapOvf := c.ovf, count := c.wcount.getD c.count, ovf := c.ovf && !(c.wovf && !c.wrapped)
                     wrapped := false, seen := false, wcount := none, wovf := false, wcfg := false }
  if c.wcfg then { c' with event := ev, edge := ed, en := en } else c'

/-- Does a block's domain hold its counters (R475)? -/
def cntHeld (m : Mach) (base : Nat) : Bool := !(domSt m (domOf base) == 1 || domSt m (domOf base) == 2)

/-- The cycles of the tick that ends in which a counter's event was true: no clock is modelled, so that their number is an open value, between 1
and the cycles that a tick of `t` µs has at 2.5 GHz, the fastest clock (Table 17-5). -/
def openCycles (m : Mach) (t : Nat) : Nat := 1 + drawn m % (2500 * t)

/-- The counters of events that are counted by cycles add the cycles of the tick that ends. -/
def addCycles (t : Nat) (m : Mach) : Mach :=
  m.cnts.foldl (fun m c =>
    if c.2.seen then cntPut (draw m) (c.1 / 8) (c.1 % 8) (c.2.add (openCycles m t)) else m) m

/-- Every counter whose domain runs ends its tick. -/
def tickCounters (m : Mach) : Mach :=
  m.cnts.foldl (fun m c =>
    let base := c.1 / 8
    let n := c.1 % 8
    if cntHeld m base then m
    else cntPut m base n (c.2.tick (fget m (base + 8 * n) R.CNTCFG_EVENT) (fon m (base + 8 * n) R.CNTCFG_EDGE) (fon m (base + 8 * n) R.CNTCFG_EN))) m

/-- The sixteen words of the record of a block instance (Table 19-3), with the settings in force during the tick. -/
def ringWords128 (m : Mach) (old : Nat → Nat → Cnt) (b : Blk) : List Nat :=
  let st := domSt m (domOf b.base)
  let stale := st == 5
  let cs := (List.range 8).map fun n => old b.base n
  let snaps := (List.range 8).map fun n => let c := cntOf m b.base n; c.snap + b2n c.snapOvf * 2 ^ 48
  let evs := ((List.range 8).map fun n => ((cs[n]?).map fun c => c.event).getD 0 * 2 ^ (8 * n)).sum
  let fl := ((List.range 8).map fun n => ((cs[n]?).map fun c => b2n c.en + b2n c.edge * 2 ^ 8).getD 0 * 2 ^ n).sum
  let w0 := fget m cntBase R.CNT_SEQ_SEQ + b.type * 2 ^ 32 + b.inst % 256 * 2 ^ 40 + b2n (cntHeld m b.base && !stale) * 2 ^ 48 +
    b2n stale * 2 ^ 49 + 2 ^ 63
  [w0, m.timeUs] ++ (if stale then List.replicate 10 0 else snaps ++ [evs, fl]) ++ [0, 0, 0, 0]

/-- A line of eight words. -/
def lineOf (ws : List Nat) : Line := BitVec.ofNat 512 (ws.foldr (fun w n => w % 2 ^ 64 + 2 ^ 64 * n) 0)

/-- The request of a line of a ring record: a full-line write with keeper privilege (R479). -/
def ringReq (r : RingRec) (k : Nat) : Req :=
  { op := .store, src := .ring r.i k, pln := r.pln + k, data := r.data.getD k 0, mask := fullMask, poison := false }

/-- A record of the ring is issued. -/
def ringIssue (m : Mach) (ws : List Nat) : Mach :=
  let i := m.col.next
  let r : RingRec := ⟨m.nextId, (m.col.base + 128 * (i % 2 ^ m.col.sizelog)) / 64 % 2 ^ 42, [lineOf (ws.take 8), lineOf (ws.drop 8)], [0, 1]⟩
  let m := { m with nextId := m.nextId + 1, col := { m.col with ring := m.col.ring ++ [r], next := (i + 1) % 2 ^ 32 } }
  let reqs := [0, 1].map fun k => (homeSlice m (r.pln + k), (ringReq r k).decoded m)
  { m with home := { m.home with reqQ := m.home.reqQ ++ reqs } }

/-- The records of a tick (R479, R480): all or none fit with MODE 0. While no side serves the pool, none can be issued before the next tick. -/
def ringTick (m : Mach) (old : Nat → Nat → Cnt) : Mach :=
  if !fon m cntBase R.CNT_RCTL_EN then m
  else
    let bs := (List.range 64).filterMap fun j =>
      if fon m (cntBase + 8 * j) R.CNT_RSEL_V then blkAt (fget m (cntBase + 8 * j) R.CNT_RSEL_BASE * 4096) else none
    let used := (m.col.next + 2 ^ 32 - fget m cntBase R.CNT_RPTR_RP) % 2 ^ 32
    if !m.col.mode && 2 ^ m.col.sizelog < used + bs.length then fsat m cntBase R.CNT_RSTAT_LOST bs.length
    else if poolOff m then fsat m cntBase R.CNT_RSTAT_SKIPPED bs.length
    else bs.foldl (fun m b => ringIssue m (ringWords128 m old b)) m

/-- COUNTER_TICK (R476): time passes by the length of the tick that ends; snapshots, counter writes and ring records. A changed TICK is the length of
the next one. -/
def doCounterTick (m : Mach) : Mach :=
  if !m.boot.power then m
  else
    let tick := m.col.interval
    let t := m.timeUs + tick
    let m := addCycles tick { m with col := { m.col with interval := fget m cntBase R.CNT_CTL_TICK } }
    let m := fset (finc { m with timeUs := t } cntBase R.CNT_SEQ_SEQ) cntBase R.CNT_SEQ_TIME t
    let old := cntOf m
    count (ringTick (tickCounters m) old) cntBase 1

/-- RING_RECORD_COMPLETE (R479): the oldest record's lines have reached their completion point. -/
def doRingRecordComplete (m : Mach) : Mach :=
  match m.col.ring with
  | [] => m
  | r :: rest => if r.left.isEmpty then count (finc { m with col := { m.col with ring := rest } } cntBase R.CNT_RPTR_WP) cntBase 2 else m

/-- A line of a ring record is complete. -/
def ringDone (m : Mach) (i k : Nat) : Mach :=
  let upd (r : RingRec) : RingRec := { r with left := r.left.filter fun x => x != k }
  { m with col := { m.col with ring := mapFirst (fun r => r.i == i) upd m.col.ring } }

/-- RING_ENABLE (R479): a write of CNT_RCTL with EN 1. From EN 0 the settings apply and the pointers go to 0; SIZELOG outside 6 to 24 keeps
its value, and the write is refused with CAUSE 2 (R31). -/
def doRingEnable (mode : Bool) (sizelog : BitVec 5) (base : BitVec 36) (m : Mach) : Mach :=
  let was := fon m cntBase R.CNT_RCTL_EN
  let bad := sizelog.toNat < 6 || 24 < sizelog.toNat
  let m := if bad then reject m cntBase 2 0x50 else fset m cntBase R.CNT_RCTL_SIZELOG sizelog.toNat
  let m := fset (fset m cntBase R.CNT_RCTL_MODE (b2n mode)) cntBase R.CNT_RCTL_BASE base.toNat
  let m := fset m cntBase R.CNT_RCTL_EN 1
  if was then m
  else
    let m := { m with col := { m.col with ring := [], next := 0, base := base.toNat * 4096, sizelog := fget m cntBase R.CNT_RCTL_SIZELOG
                                          mode := mode } }
    fset (fset m cntBase R.CNT_RPTR_WP 0) cntBase R.CNT_RPTR_RP 0

/-- SAMPLE_TAKEN (R483, R484): a source of sampler `j` whose interval has ended records the event that it chose within the skid, whose fields are
the operands: port, pool address or engine word, outcome, latency, tailwater occupancy. -/
def doSampleTaken (j : Fin 16) (inst : Fin 64) (port : Fin 32) (addr : BitVec 48) (outcome : Fin 8) (lat : BitVec 16) (twUsed : BitVec 10)
    (m : Mach) : Mach :=
  let k := j.val * 64 + inst.val
  if !m.col.due.contains k then m
  else
    let m := { m with col := { m.col with due := dropFirst (fun x => x == k) m.col.due } }
    if 4096 ≤ m.col.samples.length then count (fsat m cntBase R.CNT_SSTAT_LOST) cntBase 4
    else
      let kind := fget m (cntBase + 8 * j.val) R.CNT_SAMPCTL_KIND
      let w0 := port.val + j.val * 2 ^ 5 + kind * 2 ^ 9 + inst.val * 2 ^ 10 + 2 ^ 63
      let w3 := (if kind == 0 then outcome.val + lat.toNat * 2 ^ 4 + twUsed.toNat * 2 ^ 20 else 0) + m.col.seq % 2 ^ 32 * 2 ^ 32
      let r := [w0, m.timeUs, addr.toNat, w3]
      count { m with col := { m.col with samples := m.col.samples ++ [r], seq := (m.col.seq + 1) % 2 ^ 32 } } cntBase 3

/-- CNT_SADV (R485): removes the oldest sample. -/
def doCntSadv (m : Mach) : Mach := { m with col := { m.col with samples := m.col.samples.drop 1 } }

end Sys2Proof.Machine
end

