-- ==== Sys2Proof/Machine/Live.lean ====
section
/-! DEFINITION. Register fields that show what the machine holds elsewhere: occupancies, states of engines and units, queue heads. A read computes
them (register tables of every chapter). -/

namespace Sys2Proof.Machine

/-- Fields of a home slice's registers (Tables 4-11, 4-13, 6-13). -/
def liveHs (m : Mach) (h off lo : Nat) : Option Nat :=
  let lines := m.home.hg.filter fun c => c.1 / (3072 * 16) == h
  match off, lo with
  | 0x48, 8 => some (mshrUsed m h)
  | 0x48, 20 => some (wbUsed m h)
  | 0x48, 28 => some (m.home.mwq.filter fun q => q.1 == h).length
  | 0x48, 36 => some (vbUsed m h)
  | 0x68, 0 => some lines.length
  | 0x68, 16 => some (lines.filter fun c => c.2.d).length
  | 0x68, 32 => some (lines.filter fun c => c.2.pf).length
  | 0x308, 0 => some (m.home.dwq.filter fun q => q.1 == h).length
  | 0x308, 8 => some (m.home.recalls.filter fun r => r.h == h).length
  | 0x308, 16 => some (m.ports.snps.filter fun s => s.h == h).length
  | 0x308, 32 => some ((m.home.dc.filter fun c => c.1 / (2048 * 4) == h).map fun c =>
      let set := c.2.tag * 2048 + c.1 / 4 % 2048
      (m.home.dir.filter fun d => d.1 / 8 == c.2.half * 2 ^ 26 + set).length).sum
  | _, _ => none

/-- Fields of a Reservoir controller's registers: the tailwater registers of Table 5-19. -/
def liveRsv (m : Mach) (sd off lo : Nat) : Option Nat :=
  let n (st : TwSt) : Nat := (m.tw.filter fun e => e.sd == sd && e.st == st).length
  match off, lo with
  | 0x808, 0 => some (twUsed m sd)
  | 0x808, 16 => some (n .waiting)
  | 0x808, 32 => some (n .issued)
  | 0x808, 48 => some (n .held)
  | _, _ => none

/-- Fields of the sluice cluster's registers (Tables 10-12, 10-13, 11-15); `i` is an engine's offset in its array. -/
def liveSe (m : Mach) (sd off i lo : Nat) : Option Nat :=
  let e := 16 * sd + i / 256
  let x := engOf m e
  match off, lo with
  | 0x48, 48 => some (oldBusy m sd)
  | 0x50, 0 => some ((List.range 16).filter fun k => (engOf m (16 * sd + k)).st == .idle).length
  | 0x1000, 0 => some x.st.num
  | 0x1000, 3 => some x.bank
  | 0x1000, 4 => some (b2n x.keeper)
  | 0x1000, 5 => some x.port
  | 0x1000, 10 => some x.queue
  | 0x1000, 12 => some x.tag
  | 0x1000, 28 => some x.pc
  | 0x3000, _ => some (if x.st == .held then (greg m e (i % 256 / 8)).toNat else 0)
  | _, _ => none

/-- Fields of a range engine's registers (Tables 12-8, 12-10). -/
def liveRge (m : Mach) (n off lo : Nat) : Option Nat := match off, lo with
  | 0x40, 0 => some (b2n (rangeOf m n).isSome)
  | 0x808, 6 => some (b2n (levelBusy m (n / 4)))
  | _, _ => none

/-- Fields of a side's flume channel group (Table 12-12). -/
def liveFcg (m : Mach) (sd off lo : Nat) : Option Nat :=
  let n (st : Nat) : Nat := ((List.range 32).filter fun c => fget m (fcBase (32 * sd + c)) R.FC_STATUS_STATE == st).length
  match off, lo with
  | 0x48, 0 => some (n 1)
  | 0x48, 8 => some (n 2)
  | _, _ => none

/-- Fields of a side's network registers (Tables 13-8, 13-10); `i` is the offset in the register's array. -/
def liveNoc (m : Mach) (sd off i lo : Nat) : Option Nat := match off, lo with
  | 0x400, 8 => some (gwHeld m sd (i / 8))
  | 0x908, 0 => some (traceOf m sd).length
  | 0x910, 0 => some (((traceOf m sd).headD []).getD (i / 8) 0)
  | _, _ => none

/-- Fields of a twin block's registers (Table 8-13). -/
def liveTwn (m : Mach) (sd off lo : Nat) : Option Nat := match off, lo with
  | 0x60, 4 => some (recsOn m sd)
  | 0x60, 32 => some (stagedOn m sd)
  | _, _ => none

/-- Fields of the loops' registers (Tables 9-8, 9-10, 9-11, 9-13); `i` is the offset in the register's array. -/
def liveLvl (m : Mach) (sd off i lo : Nat) : Option Nat :=
  let props := m.loops.props.filter fun x => x.sd == sd
  let plot := fget m (lvlBase sd + i) R.PLC_MIGT_PLOT
  match off, lo with
  | 0x50, 40 => some (min (2 ^ 24 - 1) (sinceRekey m sd))
  | 0x110, 0 => some (m.loops.hot.filter fun c => c.1 / 16384 == sd).length
  | 0x110, 16 => some props.length
  | 0x110, 24 => some (migRun m sd)
  | 0x118, lo => (props.head?).map fun x => match lo with
    | 0 => x.plot
    | 27 => x.src
    | 32 => x.dst
    | 37 => x.count
    | 53 => x.seq
    | _ => 1
  | 0x400, 30 => some (b2n (plotQuiet m sd plot))
  | 0x400, 32 => some ((List.range 8).map fun w => popc 64 (fget m (lvlBase sd + 4 * i + 8 * w) R.PLC_MIGBM_BITS)).sum
  | 0x400, 42 => some (m.tw.filter fun e =>
      e.sd == sd && e.st == .waiting && plotOf e.pln == plot && fon m (lvlBase sd + i) R.PLC_MIGT_HOLD).length
  | _, _ => none

/-- Fields of the queue registers (Table 10-11) of queue `q`. -/
def liveQueue (m : Mach) (q off lo : Nat) : Option Nat := match off, lo with
  | 0x2000, _ => some ((resultsOf m q).headD 0)
  | 0x2008, _ => some ((resultsOf m q).headD 0)
  | 0x2020, 0 => some (resultsOf m q).length
  | 0x2020, 16 => some (resRsv m q)
  | 0x2020, 32 => some (m.ports.queues.commits.filter fun k => k / 64 == q).length
  | 0x2020, 40 => some (m.ports.queues.calls.filter fun c => c.from_.queue == q && c.eng.isSome).length
  | _, _ => none

/-- Fields of a port's registers (Tables 3-11, 7-4, 10-11, 14-12). -/
def livePt (m : Mach) (p off lo : Nat) : Option Nat :=
  match off, lo with
  | 0x110, 32 => some (plotsOf m p)
  | 0x120, 16 => some (prepUsed m p)
  | 0x120, 26 => some (idsTracked m p).length
  | 0x60, 0 => some (pttUsed m p)
  | 0x60, 16 => some (pttWrites m p)
  | 0x60, 32 => some (m.ports.snps.filter fun s => s.port == p).length
  | _, _ => liveQueue m p off lo

/-- Fields of the always-on block's registers (Table 10-15, R406, R409). -/
def liveAon (m : Mach) (off lo : Nat) : Option Nat := match off, lo with
  | 0x68, 0 => some m.ports.queues.iq.length
  | 0x2200, 33 => some (m.ras.area.filter fun r => r.k == fget m aonBase R.ERR_AREMAP_CTL).length
  | 0x2400, 0 => some m.ras.pend.length
  | 0x2400, 32 => some (m.flash.trim.filter fun t => match t.rec_ with
      | .presets _ _ => false
      | .stackSettings _ _ => false
      | _ => true).length
  | _, _ => none

/-- Fields of the mailbox's registers (R459, R461, R469). -/
def liveMgt (m : Mach) (off lo : Nat) : Option Nat := match off, lo with
  | 0x40, 8 => some m.flash.svnFuse
  | 0x48, 0 => some m.flash.revoked
  | 0x70, 0 => some m.log.pend.length
  | 0x70, 16 => some m.log.held.length
  | _, _ => liveQueue m 32 off lo

/-- Records written and not yet passed by the reader (CNT_RSTAT.USED): WP - RP with MODE 0, and 0 with MODE 1. -/
def ringUsed (m : Mach) : Nat :=
  if m.col.mode then 0 else (fget m cntBase R.CNT_RPTR_WP + 2 ^ 32 - fget m cntBase R.CNT_RPTR_RP) % 2 ^ 32

/-- Fields of the collector's registers (R479, R485); `i` is the offset in the register's array. -/
def liveCnt (m : Mach) (off i lo : Nat) : Option Nat := match off, lo with
  | 0x60, 0 => some (ringUsed m)
  | 0x900, 0 => some m.col.samples.length
  | 0x910, 0 => some ((m.col.samples.headD []).getD (i / 8) 0)
  | _, _ => none

/-- The live value of a field of block `b` at offset `off`, lowest bit `lo`, where a read computes it; `i` is the offset in its array. -/
def live (m : Mach) (b : Blk) (off i lo : Nat) : Option Nat := match b.type with
  | 0x01 => liveAon m off lo
  | 0x02 => liveMgt m off lo
  | 0x03 => if b.isPort then livePt m b.inst off lo
      else if off == 0x40 && lo == 24 then some (hottest m (48 + 4 * (b.inst / 8)) 4) else none
  | 0x04 => liveCnt m off i lo
  | 0x10 => liveHs m b.inst off lo
  | 0x11 => liveRsv m (b.inst / 4) off lo
  | 0x12 => liveSe m b.inst off i lo
  | 0x13 => liveRge m b.inst off lo
  | 0x14 => if b.hdr then liveFcg m b.inst off lo else none
  | 0x15 => liveNoc m b.inst off i lo
  | 0x17 => liveTwn m b.inst off lo
  | 0x18 => liveLvl m b.inst off i lo
  | _ => none

/-- Does a read of the field give an open value: the design revision, a tile's PHY firmware version, the progress of a reintegration
step? -/
def openField (b : Blk) (off lo : Nat) : Bool :=
  (b.type == 3 && !b.isPort && off == 0x40 && lo == 8) || (b.type == 0x17 && off == 0x68 && lo == 8)

end Sys2Proof.Machine
end

