-- ==== Sys2Proof/Machine/Control.lean ====
section
/-! DEFINITION. Control accesses (chapter 2): what a write or a read of a control address does at its target, which writes are refused (R30, R31,
R506), and what each path reaches (R23 to R26). -/

namespace Sys2Proof.Machine

/-- Is `x` a code of the event table of a block type (R97, R355, R487; Tables 4-15, 5-21, 6-16, 8-15, 9-14, 10-16, 12-13, 13-11, 14-15, 19-5)? -/
def eventOk (type x : Nat) : Bool := match type with
  | 0x01 => x ≤ 4
  | 0x02 => x ≤ 3
  | 0x03 => x ≤ 0x0F
  | 0x04 => x ≤ 4
  | 0x10 => x ≤ 0x18 || (0x30 ≤ x && x ≤ 0x3F)
  | 0x11 => x ≤ 0x12 || (0x20 ≤ x && x ≤ 0x25)
  | 0x12 => x ≤ 0x0A
  | 0x13 => x ≤ 7
  | 0x14 => x ≤ 6
  | 0x15 => x ≤ 0x17
  | 0x16 => x ≤ 5
  | 0x17 => x ≤ 0x0B
  | 0x18 => x ≤ 0x0F
  | _ => false

/-- Is the value one that the field of block `b` accepts (R31)? Encodings that join several fields are checked by `comboBad`. -/
def chkOk (m : Mach) (b : Blk) (c : Chk) (x : Nat) : Bool := match c with
  | .any => true
  | .rng lo hi => lo ≤ x && x ≤ hi
  | .twin => true
  | .event => eventOk b.type x
  | .off => x != 3 && x != 7
  | .prbPort => x != 3
  | .mult4 => x % 4 == 0
  | .struct => 1 ≤ x && x ≤ 0x16 && x != 3
  | .smb => 8 ≤ x && x < 0x78
  | .cntBase => match blkAt (x * 4096) with
    | some y => y.counters && y.base == x * 4096
    | none => false
  | .sampInst => true
  | .qline => sliceIn m x == b.inst % 32

/-- A reserved combination of fields of one register that a write has left in force: its fields and its CAUSE (R31). -/
def comboBad (m : Mach) (b : Blk) (off base : Nat) : Option (List Fld × Nat) :=
  let g (f : Fld) : Nat := fget m base f
  match b.type, off with
  | 0x11, 0x40 => if g R.RSV_CTL_THR_MAX < g R.RSV_CTL_THR_MIN then some ([R.RSV_CTL_THR_MIN, R.RSV_CTL_THR_MAX], 2) else none
  | 0x01, 0x2100 => if g R.ERR_SCRUB_CEHI < g R.ERR_SCRUB_CELO then some ([R.ERR_SCRUB_CEHI, R.ERR_SCRUB_CELO], 2) else none
  | 0x01, 0x3410 => if g R.CLK_FAB_SHI < g R.CLK_FAB_SLO + 10 then some ([R.CLK_FAB_SLO, R.CLK_FAB_SHI], 2) else none
  | 0x18, 0x100 => if g R.PLC_CTL_PORT_HI ≤ g R.PLC_CTL_PORT_LO then some ([R.PLC_CTL_PORT_HI, R.PLC_CTL_PORT_LO], 2) else none
  | 0x15, 0x800 =>
    if g R.NOC_PRBCTL_RTR == 7 && g R.NOC_PRBCTL_PORT != 0 then some ([R.NOC_PRBCTL_RTR, R.NOC_PRBCTL_PORT], 2) else none
  | 0x04, 0x800 =>
    if g R.CNT_SAMPCTL_KIND == 1 && 31 < g R.CNT_SAMPCTL_INST then some ([R.CNT_SAMPCTL_KIND, R.CNT_SAMPCTL_INST], 2) else none
  | 0x12, 0x800 => if g R.SE_TWIN_BASE * 4096 % 2 ^ g R.SE_TWIN_SIZE != 0 then some ([R.SE_TWIN_BASE], 3) else none
  | _, _ => none

/-- Is the block instance locked (R34)? -/
def locked (m : Mach) (b : Blk) : Bool := b.hdr && fon m b.base hdrLock

/-- What the write of value `x` to a field leaves in it, or the CAUSE for which it is refused (Table 2-9). -/
def fldWrite (m : Mach) (b : Blk) (base : Nat) (f : Fld) (x : Nat) : Nat ⊕ Nat :=
  let old := fget m base f
  let store : Nat ⊕ Nat := if chkOk m b f.chk x then .inl x else .inr 2
  match f.acc with
  | .ro => .inl old
  | .rc => .inl old
  | .wo => if x == 0 || chkOk m b f.chk x then .inl old else .inr 2
  | .w1c => .inl (old - (old &&& x))
  | .w1s => .inl (old ||| x)
  | .rwl => if locked m b then .inr 1 else store
  | .rw => store
  | .rs => store

/-- Stores the fields of a register, and names the CAUSE of the last one refused, 0 for none. -/
def fldsWrite (b : Blk) (base v : Nat) (m : Mach) : List Fld → Nat → Mach × Nat
  | [], c => (m, c)
  | f :: fs, c => match fldWrite m b base f (bitsOf v f.lo f.w) with
    | .inl x => fldsWrite b base v (if f.acc == .ro || f.acc == .rc || f.acc == .wo then m else fset m base f x) fs c
    | .inr k => fldsWrite b base v m fs k

/-- The base at which a block's refused writes are recorded: its own, or the flume group's (R22). -/
def rejBase (b : Blk) : Nat := if b.type == 0x14 then fcgBase (sideOfAddr b.base) else b.base
where
  sideOfAddr (a : Nat) : Nat := (a - 0x1000000) / 0x800000

/-- A write of a register by its access types (R30, R31); a write refused in any part is recorded once in REJECT. -/
def regWrite (b : Blk) (r : Reg) (base v : Nat) (m : Mach) : Mach :=
  let (m1, c) := fldsWrite b base v m r.flds 0
  let (m2, c) := match comboBad m1 b r.off base with
    | some (fs, k) => (fs.foldl (fun x f => fset x base f (fget m base f)) m1, k)
    | none => (m1, c)
  if c == 0 then m2 else reject m2 (rejBase b) c (base + r.off - b.base)

/-- Does the register exist in this instance: on a port of this role (R386, R277), in local instance 0 (R134, R334)? -/
def present (m : Mach) (b : Blk) (r : Reg) : Bool :=
  let role := roleOf m b.inst
  if b.isPort then
    (match r.role with
    | .any => true
    | .host => role == 1
    | .io => role == 3
    | .mem => role == 2
    | .hostMem => role == 1 || role == 2) && (r.off < 0x1000 || role == 1)
  else if (b.type == 0x11 || b.type == 0x13) && 0x800 ≤ r.off then b.inst % 4 == 0
  else true

/-- R506: does the write act only on the Ditchrider path? -/
def ditchOnly (b : Blk) (off v : Nat) : Bool :=
  (b.hdr && off == 8 && bitOf v 1) ||
  (b.type == 1 && (off == 0x130 || (off == 0x128 && bitOf v 8) || (off == 0x48 && v % 16 == 6))) ||
  (b.type == 2 && 0x1000 ≤ off && off < 0x2000)

/-- AON_MODECTL.REQ (Table 8-16); whether the bridge is up in a reintegration is an open value. -/
def modeCtl (req : Nat) (m : Mach) : Mach := match req with
  | 0 => m
  | 1 => doEnterSpillway m
  | 2 => doLeaveSpillway m
  | 3 => doStopSideA m
  | 4 => doStopSideB m
  | 5 => doReintegrateStoppedSide (drawn m % 2 == 1) (draw m)
  | 6 => doEnterRecovery m
  | _ => reject m aonBase 2 0x48

/-- What a module-level start finds where no command names it: open values (DESIGN CHOICE, entry 69). -/
def openEnv (m : Mach) : StartEnv :=
  let d (k : Nat) : Nat := (Config.freeValue (m.free + k)).toNat
  let bit (k : Nat) : Bool := d k % 2 == 1
  { cfgsel := [(d 0 % 10001, d 1 % 10001), (d 2 % 10001, d 3 % 10001), (d 4 % 10001, d 5 % 10001), (d 6 % 10001, d 7 % 10001)]
    osc0 := bit 8, osc1 := bit 9, holdUp := d 10, aonOk := bit 11, sideOk := BitVec.ofNat 2 (d 12), portOk := BitVec.ofNat 32 (d 13)
    stkOk := BitVec.ofNat 8 (d 14), firstFail := (BitVec.ofNat 8 (d 15), BitVec.ofNat 8 (d 16), BitVec.ofNat 8 (d 17), BitVec.ofNat 6 (d 18))
    present := BitVec.ofNat 32 (d 19), perst := BitVec.ofNat 32 (d 20) }

/-- RST_CTL.REQ (Table 16-15): the module-level start that it asks for. -/
def resetCtl (req : Nat) (m : Mach) : Mach :=
  let go (f : StartEnv → Mach → Mach) : Mach := f (openEnv m) { m with free := m.free + 21 }
  match req with
  | 1 => go doOrderlyModuleWarmReset
  | 2 => go doImmediateModuleWarmReset
  | 3 => go doColdResetRequest
  | 4 => go doRecoveryExit
  | _ => m

/-- The actions of an always-on register whose fields hold `v`, after its plain fields are stored. -/
def actAon (off v : Nat) (m : Mach) : Mach :=
  if off == 0x48 then modeCtl (v % 16) m
  else if off == 0x130 then resetCtl (v % 8) m
  else if off == 0x128 then (if bitOf v 8 then doClr m else m)
  else if off == 0x2200 then
    if bitOf v 28 then
      let g (f : Fld) : Nat := fget m aonBase f
      doAreaRemap (BitVec.ofNat 3 (g R.ERR_AREMAP_CTL)).toFin (BitVec.ofNat 5 (g R.ERR_AREMAP_PC)).toFin
        (BitVec.ofNat 4 (g R.ERR_AREMAP_BANK)).toFin (BitVec.ofNat 16 (g R.ERR_AREMAP_ROW)) m
    else m
  else if off == 0x2408 then
    if bitOf v 11 then doStackRetire (BitVec.ofNat 3 (fget m aonBase R.ERR_STKRET_STACK)).toFin m else m
  else if off == 0x3100 then (if bitOf v 1 then doHold 0 m else m)
  else if off == 0x3108 then (if bitOf v 1 then doHold 1 m else m)
  else m

/-- The actions of a mailbox register. -/
def actMgt (off v : Nat) (m : Mach) : Mach :=
  if off == 0x50 then (if bitOf v 4 then doProgact m else m)
  else if off == 0x58 then (if bitOf v 0 then doKick m else m)
  else if off == 0x78 then
    if bitOf v 49 then doLogRead (BitVec.ofNat 32 v) (BitVec.ofNat 16 (bitsOf v 32 16)) (bitOf v 48) m else m
  else if off == 0x2010 then (if bitOf v 0 then resultPop m 32 else m)
  else m

/-- The actions of a port register. A write with DECLARE and READMIT both 1 declares first and then readmits, and one with PRST and RETRAIN both 1
resets first (DESIGN CHOICE, entry 96: R58 gives no order). -/
def actPt (p : Fin 32) (off v : Nat) (m : Mach) : Mach :=
  if off == 0x110 then
    let m := if bitOf v 12 then doDeclare p m else m
    if bitOf v 13 then doReadmit p m else m
  else if off == 0x50 then
    let m := if bitOf v 28 then doPrst p m else m
    if bitOf v 29 then doRetrain p m else m
  else if off == 0x90 then
    if bitOf v 25 then
      let g (f : Fld) : Nat := fget m (ptBase p) f
      doConfigurationRequest p (BitVec.ofNat 12 (g R.PT_CFGA_OFFSET)) (BitVec.ofNat 4 (g R.PT_CFGA_BE))
        (BitVec.ofNat 3 (g R.PT_CFGA_FUNC)).toFin (fon m (ptBase p) R.PT_CFGA_WRITE) m
    else m
  else if off == 0x2010 then (if bitOf v 0 then doPtResqAdv p m else m)
  else m

/-- The actions of a register of a side's block instance. -/
def actSide (b : Blk) (off v : Nat) (m : Mach) : Mach :=
  let sd2 : Fin 2 := (BitVec.ofNat 1 b.inst).toFin
  let e : Fin 32 := (BitVec.ofNat 5 (16 * b.inst + (off - 0x1000) / 256)).toFin
  let on (i : Nat) (f : Mach → Mach) (m : Mach) : Mach := if bitOf v i then f m else m
  match b.type with
  | 0x10 => if off == 0x320 then
      on 41 (doDirQuery (BitVec.ofNat 6 b.inst).toFin (BitVec.ofNat 41 (fget m b.base R.DIR_QUERY_LINE))) m else m
  | 0x11 => if off == 0x40 && !fon m b.base R.RSV_CTL_PREDEN then fset m b.base R.RSV_STATUS_THRESH 0
    else if off == 0x58 && bitOf v 26 && fget m b.base R.RSV_RETIRE_OP != 0 then
      retireGo (BitVec.ofNat 3 b.inst).toFin (fget m b.base R.RSV_RETIRE_OP) (BitVec.ofNat 5 (fget m b.base R.RSV_RETIRE_PC)).toFin
        (BitVec.ofNat 19 (fget m b.base R.RSV_RETIRE_FRAME)) m else m
  | 0x12 =>
    if off == 0x48 then on 1 (doSePsctlSwap sd2) m
    else if 0x1000 ≤ off && off < 0x2000 && off % 256 == 0 then on 49 (doEngineRelease e) (on 48 (doEngineReset e) m)
    else m
  | 0x13 => if off == 0x58 then on 0 (doRangeAbort (BitVec.ofNat 3 b.inst).toFin) m else m
  | 0x15 => if off == 0x930 then on 0 (doNocTradv sd2) m else m
  | 0x18 =>
    if off == 0x40 then on 50 (doForce sd2) m
    else if off == 0x120 then on 0 (doPop sd2) m
    else m
  | _ => m

/-- PLC_MIGT (Table 9-13): PLOT and EN as TRACKER_ENABLE writes them, then HOLD of an enabled tracker and the clearing of HOLDEXP. -/
def migtWrite (sd t v : Nat) (m : Mach) : Mach :=
  let b := lvlBase sd + 16 * t
  let m := trackerSet sd t (bitsOf v 0 27) (bitOf v 27) m
  let m := if bitOf v 27 then fset m b R.PLC_MIGT_HOLD (bitsOf v 28 1) else m
  if bitOf v 29 then fset m b R.PLC_MIGT_HOLDEXP 0 else m

/-- A write of counter registers waits for the end of the tick (R477). -/
def cntWrite (b : Blk) (r : Reg) (base off v : Nat) (m : Mach) : Mach :=
  let k := off % 0x40 / 8
  let c := cntOf m b.base k
  if off < 0x240 then
    let m := regWrite b r base v m
    cntPut m b.base k { cntOf m b.base k with wcfg := true }
  else cntPut m b.base k { c with wcount := some (bitsOf v 0 48), wovf := c.wovf || bitOf v R.CNTVAL_OVF.lo }

/-- A write of value `v` to register `r` of block `b`, which exists there and which the path may write. A write of the Ditchrider with LOCK and
UNLOCK both 1 leaves LOCK 0 (DESIGN CHOICE, entry 94: R34 gives no order of the two). -/
def regAct (b : Blk) (r : Reg) (base v : Nat) (m : Mach) : Mach :=
  let off := base + r.off - b.base
  if b.hdr && off == 8 then
    let m := if bitOf v 0 then fset m b.base hdrLock 1 else m
    if bitOf v 1 then fset m b.base hdrLock 0 else m
  else if b.counters && 0x200 ≤ off && off < 0x280 then cntWrite b r base off v m
  else match b.type with
    | 0x01 =>
      if 0x2300 ≤ off && off < 0x2400 then
        doErrPsmapWrite (BitVec.ofNat 1 (off / 0x80)).toFin (BitVec.ofNat 1 (off / 0x40)).toFin (BitVec.ofNat 3 (off / 8)).toFin
          (BitVec.ofNat 8 v) (bitOf v 8) m
      else
        let m := actAon off v (if off == 0x48 then m else regWrite b r base v m)
        if 0x440 ≤ off && off < 0x458 then fset m base R.AON_EVRT_LOG 1 else m
    | 0x02 => actMgt off v (regWrite b r base v m)
    | 0x03 =>
      if !b.isPort then regWrite b r base v m
      else
        let p : Fin 32 := (BitVec.ofNat 5 b.inst).toFin
        if 0x400 ≤ off && off < 0x800 then doPtIowinWrite p (BitVec.ofNat 6 (off / 16)).toFin (off % 16 == 8) (BitVec.ofNat 64 v) m
        else if off == 0x50 then
          let was := fget m b.base R.PT_LCTL_DIS
          let m := doPortDisable p (bitOf v 0) (fset (regWrite b r base v m) b.base R.PT_LCTL_DIS was)
          actPt p off v m
        else actPt p off v (regWrite b r base v m)
    | 0x04 =>
      if off == 0x50 && bitOf v 0 then doRingEnable (bitOf v 1) (BitVec.ofNat 5 (bitsOf v 2 5)) (BitVec.ofNat 36 (bitsOf v 12 36)) m
      else if off == 0x930 then (if bitOf v 0 then doCntSadv m else m)
      else regWrite b r base v m
    | 0x10 =>
      if off == 0x50 then doHeadgateWayenWrite (BitVec.ofNat 6 b.inst).toFin (BitVec.ofNat 16 v) m
      else if off == 0x320 && sliceIn m (bitsOf v 0 41) != b.inst % 32 then regWrite b r base v m
      else actSide b off v (regWrite b r base v m)
    | 0x13 =>
      if off == 0x800 then
        let was := fget m b.base R.RGE_CCTL_OFF
        let m := regWrite b r base v m
        if chkOk m b .off (v % 8) then offWrite (fset m b.base R.RGE_CCTL_OFF was) (b.inst / 4) (v % 8) else m
      else actSide b off v (regWrite b r base v m)
    | 0x14 =>
      if b.hdr then regWrite b r base v m
      else
        let c : Fin 64 := (BitVec.ofNat 6 b.inst).toFin
        if off == 0x18 then
          let m := if bitOf v 0 then doResume c m else m
          if bitOf v 1 then doFlumeAbort c m else m
        else regWrite b r base v m
    | 0x18 =>
      if 0x400 ≤ off && off < 0x500 then migtWrite (b.inst % 2) ((off - 0x400) / 16) v m
      else actSide b off v (regWrite b r base v m)
    | _ => actSide b off v (regWrite b r base v m)

/-- Is the write dropped because of the bank it names: the active bank, or a bank that calls still use (R255, R407)? -/
def bankShut (m : Mach) (a : Nat) : Bool :=
  match progStoreAt a with
  | some (sd, b, _) => !progOpen m sd b
  | none => 0x2300 ≤ a && a < 0x2400 && !progOpen m (a / 0x80 % 2) (a / 0x40 % 2)

/-- A control write of the 64-bit word `v` at `a`, whose target answers; `ditch`: on the Ditchrider path. -/
def ctlWrite (ditch : Bool) (a v : Nat) (m : Mach) : Mach :=
  match progStoreAt a with
  | some (sd, b, i) => if progOpen m sd b then progPut m sd b i v else m
  | none => match blkAt a with
    | none => m
    | some b =>
      let off := a - b.base
      if !ditch && ditchOnly b off v then reject m b.base 4 off
      else if b.type == 2 && 0x1000 ≤ off && off < 0x2000 then keeperSlotWrite ((off - 0x1000) / 64) (off % 64 / 8) v m
      else if b.isPort && 0x1000 ≤ off && off < 0x2000 then
        let p := b.inst
        let s := (off - 0x1000) / 64
        if !hostLink m p then m
        else if slotBusy m p s then cmdqOverrun m p s else slotWrite m p s (off % 64 / 8) .full v
      else match b.regAt a with
        | none => m
        | some (r, base) => if present m b r then regAct b r base v m else m

/-- The value of a field as a read returns it (Table 2-9); a counter's value is that of its latest snapshot (R476). -/
def fldRead (m : Mach) (b : Blk) (r : Reg) (base : Nat) (f : Fld) : Nat :=
  let off := base + r.off - b.base
  let c := cntOf m b.base (off % 0x40 / 8)
  if f.acc == .wo then 0
  else if b.counters && 0x240 ≤ off && off < 0x280 then (if f.lo == 0 then c.snap else b2n c.snapOvf)
  else (live m b r.off (base - b.base) f.lo).getD (fget m base f)

/-- The word that a read of a register returns; `x` stands for what the spec leaves open in it. -/
def regRead (m : Mach) (b : Blk) (r : Reg) (base x : Nat) : Nat :=
  if b.hdr && r.off == 0 then b.type + b.inst % 256 * 2 ^ 8 + Config.blkVer b.type % 256 * 2 ^ 16
  else
    (r.flds.map fun f =>
      (if openField b r.off f.lo then (if f.w == 7 then x % 101 else x % 2 ^ f.w) else fldRead m b r base f % 2 ^ f.w) * 2 ^ f.lo).sum

/-- Does a read of the register return an open value? -/
def regOpen (b : Blk) (r : Reg) : Bool := r.flds.any fun f => openField b r.off f.lo

/-- The RC fields of a register clear when they are read (R30). -/
def rcClear (base : Nat) (m : Mach) : List Fld → Mach
  | [] => m
  | f :: fs => rcClear base (if f.acc == .rc then fset m base f 0 else m) fs

/-- A control read of the 64-bit word at `a`, whose target answers: its value and what the read does. -/
def ctlRead (a : Nat) (m : Mach) : Nat × Mach :=
  match progStoreAt a with
  | some (sd, b, i) => (progWord m sd b (2 * i) + progWord m sd b (2 * i + 1) * 2 ^ 32, m)
  | none => match blkAt a with
    | none => (0, m)
    | some b =>
      let off := a - b.base
      if b.type == 2 && 0x1000 ≤ off && off < 0x2000 then (slotWord m 32 ((off - 0x1000) / 64) (off % 64 / 8), m)
      else if b.isPort && 0x1000 ≤ off && off < 0x2000 then (0, m)
      else match b.regAt a with
        | none => (0, m)
        | some (r, base) =>
          if !present m b r then (0, m)
          else
            let v := regRead m b r base (drawn m)
            let m := if regOpen b r then draw m else m
            let m := rcClear base m r.flds
            (v, if off == 0x2000 && b.type == 2 then resultPop m 32
                else if off == 0x2000 && b.isPort then resultPop m b.inst else m)

/-- The path of the call that runs on an engine (R23). -/
def pathOf (x : Eng) : Path := if x.keeper then .keeper else .tenant x.port

/-- R26: does an enabled window of side `sd` that grants the port and the direction hold the `n` bytes from `a`? -/
def windowed (m : Mach) (sd p a n : Nat) (write : Bool) : Bool :=
  (List.range 16).any fun w =>
    let b := seBase sd + 8 * w
    let base := fget m b R.SE_TWIN_BASE * 4096
    fon m b R.SE_TWIN_EN && fon m b (if write then R.SE_TWIN_W else R.SE_TWIN_R) && bitOf (fget m b R.SE_TWIN_PORTS) p &&
    base ≤ a && a + n ≤ base + 2 ^ fget m b R.SE_TWIN_SIZE

/-- R24: what a tenant access may not touch, whatever the windows say; `v` is the word of a write. -/
def tenantShut (a : Nat) (write : Bool) (v : Nat) : Bool :=
  (progStoreAt a).isSome ||
  match blkAt a with
  | none => false
  | some b =>
    let off := a - b.base
    (b.hdr && off < 0x18) ||
    (match b.type with
    | 0x01 => (0x2000 ≤ off && off < 0x3000) || off == 0x130 || (write && ditchOnly b off v)
    | 0x02 => 0x1000 ≤ off && off < 0x2000
    | 0x10 => off == 0x320 || off == 0x328
    | 0x12 => (0x800 ≤ off && off < 0x880) || (0x3000 ≤ off && off < 0x4000)
    | _ => false)

/-- R23: the trap that an engine's access outside its path's reach takes; `n` bytes from `a`. -/
def pathTrap (m : Mach) (sd : Nat) (p : Path) (a n : Nat) (write : Bool) (v : Nat) : Option TrapCode := match p with
  | .ditch => none
  | .keeper => if mapped a then none else some .access
  | .tenant q =>
    if !windowed m sd q a n write || tenantShut a write v then some .priv
    else if mapped a then none else some .access

end Sys2Proof.Machine
end

