-- ==== Sys2Proof/Machine/EngMem.lean ====
section
/-! DEFINITION. Loads, stores, atomics and WAITEV of the sluice engines, and their store buffers (R181 to R187, R282, R283, R287 to R289, R310,
R511). -/

namespace Sys2Proof.Machine

/-- Bytes of an `n`-byte access at byte address `a` that lie in its first line (R187). -/
def inFirst (a n : Nat) : Nat := min n (64 - a % 64)

/-- R50, for a tenant's pool access of `n` bytes at `a`: the KIND of the first line that fails, with its address (Table 3-8). -/
def tenantViol (m : Mach) (x : Eng) (a n : Nat) : Option (Nat × Nat) :=
  if x.keeper then none
  else
    let bad (b : Nat) : Option (Nat × Nat) := match regionCheck m x.port (b / 64) with
      | .line _ => none
      | .viol k => some (k, b)
    match bad a with
    | some r => some r
    | none => if n ≤ 64 - a % 64 then none else bad (a + inFirst a n)

/-- The checks of a pool access at issue (R257, R282, R283, R511), then `k`. -/
def poolChecked (e a n : Nat) (k : Mach → Mach) (m : Mach) : Mach :=
  let x := engOf m e
  if 2 ^ 48 < a + n || poolOff m then trapNow m e .access (a % 2 ^ 48)
  else match tenantViol m x a n with
    | some (kind, b) => trapNow (viol m x.port kind b) e .access b
    | none => k m

/-- The youngest store-buffer entry that overlaps `n` bytes at `a` of a space (R183). -/
def sbHit (x : Eng) (sp : Space) (a n : Nat) : Option SbEnt :=
  x.sb.reverse.find? fun s => s.space == sp && s.addr < a + n && a < s.addr + s.size

/-- R183: a load takes its bytes from the youngest overlapping entry that covers them all, waits for one that covers some, and otherwise
reads memory. -/
def forwarded (e : Nat) (sp : Space) (a n : Nat) (take : Nat → Mach → Mach) (read : Mach → Mach) (m : Mach) : Mach :=
  match sbHit (engOf m e) sp a n with
  | none => read m
  | some s =>
    if s.addr ≤ a && a + n ≤ s.addr + s.size then take (s.data / 2 ^ (8 * (a - s.addr)) % 2 ^ (8 * n)) m else m

/-- The register value of `n` bytes loaded (Table 11-6). -/
def extended (n : Nat) (signed : Bool) (v : Nat) : Word :=
  if signed then
    match n with
    | 1 => (BitVec.ofNat 8 v).signExtend 64
    | 2 => (BitVec.ofNat 16 v).signExtend 64
    | 4 => (BitVec.ofNat 32 v).signExtend 64
    | _ => BitVec.ofNat 64 v
  else BitVec.ofNat 64 v

/-- An engine's request of a line reaches its home. -/
def engReq (m : Mach) (q : Req) : Mach := { m with home := { m.home with reqQ := m.home.reqQ ++ [(homeSlice m q.pln, q.decoded m)] } }

/-- The read of a line for a load. -/
def loadReq (e pln : Nat) : Req := { op := .load, src := .load e, pln := pln, data := 0, mask := 0, poison := false }

/-- What an engine meets at the target of a control access (R39): `k` where it answers; it waits, or traps ACCESS with an event record. -/
def reached (e a : Nat) (k : Mach → Mach) (m : Mach) : Mach := match reach m a with
  | .open_ => k m
  | .hold => m
  | .dead => trapNow (noAnswer m a) e .access a

/-- A control load of the word at `a`, whose value `k` takes, once the store buffer is empty (R184, R283). -/
def ctlLoad (e a : Nat) (k : Nat → Mach → Mach) (m : Mach) : Mach :=
  match pathTrap m (engSide e) (pathOf (engOf m e)) a 8 false 0 with
  | some t => trapNow m e t a
  | none => afterStores e (reached e a fun m => let r := ctlRead a m; k r.1 r.2) m

/-- An uncorrectable scratch word is found by a load (Table 15-4): UCC. -/
def scratchBad (m : Mach) (e a : Nat) : Mach :=
  trapNow (err m { errOf 1 0x0E 0x12 (engSide e) with loc := a }) e .dataPoison a

/-- A scratch word as its check leaves it: a correction is counted and recorded (R404). -/
def scratchTake (e a n : Nat) (ck : Check) (take : Nat → Mach → Mach) (m : Mach) : Mach :=
  if ck.isBad then scratchBad m e a
  else
    let m := if ck == .good then m
      else err (fsat m (seBase (engSide e) + e % 16 * 256) R.SE_ENG_CE) { errOf 0 0x0E 0x12 (engSide e) with loc := a }
    take (scrGet m e n a) m

/-- A load of `n` bytes (R282, R283, R287, R288). `ck`: what the check of its scratch word gives. -/
def loadAt (e rd n : Nat) (signed : Bool) (ck : Check) (ea : Nat) (m : Mach) : Mach :=
  let a := ea % 2 ^ 62
  let take (v : Nat) (m : Mach) : Mach := retireRd e rd (extended n signed v) m
  match ea / 2 ^ 62 with
  | 0 => poolChecked e a n (fun m =>
      if (engOf m e).slFence && !(engOf m e).sb.isEmpty then m
      else forwarded e .pool a n take (fun m =>
        engReq (engSet m e { engOf m e with wait := .load rd n signed a none }) (loadReq e (a / 64))) m) m
  | 1 =>
    if 65536 < a + n then trapNow m e .access (a % 2 ^ 16)
    else forwarded e .scratch a n take (scratchTake e a n ck take) m
  | 2 =>
    if 2 ^ 32 ≤ a then trapNow m e (if n != 8 || a % 8 != 0 then .align else .access) (a % 2 ^ 32)
    else match pathTrap m (engSide e) (pathOf (engOf m e)) a n false 0 with
      | some .priv => trapNow m e .priv a
      | _ => if n != 8 || a % 8 != 0 then trapNow m e .align a else ctlLoad e a take m
  | _ => trapNow m e .access (eaAddr ea)

/-- EA of a load or a store (R282). -/
def eaOf (m : Mach) (e ra : Nat) (imm : BitVec 16) : Nat := (greg m e ra + imm.signExtend 64).toNat

/-- A load instruction of opcode `op`. -/
def load (e op rd ra n : Nat) (signed : Bool) (ck : Check) (imm : BitVec 16) : Mach → Mach :=
  issue e (encI op rd ra imm.toNat) fun m => loadAt e rd n signed ck (eaOf m e ra imm) m

def doLb (e : Fin 32) (rd ra : Fin 32) (imm : BitVec 16) (ck : Check) : Mach → Mach := load e 0x10 rd ra 1 true ck imm
def doLbu (e : Fin 32) (rd ra : Fin 32) (imm : BitVec 16) (ck : Check) : Mach → Mach := load e 0x11 rd ra 1 false ck imm
def doLh (e : Fin 32) (rd ra : Fin 32) (imm : BitVec 16) (ck : Check) : Mach → Mach := load e 0x12 rd ra 2 true ck imm
def doLhu (e : Fin 32) (rd ra : Fin 32) (imm : BitVec 16) (ck : Check) : Mach → Mach := load e 0x13 rd ra 2 false ck imm
def doLw (e : Fin 32) (rd ra : Fin 32) (imm : BitVec 16) (ck : Check) : Mach → Mach := load e 0x14 rd ra 4 true ck imm
def doLwu (e : Fin 32) (rd ra : Fin 32) (imm : BitVec 16) (ck : Check) : Mach → Mach := load e 0x15 rd ra 4 false ck imm
def doLd (e : Fin 32) (rd ra : Fin 32) (imm : BitVec 16) (ck : Check) : Mach → Mach := load e 0x16 rd ra 8 false ck imm

/-- LDX (R282, R287): EA = ra + rb. -/
def doLdx (e : Fin 32) (rd ra rb : Fin 32) (ck : Check) : Mach → Mach :=
  issue e (encA 0x17 rd ra rb 0) fun m => loadAt e rd 8 false ck (greg m e ra + greg m e rb).toNat m

/-- A store enters the store buffer, as two entries where it crosses a line (R181, R187); it stalls while they do not fit. -/
def sbPut (e : Nat) (sp : Space) (a n v : Nat) (m : Mach) : Mach :=
  let x := engOf m e
  let k := if sp == .pool then inFirst a n else n
  let one : SbEnt := { space := sp, addr := a, size := k, data := v % 2 ^ (8 * k), pc := x.pc, sent := false, ack := false, orphan := false }
  let more : List SbEnt :=
    if k < n then [{ one with addr := a + k, size := n - k, data := v / 2 ^ (8 * k) % 2 ^ (8 * (n - k)) }] else []
  if 16 < x.sb.length + 1 + more.length then m
  else retire (engSet m e { x with sb := x.sb ++ one :: more }) e

/-- A store instruction of opcode `op` (R282, R283, R287, R511): the checks of issue, then the store buffer. -/
def store (e op rs ra n : Nat) (imm : BitVec 16) : Mach → Mach :=
  issue e (encI op rs ra imm.toNat) fun m =>
    let ea := eaOf m e ra imm
    let a := ea % 2 ^ 62
    let v := (greg m e rs).toNat % 2 ^ (8 * n)
    match ea / 2 ^ 62 with
    | 0 => poolChecked e a n (sbPut e .pool a n v) m
    | 1 => if 65536 < a + n then trapNow m e .access (a % 2 ^ 16) else sbPut e .scratch a n v m
    | 2 =>
      if n != 8 || a % 8 != 0 then trapNow m e .align (a % 2 ^ 32)
      else if 2 ^ 32 ≤ a then trapNow m e .access (a % 2 ^ 32)
      else sbPut e .control a n v m
    | _ => trapNow m e .access (eaAddr ea)

def doSb (e : Fin 32) (rs ra : Fin 32) (imm : BitVec 16) : Mach → Mach := store e 0x18 rs ra 1 imm
def doSh (e : Fin 32) (rs ra : Fin 32) (imm : BitVec 16) : Mach → Mach := store e 0x19 rs ra 2 imm
def doSw (e : Fin 32) (rs ra : Fin 32) (imm : BitVec 16) : Mach → Mach := store e 0x1A rs ra 4 imm
def doSd (e : Fin 32) (rs ra : Fin 32) (imm : BitVec 16) : Mach → Mach := store e 0x1B rs ra 8 imm

/-- An atomic (R289): `fn`[3:0] selects the operation; 8 bytes when `wide`, else 4. -/
def amo (e rd ra rb : Nat) (wide : Bool) (code : Nat) (op : Amo) : Mach → Mach :=
  issue e (encA 0x1C rd ra rb (code + (if wide then 3 else 2) * 16)) fun m =>
    let ea := (greg m e ra).toNat
    let n := if wide then 8 else 4
    if ea % n != 0 then trapNow m e .align (eaAddr ea)
    else if ea / 2 ^ 62 != 0 then trapNow m e .access (eaAddr ea)
    else poolChecked e ea n (afterStores e fun m =>
      let q : Req := { op := .atomic op (ea % 64) n (greg m e rb).toNat (greg m e rd).toNat, src := .amo e, pln := ea / 64, data := 0
                       mask := maskAt (ea % 64) n, poison := false }
      engReq (engSet m e { engOf m e with wait := .amo rd n (ea % 64) ea }) q) m

def doAmoAdd (e : Fin 32) (rd ra rb : Fin 32) (wide : Bool) : Mach → Mach := amo e rd ra rb wide 0 .add
def doAmoAnd (e : Fin 32) (rd ra rb : Fin 32) (wide : Bool) : Mach → Mach := amo e rd ra rb wide 1 .and
def doAmoOr (e : Fin 32) (rd ra rb : Fin 32) (wide : Bool) : Mach → Mach := amo e rd ra rb wide 2 .or
def doAmoXor (e : Fin 32) (rd ra rb : Fin 32) (wide : Bool) : Mach → Mach := amo e rd ra rb wide 3 .xor
def doAmoSwap (e : Fin 32) (rd ra rb : Fin 32) (wide : Bool) : Mach → Mach := amo e rd ra rb wide 4 .swap
def doAmoCas (e : Fin 32) (rd ra rb : Fin 32) (wide : Bool) : Mach → Mach := amo e rd ra rb wide 5 .cas
def doAmoMinu (e : Fin 32) (rd ra rb : Fin 32) (wide : Bool) : Mach → Mach := amo e rd ra rb wide 6 .minu
def doAmoMaxu (e : Fin 32) (rd ra rb : Fin 32) (wide : Bool) : Mach → Mach := amo e rd ra rb wide 7 .maxu

/-- A store is refused when it is sent (R511): younger stores are discarded; the trap waits for the next instruction boundary, and replaces the
trap of a younger instruction that drains. -/
def storeRefuse (m : Mach) (e : Nat) (s : SbEnt) (code : TrapCode) : Mach :=
  let x := engOf m e
  engSet m e { x with sb := [], slFence := false, trap := some ⟨code, s.pc, s.addr⟩ }

/-- The head entry of a store buffer. -/
def sbHead (m : Mach) (e : Nat) : Option SbEnt := (engOf m e).sb.head?

/-- Writes the head entry. -/
def sbHeadPut (m : Mach) (e : Nat) (s : SbEnt) : Mach :=
  let x := engOf m e
  engSet m e { x with sb := s :: x.sb.drop 1 }

/-- Frees the head entry; a FENCE.SL ends with the last one (R185). -/
def sbPop (m : Mach) (e : Nat) : Mach :=
  let x := engOf m e
  engSet m e { x with sb := x.sb.drop 1, slFence := x.slFence && !(x.sb.drop 1).isEmpty }

/-- An uncorrectable store-buffer word (Table 15-4): the store goes out marked poisoned, UCC, and DATA_POISON at the next boundary. -/
def storeBad (m : Mach) (e : Nat) (s : SbEnt) : Mach :=
  let m := err m { errOf 1 0x0E 0x12 (engSide e) with poisoned := true, addr := if s.space == .pool then s.addr / 64 * 64 else 2 ^ 64 - 1 }
  let x := engOf m e
  engSet m e { x with trap := some (x.trap.getD ⟨.dataPoison, s.pc, s.addr⟩) }

/-- The head store goes to its target (R181, R39, R511); `v` is its data. A control store that its path may not make traps with the code of
Table 2-6, PRIV or ACCESS (DEDUCED, entry 106: R511 says ACCESS of refused stores in general, R24 and R506 say PRIV of these). -/
def storeGo (m : Mach) (e : Nat) (s : SbEnt) (v : Nat) (poison : Bool) : Mach :=
  match s.space with
  | .scratch => scrPut e s.size s.addr v (sbPop m e)
  | .pool =>
    let q : Req := { op := .store, src := .store e, pln := s.addr / 64, data := lineAt (s.addr % 64) s.size v
                     mask := maskAt (s.addr % 64) s.size, poison := poison }
    engReq (sbHeadPut m e { s with sent := true }) q
  | .control =>
    match pathTrap m (engSide e) (pathOf (engOf m e)) s.addr 8 true v with
    | some t => storeRefuse m e s t
    | none => match reach m s.addr with
      | .hold => m
      | .dead => storeRefuse (noAnswer m s.addr) e s .access
      | .open_ =>
        if bankShut m s.addr then storeRefuse m e s .access
        else ctlWrite false s.addr v (sbHeadPut m e { s with sent := true, ack := true })

/-- STORE_BUFFER_SEND (R181). `ck`: what the check of the entry's data word gives (R402); an uncorrectable word's value is open where its
target holds no poison. -/
def doStoreBufferSend (e : Fin 32) (ck : Check) (m : Mach) : Mach :=
  match sbHead m e with
  | none => m
  | some s =>
    if s.sent then m
    else match ck with
      | .good => storeGo m e s s.data false
      | .corrected _ _ =>
        let m := err (fsat m (seBase (engSide e) + e.val % 16 * 256) R.SE_ENG_CE) (errOf 0 0x0E 0x12 (engSide e))
        storeGo m e s s.data false
      | _ => if s.space == .pool then storeGo (storeBad m e s) e s s.data true else
          storeGo (storeBad (draw m) e s) e s (drawn m % 2 ^ (8 * s.size)) true

/-- Is the store a write of 1 to PWR_SLEEP.HOLD of a cluster that wakes or drains? It completes when the cluster is On (R438). -/
def holdPends (m : Mach) (s : SbEnt) : Bool :=
  let waits (a d : Nat) : Bool := s.addr == a && (domSt m d == 1 || domSt m d == 3)
  s.space == .control && bitOf s.data 1 && (waits 0x3100 10 || waits 0x3108 16)

/-- STORE_COMPLETE (R181): the head store has completed at its target and its entry frees. -/
def doStoreComplete (e : Fin 32) (m : Mach) : Mach :=
  match sbHead m e with
  | some s => if s.sent && s.ack && !holdPends m s then sbPop m e else m
  | none => m

/-- The next read that a crossing load needs, or its end (R187, R288). -/
def loadDone (m : Mach) (e : Nat) (d : Done) : Mach :=
  let x := engOf m e
  if x.ghosts.contains d.pln then engSet m e { x with ghosts := dropFirst (fun l => l == d.pln) x.ghosts }
  else match x.wait with
    | .load rd n signed a got =>
      match d.how, d.img with
      | .refused, _ => trapNow m e .access a
      | .ok, some img =>
        if img.poison then trapNow m e .dataPoison a
        else match got with
          | none =>
            let k := inFirst a n
            let v := bytesAt img.data (a % 64) k
            if k == n then retireRd e rd (extended n signed v) (engSet m e { x with wait := .none })
            else engReq (engSet m e { x with wait := .load rd n signed a (some (k, v)) }) (loadReq e (a / 64 + 1))
          | some (k, v) =>
            retireRd e rd (extended n signed (v + bytesAt img.data 0 (n - k) * 2 ^ (8 * k))) (engSet m e { x with wait := .none })
      | _, _ => trapNow m e .dataPoison a
    | _ => m

/-- An atomic's old value comes back (R289). -/
def amoDone (m : Mach) (e : Nat) (d : Done) : Mach :=
  let x := engOf m e
  if x.ghosts.contains d.pln then engSet m e { x with ghosts := dropFirst (fun l => l == d.pln) x.ghosts }
  else match x.wait with
    | .amo rd _ _ a => match d.how with
      | .refused => trapNow m e .access a
      | .lost => trapNow m e .dataPoison a
      | .ok =>
        if 2 ^ 64 ≤ d.result then trapNow m e .dataPoison a
        else retireRd e rd (BitVec.ofNat 64 d.result) (engSet m e { x with wait := .none })
    | _ => m

/-- A pool store has completed at its region's completion point, or was refused because its plot has no storage (R181, R511). -/
def storeDone (m : Mach) (e : Nat) (d : Done) : Mach :=
  match sbHead m e with
  | some s =>
    if !(s.sent && s.space == .pool && s.addr / 64 == d.pln) then m
    else if d.how == .refused && !s.orphan then storeRefuse m e s .access
    else sbHeadPut m e { s with ack := true }
  | none => m

/-- Does WAITEV's condition hold (R310)? -/
def waitHolds (cond : Nat) (v rb rd : Word) : Bool := match cond with
  | 0 => v &&& rb != 0
  | 1 => v &&& rb == 0
  | _ => v &&& rb == rd &&& rb

/-- One read of WAITEV's register (R310): the instruction ends when the condition holds, and waits otherwise. -/
def waitRead (e rd ra rb cond : Nat) (m : Mach) : Mach :=
  let ea := (greg m e ra).toNat
  let a := ea % 2 ^ 62
  if ea / 2 ^ 62 == 2 && a < 2 ^ 32 && pathTrap m (engSide e) (pathOf (engOf m e)) a 8 false 0 == some .priv then trapNow m e .priv a
  else if ea % 8 != 0 then trapNow m e .align (eaAddr ea)
  else if ea / 2 ^ 62 != 2 || 2 ^ 32 ≤ a then trapNow m e .access (eaAddr ea)
  else ctlLoad e a (fun v m =>
    if waitHolds cond (BitVec.ofNat 64 v) (greg m e rb) (greg m e rd) then retireRd e rd (BitVec.ofNat 64 v) m else engWaits m e) m

/-- WAITEV (R310): its first read. -/
def doWaitev (e : Fin 32) (rd ra rb : Fin 32) (cond : Fin 3) (m : Mach) : Mach :=
  if (engOf m e).st == .waiting then m else issue e (encA 0x3F rd ra rb (4 + cond.val * 256)) (waitRead e rd ra rb cond) m

/-- Is the word a WAITEV with a condition that R310 gives? -/
def isWaitev (w : Nat) : Bool := w / 2 ^ 26 == 0x3F && w % 256 == 4 && bitsOf w 8 3 ≤ 2

/-- WAITEV_POLL (R310): a later read, 32 fabric cycles after the one before. -/
def doWaitevPoll (e : Fin 32) (m : Mach) : Mach :=
  let x := engOf m e
  let w := progWord m (engSide e) x.bank x.pc
  if x.st != .waiting then m
  else issueIf e isWaitev (waitRead e (bitsOf w 21 5) (bitsOf w 16 5) (bitsOf w 11 5) (bitsOf w 8 3)) m

end Sys2Proof.Machine
end

