-- ==== Sys2Proof/Machine/CtlCmd.lean ====
section
/-! DEFINITION. Control accesses as commands: register writes and reads, LOCK and UNLOCK, timeouts, the keeper queue (R30, R34, R39, R468, R469,
R506). Addresses are in units of eight bytes. -/

namespace Sys2Proof.Machine

/-- A control write on the Ditchrider path (R23, R39). -/
def ditchWrite (a v : Nat) (m : Mach) : Mach :=
  if !mapped a then busError a (noAnswer m a)
  else match reach m a with
    | .open_ => if bankShut m a then busError a m else ctlWrite true a v m
    | .hold => { m with net := { m.net with ctl := m.net.ctl ++ [⟨a, v, .write⟩] } }
    | .dead => busError a (noAnswer m a)

/-- The value read, to the Ditchrider or to the endpoint that asked. -/
def ditchValue (k : CtlKind) (a : Nat) (v : Option Nat) (m : Mach) : Mach := match k, v with
  | .message, some x => send m (.mgmt "Read register" [x])
  | .message, none => send m (.mgmt "Read register error" [])
  | _, _ => send m (.ctl a v)

/-- A control read on the Ditchrider path. -/
def ditchRead (k : CtlKind) (a : Nat) (m : Mach) : Mach :=
  if !mapped a then ditchValue k a none (noAnswer m a)
  else match reach m a with
    | .open_ => let r := ctlRead a m; ditchValue k a (some r.1) r.2
    | .hold => { m with net := { m.net with ctl := m.net.ctl ++ [⟨a, 0, k⟩] } }
    | .dead => ditchValue k a none (noAnswer m a)

/-- The control accesses held at gateways whose domain is now On or Off go on (Table 2-11). -/
def ctlGo (m : Mach) : Mach :=
  let stays (c : CtlWr) : Bool := reach m c.addr == .hold
  let go := m.net.ctl.filter fun c => !stays c
  let m := { m with net := { m.net with ctl := m.net.ctl.filter stays } }
  go.foldl (fun m c => if c.kind == .write then ditchWrite c.addr c.val m else ditchRead c.kind c.addr m) m

/-- A control write of `v` at `a` by the running Ditchrider, or by an engine whose head store it is. -/
def writeBy (w : By) (a v : Nat) (m : Mach) : Mach := match w with
  | .ditch => if ditchRuns m then ditchWrite a v m else m
  | .engine e => match sbHead m e with
    | some s => if s.space == .control && s.addr == a && s.data == v then doStoreBufferSend e .good m else m
    | none => m

/-- The half of a word that a host access covers, in its place (R27). -/
def halfWord (h : Half) (v : Nat) : Nat := match h with
  | .full => v % 2 ^ 64
  | .low => v % 2 ^ 32
  | .high => v % 2 ^ 32 * 2 ^ 32

/-- The bytes that a host read of a word returns. -/
def halfRead (h : Half) (v : Nat) : Nat := match h with
  | .full => v % 2 ^ 64
  | .low => v % 2 ^ 32
  | .high => v / 2 ^ 32 % 2 ^ 32

/-- A write of the word at vector `v`'s MSI-X entry that carries the mask bit (R364); the message's address and data are the host's own. -/
def vectorWrite (p : Fin 32) (v : Fin 3) (h : Half) (x : Nat) (m : Mach) : Mach :=
  if h == .low then m
  else if bitOf (halfWord h x) 32 then cfgSet m p { cfgOf m p with vmask := setBit (cfgOf m p).vmask v true }
  else doMsixUnmask p (some v) m

/-- A write of a host at offset `o` of its port's BAR (Tables 2-6, 2-8). The mailbox behind offset 0 takes its commands as rows of their own. -/
def barWrite (p : Fin 32) (h : Half) (o x : Nat) (m : Mach) : Mach :=
  if !hostLink m p || o < 0x1000 then m
  else if o < 0x2000 then
    let s := (o - 0x1000) / 64
    if slotBusy m p s then cmdqOverrun m p s else slotWrite m p s (o % 64 / 8) h x
  else if o < 0x3000 then ctlWrite false (ptBase p + o) (halfWord h x) m
  else if o < 0x3030 && o % 16 == 8 then vectorWrite p ⟨(o - 0x3000) / 16 % 3, Nat.mod_lt _ (by decide)⟩ h x m
  else m

/-- The word at an offset of a port's BAR that a host read meets, apart from PT_RESQ_POP, and what stands after; bits that Table 2-8's chapters do not
place are open values. -/
def barWord (p : Fin 32) (o : Nat) (m : Mach) : Nat × Mach :=
  let c := cfgOf m p
  if o < 0x1000 then (drawn m, draw m)
  else if o < 0x2000 then (0, m)
  else if o < 0x3000 then ctlRead (ptBase p + o) m
  else if o < 0x3030 then
    if o % 16 == 8 then (drawn m % 2 ^ 32 + bitsOf c.vmask ((o - 0x3000) / 16) 1 * 2 ^ 32, draw m) else (drawn m, draw m)
  else if o == 0x3800 then (c.vpend % 8, m)
  else (0, m)

/-- A read of a host at offset `o` of its port's BAR. -/
def barRead (p : Fin 32) (h : Half) (o : Nat) (m : Mach) : Mach :=
  if !hostLink m p then m
  else if o == 0x2000 then doPtResqPop p h .good m
  else if 0x10000 ≤ o then m
  else
    let r := barWord p o m
    send r.2 (.barRead p (halfRead h r.1))

/-- Keys of the W1C fields of the register at `a` that a command has cleared. -/
def clearedAt (old m : Mach) (a : Nat) : List Nat := match (blkAt a).bind fun b => b.regAt a with
  | none => []
  | some (r, base) =>
    (r.flds.filter fun f => f.acc == .w1c && fon old base f && fget m base f == 0).map fun f => fkey base f

/-- REGISTER_WRITE (R30, R31): the 64-bit word `v` is written at address 8 `a`; a host's `a` counts from its BAR. `same`: the write falls in the
cycle in which the next command acts on the register (R32). -/
def doRegisterWrite (w : Writer) (a : BitVec 29) (v : Word) (same : Bool) (m : Mach) : Mach :=
  let a := 8 * a.toNat
  let (at_, m') := match w with
    | .ditch => (a, writeBy .ditch a v.toNat m)
    | .engine e => (a, writeBy (.engine e) a v.toNat m)
    | .host p h => (ptBase p + a, if a < 0x10000 then barWrite p h a v.toNat m else m)
  if same then { m' with clash := (clearedAt m m' at_).map fun k => (k, true) } else m'

/-- RC_REGISTER_READ (R30): address 8 `a` is read; a host's `a` counts from its BAR. -/
def doRcRegisterRead (w : Reader) (a : BitVec 29) (m : Mach) : Mach := match w with
  | .ditch => if ditchRuns m then ditchRead .read (8 * a.toNat) m else m
  | .host p h => barRead p h (8 * a.toNat) m

/-- LOCK (R34): 1 is written to LOCK of the block instance with base 4096 `b`. -/
def doLock (w : By) (b : BitVec 20) : Mach → Mach := writeBy w (4096 * b.toNat + 8) 1

/-- UNLOCK (R34, R506). -/
def doUnlock (w : By) (b : BitVec 20) : Mach → Mach := writeBy w (4096 * b.toNat + 8) 2

/-- KEEPER_QUEUE_HEADER_WRITE (R469): the header of slot `s` of the keeper queue is written. -/
def doKeeperQueueHeaderWrite (w : By) (s : Fin 64) (v : Word) : Mach → Mach := writeBy w (0x11000 + 64 * s.val) v.toNat

/-- Address of the control load that an engine's program word makes, if it makes one. -/
def ctlLoadAddr (m : Mach) (e : Nat) : Option Nat :=
  let x := engOf m e
  let w := progWord m (engSide e) x.bank x.pc
  let ra := (greg m e (bitsOf w 16 5))
  let ea : Option Word :=
    if w / 2 ^ 26 == 0x16 then some (ra + (BitVec.ofNat 16 w).signExtend 64)
    else if w / 2 ^ 26 == 0x17 && w % 2 ^ 11 == 0 then some (ra + greg m e (bitsOf w 11 5))
    else if isWaitev w then some ra else none
  match ea with
  | some a => if a.toNat / 2 ^ 62 == 2 && a.toNat % 8 == 0 && a.toNat % 2 ^ 62 < 2 ^ 32 then some (a.toNat % 2 ^ 62) else none
  | none => none

/-- CONTROL_ACCESS_TIMEOUT (R39): a target outside PD0 that is On gives no answer to the access of address 8 `a` within 10 µs. -/
def doControlAccessTimeout (w : By) (a : BitVec 29) (m : Mach) : Mach :=
  let a := 8 * a.toNat
  if !mapped a || domOf a == 0 || reach m a != .open_ then m
  else match w with
    | .ditch => if ditchRuns m then busError a (noAnswer m a) else m
    | .engine e =>
      let x := engOf m e
      let q := pathOf x
      match sbHead m e with
      | some s =>
        if s.space == .control && s.addr == a && !s.sent && (pathTrap m (engSide e) q a 8 true s.data).isNone then
          storeRefuse (noAnswer m a) e s .timeout
        else m
      | none =>
        if (x.st == .running || x.st == .waiting) && x.wait == .none && x.trap.isNone && ctlLoadAddr m e == some a &&
          (pathTrap m (engSide e) q a 8 false 0).isNone then trapNow (noAnswer m a) e .timeout a
        else m

/-- WRITE_LOCKED_FIELD (vendor message 0x04, R468): UNLOCK, the register at address 8 `a` and LOCK, as one step. -/
def doWriteLockedField (i : Fin 2) (a : BitVec 29) (v : Word) : Mach → Mach :=
  keeperMsg "Write locked field" i fun m =>
    let a := 8 * a.toNat
    match blkAt a with
    | none => send (busError a (noAnswer m a)) (.mgmt "Write locked field error" [])
    | some b => match reach m a with
      | .dead => send (busError a (noAnswer m a)) (.mgmt "Write locked field error" [])
      | _ =>
        let h := rejBase b + 8
        send (ditchWrite h 1 (ditchWrite a v.toNat (ditchWrite h 2 m))) (.mgmt "Write locked field" [])

/-- READ_REGISTER (vendor message 0x06, R468): one aligned 64-bit control read. -/
def doReadRegister (i : Fin 2) (a : BitVec 29) (m : Mach) : Mach := if mgmtOn m i then ditchRead .message (8 * a.toNat) m else m

/-! ## Commands that are the write of one register -/

/-- The word that the write of a register carries when it gives the fields listed and leaves the others as they stand: stored fields keep their value,
and fields that act or clear when 1 is written are 0. -/
def wordWith (m : Mach) (a : Nat) (fs : List (Fld × Nat)) : Nat :=
  match (blkAt a).bind fun b => b.regAt a with
  | none => 0
  | some (r, base) =>
    let one (f : Fld) : Nat := match fs.find? fun x => x.1 == f with
      | some x => x.2
      | none => if f.acc == .rw || f.acc == .rwl || f.acc == .rs then fget m base f else 0
    (r.flds.map fun f => one f % 2 ^ f.w * 2 ^ f.lo).sum

/-- A command that is the write of fields `fs` of the register at `a`: it meets the state of the register's domain first (R39). -/
def gatedReg (a : Nat) (fs : Mach → List (Fld × Nat)) (body : Mach → Mach) (m : Mach) : Mach := gated a (wordWith m a (fs m)) body m

/-- RGE_CCTL.OFF with one level's bit changed. -/
def offWord (m : Mach) (sd : Nat) (l : Level) (b : Bool) : Nat := setBit (fget m (cctlBase sd) R.RGE_CCTL_OFF) (levelBit l) b

end Sys2Proof.Machine
end

