-- ==== Sys2Proof/Machine/Settle.lean ====
section
/-! DEFINITION. What follows a command inside the same step: completions reach their requesters, retirements and side faults take effect, held work
goes on, watermarks follow their values (R36, R37) and event notices are routed (R269 to R273, R510). -/

namespace Sys2Proof.Machine

/-! ## Completions -/

/-- A completion reaches the partner, engine or unit that asked. -/
def deliver (m : Mach) (d : Done) : Mach := match d.src with
  | .host p id => hostDone m p id d
  | .io p id => ioDone m p id d
  | .load e => loadDone m e d
  | .store e => storeDone m e d
  | .amo e => amoDone m e d
  | .flume c k => flumeDone m c k d
  | .range n _ =>
    let st := match d.how with
      | .ok => 0
      | .refused => 4
      | .lost => 3
    { m with eng := { m.eng with rangeQ := m.eng.rangeQ ++ [⟨n, d.pln, st⟩] } }
  | .ext p e => extDone m p e
  | .regw i => regwDone m i
  | .ring i k => ringDone m i k
  | .none => m

/-- RESULT of a frame retirement reaches the engine that waits for it (R305). -/
def fretReach (m : Mach) (x : Nat × Nat) : Mach := engSet m x.1 { engOf m x.1 with fret := some x.2 }

/-- Does a tracked location lie in what a retirement took out of use? -/
def retiredLoc (k : Nat) (v : FrameMove) (st key : Nat) : Bool :=
  let i := key / 8 % 2 ^ 31
  st == 0x05 && ctlOf (key / 8 / 2 ^ 31) i == k && idxPc i == v.pc &&
    (if v.op == 3 then idxBank i == v.frame % 16 else idxFrame i == v.frame)

/-- A completed retirement waits for its trim record, and its locations leave the tracker (R401, R409). -/
def retireReach (m : Mach) (x : Nat × FrameMove) : Mach :=
  let (k, v) := x
  let r : TrimRec := if v.op == 3 then .bank k v.pc (v.frame % 16) else .frame k v.pc v.frame (v.op == 2)
  let track := m.ras.track.filter fun t => !retiredLoc k v t.1 t.2.2.1
  let hard := m.ras.hard.filter fun t => !retiredLoc k v t.1 t.2.2
  { m with ras := { m.ras with pend := m.ras.pend ++ [r], track := track, hard := hard } }

/-- A side fails inside a step (R204, R394); what of its messages still arrives is an open value. -/
def failReach (m : Mach) (x : Nat × Nat) : Mach := failSide (draw m) x.1 x.2 (drawn m)

/-- Sides that fail in one arbiter decision: where both do, the side not preferred is fenced and no other (R205). -/
def failsOf (m : Mach) (fl : List (Nat × Nat)) : List (Nat × Nat) :=
  if (fl.any fun x => x.1 == 0) && (fl.any fun x => x.1 == 1) then fl.filter fun x => x.1 == notPreferred m else fl

/-- Hands out what the command has left so far; `n` rounds, since a completion may lead to others. -/
def reachAll : Nat → Mach → Mach
  | 0, m => m
  | n + 1, m =>
    if m.done.isEmpty && m.twDone.isEmpty && m.fretDone.isEmpty && m.retireQ.isEmpty && m.fails.isEmpty then m
    else
      let (tw, d, fr, rt, fl) := (m.twDone, m.done, m.fretDone, m.retireQ, m.fails)
      let m := { m with twDone := [], done := [], fretDone := [], retireQ := [], fails := [] }
      let m := tw.foldl homeDone m
      let m := d.foldl deliver m
      let m := fr.foldl fretReach m
      let m := rt.foldl retireReach m
      reachAll n ((failsOf m fl).foldl failReach m)

/-! ## Injected errors and correction counts (R401, R411) -/

/-- Keys whose cells two maps hold differently. -/
def keysChanged {α : Type} [DecidableEq α] (a b : List (Nat × α)) : List Nat :=
  ((a.map fun c => c.1) ++ (b.map fun c => c.1)).filter fun k => decide (mget a k ≠ mget b k)

/-- Entries of the set with key `s` of the directory store or of a mirror. -/
def setCells (l : List (Nat × DirEnt)) (s : Nat) : List (Nat × DirEnt) := l.filter fun c => c.1 / 8 == s

/-- Has the command written the location that a structure code and a key name (as `locName` gives them)? -/
def locWritten (old new : Mach) (st inst key : Nat) : Bool := match st with
  | 0x01 => decide ((mget old.home.hg key).map (·.img) ≠ (mget new.home.hg key).map (·.img)) && (mget new.home.hg key).isSome
  | 0x02 => decide ((mget old.home.hg key).map (fun x => (x.tag, x.d, x.pf)) ≠ (mget new.home.hg key).map fun x => (x.tag, x.d, x.pf))
  | 0x04 => decide (mget old.home.dc key ≠ mget new.home.dc key)
  | 0x05 => decide (mget old.rsv.slots key ≠ mget new.rsv.slots key)
  | 0x06 =>
    if key < 2 ^ 27 then decide (setCells old.home.dir key ≠ setCells new.home.dir key)
    else
      let s := (1 - (key / 2 ^ 26 - 2)) * 2 ^ 26 + key % 2 ^ 26
      decide (setCells old.home.mirror s ≠ setCells new.home.mirror s)
  | 0x07 => decide (mget old.twin.recs key ≠ mget new.twin.recs key)
  | 0x08 =>
    let at_ (m : Mach) : Option Staged := m.twin.staged.find? fun s => s.sd == inst && s.pln == key
    decide (at_ old ≠ at_ new)
  | 0x09 => decide (sget 0 old.comp.plc key ≠ sget 0 new.comp.plc key)
  | 0x0D => decide (mget old.eng.prog key ≠ mget new.eng.prog key)
  | _ => false

/-- Locations of a structure instance that the command has written. -/
def locsWritten (old new : Mach) (st inst : Nat) : List Nat :=
  let on (k : Nat) : Bool := locWritten old new st inst k
  match st with
  | 0x01 => (keysChanged old.home.hg new.home.hg).filter fun k => k / 49152 == inst && on k
  | 0x02 => (keysChanged old.home.hg new.home.hg).filter fun k => k / 49152 == inst && on k
  | 0x04 => (keysChanged old.home.dc new.home.dc).filter fun k => k / 8192 == inst
  | 0x05 => (keysChanged old.rsv.slots new.rsv.slots).filter fun k => ctlOf (k / 2 ^ 31) (k % 2 ^ 31) == inst
  | 0x06 =>
    let st := (keysChanged old.home.dir new.home.dir).map fun k => k / 8
    let mi := (keysChanged old.home.mirror new.home.mirror).map fun k => (3 - k / 8 / 2 ^ 26) * 2 ^ 26 + k / 8 % 2 ^ 26
    (st ++ mi).filter fun k => 4 * (k / 2 ^ 26 % 2) + dirStack (k % 2 ^ 26) == inst
  | 0x07 => (keysChanged old.twin.recs new.twin.recs).filter fun k => 4 * (k / (20132608 * 10)) + k / 10 % 20132608 % 128 / 32 == inst
  | 0x08 => ((old.twin.staged ++ new.twin.staged).filter fun s => s.sd == inst && on s.pln).map fun s => s.pln
  | 0x09 => (keysChanged old.comp.plc new.comp.plc).filter fun k => 4 * (k / 2 ^ 27) + plcStack (k % 2 ^ 27) == inst
  | 0x0D => (keysChanged old.eng.prog new.eng.prog).filter fun k => k < 2 ^ 20 && k / 2 ^ 19 == inst
  | _ => []

/-- A write of a location clears its correction count and what was injected there; a hard fault stays (R401). -/
def writesClear (old m : Mach) : Mach :=
  if m.ras.track.isEmpty && m.ras.injected.isEmpty then m
  else
    let track := m.ras.track.filter fun t =>
      !old.ras.track.contains t || m.ras.hard.contains (t.1, t.2.1, t.2.2.1) || !locWritten old m t.1 t.2.1 (if t.1 == 0x02 then t.2.2.1 else t.2.2.1 / 8)
    let inj := m.ras.injected.filter fun t => !locWritten old m t.1 t.2.1 t.2.2.1
    { m with ras := { m.ras with track := track, injected := inj } }

/-- R411: an injection that stood armed corrupts the next word written to its structure instance; of the locations that one command writes, the one
with the lowest key. -/
def injectGo (old m : Mach) : Mach :=
  if !fon m aonBase R.ERR_INJ_ARM || !fon old aonBase R.ERR_INJ_ARM then m
  else
    let st := fget m aonBase R.ERR_INJ_STRUCT
    let inst := fget m aonBase R.ERR_INJ_INST
    match locsWritten old m st inst with
    | [] => m
    | k :: ks =>
      let key := ks.foldl min k
      let x := (st, inst, key, fget m aonBase R.ERR_INJ_NBITS)
      fset { m with ras := { m.ras with injected := m.ras.injected ++ [x] } } aonBase R.ERR_INJ_ARM 0

/-! ## Watermarks (R36 to R38) -/

/-- Is the measured value at or past the mark (R36)? -/
def Wm.now (m : Mach) (w : Wm) : Bool :=
  let k := fget m w.base w.mark
  match w with
  | .mshr h => k ≤ mshrUsed m h
  | .wb h => k ≤ wbUsed m h
  | .dwq h => k ≤ (m.home.dwq.filter fun q => q.1 == h).length
  | .tail sd => k ≤ twUsed m sd
  | .dirtyHi sd => k * 16384 ≤ fget m (twnBase sd) R.TWN_GAUGE_LINES
  | .dirtyLo sd => fget m (twnBase sd) R.TWN_GAUGE_LINES ≤ k * 16384
  | .ptt p => k ≤ pttUsed m p
  | .ring => k * 2 ^ m.col.sizelog ≤ 64 * ringUsed m
  | .samples => k ≤ m.col.samples.length

/-- Has the mark been crossed since `old`: LEVEL goes from 0 to 1 in a block whose clock ran, and not because its reset ended? -/
def wmCrosses (old m : Mach) (w : Wm) : Bool :=
  fget old w.base w.level == 0 && Wm.now m w && domSt old (domOf w.base) == 2 && !m.markStart.contains w.addr

/-- A crossing sets CROSSED and counts; it sends a notice when CROSSED was 0 (R37). -/
def wmCross (old m : Mach) (w : Wm) : Mach :=
  if !wmCrosses old m w then m
  else
    let was := stands m w.base w.crossed
    let m := finc (fset m w.base w.crossed 1) w.base w.crossings
    if was then m else notice m 2 w.source.2 (w.source.1 + w.mark.off / 8 * 2 ^ 8)

/-- Does the side's background cleaner run whatever its marks say: forced (R203), while Spillway is being entered (R219), or to bring the survivor's
count below the high mark for the twin scan (R218)? -/
def cleanerMust (m : Mach) (sd : Nat) : Bool :=
  let b := twnBase sd
  sideUp m sd && (fon m b R.TWN_GAUGE_FORCED || (m.twin.entering && (opMode m == 1 || opMode m == 2)) ||
    (match m.twin.returning with
      | some r => sd != r && opMode m != 3 && fget m b R.TWN_REINT_STEP == 5 && fget m (twnBase r) R.TWN_LOG_STATE != 3 &&
        fget m b R.TWN_HIMARK_MARK * 16384 ≤ fget m b R.TWN_GAUGE_LINES
      | none => false))

/-- R201: while CLEANEN is 1, a crossing of the high mark starts the side's background cleaner; it stops when the low mark's LEVEL becomes 1. In
Single-side mode with SSPOL 1 it runs until LINES is 0 (R212). -/
def cleanerRule (old : Mach) (sd : Nat) (m : Mach) : Mach :=
  let b := twnBase sd
  let put (v : Bool) (m : Mach) : Mach := fset m b R.TWN_GAUGE_CLEANING (b2n v)
  if cleanerMust m sd then put true m
  else if sideUp m sd && !bothUp m && fon m b R.TWN_CTL_SSPOL then put (fget m b R.TWN_GAUGE_LINES != 0) m
  else
    let m := if wmCrosses old m (.dirtyHi sd) && fon m b R.TWN_CTL_CLEANEN then put true m else m
    if wmCrosses old m (.dirtyLo sd) then put false m else m

/-- While Spillway is being entered, each dirty Headgate way with nothing of its line open or on its way is written to its sled and becomes clean
(Table 8-14). -/
def spillClean (m : Mach) : Mach :=
  if !m.twin.entering || !(opMode m == 1 || opMode m == 2) then m
  else (m.home.hg.filter fun c => c.2.d).foldl (fun m c =>
    let h := c.1 / 49152
    let pln := plnOf m (h / 32) (hgLineOf (c.1 / 16 % 3072) c.2.tag)
    let busy := lineOpen m h pln || repairHeld m pln || (m.tw.any fun e => e.pln == pln) || (m.twIn.any fun e => e.pln == pln) ||
      m.rsv.cleanWr.any fun w => w.pln == pln
    match busy, heldImg m h pln with
    | false, some img => twQueue m (h / 32) pln img fullMask [.cleanWay h img] .other
    | _, _ => m) m

/-- LVL_STATUS of a side follows its controllers: suspended, with no rekey, while one is not Serving (R245). -/
def lvlFollow (sd : Nat) (m : Mach) : Mach :=
  let b := lvlBase sd
  let s := fget m b R.LVL_STATUS_STATE
  if allServing m sd then (if s == 3 then fset m b R.LVL_STATUS_STATE 0 else m)
  else if s == 3 then m
  else
    let m := fset (fset (fset m b R.LVL_STATUS_STATE 3) b R.LVL_STATUS_PTR 0) b R.LVL_STATUS_RUNWIN 0
    { m with rsv := { m.rsv with rekPos := mdrop m.rsv.rekPos fun k => k / 128 == sd } }

/-- LEVEL of every watermark shows its comparison. -/
def setLevels (m : Mach) : Mach := Wm.all.foldl (fun m w => fset m w.base w.level (b2n (Wm.now m w))) m

/-! ## Level events (R97, R475) -/

/-- Is an install of slice `h` held under R74? -/
def installHeld (m : Mach) (h : Nat) (r : Mshr) : Bool := match r.buf with
  | none => false
  | some img =>
    r.h == h && r.phase == .full && r.reqs.isEmpty && r.waiter.isNone && (hgFind m h r.pln).isNone && r.alloc && (effAttr m h r.pln).hga &&
      !(r.pf && (img.poison || r.take)) && (installWay m h r.pln).isNone

/-- Does an offered line wait at controller `k` for the tailwater buffer (R124)? -/
def offerHeld (m : Mach) (k : Nat) (o : Offer) : Bool :=
  ctlOf o.sd (installAt m o.sd (lineL o.pln)).1 == k && match offerLine m o.sd o.pln o.img o.dirty o.pf with
    | .wait => true
    | .done _ _ => false

/-- Does the head descriptor of a queue wait for an idle engine of side `sd` (R258)? -/
def headWaits (m : Mach) (sd : Nat) (f : CallFrom) : Bool := match headOf m f with
  | some d => decideHead m f d false == .noEngine sd
  | none => false

/-- Does a call of side `sd` wait in POST for a result entry (R268)? -/
def postWaits (m : Mach) (sd : Nat) : Bool :=
  (List.range 16).any fun i =>
    let x := engOf m (16 * sd + i)
    x.st == .waiting && isPost (progWord m sd x.bank x.pc)

/-- Is the event one of kind Count that Table 10-16 counts by cycles? -/
def byCycle (m : Mach) (base code : Nat) : Bool := match blkAt base with
  | some b => b.type == 0x12 && code == 0x07 && postWaits m b.inst
  | none => false

/-- The value of a Level event of the block at `base` (event tables of every chapter). What only timing shows is taken as false. -/
def eventLevel (m : Mach) (base code : Nat) : Bool := match blkAt base with
  | none => false
  | some b =>
    let i := b.inst
    match b.type, code with
    | 0x10, 0x08 => m.home.mwq.any fun q => q.1 == i
    | 0x10, 0x09 => 1024 ≤ mshrUsed m i + 16
    | 0x10, 0x0A => wbUsed m i == 64
    | 0x10, 0x15 => m.home.mshrs.any (installHeld m i)
    | 0x10, 0x18 => creditsShut m i
    | 0x10, 0x36 => m.home.dwq.any fun q => q.1 == i
    | 0x11, 0x12 => m.rsv.offers.any (offerHeld m i)
    | 0x11, 0x25 => i % 4 == 0 && twUsed m (i / 4) == 512
    | 0x12, 0x04 => (List.range 16).all fun e => (engOf m (16 * i + e)).st != .idle
    | 0x12, 0x09 => !(readyOf m i).isEmpty || headWaits m i .internal || headWaits m i .keeper ||
      (List.range 32).any fun p => roleOf m p == 1 && headWaits m i (.host p)
    | 0x13, 0x07 => levelBusy m (i / 4)
    | 0x14, 0x05 => (List.range 32).any fun c => fget m (fcBase (32 * i + c)) R.FC_STATUS_STATE == 2
    | 0x17, 0x09 => fon m base R.TWN_GAUGE_FORCED
    | 0x16, 0x03 => (List.range 32).any fun s => creditWait m (32 * i + s)
    | 0x17, 0x0A => (List.range 32).any fun s => creditWait m (32 * i + s)
    | 0x18, 0x03 => rekeying m i
    | 0x18, 0x0D => (List.range 16).any fun t => fon m (base + 16 * t) R.PLC_MIGT_HOLD
    | 0x03, 0x08 => !credits m i
    | 0x03, 0x09 => (m.ports.grants.filter fun g => g.port == i).length == 256
    | 0x01, 0x03 => m.boot.alertLow
    | _, _ => false

/-- A counter of a Level event: with EDGE 1 it counts each rise, where a setting that has just come into force takes the event's value (R477); with
EDGE 0 it counts the cycles in which the event is true, which the end of the tick adds. -/
def edges (old m : Mach) : Mach :=
  m.cnts.foldl (fun m c =>
    let base := c.1 / 8
    let v := eventLevel m base c.2.event
    if !c.2.en || cntHeld m base then m
    else if !c.2.edge || byCycle m base c.2.event then
      if v || byCycle m base c.2.event then cntPut m base (c.1 % 8) { c.2 with seen := true } else m
    else
      let o := cntOf old base (c.1 % 8)
      let same := o.edge && o.en && o.event == c.2.event
      let c' := { c.2 with level := v }
      cntPut m base (c.1 % 8) (if v && same && !o.level then c'.add 1 else c')) m

/-! ## Event notices (R269 to R273, R510) -/

/-- Block type code that the record of a notice names as its source, from its class and its VALUE (Table 10-17). -/
def eventType (cls val : Nat) : Nat := match cls with
  | 2 => bitsOf val 16 8
  | 3 => 3
  | 4 => 3
  | 5 => 0x18
  | 6 => 0x18
  | 7 => 3
  | 8 => bitsOf val 24 8
  | 9 => bitsOf val 24 8
  | 0x0A => if bitOf val 16 then bitsOf val 32 8 else 1
  | 0x0B => 0x12
  | 0x0C => if bitsOf val 16 2 == 1 then 3 else if bitsOf val 16 2 == 2 then 0x11 else 1
  | 0x0D => if bitsOf val 8 8 == 0xFF then 2 else 3
  | 0x0E => 3
  | 0x10 => 0
  | _ => 1

/-- The event word in the result queue of a HOST port, and vector 1 (R271); between link down and port start the word is discarded (R265). -/
def routePort (val : Nat) (m : Mach) (p : Nat) : Mach :=
  if roleOf m p != 1 then m
  else if !linkUp m p then fsat m (ptBase p) R.PT_QERR_LOST_CNT
  else
    let m := if 0 < resFree m p then resPut m p (resWord 0x7F 0 val)
      else fsat (fset m (ptBase p) R.PT_QSTAT_EVLOST 1) (ptBase p) R.PT_QERR_LOST_CNT
    msix m p 1

/-- The destinations of a notice but the internal queue. -/
def routeOut (e : Event) (m : Mach) : Mach :=
  let b := aonBase + 8 * e.cls
  let m := count m aonBase 1
  let ports := fget m b R.AON_EVRT_PORTS
  let m := ((List.range 32).filter fun p => bitOf ports p).foldl (routePort e.val) m
  let m := if fon m b R.AON_EVRT_ALERT then
      fset m aonBase R.AON_ALERT_PEND (setBit (fget m aonBase R.AON_ALERT_PEND) e.cls true) else m
  if !e.logged && (fon m b R.AON_EVRT_LOG || (8 ≤ e.cls && e.cls ≤ 10)) then
    eventRecord m 2 e.cls (eventType e.cls e.val) (bitsOf e.val 8 8) 0 [e.val]
  else m

/-- A notice goes to every destination of its class; one that finds the internal queue full is counted and raises class 0x0F (R272). -/
def routeEvent (m : Mach) (e : Event) : Mach :=
  let m := routeOut e m
  if !fon m (aonBase + 8 * e.cls) R.AON_EVRT_IQ then m
  else
    let q := m.ports.queues
    if q.iq.length < 64 then
      let d : IqDesc := { entry := 0x11, tag := 0xFFFF, args := [resWord 0x7F 0 e.val, 0, 0, 0, 0, 0, 0] }
      count { m with ports := { m.ports with queues := { q with iq := q.iq ++ [d] } } } aonBase 2
    else routeOut ⟨0x0F, 0x0F + e.cls * 2 ^ 16, false⟩ (fsat m aonBase R.AON_IQSTAT_DROPS)

/-- Routes the notices that the command has raised. -/
def routeAll (m : Mach) : Mach :=
  let es := m.events
  es.foldl routeEvent { m with events := [] }

/-- ALERT# is low while any PEND bit is 1 (R273). -/
def alertPin (old m : Mach) : Mach :=
  let low := fget m aonBase R.AON_ALERT_PEND != 0
  let m := { m with boot := { m.boot with alertLow := low } }
  if low == old.boot.alertLow then m else send m (.alert low)

/-! ## The step's end -/

/-- Work that a command may have set free: flume operations that end, held sled requests, proposals, the keeper queue's results, a program
activation, control accesses held at gateways. -/
def goOn (m : Mach) : Mach := reachAll 8 (ctlGo (progGo (keeperResults (postProps (snpsGo (sledsGo (sendHeld (flumesStop (spillClean (reachAll 8 m))))))))))

/-- What follows a command that has led from `old` to `m`. -/
def settle (old m : Mach) : Mach :=
  let m := goOn m
  let m := injectGo old (writesClear old m)
  let m := lvlFollow 1 (lvlFollow 0 (cleanerRule old 1 (cleanerRule old 0 m)))
  let m := Wm.all.foldl (wmCross old) m
  let m := alertPin old (routeAll m)
  let m := platformEvents (edges old m)
  setLevels { m with markStart := [], clash := (m.clash.filter fun c => c.2).map fun c => (c.1, false) }

end Sys2Proof.Machine
end

