-- ==== Sys2Proof/Machine/State.lean ====
section
/-! DEFINITION. The state: the module and the commands that wait for it, and why a step could stop. -/

namespace Sys2Proof.Machine

/-- The module and its commands. `pending` is the model's own: the commands that wait, first in, first out; `m` is everything that the spec gives the
module. -/
structure State where
  pending : List Instr
  m : Mach
deriving DecidableEq, Repr

/-- Reasons to stop with a fault. There is none: the spec gives every command its effect, and an error of the module is a change of its state. -/
inductive Fault where
deriving DecidableEq, Repr

/-- Reasons to refuse a command. -/
inductive Refusal where
  /-- The command has no meaning yet. No arm of `exec` raises it. Safe: the run stops. -/
  | notModelled (mnemonic : String)
deriving DecidableEq, Repr

/-- The module before any power reaches it: every register at the value of its Reset column, the low mark of each dirty gauge at or past its empty
gauge (R36), everything else empty, and no command waiting. -/
def State.reset : State :=
  { pending := []
    m := { Mach.reset with regs := [((0x10E0000 + R.TWN_LOMARK_LEVEL.off) * 8 + R.TWN_LOMARK_LEVEL.lo, 1),
                                    ((0x18E0000 + R.TWN_LOMARK_LEVEL.off) * 8 + R.TWN_LOMARK_LEVEL.lo, 1)] } }

end Sys2Proof.Machine
end

