-- ==== Sys2Proof/Machine/Act.lean ====
section
/-! DEFINITION. The one form that every command's meaning takes: its own effect, then what follows it in the same step. -/

namespace Sys2Proof.Machine

/-- The next state after effect `f`: the queue of commands stands as it is. -/
def act (s : State) (f : Mach → Mach) : Host.Outcome State Fault Refusal := .next { s with m := settle s.m (f s.m) }

end Sys2Proof.Machine
end

