-- ==== Sys2Proof/Machine/ExecCnt.lean ====
section
/-! DEFINITION. The commands of counters and the collector (chapter 19): what each does to the module, and what follows in the same step. -/

namespace Sys2Proof.Machine

/-- COUNTER_TICK (R476). Each tick snapshots every block's counters, applies pending counter writes and writes ring records. -/
def execCounterTick (s : State) : Host.Outcome State Fault Refusal := act s doCounterTick

/-- RING_RECORD_COMPLETE (R479). A ring record's writes reach their completion point and WP advances. -/
def execRingRecordComplete (s : State) : Host.Outcome State Fault Refusal := act s doRingRecordComplete

/-- RING_ENABLE (R479). Writing CNT_RCTL.EN from 0 to 1 applies BASE, SIZELOG and MODE and sets WP and RP to 0. -/
def execRingEnable (mode : Bool) (sizelog : BitVec 5) (base : BitVec 36) (s : State) : Host.Outcome State Fault Refusal :=
  act s (gatedReg (cntBase + 0x50) (fun _ => [(R.CNT_RCTL_EN, 1), (R.CNT_RCTL_MODE, b2n mode), (R.CNT_RCTL_SIZELOG, sizelog.toNat), (R.CNT_RCTL_BASE, base.toNat)]) (doRingEnable mode sizelog base))

/-- SAMPLE_TAKEN (R483). A source's count reaches 2^INTLOG; it records a sample with skid, stored or dropped when the buffer is full. -/
def execSampleTaken (j : Fin 16) (inst : Fin 64) (port : Fin 32) (addr : BitVec 48) (outcome : Fin 8) (lat : BitVec 16) (twUsed : BitVec 10) (s : State) : Host.Outcome State Fault Refusal :=
  act s (doSampleTaken j inst port addr outcome lat twUsed)

/-- CNT_SADV (R485). Writing CNT_SADV removes the oldest sample. -/
def execCntSadv (s : State) : Host.Outcome State Fault Refusal := act s (gatedReg (cntBase + 0x930) (fun _ => [(R.CNT_SADV_ADV, 1)]) doCntSadv)

end Sys2Proof.Machine
end

