-- ==== Sys2Proof/Machine/ExecCtl.lean ====
section
/-! DEFINITION. The commands of control accesses (chapter 2): what each does to the module, and what follows in the same step. -/

namespace Sys2Proof.Machine

/-- REGISTER_WRITE (R30). A control write to a register without a row of its own stores fields by access type, refusing locked or reserved values
under R31. -/
def execRegisterWrite (w : WriteAcc) (a : BitVec 29) (v : Word) (s : State) : Host.Outcome State Fault Refusal :=
  act s (doRegisterWrite w.who a v w.same)

/-- RC_REGISTER_READ (R30). A read of an RC register returns its value and clears the bits returned, set winning under R32. -/
def execRcRegisterRead (a : ReadAcc) (s : State) : Host.Outcome State Fault Refusal := act s (doRcRegisterRead a.who a.a)

/-- LOCK (R34). Writing 1 to a block's LOCK makes every RWL field of the instance ignore writes. -/
def execLock (w : By) (b : BitVec 20) (s : State) : Host.Outcome State Fault Refusal := act s (doLock w b)

/-- UNLOCK (R506). Writing UNLOCK from the Ditchrider clears LOCK; from another path it is refused with CAUSE 4. -/
def execUnlock (w : By) (b : BitVec 20) (s : State) : Host.Outcome State Fault Refusal := act s (doUnlock w b)

/-- CONTROL_ACCESS_TIMEOUT (R39). A control target gives no answer within 10 µs; the access is abandoned, trapping TIMEOUT or giving a bus error. -/
def execControlAccessTimeout (w : By) (a : BitVec 29) (s : State) : Host.Outcome State Fault Refusal := act s (doControlAccessTimeout w a)

/-- WRITE_LOCKED_FIELD (R468). Vendor message 0x04 writes UNLOCK, one RWL register and LOCK as one step. -/
def execWriteLockedField (i : Fin 2) (a : BitVec 29) (v : Word) (s : State) : Host.Outcome State Fault Refusal := act s (doWriteLockedField i a v)

/-- READ_REGISTER (R468). Vendor message 0x06 performs one aligned control read; SEC_ registers read 0. -/
def execReadRegister (i : Fin 2) (a : BitVec 29) (s : State) : Host.Outcome State Fault Refusal := act s (doReadRegister i a)

/-- KEEPER_QUEUE_HEADER_WRITE (R469). A Ditchrider header write commits a keeper-queue descriptor; other paths are refused with CAUSE 4. -/
def execKeeperQueueHeaderWrite (w : By) (slot : Fin 64) (v : Word) (s : State) : Host.Outcome State Fault Refusal :=
  act s (doKeeperQueueHeaderWrite w slot v)

end Sys2Proof.Machine
end

