-- ==== Sys2Proof/Machine/ExecEng.lean ====
section
/-! DEFINITION. The commands of sluice engines: dispatch, control flow and arithmetic (chapters 10 and 11): what each does to the module, and what follows in the same step. -/

namespace Sys2Proof.Machine

/-- DESCRIPTOR_DISPATCH (R258). The dispatcher takes a queue's head descriptor once room, engine and order allow, refusing it or handing it to the
chosen side. -/
def execDescriptorDispatch (ck : Check) (s : State) : Host.Outcome State Fault Refusal := act s (doDescriptorDispatch ck)

/-- CALL_START (R247). An engine loads g1 to g8, clears scratch for a tenant call and starts at the entry's PC. -/
def execCallStart (e : Fin 32) (ue : Bool) (ce : CallCe) (s : State) : Host.Outcome State Fault Refusal := act s (doCallStart e ue ce.ready ce.record)

/-- CALL_TIME_LIMIT (R252). A call reaches its time limit and traps TIMEOUT at its next instruction or step boundary. -/
def execCallTimeLimit (e : Fin 32) (s : State) : Host.Outcome State Fault Refusal := act s (doCallTimeLimit e)

/-- POST_WAIT_EXPIRY (R268). A POST waits POSTWAIT for a result entry; the result is dropped, RESLOST set and class 0x0D raised. -/
def execPostWaitExpiry (e : Fin 32) (s : State) : Host.Outcome State Fault Refusal := act s (doPostWaitExpiry e)

/-- TRAP_DRAIN_COMPLETE (R251). A trapped engine's store buffer has drained; the trap status posts and the engine becomes Idle or Held. -/
def execTrapDrainComplete (e : Fin 32) (s : State) : Host.Outcome State Fault Refusal := act s (doTrapDrainComplete e)

/-- ENGINE_RESET (R251). Writing SE_ENG.RST resets the engine; a running call ends with ENGRESET. -/
def execEngineReset (e : Fin 32) (s : State) : Host.Outcome State Fault Refusal :=
  act s (gatedReg (seBase (e / 16) + 0x1000 + 256 * (e % 16)) (fun _ => [(R.SE_ENG_RST, 1)]) (doEngineReset e))

/-- ENGINE_RELEASE (R251). Writing SE_ENG.RELEASE returns a Held engine to Idle. -/
def execEngineRelease (e : Fin 32) (s : State) : Host.Outcome State Fault Refusal :=
  act s (gatedReg (seBase (e / 16) + 0x1000 + 256 * (e % 16)) (fun _ => [(R.SE_ENG_RELEASE, 1)]) (doEngineRelease e))

/-- SE_PSCTL_SWAP (R256). Writing SE_PSCTL.SWAP makes the inactive bank active for calls dispatched afterwards. -/
def execSePsctlSwap (sd : Fin 2) (s : State) : Host.Outcome State Fault Refusal :=
  act s (gatedReg (seBase sd + 0x48) (fun _ => [(R.SE_PSCTL_SWAP, 1)]) (doSePsctlSwap sd))

/-- PROGRAM_STORE_WRITE (R255). A control write to the program store reaches only the inactive bank while OLDBUSY is 0, and is dropped otherwise. -/
def execProgramStoreWrite (sd : Fin 2) (b : Fin 2) (i : Fin 131072) (v : Word) (s : State) : Host.Outcome State Fault Refusal :=
  act s (gated (sideBase sd + 0x400000 + 0x100000 * b + 8 * i) v.toNat (doProgramStoreWrite sd b i v))

/-- ADD (R285). ALU fn 0x000: rd = ra + rb. -/
def execAdd (e : Fin 32) (rd ra rb : Fin 32) (s : State) : Host.Outcome State Fault Refusal := act s (doAdd e rd ra rb)

/-- SUB (R285). ALU fn 0x001: rd = ra − rb. -/
def execSub (e : Fin 32) (rd ra rb : Fin 32) (s : State) : Host.Outcome State Fault Refusal := act s (doSub e rd ra rb)

/-- AND (R285). ALU fn 0x002: rd = ra AND rb. -/
def execAnd_ (e : Fin 32) (rd ra rb : Fin 32) (s : State) : Host.Outcome State Fault Refusal := act s (doAnd e rd ra rb)

/-- OR (R285). ALU fn 0x003: rd = ra OR rb. -/
def execOr_ (e : Fin 32) (rd ra rb : Fin 32) (s : State) : Host.Outcome State Fault Refusal := act s (doOr e rd ra rb)

/-- XOR (R285). ALU fn 0x004: rd = ra XOR rb. -/
def execXor_ (e : Fin 32) (rd ra rb : Fin 32) (s : State) : Host.Outcome State Fault Refusal := act s (doXor e rd ra rb)

/-- ANDN (R285). ALU fn 0x005: rd = ra AND NOT rb. -/
def execAndn (e : Fin 32) (rd ra rb : Fin 32) (s : State) : Host.Outcome State Fault Refusal := act s (doAndn e rd ra rb)

/-- SLL (R285). ALU fn 0x006: logical left shift by rb[5:0]. -/
def execSll (e : Fin 32) (rd ra rb : Fin 32) (s : State) : Host.Outcome State Fault Refusal := act s (doSll e rd ra rb)

/-- SRL (R285). ALU fn 0x007: logical right shift by rb[5:0]. -/
def execSrl (e : Fin 32) (rd ra rb : Fin 32) (s : State) : Host.Outcome State Fault Refusal := act s (doSrl e rd ra rb)

/-- SRA (R285). ALU fn 0x008: arithmetic right shift by rb[5:0]. -/
def execSra (e : Fin 32) (rd ra rb : Fin 32) (s : State) : Host.Outcome State Fault Refusal := act s (doSra e rd ra rb)

/-- ROTL (R285). ALU fn 0x009: rotate left by rb[5:0]. -/
def execRotl (e : Fin 32) (rd ra rb : Fin 32) (s : State) : Host.Outcome State Fault Refusal := act s (doRotl e rd ra rb)

/-- SEQ (R285). ALU fn 0x00A: rd = 1 if ra equals rb. -/
def execSeq (e : Fin 32) (rd ra rb : Fin 32) (s : State) : Host.Outcome State Fault Refusal := act s (doSeq e rd ra rb)

/-- SNE (R285). ALU fn 0x00B: rd = 1 if ra differs from rb. -/
def execSne (e : Fin 32) (rd ra rb : Fin 32) (s : State) : Host.Outcome State Fault Refusal := act s (doSne e rd ra rb)

/-- SLT (R285). ALU fn 0x00C: rd = 1 if ra < rb signed. -/
def execSlt (e : Fin 32) (rd ra rb : Fin 32) (s : State) : Host.Outcome State Fault Refusal := act s (doSlt e rd ra rb)

/-- SLTU (R285). ALU fn 0x00D: rd = 1 if ra < rb unsigned. -/
def execSltu (e : Fin 32) (rd ra rb : Fin 32) (s : State) : Host.Outcome State Fault Refusal := act s (doSltu e rd ra rb)

/-- MIN (R285). ALU fn 0x00E: signed minimum. -/
def execMin_ (e : Fin 32) (rd ra rb : Fin 32) (s : State) : Host.Outcome State Fault Refusal := act s (doMin e rd ra rb)

/-- MAX (R285). ALU fn 0x00F: signed maximum. -/
def execMax_ (e : Fin 32) (rd ra rb : Fin 32) (s : State) : Host.Outcome State Fault Refusal := act s (doMax e rd ra rb)

/-- MINU (R285). ALU fn 0x010: unsigned minimum. -/
def execMinu (e : Fin 32) (rd ra rb : Fin 32) (s : State) : Host.Outcome State Fault Refusal := act s (doMinu e rd ra rb)

/-- MAXU (R285). ALU fn 0x011: unsigned maximum. -/
def execMaxu (e : Fin 32) (rd ra rb : Fin 32) (s : State) : Host.Outcome State Fault Refusal := act s (doMaxu e rd ra rb)

/-- MUL (R285). ALU fn 0x012: low 64 bits of ra × rb. -/
def execMul (e : Fin 32) (rd ra rb : Fin 32) (s : State) : Host.Outcome State Fault Refusal := act s (doMul e rd ra rb)

/-- MULHU (R285). ALU fn 0x013: high 64 bits of the unsigned product. -/
def execMulhu (e : Fin 32) (rd ra rb : Fin 32) (s : State) : Host.Outcome State Fault Refusal := act s (doMulhu e rd ra rb)

/-- DIVU (R285). ALU fn 0x014: unsigned quotient, all ones for division by 0. -/
def execDivu (e : Fin 32) (rd ra rb : Fin 32) (s : State) : Host.Outcome State Fault Refusal := act s (doDivu e rd ra rb)

/-- REMU (R285). ALU fn 0x015: unsigned remainder, ra for division by 0. -/
def execRemu (e : Fin 32) (rd ra rb : Fin 32) (s : State) : Host.Outcome State Fault Refusal := act s (doRemu e rd ra rb)

/-- POPC (R285). ALU fn 0x016: number of ones in ra. -/
def execPopc (e : Fin 32) (rd ra : Fin 32) (s : State) : Host.Outcome State Fault Refusal := act s (doPopc e rd ra)

/-- CLZ (R285). ALU fn 0x017: leading zeros of ra. -/
def execClz (e : Fin 32) (rd ra : Fin 32) (s : State) : Host.Outcome State Fault Refusal := act s (doClz e rd ra)

/-- CTZ (R285). ALU fn 0x018: trailing zeros of ra. -/
def execCtz (e : Fin 32) (rd ra : Fin 32) (s : State) : Host.Outcome State Fault Refusal := act s (doCtz e rd ra)

/-- PAR (R285). ALU fn 0x019: parity of ra. -/
def execPar (e : Fin 32) (rd ra : Fin 32) (s : State) : Host.Outcome State Fault Refusal := act s (doPar e rd ra)

/-- ADDI (R286). rd = ra + sext(imm). -/
def execAddi (e : Fin 32) (rd ra : Fin 32) (imm : BitVec 16) (s : State) : Host.Outcome State Fault Refusal := act s (doAddi e rd ra imm)

/-- ANDI (R286). rd = ra AND zext(imm). -/
def execAndi (e : Fin 32) (rd ra : Fin 32) (imm : BitVec 16) (s : State) : Host.Outcome State Fault Refusal := act s (doAndi e rd ra imm)

/-- ORI (R286). rd = ra OR zext(imm). -/
def execOri (e : Fin 32) (rd ra : Fin 32) (imm : BitVec 16) (s : State) : Host.Outcome State Fault Refusal := act s (doOri e rd ra imm)

/-- XORI (R286). rd = ra XOR zext(imm). -/
def execXori (e : Fin 32) (rd ra : Fin 32) (imm : BitVec 16) (s : State) : Host.Outcome State Fault Refusal := act s (doXori e rd ra imm)

/-- SLLI (R286). rd = ra shifted left by imm[5:0]. -/
def execSlli (e : Fin 32) (rd ra : Fin 32) (sh : Fin 64) (s : State) : Host.Outcome State Fault Refusal := act s (doSlli e rd ra sh)

/-- SRLI (R286). rd = ra logically shifted right by imm[5:0]. -/
def execSrli (e : Fin 32) (rd ra : Fin 32) (sh : Fin 64) (s : State) : Host.Outcome State Fault Refusal := act s (doSrli e rd ra sh)

/-- SRAI (R286). rd = ra arithmetically shifted right by imm[5:0]. -/
def execSrai (e : Fin 32) (rd ra : Fin 32) (sh : Fin 64) (s : State) : Host.Outcome State Fault Refusal := act s (doSrai e rd ra sh)

/-- LUI (R286). rd = zext(imm) << 16. -/
def execLui (e : Fin 32) (rd : Fin 32) (imm : BitVec 16) (s : State) : Host.Outcome State Fault Refusal := act s (doLui e rd imm)

/-- ORS (R286). rd = ra OR (zext(imm) << 32). -/
def execOrs (e : Fin 32) (rd ra : Fin 32) (imm : BitVec 16) (s : State) : Host.Outcome State Fault Refusal := act s (doOrs e rd ra imm)

/-- SLTI (R286). rd = 1 if ra < sext(imm) signed. -/
def execSlti (e : Fin 32) (rd ra : Fin 32) (imm : BitVec 16) (s : State) : Host.Outcome State Fault Refusal := act s (doSlti e rd ra imm)

/-- SLTIU (R286). rd = 1 if ra < sext(imm) unsigned. -/
def execSltiu (e : Fin 32) (rd ra : Fin 32) (imm : BitVec 16) (s : State) : Host.Outcome State Fault Refusal := act s (doSltiu e rd ra imm)

/-- SEQI (R286). rd = 1 if ra equals sext(imm). -/
def execSeqi (e : Fin 32) (rd ra : Fin 32) (imm : BitVec 16) (s : State) : Host.Outcome State Fault Refusal := act s (doSeqi e rd ra imm)

/-- EXT (R286). rd = a bit field of ra given by lo and width. -/
def execExt (e : Fin 32) (rd ra : Fin 32) (lo wm1 : Fin 64) (s : State) : Host.Outcome State Fault Refusal := act s (doExt e rd ra lo wm1)

/-- INS (R286). Inserts the low width bits of ra into rd at lo. -/
def execIns (e : Fin 32) (rd ra : Fin 32) (lo wm1 : Fin 64) (s : State) : Host.Outcome State Fault Refusal := act s (doIns e rd ra lo wm1)

/-- ORT (R286). rd = ra OR (zext(imm) << 48). -/
def execOrt (e : Fin 32) (rd ra : Fin 32) (imm : BitVec 16) (s : State) : Host.Outcome State Fault Refusal := act s (doOrt e rd ra imm)

/-- BEQ (R290). Branches when ra equals rb. -/
def execBeq (e : Fin 32) (ra rb : Fin 32) (off : BitVec 16) (s : State) : Host.Outcome State Fault Refusal := act s (doBeq e ra rb off)

/-- BNE (R290). Branches when ra differs from rb. -/
def execBne (e : Fin 32) (ra rb : Fin 32) (off : BitVec 16) (s : State) : Host.Outcome State Fault Refusal := act s (doBne e ra rb off)

/-- BLT (R290). Branches when ra < rb signed. -/
def execBlt (e : Fin 32) (ra rb : Fin 32) (off : BitVec 16) (s : State) : Host.Outcome State Fault Refusal := act s (doBlt e ra rb off)

/-- BGE (R290). Branches when ra >= rb signed. -/
def execBge (e : Fin 32) (ra rb : Fin 32) (off : BitVec 16) (s : State) : Host.Outcome State Fault Refusal := act s (doBge e ra rb off)

/-- BLTU (R290). Branches when ra < rb unsigned. -/
def execBltu (e : Fin 32) (ra rb : Fin 32) (off : BitVec 16) (s : State) : Host.Outcome State Fault Refusal := act s (doBltu e ra rb off)

/-- BGEU (R290). Branches when ra >= rb unsigned. -/
def execBgeu (e : Fin 32) (ra rb : Fin 32) (off : BitVec 16) (s : State) : Host.Outcome State Fault Refusal := act s (doBgeu e ra rb off)

/-- JAL (R290). Writes PC + 1 to rd and jumps by a 21-bit offset. -/
def execJal (e : Fin 32) (rd : Fin 32) (off : BitVec 21) (s : State) : Host.Outcome State Fault Refusal := act s (doJal e rd off)

/-- JALR (R290). Writes PC + 1 to rd and jumps to ra + sext(imm16). -/
def execJalr (e : Fin 32) (rd ra : Fin 32) (imm : BitVec 16) (s : State) : Host.Outcome State Fault Refusal := act s (doJalr e rd ra imm)

/-- ILLEGAL_OPCODE (R281). An unlisted opcode, selector or nonzero required field traps ILLEGAL. -/
def execIllegalOpcode (e : Fin 32) (s : State) : Host.Outcome State Fault Refusal := act s (doIllegalOpcode e)

/-- POST (R307). Queues one result word for the call, using its reservation or a free entry, or waits. -/
def execPost (e : Fin 32) (ra rb : Fin 32) (s : State) : Host.Outcome State Fault Refusal := act s (doPost e ra rb)

/-- RDCW (R308). Returns control word n such as CYCLE, TIME, SELF or RAND. -/
def execRdcw (e : Fin 32) (rd n : Fin 32) (s : State) : Host.Outcome State Fault Refusal := act s (doRdcw e rd n)

/-- FENCE_SL (R185). Makes later pool and control loads wait for an empty store buffer. -/
def execFenceSl (e : Fin 32) (s : State) : Host.Outcome State Fault Refusal := act s (doFenceSl e)

/-- TRAP (R309). Traps ILLEGAL with SE_TRAPADDR 0. -/
def execTrap (e : Fin 32) (s : State) : Host.Outcome State Fault Refusal := act s (doTrap e)

/-- YIELD (R309). Issues nothing for 16 cycles and passes the engine's REQ injection turn. -/
def execYield_ (e : Fin 32) (s : State) : Host.Outcome State Fault Refusal := act s (doYield e)

/-- HALT (R268). Drains the store buffer, waits for held handles and ends the call, posting OK if nothing was posted. -/
def execHalt (e : Fin 32) (s : State) : Host.Outcome State Fault Refusal := act s (doHalt e)

/-- STEP_CUT (R291). At a step boundary a kind W or P instruction is cut for time limit, reset or side loss, keeping completed steps. -/
def execStepCut (e : Fin 32) (s : State) : Host.Outcome State Fault Refusal := act s (doStepCut e)

end Sys2Proof.Machine
end

