-- ==== Sys2Proof/Machine/ExecEngMem.lean ====
section
/-! DEFINITION. The commands of memory instructions and the store buffer (chapters 7 and 11): what each does to the module, and what follows in the same step. -/

namespace Sys2Proof.Machine

/-- STORE_BUFFER_SEND (R181). The head store of an engine's store buffer is sent, or refused under R511 causing a trap. -/
def execStoreBufferSend (e : Fin 32) (ck : Check) (s : State) : Host.Outcome State Fault Refusal := act s (doStoreBufferSend e ck)

/-- STORE_COMPLETE (R181). A sent store completes at its target and its entry frees. -/
def execStoreComplete (e : Fin 32) (s : State) : Host.Outcome State Fault Refusal := act s (doStoreComplete e)

/-- LB (R287). Loads a sign-extended byte from the pool, scratch space or control space. -/
def execLb (e : Fin 32) (rd ra : Fin 32) (imm : BitVec 16) (ck : Check) (s : State) : Host.Outcome State Fault Refusal := act s (doLb e rd ra imm ck)

/-- LBU (R287). Loads a zero-extended byte. -/
def execLbu (e : Fin 32) (rd ra : Fin 32) (imm : BitVec 16) (ck : Check) (s : State) : Host.Outcome State Fault Refusal :=
  act s (doLbu e rd ra imm ck)

/-- LH (R287). Loads a sign-extended 2-byte value. -/
def execLh (e : Fin 32) (rd ra : Fin 32) (imm : BitVec 16) (ck : Check) (s : State) : Host.Outcome State Fault Refusal := act s (doLh e rd ra imm ck)

/-- LHU (R287). Loads a zero-extended 2-byte value. -/
def execLhu (e : Fin 32) (rd ra : Fin 32) (imm : BitVec 16) (ck : Check) (s : State) : Host.Outcome State Fault Refusal :=
  act s (doLhu e rd ra imm ck)

/-- LW (R287). Loads a sign-extended 4-byte value. -/
def execLw (e : Fin 32) (rd ra : Fin 32) (imm : BitVec 16) (ck : Check) (s : State) : Host.Outcome State Fault Refusal := act s (doLw e rd ra imm ck)

/-- LWU (R287). Loads a zero-extended 4-byte value. -/
def execLwu (e : Fin 32) (rd ra : Fin 32) (imm : BitVec 16) (ck : Check) (s : State) : Host.Outcome State Fault Refusal :=
  act s (doLwu e rd ra imm ck)

/-- LD (R287). Loads a 64-bit word; control loads wait for an empty store buffer. -/
def execLd (e : Fin 32) (rd ra : Fin 32) (imm : BitVec 16) (ck : Check) (s : State) : Host.Outcome State Fault Refusal := act s (doLd e rd ra imm ck)

/-- LDX (R287). Loads a 64-bit word at ra + rb. -/
def execLdx (e : Fin 32) (rd ra rb : Fin 32) (ck : Check) (s : State) : Host.Outcome State Fault Refusal := act s (doLdx e rd ra rb ck)

/-- SB (R287). Enters a 1-byte store into the store buffer. -/
def execSb (e : Fin 32) (rs ra : Fin 32) (imm : BitVec 16) (s : State) : Host.Outcome State Fault Refusal := act s (doSb e rs ra imm)

/-- SH (R287). Enters a 2-byte store into the store buffer. -/
def execSh (e : Fin 32) (rs ra : Fin 32) (imm : BitVec 16) (s : State) : Host.Outcome State Fault Refusal := act s (doSh e rs ra imm)

/-- SW (R287). Enters a 4-byte store into the store buffer. -/
def execSw (e : Fin 32) (rs ra : Fin 32) (imm : BitVec 16) (s : State) : Host.Outcome State Fault Refusal := act s (doSw e rs ra imm)

/-- SD (R287). Enters an 8-byte store into the store buffer. -/
def execSd (e : Fin 32) (rs ra : Fin 32) (imm : BitVec 16) (s : State) : Host.Outcome State Fault Refusal := act s (doSd e rs ra imm)

/-- AMOADD (R289). Atomically adds rb to a pool location and returns the old value. -/
def execAmoAdd (e : Fin 32) (rd ra rb : Fin 32) (wide : Bool) (s : State) : Host.Outcome State Fault Refusal := act s (doAmoAdd e rd ra rb wide)

/-- AMOAND (R289). Atomically ANDs rb into a pool location. -/
def execAmoAnd (e : Fin 32) (rd ra rb : Fin 32) (wide : Bool) (s : State) : Host.Outcome State Fault Refusal := act s (doAmoAnd e rd ra rb wide)

/-- AMOOR (R289). Atomically ORs rb into a pool location. -/
def execAmoOr (e : Fin 32) (rd ra rb : Fin 32) (wide : Bool) (s : State) : Host.Outcome State Fault Refusal := act s (doAmoOr e rd ra rb wide)

/-- AMOXOR (R289). Atomically XORs rb into a pool location. -/
def execAmoXor (e : Fin 32) (rd ra rb : Fin 32) (wide : Bool) (s : State) : Host.Outcome State Fault Refusal := act s (doAmoXor e rd ra rb wide)

/-- AMOSWAP (R289). Atomically swaps rb into a pool location. -/
def execAmoSwap (e : Fin 32) (rd ra rb : Fin 32) (wide : Bool) (s : State) : Host.Outcome State Fault Refusal := act s (doAmoSwap e rd ra rb wide)

/-- AMOCAS (R289). Atomically compares the location with rd and writes rb when equal. -/
def execAmoCas (e : Fin 32) (rd ra rb : Fin 32) (wide : Bool) (s : State) : Host.Outcome State Fault Refusal := act s (doAmoCas e rd ra rb wide)

/-- AMOMINU (R289). Atomically stores the unsigned minimum of old and rb. -/
def execAmoMinu (e : Fin 32) (rd ra rb : Fin 32) (wide : Bool) (s : State) : Host.Outcome State Fault Refusal := act s (doAmoMinu e rd ra rb wide)

/-- AMOMAXU (R289). Atomically stores the unsigned maximum of old and rb. -/
def execAmoMaxu (e : Fin 32) (rd ra rb : Fin 32) (wide : Bool) (s : State) : Host.Outcome State Fault Refusal := act s (doAmoMaxu e rd ra rb wide)

/-- WAITEV (R310). Polls a control register until its condition holds, then returns the value. -/
def execWaitev (e : Fin 32) (rd ra rb : Fin 32) (cond : Fin 3) (s : State) : Host.Outcome State Fault Refusal := act s (doWaitev e rd ra rb cond)

/-- WAITEV_POLL (R310). Every 32 fabric cycles WAITEV reads its register as a control load and tests the condition. -/
def execWaitevPoll (e : Fin 32) (s : State) : Host.Outcome State Fault Refusal := act s (doWaitevPoll e)

end Sys2Proof.Machine
end

