-- ==== Sys2Proof/Machine/ExecErr.lean ====
section
/-! DEFINITION. The commands of repair, scrubbing and retirement (chapter 15): what each does to the module, and what follows in the same step. -/

namespace Sys2Proof.Machine

/-- TWIN_SEARCH_COMPLETE (R394). A target's scan covers every bucket; found lines are reinstalled and held requests released. -/
def execTwinSearchComplete (sd : Fin 2) (s : State) : Host.Outcome State Fault Refusal := act s (doTwinSearchComplete sd)

/-- TWIN_REFRESH (R395). The home re-twins every dirty line it holds after the twin side lost record identities. -/
def execTwinRefresh (sd : Fin 2) (s : State) : Host.Outcome State Fault Refusal := act s (doTwinRefresh sd)

/-- TWIN_REFRESH_COMPLETE (R395). A twin refresh ends and TWN_GAUGE.LINES is set to the twin side's count. -/
def execTwinRefreshComplete (sd : Fin 2) (s : State) : Host.Outcome State Fault Refusal := act s (doTwinRefreshComplete sd)

/-- RETWIN_REQUEST (R397). The home receives a re-twin request for L and twins its dirty copy again or releases the line. -/
def execRetwinRequest (h : Fin 64) (s : State) : Host.Outcome State Fault Refusal := act s (doRetwinRequest h)

/-- LOST_SET_SWEEP (R396). A directory set unreadable from any copy is cleared and its lines swept with back-invalidates. -/
def execLostSetSweep (half : Fin 2) (set : BitVec 26) (s : State) : Host.Outcome State Fault Refusal := act s (doLostSetSweep half set)

/-- LOST_SET_SWEEP_END (R396). A lost-set sweep ends and its slot frees. -/
def execLostSetSweepEnd (half : Fin 2) (set : BitVec 26) (s : State) : Host.Outcome State Fault Refusal := act s (doLostSetSweepEnd half set)

/-- SCRUB_READ (R399). The patrol scrubber reads and checks the next stack or SRAM location at its rate. -/
def execScrubRead (l : Loc) (ck : Check) (pct : Fin 101) (s : State) : Host.Outcome State Fault Refusal := act s (doScrubRead l ck pct)

/-- SCRUB_WINDOW_END (R400). Every 60 s the scrub multiplier doubles or halves by the window's corrected errors. -/
def execScrubWindowEnd (sd : Fin 2) (s : State) : Host.Outcome State Fault Refusal := act s (doScrubWindowEnd sd)

/-- AREA_REMAP (R406). ERR_AREMAP GO copies a row outside the cache area to a spare frame and installs the remap. -/
def execAreaRemap (k : Fin 8) (pc : Fin 32) (bank : Fin 16) (row : BitVec 16) (s : State) : Host.Outcome State Fault Refusal :=
  act s (doAreaRemap k pc bank row)

/-- AREA_REMAP_COMPLETE (R406). An area remap ends and RESULT is set. -/
def execAreaRemapComplete (bad : List (Loc × Bool)) (s : State) : Host.Outcome State Fault Refusal := act s (doAreaRemapComplete bad)

/-- ERR_PSMAP_WRITE (R407). A write of ERR_PSMAP maps a program page to a spare only while its bank is inactive and OLDBUSY 0. -/
def execErrPsmapWrite (sd b : Fin 2) (i : Fin 8) (page : BitVec 8) (v : Bool) (s : State) : Host.Outcome State Fault Refusal :=
  act s (doErrPsmapWrite sd b i page v)

/-- STACK_RETIRE (R408). ERR_STKRET GO retires a stack of a stopped side, powering it off for the service life. -/
def execStackRetire (k : Fin 8) (s : State) : Host.Outcome State Fault Refusal := act s (doStackRetire k)

/-- TRIM_RECORD_APPEND (R427). The Ditchrider appends a retirement or learned-settings record to trim copies T0 then T1. -/
def execTrimRecordAppend (s : State) : Host.Outcome State Fault Refusal := act s doTrimRecordAppend

/-- LEARNED_PRESET_CAPTURE (R427). After 10 s in L0 at 64 GT/s without Recovery, a port's changed learned presets are appended. -/
def execLearnedPresetCapture (p : Fin 32) (v : BitVec 128) (s : State) : Host.Outcome State Fault Refusal := act s (doLearnedPresetCapture p v)

/-- ARM (R411). Setting ERR_INJ.ARM corrupts the chosen bits of the next write to the structure instance. -/
def execArm (s : State) : Host.Outcome State Fault Refusal := act s doArm

end Sys2Proof.Machine
end

