-- ==== Sys2Proof/Machine/ExecFail.lean ====
section
/-! DEFINITION. The commands of failover, modes and reintegration (chapter 8): what each does to the module, and what follows in the same step. -/

namespace Sys2Proof.Machine

/-- HEALTH_PULSE (R204). A side pulses its health line to the arbiter every 10 µs. -/
def execHealthPulse (sd : Fin 2) (s : State) : Host.Outcome State Fault Refusal := act s (doHealthPulse sd)

/-- HEALTH_PULSE_MISSED (R204). Three consecutive missed health pulses make the arbiter declare the side failed with CAUSE 1. -/
def execHealthPulseMissed (sd : Fin 2) (kept : Nat) (s : State) : Host.Outcome State Fault Refusal := act s (doHealthPulseMissed sd kept)

/-- HEARTBEAT (R199). A bridge end sends a heartbeat across the bridge every 10 µs. -/
def execHeartbeat (sd : Fin 2) (s : State) : Host.Outcome State Fault Refusal := act s (doHeartbeat sd)

/-- HEARTBEAT_MISSED (R204). A bridge end misses three heartbeats, or the bridge fails to retrain in 20 µs; the arbiter fences a side with CAUSE 3.
-/
def execHeartbeatMissed (sd : Fin 2) (retrain : Bool) (kept : Nat) (s : State) : Host.Outcome State Fault Refusal :=
  act s (doHeartbeatMissed sd retrain kept)

/-- FAULT_SIGNAL (R204). A side asserts its fault signal for an SFE and is declared failed with CAUSE 2. -/
def execFaultSignal (sd : Fin 2) (st bt inst : BitVec 8) (kept : Nat) (s : State) : Host.Outcome State Fault Refusal :=
  act s (doFaultSignal sd st bt inst kept)

/-- BRIDGE_CREDIT_TIMEOUT (R204). A twin write or mirror update waits 50 µs for bridge credit; a side is fenced with CAUSE 4. -/
def execBridgeCreditTimeout (sd : Fin 2) (kept : Nat) (s : State) : Host.Outcome State Fault Refusal := act s (doBridgeCreditTimeout sd kept)

/-- BRIDGE_LANE_FAIL (R215). A bridge lane fails; the bridge switches to a spare lane and retrains within 5 µs. -/
def execBridgeLaneFail (s : State) : Host.Outcome State Fault Refusal := act s doBridgeLaneFail

/-- ARBITER_COPY_FAULT (R205). A fault of one arbiter copy is logged and the other copy decides alone. -/
def execArbiterCopyFault (copy : Fin 2) (s : State) : Host.Outcome State Fault Refusal := act s (doArbiterCopyFault copy)

/-- ENTER_SPILLWAY (R219). AON_MODECTL REQ 1 starts Spillway entry: WPOL 0 as WPOL 1, no allocation, cleaner at 8 in 16. -/
def execEnterSpillway (s : State) : Host.Outcome State Fault Refusal := act s doEnterSpillway

/-- LEAVE_SPILLWAY (R219). AON_MODECTL REQ 2 invalidates the Headgate, sweeps the Reservoir and resumes write-back and twinning. -/
def execLeaveSpillway (s : State) : Host.Outcome State Fault Refusal := act s doLeaveSpillway

/-- STOP_SIDE_A (R216). AON_MODECTL REQ 3 holds Side A's requests, drains it, then fences it with CAUSE 5. -/
def execStopSideA (s : State) : Host.Outcome State Fault Refusal := act s doStopSideA

/-- STOP_SIDE_B (R216). AON_MODECTL REQ 4 holds Side B's requests, drains it, then fences it with CAUSE 5. -/
def execStopSideB (s : State) : Host.Outcome State Fault Refusal := act s doStopSideB

/-- STOP_DRAIN_END (R216). A stopping side's drain ends or its 300 µs bound expires; fence and takeover follow. -/
def execStopDrainEnd (kept : Nat) (s : State) : Host.Outcome State Fault Refusal := act s (doStopDrainEnd kept)

/-- REINTEGRATE_STOPPED_SIDE (R217). AON_MODECTL REQ 5 checks the preconditions and starts reintegration of the stopped side. -/
def execReintegrateStoppedSide (bridge : Bool) (s : State) : Host.Outcome State Fault Refusal := act s (doReintegrateStoppedSide bridge)

/-- SOAK_END (R217). The soak period ends with no SFE or UCC on the returning side; handback starts. -/
def execSoakEnd (s : State) : Host.Outcome State Fault Refusal := act s doSoakEnd

/-- SLICE_PAIR_HANDBACK (R218). One slice pair is handed back to the returning side, holding its requests for at most 50 µs. -/
def execSlicePairHandback (s : State) : Host.Outcome State Fault Refusal := act s doSlicePairHandback

/-- HANDBACK_HOLD_EXPIRY (R218). A slice pair's hold reaches 50 µs; it is released and retried 1 ms later. -/
def execHandbackHoldExpiry (s : State) : Host.Outcome State Fault Refusal := act s doHandbackHoldExpiry

/-- ENTER_RECOVERY (R220). AON_MODECTL REQ 6 from the Ditchrider completes Spillway entry, lowers every link and enters Recovery mode. -/
def execEnterRecovery (s : State) : Host.Outcome State Fault Refusal := act s doEnterRecovery

/-- REINTEGRATION_REPLICATION_COMPLETE (R217). The copy of the placement table, the rebuild of the directory store and mirror, and the twinning scan
of the survivor's dirty lines to the returning side end, UNTWINNED becomes 0 and the soak period begins. -/
def execReintegrationReplicationComplete (s : State) : Host.Outcome State Fault Refusal := act s doReintegrationReplicationComplete

end Sys2Proof.Machine
end

