-- ==== Sys2Proof/Machine/ExecHome.lean ====
section
/-! DEFINITION. The commands of home slices (chapters 4 and 6): what each does to the module, and what follows in the same step. -/

namespace Sys2Proof.Machine

/-- NEW_REQUEST_ACCEPT (R70). A request from the REQ network enters a home slice, is looked up and ordered at Decide as hit, miss, write, snoop or
wait. -/
def execNewRequestAccept (h : Fin 64) (s : State) : Host.Outcome State Fault Refusal := act s (doNewRequestAccept h)

/-- PREFETCH_REQUEST (R88). A prefetch request arrives at its target slice, which drops it or allocates a miss register and fetches the line. -/
def execPrefetchRequest (h : Fin 64) (s : State) : Host.Outcome State Fault Refusal := act s (doPrefetchRequest h)

/-- FILL_RETURN (R77). Fill data reaches a miss register; once whole and checked it serves merged requests and installs the line. -/
def execFillReturn (h : Fin 64) (ue : Bool) (s : State) : Host.Outcome State Fault Refusal := act s (doFillReturn h ue)

/-- INSTALL_RETRY (R74). Every 16 cycles a miss register retries an install held for want of an eligible way. -/
def execInstallRetry (h : Fin 64) (s : State) : Host.Outcome State Fault Refusal := act s (doInstallRetry h)

/-- MISS_WAIT_RETRY (R79). The head of the miss-wait queue is retried when the resource it waits for frees. -/
def execMissWaitRetry (h : Fin 64) (s : State) : Host.Outcome State Fault Refusal := act s (doMissWaitRetry h)

/-- DIRECTORY_WAIT_RETRY (R161). The oldest waiting request of a directory set takes a freed way, recall slot or cache way. -/
def execDirectoryWaitRetry (h : Fin 64) (s : State) : Host.Outcome State Fault Refusal := act s (doDirectoryWaitRetry h)

/-- WRITE_BUFFER_ARRAY_WRITE (R83). A Formed write-buffer entry is written to the data array when the array is free or forced by WB_HIGH, and freed.
-/
def execWriteBufferArrayWrite (h : Fin 64) (s : State) : Host.Outcome State Fault Refusal := act s (doWriteBufferArrayWrite h)

/-- DIRECTORY_CACHE_FILL (R145). A directory set read from the store arrives at the slice's directory cache, writing back a changed victim set. -/
def execDirectoryCacheFill (h : Fin 64) (s : State) : Host.Outcome State Fault Refusal := act s (doDirectoryCacheFill h)

/-- SNOOP_RESPONSE (R155). A BIRsp reaches the home slice's transient state and advances SI, OI, OS, OC or VR under Table 6-9. -/
def execSnoopResponse (h : Fin 64) (s : State) : Host.Outcome State Fault Refusal := act s (doSnoopResponse h)

/-- SNOOP_DATA_WRITE (R156). A write arriving while a snoop of the line to that host is open is merged as the snoop's data. -/
def execSnoopDataWrite (h : Fin 64) (s : State) : Host.Outcome State Fault Refusal := act s (doSnoopDataWrite h)

/-- BISNP_TIMEOUT (R158). A back-invalidate unanswered within BITO makes the slice declare the port lost. -/
def execBisnpTimeout (p : Fin 32) (s : State) : Host.Outcome State Fault Refusal := act s (doBisnpTimeout p)

/-- LOST_PORT_SWEEP_END (R165). When both sides have swept the directory for a lost port, MASK bit p clears, an event posts and the tile takes
CXL.mem again. -/
def execLostPortSweepEnd (p : Fin 32) (s : State) : Host.Outcome State Fault Refusal := act s (doLostPortSweepEnd p)

/-- DIR_QUERY (R167). Writing DIR_QUERY.GO reads the queried line's entry as ordered at Decide into DIR_QRES. -/
def execDirQuery (h : Fin 64) (line : BitVec 41) (s : State) : Host.Outcome State Fault Refusal :=
  act s (gatedReg (hsBase h + 0x320) (fun _ => [(R.DIR_QUERY_LINE, line.toNat), (R.DIR_QUERY_GO, 1)]) (doDirQuery h line))

/-- HEADGATE_WAYEN_WRITE (R95). Writing HS_WAYEN.EN stops fills and starts cleaning of cleared ways, or clears tags of set ways and returns them. -/
def execHeadgateWayenWrite (h : Fin 64) (en : BitVec 16) (s : State) : Host.Outcome State Fault Refusal :=
  act s (gatedReg (hsBase h + 0x50) (fun _ => [(R.HS_WAYEN_EN, en.toNat)]) (doHeadgateWayenWrite h en))

/-- WAY_CLEAN_LINE (R95). A cleaning pass, as internal work, makes one valid line of a disabled way a victim. -/
def execWayCleanLine (h : Fin 64) (s : State) : Host.Outcome State Fault Refusal := act s (doWayCleanLine h)

/-- WAY_CLEAN_COMPLETE (R95). A way's cleaning pass ends; BUSY clears and OFF sets, or a re-enabled way is cleared and returned. -/
def execWayCleanComplete (h : Fin 64) (s : State) : Host.Outcome State Fault Refusal := act s (doWayCleanComplete h)

end Sys2Proof.Machine
end

