-- ==== Sys2Proof/Machine/ExecHost.lean ====
section
/-! DEFINITION. The commands of HOST ports (chapters 3, 6, 10 and 14): what each does to the module, and what follows in the same step. -/

namespace Sys2Proof.Machine

/-- MEMRD (R149). A host MemRd arrives at a HOST port tile; it is decoded, checked under R50 and sent to the home slice as RdCur, RdShared or RdOwn.
-/
def execMemRd (p : Fin 32) (tag : BitVec 16) (hpa : BitVec 46) (mv : Meta) (s : State) : Host.Outcome State Fault Refusal :=
  act s (doMemRd p tag hpa mv)

/-- MEMINV (R149). A host MemInv arrives and is classified as Own, Share, Release or Touch by its MetaValue, then handled at the home. -/
def execMemInv (p : Fin 32) (tag : BitVec 16) (hpa : BitVec 46) (mv : Meta) (s : State) : Host.Outcome State Fault Refusal :=
  act s (doMemInv p tag hpa mv)

/-- MEMINVNT (R149). A host MemInvNT arrives and is handled exactly as MemInv with the same MetaField. -/
def execMemInvNt (p : Fin 32) (tag : BitVec 16) (hpa : BitVec 46) (mv : Meta) (s : State) : Host.Outcome State Fault Refusal :=
  act s (doMemInvNt p tag hpa mv)

/-- MEMSPECRD (R137). A host MemSpecRd is accepted and takes no action, whether or not it passes the checks. -/
def execMemSpecRd (p : Fin 32) (tag : BitVec 16) (hpa : BitVec 46) (s : State) : Host.Outcome State Fault Refusal := act s (doMemSpecRd p tag hpa)

/-- MEMWR (R149). A host full-line write arrives with its data, is classified as WbInv, WbShared or WbKeep, or is taken as snoop data under R339. -/
def execMemWr (p : Fin 32) (tag : BitVec 16) (hpa : BitVec 46) (mv : Meta) (data : Line) (poison : Bool) (s : State) : Host.Outcome State Fault Refusal :=
  act s (doMemWr p tag hpa mv data poison)

/-- MEMWRPTL (R149). A host partial write arrives with its byte mask and is handled as MemWr, merged at the slice by read-modify-write. -/
def execMemWrPtl (p : Fin 32) (tag : BitVec 16) (hpa : BitVec 46) (mv : Meta) (data : Line) (mask : Mask) (poison : Bool) (s : State) : Host.Outcome State Fault Refusal :=
  act s (doMemWrPtl p tag hpa mv data mask poison)

/-- BICONFLICT (R157). A host BIConflict arrives; the module sends BIConflictAck behind every earlier NDR for that line within 2 µs. -/
def execBiConflict (p : Fin 32) (pln : BitVec 42) (s : State) : Host.Outcome State Fault Refusal := act s (doBiConflict p pln)

/-- BIRSPI (R508). A host BIRspI arrives at the port tile and is matched to an open snoop in the snoop table, or discarded as a protocol error. -/
def execBiRspI (p : Fin 32) (pln : BitVec 42) (s : State) : Host.Outcome State Fault Refusal := act s (doBiRspI p pln)

/-- BIRSPS (R508). A host BIRspS arrives and is matched against Table 6-17; a response not permitted for the snoop makes the port lost. -/
def execBiRspS (p : Fin 32) (pln : BitVec 42) (s : State) : Host.Outcome State Fault Refusal := act s (doBiRspS p pln)

/-- BIRSPE (R508). A host BIRspE arrives and is matched against Table 6-17 for the open snoop. -/
def execBiRspE (p : Fin 32) (pln : BitVec 42) (s : State) : Host.Outcome State Fault Refusal := act s (doBiRspE p pln)

/-- BIRSPIBLK (R508). A host block response arrives for an open BISnpInvBlk and is passed to each of the four lines' home slices as BIRspI. -/
def execBiRspIBlk (p : Fin 32) (grp : BitVec 40) (lines : BitVec 4) (s : State) : Host.Outcome State Fault Refusal := act s (doBiRspIBlk p grp lines)

/-- BIRSPSBLK (R508). A host BIRspSBlk arrives; no snoop accepts it, so the port is declared lost. -/
def execBiRspSBlk (p : Fin 32) (grp : BitVec 40) (s : State) : Host.Outcome State Fault Refusal := act s (doBiRspSBlk p grp)

/-- BIRSPEBLK (R508). A host BIRspEBlk arrives; no snoop accepts it, so the port is declared lost. -/
def execBiRspEBlk (p : Fin 32) (grp : BitVec 40) (s : State) : Host.Outcome State Fault Refusal := act s (doBiRspEBlk p grp)

/-- HDM_DECODER_COMMIT (R40). The host commits an HDM decoder through CXL.io; the commit fails with the standard error for unsupported options,
overlap or BI Enable at 0. -/
def execHdmDecoderCommit (p : Fin 32) (d : Fin 8) (base size dpa : BitVec 36) (ways : BitVec 4) (lock other : Bool) (s : State) : Host.Outcome State Fault Refusal :=
  act s (doHdmDecoderCommit p d base size dpa ways lock other)

/-- HOST_CONFIG_ACCESS (R361). The host accesses the port's PCIe/CXL configuration and component registers through CXL.io, such as BI Enable. -/
def execHostConfigAccess (p : Fin 32) (a : CfgAcc) (s : State) : Host.Outcome State Fault Refusal := act s (doHostConfigAccess p a)

/-- DOE_REQUEST (R361). A request on the port's DOE mailbox carries CDAT, SPDM 1.2 or IDE key-management protocol messages. -/
def execDoeRequest (p : Fin 32) (k : DoeMsg) (s : State) : Host.Outcome State Fault Refusal := act s (doDoeRequest p k)

/-- IDENTIFY (R363). Mailbox command Identify is answered. -/
def execIdentify (p : Fin 32) (s : State) : Host.Outcome State Fault Refusal := act s (doIdentify p)

/-- BACKGROUND_OPERATION_STATUS (R363). Mailbox command Background Operation Status always reports no background operation. -/
def execBackgroundOperationStatus (p : Fin 32) (s : State) : Host.Outcome State Fault Refusal := act s (doBackgroundOperationStatus p)

/-- GET_SUPPORTED_LOGS (R363). Mailbox command Get Supported Logs is answered. -/
def execGetSupportedLogs (p : Fin 32) (s : State) : Host.Outcome State Fault Refusal := act s (doGetSupportedLogs p)

/-- GET_LOG (R363). Mailbox command Get Log returns the CEL only. -/
def execGetLog (p : Fin 32) (cel : Bool) (s : State) : Host.Outcome State Fault Refusal := act s (doGetLog p cel)

/-- GET_TIMESTAMP (R363). Mailbox command Get Timestamp returns the port's own timestamp. -/
def execGetTimestamp (p : Fin 32) (s : State) : Host.Outcome State Fault Refusal := act s (doGetTimestamp p)

/-- SET_TIMESTAMP (R363). Mailbox command Set Timestamp sets the port's own timestamp. -/
def execSetTimestamp (p : Fin 32) (ns : BitVec 64) (s : State) : Host.Outcome State Fault Refusal := act s (doSetTimestamp p ns)

/-- GET_EVENT_RECORDS (R363). Mailbox command Get Event Records returns General Media and Dynamic Capacity records. -/
def execGetEventRecords (p : Fin 32) (l : EvLog) (s : State) : Host.Outcome State Fault Refusal := act s (doGetEventRecords p l)

/-- CLEAR_EVENT_RECORDS (R363). Mailbox command Clear Event Records clears records from the port's event logs. -/
def execClearEventRecords (p : Fin 32) (l : EvLog) (n : Nat) (s : State) : Host.Outcome State Fault Refusal := act s (doClearEventRecords p l n)

/-- GET_EVENT_INTERRUPT_POLICY (R363). Mailbox command Get Event Interrupt Policy is answered. -/
def execGetEventInterruptPolicy (p : Fin 32) (s : State) : Host.Outcome State Fault Refusal := act s (doGetEventInterruptPolicy p)

/-- SET_EVENT_INTERRUPT_POLICY (R363). Mailbox command Set Event Interrupt Policy sets the event-log interrupt policy on vector 2. -/
def execSetEventInterruptPolicy (p : Fin 32) (v : BitVec 40) (s : State) : Host.Outcome State Fault Refusal := act s (doSetEventInterruptPolicy p v)

/-- GET_FW_INFO (R363). Mailbox command Get FW Info reports one firmware slot. -/
def execGetFwInfo (p : Fin 32) (s : State) : Host.Outcome State Fault Refusal := act s (doGetFwInfo p)

/-- IDENTIFY_MEMORY_DEVICE (R363). Mailbox command Identify Memory Device reports static capacity 0. -/
def execIdentifyMemoryDevice (p : Fin 32) (s : State) : Host.Outcome State Fault Refusal := act s (doIdentifyMemoryDevice p)

/-- GET_HEALTH_INFO (R363). Mailbox command Get Health Info is answered. -/
def execGetHealthInfo (p : Fin 32) (s : State) : Host.Outcome State Fault Refusal := act s (doGetHealthInfo p)

/-- GET_ALERT_CONFIGURATION (R363). Mailbox command Get Alert Configuration is answered. -/
def execGetAlertConfiguration (p : Fin 32) (s : State) : Host.Outcome State Fault Refusal := act s (doGetAlertConfiguration p)

/-- SET_ALERT_CONFIGURATION (R363). Mailbox command Set Alert Configuration sets the port's alert configuration. -/
def execSetAlertConfiguration (p : Fin 32) (v : BitVec 64) (s : State) : Host.Outcome State Fault Refusal := act s (doSetAlertConfiguration p v)

/-- GET_POISON_LIST (R363). Mailbox command Get Poison List returns up to 256 DPAs of poisoned lines in the port's Accepted extents. -/
def execGetPoisonList (p : Fin 32) (s : State) : Host.Outcome State Fault Refusal := act s (doGetPoisonList p)

/-- GET_DYNAMIC_CAPACITY_CONFIGURATION (R363). Mailbox command Get Dynamic Capacity Configuration reports region 0 under Table 3-1. -/
def execGetDynamicCapacityConfiguration (p : Fin 32) (s : State) : Host.Outcome State Fault Refusal := act s (doGetDynamicCapacityConfiguration p)

/-- GET_DYNAMIC_CAPACITY_EXTENT_LIST (R363). Mailbox command Get Dynamic Capacity Extent List returns the port's Accepted extents. -/
def execGetDynamicCapacityExtentList (p : Fin 32) (s : State) : Host.Outcome State Fault Refusal := act s (doGetDynamicCapacityExtentList p)

/-- ADD_DYNAMIC_CAPACITY_RESPONSE (R43). The host's Add Capacity response accepts or declines an Offered extent, making it Accepted or Free. -/
def execAddDynamicCapacityResponse (p : Fin 32) (e : Fin 64) (accept : Bool) (s : State) : Host.Outcome State Fault Refusal :=
  act s (doAddDynamicCapacityResponse p e accept)

/-- RELEASE_DYNAMIC_CAPACITY (R43). The host releases an extent; the home back-invalidates its held lines and the extent becomes Free, or the command
fails for an Offered extent. -/
def execReleaseDynamicCapacity (p : Fin 32) (e : Fin 64) (s : State) : Host.Outcome State Fault Refusal := act s (doReleaseDynamicCapacity p e)

/-- MAILBOX_UNSUPPORTED_COMMAND (R363). Any other mailbox command, including Transfer FW and Activate FW, returns the standard Unsupported code. -/
def execMailboxUnsupportedCommand (p : Fin 32) (s : State) : Host.Outcome State Fault Refusal := act s (doMailboxUnsupportedCommand p)

/-- EXTENT_OFFER_TIMEOUT (R43). An Offered extent gets no host response within 1 s; it returns to Free and DECLINED is posted. -/
def execExtentOfferTimeout (p : Fin 32) (e : Fin 64) (s : State) : Host.Outcome State Fault Refusal := act s (doExtentOfferTimeout p e)

/-- MSIX_UNMASK (R364). Unmasking an MSI-X vector or the function sends one message for a pending vector. -/
def execMsixUnmask (p : Fin 32) (v : Option (Fin 3)) (s : State) : Host.Outcome State Fault Refusal := act s (doMsixUnmask p v)

/-- CMDQ_ARG_WRITE (R262). A write to an argument word of a command-queue slot stores it, or is dropped whole under R264 if the slot holds an untaken
descriptor. -/
def execCmdqArgWrite (p : Fin 32) (slot : Fin 64) (a : Fin 7) (h : Half) (v : Word) (s : State) : Host.Outcome State Fault Refusal :=
  act s (doCmdqArgWrite p slot a h v)

/-- CMDQ_HEADER_WRITE (R262). A header write with the expected PHASE commits the descriptor; with another PHASE it only stores the word. -/
def execCmdqHeaderWrite (p : Fin 32) (slot : Fin 64) (h : Half) (v : Word) (s : State) : Host.Outcome State Fault Refusal :=
  act s (doCmdqHeaderWrite p slot h v)

/-- PT_RESQ_POP (R267). A 64-bit read of PT_RESQ_POP returns and removes the oldest result, or V = 0 on an empty queue. -/
def execPtResqPop (p : Fin 32) (h : Half) (ck : Check) (s : State) : Host.Outcome State Fault Refusal := act s (doPtResqPop p h ck)

/-- PT_RESQ_ADV (R267). Writing PT_RESQ_ADV removes the oldest result entry; nothing happens on an empty queue. -/
def execPtResqAdv (p : Fin 32) (s : State) : Host.Outcome State Fault Refusal := act s (doPtResqAdv p)

/-- HOST_BAR_BAD_ACCESS (R27). A host BAR access of an unaccepted size or alignment completes with no effect and counts as a protocol error. -/
def execHostBarBadAccess (p : Fin 32) (write : Bool) (s : State) : Host.Outcome State Fault Refusal := act s (doHostBarBadAccess p write)

end Sys2Proof.Machine
end

