-- ==== Sys2Proof/Machine/ExecIo.lean ====
section
/-! DEFINITION. The commands of IO ports (chapters 7 and 14): what each does to the module, and what follows in the same step. -/

namespace Sys2Proof.Machine

/-- IO_DMA_READ (R44). A DMA read arrives on an IO port, is mapped by the window table and sent as a non-allocating snooping read once earlier posted
writes are released. -/
def execIoDmaRead (p : Fin 32) (tag : BitVec 14) (a : BitVec 64) (n : Fin 4097) (ido : Bool) (rid : BitVec 16) (s : State) : Host.Outcome State Fault Refusal :=
  act s (doIoDmaRead p tag a n ido rid)

/-- IO_POSTED_WRITE (R176). A DMA posted write is mapped and issued to its home for the prepare phase. -/
def execIoPostedWrite (p : Fin 32) (a : BitVec 64) (n : Fin 257) (data : BitVec 2048) (en : BitVec 256) (poison ro ido : Bool) (rid : BitVec 16) (s : State) : Host.Outcome State Fault Refusal :=
  act s (doIoPostedWrite p a n data en poison ro ido rid)

/-- IO_FETCHADD (R368). A PCIe FetchAdd AtomicOp is performed as AMOADD under R154, if the window permits it. -/
def execIoFetchAdd (p : Fin 32) (tag : BitVec 14) (a : BitVec 64) (wide : Bool) (v : Word) (ido : Bool) (rid : BitVec 16) (s : State) : Host.Outcome State Fault Refusal :=
  act s (doIoFetchAdd p tag a wide v ido rid)

/-- IO_SWAP (R368). A PCIe Swap AtomicOp is performed as AMOSWAP under R154. -/
def execIoSwap (p : Fin 32) (tag : BitVec 14) (a : BitVec 64) (wide : Bool) (v : Word) (ido : Bool) (rid : BitVec 16) (s : State) : Host.Outcome State Fault Refusal :=
  act s (doIoSwap p tag a wide v ido rid)

/-- IO_CAS (R368). A 32- or 64-bit PCIe CAS AtomicOp is performed as AMOCAS; a 128-bit CAS completes with UR. -/
def execIoCas (p : Fin 32) (tag : BitVec 14) (a : BitVec 64) (size : Fin 3) (cmp swap : Word) (ido : Bool) (rid : BitVec 16) (s : State) : Host.Outcome State Fault Refusal :=
  act s (doIoCas p tag a size cmp swap ido rid)

/-- IO_UNSUPPORTED_REQUEST (R368). An I/O request, ATS, PRI or PASID request from the device completes with Unsupported Request. -/
def execIoUnsupportedRequest (p : Fin 32) (tag : BitVec 14) (s : State) : Host.Outcome State Fault Refusal := act s (doIoUnsupportedRequest p tag)

/-- ERR_COR (R368). An ERR_COR message from the device is recorded with its Requester ID. -/
def execErrCor (p : Fin 32) (rid : BitVec 16) (s : State) : Host.Outcome State Fault Refusal := act s (doErrCor p rid)

/-- ERR_NONFATAL (R368). An ERR_NONFATAL message from the device is recorded with its Requester ID. -/
def execErrNonfatal (p : Fin 32) (rid : BitVec 16) (s : State) : Host.Outcome State Fault Refusal := act s (doErrNonfatal p rid)

/-- ERR_FATAL (R368). An ERR_FATAL message from the device is recorded with its Requester ID. -/
def execErrFatal (p : Fin 32) (rid : BitVec 16) (s : State) : Host.Outcome State Fault Refusal := act s (doErrFatal p rid)

/-- IO_MESSAGE_DISCARDED (R368). An INTx, PM or other message from the device is discarded and counted. -/
def execIoMessageDiscarded (p : Fin 32) (counted : Bool) (s : State) : Host.Outcome State Fault Refusal := act s (doIoMessageDiscarded p counted)

/-- WRITE_PREPARED (R176). The home reports a posted write prepared to the tile; the tile releases it once every earlier write it may not pass is
released. -/
def execWritePrepared (p : Fin 32) (s : State) : Host.Outcome State Fault Refusal := act s (doWritePrepared p)

/-- WRITE_RELEASE (R176). A released posted write is installed at the home and becomes globally visible; a commit goes to the twin. -/
def execWriteRelease (h : Fin 64) (s : State) : Host.Outcome State Fault Refusal := act s (doWriteRelease h)

/-- CONFIGURATION_REQUEST (R370). Writing PT_CFGA.GO sends one Type 0 configuration request to the IO device. -/
def execConfigurationRequest (p : Fin 32) (off : BitVec 12) (be : BitVec 4) (func : Fin 8) (write : Bool) (s : State) : Host.Outcome State Fault Refusal :=
  act s (gatedReg (ptBase p + 0x90) (fun _ => [(R.PT_CFGA_OFFSET, off.toNat), (R.PT_CFGA_BE, be.toNat), (R.PT_CFGA_FUNC, func), (R.PT_CFGA_WRITE, b2n write), (R.PT_CFGA_GO, 1)]) (doConfigurationRequest p off be func write))

/-- CONFIGURATION_COMPLETION (R370). The device's configuration completion arrives and sets STATUS and DATA; a retry status ends with STATUS 2. -/
def execConfigurationCompletion (p : Fin 32) (st : Fin 4) (data : BitVec 32) (s : State) : Host.Outcome State Fault Refusal :=
  act s (doConfigurationCompletion p st data)

/-- CONFIGURATION_TIMEOUT (R370). A configuration request unanswered for 50 ms ends with STATUS 4. -/
def execConfigurationTimeout (p : Fin 32) (s : State) : Host.Outcome State Fault Refusal := act s (doConfigurationTimeout p)

/-- PT_IOWIN_WRITE (R45). A write of an I/O window word is checked against SIZE while EN is 1 and refused with CAUSE 3 if misaligned. -/
def execPtIowinWrite (p : Fin 32) (w : Fin 64) (wordB : Bool) (v : Word) (s : State) : Host.Outcome State Fault Refusal :=
  act s (gated (ptBase p + 0x400 + 16 * w + (if wordB then 8 else 0)) v.toNat (doPtIowinWrite p w wordB v))

end Sys2Proof.Machine
end

