-- ==== Sys2Proof/Machine/ExecLink.lean ====
section
/-! DEFINITION. The commands of links, MEM ports and sleds (chapters 3 and 14): what each does to the module, and what follows in the same step. -/

namespace Sys2Proof.Machine

/-- MEM_IDE_KEY_REFRESH (R371). A MEM port refreshes its IDE keys every 2^32 flits. -/
def execMemIdeKeyRefresh (p : Fin 32) (s : State) : Host.Outcome State Fault Refusal := act s (doMemIdeKeyRefresh p)

/-- SLED_READ_RESPONSE (R188). A sled's read data arrives at the MEM port tile and returns to the requesting miss register, or is discarded if
fenced. -/
def execSledReadResponse (p : Fin 32) (id : Nat) (data : Line) (bad : Bool) (s : State) : Host.Outcome State Fault Refusal :=
  act s (doSledReadResponse p id data bad)

/-- SLED_REQUEST_TIMEOUT (R367). A sled request unanswered for MEMTO is a sled fault; the link is disabled and trained again. -/
def execSledRequestTimeout (p : Fin 32) (s : State) : Host.Outcome State Fault Refusal := act s (doSledRequestTimeout p)

/-- SLED_POLL (R365). Every 1 s the MEM tile issues Get Health Info and Get Event Records and copies sled records to the event log. -/
def execSledPoll (p : Fin 32) (recs : List (BitVec 256)) (s : State) : Host.Outcome State Fault Refusal := act s (doSledPoll p recs)

/-- LINK_UP (R374). A link reaches L0 after training; port start runs on a HOST port and the MEM port state advances. -/
def execLinkUp (p : Fin 32) (rate : Fin 8) (width : Fin 4) (flit learned : Bool) (cap : Word) (s : State) : Host.Outcome State Fault Refusal :=
  act s (doLinkUp p rate width flit learned cap)

/-- TRAINING_RETRY (R374). A port that failed to train at x4 or wider tries again after 100 ms. -/
def execTrainingRetry (p : Fin 32) (s : State) : Host.Outcome State Fault Refusal := act s (doTrainingRetry p)

/-- HOST_LINK_DOWN (R384). A HOST port's link goes down, resetting the port and making it lost. -/
def execHostLinkDown (p : Fin 32) (s : State) : Host.Outcome State Fault Refusal := act s (doHostLinkDown p)

/-- MEM_LINK_DOWN (R56). A MEM port's link goes down; the port goes to Waiting with LOSS_WAIT running and the link is trained again. -/
def execMemLinkDown (p : Fin 32) (s : State) : Host.Outcome State Fault Refusal := act s (doMemLinkDown p)

/-- IO_LINK_DOWN (R384). An IO port's link goes down; posted writes are performed, non-posted requests discarded and the link retrained. -/
def execIoLinkDown (p : Fin 32) (s : State) : Host.Outcome State Fault Refusal := act s (doIoLinkDown p)

/-- PERST_ASSERT (R381). PERST# asserted at a HOST port for 1 µs or more resets the port; shorter pulses are ignored. -/
def execPerstAssert (p : Fin 32) (ns : Nat) (s : State) : Host.Outcome State Fault Refusal := act s (doPerstAssert p ns)

/-- PERST_RELEASE (R381). PERST# released at a HOST port starts training. -/
def execPerstRelease (p : Fin 32) (s : State) : Host.Outcome State Fault Refusal := act s (doPerstRelease p)

/-- HOT_RESET (R381). A hot reset from the host resets the HOST port as a conventional reset. -/
def execHotReset (p : Fin 32) (s : State) : Host.Outcome State Fault Refusal := act s (doHotReset p)

/-- LINK_DISABLE (R381). A link disable from the host resets the HOST port. -/
def execLinkDisable (p : Fin 32) (s : State) : Host.Outcome State Fault Refusal := act s (doLinkDisable p)

/-- CABLE_PRESENCE_CHANGE (R383). A change of CPRES# sets PRSCHG; absent with the link up is link down, present starts a PERST# pulse on MEM and IO
ports. -/
def execCablePresenceChange (p : Fin 32) (present : Bool) (s : State) : Host.Outcome State Fault Refusal := act s (doCablePresenceChange p present)

/-- IDE_INTEGRITY_FAILURE (R373). An IDE integrity failure is handled as link down of that port and sets IDEFAIL. -/
def execIdeIntegrityFailure (p : Fin 32) (s : State) : Host.Outcome State Fault Refusal := act s (doIdeIntegrityFailure p)

/-- LINK_RECOVERY (R384). A link passes through Recovery and returns to L0; flits are replayed and nothing is lost. -/
def execLinkRecovery (p : Fin 32) (flits : BitVec 16) (s : State) : Host.Outcome State Fault Refusal := act s (doLinkRecovery p flits)

/-- ADAPTATION_STEP (R375). Every 10 µs each receiver adapts its equalizer and clock recovery and updates MARGIN. -/
def execAdaptationStep (p : Fin 32) (margin : BitVec 8) (lane : Fin 16) (fec : BitVec 16) (s : State) : Host.Outcome State Fault Refusal :=
  act s (doAdaptationStep p margin lane fec)

/-- EQUALIZATION_MARGIN_LOW (R376). MARGIN below EQMIN for 100 ms sets EQLOW and, with EQREDO, redoes equalization through Recovery. -/
def execEqualizationMarginLow (p : Fin 32) (s : State) : Host.Outcome State Fault Refusal := act s (doEqualizationMarginLow p)

/-- PRST (R382). Writing PT_LCTL.PRST on a MEM or IO port pulses PERST# for PERST_MS; the link goes down. -/
def execPrst (p : Fin 32) (s : State) : Host.Outcome State Fault Refusal :=
  act s (gatedReg (ptBase p + 0x50) (fun _ => [(R.PT_LCTL_PRST, 1)]) (doPrst p))

/-- PERST_PULSE_END (R382). The driven PERST# pulse ends; the tile releases PERST#, enables terminations and training begins. -/
def execPerstPulseEnd (p : Fin 32) (s : State) : Host.Outcome State Fault Refusal := act s (doPerstPulseEnd p)

/-- RETRAIN (R358). Writing PT_LCTL.RETRAIN retrains the link through Recovery. -/
def execRetrain (p : Fin 32) (s : State) : Host.Outcome State Fault Refusal :=
  act s (gatedReg (ptBase p + 0x50) (fun _ => [(R.PT_LCTL_RETRAIN, 1)]) (doRetrain p))

/-- PORT_DISABLE (R357). Writing PT_LCTL.DIS disables or re-enables a port; leaving Disabled applies a pending role and makes a MEM port Waiting. -/
def execPortDisable (p : Fin 32) (dis : Bool) (s : State) : Host.Outcome State Fault Refusal :=
  act s (gatedReg (ptBase p + 0x50) (fun _ => [(R.PT_LCTL_DIS, b2n dis)]) (doPortDisable p dis))

/-- LOSS_WAIT_EXPIRY (R56). LOSS_WAIT expires with the MEM port Waiting; the port becomes Lost and held requests settle under R59. -/
def execLossWaitExpiry (p : Fin 32) (s : State) : Host.Outcome State Fault Refusal := act s (doLossWaitExpiry p)

/-- STARTWAIT_EXPIRY (R432). A MEM port not Up within STARTWAIT of its PERST# release becomes Lost and posts class 0x03. -/
def execStartwaitExpiry (p : Fin 32) (s : State) : Host.Outcome State Fault Refusal := act s (doStartwaitExpiry p)

/-- DECLARE (R56). Writing PT_MEMCTL.DECLARE makes the MEM port Lost at once. -/
def execDeclare (p : Fin 32) (s : State) : Host.Outcome State Fault Refusal :=
  act s (gatedReg (ptBase p + 0x110) (fun _ => [(R.PT_MEMCTL_DECLARE, 1)]) (doDeclare p))

/-- READMIT (R58). Writing PT_MEMCTL.READMIT makes a Lost port Up when PLOTS is 0, the link trained and IDE active; otherwise nothing. -/
def execReadmit (p : Fin 32) (s : State) : Host.Outcome State Fault Refusal :=
  act s (gatedReg (ptBase p + 0x110) (fun _ => [(R.PT_MEMCTL_READMIT, 1)]) (doReadmit p))

/-- CXL_MEM_IDE_ACTIVE (R372). On a MEM port whose PT_IDE.REQ is 1, the module's SPDM and IDE key exchange with the sled completes and CXL.mem IDE
becomes active, moving the port from Waiting to Up. -/
def execCxlMemIdeActive (p : Fin 32) (s : State) : Host.Outcome State Fault Refusal := act s (doCxlMemIdeActive p)

end Sys2Proof.Machine
end

