-- ==== Sys2Proof/Machine/ExecLoop.lean ====
section
/-! DEFINITION. The commands of the levelling and placement loops (chapter 9): what each does to the module, and what follows in the same step. -/

namespace Sys2Proof.Machine

/-- LEVELLING_WINDOW_END (R226). At each window end the loop judges channel counts and starts a rekey after SUSTAIN qualifying windows and MININT. -/
def execLevellingWindowEnd (sd : Fin 2) (s : State) : Host.Outcome State Fault Refusal := act s (doLevellingWindowEnd sd)

/-- FORCE (R226). Writing LVL_CTL.FORCE starts a rekey at the next window end. -/
def execForce (sd : Fin 2) (s : State) : Host.Outcome State Fault Refusal :=
  act s (gatedReg (lvlBase sd + 0x40) (fun _ => [(R.LVL_CTL_FORCE, 1)]) (doForce sd))

/-- REKEY_SWEEP_MOVE (R231). The rekey sweep locks one old slot and moves its line to its new slot, the tailwater buffer, or drops it. -/
def execRekeySweepMove (sd : Fin 2) (c : Fin 128) (s : State) : Host.Outcome State Fault Refusal := act s (doRekeySweepMove sd c)

/-- SAMPLE_NOTE (R236). A sample note of a sled access reaches the tracking side and updates its hot table. -/
def execSampleNote (sd : Fin 2) (n : Nat) (s : State) : Host.Outcome State Fault Refusal := act s (doSampleNote sd n)

/-- PLACEMENT_TICK (R236). At each tick counts halve, hold-offs decrement, port loads are recorded and proposals are made. -/
def execPlacementTick (sd : Fin 2) (loads : Line) (s : State) : Host.Outcome State Fault Refusal := act s (doPlacementTick sd loads)

/-- POP (R238). Writing PLC_PROPPOP.POP discards the oldest proposal record. -/
def execPop (sd : Fin 2) (s : State) : Host.Outcome State Fault Refusal :=
  act s (gatedReg (lvlBase sd + 0x120) (fun _ => [(R.PLC_PROPPOP_POP, 1)]) (doPop sd))

/-- TRACKER_ENABLE (R240). Writing PLC_MIGT.EN = 1 sets all 512 step bits of the tracker; 0 frees it. -/
def execTrackerEnable (sd : Fin 2) (t : Fin 16) (plot : BitVec 27) (en : Bool) (s : State) : Host.Outcome State Fault Refusal :=
  act s (gatedReg (lvlBase sd + 0x400 + 16 * t) (fun _ => [(R.PLC_MIGT_PLOT, plot.toNat), (R.PLC_MIGT_EN, b2n en)]) (doTrackerEnable sd t plot en))

/-- TRACKER_HOLD (R241). Writing PLC_MIGT.HOLD = 1 holds the side's sled writes to the plot. -/
def execTrackerHold (sd : Fin 2) (t : Fin 16) (hold : Bool) (s : State) : Host.Outcome State Fault Refusal :=
  act s (gatedReg (lvlBase sd + 0x400 + 16 * t) (fun _ => [(R.PLC_MIGT_HOLD, b2n hold)]) (doTrackerHold sd t hold))

/-- HOLD_EXPIRY (R241). HOLD clears itself HOLDMAX µs after it was set; HOLDEXP is set and an event posts. -/
def execHoldExpiry (sd : Fin 2) (t : Fin 16) (s : State) : Host.Outcome State Fault Refusal := act s (doHoldExpiry sd t)

end Sys2Proof.Machine
end

