-- ==== Sys2Proof/Machine/ExecMgmt.lean ====
section
/-! DEFINITION. The commands of the Ditchrider (chapter 18): what each does to the module, and what follows in the same step. -/

namespace Sys2Proof.Machine

/-- RECOVERY_LOADER_PACKAGE (R458). The recovery loader writes a package to slot A, checks it and restarts the Ditchrider. -/
def execRecoveryLoaderPackage (pkg : Package) (env : StartEnv) (s : State) : Host.Outcome State Fault Refusal :=
  act s (doRecoveryLoaderPackage pkg env)

/-- LOG_FLUSH (R462). Each second, or at 128 pending or both feeds lost, pending records are written to the persistent ring. -/
def execLogFlush (s : State) : Host.Outcome State Fault Refusal := act s doLogFlush

/-- LOG_READ (R461). Writing MGT_LOGRD.GO fetches a record from the SRAM or persistent ring into MGT_LOGDAT. -/
def execLogRead (seq : BitVec 32) (boot : BitVec 16) (pers : Bool) (s : State) : Host.Outcome State Fault Refusal :=
  act s (gatedReg (mgtBase + 0x78) (fun _ => [(R.MGT_LOGRD_SEQ, seq.toNat), (R.MGT_LOGRD_BOOT, boot.toNat), (R.MGT_LOGRD_RING, b2n pers), (R.MGT_LOGRD_GO, 1)]) (doLogRead seq boot pers))

/-- NOTICE_QUEUE_DRAIN (R463). When the Ditchrider runs again, PD0 notices are turned into records in arrival order. -/
def execNoticeQueueDrain (s : State) : Host.Outcome State Fault Refusal := act s doNoticeQueueDrain

/-- FM_IDENTIFY (R467). CXL FM API Identify is answered. -/
def execFmIdentify (i : Fin 2) (s : State) : Host.Outcome State Fault Refusal := act s (doFmIdentify i)

/-- FM_BACKGROUND_OPERATION_STATUS (R467). CXL FM API Background Operation Status is answered. -/
def execFmBackgroundOperationStatus (i : Fin 2) (s : State) : Host.Outcome State Fault Refusal := act s (doFmBackgroundOperationStatus i)

/-- GET_RESPONSE_MESSAGE_LIMIT (R467). CXL FM API Get Response Message Limit is answered. -/
def execGetResponseMessageLimit (i : Fin 2) (s : State) : Host.Outcome State Fault Refusal := act s (doGetResponseMessageLimit i)

/-- GET_MULTI_HEADED_INFO (R467). CXL FM API Get Multi-Headed Info reports 32 heads. -/
def execGetMultiHeadedInfo (i : Fin 2) (s : State) : Host.Outcome State Fault Refusal := act s (doGetMultiHeadedInfo i)

/-- GET_HEAD_INFO (R467). CXL FM API Get Head Info reports HOST ports as heads. -/
def execGetHeadInfo (i : Fin 2) (s : State) : Host.Outcome State Fault Refusal := act s (doGetHeadInfo i)

/-- GET_LD_INFO (R467). CXL FM API Get LD Info reports one LD per head. -/
def execGetLdInfo (i : Fin 2) (s : State) : Host.Outcome State Fault Refusal := act s (doGetLdInfo i)

/-- GET_DCD_INFO (R467). CXL FM API Get DCD Info reflects Table 3-1. -/
def execGetDcdInfo (i : Fin 2) (s : State) : Host.Outcome State Fault Refusal := act s (doGetDcdInfo i)

/-- GET_HOST_DC_REGION_CONFIGURATION (R467). CXL FM API Get Host DC Region Configuration is answered. -/
def execGetHostDcRegionConfiguration (i : Fin 2) (p : Fin 32) (s : State) : Host.Outcome State Fault Refusal :=
  act s (doGetHostDcRegionConfiguration i p)

/-- GET_DC_REGION_EXTENT_LISTS (R467). CXL FM API Get DC Region Extent Lists reflects the view extents. -/
def execGetDcRegionExtentLists (i : Fin 2) (p : Fin 32) (s : State) : Host.Outcome State Fault Refusal := act s (doGetDcRegionExtentLists i p)

/-- INITIATE_DYNAMIC_CAPACITY_ADD (R467). With FMDC 1, posts a keeper call of MGT_FMCTL.ENTRY and answers Background Operation Started. -/
def execInitiateDynamicCapacityAdd (i : Fin 2) (args : BitVec 448) (s : State) : Host.Outcome State Fault Refusal :=
  act s (doInitiateDynamicCapacityAdd i args)

/-- INITIATE_DYNAMIC_CAPACITY_RELEASE (R467). With FMDC 1, posts a keeper call for a release and answers Background Operation Started. -/
def execInitiateDynamicCapacityRelease (i : Fin 2) (args : BitVec 448) (s : State) : Host.Outcome State Fault Refusal :=
  act s (doInitiateDynamicCapacityRelease i args)

/-- FM_UNSUPPORTED_COMMAND (R467). Any unsupported FM API command is answered Unsupported. -/
def execFmUnsupportedCommand (i : Fin 2) (s : State) : Host.Outcome State Fault Refusal := act s (doFmUnsupportedCommand i)

/-- READ_RECORDS (R468). Vendor message 0x01 returns up to 8 records from either ring. -/
def execReadRecords (i : Fin 2) (boot : BitVec 16) (seq : BitVec 32) (pers : Bool) (s : State) : Host.Outcome State Fault Refusal :=
  act s (doReadRecords i boot seq pers)

/-- SUBMIT_CALL (R468). Vendor message 0x02, keeper only, commits a descriptor to the keeper queue and returns its TAG. -/
def execSubmitCall (i : Fin 2) (ep : BitVec 8) (entry : BitVec 8) (flags : BitVec 2) (args : BitVec 448) (s : State) : Host.Outcome State Fault Refusal :=
  act s (doSubmitCall i ep entry flags args)

/-- READ_RESULTS (R468). Vendor message 0x03 returns results held for the endpoint's tags. -/
def execReadResults (i : Fin 2) (ep : BitVec 8) (s : State) : Host.Outcome State Fault Refusal := act s (doReadResults i ep)

/-- COMMIT_SVN (R459). Vendor message 0x05 blows security-version fuses up to the package SVN. -/
def execCommitSvn (i : Fin 2) (s : State) : Host.Outcome State Fault Refusal := act s (doCommitSvn i)

/-- RESULT_HOLD_EXPIRY (R469). A result held for an endpoint's tag is discarded after 60 s. -/
def execResultHoldExpiry (s : State) : Host.Outcome State Fault Refusal := act s doResultHoldExpiry

/-- PROGACT (R470). Writing MGT_UPD.PROGACT writes the staged program into each side's inactive bank and swaps. -/
def execProgact (s : State) : Host.Outcome State Fault Refusal := act s (gatedReg (mgtBase + 0x50) (fun _ => [(R.MGT_UPD_PROGACT, 1)]) doProgact)

/-- PHY_FIRMWARE_ACTIVATION (R470). A tile's PHY controllers swap firmware images between adaptation steps. -/
def execPhyFirmwareActivation (t : Fin 4) (s : State) : Host.Outcome State Fault Refusal := act s (doPhyFirmwareActivation t)

/-- KICK (R472). Writing MGT_WD.KICK restarts the watchdog period. -/
def execKick (s : State) : Host.Outcome State Fault Refusal := act s (gatedReg (mgtBase + 0x58) (fun _ => [(R.MGT_WD_KICK, 1)]) doKick)

/-- WATCHDOG_EXPIRY (R472). The watchdog period expires and escalates by LEVEL under Table 18-13. -/
def execWatchdogExpiry (env : StartEnv) (s : State) : Host.Outcome State Fault Refusal := act s (doWatchdogExpiry env)

/-- WATCHDOG_LEVEL_DECAY (R472). 60 s without an expiry returns LEVEL to 0. -/
def execWatchdogLevelDecay (s : State) : Host.Outcome State Fault Refusal := act s doWatchdogLevelDecay

/-- WATCHDOG_HELD_RESTART (R472). After 600 s Held the core restarts from the boot mode 3 slot. -/
def execWatchdogHeldRestart (s : State) : Host.Outcome State Fault Refusal := act s doWatchdogHeldRestart

end Sys2Proof.Machine
end

