-- ==== Sys2Proof/Machine/ExecNoc.lean ====
section
/-! DEFINITION. The commands of the network (chapter 13): what each does to the module, and what follows in the same step. -/

namespace Sys2Proof.Machine

/-- GATEWAY_PACKET (R347). A packet reaches a domain gateway and is delivered, held, used to wake the domain or discarded by gateway state. -/
def execGatewayPacket (sd : Fin 2) (site : Fin 64) (net : Fin 4) (hdr : BitVec 128) (d0 : NetBody) (s : State) : Host.Outcome State Fault Refusal :=
  act s (doGatewayPacket sd site net hdr d0.d0 d0.ck)

/-- UPLINK_FAIL (R349). A tile uplink fails; packets are held, bounced and rerouted by detour over the bridge. -/
def execUplinkFail (sd : Fin 2) (t : Fin 4) (bounced again : BitVec 8) (s : State) : Host.Outcome State Fault Refusal :=
  act s (doUplinkFail sd t bounced again)

/-- UPLINK_RETURN (R349). A tile uplink returns; a route marker is sent on each VN along the detour. -/
def execUplinkReturn (sd : Fin 2) (t : Fin 4) (s : State) : Host.Outcome State Fault Refusal := act s (doUplinkReturn sd t)

/-- ROUTE_MARKER_ACK (R349). A route marker is acknowledged and the direct route opens for its VN. -/
def execRouteMarkerAck (sd : Fin 2) (t : Fin 4) (vn : Fin 15) (s : State) : Host.Outcome State Fault Refusal := act s (doRouteMarkerAck sd t vn)

/-- NOC_TRADV (R352). Writing NOC_TRADV removes the oldest trace record. -/
def execNocTradv (sd : Fin 2) (s : State) : Host.Outcome State Fault Refusal := act s (doNocTradv sd)

end Sys2Proof.Machine
end

