-- ==== Sys2Proof/Machine/ExecPldm.lean ====
section
/-! DEFINITION. The commands of PLDM (chapter 18): what each does to the module, and what follows in the same step. -/

namespace Sys2Proof.Machine

/-- SET_ENDPOINT_ID (R465). MCTP Set Endpoint ID assigns the module's EID. -/
def execSetEndpointId (i : Fin 2) (eid : BitVec 8) (s : State) : Host.Outcome State Fault Refusal := act s (doSetEndpointId i eid)

/-- GET_TID (R466). PLDM GetTID is answered. -/
def execGetTid (i : Fin 2) (s : State) : Host.Outcome State Fault Refusal := act s (doGetTid i)

/-- SET_TID (R466). PLDM SetTID sets the terminus ID. -/
def execSetTid (i : Fin 2) (t : BitVec 8) (s : State) : Host.Outcome State Fault Refusal := act s (doSetTid i t)

/-- GET_PLDM_VERSION (R466). PLDM GetPLDMVersion is answered. -/
def execGetPldmVersion (i : Fin 2) (s : State) : Host.Outcome State Fault Refusal := act s (doGetPldmVersion i)

/-- GET_PLDM_TYPES (R466). PLDM GetPLDMTypes is answered. -/
def execGetPldmTypes (i : Fin 2) (s : State) : Host.Outcome State Fault Refusal := act s (doGetPldmTypes i)

/-- GET_PLDM_COMMANDS (R466). PLDM GetPLDMCommands is answered. -/
def execGetPldmCommands (i : Fin 2) (s : State) : Host.Outcome State Fault Refusal := act s (doGetPldmCommands i)

/-- GET_PDR_REPOSITORY_INFO (R466). PLDM GetPDRRepositoryInfo is answered. -/
def execGetPdrRepositoryInfo (i : Fin 2) (s : State) : Host.Outcome State Fault Refusal := act s (doGetPdrRepositoryInfo i)

/-- GET_PDR (R466). PLDM GetPDR returns sensor PDRs of Table 18-4. -/
def execGetPdr (i : Fin 2) (n : Nat) (s : State) : Host.Outcome State Fault Refusal := act s (doGetPdr i n)

/-- GET_SENSOR_READING (R466). PLDM GetSensorReading returns a numeric sensor. -/
def execGetSensorReading (i : Fin 2) (id : BitVec 16) (s : State) : Host.Outcome State Fault Refusal := act s (doGetSensorReading i id)

/-- GET_STATE_SENSOR_READINGS (R466). PLDM GetStateSensorReadings returns state sensors. -/
def execGetStateSensorReadings (i : Fin 2) (id : BitVec 16) (s : State) : Host.Outcome State Fault Refusal := act s (doGetStateSensorReadings i id)

/-- SET_EVENT_RECEIVER (R464). PLDM SetEventReceiver sets where PlatformEventMessages go. -/
def execSetEventReceiver (i : Fin 2) (eid : BitVec 8) (poll : Bool) (s : State) : Host.Outcome State Fault Refusal :=
  act s (doSetEventReceiver i eid poll)

/-- POLL_FOR_PLATFORM_EVENT_MESSAGE (R466). PLDM PollForPlatformEventMessage returns a pending event. -/
def execPollForPlatformEventMessage (i : Fin 2) (s : State) : Host.Outcome State Fault Refusal := act s (doPollForPlatformEventMessage i)

/-- PLDM_UNSUPPORTED_COMMAND (R466). Any other PLDM command answers ERROR_UNSUPPORTED_PLDM_CMD. -/
def execPldmUnsupportedCommand (i : Fin 2) (s : State) : Host.Outcome State Fault Refusal := act s (doPldmUnsupportedCommand i)

/-- QUERY_DEVICE_IDENTIFIERS (R466). PLDM QueryDeviceIdentifiers is answered. -/
def execQueryDeviceIdentifiers (i : Fin 2) (s : State) : Host.Outcome State Fault Refusal := act s (doQueryDeviceIdentifiers i)

/-- GET_FIRMWARE_PARAMETERS (R466). PLDM GetFirmwareParameters reports versions. -/
def execGetFirmwareParameters (i : Fin 2) (s : State) : Host.Outcome State Fault Refusal := act s (doGetFirmwareParameters i)

/-- REQUEST_UPDATE (R466). PLDM RequestUpdate enters update mode for one agent. -/
def execRequestUpdate (i : Fin 2) (ep : BitVec 8) (s : State) : Host.Outcome State Fault Refusal := act s (doRequestUpdate i ep)

/-- PASS_COMPONENT_TABLE (R466). PLDM PassComponentTable is accepted. -/
def execPassComponentTable (i : Fin 2) (s : State) : Host.Outcome State Fault Refusal := act s (doPassComponentTable i)

/-- UPDATE_COMPONENT (R466). PLDM UpdateComponent starts transfer of a component into its slot. -/
def execUpdateComponent (i : Fin 2) (comp : BitVec 16) (s : State) : Host.Outcome State Fault Refusal := act s (doUpdateComponent i comp)

/-- REQUEST_FIRMWARE_DATA (R466). Data for a RequestFirmwareData arrives and is written to flash. -/
def execRequestFirmwareData (i : Fin 2) (n : Nat) (s : State) : Host.Outcome State Fault Refusal := act s (doRequestFirmwareData i n)

/-- TRANSFER_COMPLETE (R466). PLDM TransferComplete is exchanged when the component is received. -/
def execTransferComplete (i : Fin 2) (pkg : Package) (s : State) : Host.Outcome State Fault Refusal := act s (doTransferComplete i pkg)

/-- VERIFY_COMPLETE (R456). The package is checked under R456 and VerifyComplete reports the result. -/
def execVerifyComplete (i : Fin 2) (s : State) : Host.Outcome State Fault Refusal := act s (doVerifyComplete i)

/-- APPLY_COMPLETE (R466). ApplyComplete ends the apply phase; factory and revocation packages take effect. -/
def execApplyComplete (i : Fin 2) (s : State) : Host.Outcome State Fault Refusal := act s (doApplyComplete i)

/-- ACTIVATE_FIRMWARE (R470). PLDM ActivateFirmware restarts the Ditchrider core from the new slot. -/
def execActivateFirmware (i : Fin 2) (s : State) : Host.Outcome State Fault Refusal := act s (doActivateFirmware i)

/-- GET_STATUS (R466). PLDM GetStatus reports update state. -/
def execGetStatus (i : Fin 2) (s : State) : Host.Outcome State Fault Refusal := act s (doGetStatus i)

/-- CANCEL_UPDATE_COMPONENT (R466). PLDM CancelUpdateComponent cancels the component being transferred. -/
def execCancelUpdateComponent (i : Fin 2) (s : State) : Host.Outcome State Fault Refusal := act s (doCancelUpdateComponent i)

/-- CANCEL_UPDATE (R471). PLDM CancelUpdate invalidates the partly written slot and leaves update mode. -/
def execCancelUpdate (i : Fin 2) (s : State) : Host.Outcome State Fault Refusal := act s (doCancelUpdate i)

end Sys2Proof.Machine
end

