-- ==== Sys2Proof/Machine/ExecPwr.lean ====
section
/-! DEFINITION. The commands of power, clocks and temperature (chapter 17): what each does to the module, and what follows in the same step. -/

namespace Sys2Proof.Machine

/-- PHASE_FAIL (R443). A regulator phase fails and is switched out with no effect on its rail. -/
def execPhaseFail (s : State) : Host.Outcome State Fault Refusal := act s doPhaseFail

/-- POWER_DOWN_REQUEST (R435). A domain's owner requests power-down after its own drain; the gateway goes to Draining. -/
def execPowerDownRequest (d : Fin 26) (s : State) : Host.Outcome State Fault Refusal := act s (doPowerDownRequest d)

/-- DOMAIN_DRAIN_END (R435). A Draining domain's outbound queues empty; it powers off, is retained, or returns On if aborted. -/
def execDomainDrainEnd (d : Fin 26) (s : State) : Host.Outcome State Fault Refusal := act s (doDomainDrainEnd d)

/-- POWER_UP_REQUEST (R435). A domain is powered up by its owner or by a WAKE packet; its rail ramps. -/
def execPowerUpRequest (d : Fin 26) (s : State) : Host.Outcome State Fault Refusal := act s (doPowerUpRequest d)

/-- DOMAIN_READY (R435). A Powering domain's rail is in regulation; the gateway returns On and delivers held packets. -/
def execDomainReady (d : Fin 26) (s : State) : Host.Outcome State Fault Refusal := act s (doDomainReady d)

/-- CLUSTER_IDLE_SLEEP (R437). With EN 1, a sluice cluster idle for IDLE µs is put to sleep at retention voltage. -/
def execClusterIdleSleep (sd : Fin 2) (s : State) : Host.Outcome State Fault Refusal := act s (doClusterIdleSleep sd)

/-- HOLD (R438). Writing PWR_SLEEP.HOLD 1 wakes a Retained cluster and keeps it awake; the write completes when On. -/
def execHold (sd : Fin 2) (s : State) : Host.Outcome State Fault Refusal := act s (doHold sd)

/-- OSCILLATOR_FAIL (R445). The selected oscillator fails; every PLL switches to the other within 1 µs. -/
def execOscillatorFail (osc : Fin 2) (s : State) : Host.Outcome State Fault Refusal := act s (doOscillatorFail osc)

/-- VF_EVALUATE (R447). Every 10 µs a side's loop adjusts voltage or fabric clock from the lowest slack. -/
def execVfEvaluate (sd : Fin 2) (slack : Option (BitVec 8)) (s : State) : Host.Outcome State Fault Refusal := act s (doVfEvaluate sd slack)

/-- NEGATIVE_SLACK (R448). A monitor reports negative slack; the clock stretcher lengthens the next 64 cycles. -/
def execNegativeSlack (sd : Fin 2) (s : State) : Host.Outcome State Fault Refusal := act s (doNegativeSlack sd)

/-- STRETCH_FAULT (R448). At 1.4 GHz and 0.90 V with the stretcher active for 1 ms, the side asserts its fault signal. -/
def execStretchFault (sd : Fin 2) (kept : Nat) (s : State) : Host.Outcome State Fault Refusal := act s (doStretchFault sd kept)

/-- THERMAL_SAMPLE (R450). Every 1 ms sensors are read and thermal steps of sides, tiles and stacks move. -/
def execThermalSample (x : Sample) (s : State) : Host.Outcome State Fault Refusal := act s (doThermalSample x)

end Sys2Proof.Machine
end

