-- ==== Sys2Proof/Machine/ExecRange.lean ====
section
/-! DEFINITION. The commands of range engines, flume channels and cache levels (chapter 12): what each does to the module, and what follows in the same step. -/

namespace Sys2Proof.Machine

/-- TRACKER_CLEAR (R240). A flume channel clears a step's tracker bit on both sides and waits for both confirmations. -/
def execTrackerClear (c : Fin 64) (s : State) : Host.Outcome State Fault Refusal := act s (doTrackerClear c)

/-- RANGE_QUANTUM_START (R315). A range engine starts its next quantum of up to 64 lines after the previous one and GAP, or stops on abort. -/
def execRangeQuantumStart (n : Fin 8) (s : State) : Host.Outcome State Fault Refusal := act s (doRangeQuantumStart n)

/-- RANGE_LINE_REQUEST (R317). A range line request reaches its home slice as internal work and is applied after its snoops under Table 12-1. -/
def execRangeLineRequest (n : Fin 8) (i : Fin 64) (s : State) : Host.Outcome State Fault Refusal := act s (doRangeLineRequest n i)

/-- RANGE_LINE_COMPLETE (R319). A range line completes back at the range engine. -/
def execRangeLineComplete (n : Fin 8) (s : State) : Host.Outcome State Fault Refusal := act s (doRangeLineComplete n)

/-- BLOCK_SNOOP_ASSEMBLY (R318). A tile holding all four needs of a group sends one BISnpInvBlk, or per-line BISnpInv after 2 µs or a no-snoop
notice. -/
def execBlockSnoopAssembly (p : Fin 32) (grp : BitVec 40) (expired : Bool) (s : State) : Host.Outcome State Fault Refusal :=
  act s (doBlockSnoopAssembly p grp expired)

/-- RANGE_ABORT (R316). Writing RGE_CTL.ABORT stops the operation at the next quantum boundary with STATUS 1. -/
def execRangeAbort (n : Fin 8) (s : State) : Host.Outcome State Fault Refusal :=
  act s (gatedReg (rgeBase n + 0x58) (fun _ => [(R.RGE_CTL_ABORT, 1)]) (doRangeAbort n))

/-- FLUME_STEP_START (R324). A flume channel starts a step, clearing tracker bits first for a tracked plot. -/
def execFlumeStepStart (c : Fin 64) (s : State) : Host.Outcome State Fault Refusal := act s (doFlumeStepStart c)

/-- FLUME_STEP_COMPLETE (R322). All 64 writes of a step complete; the last step ends the operation with STATUS 0. -/
def execFlumeStepComplete (c : Fin 64) (ue : Bool) (s : State) : Host.Outcome State Fault Refusal := act s (doFlumeStepComplete c ue)

/-- RESUME (R326). Writing FC_CTL.RESUME copies a Halted channel's failing step again. -/
def execResume (c : Fin 64) (s : State) : Host.Outcome State Fault Refusal :=
  act s (gatedReg (fcBase c + 0x18) (fun _ => [(R.FC_CTL_RESUME, 1)]) (doResume c))

/-- FLUME_ABORT (R326). Writing FC_CTL.ABORT ends a Running or Halted operation. -/
def execFlumeAbort (c : Fin 64) (s : State) : Host.Outcome State Fault Refusal :=
  act s (gatedReg (fcBase c + 0x18) (fun _ => [(R.FC_CTL_ABORT, 1)]) (doFlumeAbort c))

/-- HALTWAIT_EXPIRY (R326). A channel Halted for HALTWAIT ms ends with STATUS 5. -/
def execHaltwaitExpiry (c : Fin 64) (s : State) : Host.Outcome State Fault Refusal := act s (doHaltwaitExpiry c)

/-- HEADGATE_OFF (R328). Setting RGE_CCTL.OFF bit 0 stops fills and cleans every valid Headgate way. -/
def execHeadgateOff (sd : Fin 2) (s : State) : Host.Outcome State Fault Refusal :=
  act s (gatedReg (rgeBase (4 * sd) + 0x800) (fun m => [(R.RGE_CCTL_OFF, offWord m sd .headgate true)]) (doHeadgateOff sd))

/-- RESERVOIR_OFF (R328). Setting OFF bit 1 declines offers and drains every usable slot. -/
def execReservoirOff (sd : Fin 2) (s : State) : Host.Outcome State Fault Refusal :=
  act s (gatedReg (rgeBase (4 * sd) + 0x800) (fun m => [(R.RGE_CCTL_OFF, offWord m sd .reservoir true)]) (doReservoirOff sd))

/-- EAST_HALF_OFF (R332). Setting OFF bit 2 cleans ways 8–15 and powers down the east domain. -/
def execEastHalfOff (sd : Fin 2) (s : State) : Host.Outcome State Fault Refusal :=
  act s (gatedReg (rgeBase (4 * sd) + 0x800) (fun m => [(R.RGE_CCTL_OFF, offWord m sd .east true)]) (doEastHalfOff sd))

/-- HEADGATE_ON (R328). Clearing OFF bit 0 clears every tag entry and returns the Headgate to service. -/
def execHeadgateOn (sd : Fin 2) (s : State) : Host.Outcome State Fault Refusal :=
  act s (gatedReg (rgeBase (4 * sd) + 0x800) (fun m => [(R.RGE_CCTL_OFF, offWord m sd .headgate false)]) (doHeadgateOn sd))

/-- RESERVOIR_ON (R328). Clearing OFF bit 1 moves controllers from Bypass to Sweeping. -/
def execReservoirOn (sd : Fin 2) (s : State) : Host.Outcome State Fault Refusal :=
  act s (gatedReg (rgeBase (4 * sd) + 0x800) (fun m => [(R.RGE_CCTL_OFF, offWord m sd .reservoir false)]) (doReservoirOn sd))

/-- EAST_HALF_ON (R332). Clearing OFF bit 2 powers the east domain up and clears its tags. -/
def execEastHalfOn (sd : Fin 2) (s : State) : Host.Outcome State Fault Refusal :=
  act s (gatedReg (rgeBase (4 * sd) + 0x800) (fun m => [(R.RGE_CCTL_OFF, offWord m sd .east false)]) (doEastHalfOn sd))

/-- LEVEL_DRAIN_COMPLETE (R328). Every pass of a Draining level ended and its lines freed; the level is Off and DONE sets. -/
def execLevelDrainComplete (sd : Fin 2) (l : Level) (s : State) : Host.Outcome State Fault Refusal := act s (doLevelDrainComplete sd l)

/-- LEVEL_ENABLE_COMPLETE (R328). The tag clear or sweep of an Enabling level ends; the level is On and DONE sets. -/
def execLevelEnableComplete (sd : Fin 2) (l : Level) (s : State) : Host.Outcome State Fault Refusal := act s (doLevelEnableComplete sd l)

end Sys2Proof.Machine
end

