-- ==== Sys2Proof/Machine/ExecReset.lean ====
section
/-! DEFINITION. The commands of resets, starts and settings (chapter 16): what each does to the module, and what follows in the same step. -/

namespace Sys2Proof.Machine

/-- SPILLWAY_ENTRY_COMPLETE (R219). Every serving side's gauge is 0 and twin logs Off; slices go to Bypass, controllers to Bypass, mode Spillway. -/
def execSpillwayEntryComplete (env : StartEnv) (s : State) : Host.Outcome State Fault Refusal := act s (doSpillwayEntryComplete env)

/-- POWER_ON (R413). The first feed becomes present with none before, starting a cold reset and module start. -/
def execPowerOn (feed : Fin 2) (env : StartEnv) (s : State) : Host.Outcome State Fault Refusal := act s (doPowerOn feed env)

/-- MRST_RELEASE (R414). MRST# rises after a low pulse of 10 µs to 5 s, starting a module warm reset; shorter pulses are ignored. -/
def execMrstRelease (us : Nat) (env : StartEnv) (s : State) : Host.Outcome State Fault Refusal := act s (doMrstRelease us env)

/-- MRST_HELD (R414). MRST# held low for 5 s starts a cold reset lasting until it rises. -/
def execMrstHeld (s : State) : Host.Outcome State Fault Refusal := act s doMrstHeld

/-- ORDERLY_MODULE_WARM_RESET (R415). RST_CTL REQ 1 enters Spillway, then resets once no dirty line remains. -/
def execOrderlyModuleWarmReset (env : StartEnv) (s : State) : Host.Outcome State Fault Refusal := act s (doOrderlyModuleWarmReset env)

/-- IMMEDIATE_MODULE_WARM_RESET (R415). RST_CTL REQ 2 resets every domain but PD0 and PD1 at once, losing dirty lines. -/
def execImmediateModuleWarmReset (env : StartEnv) (s : State) : Host.Outcome State Fault Refusal := act s (doImmediateModuleWarmReset env)

/-- COLD_RESET_REQUEST (R413). RST_CTL REQ 3 starts a cold reset. -/
def execColdResetRequest (env : StartEnv) (s : State) : Host.Outcome State Fault Refusal := act s (doColdResetRequest env)

/-- RECOVERY_EXIT (R431). RST_CTL REQ 4 in Recovery mode clears COUNT and starts a warm reset with boot mode RST_CTL.BOOT. -/
def execRecoveryExit (env : StartEnv) (s : State) : Host.Outcome State Fault Refusal := act s (doRecoveryExit env)

/-- START_RUNNING (R420). Every named MEM port is Up or Lost; AON_OPMODE enters Normal or Single-side and the start record clears. -/
def execStartRunning (s : State) : Host.Outcome State Fault Refusal := act s doStartRunning

/-- START_TIMEOUT (R429). A start neither Running nor in Recovery within 5 s ends in an immediate warm reset with CAUSE 8. -/
def execStartTimeout (env : StartEnv) (s : State) : Host.Outcome State Fault Refusal := act s (doStartTimeout env)

/-- SIDE_START (R420). A side starts alone for reintegration or after a side reset, running steps 5 to 11. -/
def execSideStart (sd : Fin 2) (ok : Bool) (stk : BitVec 4) (s : State) : Host.Outcome State Fault Refusal := act s (doSideStart sd ok stk)

/-- SETTINGS_COMMIT_COMPLETE (R425). A commit's slot is written and read back; it completes with OK or FLASH_FAIL. -/
def execSettingsCommitComplete (ok : Bool) (s : State) : Host.Outcome State Fault Refusal := act s (doSettingsCommitComplete ok)

/-- CLR (R430). Writing AON_FS_COUNT.CLR from the Ditchrider sets COUNT to 0. -/
def execClr (s : State) : Host.Outcome State Fault Refusal := act s doClr

/-- FEED_PRESENT (R440). A feed at or above 40 V for 1 ms becomes present and is used again. -/
def execFeedPresent (feed : Fin 2) (env : StartEnv) (s : State) : Host.Outcome State Fault Refusal := act s (doFeedPresent feed env)

/-- FEED_LOST (R441). A feed below 38 V or above 62 V for 50 µs is lost; with the other present nothing else changes. -/
def execFeedLost (feed : Fin 2) (s : State) : Host.Outcome State Fault Refusal := act s (doFeedLost feed)

/-- HOLD_UP_END (R442). Hold-up ends with no feed; PD0 and PD1 lose power and the next start is cold. -/
def execHoldUpEnd (s : State) : Host.Outcome State Fault Refusal := act s doHoldUpEnd

end Sys2Proof.Machine
end

