-- ==== Sys2Proof/Machine/ExecRsv.lean ====
section
/-! DEFINITION. The commands of the Reservoir and the tailwater buffer (chapter 5): what each does to the module, and what follows in the same step. -/

namespace Sys2Proof.Machine

/-- SLED_WRITE_ACKNOWLEDGMENT (R122). A sled acknowledges a write; when every location has, the tailwater entry is freed and its writers and twin
copy are released. -/
def execSledWriteAcknowledgment (p : Fin 32) (id : Nat) (s : State) : Host.Outcome State Fault Refusal := act s (doSledWriteAck p id)

/-- SLOT_LOOKUP (R107). A slot read and tailwater lookup for a Headgate miss resolve under Table 5-8, taking data from tailwater, slot or sled. -/
def execSlotLookup (h : Fin 64) (ck : Check) (s : State) : Host.Outcome State Fault Refusal := act s (doSlotLookup h ck)

/-- TAKE (R108). A take from the slice makes the controller write a Dirty or Poisoned slot Invalid after the Headgate install. -/
def execTake (k : Fin 8) (s : State) : Host.Outcome State Fault Refusal := act s (doTake k)

/-- OFFER (R112). A line offered to the Reservoir is installed, declined or sent to the tailwater buffer by a locked read-modify-write. -/
def execOffer (k : Fin 8) (ue : Bool) (s : State) : Host.Outcome State Fault Refusal := act s (doOffer k ue)

/-- PREDICTOR_WINDOW_END (R116). After 2^WINLOG clean offers THRESH moves one step and the hit rate is recorded. -/
def execPredictorWindowEnd (k : Fin 8) (s : State) : Host.Outcome State Fault Refusal := act s (doPredictorWindowEnd k)

/-- CLEAN_SLOT_WRITE (R117). A line written to the sled while staying clean at the home is also written Clean to its slot before the writer
completes. -/
def execCleanSlotWrite (sd : Fin 2) (s : State) : Host.Outcome State Fault Refusal := act s (doCleanSlotWrite sd)

/-- SWEEP_FRAME (R127). The controller writes one frame of its cache area Invalid on all pseudo-channels and advances the sweep pointer. -/
def execSweepFrame (k : Fin 8) (s : State) : Host.Outcome State Fault Refusal := act s (doSweepFrame k)

/-- REFRESH_COMMAND (R129). A refresh falls due per bank at the interval of the current refresh step. -/
def execRefreshCommand (k : Fin 8) (s : State) : Host.Outcome State Fault Refusal := act s (doRefreshCommand k)

/-- STACK_TEMPERATURE_SAMPLE (R129). Every 1 ms the controller reads its hottest stack sensor and moves its refresh step. -/
def execStackTemperatureSample (k : Fin 8) (temp : BitVec 8) (s : State) : Host.Outcome State Fault Refusal := act s (doStackTemperatureSample k temp)

/-- FRAME_REMAP (R131). RSV_RETIRE GO with OP 1 moves a frame's lines out and remaps it to a spare frame. -/
def execFrameRemap (k : Fin 8) (pc : Fin 32) (frame : BitVec 19) (s : State) : Host.Outcome State Fault Refusal :=
  act s (gatedReg (rsvBase k + 0x58) (fun _ => [(R.RSV_RETIRE_FRAME, frame.toNat), (R.RSV_RETIRE_PC, pc), (R.RSV_RETIRE_OP, 1), (R.RSV_RETIRE_GO, 1)]) (retireGo k 1 pc frame))

/-- FRAME_BAR (R131). RSV_RETIRE GO with OP 2 moves a frame's lines out and bars the frame. -/
def execFrameBar (k : Fin 8) (pc : Fin 32) (frame : BitVec 19) (s : State) : Host.Outcome State Fault Refusal :=
  act s (gatedReg (rsvBase k + 0x58) (fun _ => [(R.RSV_RETIRE_FRAME, frame.toNat), (R.RSV_RETIRE_PC, pc), (R.RSV_RETIRE_OP, 2), (R.RSV_RETIRE_GO, 1)]) (retireGo k 2 pc frame))

/-- BANK_BAR (R132). RSV_RETIRE GO with OP 3 moves every cache frame of a bank and sets its bank-bar bit. -/
def execBankBar (k : Fin 8) (pc : Fin 32) (frame : BitVec 19) (s : State) : Host.Outcome State Fault Refusal :=
  act s (gatedReg (rsvBase k + 0x58) (fun _ => [(R.RSV_RETIRE_FRAME, frame.toNat), (R.RSV_RETIRE_PC, pc), (R.RSV_RETIRE_OP, 3), (R.RSV_RETIRE_GO, 1)]) (retireGo k 3 pc frame))

/-- FRAME_MOVE_COMPLETE (R131). A frame or bank move ends, installing its entry and setting RESULT and BUSY 0. -/
def execFrameMoveComplete (k : MoveEnd) (s : State) : Host.Outcome State Fault Refusal := act s (doFrameMoveComplete k.k k.bad)

/-- TAILWATER_WRITE (R122). A sled write enters the tailwater buffer as a new Waiting or Held entry, or merges into an existing one. -/
def execTailwaterWrite (sd : Fin 2) (s : State) : Host.Outcome State Fault Refusal := act s (doTailwaterWrite sd)

/-- TAILWATER_ISSUE (R122). The head Waiting entry of an Up MEM port's queue is sent as a sled write and becomes Issued. -/
def execTailwaterIssue (sd : Fin 2) (p : Fin 32) (ue : Bool) (s : State) : Host.Outcome State Fault Refusal := act s (doTailwaterIssue sd p ue)

end Sys2Proof.Machine
end

