-- ==== Sys2Proof/Machine/ExecSvc.lean ====
section
/-! DEFINITION. The commands of service instructions (chapter 11): what each does to the module, and what follows in the same step. -/

namespace Sys2Proof.Machine

/-- RGS_CLEAN (R296). RGS q 0 starts a range clean on a free range engine of the side. -/
def execRgsClean (e : Fin 32) (rd ra rb : Fin 32) (s : State) : Host.Outcome State Fault Refusal := act s (doRgsClean e rd ra rb)

/-- RGS_FLUSH (R296). RGS q 1 starts a range flush. -/
def execRgsFlush (e : Fin 32) (rd ra rb : Fin 32) (s : State) : Host.Outcome State Fault Refusal := act s (doRgsFlush e rd ra rb)

/-- RGS_DISCARD (R296). RGS q 2, keeper only, starts a range discard. -/
def execRgsDiscard (e : Fin 32) (rd ra rb : Fin 32) (s : State) : Host.Outcome State Fault Refusal := act s (doRgsDiscard e rd ra rb)

/-- RGS_ZERO (R296). RGS q 3 starts a range zero. -/
def execRgsZero (e : Fin 32) (rd ra rb : Fin 32) (s : State) : Host.Outcome State Fault Refusal := act s (doRgsZero e rd ra rb)

/-- RGS_PREFETCH (R296). RGS q 4 starts a range prefetch. -/
def execRgsPrefetch (e : Fin 32) (rd ra rb : Fin 32) (s : State) : Host.Outcome State Fault Refusal := act s (doRgsPrefetch e rd ra rb)

/-- RGW (R295). Waits for a range operation, or all of them, to end and returns the completion word, releasing the handle. -/
def execRgw (e : Fin 32) (rd ra : Fin 32) (s : State) : Host.Outcome State Fault Refusal := act s (doRgw e rd ra)

/-- FLS_DESCRIPTOR (R297). FLS q 0 checks a scratch flume descriptor and starts it on a free flume channel. -/
def execFlsDescriptor (e : Fin 32) (rd ra : Fin 32) (s : State) : Host.Outcome State Fault Refusal := act s (doFlsDescriptor e rd ra)

/-- FLS_STEP (R297). FLS q 1, keeper only, copies one 4 KiB step between sled locations. -/
def execFlsStep (e : Fin 32) (rd ra rb : Fin 32) (s : State) : Host.Outcome State Fault Refusal := act s (doFlsStep e rd ra rb)

/-- FLW (R295). Waits for a flume operation, or all of them, to end and returns the completion word. -/
def execFlw (e : Fin 32) (rd ra : Fin 32) (s : State) : Host.Outcome State Fault Refusal := act s (doFlw e rd ra)

/-- REGW (R299). Installs a region entry in stages, sweeping back-invalidates where the change needs it. -/
def execRegw (e : Fin 32) (rd ra rb : Fin 32) (s : State) : Host.Outcome State Fault Refusal := act s (doRegw e rd ra rb)

/-- REGR (R299). Writes region entry ra to scratch and returns whether it is in transition. -/
def execRegr (e : Fin 32) (rd ra rb : Fin 32) (s : State) : Host.Outcome State Fault Refusal := act s (doRegr e rd ra rb)

/-- PLCW (R301). Writes a placement entry to both copies after checks, as a rebind, drop, MIG change or flip. -/
def execPlcw (e : Fin 32) (rd ra rb : Fin 32) (s : State) : Host.Outcome State Fault Refusal := act s (doPlcw e rd ra rb)

/-- PLCR (R301). Returns the placement entry of a plot. -/
def execPlcr (e : Fin 32) (rd ra : Fin 32) (s : State) : Host.Outcome State Fault Refusal := act s (doPlcr e rd ra)

/-- PLCRUN (R313). Writes a run of placement entries in checked steps of 4,096. -/
def execPlcrun (e : Fin 32) (rd ra : Fin 32) (s : State) : Host.Outcome State Fault Refusal := act s (doPlcrun e rd ra)

/-- PLCTRK_ARM (R303). Arms tracker pair t for a plot on both sides, or gives TRACKER. -/
def execPlctrkArm (e : Fin 32) (rd ra rb : Fin 32) (s : State) : Host.Outcome State Fault Refusal := act s (doPlctrkArm e rd ra rb)

/-- PLCTRK_FREE (R303). Clears HOLD and EN of tracker pair t on both sides. -/
def execPlctrkFree (e : Fin 32) (rd ra rb : Fin 32) (s : State) : Host.Outcome State Fault Refusal := act s (doPlctrkFree e rd ra rb)

/-- PLCHOLD_SET (R303). Sets HOLD on both sides of pair t and waits for QUIET or HOLDEXP. -/
def execPlcholdSet (e : Fin 32) (rd ra : Fin 32) (s : State) : Host.Outcome State Fault Refusal := act s (doPlcholdSet e rd ra)

/-- PLCHOLD_CLEAR (R303). Clears HOLD on both sides of pair t. -/
def execPlcholdClear (e : Fin 32) (rd ra : Fin 32) (s : State) : Host.Outcome State Fault Refusal := act s (doPlcholdClear e rd ra)

/-- VEXT_INSTALL (R304). Installs a Free view extent, sends Add Capacity and waits for the host's answer. -/
def execVextInstall (e : Fin 32) (rd ra rb : Fin 32) (s : State) : Host.Outcome State Fault Refusal := act s (doVextInstall e rd ra rb)

/-- VEXT_RELEASE (R304). Sends Release Capacity for an Accepted extent and waits until it is Free. -/
def execVextRelease (e : Fin 32) (rd ra rb : Fin 32) (s : State) : Host.Outcome State Fault Refusal := act s (doVextRelease e rd ra rb)

/-- VEXT_FORCED_RELEASE (R304). Sends Forced Release for an Accepted or Releasing extent and waits until it is Free. -/
def execVextForcedRelease (e : Fin 32) (rd ra rb : Fin 32) (s : State) : Host.Outcome State Fault Refusal := act s (doVextForcedRelease e rd ra rb)

/-- FRET_REMAP (R305). FRET OP 1 starts a frame remap on controller k and waits for its result. -/
def execFretRemap (e : Fin 32) (rd ra rb : Fin 32) (s : State) : Host.Outcome State Fault Refusal := act s (doFretRemap e rd ra rb)

/-- FRET_BAR_FRAME (R305). FRET OP 2 starts a frame bar on controller k. -/
def execFretBarFrame (e : Fin 32) (rd ra rb : Fin 32) (s : State) : Host.Outcome State Fault Refusal := act s (doFretBarFrame e rd ra rb)

/-- FRET_BAR_BANK (R305). FRET OP 3 starts a bank bar on controller k. -/
def execFretBarBank (e : Fin 32) (rd ra rb : Fin 32) (s : State) : Host.Outcome State Fault Refusal := act s (doFretBarBank e rd ra rb)

/-- SCOMMIT (R306). Commits the live settings image to flash, one commit at a time, and reports its sequence number. -/
def execScommit (e : Fin 32) (rd : Fin 32) (size : BitVec 48) (s : State) : Host.Outcome State Fault Refusal := act s (doScommit e rd size)

end Sys2Proof.Machine
end

