-- ==== Sys2Proof/Machine/ExecTwin.lean ====
section
/-! DEFINITION. The commands of the twin logs and the bridge streams (chapters 6, 8 and 15): what each does to the module, and what follows in the same step. -/

namespace Sys2Proof.Machine

/-- RELEASE_CHECK (R197). When a line's last sled write frees, the slice checks for a remaining dirty copy and sends a release or changes O to S. -/
def execReleaseCheck (h : Fin 64) (s : State) : Host.Outcome State Fault Refusal := act s (doReleaseCheck h)

/-- MIRROR_UPDATE (R147). A mirror update arrives at the other side and is applied to the mirror by a locked read-modify-write. -/
def execMirrorUpdate (h : Fin 64) (s : State) : Host.Outcome State Fault Refusal := act s (doMirrorUpdate h)

/-- GRANT_RECORD_RELEASE (R148). The other side's mirror acknowledgment reaches the tile and frees the grant record. -/
def execGrantRecordRelease (p : Fin 32) (s : State) : Host.Outcome State Fault Refusal := act s (doGrantRecordRelease p)

/-- TWIN_WRITE (R193). A twin write arrives at the twin side, is staged, and is acknowledged with a twin notice to the writer. -/
def execTwinWrite (h : Fin 64) (s : State) : Host.Outcome State Fault Refusal := act s (doTwinWrite h)

/-- TWIN_ACK (R193). The home slice receives a twin acknowledgment, sends the write's completion and counts a new copy in the gauge. -/
def execTwinAck (h : Fin 64) (s : State) : Host.Outcome State Fault Refusal := act s (doTwinAck h)

/-- TWIN_NOTICE (R193). A twin notice reaches the writer's port tile or engine, recording the write as twin-durable. -/
def execTwinNotice (s : State) : Host.Outcome State Fault Refusal := act s doTwinNotice

/-- STAGING_EVICTION (R196). With more than 30,720 staged, the least recently written unpended entry is written to a bucket record or kept with a
clean request. -/
def execStagingEviction (t : Fin 2) (s : State) : Host.Outcome State Fault Refusal := act s (doStagingEviction t)

/-- CLEAN_REQUEST (R196). The home receives a clean request and writes the line to its sled through the tailwater buffer. -/
def execCleanRequest (h : Fin 64) (s : State) : Host.Outcome State Fault Refusal := act s (doCleanRequest h)

/-- RELEASE (R198). A release arrives at the twin side, frees the line's twin copy and is acknowledged. -/
def execRelease (h : Fin 64) (s : State) : Host.Outcome State Fault Refusal := act s (doRelease h)

/-- RELEASE_ACK (R200). A release acknowledgment reaches the home and the dirty gauge decrements. -/
def execReleaseAck (h : Fin 64) (s : State) : Host.Outcome State Fault Refusal := act s (doReleaseAck h)

/-- COMMIT (R198). A commit from the home clears a staged copy's pending flag when the tile releases an I/O write. -/
def execCommit (h : Fin 64) (s : State) : Host.Outcome State Fault Refusal := act s (doCommit h)

/-- CLEANER_SLOT (R202). The background cleaner reads one Reservoir slot and writes a Dirty or Poisoned line to its sled. -/
def execCleanerSlot (sd : Fin 2) (s : State) : Host.Outcome State Fault Refusal := act s (doCleanerSlot sd)

/-- TWIN_DRAIN_WRITE (R211). The twin drain writes one taken-half twin record to its sled at DRAINRATE and frees it on acknowledgment. -/
def execTwinDrainWrite (sd : Fin 2) (s : State) : Host.Outcome State Fault Refusal := act s (doTwinDrainWrite sd)

/-- TWIN_LOOKUP (R393). The twin side looks up the newest image of a line and returns it or none, for repair. -/
def execTwinLookup (h : Fin 64) (s : State) : Host.Outcome State Fault Refusal := act s (doTwinLookup h)

/-- TWIN_SEARCH (R394). A twin search target joins the circular scan, or failover is forced when 16 targets are open. -/
def execTwinSearch (h : Fin 64) (s : State) : Host.Outcome State Fault Refusal := act s (doTwinSearch h)

end Sys2Proof.Machine
end

