-- ==== Sys2Proof/Machine/Dispatch.lean ====
section
/-! DEFINITION. The meaning of every command. -/

namespace Sys2Proof.Machine

/-- A command's effect on everything but the queue. -/
def exec (i : Instr) (s : State) : Host.Outcome State Fault Refusal :=
  match i with
  | .memRd p tag hpa mv => Sys2Proof.Machine.execMemRd p tag hpa mv s
  | .memInv p tag hpa mv => Sys2Proof.Machine.execMemInv p tag hpa mv s
  | .memInvNt p tag hpa mv => Sys2Proof.Machine.execMemInvNt p tag hpa mv s
  | .memSpecRd p tag hpa => Sys2Proof.Machine.execMemSpecRd p tag hpa s
  | .memWr p tag hpa mv data poison => Sys2Proof.Machine.execMemWr p tag hpa mv data poison s
  | .memWrPtl p tag hpa mv data mask poison => Sys2Proof.Machine.execMemWrPtl p tag hpa mv data mask poison s
  | .biConflict p pln => Sys2Proof.Machine.execBiConflict p pln s
  | .biRspI p pln => Sys2Proof.Machine.execBiRspI p pln s
  | .biRspS p pln => Sys2Proof.Machine.execBiRspS p pln s
  | .biRspE p pln => Sys2Proof.Machine.execBiRspE p pln s
  | .biRspIBlk p grp lines => Sys2Proof.Machine.execBiRspIBlk p grp lines s
  | .biRspSBlk p grp => Sys2Proof.Machine.execBiRspSBlk p grp s
  | .biRspEBlk p grp => Sys2Proof.Machine.execBiRspEBlk p grp s
  | .hdmDecoderCommit p d base size dpa ways lock other => Sys2Proof.Machine.execHdmDecoderCommit p d base size dpa ways lock other s
  | .hostConfigAccess p a => Sys2Proof.Machine.execHostConfigAccess p a s
  | .doeRequest p k => Sys2Proof.Machine.execDoeRequest p k s
  | .memIdeKeyRefresh p => Sys2Proof.Machine.execMemIdeKeyRefresh p s
  | .identify p => Sys2Proof.Machine.execIdentify p s
  | .backgroundOperationStatus p => Sys2Proof.Machine.execBackgroundOperationStatus p s
  | .getSupportedLogs p => Sys2Proof.Machine.execGetSupportedLogs p s
  | .getLog p cel => Sys2Proof.Machine.execGetLog p cel s
  | .getTimestamp p => Sys2Proof.Machine.execGetTimestamp p s
  | .setTimestamp p ns => Sys2Proof.Machine.execSetTimestamp p ns s
  | .getEventRecords p l => Sys2Proof.Machine.execGetEventRecords p l s
  | .clearEventRecords p l n => Sys2Proof.Machine.execClearEventRecords p l n s
  | .getEventInterruptPolicy p => Sys2Proof.Machine.execGetEventInterruptPolicy p s
  | .setEventInterruptPolicy p v => Sys2Proof.Machine.execSetEventInterruptPolicy p v s
  | .getFwInfo p => Sys2Proof.Machine.execGetFwInfo p s
  | .identifyMemoryDevice p => Sys2Proof.Machine.execIdentifyMemoryDevice p s
  | .getHealthInfo p => Sys2Proof.Machine.execGetHealthInfo p s
  | .getAlertConfiguration p => Sys2Proof.Machine.execGetAlertConfiguration p s
  | .setAlertConfiguration p v => Sys2Proof.Machine.execSetAlertConfiguration p v s
  | .getPoisonList p => Sys2Proof.Machine.execGetPoisonList p s
  | .getDynamicCapacityConfiguration p => Sys2Proof.Machine.execGetDynamicCapacityConfiguration p s
  | .getDynamicCapacityExtentList p => Sys2Proof.Machine.execGetDynamicCapacityExtentList p s
  | .addDynamicCapacityResponse p e accept => Sys2Proof.Machine.execAddDynamicCapacityResponse p e accept s
  | .releaseDynamicCapacity p e => Sys2Proof.Machine.execReleaseDynamicCapacity p e s
  | .mailboxUnsupportedCommand p => Sys2Proof.Machine.execMailboxUnsupportedCommand p s
  | .extentOfferTimeout p e => Sys2Proof.Machine.execExtentOfferTimeout p e s
  | .msixUnmask p v => Sys2Proof.Machine.execMsixUnmask p v s
  | .cmdqArgWrite p slot a h v => Sys2Proof.Machine.execCmdqArgWrite p slot a h v s
  | .cmdqHeaderWrite p slot h v => Sys2Proof.Machine.execCmdqHeaderWrite p slot h v s
  | .ptResqPop p h ck => Sys2Proof.Machine.execPtResqPop p h ck s
  | .ptResqAdv p => Sys2Proof.Machine.execPtResqAdv p s
  | .hostBarBadAccess p write => Sys2Proof.Machine.execHostBarBadAccess p write s
  | .ioDmaRead p tag a n ido rid => Sys2Proof.Machine.execIoDmaRead p tag a n ido rid s
  | .ioPostedWrite p a n data en poison ro ido rid => Sys2Proof.Machine.execIoPostedWrite p a n data en poison ro ido rid s
  | .ioFetchAdd p tag a wide v ido rid => Sys2Proof.Machine.execIoFetchAdd p tag a wide v ido rid s
  | .ioSwap p tag a wide v ido rid => Sys2Proof.Machine.execIoSwap p tag a wide v ido rid s
  | .ioCas p tag a size cmp swap ido rid => Sys2Proof.Machine.execIoCas p tag a size cmp swap ido rid s
  | .ioUnsupportedRequest p tag => Sys2Proof.Machine.execIoUnsupportedRequest p tag s
  | .errCor p rid => Sys2Proof.Machine.execErrCor p rid s
  | .errNonfatal p rid => Sys2Proof.Machine.execErrNonfatal p rid s
  | .errFatal p rid => Sys2Proof.Machine.execErrFatal p rid s
  | .ioMessageDiscarded p counted => Sys2Proof.Machine.execIoMessageDiscarded p counted s
  | .writePrepared p => Sys2Proof.Machine.execWritePrepared p s
  | .writeRelease h => Sys2Proof.Machine.execWriteRelease h s
  | .configurationRequest p off be func write => Sys2Proof.Machine.execConfigurationRequest p off be func write s
  | .configurationCompletion p st data => Sys2Proof.Machine.execConfigurationCompletion p st data s
  | .configurationTimeout p => Sys2Proof.Machine.execConfigurationTimeout p s
  | .sledReadResponse p id data bad => Sys2Proof.Machine.execSledReadResponse p id data bad s
  | .sledWriteAcknowledgment p id => Sys2Proof.Machine.execSledWriteAcknowledgment p id s
  | .sledRequestTimeout p => Sys2Proof.Machine.execSledRequestTimeout p s
  | .sledPoll p recs => Sys2Proof.Machine.execSledPoll p recs s
  | .linkUp p rate width flit learned cap => Sys2Proof.Machine.execLinkUp p rate width flit learned cap s
  | .trainingRetry p => Sys2Proof.Machine.execTrainingRetry p s
  | .hostLinkDown p => Sys2Proof.Machine.execHostLinkDown p s
  | .memLinkDown p => Sys2Proof.Machine.execMemLinkDown p s
  | .ioLinkDown p => Sys2Proof.Machine.execIoLinkDown p s
  | .perstAssert p ns => Sys2Proof.Machine.execPerstAssert p ns s
  | .perstRelease p => Sys2Proof.Machine.execPerstRelease p s
  | .hotReset p => Sys2Proof.Machine.execHotReset p s
  | .linkDisable p => Sys2Proof.Machine.execLinkDisable p s
  | .cablePresenceChange p present => Sys2Proof.Machine.execCablePresenceChange p present s
  | .ideIntegrityFailure p => Sys2Proof.Machine.execIdeIntegrityFailure p s
  | .linkRecovery p flits => Sys2Proof.Machine.execLinkRecovery p flits s
  | .adaptationStep p margin lane fec => Sys2Proof.Machine.execAdaptationStep p margin lane fec s
  | .equalizationMarginLow p => Sys2Proof.Machine.execEqualizationMarginLow p s
  | .prst p => Sys2Proof.Machine.execPrst p s
  | .perstPulseEnd p => Sys2Proof.Machine.execPerstPulseEnd p s
  | .retrain p => Sys2Proof.Machine.execRetrain p s
  | .portDisable p dis => Sys2Proof.Machine.execPortDisable p dis s
  | .lossWaitExpiry p => Sys2Proof.Machine.execLossWaitExpiry p s
  | .startwaitExpiry p => Sys2Proof.Machine.execStartwaitExpiry p s
  | .declare p => Sys2Proof.Machine.execDeclare p s
  | .readmit p => Sys2Proof.Machine.execReadmit p s
  | .ptIowinWrite p w wordB v => Sys2Proof.Machine.execPtIowinWrite p w wordB v s
  | .registerWrite w a v => Sys2Proof.Machine.execRegisterWrite w a v s
  | .rcRegisterRead a => Sys2Proof.Machine.execRcRegisterRead a s
  | .lock w b => Sys2Proof.Machine.execLock w b s
  | .unlock w b => Sys2Proof.Machine.execUnlock w b s
  | .controlAccessTimeout w a => Sys2Proof.Machine.execControlAccessTimeout w a s
  | .newRequestAccept h => Sys2Proof.Machine.execNewRequestAccept h s
  | .prefetchRequest h => Sys2Proof.Machine.execPrefetchRequest h s
  | .fillReturn h ue => Sys2Proof.Machine.execFillReturn h ue s
  | .installRetry h => Sys2Proof.Machine.execInstallRetry h s
  | .missWaitRetry h => Sys2Proof.Machine.execMissWaitRetry h s
  | .directoryWaitRetry h => Sys2Proof.Machine.execDirectoryWaitRetry h s
  | .writeBufferArrayWrite h => Sys2Proof.Machine.execWriteBufferArrayWrite h s
  | .directoryCacheFill h => Sys2Proof.Machine.execDirectoryCacheFill h s
  | .snoopResponse h => Sys2Proof.Machine.execSnoopResponse h s
  | .snoopDataWrite h => Sys2Proof.Machine.execSnoopDataWrite h s
  | .bisnpTimeout p => Sys2Proof.Machine.execBisnpTimeout p s
  | .lostPortSweepEnd p => Sys2Proof.Machine.execLostPortSweepEnd p s
  | .dirQuery h line => Sys2Proof.Machine.execDirQuery h line s
  | .releaseCheck h => Sys2Proof.Machine.execReleaseCheck h s
  | .headgateWayenWrite h en => Sys2Proof.Machine.execHeadgateWayenWrite h en s
  | .wayCleanLine h => Sys2Proof.Machine.execWayCleanLine h s
  | .wayCleanComplete h => Sys2Proof.Machine.execWayCleanComplete h s
  | .slotLookup h ck => Sys2Proof.Machine.execSlotLookup h ck s
  | .take k => Sys2Proof.Machine.execTake k s
  | .offer k ue => Sys2Proof.Machine.execOffer k ue s
  | .predictorWindowEnd k => Sys2Proof.Machine.execPredictorWindowEnd k s
  | .cleanSlotWrite sd => Sys2Proof.Machine.execCleanSlotWrite sd s
  | .sweepFrame k => Sys2Proof.Machine.execSweepFrame k s
  | .refreshCommand k => Sys2Proof.Machine.execRefreshCommand k s
  | .stackTemperatureSample k temp => Sys2Proof.Machine.execStackTemperatureSample k temp s
  | .frameRemap k pc frame => Sys2Proof.Machine.execFrameRemap k pc frame s
  | .frameBar k pc frame => Sys2Proof.Machine.execFrameBar k pc frame s
  | .bankBar k pc frame => Sys2Proof.Machine.execBankBar k pc frame s
  | .frameMoveComplete k => Sys2Proof.Machine.execFrameMoveComplete k s
  | .tailwaterWrite sd => Sys2Proof.Machine.execTailwaterWrite sd s
  | .tailwaterIssue sd p ue => Sys2Proof.Machine.execTailwaterIssue sd p ue s
  | .mirrorUpdate h => Sys2Proof.Machine.execMirrorUpdate h s
  | .grantRecordRelease p => Sys2Proof.Machine.execGrantRecordRelease p s
  | .twinWrite h => Sys2Proof.Machine.execTwinWrite h s
  | .twinAck h => Sys2Proof.Machine.execTwinAck h s
  | .twinNotice => Sys2Proof.Machine.execTwinNotice s
  | .stagingEviction t => Sys2Proof.Machine.execStagingEviction t s
  | .cleanRequest h => Sys2Proof.Machine.execCleanRequest h s
  | .release h => Sys2Proof.Machine.execRelease h s
  | .releaseAck h => Sys2Proof.Machine.execReleaseAck h s
  | .commit h => Sys2Proof.Machine.execCommit h s
  | .cleanerSlot sd => Sys2Proof.Machine.execCleanerSlot sd s
  | .healthPulse sd => Sys2Proof.Machine.execHealthPulse sd s
  | .healthPulseMissed sd kept => Sys2Proof.Machine.execHealthPulseMissed sd kept s
  | .heartbeat sd => Sys2Proof.Machine.execHeartbeat sd s
  | .heartbeatMissed sd retrain kept => Sys2Proof.Machine.execHeartbeatMissed sd retrain kept s
  | .faultSignal sd st bt inst kept => Sys2Proof.Machine.execFaultSignal sd st bt inst kept s
  | .bridgeCreditTimeout sd kept => Sys2Proof.Machine.execBridgeCreditTimeout sd kept s
  | .bridgeLaneFail => Sys2Proof.Machine.execBridgeLaneFail s
  | .arbiterCopyFault copy => Sys2Proof.Machine.execArbiterCopyFault copy s
  | .twinDrainWrite sd => Sys2Proof.Machine.execTwinDrainWrite sd s
  | .enterSpillway => Sys2Proof.Machine.execEnterSpillway s
  | .spillwayEntryComplete env => Sys2Proof.Machine.execSpillwayEntryComplete env s
  | .leaveSpillway => Sys2Proof.Machine.execLeaveSpillway s
  | .stopSideA => Sys2Proof.Machine.execStopSideA s
  | .stopSideB => Sys2Proof.Machine.execStopSideB s
  | .stopDrainEnd kept => Sys2Proof.Machine.execStopDrainEnd kept s
  | .reintegrateStoppedSide bridge => Sys2Proof.Machine.execReintegrateStoppedSide bridge s
  | .soakEnd => Sys2Proof.Machine.execSoakEnd s
  | .slicePairHandback => Sys2Proof.Machine.execSlicePairHandback s
  | .handbackHoldExpiry => Sys2Proof.Machine.execHandbackHoldExpiry s
  | .enterRecovery => Sys2Proof.Machine.execEnterRecovery s
  | .levellingWindowEnd sd => Sys2Proof.Machine.execLevellingWindowEnd sd s
  | .force sd => Sys2Proof.Machine.execForce sd s
  | .rekeySweepMove sd c => Sys2Proof.Machine.execRekeySweepMove sd c s
  | .sampleNote sd n => Sys2Proof.Machine.execSampleNote sd n s
  | .placementTick sd loads => Sys2Proof.Machine.execPlacementTick sd loads s
  | .pop sd => Sys2Proof.Machine.execPop sd s
  | .trackerEnable sd t plot en => Sys2Proof.Machine.execTrackerEnable sd t plot en s
  | .trackerHold sd t hold => Sys2Proof.Machine.execTrackerHold sd t hold s
  | .holdExpiry sd t => Sys2Proof.Machine.execHoldExpiry sd t s
  | .trackerClear c => Sys2Proof.Machine.execTrackerClear c s
  | .descriptorDispatch ck => Sys2Proof.Machine.execDescriptorDispatch ck s
  | .callStart e ue ce => Sys2Proof.Machine.execCallStart e ue ce s
  | .callTimeLimit e => Sys2Proof.Machine.execCallTimeLimit e s
  | .postWaitExpiry e => Sys2Proof.Machine.execPostWaitExpiry e s
  | .trapDrainComplete e => Sys2Proof.Machine.execTrapDrainComplete e s
  | .engineReset e => Sys2Proof.Machine.execEngineReset e s
  | .engineRelease e => Sys2Proof.Machine.execEngineRelease e s
  | .sePsctlSwap sd => Sys2Proof.Machine.execSePsctlSwap sd s
  | .programStoreWrite sd b ix v => Sys2Proof.Machine.execProgramStoreWrite sd b ix v s
  | .storeBufferSend e ck => Sys2Proof.Machine.execStoreBufferSend e ck s
  | .storeComplete e => Sys2Proof.Machine.execStoreComplete e s
  | .add e rd ra rb => Sys2Proof.Machine.execAdd e rd ra rb s
  | .sub e rd ra rb => Sys2Proof.Machine.execSub e rd ra rb s
  | .and_ e rd ra rb => Sys2Proof.Machine.execAnd_ e rd ra rb s
  | .or_ e rd ra rb => Sys2Proof.Machine.execOr_ e rd ra rb s
  | .xor_ e rd ra rb => Sys2Proof.Machine.execXor_ e rd ra rb s
  | .andn e rd ra rb => Sys2Proof.Machine.execAndn e rd ra rb s
  | .sll e rd ra rb => Sys2Proof.Machine.execSll e rd ra rb s
  | .srl e rd ra rb => Sys2Proof.Machine.execSrl e rd ra rb s
  | .sra e rd ra rb => Sys2Proof.Machine.execSra e rd ra rb s
  | .rotl e rd ra rb => Sys2Proof.Machine.execRotl e rd ra rb s
  | .seq e rd ra rb => Sys2Proof.Machine.execSeq e rd ra rb s
  | .sne e rd ra rb => Sys2Proof.Machine.execSne e rd ra rb s
  | .slt e rd ra rb => Sys2Proof.Machine.execSlt e rd ra rb s
  | .sltu e rd ra rb => Sys2Proof.Machine.execSltu e rd ra rb s
  | .min_ e rd ra rb => Sys2Proof.Machine.execMin_ e rd ra rb s
  | .max_ e rd ra rb => Sys2Proof.Machine.execMax_ e rd ra rb s
  | .minu e rd ra rb => Sys2Proof.Machine.execMinu e rd ra rb s
  | .maxu e rd ra rb => Sys2Proof.Machine.execMaxu e rd ra rb s
  | .mul e rd ra rb => Sys2Proof.Machine.execMul e rd ra rb s
  | .mulhu e rd ra rb => Sys2Proof.Machine.execMulhu e rd ra rb s
  | .divu e rd ra rb => Sys2Proof.Machine.execDivu e rd ra rb s
  | .remu e rd ra rb => Sys2Proof.Machine.execRemu e rd ra rb s
  | .popc e rd ra => Sys2Proof.Machine.execPopc e rd ra s
  | .clz e rd ra => Sys2Proof.Machine.execClz e rd ra s
  | .ctz e rd ra => Sys2Proof.Machine.execCtz e rd ra s
  | .par e rd ra => Sys2Proof.Machine.execPar e rd ra s
  | .addi e rd ra imm => Sys2Proof.Machine.execAddi e rd ra imm s
  | .andi e rd ra imm => Sys2Proof.Machine.execAndi e rd ra imm s
  | .ori e rd ra imm => Sys2Proof.Machine.execOri e rd ra imm s
  | .xori e rd ra imm => Sys2Proof.Machine.execXori e rd ra imm s
  | .slli e rd ra sh => Sys2Proof.Machine.execSlli e rd ra sh s
  | .srli e rd ra sh => Sys2Proof.Machine.execSrli e rd ra sh s
  | .srai e rd ra sh => Sys2Proof.Machine.execSrai e rd ra sh s
  | .lui e rd imm => Sys2Proof.Machine.execLui e rd imm s
  | .ors e rd ra imm => Sys2Proof.Machine.execOrs e rd ra imm s
  | .slti e rd ra imm => Sys2Proof.Machine.execSlti e rd ra imm s
  | .sltiu e rd ra imm => Sys2Proof.Machine.execSltiu e rd ra imm s
  | .seqi e rd ra imm => Sys2Proof.Machine.execSeqi e rd ra imm s
  | .ext e rd ra lo wm1 => Sys2Proof.Machine.execExt e rd ra lo wm1 s
  | .ins e rd ra lo wm1 => Sys2Proof.Machine.execIns e rd ra lo wm1 s
  | .ort e rd ra imm => Sys2Proof.Machine.execOrt e rd ra imm s
  | .lb e rd ra imm ck => Sys2Proof.Machine.execLb e rd ra imm ck s
  | .lbu e rd ra imm ck => Sys2Proof.Machine.execLbu e rd ra imm ck s
  | .lh e rd ra imm ck => Sys2Proof.Machine.execLh e rd ra imm ck s
  | .lhu e rd ra imm ck => Sys2Proof.Machine.execLhu e rd ra imm ck s
  | .lw e rd ra imm ck => Sys2Proof.Machine.execLw e rd ra imm ck s
  | .lwu e rd ra imm ck => Sys2Proof.Machine.execLwu e rd ra imm ck s
  | .ld e rd ra imm ck => Sys2Proof.Machine.execLd e rd ra imm ck s
  | .ldx e rd ra rb ck => Sys2Proof.Machine.execLdx e rd ra rb ck s
  | .sb e rs ra imm => Sys2Proof.Machine.execSb e rs ra imm s
  | .sh e rs ra imm => Sys2Proof.Machine.execSh e rs ra imm s
  | .sw e rs ra imm => Sys2Proof.Machine.execSw e rs ra imm s
  | .sd e rs ra imm => Sys2Proof.Machine.execSd e rs ra imm s
  | .amoAdd e rd ra rb wide => Sys2Proof.Machine.execAmoAdd e rd ra rb wide s
  | .amoAnd e rd ra rb wide => Sys2Proof.Machine.execAmoAnd e rd ra rb wide s
  | .amoOr e rd ra rb wide => Sys2Proof.Machine.execAmoOr e rd ra rb wide s
  | .amoXor e rd ra rb wide => Sys2Proof.Machine.execAmoXor e rd ra rb wide s
  | .amoSwap e rd ra rb wide => Sys2Proof.Machine.execAmoSwap e rd ra rb wide s
  | .amoCas e rd ra rb wide => Sys2Proof.Machine.execAmoCas e rd ra rb wide s
  | .amoMinu e rd ra rb wide => Sys2Proof.Machine.execAmoMinu e rd ra rb wide s
  | .amoMaxu e rd ra rb wide => Sys2Proof.Machine.execAmoMaxu e rd ra rb wide s
  | .beq e ra rb off => Sys2Proof.Machine.execBeq e ra rb off s
  | .bne e ra rb off => Sys2Proof.Machine.execBne e ra rb off s
  | .blt e ra rb off => Sys2Proof.Machine.execBlt e ra rb off s
  | .bge e ra rb off => Sys2Proof.Machine.execBge e ra rb off s
  | .bltu e ra rb off => Sys2Proof.Machine.execBltu e ra rb off s
  | .bgeu e ra rb off => Sys2Proof.Machine.execBgeu e ra rb off s
  | .jal e rd off => Sys2Proof.Machine.execJal e rd off s
  | .jalr e rd ra imm => Sys2Proof.Machine.execJalr e rd ra imm s
  | .illegalOpcode e => Sys2Proof.Machine.execIllegalOpcode e s
  | .rgsClean e rd ra rb => Sys2Proof.Machine.execRgsClean e rd ra rb s
  | .rgsFlush e rd ra rb => Sys2Proof.Machine.execRgsFlush e rd ra rb s
  | .rgsDiscard e rd ra rb => Sys2Proof.Machine.execRgsDiscard e rd ra rb s
  | .rgsZero e rd ra rb => Sys2Proof.Machine.execRgsZero e rd ra rb s
  | .rgsPrefetch e rd ra rb => Sys2Proof.Machine.execRgsPrefetch e rd ra rb s
  | .rgw e rd ra => Sys2Proof.Machine.execRgw e rd ra s
  | .flsDescriptor e rd ra => Sys2Proof.Machine.execFlsDescriptor e rd ra s
  | .flsStep e rd ra rb => Sys2Proof.Machine.execFlsStep e rd ra rb s
  | .flw e rd ra => Sys2Proof.Machine.execFlw e rd ra s
  | .regw e rd ra rb => Sys2Proof.Machine.execRegw e rd ra rb s
  | .regr e rd ra rb => Sys2Proof.Machine.execRegr e rd ra rb s
  | .plcw e rd ra rb => Sys2Proof.Machine.execPlcw e rd ra rb s
  | .plcr e rd ra => Sys2Proof.Machine.execPlcr e rd ra s
  | .plcrun e rd ra => Sys2Proof.Machine.execPlcrun e rd ra s
  | .plctrkArm e rd ra rb => Sys2Proof.Machine.execPlctrkArm e rd ra rb s
  | .plctrkFree e rd ra rb => Sys2Proof.Machine.execPlctrkFree e rd ra rb s
  | .plcholdSet e rd ra => Sys2Proof.Machine.execPlcholdSet e rd ra s
  | .plcholdClear e rd ra => Sys2Proof.Machine.execPlcholdClear e rd ra s
  | .vextInstall e rd ra rb => Sys2Proof.Machine.execVextInstall e rd ra rb s
  | .vextRelease e rd ra rb => Sys2Proof.Machine.execVextRelease e rd ra rb s
  | .vextForcedRelease e rd ra rb => Sys2Proof.Machine.execVextForcedRelease e rd ra rb s
  | .fretRemap e rd ra rb => Sys2Proof.Machine.execFretRemap e rd ra rb s
  | .fretBarFrame e rd ra rb => Sys2Proof.Machine.execFretBarFrame e rd ra rb s
  | .fretBarBank e rd ra rb => Sys2Proof.Machine.execFretBarBank e rd ra rb s
  | .scommit e rd size => Sys2Proof.Machine.execScommit e rd size s
  | .post e ra rb => Sys2Proof.Machine.execPost e ra rb s
  | .rdcw e rd n => Sys2Proof.Machine.execRdcw e rd n s
  | .fenceSl e => Sys2Proof.Machine.execFenceSl e s
  | .trap e => Sys2Proof.Machine.execTrap e s
  | .yield_ e => Sys2Proof.Machine.execYield_ e s
  | .waitev e rd ra rb cond => Sys2Proof.Machine.execWaitev e rd ra rb cond s
  | .waitevPoll e => Sys2Proof.Machine.execWaitevPoll e s
  | .halt e => Sys2Proof.Machine.execHalt e s
  | .stepCut e => Sys2Proof.Machine.execStepCut e s
  | .rangeQuantumStart n => Sys2Proof.Machine.execRangeQuantumStart n s
  | .rangeLineRequest n ix => Sys2Proof.Machine.execRangeLineRequest n ix s
  | .rangeLineComplete n => Sys2Proof.Machine.execRangeLineComplete n s
  | .blockSnoopAssembly p grp expired => Sys2Proof.Machine.execBlockSnoopAssembly p grp expired s
  | .rangeAbort n => Sys2Proof.Machine.execRangeAbort n s
  | .flumeStepStart c => Sys2Proof.Machine.execFlumeStepStart c s
  | .flumeStepComplete c ue => Sys2Proof.Machine.execFlumeStepComplete c ue s
  | .resume c => Sys2Proof.Machine.execResume c s
  | .flumeAbort c => Sys2Proof.Machine.execFlumeAbort c s
  | .haltwaitExpiry c => Sys2Proof.Machine.execHaltwaitExpiry c s
  | .headgateOff sd => Sys2Proof.Machine.execHeadgateOff sd s
  | .reservoirOff sd => Sys2Proof.Machine.execReservoirOff sd s
  | .eastHalfOff sd => Sys2Proof.Machine.execEastHalfOff sd s
  | .headgateOn sd => Sys2Proof.Machine.execHeadgateOn sd s
  | .reservoirOn sd => Sys2Proof.Machine.execReservoirOn sd s
  | .eastHalfOn sd => Sys2Proof.Machine.execEastHalfOn sd s
  | .levelDrainComplete sd l => Sys2Proof.Machine.execLevelDrainComplete sd l s
  | .levelEnableComplete sd l => Sys2Proof.Machine.execLevelEnableComplete sd l s
  | .gatewayPacket sd site net hdr d0 => Sys2Proof.Machine.execGatewayPacket sd site net hdr d0 s
  | .uplinkFail sd t bounced again => Sys2Proof.Machine.execUplinkFail sd t bounced again s
  | .uplinkReturn sd t => Sys2Proof.Machine.execUplinkReturn sd t s
  | .routeMarkerAck sd t vn => Sys2Proof.Machine.execRouteMarkerAck sd t vn s
  | .nocTradv sd => Sys2Proof.Machine.execNocTradv sd s
  | .twinLookup h => Sys2Proof.Machine.execTwinLookup h s
  | .twinSearch h => Sys2Proof.Machine.execTwinSearch h s
  | .twinSearchComplete sd => Sys2Proof.Machine.execTwinSearchComplete sd s
  | .twinRefresh sd => Sys2Proof.Machine.execTwinRefresh sd s
  | .twinRefreshComplete sd => Sys2Proof.Machine.execTwinRefreshComplete sd s
  | .retwinRequest h => Sys2Proof.Machine.execRetwinRequest h s
  | .lostSetSweep half set => Sys2Proof.Machine.execLostSetSweep half set s
  | .lostSetSweepEnd half set => Sys2Proof.Machine.execLostSetSweepEnd half set s
  | .scrubRead l ck pct => Sys2Proof.Machine.execScrubRead l ck pct s
  | .scrubWindowEnd sd => Sys2Proof.Machine.execScrubWindowEnd sd s
  | .areaRemap k pc bank row => Sys2Proof.Machine.execAreaRemap k pc bank row s
  | .areaRemapComplete bad => Sys2Proof.Machine.execAreaRemapComplete bad s
  | .errPsmapWrite sd b ix page v => Sys2Proof.Machine.execErrPsmapWrite sd b ix page v s
  | .stackRetire k => Sys2Proof.Machine.execStackRetire k s
  | .trimRecordAppend => Sys2Proof.Machine.execTrimRecordAppend s
  | .learnedPresetCapture p v => Sys2Proof.Machine.execLearnedPresetCapture p v s
  | .arm => Sys2Proof.Machine.execArm s
  | .powerOn feed env => Sys2Proof.Machine.execPowerOn feed env s
  | .mrstRelease us env => Sys2Proof.Machine.execMrstRelease us env s
  | .mrstHeld => Sys2Proof.Machine.execMrstHeld s
  | .orderlyModuleWarmReset env => Sys2Proof.Machine.execOrderlyModuleWarmReset env s
  | .immediateModuleWarmReset env => Sys2Proof.Machine.execImmediateModuleWarmReset env s
  | .coldResetRequest env => Sys2Proof.Machine.execColdResetRequest env s
  | .recoveryExit env => Sys2Proof.Machine.execRecoveryExit env s
  | .startRunning => Sys2Proof.Machine.execStartRunning s
  | .startTimeout env => Sys2Proof.Machine.execStartTimeout env s
  | .sideStart sd ok stk => Sys2Proof.Machine.execSideStart sd ok stk s
  | .settingsCommitComplete ok => Sys2Proof.Machine.execSettingsCommitComplete ok s
  | .clr => Sys2Proof.Machine.execClr s
  | .feedPresent feed env => Sys2Proof.Machine.execFeedPresent feed env s
  | .feedLost feed => Sys2Proof.Machine.execFeedLost feed s
  | .holdUpEnd => Sys2Proof.Machine.execHoldUpEnd s
  | .phaseFail => Sys2Proof.Machine.execPhaseFail s
  | .powerDownRequest d => Sys2Proof.Machine.execPowerDownRequest d s
  | .domainDrainEnd d => Sys2Proof.Machine.execDomainDrainEnd d s
  | .powerUpRequest d => Sys2Proof.Machine.execPowerUpRequest d s
  | .domainReady d => Sys2Proof.Machine.execDomainReady d s
  | .clusterIdleSleep sd => Sys2Proof.Machine.execClusterIdleSleep sd s
  | .hold sd => Sys2Proof.Machine.execHold sd s
  | .oscillatorFail osc => Sys2Proof.Machine.execOscillatorFail osc s
  | .vfEvaluate sd slack => Sys2Proof.Machine.execVfEvaluate sd slack s
  | .negativeSlack sd => Sys2Proof.Machine.execNegativeSlack sd s
  | .stretchFault sd kept => Sys2Proof.Machine.execStretchFault sd kept s
  | .thermalSample x => Sys2Proof.Machine.execThermalSample x s
  | .recoveryLoaderPackage pkg env => Sys2Proof.Machine.execRecoveryLoaderPackage pkg env s
  | .logFlush => Sys2Proof.Machine.execLogFlush s
  | .logRead seq boot pers => Sys2Proof.Machine.execLogRead seq boot pers s
  | .noticeQueueDrain => Sys2Proof.Machine.execNoticeQueueDrain s
  | .setEndpointId ix eid => Sys2Proof.Machine.execSetEndpointId ix eid s
  | .getTid ix => Sys2Proof.Machine.execGetTid ix s
  | .setTid ix t => Sys2Proof.Machine.execSetTid ix t s
  | .getPldmVersion ix => Sys2Proof.Machine.execGetPldmVersion ix s
  | .getPldmTypes ix => Sys2Proof.Machine.execGetPldmTypes ix s
  | .getPldmCommands ix => Sys2Proof.Machine.execGetPldmCommands ix s
  | .getPdrRepositoryInfo ix => Sys2Proof.Machine.execGetPdrRepositoryInfo ix s
  | .getPdr ix n => Sys2Proof.Machine.execGetPdr ix n s
  | .getSensorReading ix id => Sys2Proof.Machine.execGetSensorReading ix id s
  | .getStateSensorReadings ix id => Sys2Proof.Machine.execGetStateSensorReadings ix id s
  | .setEventReceiver ix eid poll => Sys2Proof.Machine.execSetEventReceiver ix eid poll s
  | .pollForPlatformEventMessage ix => Sys2Proof.Machine.execPollForPlatformEventMessage ix s
  | .pldmUnsupportedCommand ix => Sys2Proof.Machine.execPldmUnsupportedCommand ix s
  | .queryDeviceIdentifiers ix => Sys2Proof.Machine.execQueryDeviceIdentifiers ix s
  | .getFirmwareParameters ix => Sys2Proof.Machine.execGetFirmwareParameters ix s
  | .requestUpdate ix ep => Sys2Proof.Machine.execRequestUpdate ix ep s
  | .passComponentTable ix => Sys2Proof.Machine.execPassComponentTable ix s
  | .updateComponent ix comp => Sys2Proof.Machine.execUpdateComponent ix comp s
  | .requestFirmwareData ix n => Sys2Proof.Machine.execRequestFirmwareData ix n s
  | .transferComplete ix pkg => Sys2Proof.Machine.execTransferComplete ix pkg s
  | .verifyComplete ix => Sys2Proof.Machine.execVerifyComplete ix s
  | .applyComplete ix => Sys2Proof.Machine.execApplyComplete ix s
  | .activateFirmware ix => Sys2Proof.Machine.execActivateFirmware ix s
  | .getStatus ix => Sys2Proof.Machine.execGetStatus ix s
  | .cancelUpdateComponent ix => Sys2Proof.Machine.execCancelUpdateComponent ix s
  | .cancelUpdate ix => Sys2Proof.Machine.execCancelUpdate ix s
  | .fmIdentify ix => Sys2Proof.Machine.execFmIdentify ix s
  | .fmBackgroundOperationStatus ix => Sys2Proof.Machine.execFmBackgroundOperationStatus ix s
  | .getResponseMessageLimit ix => Sys2Proof.Machine.execGetResponseMessageLimit ix s
  | .getMultiHeadedInfo ix => Sys2Proof.Machine.execGetMultiHeadedInfo ix s
  | .getHeadInfo ix => Sys2Proof.Machine.execGetHeadInfo ix s
  | .getLdInfo ix => Sys2Proof.Machine.execGetLdInfo ix s
  | .getDcdInfo ix => Sys2Proof.Machine.execGetDcdInfo ix s
  | .getHostDcRegionConfiguration ix p => Sys2Proof.Machine.execGetHostDcRegionConfiguration ix p s
  | .getDcRegionExtentLists ix p => Sys2Proof.Machine.execGetDcRegionExtentLists ix p s
  | .initiateDynamicCapacityAdd ix args => Sys2Proof.Machine.execInitiateDynamicCapacityAdd ix args s
  | .initiateDynamicCapacityRelease ix args => Sys2Proof.Machine.execInitiateDynamicCapacityRelease ix args s
  | .fmUnsupportedCommand ix => Sys2Proof.Machine.execFmUnsupportedCommand ix s
  | .readRecords ix boot seq pers => Sys2Proof.Machine.execReadRecords ix boot seq pers s
  | .submitCall ix ep entry flags args => Sys2Proof.Machine.execSubmitCall ix ep entry flags args s
  | .readResults ix ep => Sys2Proof.Machine.execReadResults ix ep s
  | .writeLockedField ix a v => Sys2Proof.Machine.execWriteLockedField ix a v s
  | .commitSvn ix => Sys2Proof.Machine.execCommitSvn ix s
  | .readRegister ix a => Sys2Proof.Machine.execReadRegister ix a s
  | .keeperQueueHeaderWrite w slot v => Sys2Proof.Machine.execKeeperQueueHeaderWrite w slot v s
  | .resultHoldExpiry => Sys2Proof.Machine.execResultHoldExpiry s
  | .progact => Sys2Proof.Machine.execProgact s
  | .phyFirmwareActivation t => Sys2Proof.Machine.execPhyFirmwareActivation t s
  | .kick => Sys2Proof.Machine.execKick s
  | .watchdogExpiry env => Sys2Proof.Machine.execWatchdogExpiry env s
  | .watchdogLevelDecay => Sys2Proof.Machine.execWatchdogLevelDecay s
  | .watchdogHeldRestart => Sys2Proof.Machine.execWatchdogHeldRestart s
  | .counterTick => Sys2Proof.Machine.execCounterTick s
  | .ringRecordComplete => Sys2Proof.Machine.execRingRecordComplete s
  | .ringEnable mode sizelog base => Sys2Proof.Machine.execRingEnable mode sizelog base s
  | .sampleTaken j inst port addr outcome lat twUsed => Sys2Proof.Machine.execSampleTaken j inst port addr outcome lat twUsed s
  | .cntSadv => Sys2Proof.Machine.execCntSadv s
  | .cxlMemIdeActive p => Sys2Proof.Machine.execCxlMemIdeActive p s
  | .reintegrationReplicationComplete => Sys2Proof.Machine.execReintegrationReplicationComplete s

end Sys2Proof.Machine
end

