-- ==== Sys2Proof/Safety.lean ====
section
/-! DEFINITION. What claims call a run that goes well: steps that go on, watermarks that show their comparison, the alert pin that shows the pending
alerts, and nothing left over of a command. -/

namespace Sys2Proof.Machine

/-- The step goes on. -/
def GoesOn (o : Host.Outcome State Fault Refusal) : Prop := ∃ t, o = .next t

/-- LEVEL of every watermark is the comparison of its measured value with its mark (R36). -/
def LevelsShow (m : Mach) : Prop := ∀ w ∈ Wm.all, fget m w.base w.level = b2n (Wm.now m w)

/-- ALERT# is driven low exactly while some PEND bit is 1 (R273). -/
def AlertShows (m : Mach) : Prop := m.boot.alertLow = true ↔ fget m aonBase R.AON_ALERT_PEND ≠ 0

/-- No notice and no watermark start is left over. -/
def NothingRaised (m : Mach) : Prop := m.events = [] ∧ m.markStart = []

/-- Command `i`, with the commands `q` behind it, makes of module `m` the module `m'`, and then what follows every command in the same step. -/
def Leads (i : Instr) (q : List Instr) (m m' : Mach) : Prop := exec i ⟨q, m⟩ = .next ⟨q, settle m m'⟩

/-- Engine `e` can perform the instruction at its PC, which has word `w`: it runs or waits at it with no access outstanding, no trap to take and its
time limit not reached, and the fetch is sound (R280, R284). FENCE words are left to the instruction after them. -/
def atWord (m : Mach) (e w : Nat) : Bool :=
  let x := engOf m e
  (x.st == .running || x.st == .waiting) && x.wait == .none && x.trap.isNone && !x.late && decide (x.pc < 0x3FC00) &&
    !progBad m (engSide e) x.bank x.pc && progWord m (engSide e) x.bank x.pc == w && w != fenceWord

/-- Nothing waits in the module that would go on by itself at the end of a command: no completion, no retirement, no failure, no flume operation, no
held request, snoop or sled request, no proposal, no held control access, no program activation, no entry into Spillway; and the levelling loops
show whether their controllers serve (R245). -/
def Quiet (m : Mach) : Prop :=
  m.done = [] ∧ m.twDone = [] ∧ m.fretDone = [] ∧ m.retireQ = [] ∧ m.fails = [] ∧ m.eng.flumes = [] ∧ (∀ t ∈ m.ports.ptt, maySend m t = false) ∧
    m.loops.props = [] ∧ m.net.ctl = [] ∧ fon m mgtBase R.MGT_UPD_PROGBUSY = false ∧ (∀ s ∈ m.ports.snps, s.sent = true ∨ s.fenced = true) ∧
    (∀ s ∈ m.ports.sleds, s.sent = true) ∧ m.twin.entering = false ∧ ∀ sd < 2, allServing m sd = (fget m (lvlBase sd) R.LVL_STATUS_STATE != 3)

end Sys2Proof.Machine
end

