-- ==== Sys2Proof/Certificates/Slice0/Obligations.lean ====
section
/-! DEFINITION. What the provers are to prove: what each command does, what every step keeps, and what reset leaves. -/

open Sys2Proof Sys2Proof.Machine

/-- With command c at the front of the queue, one step is exec of c on the state with the queue's rest. That the module idles on an empty queue is the
  model's choice (log entry 2). -/
def Obligations.AStepPerformsTheFrontCommand : Prop :=
  (∀ (c : Instr) (q : List Instr) (m : Mach), step ⟨c :: q, m⟩ = exec c ⟨q, m⟩) ∧ ∀ m : Mach, step ⟨[], m⟩ = .next ⟨[], m⟩

/-- For each of the 409 commands, each value of its operands and each state, exec answers a next state, which has the same commands waiting: no command
  stops the module. -/
def Obligations.EveryCommandCompletes : Prop :=
  ∀ (i : Instr) (q : List Instr) (m : Mach), ∃ m' : Mach, exec i ⟨q, m⟩ = .next ⟨q, m'⟩

/-- For each of the 232 watermarks, if LEVEL is 1 exactly while the measured value is at or past the mark, then the same holds after a step of any
  command. -/
def Obligations.WatermarkLevelsAreKept : Prop :=
  ∀ s t : State, LevelsShow s.m → step s = .next t → LevelsShow t.m

/-- In the state at reset LEVEL of every watermark is its comparison, ALERT# is not driven low, no notice is left over and the queue is empty. Register
  values that the manual does not give are the model's choice (log entries on reset). -/
def Obligations.TheModuleStartsSettled : Prop :=
  LevelsShow State.reset.m ∧ AlertShows State.reset.m ∧ NothingRaised State.reset.m ∧ State.reset.pending = []

/-- If the pin shows the pending alerts and nothing is left over, then the same holds after a step of any command: every notice that it raised has gone
  to its destinations. -/
def Obligations.TheAlertPinIsKept : Prop :=
  ∀ s t : State, AlertShows s.m → NothingRaised s.m → step s = .next t → AlertShows t.m ∧ NothingRaised t.m

/-- When nothing waits that would go on by itself and no keeper result is there to be drained, what follows a command leaves the home slices, the
  Reservoirs, the twin logs, the composition tables, the engines, the loops, the network, the flash, power, the collector and the tables of the ports
  as the command left them. When besides no notice was raised, no mark was crossed and no injection is armed, every register field but the LEVEL bits
  and the CLEANING bits of the two sides is as the command left it. Together with the statements of what each command makes of the module this is the
  frame of every command. -/
def Obligations.WhatFollowsACommandLeavesTheRest : Prop :=
  (∀ old m : Mach, Quiet m → resultsOf m 32 = [] → goOn m = m ∧ (settle old m).home = m.home ∧ (settle old m).rsv = m.rsv ∧ (settle old m).twIn = m.twIn ∧ (settle old m).tw = m.tw ∧ (settle old m).twin = m.twin ∧ (settle old m).comp = m.comp ∧ (settle old m).eng = m.eng ∧ (settle old m).done = m.done ∧ (settle old m).loops = m.loops ∧ (settle old m).twDone = m.twDone ∧ (settle old m).sampleQ = m.sampleQ ∧ (settle old m).fretDone = m.fretDone ∧ (settle old m).retireQ = m.retireQ ∧ (settle old m).net = m.net ∧ (settle old m).flash = m.flash ∧ (settle old m).pwr = m.pwr ∧ (settle old m).col = m.col ∧ (settle old m).fails = m.fails ∧ (settle old m).nextId = m.nextId ∧ (settle old m).free = m.free ∧ (settle old m).timeUs = m.timeUs ∧ (settle old m).ports.ptt = m.ports.ptt ∧ (settle old m).ports.snps = m.ports.snps ∧ (settle old m).ports.grants = m.ports.grants ∧ (settle old m).ports.queues.calls = m.ports.queues.calls ∧ (settle old m).ports.queues.commits = m.ports.queues.commits ∧ (settle old m).mgmt.upd = m.mgmt.upd ∧ (settle old m).mgmt.results = m.mgmt.results) ∧
  (∀ (old m : Mach) (b : Nat) (f : Fld), Quiet m → resultsOf m 32 = [] → m.events = [] → fon m aonBase R.ERR_INJ_ARM = false →
    (∀ w ∈ Wm.all, wmCrosses old m w = false) → (∀ w ∈ Wm.all, fkey b f ≠ fkey w.base w.level) →
    (∀ sd < 2, fkey b f ≠ fkey (twnBase sd) R.TWN_GAUGE_CLEANING) → fget (settle old m) b f = fget m b f)

/-- For each watermark whose LEVEL was 0 in the old state and whose value is now at or past its mark, in a block whose domain was on and whose reset did
  not just end: CROSSED becomes 1, CROSSINGS counts one and wraps at 16 bits, and with CROSSED 0 before a notice of class 0x02 is raised. A watermark
  that was not crossed keeps CROSSED and CROSSINGS. -/
def Obligations.WatermarkCrossings : Prop :=
  (∀ (old m : Mach) (w : Wm), w ∈ Wm.all → wmCrosses old m w = true →
    fget (Wm.all.foldl (wmCross old) m) w.base w.crossed = 1 ∧
    fget (Wm.all.foldl (wmCross old) m) w.base w.crossings = (fget m w.base w.crossings + 1) % 65536 ∧
    (fget m w.base w.crossed = 0 → ∃ e ∈ (Wm.all.foldl (wmCross old) m).events, e.cls = 2 ∧
      e.val = 2 + w.source.2 % 256 * 256 + (w.source.1 + w.mark.off / 8 * 2 ^ 8) % 2 ^ 24 * 65536)) ∧
  (∀ (old m : Mach) (w : Wm), w ∈ Wm.all → wmCrosses old m w = false →
    fget (Wm.all.foldl (wmCross old) m) w.base w.crossed = fget m w.base w.crossed ∧
    fget (Wm.all.foldl (wmCross old) m) w.base w.crossings = fget m w.base w.crossings)

/-- ERR_SCRSTAT.MLOG holds the base 2 logarithm of the multiplier. With more than CEHI corrected errors in the window it rises by one, with fewer than
  CELO it falls by one unless it is 0, and never beyond MULTMAX; no notice is raised and the module goes on. -/
def Obligations.TheScrubMultiplierFollowsItsWindow : Prop :=
  ∀ (sd : Fin 2) (q : List Instr) (m : Mach), ∃ m' : Mach, Leads (.scrubWindowEnd sd) q m m' ∧ m'.events = m.events ∧
    fget m' (32 * sd) R.ERR_SCRSTAT_MLOG ≤ fget m (32 * sd) R.ERR_SCRUB_MULTMAX ∧
    (fget m (32 * sd) R.ERR_SCRUB_CEHI < sget 0 m.ras.ceWin sd → fget m' (32 * sd) R.ERR_SCRSTAT_MLOG = min (fget m (32 * sd) R.ERR_SCRSTAT_MLOG + 1) (fget m (32 * sd) R.ERR_SCRUB_MULTMAX)) ∧
    (sget 0 m.ras.ceWin sd < fget m (32 * sd) R.ERR_SCRUB_CELO → sget 0 m.ras.ceWin sd ≤ fget m (32 * sd) R.ERR_SCRUB_CEHI →
      fget m' (32 * sd) R.ERR_SCRSTAT_MLOG = min (fget m (32 * sd) R.ERR_SCRSTAT_MLOG - 1) (fget m (32 * sd) R.ERR_SCRUB_MULTMAX)) ∧
    (fget m (32 * sd) R.ERR_SCRUB_CELO ≤ sget 0 m.ras.ceWin sd → sget 0 m.ras.ceWin sd ≤ fget m (32 * sd) R.ERR_SCRUB_CEHI →
      fget m' (32 * sd) R.ERR_SCRSTAT_MLOG = min (fget m (32 * sd) R.ERR_SCRSTAT_MLOG) (fget m (32 * sd) R.ERR_SCRUB_MULTMAX))

/-- An engine that stands at the word of ADD, SUB, AND, OR, XOR, ANDN, SLL, SRL, SRA, ROTL, MUL, MULHU, DIVU or REMU writes the value of Table 11-4 to
  rd and ends the instruction; shift and rotate amounts are rb[5:0], a quotient by 0 is all ones and a remainder by 0 is ra. It says of each of these
  forms that exec answers a next state, under hypotheses on the state and operands alone: add, sub, and_, or_, xor_, andn, sll, srl, sra, rotl, mul,
  mulhu, divu, remu. -/
def Obligations.AluArithmetic : Prop :=
  (∀ (e : Fin 32) (rd ra rb : Fin 32) (q : List Instr) (m : Mach), atWord m e (encA 0 rd ra rb 0x00) = true →
     Leads (.add e rd ra rb) q m (retireRd e rd (greg m e ra + greg m e rb) m)) ∧
  (∀ (e : Fin 32) (rd ra rb : Fin 32) (q : List Instr) (m : Mach), atWord m e (encA 0 rd ra rb 0x01) = true →
     Leads (.sub e rd ra rb) q m (retireRd e rd (greg m e ra - greg m e rb) m)) ∧
  (∀ (e : Fin 32) (rd ra rb : Fin 32) (q : List Instr) (m : Mach), atWord m e (encA 0 rd ra rb 0x02) = true →
     Leads (.and_ e rd ra rb) q m (retireRd e rd (greg m e ra &&& greg m e rb) m)) ∧
  (∀ (e : Fin 32) (rd ra rb : Fin 32) (q : List Instr) (m : Mach), atWord m e (encA 0 rd ra rb 0x03) = true →
     Leads (.or_ e rd ra rb) q m (retireRd e rd (greg m e ra ||| greg m e rb) m)) ∧
  (∀ (e : Fin 32) (rd ra rb : Fin 32) (q : List Instr) (m : Mach), atWord m e (encA 0 rd ra rb 0x04) = true →
     Leads (.xor_ e rd ra rb) q m (retireRd e rd (greg m e ra ^^^ greg m e rb) m)) ∧
  (∀ (e : Fin 32) (rd ra rb : Fin 32) (q : List Instr) (m : Mach), atWord m e (encA 0 rd ra rb 0x05) = true →
     Leads (.andn e rd ra rb) q m (retireRd e rd (greg m e ra &&& ~~~(greg m e rb)) m)) ∧
  (∀ (e : Fin 32) (rd ra rb : Fin 32) (q : List Instr) (m : Mach), atWord m e (encA 0 rd ra rb 0x06) = true →
     Leads (.sll e rd ra rb) q m (retireRd e rd (greg m e ra <<< ((greg m e rb).toNat % 64)) m)) ∧
  (∀ (e : Fin 32) (rd ra rb : Fin 32) (q : List Instr) (m : Mach), atWord m e (encA 0 rd ra rb 0x07) = true →
     Leads (.srl e rd ra rb) q m (retireRd e rd (greg m e ra >>> ((greg m e rb).toNat % 64)) m)) ∧
  (∀ (e : Fin 32) (rd ra rb : Fin 32) (q : List Instr) (m : Mach), atWord m e (encA 0 rd ra rb 0x08) = true →
     Leads (.sra e rd ra rb) q m (retireRd e rd ((greg m e ra).sshiftRight ((greg m e rb).toNat % 64)) m)) ∧
  (∀ (e : Fin 32) (rd ra rb : Fin 32) (q : List Instr) (m : Mach), atWord m e (encA 0 rd ra rb 0x09) = true →
     Leads (.rotl e rd ra rb) q m (retireRd e rd ((greg m e ra).rotateLeft ((greg m e rb).toNat % 64)) m)) ∧
  (∀ (e : Fin 32) (rd ra rb : Fin 32) (q : List Instr) (m : Mach), atWord m e (encA 0 rd ra rb 0x12) = true →
     Leads (.mul e rd ra rb) q m (retireRd e rd (greg m e ra * greg m e rb) m)) ∧
  (∀ (e : Fin 32) (rd ra rb : Fin 32) (q : List Instr) (m : Mach), atWord m e (encA 0 rd ra rb 0x13) = true →
     Leads (.mulhu e rd ra rb) q m (retireRd e rd (BitVec.ofNat 64 ((greg m e ra).toNat * (greg m e rb).toNat / 2 ^ 64)) m)) ∧
  (∀ (e : Fin 32) (rd ra rb : Fin 32) (q : List Instr) (m : Mach), atWord m e (encA 0 rd ra rb 0x14) = true →
     Leads (.divu e rd ra rb) q m (retireRd e rd (if greg m e rb = 0 then BitVec.allOnes 64 else greg m e ra / greg m e rb) m)) ∧
  (∀ (e : Fin 32) (rd ra rb : Fin 32) (q : List Instr) (m : Mach), atWord m e (encA 0 rd ra rb 0x15) = true →
     Leads (.remu e rd ra rb) q m (retireRd e rd (if greg m e rb = 0 then greg m e ra else greg m e ra % greg m e rb) m))

/-- An engine that stands at the word of SEQ, SNE, SLT, SLTU, MIN, MAX, MINU or MAXU writes 1 or 0, or the smaller or greater operand, signed or
  unsigned as Table 11-4 says, to rd and ends the instruction. It says of each of these forms that exec answers a next state, under hypotheses on the
  state and operands alone: seq, sne, slt, sltu, min_, max_, minu, maxu. -/
def Obligations.AluComparisons : Prop :=
  (∀ (e : Fin 32) (rd ra rb : Fin 32) (q : List Instr) (m : Mach), atWord m e (encA 0 rd ra rb 0x0A) = true →
     Leads (.seq e rd ra rb) q m (retireRd e rd (if greg m e ra = greg m e rb then 1 else 0) m)) ∧
  (∀ (e : Fin 32) (rd ra rb : Fin 32) (q : List Instr) (m : Mach), atWord m e (encA 0 rd ra rb 0x0B) = true →
     Leads (.sne e rd ra rb) q m (retireRd e rd (if greg m e ra = greg m e rb then 0 else 1) m)) ∧
  (∀ (e : Fin 32) (rd ra rb : Fin 32) (q : List Instr) (m : Mach), atWord m e (encA 0 rd ra rb 0x0C) = true →
     Leads (.slt e rd ra rb) q m (retireRd e rd (if (greg m e ra).toInt < (greg m e rb).toInt then 1 else 0) m)) ∧
  (∀ (e : Fin 32) (rd ra rb : Fin 32) (q : List Instr) (m : Mach), atWord m e (encA 0 rd ra rb 0x0D) = true →
     Leads (.sltu e rd ra rb) q m (retireRd e rd (if (greg m e ra).toNat < (greg m e rb).toNat then 1 else 0) m)) ∧
  (∀ (e : Fin 32) (rd ra rb : Fin 32) (q : List Instr) (m : Mach), atWord m e (encA 0 rd ra rb 0x0E) = true →
     Leads (.min_ e rd ra rb) q m (retireRd e rd (if (greg m e ra).toInt < (greg m e rb).toInt then greg m e ra else greg m e rb) m)) ∧
  (∀ (e : Fin 32) (rd ra rb : Fin 32) (q : List Instr) (m : Mach), atWord m e (encA 0 rd ra rb 0x0F) = true →
     Leads (.max_ e rd ra rb) q m (retireRd e rd (if (greg m e ra).toInt < (greg m e rb).toInt then greg m e rb else greg m e ra) m)) ∧
  (∀ (e : Fin 32) (rd ra rb : Fin 32) (q : List Instr) (m : Mach), atWord m e (encA 0 rd ra rb 0x10) = true →
     Leads (.minu e rd ra rb) q m (retireRd e rd (if (greg m e ra).toNat < (greg m e rb).toNat then greg m e ra else greg m e rb) m)) ∧
  (∀ (e : Fin 32) (rd ra rb : Fin 32) (q : List Instr) (m : Mach), atWord m e (encA 0 rd ra rb 0x11) = true →
     Leads (.maxu e rd ra rb) q m (retireRd e rd (if (greg m e ra).toNat < (greg m e rb).toNat then greg m e rb else greg m e ra) m))

/-- An engine that stands at the word of POPC, CLZ, CTZ or PAR, with rb field 0, writes the number of ones of ra, its leading zeros (64 for 0), its
  trailing zeros (64 for 0) or its parity to rd and ends the instruction. It says of each of these forms that exec answers a next state, under
  hypotheses on the state and operands alone: popc, clz, ctz, par. -/
def Obligations.AluCounts : Prop :=
  (∀ (e : Fin 32) (rd ra : Fin 32) (q : List Instr) (m : Mach), atWord m e (encA 0 rd ra 0 0x16) = true →
     ∃ v : Nat, v = ((List.range 64).filter fun k => (greg m e ra).getLsbD k).length ∧
     Leads (.popc e rd ra) q m (retireRd e rd (BitVec.ofNat 64 v) m)) ∧
  (∀ (e : Fin 32) (rd ra : Fin 32) (q : List Instr) (m : Mach), atWord m e (encA 0 rd ra 0 0x17) = true → ∃ v : Nat, v ≤ 64 ∧
     (∀ k < v, (greg m e ra).getMsbD k = false) ∧ (v < 64 → (greg m e ra).getMsbD v = true) ∧
     Leads (.clz e rd ra) q m (retireRd e rd (BitVec.ofNat 64 v) m)) ∧
  (∀ (e : Fin 32) (rd ra : Fin 32) (q : List Instr) (m : Mach), atWord m e (encA 0 rd ra 0 0x18) = true → ∃ v : Nat, v ≤ 64 ∧
     (∀ k < v, (greg m e ra).getLsbD k = false) ∧ (v < 64 → (greg m e ra).getLsbD v = true) ∧
     Leads (.ctz e rd ra) q m (retireRd e rd (BitVec.ofNat 64 v) m)) ∧
  (∀ (e : Fin 32) (rd ra : Fin 32) (q : List Instr) (m : Mach), atWord m e (encA 0 rd ra 0 0x19) = true →
     ∃ v : Nat, v = ((List.range 64).filter fun k => (greg m e ra).getLsbD k).length % 2 ∧
     Leads (.par e rd ra) q m (retireRd e rd (BitVec.ofNat 64 v) m))

/-- An engine that stands at the word of ADDI, ANDI, ORI, XORI, SLLI, SRLI, SRAI, LUI, ORS, SLTI, SLTIU, SEQI or ORT writes the value of Table 11-5 to
  rd and ends the instruction; the signed forms extend imm16 from its bit 15 and the others fill with zeros. It says of each of these forms that exec
  answers a next state, under hypotheses on the state and operands alone: addi, andi, ori, xori, ors, slti, sltiu, seqi, ort, slli, srli, srai, lui. -/
def Obligations.ImmediateResults : Prop :=
  (∀ (e : Fin 32) (rd ra : Fin 32) (imm : BitVec 16) (q : List Instr) (m : Mach), atWord m e (encI 0x01 rd ra imm.toNat) = true →
     Leads (.addi e rd ra imm) q m (retireRd e rd (greg m e ra + imm.signExtend 64) m)) ∧
  (∀ (e : Fin 32) (rd ra : Fin 32) (imm : BitVec 16) (q : List Instr) (m : Mach), atWord m e (encI 0x02 rd ra imm.toNat) = true →
     Leads (.andi e rd ra imm) q m (retireRd e rd (greg m e ra &&& imm.zeroExtend 64) m)) ∧
  (∀ (e : Fin 32) (rd ra : Fin 32) (imm : BitVec 16) (q : List Instr) (m : Mach), atWord m e (encI 0x03 rd ra imm.toNat) = true →
     Leads (.ori e rd ra imm) q m (retireRd e rd (greg m e ra ||| imm.zeroExtend 64) m)) ∧
  (∀ (e : Fin 32) (rd ra : Fin 32) (imm : BitVec 16) (q : List Instr) (m : Mach), atWord m e (encI 0x04 rd ra imm.toNat) = true →
     Leads (.xori e rd ra imm) q m (retireRd e rd (greg m e ra ^^^ imm.zeroExtend 64) m)) ∧
  (∀ (e : Fin 32) (rd ra : Fin 32) (sh : Fin 64) (q : List Instr) (m : Mach), atWord m e (encI 0x05 rd ra sh) = true →
     Leads (.slli e rd ra sh) q m (retireRd e rd (greg m e ra <<< sh.val) m)) ∧
  (∀ (e : Fin 32) (rd ra : Fin 32) (sh : Fin 64) (q : List Instr) (m : Mach), atWord m e (encI 0x06 rd ra sh) = true →
     Leads (.srli e rd ra sh) q m (retireRd e rd (greg m e ra >>> sh.val) m)) ∧
  (∀ (e : Fin 32) (rd ra : Fin 32) (sh : Fin 64) (q : List Instr) (m : Mach), atWord m e (encI 0x07 rd ra sh) = true →
     Leads (.srai e rd ra sh) q m (retireRd e rd ((greg m e ra).sshiftRight sh.val) m)) ∧
  (∀ (e : Fin 32) (rd : Fin 32) (imm : BitVec 16) (q : List Instr) (m : Mach), atWord m e (encI 0x08 rd 0 imm.toNat) = true →
     Leads (.lui e rd imm) q m (retireRd e rd (imm.zeroExtend 64 <<< 16) m)) ∧
  (∀ (e : Fin 32) (rd ra : Fin 32) (imm : BitVec 16) (q : List Instr) (m : Mach), atWord m e (encI 0x09 rd ra imm.toNat) = true →
     Leads (.ors e rd ra imm) q m (retireRd e rd (greg m e ra ||| (imm.zeroExtend 64 <<< 32)) m)) ∧
  (∀ (e : Fin 32) (rd ra : Fin 32) (imm : BitVec 16) (q : List Instr) (m : Mach), atWord m e (encI 0x0A rd ra imm.toNat) = true →
     Leads (.slti e rd ra imm) q m (retireRd e rd (if (greg m e ra).toInt < imm.toInt then 1 else 0) m)) ∧
  (∀ (e : Fin 32) (rd ra : Fin 32) (imm : BitVec 16) (q : List Instr) (m : Mach), atWord m e (encI 0x0B rd ra imm.toNat) = true →
     Leads (.sltiu e rd ra imm) q m (retireRd e rd (if (greg m e ra).toNat < (imm.signExtend 64).toNat then 1 else 0) m)) ∧
  (∀ (e : Fin 32) (rd ra : Fin 32) (imm : BitVec 16) (q : List Instr) (m : Mach), atWord m e (encI 0x0C rd ra imm.toNat) = true →
     Leads (.seqi e rd ra imm) q m (retireRd e rd (if greg m e ra = imm.signExtend 64 then 1 else 0) m)) ∧
  (∀ (e : Fin 32) (rd ra : Fin 32) (imm : BitVec 16) (q : List Instr) (m : Mach), atWord m e (encI 0x0F rd ra imm.toNat) = true →
     Leads (.ort e rd ra imm) q m (retireRd e rd (greg m e ra ||| (imm.zeroExtend 64 <<< 48)) m))

/-- An engine at the word of EXT writes (ra >> lo) & (2^width - 1) to rd, and at the word of INS replaces rd[lo + width - 1 : lo] by ra[width - 1 : 0]
  and leaves the other bits of rd, where lo is imm[5:0] and width is imm[11:6] + 1; with lo + width above 64 either traps ILLEGAL. (The other rows of
  Table 11-5 are stated by ImmediateResults.) It says of each of these forms that exec answers a next state, under hypotheses on the state and
  operands alone: ext, ins. -/
def Obligations.BitFields : Prop :=
  (∀ (e : Fin 32) (rd ra : Fin 32) (lo wm1 : Fin 64) (q : List Instr) (m : Mach), atWord m e (encI 0x0D rd ra (lo + wm1 * 64)) = true →
     lo.val + wm1.val + 1 ≤ 64 → Leads (.ext e rd ra lo wm1) q m (retireRd e rd ((greg m e ra >>> lo.val) &&& BitVec.ofNat 64 (2 ^ (wm1.val + 1) -
     1)) m)) ∧
  (∀ (e : Fin 32) (rd ra : Fin 32) (lo wm1 : Fin 64) (q : List Instr) (m : Mach), atWord m e (encI 0x0E rd ra (lo + wm1 * 64)) = true →
     lo.val + wm1.val + 1 ≤ 64 → ∃ v : Word, (∀ k < 64, v.getLsbD k = if lo.val ≤ k ∧
     k ≤ lo.val + wm1.val then (greg m e ra).getLsbD (k - lo.val) else (greg m e rd).getLsbD k) ∧
     Leads (.ins e rd ra lo wm1) q m (retireRd e rd v m)) ∧
  (∀ (e : Fin 32) (rd ra : Fin 32) (lo wm1 : Fin 64) (q : List Instr) (m : Mach), atWord m e (encI 0x0D rd ra (lo + wm1 * 64)) = true →
     64 < lo.val + wm1.val + 1 → Leads (.ext e rd ra lo wm1) q m (trapNow m e .illegal 0)) ∧
  (∀ (e : Fin 32) (rd ra : Fin 32) (lo wm1 : Fin 64) (q : List Instr) (m : Mach), atWord m e (encI 0x0E rd ra (lo + wm1 * 64)) = true →
     64 < lo.val + wm1.val + 1 → Leads (.ins e rd ra lo wm1) q m (trapNow m e .illegal 0))

/-- An engine at a branch word sets PC to (PC + sext(offset16)) mod 2^18 when the comparison of ra and rb holds (equality, inequality, signed order,
  unsigned order) and goes to the next word otherwise. JAL writes PC + 1 to rd and sets PC to (PC + sext(offset21)) mod 2^18; JALR writes PC + 1 to rd
  and sets PC to (ra + sext(imm16)) mod 2^18, with ra read before rd is written. A target of 0x3FC00 or above traps ACCESS when it is fetched. It says
  of each of these forms that exec answers a next state, under hypotheses on the state and operands alone: jal, jalr, beq, bne, blt, bge, bltu, bgeu. -/
def Obligations.BranchesAndJumps : Prop :=
  (∀ (e : Fin 32) (ra rb : Fin 32) (off : BitVec 16) (q : List Instr) (m : Mach), atWord m e (encI 0x20 ra rb off.toNat) = true →
     Leads (.beq e ra rb off) q m (if greg m e ra = greg m e rb then retireTo m e (((engOf m e).pc + off.toInt) % 2 ^ 18).toNat else retire m e)) ∧
  (∀ (e : Fin 32) (ra rb : Fin 32) (off : BitVec 16) (q : List Instr) (m : Mach), atWord m e (encI 0x21 ra rb off.toNat) = true →
     Leads (.bne e ra rb off) q m (if greg m e ra ≠ greg m e rb then retireTo m e (((engOf m e).pc + off.toInt) % 2 ^ 18).toNat else retire m e)) ∧
  (∀ (e : Fin 32) (ra rb : Fin 32) (off : BitVec 16) (q : List Instr) (m : Mach), atWord m e (encI 0x22 ra rb off.toNat) = true →
     Leads (.blt e ra rb off) q m (if (greg m e ra).toInt < (greg m e rb).toInt then retireTo m e (((engOf m e).pc + off.toInt) % 2 ^ 18).toNat else
     retire m e)) ∧
  (∀ (e : Fin 32) (ra rb : Fin 32) (off : BitVec 16) (q : List Instr) (m : Mach), atWord m e (encI 0x23 ra rb off.toNat) = true →
     Leads (.bge e ra rb off) q m (if (greg m e rb).toInt ≤ (greg m e ra).toInt then retireTo m e (((engOf m e).pc + off.toInt) % 2 ^ 18).toNat else
     retire m e)) ∧
  (∀ (e : Fin 32) (ra rb : Fin 32) (off : BitVec 16) (q : List Instr) (m : Mach), atWord m e (encI 0x24 ra rb off.toNat) = true →
     Leads (.bltu e ra rb off) q m (if (greg m e ra).toNat < (greg m e rb).toNat then retireTo m e (((engOf m e).pc + off.toInt) % 2 ^ 18).toNat
     else retire m e)) ∧
  (∀ (e : Fin 32) (ra rb : Fin 32) (off : BitVec 16) (q : List Instr) (m : Mach), atWord m e (encI 0x25 ra rb off.toNat) = true →
     Leads (.bgeu e ra rb off) q m (if (greg m e rb).toNat ≤ (greg m e ra).toNat then retireTo m e (((engOf m e).pc + off.toInt) % 2 ^ 18).toNat
     else retire m e)) ∧
  (∀ (e : Fin 32) (rd : Fin 32) (off : BitVec 21) (q : List Instr) (m : Mach), atWord m e (encJ rd off.toNat) = true →
     Leads (.jal e rd off) q m (retireTo (gput m e rd (BitVec.ofNat 64 (((engOf m e).pc + 1) % 2 ^ 18))) e (((engOf m e).pc + off.toInt) % 2 ^
     18).toNat)) ∧
  (∀ (e : Fin 32) (rd ra : Fin 32) (imm : BitVec 16) (q : List Instr) (m : Mach), atWord m e (encI 0x27 rd ra imm.toNat) = true →
     Leads (.jalr e rd ra imm) q m (retireTo (gput m e rd (BitVec.ofNat 64 (((engOf m e).pc + 1) % 2 ^ 18))) e ((greg m e ra + imm.signExtend
     64).toNat % 2 ^ 18))) ∧
  (∀ (e : Fin 32) (ra rb : Fin 32) (off : BitVec 16) (q : List Instr) (m : Mach), (engOf m e).st = .running → (engOf m e).wait = .none →
     (engOf m e).trap = none → (engOf m e).late = false → 0x3FC00 ≤ (engOf m e).pc → Leads (.beq e ra rb off) q m (trapNow m e .access 0))

/-- Writing v to rd and ending the instruction of engine e makes rd read v unless rd is g0, which reads 0, leaves every other register of every engine,
  the scratch memory and the program store as they were, advances PC by 1 modulo 2^18, counts the instruction as retired, leaves every other engine as
  it was, and changes no register field and nothing of the homes, the Reservoir, the twin logs and the ports. An engine with no trap to take and no
  limit reached goes on running. -/
def Obligations.RetireWritesRd : Prop :=
  ∀ (e rd : Fin 32) (v : Word) (m : Mach),
    (∀ e' r : Fin 32, greg (retireRd e rd v m) e' r = if r = 0 then 0 else if e' = e ∧ r = rd then v else greg m e' r) ∧
    (∀ e' : Fin 32, e' ≠ e → engOf (retireRd e rd v m) e' = engOf m e') ∧
    (engOf (retireRd e rd v m) e).pc = ((engOf m e).pc + 1) % 2 ^ 18 ∧
    (engOf (retireRd e rd v m) e).instret = (engOf m e).instret + 1 ∧
    ((engOf m e).trap = none → (engOf m e).late = false → (engOf (retireRd e rd v m) e).st = .running) ∧
    (retireRd e rd v m).eng.scratch = m.eng.scratch ∧ (retireRd e rd v m).eng.prog = m.eng.prog ∧ (retireRd e rd v m).regs = m.regs ∧
    (retireRd e rd v m).home = m.home ∧ (retireRd e rd v m).rsv = m.rsv ∧ (retireRd e rd v m).tw = m.tw ∧
    (retireRd e rd v m).twin = m.twin ∧ (retireRd e rd v m).ports = m.ports ∧ (retireRd e rd v m).comp = m.comp

/-- POST with a listed STATUS, an empty store buffer and the first reservation unused puts one result of the call and ends; another STATUS traps
  ILLEGAL. RDCW with n from 1 to 6 or 8 returns the word of Table 11-13, and with n 0 or 7 an open value. FENCE.SL holds later loads while the store
  buffer is not empty. TRAP and an unlisted word trap ILLEGAL with address 0. YIELD ends. HALT with an empty store buffer and no handle ends the call,
  with OK and VALUE 0 when it has posted nothing. The order and reservation of results are those of R268. It says of each of these forms that exec
  answers a next state, under hypotheses on the state and operands alone: post, rdcw, fenceSl, trap, yield_, halt, illegalOpcode. -/
def Obligations.ServiceAndSystem : Prop :=
  (∀ (e : Fin 32) (ra rb : Fin 32) (id : Nat) (c : Call) (n : Nat) (q : List Instr) (m : Mach), atWord m e (encX 0x30 0 ra rb 0) = true →
     (engOf m e).sb = [] → (engOf m e).call = some id → callOf m id = some c → c.first = true → n = (greg m e rb).toNat % 128 → n ≤ 5 ∨ (0x40 ≤ n ∧
     n ≤ 0x7E) → Leads (.post e ra rb) q m (retire (resSend (callPut m { c with first := false, posted := true }) c (c.notify && !c.posted) n ((greg
     m e ra).toNat % 2 ^ 40)) e)) ∧
  (∀ (e : Fin 32) (ra rb : Fin 32) (n : Nat) (q : List Instr) (m : Mach), atWord m e (encX 0x30 0 ra rb 0) = true →
     n = (greg m e rb).toNat % 128 → (5 < n ∧ n < 0x40) ∨ n = 0x7F → Leads (.post e ra rb) q m (trapNow m e .illegal 0)) ∧
  (∀ (e : Fin 32) (rd : Fin 32) (q : List Instr) (m : Mach), atWord m e (encX 0x31 rd 1 0 0) = true →
     Leads (.rdcw e rd 1) q m (retireRd e rd (BitVec.ofNat 64 ((engOf m e).instret)) m)) ∧
  (∀ (e : Fin 32) (rd : Fin 32) (q : List Instr) (m : Mach), atWord m e (encX 0x31 rd 2 0 0) = true →
     Leads (.rdcw e rd 2) q m (retireRd e rd (BitVec.ofNat 64 (m.timeUs)) m)) ∧
  (∀ (e : Fin 32) (rd : Fin 32) (q : List Instr) (m : Mach), atWord m e (encX 0x31 rd 3 0 0) = true →
     Leads (.rdcw e rd 3) q m (retireRd e rd (BitVec.ofNat 64 (e.val + engSide e * 2 ^ 5 + (engOf m e).bank * 2 ^ 6 + (engOf m e).gen * 2 ^ 16)) m)) ∧
  (∀ (e : Fin 32) (rd : Fin 32) (q : List Instr) (m : Mach), atWord m e (encX 0x31 rd 4 0 0) = true →
     Leads (.rdcw e rd 4) q m (retireRd e rd (BitVec.ofNat 64 (callerWord (engOf m e))) m)) ∧
  (∀ (e : Fin 32) (rd : Fin 32) (q : List Instr) (m : Mach), atWord m e (encX 0x31 rd 6 0 0) = true →
     Leads (.rdcw e rd 6) q m (retireRd e rd (BitVec.ofNat 64 ((engOf m e).sb.length)) m)) ∧
  (∀ (e : Fin 32) (rd : Fin 32) (q : List Instr) (m : Mach), atWord m e (encX 0x31 rd 8 0 0) = true →
     Leads (.rdcw e rd 8) q m (retireRd e rd (BitVec.ofNat 64 (((engOf m e).handles.filter fun h => !h.flume).length + ((engOf m e).handles.filter
     fun h => h.flume).length * 2 ^ 8)) m)) ∧
  (∀ (e : Fin 32) (rd n : Fin 32) (q : List Instr) (m : Mach), atWord m e (encX 0x31 rd n 0 0) = true → n.val = 0 ∨ n.val = 7 →
     Leads (.rdcw e rd n) q m (retireRd e rd (BitVec.ofNat 64 (drawn m)) (draw m))) ∧
  (∀ (e : Fin 32) (rd : Fin 32) (q : List Instr) (m : Mach), atWord m e (encX 0x31 rd 5 0 0) = true → (engOf m e).limit = none →
     Leads (.rdcw e rd 5) q m (retireRd e rd (BitVec.allOnes 64) m)) ∧
  (∀ (e : Fin 32) (rd : Fin 32) (l : Nat) (q : List Instr) (m : Mach), atWord m e (encX 0x31 rd 5 0 0) = true → (engOf m e).limit = some l →
     Leads (.rdcw e rd 5) q m (retireRd e rd (BitVec.ofNat 64 ((engOf m e).start + l - m.timeUs)) m)) ∧
  (∀ (e : Fin 32) (q : List Instr) (m : Mach), atWord m e (encA 0x3F 0 0 0 1) = true →
     Leads (.fenceSl e) q m (retire (engSet m e { engOf m e with slFence := !(engOf m e).sb.isEmpty }) e)) ∧
  (∀ (e : Fin 32) (q : List Instr) (m : Mach), atWord m e (encA 0x3F 0 0 0 2) = true → Leads (.trap e) q m (trapNow m e .illegal 0)) ∧
  (∀ (e : Fin 32) (q : List Instr) (m : Mach), atWord m e (encA 0x3F 0 0 0 3) = true → Leads (.yield_ e) q m (retire m e)) ∧
  (∀ (e : Fin 32) (id : Nat) (c : Call) (q : List Instr) (m : Mach), atWord m e (encA 0x3F 0 0 0 5) = true → (engOf m e).sb = [] →
     (engOf m e).handles = [] → (engOf m e).call = some id → callOf m id = some c →
     Leads (.halt e) q m (callEnd (count (sampleCount (count m (seBase (e.val / 16)) 3) 1 e (if (engOf m e).queue == 0 then some (engOf m e).port
     else none)) (seBase (e.val / 16)) 5) e .idle (if c.posted then none else some (0, 0)))) ∧
  (∀ (e : Fin 32) (w : Nat) (q : List Instr) (m : Mach), atWord m e (w) = true → legalWord w = false →
     Leads (.illegalOpcode e) q m (trapNow m e .illegal 0))

/-- CALL_START puts the oldest call handed to the side on an Idle engine: it runs at the PC and bank of the call with the privilege of the call, its
  store buffer stands, g1 to g7 hold the arguments, g8 the caller word, every other register 0, and a tenant call finds scratch memory 0.
  CALL_TIME_LIMIT marks a Waiting engine late and traps TIMEOUT on one that runs between instructions; STEP_CUT traps TIMEOUT on a late Waiting
  engine. TRAP_DRAIN_COMPLETE with an empty store buffer records code, PC, bank and address, raises class 0x0B and leaves the engine Idle, or Held
  with HOLDTRAP 1. ENGINE_RESET discards unsent stores and leaves the engine Idle; ENGINE_RELEASE leaves a Held engine Idle. It says of each of these
  forms that exec answers a next state, under hypotheses on the state and operands alone: callStart, callTimeLimit, stepCut, trapDrainComplete,
  engineReset, engineRelease. -/
def Obligations.CallsStartAndEnd : Prop :=
  (∀ (e : Fin 32) (c : Call) (q : List Instr) (m : Mach), (readyOf m (e.val / 16)).head? = some c → (engOf m e).st = .idle →
     ∃ m', Leads (.callStart e false (⟨false, false⟩)) q m m' ∧ (engOf m' e).st = .running ∧ (engOf m' e).pc = c.pc ∧ (engOf m' e).bank = c.bank ∧
     (engOf m' e).keeper = c.keeper ∧ (engOf m' e).tag = c.tag ∧ (engOf m' e).call = some c.id ∧ (engOf m' e).sb = (engOf m e).sb ∧
     (∀ k < 7, greg m' e (k + 1) = BitVec.ofNat 64 (c.args.getD k 0)) ∧ greg m' e 8 = BitVec.ofNat 64 (callerWord (engOf m' e)) ∧
     (∀ r : Fin 32, 8 < r.val → greg m' e r = 0) ∧ (c.keeper = false → ∀ a < 65536, sget 0 m'.eng.scratch (65536 * e + a) = 0)) ∧
  (∀ (e : Fin 32) (l : Nat) (q : List Instr) (m : Mach), (engOf m e).limit = some l → (engOf m e).st = .waiting →
     Leads (.callTimeLimit e) q m (engSet m e { engOf m e with late := true })) ∧
  (∀ (e : Fin 32) (l : Nat) (q : List Instr) (m : Mach), (engOf m e).limit = some l → (engOf m e).st = .running → (engOf m e).wait = .none →
     (engOf m e).trap = none → Leads (.callTimeLimit e) q m (trapNow (engSet m e { engOf m e with late := true }) e .timeout 0)) ∧
  (∀ (e : Fin 32) (q : List Instr) (m : Mach), (engOf m e).late = true → (engOf m e).st = .waiting → (engOf m e).wait = .none →
     (engOf m e).trap = none → Leads (.stepCut e) q m (trapNow m e .timeout 0)) ∧
  (∀ (e : Fin 32) (t : Trap) (b : Nat) (q : List Instr) (m : Mach), (engOf m e).st = .draining → (engOf m e).trap = some t → (engOf m e).sb = [] →
     b = seBase (e.val / 16) + e.val % 16 * 0x100 → t.pc < 2 ^ 18 → t.addr < 2 ^ 64 → (engOf m e).bank < 2 →
     ∃ m', Leads (.trapDrainComplete e) q m m' ∧ (engOf m' e).st = (if fon m (seBase (e.val / 16)) R.SE_CTL_HOLDTRAP then .held else .idle) ∧
     (engOf m' e).call = none ∧ m'.events = m.events ++ [⟨0x0B, 0x0B + e.val * 256 + ((t.code.num + t.pc * 2 ^ 3 + (engOf m e).bank * 2 ^ 21) % 2 ^
     24) * 65536, false⟩] ∧ (((engOf m e).call.bind (callOf m)).all (fun c => c.from_.queue ≤ 32) = true → fget m' b R.SE_TRAP_CODE = t.code.num ∧
     fget m' b R.SE_TRAP_VALID = 1 ∧ fget m' b R.SE_TRAP_PC = t.pc ∧ fget m' b R.SE_TRAP_BANK = (engOf m e).bank ∧
     fget m' b R.SE_TRAPADDR_ADDR = t.addr)) ∧
  (∀ (e : Fin 32) (q : List Instr) (m : Mach), reach m (seBase (e.val / 16) + 0x1000 + 256 * (e.val % 16)) = .open_ →
     ∃ m', Leads (.engineReset e) q m m' ∧ (engOf m' e).st = .idle ∧ (engOf m' e).call = none ∧ (engOf m' e).handles = [] ∧
     (engOf m' e).wait = .none ∧ (engOf m' e).trap = none ∧ (engOf m' e).sb = ((engOf m e).sb.filter fun s => s.sent).map fun s =>
     { s with orphan := true }) ∧
  (∀ (e : Fin 32) (q : List Instr) (m : Mach), reach m (seBase (e.val / 16) + 0x1000 + 256 * (e.val % 16)) = .open_ → (engOf m e).st = .held →
     Leads (.engineRelease e) q m (engSet m e { engOf m e with st := .idle }))

/-- DESCRIPTOR_DISPATCH takes the head of the internal queue when its entry is valid, has KEEPER 1 and prefers Side A, Side A is eligible with an idle
  engine and its cluster On, and two keeper result entries are free: the descriptor leaves the queue, a call record with its first reservation unused
  is handed to Side A, and no engine changes; while the cluster of Side A is not On the descriptor waits, and with no other descriptor waiting only a
  sleeping cluster starts to wake. With OLDBUSY 0, SWAP makes the inactive bank active and sets ACTGEN to NEXTGEN; with OLDBUSY not 0 it does nothing.
  A write of the inactive bank with OLDBUSY 0 makes its two instruction words read the halves of the value and leaves every other word; any other
  write of the store is dropped, with a bus error. It says of each of these forms that exec answers a next state, under hypotheses on the state and
  operands alone: descriptorDispatch, sePsctlSwap, programStoreWrite. -/
def Obligations.DispatchAndBanks : Prop :=
  (∀ (d : IqDesc) (rest : List IqDesc) (q : List Instr) (m : Mach), m.ports.queues.iq = d :: rest → 2 ≤ resFree m 32 → eligible m 0 = true →
     bitOf (callEntry m 0 d.entry) 18 = true → bitOf (callEntry m 0 d.entry) 19 = true → bitsOf (callEntry m 0 d.entry) 20 2 = 1 →
     clusterOn m 0 = true → idleFor m 0 true ≠ 0 → ∃ m', Leads (.descriptorDispatch .good) q m m' ∧ m'.ports.queues.iq = rest ∧
     (∃ c : Call, m'.ports.queues.calls = m.ports.queues.calls ++ [c] ∧ c.from_ = .internal ∧ c.tag = d.tag ∧ c.entry = d.entry ∧ c.args = d.args ∧
     c.keeper = true ∧ c.first = true ∧ c.posted = false ∧ c.side = 0 ∧ c.eng = none ∧ c.pc = bitsOf (callEntry m 0 d.entry) 0 18) ∧ m'.eng = m.eng) ∧
  (∀ (ck : Check) (d : IqDesc) (rest : List IqDesc) (q : List Instr) (m : Mach), m.ports.queues.iq = d :: rest → 2 ≤ resFree m 32 →
     eligible m 0 = true → bitsOf (callEntry m 0 d.entry) 20 2 = 1 → clusterOn m 0 = false → ∀ f ∈ dispatchQueues m, f ≠ .internal →
     headOf m f = none → Leads (.descriptorDispatch ck) q m (packetWake m 0)) ∧
  (∀ (sd : Fin 2) (q : List Instr) (m : Mach), reach m (seBase sd + 0x48) = .open_ → oldBusy m sd = 0 →
     Leads (.sePsctlSwap sd) q m (fset (fset m (seBase sd) R.SE_PSCTL_ACTIVE (1 - fget m (seBase sd) R.SE_PSCTL_ACTIVE)) (seBase sd)
     R.SE_PSCTL_ACTGEN (fget m (seBase sd) R.SE_PSCTL_NEXTGEN))) ∧
  (∀ (sd : Fin 2) (q : List Instr) (m : Mach), reach m (seBase sd + 0x48) = .open_ → oldBusy m sd ≠ 0 → Leads (.sePsctlSwap sd) q m (m)) ∧
  (∀ (sd : Fin 2) (b : Fin 2) (i : Fin 131072) (v : Word) (q : List Instr) (m : Mach), reach m (sideBase sd + 0x400000 + 0x100000 * b + 8 * i) =
     .open_ → progOpen m sd b = true → ∃ m', Leads (.programStoreWrite sd b i v) q m m' ∧ progWord m' sd b (2 * i) = v.toNat % 2 ^ 32 ∧
     progWord m' sd b (2 * i + 1) = v.toNat / 2 ^ 32 ∧ (∀ k, k ≠ progAt m sd b (2 * i) → k ≠ progAt m sd b (2 * i) + 1 →
     mget m'.eng.prog k = mget m.eng.prog k) ∧ m'.regs = m.regs ∧ m'.eng.eng = m.eng.eng) ∧
  (∀ (sd : Fin 2) (b : Fin 2) (i : Fin 131072) (v : Word) (q : List Instr) (m : Mach), reach m (sideBase sd + 0x400000 + 0x100000 * b + 8 * i) =
     .open_ → progOpen m sd b = false → Leads (.programStoreWrite sd b i v) q m (send m (.ctl (sideBase sd + 0x400000 + 0x100000 * b + 8 * i) none)))

/-- POST_WAIT_EXPIRY at an engine that waits in a POST while no result entry is free drops the result: RESLOST becomes 1 and LOST_CNT counts, of the
  port of the call of a HOST port and of the keeper result queue for another, class 0x0D names the port (0xFF for the keeper queue) and the TAG, and
  the program continues at the next instruction. With an entry free it does nothing. It says that exec answers a next state, under hypotheses on the
  state and operands alone, of the form postWaitExpiry. -/
def Obligations.PostWaitExpires : Prop :=
  (∀ (e : Fin 32) (id : Nat) (c : Call) (q : List Instr) (m : Mach), (engOf m e).st = .waiting →
     isPost (progWord m (e.val / 16) (engOf m e).bank (engOf m e).pc) = true → (engOf m e).queue = 0 → (engOf m e).call = some id →
     callOf m id = some c → resFree m c.from_.queue = 0 → Leads (.postWaitExpiry e) q m (retire (notice (fsat (fset (count m (seBase (e.val / 16))
     8) (ptBase (engOf m e).port) R.PT_QSTAT_RESLOST 1) (ptBase (engOf m e).port) R.PT_QERR_LOST_CNT) 0x0D (engOf m e).port (engOf m e).tag) e)) ∧
  (∀ (e : Fin 32) (id : Nat) (c : Call) (q : List Instr) (m : Mach), (engOf m e).st = .waiting → (engOf m e).call = some id →
     callOf m id = some c → 0 < resFree m c.from_.queue → Leads (.postWaitExpiry e) q m (m)) ∧
  (∀ (e : Fin 32) (id : Nat) (c : Call) (q : List Instr) (m : Mach), (engOf m e).st = .waiting →
     isPost (progWord m (e.val / 16) (engOf m e).bank (engOf m e).pc) = true → (engOf m e).queue ≠ 0 → (engOf m e).call = some id →
     callOf m id = some c → resFree m c.from_.queue = 0 → Leads (.postWaitExpiry e) q m (retire (notice (fsat (fset (count m (seBase (e.val / 16))
     8) mgtBase R.PT_QSTAT_RESLOST 1) mgtBase R.PT_QERR_LOST_CNT) 0x0D 0xFF (engOf m e).tag) e))

/-- An engine at the word of LB, LBU, LH, LHU, LW, LWU, LD or LDX with tag 1 in EA = ra + sext(imm16), or ra + rb, and no store-buffer entry that
  overlaps the bytes, writes the little-endian value of its 1, 2, 4 or 8 scratch bytes to rd, sign-extended in LB, LH and LW, and ends. An
  uncorrectable word traps DATA_POISON with UCC, a corrected one is counted and recorded, and bytes past 0xFFFF trap ACCESS. It says of each of these
  forms that exec answers a next state, under hypotheses on the state and operands alone: lb, lbu, lh, lhu, lw, lwu, ld, ldx. -/
def Obligations.ScratchLoads : Prop :=
  (∀ (e : Fin 32) (rd ra : Fin 32) (imm : BitVec 16) (a : Nat) (q : List Instr) (m : Mach), atWord m e (encI 0x10 rd ra imm.toNat) = true →
     (greg m e ra + imm.signExtend 64).toNat / 2 ^ 62 = 1 → a = (greg m e ra + imm.signExtend 64).toNat % 2 ^ 62 → a + 1 ≤ 65536 →
     sbHit (engOf m e) .scratch a 1 = none → Leads (.lb e rd ra imm .good) q m (retireRd e rd ((BitVec.ofNat 8 (scrGet m e 1 a)).signExtend 64) m)) ∧
  (∀ (e : Fin 32) (rd ra : Fin 32) (imm : BitVec 16) (a : Nat) (q : List Instr) (m : Mach), atWord m e (encI 0x11 rd ra imm.toNat) = true →
     (greg m e ra + imm.signExtend 64).toNat / 2 ^ 62 = 1 → a = (greg m e ra + imm.signExtend 64).toNat % 2 ^ 62 → a + 1 ≤ 65536 →
     sbHit (engOf m e) .scratch a 1 = none → Leads (.lbu e rd ra imm .good) q m (retireRd e rd (BitVec.ofNat 64 (scrGet m e 1 a)) m)) ∧
  (∀ (e : Fin 32) (rd ra : Fin 32) (imm : BitVec 16) (a : Nat) (q : List Instr) (m : Mach), atWord m e (encI 0x12 rd ra imm.toNat) = true →
     (greg m e ra + imm.signExtend 64).toNat / 2 ^ 62 = 1 → a = (greg m e ra + imm.signExtend 64).toNat % 2 ^ 62 → a + 2 ≤ 65536 →
     sbHit (engOf m e) .scratch a 2 = none → Leads (.lh e rd ra imm .good) q m (retireRd e rd ((BitVec.ofNat 16 (scrGet m e 2 a)).signExtend 64) m)) ∧
  (∀ (e : Fin 32) (rd ra : Fin 32) (imm : BitVec 16) (a : Nat) (q : List Instr) (m : Mach), atWord m e (encI 0x13 rd ra imm.toNat) = true →
     (greg m e ra + imm.signExtend 64).toNat / 2 ^ 62 = 1 → a = (greg m e ra + imm.signExtend 64).toNat % 2 ^ 62 → a + 2 ≤ 65536 →
     sbHit (engOf m e) .scratch a 2 = none → Leads (.lhu e rd ra imm .good) q m (retireRd e rd (BitVec.ofNat 64 (scrGet m e 2 a)) m)) ∧
  (∀ (e : Fin 32) (rd ra : Fin 32) (imm : BitVec 16) (a : Nat) (q : List Instr) (m : Mach), atWord m e (encI 0x14 rd ra imm.toNat) = true →
     (greg m e ra + imm.signExtend 64).toNat / 2 ^ 62 = 1 → a = (greg m e ra + imm.signExtend 64).toNat % 2 ^ 62 → a + 4 ≤ 65536 →
     sbHit (engOf m e) .scratch a 4 = none → Leads (.lw e rd ra imm .good) q m (retireRd e rd ((BitVec.ofNat 32 (scrGet m e 4 a)).signExtend 64) m)) ∧
  (∀ (e : Fin 32) (rd ra : Fin 32) (imm : BitVec 16) (a : Nat) (q : List Instr) (m : Mach), atWord m e (encI 0x15 rd ra imm.toNat) = true →
     (greg m e ra + imm.signExtend 64).toNat / 2 ^ 62 = 1 → a = (greg m e ra + imm.signExtend 64).toNat % 2 ^ 62 → a + 4 ≤ 65536 →
     sbHit (engOf m e) .scratch a 4 = none → Leads (.lwu e rd ra imm .good) q m (retireRd e rd (BitVec.ofNat 64 (scrGet m e 4 a)) m)) ∧
  (∀ (e : Fin 32) (rd ra : Fin 32) (imm : BitVec 16) (a : Nat) (q : List Instr) (m : Mach), atWord m e (encI 0x16 rd ra imm.toNat) = true →
     (greg m e ra + imm.signExtend 64).toNat / 2 ^ 62 = 1 → a = (greg m e ra + imm.signExtend 64).toNat % 2 ^ 62 → a + 8 ≤ 65536 →
     sbHit (engOf m e) .scratch a 8 = none → Leads (.ld e rd ra imm .good) q m (retireRd e rd (BitVec.ofNat 64 (scrGet m e 8 a)) m)) ∧
  (∀ (e : Fin 32) (rd ra rb : Fin 32) (a : Nat) (q : List Instr) (m : Mach), atWord m e (encA 0x17 rd ra rb 0) = true →
     (greg m e ra + greg m e rb).toNat / 2 ^ 62 = 1 → a = (greg m e ra + greg m e rb).toNat % 2 ^ 62 → a + 8 ≤ 65536 →
     sbHit (engOf m e) .scratch a 8 = none → Leads (.ldx e rd ra rb .good) q m (retireRd e rd (BitVec.ofNat 64 (scrGet m e 8 a)) m)) ∧
  (∀ (e : Fin 32) (rd ra : Fin 32) (imm : BitVec 16) (ck : Check) (a : Nat) (q : List Instr) (m : Mach), atWord m e (encI 0x16 rd ra imm.toNat) =
     true → (greg m e ra + imm.signExtend 64).toNat / 2 ^ 62 = 1 → a = (greg m e ra + imm.signExtend 64).toNat % 2 ^ 62 → a + 8 ≤ 65536 →
     sbHit (engOf m e) .scratch a 8 = none → ck.isBad = true → Leads (.ld e rd ra imm ck) q m (scratchBad m e a)) ∧
  (∀ (e : Fin 32) (rd ra : Fin 32) (imm : BitVec 16) (cw : Fin 8) (again : Bool) (a : Nat) (q : List Instr) (m : Mach), atWord m e (encI 0x16 rd
     ra imm.toNat) = true → (greg m e ra + imm.signExtend 64).toNat / 2 ^ 62 = 1 → a = (greg m e ra + imm.signExtend 64).toNat % 2 ^ 62 →
     a + 8 ≤ 65536 → sbHit (engOf m e) .scratch a 8 = none → Leads (.ld e rd ra imm (.corrected cw again)) q m (retireRd e rd (BitVec.ofNat 64
     (scrGet m e 8 a)) (err (fsat m (seBase (engSide e) + e.val % 16 * 256) R.SE_ENG_CE) { errOf 0 0x0E 0x12 (engSide e) with loc := a }))) ∧
  (∀ (e : Fin 32) (rd ra : Fin 32) (imm : BitVec 16) (ck : Check) (a : Nat) (q : List Instr) (m : Mach), atWord m e (encI 0x16 rd ra imm.toNat) =
     true → (greg m e ra + imm.signExtend 64).toNat / 2 ^ 62 = 1 → a = (greg m e ra + imm.signExtend 64).toNat % 2 ^ 62 → 65536 < a + 8 →
     Leads (.ld e rd ra imm ck) q m (trapNow m e .access (a % 2 ^ 16)))

/-- In a keeper call, with the pool online, LD with tag 0 sends a read of its first line to the home and waits, or takes its bytes from the youngest
  overlapping store-buffer entry that covers them. With tag 2, an aligned mapped address, an empty store buffer and a target that answers, rd takes
  the 64-bit register value and the read has its side effect; an address not aligned to 8 bytes traps ALIGN. Tag 3 traps ACCESS. It says that exec
  answers a next state, under hypotheses on the state and operands alone, of the form ld. -/
def Obligations.PoolAndControlLoads : Prop :=
  (∀ (e : Fin 32) (rd ra : Fin 32) (imm : BitVec 16) (ck : Check) (a : Nat) (q : List Instr) (m : Mach), atWord m e (encI 0x16 rd ra imm.toNat) =
     true → (greg m e ra + imm.signExtend 64).toNat / 2 ^ 62 = 0 → a = (greg m e ra + imm.signExtend 64).toNat → a + 8 ≤ 2 ^ 48 → opMode m ≠ 0 →
     opMode m ≠ 4 → (engOf m e).keeper = true → (engOf m e).slFence = false → sbHit (engOf m e) .pool a 8 = none →
     Leads (.ld e rd ra imm ck) q m (engReq (engSet m e { engOf m e with wait := .load rd 8 false a none }) (loadReq e (a / 64)))) ∧
  (∀ (e : Fin 32) (rd ra : Fin 32) (imm : BitVec 16) (ck : Check) (a : Nat) (s : SbEnt) (q : List Instr) (m : Mach), atWord m e (encI 0x16 rd ra
     imm.toNat) = true → (greg m e ra + imm.signExtend 64).toNat / 2 ^ 62 = 0 → a = (greg m e ra + imm.signExtend 64).toNat → a + 8 ≤ 2 ^ 48 →
     opMode m ≠ 0 → opMode m ≠ 4 → (engOf m e).keeper = true → (engOf m e).slFence = false → sbHit (engOf m e) .pool a 8 = some s → s.addr ≤ a →
     a + 8 ≤ s.addr + s.size → Leads (.ld e rd ra imm ck) q m (retireRd e rd (BitVec.ofNat 64 (s.data / 2 ^ (8 * (a - s.addr)) % 2 ^ 64)) m)) ∧
  (∀ (e : Fin 32) (rd ra : Fin 32) (imm : BitVec 16) (ck : Check) (a : Nat) (q : List Instr) (m : Mach), atWord m e (encI 0x16 rd ra imm.toNat) =
     true → (greg m e ra + imm.signExtend 64).toNat / 2 ^ 62 = 2 → a = (greg m e ra + imm.signExtend 64).toNat % 2 ^ 62 → a < 2 ^ 32 → a % 8 = 0 →
     (engOf m e).keeper = true → mapped a = true → (engOf m e).sb = [] → reach m a = .open_ →
     Leads (.ld e rd ra imm ck) q m (retireRd e rd (BitVec.ofNat 64 ((ctlRead a m).1)) (ctlRead a m).2)) ∧
  (∀ (e : Fin 32) (rd ra : Fin 32) (imm : BitVec 16) (ck : Check) (a : Nat) (q : List Instr) (m : Mach), atWord m e (encI 0x16 rd ra imm.toNat) =
     true → (greg m e ra + imm.signExtend 64).toNat / 2 ^ 62 = 2 → a = (greg m e ra + imm.signExtend 64).toNat % 2 ^ 62 → a < 2 ^ 32 → a % 8 ≠ 0 →
     (engOf m e).keeper = true → Leads (.ld e rd ra imm ck) q m (trapNow m e .align a)) ∧
  (∀ (e : Fin 32) (rd ra : Fin 32) (imm : BitVec 16) (ck : Check) (q : List Instr) (m : Mach), atWord m e (encI 0x16 rd ra imm.toNat) = true →
     (greg m e ra + imm.signExtend 64).toNat / 2 ^ 62 = 3 → Leads (.ld e rd ra imm ck) q m (trapNow m e .access ((greg m e ra + imm.signExtend
     64).toNat)))

/-- SB, SH, SW and SD to scratch memory, and SD within a line of the pool in a keeper call or to an aligned control address, put one entry with the low
  bytes of rs at the end of a store buffer that is not full and end. STORE_BUFFER_SEND of a sound head entry writes a scratch store into scratch
  memory, sends a pool store to the home of its line, and performs a control store whose target answers; a keeper store to an unmapped address leaves
  the buffer empty and a trap ACCESS with the PC and address of the store. A pool store whose word is uncorrectable goes out poisoned, with UCC and a
  trap to come. STORE_COMPLETE frees a sent, completed head and does nothing before, nor while the cluster whose PWR_SLEEP.HOLD it sets is not On. It
  says of each of these forms that exec answers a next state, under hypotheses on the state and operands alone: storeBufferSend, storeComplete, sb,
  sh, sw, sd. -/
def Obligations.StoresAndTheirBuffer : Prop :=
  (∀ (e : Fin 32) (rs ra : Fin 32) (imm : BitVec 16) (a : Nat) (q : List Instr) (m : Mach), atWord m e (encI 0x18 rs ra imm.toNat) = true →
     (greg m e ra + imm.signExtend 64).toNat / 2 ^ 62 = 1 → a = (greg m e ra + imm.signExtend 64).toNat % 2 ^ 62 → a + 1 ≤ 65536 →
     (engOf m e).sb.length < 16 → Leads (.sb e rs ra imm) q m (retire (engSet m e
     { engOf m e with sb := (engOf m e).sb ++ [⟨.scratch, a, 1, (greg m e rs).toNat % 2 ^ 8, (engOf m e).pc, false, false, false⟩] }) e)) ∧
  (∀ (e : Fin 32) (rs ra : Fin 32) (imm : BitVec 16) (a : Nat) (q : List Instr) (m : Mach), atWord m e (encI 0x19 rs ra imm.toNat) = true →
     (greg m e ra + imm.signExtend 64).toNat / 2 ^ 62 = 1 → a = (greg m e ra + imm.signExtend 64).toNat % 2 ^ 62 → a + 2 ≤ 65536 →
     (engOf m e).sb.length < 16 → Leads (.sh e rs ra imm) q m (retire (engSet m e
     { engOf m e with sb := (engOf m e).sb ++ [⟨.scratch, a, 2, (greg m e rs).toNat % 2 ^ 16, (engOf m e).pc, false, false, false⟩] }) e)) ∧
  (∀ (e : Fin 32) (rs ra : Fin 32) (imm : BitVec 16) (a : Nat) (q : List Instr) (m : Mach), atWord m e (encI 0x1A rs ra imm.toNat) = true →
     (greg m e ra + imm.signExtend 64).toNat / 2 ^ 62 = 1 → a = (greg m e ra + imm.signExtend 64).toNat % 2 ^ 62 → a + 4 ≤ 65536 →
     (engOf m e).sb.length < 16 → Leads (.sw e rs ra imm) q m (retire (engSet m e
     { engOf m e with sb := (engOf m e).sb ++ [⟨.scratch, a, 4, (greg m e rs).toNat % 2 ^ 32, (engOf m e).pc, false, false, false⟩] }) e)) ∧
  (∀ (e : Fin 32) (rs ra : Fin 32) (imm : BitVec 16) (a : Nat) (q : List Instr) (m : Mach), atWord m e (encI 0x1B rs ra imm.toNat) = true →
     (greg m e ra + imm.signExtend 64).toNat / 2 ^ 62 = 1 → a = (greg m e ra + imm.signExtend 64).toNat % 2 ^ 62 → a + 8 ≤ 65536 →
     (engOf m e).sb.length < 16 → Leads (.sd e rs ra imm) q m (retire (engSet m e
     { engOf m e with sb := (engOf m e).sb ++ [⟨.scratch, a, 8, (greg m e rs).toNat % 2 ^ 64, (engOf m e).pc, false, false, false⟩] }) e)) ∧
  (∀ (e : Fin 32) (rs ra : Fin 32) (imm : BitVec 16) (a : Nat) (q : List Instr) (m : Mach), atWord m e (encI 0x1B rs ra imm.toNat) = true →
     (greg m e ra + imm.signExtend 64).toNat / 2 ^ 62 = 0 → a = (greg m e ra + imm.signExtend 64).toNat → a + 8 ≤ 2 ^ 48 → opMode m ≠ 0 →
     opMode m ≠ 4 → (engOf m e).keeper = true → a % 64 ≤ 56 → (engOf m e).sb.length < 16 →
     Leads (.sd e rs ra imm) q m (retire (engSet m e { engOf m e with sb := (engOf m e).sb ++ [⟨.pool, a, 8, (greg m e rs).toNat % 2 ^ 64, (engOf m e).pc, false, false, false⟩] })
     e)) ∧
  (∀ (e : Fin 32) (rs ra : Fin 32) (imm : BitVec 16) (a : Nat) (q : List Instr) (m : Mach), atWord m e (encI 0x1B rs ra imm.toNat) = true →
     (greg m e ra + imm.signExtend 64).toNat / 2 ^ 62 = 2 → a = (greg m e ra + imm.signExtend 64).toNat % 2 ^ 62 → a < 2 ^ 32 → a % 8 = 0 →
     (engOf m e).sb.length < 16 → Leads (.sd e rs ra imm) q m (retire (engSet m e
     { engOf m e with sb := (engOf m e).sb ++ [⟨.control, a, 8, (greg m e rs).toNat % 2 ^ 64, (engOf m e).pc, false, false, false⟩] }) e)) ∧
  (∀ (e : Fin 32) (s : SbEnt) (rest : List SbEnt) (q : List Instr) (m : Mach), (engOf m e).sb = s :: rest → s.sent = false → s.space = .scratch →
     Leads (.storeBufferSend e .good) q m (scrPut e s.size s.addr s.data (sbPop m e))) ∧
  (∀ (e : Fin 32) (s : SbEnt) (rest : List SbEnt) (q : List Instr) (m : Mach), (engOf m e).sb = s :: rest → s.sent = false → s.space = .pool →
     Leads (.storeBufferSend e .good) q m (engReq (engSet m e { engOf m e with sb := { s with sent := true } :: rest })
     { op := .store, src := .store e, pln := s.addr / 64, data := lineAt (s.addr % 64) s.size s.data, mask := maskAt (s.addr % 64) s.size, poison := false })) ∧
  (∀ (e : Fin 32) (s : SbEnt) (rest : List SbEnt) (q : List Instr) (m : Mach), (engOf m e).sb = s :: rest → s.sent = false → s.space = .control →
     (engOf m e).keeper = true → mapped s.addr = true → reach m s.addr = .open_ → bankShut m s.addr = false →
     Leads (.storeBufferSend e .good) q m (ctlWrite false s.addr s.data (engSet m e
     { engOf m e with sb := { s with sent := true, ack := true } :: rest }))) ∧
  (∀ (e : Fin 32) (s : SbEnt) (rest : List SbEnt) (q : List Instr) (m : Mach), (engOf m e).sb = s :: rest → s.sent = false → s.space = .control →
     (engOf m e).keeper = true → mapped s.addr = false →
     Leads (.storeBufferSend e .good) q m (engSet m e { engOf m e with sb := [], slFence := false, trap := some ⟨.access, s.pc, s.addr⟩ })) ∧
  (∀ (e : Fin 32) (s : SbEnt) (rest : List SbEnt) (q : List Instr) (m : Mach), (engOf m e).sb = s :: rest → s.sent = true → s.ack = true →
     holdPends m s = false → Leads (.storeComplete e) q m (engSet m e
     { engOf m e with sb := rest, slFence := (engOf m e).slFence && !rest.isEmpty })) ∧
  (∀ (e : Fin 32) (s : SbEnt) (rest : List SbEnt) (q : List Instr) (m : Mach), (engOf m e).sb = s :: rest → holdPends m s = true →
     Leads (.storeComplete e) q m (m)) ∧
  (∀ (e : Fin 32) (ck : Check) (s : SbEnt) (rest : List SbEnt) (q : List Instr) (m : Mach), (engOf m e).sb = s :: rest → s.sent = false →
     s.space = .pool → ck.isBad = true → Leads (.storeBufferSend e ck) q m (engReq (sbHeadPut (storeBad m e s) e { s with sent := true })
     { op := .store, src := .store e, pln := s.addr / 64, data := lineAt (s.addr % 64) s.size s.data, mask := maskAt (s.addr % 64) s.size, poison := true })) ∧
  (∀ (e : Fin 32) (s : SbEnt) (rest : List SbEnt) (q : List Instr) (m : Mach), (engOf m e).sb = s :: rest → s.ack = false →
     Leads (.storeComplete e) q m (m))

/-- In a keeper call with the pool online and an empty store buffer, AMOADD to AMOMAXU, of 4 or 8 aligned bytes of pool memory, sends the operation with
  rb as operand and rd as compare value to the home of the line, and waits for the old value. An address not aligned to the size traps ALIGN, and an
  aligned one outside the pool space traps ACCESS. It says of each of these forms that exec answers a next state, under hypotheses on the state and
  operands alone: amoAdd, amoAnd, amoOr, amoXor, amoSwap, amoCas, amoMinu, amoMaxu. -/
def Obligations.Atomics : Prop :=
  (∀ (e : Fin 32) (rd ra rb : Fin 32) (wide : Bool) (ea n : Nat) (q : List Instr) (m : Mach), atWord m e (encA 0x1C rd ra rb (0 + (if wide then 3
     else 2) * 16)) = true → ea = (greg m e ra).toNat → n = (if wide then 8 else 4) → ea % n = 0 → ea + n ≤ 2 ^ 48 → opMode m ≠ 0 → opMode m ≠ 4 →
     (engOf m e).keeper = true → (engOf m e).sb = [] → Leads (.amoAdd e rd ra rb wide) q m (engReq (engSet m e
     { engOf m e with wait := .amo rd n (ea % 64) ea })
     { op := .atomic .add (ea % 64) n (greg m e rb).toNat (greg m e rd).toNat, src := .amo e, pln := ea / 64, data := 0, mask := maskAt (ea % 64) n, poison := false })) ∧
  (∀ (e : Fin 32) (rd ra rb : Fin 32) (wide : Bool) (ea n : Nat) (q : List Instr) (m : Mach), atWord m e (encA 0x1C rd ra rb (1 + (if wide then 3
     else 2) * 16)) = true → ea = (greg m e ra).toNat → n = (if wide then 8 else 4) → ea % n = 0 → ea + n ≤ 2 ^ 48 → opMode m ≠ 0 → opMode m ≠ 4 →
     (engOf m e).keeper = true → (engOf m e).sb = [] → Leads (.amoAnd e rd ra rb wide) q m (engReq (engSet m e
     { engOf m e with wait := .amo rd n (ea % 64) ea })
     { op := .atomic .and (ea % 64) n (greg m e rb).toNat (greg m e rd).toNat, src := .amo e, pln := ea / 64, data := 0, mask := maskAt (ea % 64) n, poison := false })) ∧
  (∀ (e : Fin 32) (rd ra rb : Fin 32) (wide : Bool) (ea n : Nat) (q : List Instr) (m : Mach), atWord m e (encA 0x1C rd ra rb (2 + (if wide then 3
     else 2) * 16)) = true → ea = (greg m e ra).toNat → n = (if wide then 8 else 4) → ea % n = 0 → ea + n ≤ 2 ^ 48 → opMode m ≠ 0 → opMode m ≠ 4 →
     (engOf m e).keeper = true → (engOf m e).sb = [] → Leads (.amoOr e rd ra rb wide) q m (engReq (engSet m e
     { engOf m e with wait := .amo rd n (ea % 64) ea })
     { op := .atomic .or (ea % 64) n (greg m e rb).toNat (greg m e rd).toNat, src := .amo e, pln := ea / 64, data := 0, mask := maskAt (ea % 64) n, poison := false })) ∧
  (∀ (e : Fin 32) (rd ra rb : Fin 32) (wide : Bool) (ea n : Nat) (q : List Instr) (m : Mach), atWord m e (encA 0x1C rd ra rb (3 + (if wide then 3
     else 2) * 16)) = true → ea = (greg m e ra).toNat → n = (if wide then 8 else 4) → ea % n = 0 → ea + n ≤ 2 ^ 48 → opMode m ≠ 0 → opMode m ≠ 4 →
     (engOf m e).keeper = true → (engOf m e).sb = [] → Leads (.amoXor e rd ra rb wide) q m (engReq (engSet m e
     { engOf m e with wait := .amo rd n (ea % 64) ea })
     { op := .atomic .xor (ea % 64) n (greg m e rb).toNat (greg m e rd).toNat, src := .amo e, pln := ea / 64, data := 0, mask := maskAt (ea % 64) n, poison := false })) ∧
  (∀ (e : Fin 32) (rd ra rb : Fin 32) (wide : Bool) (ea n : Nat) (q : List Instr) (m : Mach), atWord m e (encA 0x1C rd ra rb (4 + (if wide then 3
     else 2) * 16)) = true → ea = (greg m e ra).toNat → n = (if wide then 8 else 4) → ea % n = 0 → ea + n ≤ 2 ^ 48 → opMode m ≠ 0 → opMode m ≠ 4 →
     (engOf m e).keeper = true → (engOf m e).sb = [] → Leads (.amoSwap e rd ra rb wide) q m (engReq (engSet m e
     { engOf m e with wait := .amo rd n (ea % 64) ea })
     { op := .atomic .swap (ea % 64) n (greg m e rb).toNat (greg m e rd).toNat, src := .amo e, pln := ea / 64, data := 0, mask := maskAt (ea % 64) n, poison := false })) ∧
  (∀ (e : Fin 32) (rd ra rb : Fin 32) (wide : Bool) (ea n : Nat) (q : List Instr) (m : Mach), atWord m e (encA 0x1C rd ra rb (5 + (if wide then 3
     else 2) * 16)) = true → ea = (greg m e ra).toNat → n = (if wide then 8 else 4) → ea % n = 0 → ea + n ≤ 2 ^ 48 → opMode m ≠ 0 → opMode m ≠ 4 →
     (engOf m e).keeper = true → (engOf m e).sb = [] → Leads (.amoCas e rd ra rb wide) q m (engReq (engSet m e
     { engOf m e with wait := .amo rd n (ea % 64) ea })
     { op := .atomic .cas (ea % 64) n (greg m e rb).toNat (greg m e rd).toNat, src := .amo e, pln := ea / 64, data := 0, mask := maskAt (ea % 64) n, poison := false })) ∧
  (∀ (e : Fin 32) (rd ra rb : Fin 32) (wide : Bool) (ea n : Nat) (q : List Instr) (m : Mach), atWord m e (encA 0x1C rd ra rb (6 + (if wide then 3
     else 2) * 16)) = true → ea = (greg m e ra).toNat → n = (if wide then 8 else 4) → ea % n = 0 → ea + n ≤ 2 ^ 48 → opMode m ≠ 0 → opMode m ≠ 4 →
     (engOf m e).keeper = true → (engOf m e).sb = [] → Leads (.amoMinu e rd ra rb wide) q m (engReq (engSet m e
     { engOf m e with wait := .amo rd n (ea % 64) ea })
     { op := .atomic .minu (ea % 64) n (greg m e rb).toNat (greg m e rd).toNat, src := .amo e, pln := ea / 64, data := 0, mask := maskAt (ea % 64) n, poison := false })) ∧
  (∀ (e : Fin 32) (rd ra rb : Fin 32) (wide : Bool) (ea n : Nat) (q : List Instr) (m : Mach), atWord m e (encA 0x1C rd ra rb (7 + (if wide then 3
     else 2) * 16)) = true → ea = (greg m e ra).toNat → n = (if wide then 8 else 4) → ea % n = 0 → ea + n ≤ 2 ^ 48 → opMode m ≠ 0 → opMode m ≠ 4 →
     (engOf m e).keeper = true → (engOf m e).sb = [] → Leads (.amoMaxu e rd ra rb wide) q m (engReq (engSet m e
     { engOf m e with wait := .amo rd n (ea % 64) ea })
     { op := .atomic .maxu (ea % 64) n (greg m e rb).toNat (greg m e rd).toNat, src := .amo e, pln := ea / 64, data := 0, mask := maskAt (ea % 64) n, poison := false })) ∧
  (∀ (e : Fin 32) (rd ra rb : Fin 32) (wide : Bool) (q : List Instr) (m : Mach), atWord m e (encA 0x1C rd ra rb (5 + (if wide then 3 else 2) *
     16)) = true → (greg m e ra).toNat % (if wide then 8 else 4) ≠ 0 → Leads (.amoCas e rd ra rb wide) q m (trapNow m e .align (eaAddr (greg m e
     ra).toNat))) ∧
  (∀ (e : Fin 32) (rd ra rb : Fin 32) (wide : Bool) (q : List Instr) (m : Mach), atWord m e (encA 0x1C rd ra rb (5 + (if wide then 3 else 2) *
     16)) = true → (greg m e ra).toNat % (if wide then 8 else 4) = 0 → (greg m e ra).toNat / 2 ^ 62 ≠ 0 →
     Leads (.amoCas e rd ra rb wide) q m (trapNow m e .access (eaAddr (greg m e ra).toNat)))

/-- In a keeper call with an empty store buffer, WAITEV of an aligned mapped control register whose target answers reads it. When (value & rb) is not 0,
  is 0, or equals (rd & rb), for cond 0, 1 and 2, rd takes the value and the instruction ends; otherwise, shown for cond 1, the engine waits.
  WAITEV_POLL is a later read of the same instruction and ends it likewise; it does nothing at an engine that is not waiting. It says of each of these
  forms that exec answers a next state, under hypotheses on the state and operands alone: waitev, waitevPoll. -/
def Obligations.WaitForARegister : Prop :=
  (∀ (e : Fin 32) (rd ra rb : Fin 32) (ea a : Nat) (v : Word) (q : List Instr) (m : Mach), atWord m e (encA 0x3F rd ra rb (4 + 0 * 256)) = true →
     (engOf m e).st = .running → ea = (greg m e ra).toNat → ea / 2 ^ 62 = 2 → a = ea % 2 ^ 62 → a < 2 ^ 32 → a % 8 = 0 → (engOf m e).keeper = true →
     mapped a = true → (engOf m e).sb = [] → reach m a = .open_ → v = BitVec.ofNat 64 (ctlRead a m).1 → v &&& greg m e rb ≠ 0 →
     Leads (.waitev e rd ra rb 0) q m (retireRd e rd v (ctlRead a m).2)) ∧
  (∀ (e : Fin 32) (rd ra rb : Fin 32) (ea a : Nat) (v : Word) (q : List Instr) (m : Mach), atWord m e (encA 0x3F rd ra rb (4 + 1 * 256)) = true →
     (engOf m e).st = .running → ea = (greg m e ra).toNat → ea / 2 ^ 62 = 2 → a = ea % 2 ^ 62 → a < 2 ^ 32 → a % 8 = 0 → (engOf m e).keeper = true →
     mapped a = true → (engOf m e).sb = [] → reach m a = .open_ → v = BitVec.ofNat 64 (ctlRead a m).1 → v &&& greg m e rb = 0 →
     Leads (.waitev e rd ra rb 1) q m (retireRd e rd v (ctlRead a m).2)) ∧
  (∀ (e : Fin 32) (rd ra rb : Fin 32) (ea a : Nat) (v : Word) (q : List Instr) (m : Mach), atWord m e (encA 0x3F rd ra rb (4 + 1 * 256)) = true →
     (engOf m e).st = .running → ea = (greg m e ra).toNat → ea / 2 ^ 62 = 2 → a = ea % 2 ^ 62 → a < 2 ^ 32 → a % 8 = 0 → (engOf m e).keeper = true →
     mapped a = true → (engOf m e).sb = [] → reach m a = .open_ → v = BitVec.ofNat 64 (ctlRead a m).1 → ¬ (v &&& greg m e rb = 0) →
     Leads (.waitev e rd ra rb 1) q m (engWaits (ctlRead a m).2 e)) ∧
  (∀ (e : Fin 32) (rd ra rb : Fin 32) (ea a : Nat) (v : Word) (q : List Instr) (m : Mach), atWord m e (encA 0x3F rd ra rb (4 + 2 * 256)) = true →
     (engOf m e).st = .running → ea = (greg m e ra).toNat → ea / 2 ^ 62 = 2 → a = ea % 2 ^ 62 → a < 2 ^ 32 → a % 8 = 0 → (engOf m e).keeper = true →
     mapped a = true → (engOf m e).sb = [] → reach m a = .open_ → v = BitVec.ofNat 64 (ctlRead a m).1 →
     v &&& greg m e rb = greg m e rd &&& greg m e rb → Leads (.waitev e rd ra rb 2) q m (retireRd e rd v (ctlRead a m).2)) ∧
  (∀ (e : Fin 32) (rd ra rb : Fin 32) (ea a : Nat) (v : Word) (q : List Instr) (m : Mach), atWord m e (encA 0x3F rd ra rb (4 + 256)) = true →
     (engOf m e).st = .waiting → ea = (greg m e ra).toNat → ea / 2 ^ 62 = 2 → a = ea % 2 ^ 62 → a < 2 ^ 32 → a % 8 = 0 → (engOf m e).keeper = true →
     mapped a = true → (engOf m e).sb = [] → reach m a = .open_ → v = BitVec.ofNat 64 (ctlRead a m).1 → v &&& greg m e rb = 0 →
     Leads (.waitevPoll e) q m (retireRd e rd v (ctlRead a m).2)) ∧
  (∀ (e : Fin 32) (q : List Instr) (m : Mach), (engOf m e).st = .running → Leads (.waitevPoll e) q m (m))

/-- In a keeper call with the pool online and an empty store buffer: RGS of n lines at a 64-byte aligned address inside the pool, with fewer than four
  range handles and a free range engine on its side, puts the operation on a free one of that side, shows it in its registers, and ends with a new
  handle; n 0 traps ILLEGAL and a tenant DISCARD traps PRIV. FLS of a descriptor of kind 0, or of one sled step, with fewer than sixteen flume handles
  takes the lowest free channel likewise. RGW and FLW with a handle of the call whose operation has ended return its completion word and free the
  handle, and wait before. It says of each of these forms that exec answers a next state, under hypotheses on the state and operands alone: rgsClean,
  rgsFlush, rgsDiscard, rgsZero, rgsPrefetch, flsStep, rgw, flw, flsDescriptor. -/
def Obligations.RangeAndFlumeStarts : Prop :=
  (∀ (e : Fin 32) (rd ra rb : Fin 32) (a n i0 : Nat) (q : List Instr) (m : Mach), atWord m e (encX 0x01 rd ra rb 0) = true →
     (engOf m e).keeper = true → (engOf m e).sb = [] → opMode m ≠ 0 → opMode m ≠ 4 → a = (greg m e ra).toNat → a % 64 = 0 →
     n = (greg m e rb).toNat → 0 < n → a + 64 * n ≤ 2 ^ 48 → (handlesOf m e false).length < 4 → i0 < 4 → rangeOf m (4 * engSide e + i0) = none →
     ∃ i u b : Nat, i < 4 ∧ rangeOf m u = none ∧ u = 4 * engSide e + i ∧ b = rgeBase u ∧
     Leads (.rgsClean e rd ra rb) q m (bindUnit (fset (fset (finc (fset (fset (fset
     { draw m with eng := { m.eng with ranges := m.eng.ranges ++ [⟨u, 0, a / 64, n, 0, [], [], 0, 0, false, false⟩] } } b R.RGE_STATUS_OP 0) b
     R.RGE_STATUS_ENGINE e) b R.RGE_STATUS_STATUS 0) b R.RGE_STATUS_STARTS) b R.RGE_CUR_NEXT (a / 64)) b R.RGE_LEFT_LEFT n) e rd false u)) ∧
  (∀ (e : Fin 32) (rd ra rb : Fin 32) (a n i0 : Nat) (q : List Instr) (m : Mach), atWord m e (encX 0x01 rd ra rb 1) = true →
     (engOf m e).keeper = true → (engOf m e).sb = [] → opMode m ≠ 0 → opMode m ≠ 4 → a = (greg m e ra).toNat → a % 64 = 0 →
     n = (greg m e rb).toNat → 0 < n → a + 64 * n ≤ 2 ^ 48 → (handlesOf m e false).length < 4 → i0 < 4 → rangeOf m (4 * engSide e + i0) = none →
     ∃ i u b : Nat, i < 4 ∧ rangeOf m u = none ∧ u = 4 * engSide e + i ∧ b = rgeBase u ∧
     Leads (.rgsFlush e rd ra rb) q m (bindUnit (fset (fset (finc (fset (fset (fset
     { draw m with eng := { m.eng with ranges := m.eng.ranges ++ [⟨u, 1, a / 64, n, 0, [], [], 0, 0, false, false⟩] } } b R.RGE_STATUS_OP 1) b
     R.RGE_STATUS_ENGINE e) b R.RGE_STATUS_STATUS 0) b R.RGE_STATUS_STARTS) b R.RGE_CUR_NEXT (a / 64)) b R.RGE_LEFT_LEFT n) e rd false u)) ∧
  (∀ (e : Fin 32) (rd ra rb : Fin 32) (a n i0 : Nat) (q : List Instr) (m : Mach), atWord m e (encX 0x01 rd ra rb 2) = true →
     (engOf m e).keeper = true → (engOf m e).sb = [] → opMode m ≠ 0 → opMode m ≠ 4 → a = (greg m e ra).toNat → a % 64 = 0 →
     n = (greg m e rb).toNat → 0 < n → a + 64 * n ≤ 2 ^ 48 → (handlesOf m e false).length < 4 → i0 < 4 → rangeOf m (4 * engSide e + i0) = none →
     ∃ i u b : Nat, i < 4 ∧ rangeOf m u = none ∧ u = 4 * engSide e + i ∧ b = rgeBase u ∧
     Leads (.rgsDiscard e rd ra rb) q m (bindUnit (fset (fset (finc (fset (fset (fset
     { draw m with eng := { m.eng with ranges := m.eng.ranges ++ [⟨u, 2, a / 64, n, 0, [], [], 0, 0, false, false⟩] } } b R.RGE_STATUS_OP 2) b
     R.RGE_STATUS_ENGINE e) b R.RGE_STATUS_STATUS 0) b R.RGE_STATUS_STARTS) b R.RGE_CUR_NEXT (a / 64)) b R.RGE_LEFT_LEFT n) e rd false u)) ∧
  (∀ (e : Fin 32) (rd ra rb : Fin 32) (a n i0 : Nat) (q : List Instr) (m : Mach), atWord m e (encX 0x01 rd ra rb 3) = true →
     (engOf m e).keeper = true → (engOf m e).sb = [] → opMode m ≠ 0 → opMode m ≠ 4 → a = (greg m e ra).toNat → a % 64 = 0 →
     n = (greg m e rb).toNat → 0 < n → a + 64 * n ≤ 2 ^ 48 → (handlesOf m e false).length < 4 → i0 < 4 → rangeOf m (4 * engSide e + i0) = none →
     ∃ i u b : Nat, i < 4 ∧ rangeOf m u = none ∧ u = 4 * engSide e + i ∧ b = rgeBase u ∧
     Leads (.rgsZero e rd ra rb) q m (bindUnit (fset (fset (finc (fset (fset (fset
     { draw m with eng := { m.eng with ranges := m.eng.ranges ++ [⟨u, 3, a / 64, n, 0, [], [], 0, 0, false, false⟩] } } b R.RGE_STATUS_OP 3) b
     R.RGE_STATUS_ENGINE e) b R.RGE_STATUS_STATUS 0) b R.RGE_STATUS_STARTS) b R.RGE_CUR_NEXT (a / 64)) b R.RGE_LEFT_LEFT n) e rd false u)) ∧
  (∀ (e : Fin 32) (rd ra rb : Fin 32) (a n i0 : Nat) (q : List Instr) (m : Mach), atWord m e (encX 0x01 rd ra rb 4) = true →
     (engOf m e).keeper = true → (engOf m e).sb = [] → opMode m ≠ 0 → opMode m ≠ 4 → a = (greg m e ra).toNat → a % 64 = 0 →
     n = (greg m e rb).toNat → 0 < n → a + 64 * n ≤ 2 ^ 48 → (handlesOf m e false).length < 4 → i0 < 4 → rangeOf m (4 * engSide e + i0) = none →
     ∃ i u b : Nat, i < 4 ∧ rangeOf m u = none ∧ u = 4 * engSide e + i ∧ b = rgeBase u ∧
     Leads (.rgsPrefetch e rd ra rb) q m (bindUnit (fset (fset (finc (fset (fset (fset
     { draw m with eng := { m.eng with ranges := m.eng.ranges ++ [⟨u, 4, a / 64, n, 0, [], [], 0, 0, false, false⟩] } } b R.RGE_STATUS_OP 4) b
     R.RGE_STATUS_ENGINE e) b R.RGE_STATUS_STATUS 0) b R.RGE_STATUS_STARTS) b R.RGE_CUR_NEXT (a / 64)) b R.RGE_LEFT_LEFT n) e rd false u)) ∧
  (∀ (e : Fin 32) (rd ra rb : Fin 32) (q : List Instr) (m : Mach), atWord m e (encX 0x01 rd ra rb 0) = true → greg m e rb = 0 →
     Leads (.rgsClean e rd ra rb) q m (trapNow m e .illegal 0)) ∧
  (∀ (e : Fin 32) (rd ra rb : Fin 32) (q : List Instr) (m : Mach), atWord m e (encX 0x01 rd ra rb 2) = true → greg m e rb ≠ 0 →
     (engOf m e).keeper = false → Leads (.rgsDiscard e rd ra rb) q m (trapNow m e .priv 0)) ∧
  (∀ (e : Fin 32) (rd ra : Fin 32) (h : Handle) (q : List Instr) (m : Mach), atWord m e (encX 0x02 rd ra 0 0) = true → ra ≠ 0 →
     ((handlesOf m e false).find? fun h => handleWord h == (greg m e ra).toNat) = some h → handleEnded m h = true →
     Leads (.rgw e rd ra) q m (retireRd e rd (BitVec.ofNat 64 (unitWord m h)) (dropHandles m e fun x => x == h))) ∧
  (∀ (e : Fin 32) (rd ra : Fin 32) (h : Handle) (q : List Instr) (m : Mach), atWord m e (encX 0x02 rd ra 0 0) = true → ra ≠ 0 →
     ((handlesOf m e false).find? fun h => handleWord h == (greg m e ra).toNat) = some h → handleEnded m h = false →
     Leads (.rgw e rd ra) q m (engWaits m e)) ∧
  (∀ (e : Fin 32) (rd ra : Fin 32) (h : Handle) (q : List Instr) (m : Mach), atWord m e (encX 0x04 rd ra 0 0) = true → ra ≠ 0 →
     ((handlesOf m e true).find? fun h => handleWord h == (greg m e ra).toNat) = some h → handleEnded m h = true →
     Leads (.flw e rd ra) q m (retireRd e rd (BitVec.ofNat 64 (unitWord m h)) (dropHandles m e fun x => x == h))) ∧
  (∀ (e : Fin 32) (rd ra : Fin 32) (h : Handle) (q : List Instr) (m : Mach), atWord m e (encX 0x04 rd ra 0 0) = true → ra ≠ 0 →
     ((handlesOf m e true).find? fun h => handleWord h == (greg m e ra).toNat) = some h → handleEnded m h = false →
     Leads (.flw e rd ra) q m (engWaits m e)) ∧
  (∀ (e : Fin 32) (rd ra : Fin 32) (a steps src dst i c : Nat) (q : List Instr) (m : Mach), atWord m e (encX 0x03 rd ra 0 0) = true →
     (engOf m e).keeper = true → (engOf m e).sb = [] → opMode m ≠ 0 → opMode m ≠ 4 → (greg m e ra).toNat / 2 ^ 62 = 1 →
     a = (greg m e ra).toNat % 2 ^ 62 → a % 8 = 0 → a + 32 ≤ 65536 → scrWord m e a = steps * 2 ^ 16 → 0 < steps → steps < 2 ^ 32 →
     src = scrWord m e (a + 8) → dst = scrWord m e (a + 16) → scrWord m e (a + 24) = 0 → src % 4096 = 0 → dst % 4096 = 0 →
     src + 4096 * steps ≤ dst ∨ dst + 4096 * steps ≤ src → src + 4096 * steps ≤ 2 ^ 48 → dst + 4096 * steps ≤ 2 ^ 48 →
     (handlesOf m e true).length < 16 → ((List.range 32).find? fun i => (flumeOf m (32 * engSide e + i)).isNone) = some i → c = 32 * engSide e + i →
     Leads (.flsDescriptor e rd ra) q m (bindUnit (fset (fset (fset (fset (fset
     { m with eng := { m.eng with flumes := m.eng.flumes ++ [⟨c, 0, steps, src, dst, 0, [], 0, 0, false, false⟩] } } (fcBase c) R.FC_STATUS_STATE 1)
     (fcBase c) R.FC_STATUS_KIND 0) (fcBase c) R.FC_STATUS_ENGINE e) (fcBase c) R.FC_STATUS_STATUS 0) (fcBase c) R.FC_STATUS_STEPS 0) e rd true c)) ∧
  (∀ (e : Fin 32) (rd ra rb : Fin 32) (src dst i c : Nat) (q : List Instr) (m : Mach), atWord m e (encX 0x03 rd ra rb 1) = true →
     (engOf m e).keeper = true → (engOf m e).sb = [] → opMode m ≠ 0 → opMode m ≠ 4 → src = (greg m e ra).toNat → dst = (greg m e rb).toNat →
     roleOf m (wordPort src) = 2 → roleOf m (wordPort dst) = 2 → (handlesOf m e true).length < 16 →
     ((List.range 32).find? fun i => (flumeOf m (32 * engSide e + i)).isNone) = some i → c = 32 * engSide e + i →
     Leads (.flsStep e rd ra rb) q m (bindUnit (fset (fset (fset (fset (fset
     { m with eng := { m.eng with flumes := m.eng.flumes ++ [⟨c, 1, 1, src, dst, 0, [], 0, 0, false, false⟩] } } (fcBase c) R.FC_STATUS_STATE 1)
     (fcBase c) R.FC_STATUS_KIND 1) (fcBase c) R.FC_STATUS_ENGINE e) (fcBase c) R.FC_STATUS_STATUS 0) (fcBase c) R.FC_STATUS_STEPS 0) e rd true c)) ∧
  (∀ (e : Fin 32) (rd ra rb : Fin 32) (q : List Instr) (m : Mach), atWord m e (encX 0x03 rd ra rb 1) = true → (engOf m e).keeper = false →
     Leads (.flsStep e rd ra rb) q m (trapNow m e .priv 0))

/-- In a keeper call with an empty store buffer and an aligned operand in scratch memory, REGW started with rd 0 for an entry without a change in
  progress installs the first image of the change and holds PHASE 2, or ends with the status of Table 11-10. REGR writes the image, reserved bits 0,
  to scratch and 1 to rd while the entry is in transition. PLCW writes a placement entry that passes its checks to both copies, or returns its status
  and writes nothing; PLCR returns the entry. PLCRUN of at most 4,096 entries that pass writes all of them and ends with COUNT; a run that fails a
  run-wide limit ends with that status. It says of each of these forms that exec answers a next state, under hypotheses on the state and operands
  alone: regw, regr, plcw, plcr, plcrun. -/
def Obligations.CompositionInstructions : Prop :=
  (∀ (e : Fin 32) (rd ra rb : Fin 32) (a i : Nat) (n : Region) (q : List Instr) (m : Mach), atWord m e (encX 0x10 rd ra rb 0) = true →
     (engOf m e).keeper = true → (engOf m e).sb = [] → (greg m e rb).toNat / 2 ^ 62 = 1 → a = (greg m e rb).toNat % 2 ^ 62 → a % 8 = 0 →
     a + 16 ≤ 65536 → (engOf m e).p = none → greg m e rd = 0 → i = (greg m e ra).toNat → i ≤ 4095 →
     n = (⟨scrWord m e a, scrWord m e (a + 8)⟩ : Region) → planOf m i = none → regCheck m (engSide e) i n = 0 → regAt m i ≠ n →
     Leads (.regw e rd ra rb) q m (pSave (regInstall m e i n) e rd 0 2)) ∧
  (∀ (e : Fin 32) (rd ra rb : Fin 32) (a i : Nat) (n : Region) (q : List Instr) (m : Mach), atWord m e (encX 0x10 rd ra rb 0) = true →
     (engOf m e).keeper = true → (engOf m e).sb = [] → (greg m e rb).toNat / 2 ^ 62 = 1 → a = (greg m e rb).toNat % 2 ^ 62 → a % 8 = 0 →
     a + 16 ≤ 65536 → (engOf m e).p = none → greg m e rd = 0 → i = (greg m e ra).toNat → i ≤ 4095 →
     n = (⟨scrWord m e a, scrWord m e (a + 8)⟩ : Region) → planOf m i = none → regCheck m (engSide e) i n ≠ 0 →
     Leads (.regw e rd ra rb) q m (pFin m e rd 0 0 (regCheck m (engSide e) i n))) ∧
  (∀ (e : Fin 32) (rd ra rb : Fin 32) (a i : Nat) (r : Region) (q : List Instr) (m : Mach), atWord m e (encX 0x11 rd ra rb 0) = true →
     (engOf m e).keeper = true → (engOf m e).sb = [] → (greg m e rb).toNat / 2 ^ 62 = 1 → a = (greg m e rb).toNat % 2 ^ 62 → a % 8 = 0 →
     a + 16 ≤ 65536 → i = (greg m e ra).toNat → i ≤ 4095 → r = (regAt m i).clean →
     Leads (.regr e rd ra rb) q m (retireRd e rd (if inTransition m i then 1 else 0) (scrPut e 8 (a + 8) r.w1 (scrPut e 8 a r.w0 m)))) ∧
  (∀ (e : Fin 32) (rd ra rb : Fin 32) (plot new : Nat) (q : List Instr) (m : Mach), atWord m e (encX 0x12 rd ra rb 0) = true →
     (engOf m e).keeper = true → plot = (greg m e ra).toNat → new = (greg m e rb).toNat → plcCheck m plot (plcGet m (engSide e) plot) new = .write →
     Leads (.plcw e rd ra rb) q m (retireRd e rd 0 (plcSet m plot new))) ∧
  (∀ (e : Fin 32) (rd ra rb : Fin 32) (plot new s : Nat) (q : List Instr) (m : Mach), atWord m e (encX 0x12 rd ra rb 0) = true →
     (engOf m e).keeper = true → plot = (greg m e ra).toNat → new = (greg m e rb).toNat →
     plcCheck m plot (plcGet m (engSide e) plot) new = .status s → Leads (.plcw e rd ra rb) q m (retireRd e rd (BitVec.ofNat 64 s) m)) ∧
  (∀ (e : Fin 32) (rd ra : Fin 32) (plot : Nat) (q : List Instr) (m : Mach), atWord m e (encX 0x13 rd ra 0 0) = true → (engOf m e).keeper = true →
     plot = (greg m e ra).toNat → plot ≤ 0x7FFFFFF → Leads (.plcr e rd ra) q m (retireRd e rd (BitVec.ofNat 64 (plcGet m (engSide e) plot)) m)) ∧
  (∀ (e : Fin 32) (rd ra : Fin 32) (a w0 w1 w2 n : Nat) (q : List Instr) (m : Mach), atWord m e (encX 0x14 rd ra 0 0) = true →
     (engOf m e).keeper = true → (engOf m e).sb = [] → (greg m e ra).toNat / 2 ^ 62 = 1 → a = (greg m e ra).toNat % 2 ^ 62 → a % 8 = 0 →
     a + 32 ≤ 65536 → (engOf m e).p = none → greg m e rd = 0 → w0 = scrWord m e a → w1 = scrWord m e (a + 8) → w2 = scrWord m e (a + 16) →
     runCheck m w0 w1 w2 (scrWord m e (a + 24)) = 0 → n = bitsOf w0 32 28 → n ≤ 4096 →
     ∀ i < n, plcCheck m (bitsOf w0 0 27 + i) (plcGet m (engSide e) (bitsOf w0 0 27 + i)) (runEntry w1 w2 i) = .write →
     Leads (.plcrun e rd ra) q m (pFin ((List.range n).foldl (fun m i => plcSet m (bitsOf w0 0 27 + i) (runEntry w1 w2 i)) m) e rd n 0 0)) ∧
  (∀ (e : Fin 32) (rd ra : Fin 32) (a s : Nat) (q : List Instr) (m : Mach), atWord m e (encX 0x14 rd ra 0 0) = true → (engOf m e).keeper = true →
     (engOf m e).sb = [] → (greg m e ra).toNat / 2 ^ 62 = 1 → a = (greg m e ra).toNat % 2 ^ 62 → a % 8 = 0 → a + 32 ≤ 65536 → (engOf m e).p = none →
     greg m e rd = 0 → s = runCheck m (scrWord m e a) (scrWord m e (a + 8)) (scrWord m e (a + 16)) (scrWord m e (a + 24)) → s ≠ 0 →
     Leads (.plcrun e rd ra) q m (pFin m e rd 0 0 s))

/-- In a keeper call: PLCTRK arms both trackers of a free pair, gives TRACKER when one is armed for another plot, and frees a pair; PLCHOLD sets HOLD on
  both sides and gives 1 when the plot of each side is quiet, or clears both. VEXT started with rd 0 on a HOST port installs an extent that passes its
  checks in state Offered with an Add Capacity event, and makes an Accepted extent Releasing with its event, with the release itself when forced. FRET
  on an available controller that is not busy starts the operation with the fields of rb, and traps ACCESS for k above 7. SCOMMIT with no commit in
  progress takes a snapshot into the other slot and holds PHASE 1; settings above 32 MB end with NOSPACE. It says of each of these forms that exec
  answers a next state, under hypotheses on the state and operands alone: plctrkArm, plctrkFree, vextInstall, vextRelease, vextForcedRelease,
  fretRemap, fretBarFrame, fretBarBank, plcholdSet, plcholdClear, scommit. -/
def Obligations.TrackersExtentsAndRetirement : Prop :=
  (∀ (e : Fin 32) (rd ra rb : Fin 32) (t plot : Nat) (q : List Instr) (m : Mach), atWord m e (encX 0x15 rd ra rb 1) = true →
     (engOf m e).keeper = true → t = (greg m e ra).toNat → t ≤ 15 → plot = (greg m e rb).toNat → plot ≤ 0x7FFFFFF →
     fon m (lvlBase 0 + 16 * t) R.PLC_MIGT_EN = false → fon m (lvlBase 1 + 16 * t) R.PLC_MIGT_EN = false →
     Leads (.plctrkArm e rd ra rb) q m (retireRd e rd 0 (trackerSet 1 t plot true (trackerSet 0 t plot true m)))) ∧
  (∀ (e : Fin 32) (rd ra rb : Fin 32) (t plot : Nat) (q : List Instr) (m : Mach), atWord m e (encX 0x15 rd ra rb 1) = true →
     (engOf m e).keeper = true → t = (greg m e ra).toNat → t ≤ 15 → plot = (greg m e rb).toNat → plot ≤ 0x7FFFFFF →
     fon m (lvlBase 0 + 16 * t) R.PLC_MIGT_EN = true → fget m (lvlBase 0 + 16 * t) R.PLC_MIGT_PLOT ≠ plot →
     Leads (.plctrkArm e rd ra rb) q m (retireRd e rd 12 m)) ∧
  (∀ (e : Fin 32) (rd ra rb : Fin 32) (t : Nat) (q : List Instr) (m : Mach), atWord m e (encX 0x15 rd ra rb 0) = true →
     (engOf m e).keeper = true → t = (greg m e ra).toNat → t ≤ 15 → Leads (.plctrkFree e rd ra rb) q m (retireRd e rd 0 (fset (fset (fset (fset m
     (lvlBase 0 + 16 * t) R.PLC_MIGT_HOLD 0) (lvlBase 0 + 16 * t) R.PLC_MIGT_EN 0) (lvlBase 1 + 16 * t) R.PLC_MIGT_HOLD 0) (lvlBase 1 + 16 * t)
     R.PLC_MIGT_EN 0))) ∧
  (∀ (e : Fin 32) (rd ra : Fin 32) (t : Nat) (q : List Instr) (m : Mach), atWord m e (encX 0x16 rd ra 0 1) = true → (engOf m e).keeper = true →
     (engOf m e).st = .running → t = (greg m e ra).toNat → t ≤ 15 → plotQuiet m 0 (fget m (lvlBase 0 + 16 * t) R.PLC_MIGT_PLOT) = true →
     plotQuiet m 1 (fget m (lvlBase 1 + 16 * t) R.PLC_MIGT_PLOT) = true → Leads (.plcholdSet e rd ra) q m (retireRd e rd 1 (fset (fset m (lvlBase 0
     + 16 * t) R.PLC_MIGT_HOLD 1) (lvlBase 1 + 16 * t) R.PLC_MIGT_HOLD 1))) ∧
  (∀ (e : Fin 32) (rd ra : Fin 32) (t : Nat) (q : List Instr) (m : Mach), atWord m e (encX 0x16 rd ra 0 0) = true → (engOf m e).keeper = true →
     t = (greg m e ra).toNat → t ≤ 15 → Leads (.plcholdClear e rd ra) q m (retireRd e rd 1 (fset (fset m (lvlBase 0 + 16 * t) R.PLC_MIGT_HOLD 0)
     (lvlBase 1 + 16 * t) R.PLC_MIGT_HOLD 0))) ∧
  (∀ (e : Fin 32) (rd ra rb : Fin 32) (a p x w0 w1 : Nat) (q : List Instr) (m : Mach), atWord m e (encX 0x17 rd ra rb 0) = true →
     (engOf m e).keeper = true → (engOf m e).sb = [] → (greg m e rb).toNat / 2 ^ 62 = 1 → a = (greg m e rb).toNat % 2 ^ 62 → a % 8 = 0 →
     a + 16 ≤ 65536 → (engOf m e).p = none → greg m e rd = 0 → p = bitsOf (greg m e ra).toNat 0 5 → x = bitsOf (greg m e ra).toNat 8 6 →
     roleOf m p = 1 → w0 = scrWord m e a → w1 = scrWord m e (a + 8) → extCheck m (engSide e) p x w0 w1 = 0 →
     Leads (.vextInstall e rd ra rb) q m (pSave (dcEvent (fset (fset (fset (fset m (ptBase p + 16 * x) R.PT_VEXT_A_DPA_PLOT (bitsOf w0 0 27))
     (ptBase p + 16 * x) R.PT_VEXT_A_LENM1 (bitsOf w0 32 27)) (ptBase p + 16 * x) R.PT_VEXT_B_POOL_PLOT (bitsOf w1 0 27)) (ptBase p + 16 * x)
     R.PT_VEXT_B_STATE 1) p 0 x) e rd 0 1)) ∧
  (∀ (e : Fin 32) (rd ra rb : Fin 32) (a p x : Nat) (q : List Instr) (m : Mach), atWord m e (encX 0x17 rd ra rb 1) = true →
     (engOf m e).keeper = true → (engOf m e).sb = [] → (greg m e rb).toNat / 2 ^ 62 = 1 → a = (greg m e rb).toNat % 2 ^ 62 → a % 8 = 0 →
     a + 16 ≤ 65536 → (engOf m e).p = none → greg m e rd = 0 → p = bitsOf (greg m e ra).toNat 0 5 → x = bitsOf (greg m e ra).toNat 8 6 →
     roleOf m p = 1 → extState m p x = 2 → Leads (.vextRelease e rd ra rb) q m (pSave (dcEvent (extSet m p x 3) p 1 x) e rd 0 1)) ∧
  (∀ (e : Fin 32) (rd ra rb : Fin 32) (a p x : Nat) (q : List Instr) (m : Mach), atWord m e (encX 0x17 rd ra rb 2) = true →
     (engOf m e).keeper = true → (engOf m e).sb = [] → (greg m e rb).toNat / 2 ^ 62 = 1 → a = (greg m e rb).toNat % 2 ^ 62 → a % 8 = 0 →
     a + 16 ≤ 65536 → (engOf m e).p = none → greg m e rd = 0 → p = bitsOf (greg m e ra).toNat 0 5 → x = bitsOf (greg m e ra).toNat 8 6 →
     roleOf m p = 1 → extState m p x = 2 → Leads (.vextForcedRelease e rd ra rb) q m (pSave (extRelease (dcEvent (extSet m p x 3) p 2 x) p x false)
     e rd 0 1)) ∧
  (∀ (e : Fin 32) (rd ra rb : Fin 32) (k frame pc : Nat) (q : List Instr) (m : Mach), atWord m e (encX 0x20 rd ra rb 1) = true →
     (engOf m e).keeper = true → (engOf m e).p = none → greg m e rd = 0 → k = (greg m e ra).toNat → k ≤ 7 → sideUp m (k / 4) = true →
     fon m (rsvBase k) R.RSV_RETIRE_BUSY = false → frame = bitsOf (greg m e rb).toNat 0 19 → pc = bitsOf (greg m e rb).toNat 19 5 →
     Leads (.fretRemap e rd ra rb) q m (pSave (startRetire (engSet (fset (fset (fset m (rsvBase k) R.RSV_RETIRE_FRAME frame) (rsvBase k)
     R.RSV_RETIRE_PC pc) (rsvBase k) R.RSV_RETIRE_OP 1) e { engOf m e with fret := none }) k 1 pc frame (some e)) e rd 0 1)) ∧
  (∀ (e : Fin 32) (rd ra rb : Fin 32) (k frame pc : Nat) (q : List Instr) (m : Mach), atWord m e (encX 0x20 rd ra rb 2) = true →
     (engOf m e).keeper = true → (engOf m e).p = none → greg m e rd = 0 → k = (greg m e ra).toNat → k ≤ 7 → sideUp m (k / 4) = true →
     fon m (rsvBase k) R.RSV_RETIRE_BUSY = false → frame = bitsOf (greg m e rb).toNat 0 19 → pc = bitsOf (greg m e rb).toNat 19 5 →
     Leads (.fretBarFrame e rd ra rb) q m (pSave (startRetire (engSet (fset (fset (fset m (rsvBase k) R.RSV_RETIRE_FRAME frame) (rsvBase k)
     R.RSV_RETIRE_PC pc) (rsvBase k) R.RSV_RETIRE_OP 2) e { engOf m e with fret := none }) k 2 pc frame (some e)) e rd 0 1)) ∧
  (∀ (e : Fin 32) (rd ra rb : Fin 32) (k frame pc : Nat) (q : List Instr) (m : Mach), atWord m e (encX 0x20 rd ra rb 3) = true →
     (engOf m e).keeper = true → (engOf m e).p = none → greg m e rd = 0 → k = (greg m e ra).toNat → k ≤ 7 → sideUp m (k / 4) = true →
     fon m (rsvBase k) R.RSV_RETIRE_BUSY = false → frame = bitsOf (greg m e rb).toNat 0 19 → pc = bitsOf (greg m e rb).toNat 19 5 →
     Leads (.fretBarBank e rd ra rb) q m (pSave (startRetire (engSet (fset (fset (fset m (rsvBase k) R.RSV_RETIRE_FRAME frame) (rsvBase k)
     R.RSV_RETIRE_PC pc) (rsvBase k) R.RSV_RETIRE_OP 3) e { engOf m e with fret := none }) k 3 pc frame (some e)) e rd 0 1)) ∧
  (∀ (e : Fin 32) (rd ra rb : Fin 32) (q : List Instr) (m : Mach), atWord m e (encX 0x20 rd ra rb 1) = true → (engOf m e).keeper = true →
     7 < (greg m e ra).toNat → Leads (.fretRemap e rd ra rb) q m (trapNow m e .access 0)) ∧
  (∀ (e : Fin 32) (rd : Fin 32) (size : BitVec 48) (s : Nat) (q : List Instr) (m : Mach), atWord m e (encX 0x21 rd 0 0 0) = true →
     (engOf m e).keeper = true → (engOf m e).p = none → greg m e rd = 0 → m.boot.commit = none → size.toNat ≤ 32 * 2 ^ 20 → s = commitSlot m →
     Leads (.scommit e rd size) q m (pSave (fset (setimgPut
     { m with boot := { m.boot with commit := some ⟨s, snapshot m (engSide e) size.toNat, e⟩ }, flash := { m.flash with slots := mdel m.flash.slots s } })
     (8 * s) R.AON_SETIMG_WRITING 1) e rd 0 1)) ∧
  (∀ (e : Fin 32) (rd : Fin 32) (size : BitVec 48) (q : List Instr) (m : Mach), atWord m e (encX 0x21 rd 0 0 0) = true →
     (engOf m e).keeper = true → (engOf m e).p = none → greg m e rd = 0 → m.boot.commit = none → 32 * 2 ^ 20 < size.toNat →
     Leads (.scommit e rd size) q m (pFin m e rd 0 0 2))

/-- On a HOST port that takes requests, MEMRD, MEMINV, MEMINVNT, MEMWR and MEMWRPTL count, and when the address decodes to a permitted pool line enter
  the transaction table with the class that MetaField and MetaValue give, the data and mask of the write, and go to the home as soon as they may.
  Where the decode fails with KIND k, the violation is recorded, a read is answered with poisoned zeros and Cmp, and another request with Cmp (a
  write, where no snoop to the port is open); a write that is the data of an open snoop to the port is taken although the region does not permit it.
  MEMSPECRD changes nothing. It says of each of these forms that exec answers a next state, under hypotheses on the state and operands alone: memRd,
  memInv, memInvNt, memSpecRd, memWr, memWrPtl. -/
def Obligations.HostMemoryRequests : Prop :=
  (∀ (p : Fin 32) (tag : BitVec 16) (hpa : BitVec 46) (mv : Meta) (pln : Nat) (q : List Instr) (m : Mach), takesMem m p = true →
     hostDecode m p hpa.toNat = .line pln → Leads (.memRd p tag hpa mv) q m (sendHeld (pttTake (count m (ptBase p) 1) p tag.toNat (.host ((match mv
     with | .i => .rdCur | .s => .rdShared | .a => .rdOwn | .noOp => .rdCur) : HostCls)) false pln 0 0 false false false false 0 0 64 (hpa.toNat *
     64)))) ∧
  (∀ (p : Fin 32) (tag : BitVec 16) (hpa : BitVec 46) (mv : Meta) (k : Nat) (q : List Instr) (m : Mach), takesMem m p = true →
     hostDecode m p hpa.toNat = .viol k → Leads (.memRd p tag hpa mv) q m (sendNothing (viol (count m (ptBase p) 1) p k (hpa.toNat * 64)) p
     tag.toNat true)) ∧
  (∀ (p : Fin 32) (tag : BitVec 16) (hpa : BitVec 46) (mv : Meta) (pln : Nat) (q : List Instr) (m : Mach), takesMem m p = true →
     hostDecode m p hpa.toNat = .line pln → Leads (.memInv p tag hpa mv) q m (sendHeld (pttTake (count m (ptBase p) 1) p tag.toNat (.host ((match mv
     with | .i => .release | .s => .share | .a => .own | .noOp => .touch) : HostCls)) false pln 0 0 false false false false 0 0 64 (hpa.toNat *
     64)))) ∧
  (∀ (p : Fin 32) (tag : BitVec 16) (hpa : BitVec 46) (mv : Meta) (pln : Nat) (q : List Instr) (m : Mach), takesMem m p = true →
     hostDecode m p hpa.toNat = .line pln → Leads (.memInvNt p tag hpa mv) q m (sendHeld (pttTake (count m (ptBase p) 1) p tag.toNat (.host ((match
     mv with | .i => .release | .s => .share | .a => .own | .noOp => .touch) : HostCls)) false pln 0 0 false false false false 0 0 64 (hpa.toNat *
     64)))) ∧
  (∀ (p : Fin 32) (tag : BitVec 16) (hpa : BitVec 46) (mv : Meta) (k : Nat) (q : List Instr) (m : Mach), takesMem m p = true →
     hostDecode m p hpa.toNat = .viol k → Leads (.memInv p tag hpa mv) q m (sendNothing (viol (count m (ptBase p) 1) p k (hpa.toNat * 64)) p
     tag.toNat false)) ∧
  (∀ (p : Fin 32) (tag : BitVec 16) (hpa : BitVec 46) (mv : Meta) (data : Line) (poison : Bool) (pln : Nat) (q : List Instr) (m : Mach), takesMem
     m p = true → hostDecode m p hpa.toNat = .line pln → Leads (.memWr p tag hpa mv data poison) q m (sendHeld (pttTake (count m (ptBase p) 2) p
     tag.toNat (.host ((match mv with | .i => .wbInv | .s => .wbShared | .a => .wbKeep | .noOp => .wbNoOp) : HostCls)) false pln data fullMask
     poison false false false 0 0 64 (hpa.toNat * 64)))) ∧
  (∀ (p : Fin 32) (tag : BitVec 16) (hpa : BitVec 46) (mv : Meta) (data : Line) (mask : Mask) (poison : Bool) (pln : Nat) (q : List Instr) (m :
     Mach), takesMem m p = true → hostDecode m p hpa.toNat = .line pln → Leads (.memWrPtl p tag hpa mv data mask poison) q m (sendHeld (pttTake
     (count m (ptBase p) 2) p tag.toNat (.host ((match mv with | .i => .wbInv | .s => .wbShared | .a => .wbKeep | .noOp => .wbNoOp) : HostCls))
     false pln data mask poison false false false 0 0 64 (hpa.toNat * 64)))) ∧
  (∀ (p : Fin 32) (tag : BitVec 16) (hpa : BitVec 46) (mv : Meta) (data : Line) (poison : Bool) (k : Nat) (q : List Instr) (m : Mach), takesMem m
     p = true → hostDecode m p hpa.toNat = .viol k → hostReach m p hpa.toNat true = .viol k →
     Leads (.memWr p tag hpa mv data poison) q m (sendNothing (viol (count m (ptBase p) 2) p k (hpa.toNat * 64)) p tag.toNat false)) ∧
  (∀ (p : Fin 32) (tag : BitVec 16) (hpa : BitVec 46) (data : Line) (poison : Bool) (k pln : Nat) (q : List Instr) (m : Mach), takesMem m p = true
     → hostDecode m p hpa.toNat = .viol k → hostLine m p hpa.toNat = .line pln → snoopOpen m p pln = true →
     Leads (.memWr p tag hpa .i data poison) q m (sendHeld (pttTake (count m (ptBase p) 2) p tag.toNat (.host .wbInv) false pln data fullMask poison
     false false false 0 0 64 (hpa.toNat * 64)))) ∧
  (∀ (p : Fin 32) (tag : BitVec 16) (hpa : BitVec 46) (mv : Meta) (k : Nat) (q : List Instr) (m : Mach), takesMem m p = true →
     hostDecode m p hpa.toNat = .viol k → Leads (.memInvNt p tag hpa mv) q m (sendNothing (viol (count m (ptBase p) 1) p k (hpa.toNat * 64)) p
     tag.toNat false)) ∧
  (∀ (p : Fin 32) (tag : BitVec 16) (hpa : BitVec 46) (mv : Meta) (data : Line) (mask : Mask) (poison : Bool) (k : Nat) (q : List Instr) (m :
     Mach), takesMem m p = true → hostDecode m p hpa.toNat = .viol k → hostReach m p hpa.toNat true = .viol k →
     Leads (.memWrPtl p tag hpa mv data mask poison) q m (sendNothing (viol (count m (ptBase p) 2) p k (hpa.toNat * 64)) p tag.toNat false)) ∧
  (∀ (p : Fin 32) (tag : BitVec 16) (hpa : BitVec 46) (q : List Instr) (m : Mach), Leads (.memSpecRd p tag hpa) q m (m))

/-- On a HOST port whose link is Up: BICONFLICT for a line with an open snoop is acknowledged, and is a protocol error without one. A response answers
  the oldest open snoop of the line, and where a failed side sent that snoop the response is discarded. BIRSPI closes any snoop, BIRSPS one of kind
  BISnpCur or BISnpData and BIRSPE one of kind BISnpCur: the snoop leaves the table and the answer goes to the home of the line; a BIRSPE to another
  kind makes the port lost, with PROTO and the CXL RAS record. With no snoop of a failed side open in the group: BIRSPIBLK whose named lines are all
  open in a BISnpInvBlk closes them, and naming none makes the port lost. BIRSPSBLK and BIRSPEBLK make the port lost when a snoop of the group is
  open, and are protocol errors when none is. It says of each of these forms that exec answers a next state, under hypotheses on the state and
  operands alone: biConflict, biRspI, biRspS, biRspE, biRspIBlk, biRspSBlk, biRspEBlk. -/
def Obligations.SnoopResponses : Prop :=
  (∀ (p : Fin 32) (pln : BitVec 42) (s : OpenSnp) (q : List Instr) (m : Mach), hostLink m p = true →
     (m.ports.snps.find? fun s => s.port == p.val && s.pln == pln.toNat && s.sent) = some s → s.fenced = false →
     Leads (.biConflict p pln) q m (sendNdr (count (count m (ptBase p) 0x05) (hsBase s.h) 0x3C) p .biConflictAck pln.toNat)) ∧
  (∀ (p : Fin 32) (pln : BitVec 42) (q : List Instr) (m : Mach), hostLink m p = true →
     (m.ports.snps.find? fun s => s.port == p.val && s.pln == pln.toNat && s.sent) = none →
     Leads (.biConflict p pln) q m ((fun m => cfgSet (protoErr m p) p { cfgOf m p with rasCor := true }) (count m (ptBase p) 0x05))) ∧
  (∀ (p : Fin 32) (pln : BitVec 42) (s : OpenSnp) (q : List Instr) (m : Mach), hostLink m p = true →
     (m.ports.snps.find? fun s => s.port == p.val && s.pln == pln.toNat && s.sent) = some s → s.fenced = false →
     Leads (.biRspI p pln) q m ({ m with ports := { m.ports with snps := dropFirst (fun x => x == s) m.ports.snps }, home := { m.home with rspQ := m.home.rspQ ++ [⟨s.h, s.pln, s.port, none⟩] } })) ∧
  (∀ (p : Fin 32) (pln : BitVec 42) (s : OpenSnp) (q : List Instr) (m : Mach), hostLink m p = true →
     (m.ports.snps.find? fun s => s.port == p.val && s.pln == pln.toNat && s.sent) = some s → s.fenced = false → s.kind = .cur ∨ s.kind = .data →
     Leads (.biRspS p pln) q m
     ({ m with ports := { m.ports with snps := dropFirst (fun x => x == s) m.ports.snps }, home := { m.home with rspQ := m.home.rspQ ++ [⟨s.h, s.pln, s.port, some .s⟩] } })) ∧
  (∀ (p : Fin 32) (pln : BitVec 42) (s : OpenSnp) (q : List Instr) (m : Mach), hostLink m p = true →
     (m.ports.snps.find? fun s => s.port == p.val && s.pln == pln.toNat && s.sent) = some s → s.fenced = false → s.kind = .cur →
     Leads (.biRspE p pln) q m
     ({ m with ports := { m.ports with snps := dropFirst (fun x => x == s) m.ports.snps }, home := { m.home with rspQ := m.home.rspQ ++ [⟨s.h, s.pln, s.port, some .e⟩] } })) ∧
  (∀ (p : Fin 32) (pln : BitVec 42) (s : OpenSnp) (q : List Instr) (m : Mach), hostLink m p = true →
     (m.ports.snps.find? fun s => s.port == p.val && s.pln == pln.toNat && s.sent) = some s → s.fenced = false → s.kind ≠ .cur →
     Leads (.biRspE p pln) q m (losePort (cfgSet (protoErr m p) p { cfgOf m p with rasUnc := some pln.toNat }) p)) ∧
  (∀ (p : Fin 32) (pln : BitVec 42) (s : OpenSnp) (q : List Instr) (m : Mach), hostLink m p = true →
     (m.ports.snps.find? fun s => s.port == p.val && s.pln == pln.toNat && s.sent) = some s → s.fenced = true →
     Leads (.biRspI p pln) q m ({ m with ports := { m.ports with snps := dropFirst (fun x => x == s) m.ports.snps } })) ∧
  (∀ (p : Fin 32) (grp : BitVec 40) (lines : BitVec 4) (named : List Nat) (op : List OpenSnp) (q : List Instr) (m : Mach), hostLink m p = true →
     ((blkOpen m p grp.toNat true).filter fun s => s.kind == .invBlk && (blkLines grp.toNat lines).contains s.pln).isEmpty = true →
     (blkOpen m p grp.toNat false).isEmpty = false → named = (((List.range 4).filter fun i => bitOf lines.toNat i).map fun i => grp.toNat * 4 + i) →
     named ≠ [] → op = ((blkOpen m p grp.toNat false).filter fun s => s.kind == .invBlk && named.contains s.pln) → op.length = named.length →
     Leads (.biRspIBlk p grp lines) q m (op.foldl (fun m s => snpClose m s none) m)) ∧
  (∀ (p : Fin 32) (grp : BitVec 40) (lines : BitVec 4) (q : List Instr) (m : Mach), hostLink m p = true →
     (blkOpen m p grp.toNat true).isEmpty = true → (blkOpen m p grp.toNat false).isEmpty = false → lines = 0 →
     Leads (.biRspIBlk p grp lines) q m (losePort (cfgSet (protoErr m p) p { cfgOf m p with rasUnc := some (grp.toNat * 4) }) p)) ∧
  (∀ (p : Fin 32) (grp : BitVec 40) (q : List Instr) (m : Mach), hostLink m p = true → (blkOpen m p grp.toNat true).isEmpty = true →
     (blkOpen m p grp.toNat false).isEmpty = false → Leads (.biRspSBlk p grp) q m (losePort (cfgSet (protoErr m p) p
     { cfgOf m p with rasUnc := some (grp.toNat * 4) }) p)) ∧
  (∀ (p : Fin 32) (grp : BitVec 40) (q : List Instr) (m : Mach), hostLink m p = true → (blkOpen m p grp.toNat false).isEmpty = true →
     (blkOpen m p grp.toNat true).isEmpty = true → Leads (.biRspSBlk p grp) q m (cfgSet (protoErr m p) p { cfgOf m p with rasCor := true })) ∧
  (∀ (p : Fin 32) (grp : BitVec 40) (q : List Instr) (m : Mach), hostLink m p = true → (blkOpen m p grp.toNat true).isEmpty = true →
     (blkOpen m p grp.toNat false).isEmpty = false → Leads (.biRspEBlk p grp) q m (losePort (cfgSet (protoErr m p) p
     { cfgOf m p with rasUnc := some (grp.toNat * 4) }) p)) ∧
  (∀ (p : Fin 32) (grp : BitVec 40) (q : List Instr) (m : Mach), hostLink m p = true → (blkOpen m p grp.toNat false).isEmpty = true →
     (blkOpen m p grp.toNat true).isEmpty = true → Leads (.biRspEBlk p grp) q m (cfgSet (protoErr m p) p { cfgOf m p with rasCor := true }))

/-- On a HOST port whose link is Up. HOST_CONFIG_ACCESS sets BI Enable, masks a vector or the function, uncommits an unlocked decoder and leaves a
  locked one; a read returns the device number or the class code beside open bits, and an open value elsewhere. DOE_REQUEST returns CDAT, opens an
  SPDM session, programs IDE keys in one, and makes CXL.mem IDE active in the mode asked for, or counts a refresh when it is. HDM_DECODER_COMMIT
  commits decoder d, with BI enabled and no interleave or option, when every lower decoder and no higher one is committed, below it in HPA and apart
  from it in HPA and DPA; it fails without BI, with an interleave or an option, with a higher decoder committed, or not above a lower one and apart
  from it; a locked committed decoder stays as it is. MSIX_UNMASK clears the mask and sends the vector that was pending, if that is no longer masked.
  HOST_BAR_BAD_ACCESS is a protocol error, and a read returns 0. It says of each of these forms that exec answers a next state, under hypotheses on
  the state and operands alone: hdmDecoderCommit, hostConfigAccess, doeRequest, msixUnmask, hostBarBadAccess. -/
def Obligations.HostConfiguration : Prop :=
  (∀ (p : Fin 32) (on : Bool) (q : List Instr) (m : Mach), hostLink m p = true →
     Leads (.hostConfigAccess p (.biEnable on)) q m (cfgSet m p { cfgOf m p with biEn := on })) ∧
  (∀ (p : Fin 32) (v : Fin 3) (q : List Instr) (m : Mach), hostLink m p = true →
     Leads (.hostConfigAccess p (.maskVector v)) q m (cfgSet m p { cfgOf m p with vmask := setBit (cfgOf m p).vmask v true })) ∧
  (∀ (p : Fin 32) (q : List Instr) (m : Mach), hostLink m p = true →
     Leads (.hostConfigAccess p .maskFunction) q m (cfgSet m p { cfgOf m p with fmask := true })) ∧
  (∀ (p : Fin 32) (d : Fin 8) (x : Hdm) (q : List Instr) (m : Mach), hostLink m p = true → mget m.comp.hdm (p.val * 8 + d.val) = some x →
     x.lock = false → Leads (.hostConfigAccess p (.uncommit d)) q m ({ m with comp := { m.comp with hdm := mdel m.comp.hdm (p.val * 8 + d.val) } })) ∧
  (∀ (p : Fin 32) (d : Fin 8) (q : List Instr) (m : Mach), hostLink m p = true →
     (mget m.comp.hdm (p.val * 8 + d.val)).all (fun x => x.lock) = true → Leads (.hostConfigAccess p (.uncommit d)) q m (m)) ∧
  (∀ (p : Fin 32) (q : List Instr) (m : Mach), hostLink m p = true → Leads (.hostConfigAccess p (.read 0)) q m (send (draw m) (.cxlIo p
     "configuration read" [0, 0x0512 * 2 ^ 16 + drawn m % 2 ^ 16]))) ∧
  (∀ (p : Fin 32) (q : List Instr) (m : Mach), hostLink m p = true → Leads (.hostConfigAccess p (.read 8)) q m (send (draw m) (.cxlIo p
     "configuration read" [8, 0x050210 * 2 ^ 8 + drawn m % 2 ^ 8]))) ∧
  (∀ (p : Fin 32) (off : BitVec 12) (q : List Instr) (m : Mach), hostLink m p = true → off ≠ 0 → off ≠ 8 →
     Leads (.hostConfigAccess p (.read off)) q m (send (draw m) (.cxlIo p "configuration read" [off.toNat, drawn m % 2 ^ 32]))) ∧
  (∀ (p : Fin 32) (q : List Instr) (m : Mach), hostLink m p = true → Leads (.doeRequest p .cdat) q m (send m (.cxlIo p "CDAT" [0]))) ∧
  (∀ (p : Fin 32) (q : List Instr) (m : Mach), hostLink m p = true →
     Leads (.doeRequest p .spdm) q m (send (cfgSet m p { cfgOf m p with spdm := true }) (.cxlIo p "SPDM 1.2" []))) ∧
  (∀ (p : Fin 32) (q : List Instr) (m : Mach), hostLink m p = true → (cfgOf m p).spdm = true → fget m (ptBase p) R.PT_IDE_STATE ≠ 2 →
     Leads (.doeRequest p .ideProgram) q m (send (fset m (ptBase p) R.PT_IDE_STATE 1) (.cxlIo p "IDE_KM" [1]))) ∧
  (∀ (p : Fin 32) (q : List Instr) (m : Mach), hostLink m p = true → (cfgOf m p).spdm = true → fget m (ptBase p) R.PT_IDE_STATE = 2 →
     Leads (.doeRequest p .ideProgram) q m (send m (.cxlIo p "IDE_KM" [1]))) ∧
  (∀ (p : Fin 32) (ct : Bool) (q : List Instr) (m : Mach), hostLink m p = true → (cfgOf m p).spdm = true → fget m (ptBase p) R.PT_IDE_STATE = 1 →
     Leads (.doeRequest p (.ideGo ct)) q m (fset (fset (fset m (ptBase p) R.PT_IDE_STATE 2) (ptBase p) R.PT_IDE_MODE (b2n ct)) (ptBase p)
     R.PT_LINK_IDE 1)) ∧
  (∀ (p : Fin 32) (ct : Bool) (q : List Instr) (m : Mach), hostLink m p = true → (cfgOf m p).spdm = true → fget m (ptBase p) R.PT_IDE_STATE = 2 →
     Leads (.doeRequest p (.ideGo ct)) q m (finc m (ptBase p) R.PT_IDE_REFRESH)) ∧
  (∀ (p : Fin 32) (d : Fin 8) (base size dpa : BitVec 36) (lock : Bool) (q : List Instr) (m : Mach), hostLink m p = true →
     (cfgOf m p).biEn = true → (∀ k < d.val, (mget m.comp.hdm (p.val * 8 + k)).any (fun x => x.committed && decide (x.base < base.toNat) && (x.size
     == 0 || size == 0 || (decide (x.base + x.size ≤ base.toNat) && (decide (x.dpa + x.size ≤ dpa.toNat) || decide (dpa.toNat + size.toNat ≤
     x.dpa))))) = true) → (∀ k < 8, d.val < k → (mget m.comp.hdm (p.val * 8 + k)).any (fun x => x.committed) = false) →
     (mget m.comp.hdm (p.val * 8 + d.val)).any (fun x => x.committed && x.lock) = false →
     Leads (.hdmDecoderCommit p d base size dpa 0 lock false) q m (send
     { m with comp := { m.comp with hdm := mput m.comp.hdm (p.val * 8 + d.val) ⟨base.toNat, size.toNat, dpa.toNat, true, lock⟩ } } (.cxlIo p "HDM
     decoder commit" [d.val, 1]))) ∧
  (∀ (p : Fin 32) (d : Fin 8) (base size dpa : BitVec 36) (ways : BitVec 4) (lock other : Bool) (q : List Instr) (m : Mach), hostLink m p = true →
     (mget m.comp.hdm (p.val * 8 + d.val)).any (fun x => x.committed && x.lock) = false → (cfgOf m p).biEn = false ∨ ways ≠ 0 ∨ other = true →
     Leads (.hdmDecoderCommit p d base size dpa ways lock other) q m (send m (.cxlIo p "HDM decoder commit" [d.val, 0]))) ∧
  (∀ (p : Fin 32) (d : Fin 8) (base size dpa : BitVec 36) (ways : BitVec 4) (lock other : Bool) (k : Nat) (x : Hdm) (q : List Instr) (m : Mach),
     hostLink m p = true → (mget m.comp.hdm (p.val * 8 + d.val)).any (fun x => x.committed && x.lock) = false → k < 8 → k ≠ d.val →
     (mget m.comp.hdm (p.val * 8 + k)) = some x → x.committed = true → d.val < k ∨ base.toNat ≤ x.base ∨ (0 < size.toNat ∧ 0 < x.size ∧
     base.toNat < x.base + x.size) ∨ (0 < size.toNat ∧ 0 < x.size ∧ dpa.toNat < x.dpa + x.size ∧ x.dpa < dpa.toNat + size.toNat) →
     Leads (.hdmDecoderCommit p d base size dpa ways lock other) q m (send m (.cxlIo p "HDM decoder commit" [d.val, 0]))) ∧
  (∀ (p : Fin 32) (d : Fin 8) (base size dpa : BitVec 36) (ways : BitVec 4) (lock other : Bool) (q : List Instr) (m : Mach), hostLink m p = true →
     (mget m.comp.hdm (p.val * 8 + d.val)).any (fun x => x.committed && x.lock) = true →
     Leads (.hdmDecoderCommit p d base size dpa ways lock other) q m (send m (.cxlIo p "HDM decoder commit" [d.val, 1]))) ∧
  (∀ (p : Fin 32) (v : Fin 3) (q : List Instr) (m : Mach), hostLink m p = true → (cfgOf m p).vpend = 2 ^ v.val →
     bitOf (cfgOf m p).vmask v = false → Leads (.msixUnmask p none) q m (send (cfgSet (cfgSet m p { cfgOf m p with fmask := false }) p
     { cfgOf m p with fmask := false, vpend := 0 }) (.msix p v))) ∧
  (∀ (p : Fin 32) (q : List Instr) (m : Mach), hostLink m p = true → (∀ u < 3, bitOf (cfgOf m p).vpend u = false ∨ bitOf (cfgOf m p).vmask u =
     true) → Leads (.msixUnmask p none) q m (cfgSet m p { cfgOf m p with fmask := false })) ∧
  (∀ (p : Fin 32) (v : Fin 3) (q : List Instr) (m : Mach), hostLink m p = true → (cfgOf m p).fmask = false → bitOf (cfgOf m p).vpend v = true →
     (∀ u < 3, u ≠ v.val → bitOf (cfgOf m p).vpend u = false ∨ bitOf (cfgOf m p).vmask u = true) →
     Leads (.msixUnmask p (some v)) q m (send (cfgSet (cfgSet m p { cfgOf m p with vmask := setBit (cfgOf m p).vmask v false }) p
     { cfgOf m p with vmask := setBit (cfgOf m p).vmask v false, vpend := setBit (cfgOf m p).vpend v false }) (.msix p v))) ∧
  (∀ (p : Fin 32) (v : Fin 3) (q : List Instr) (m : Mach), hostLink m p = true → (cfgOf m p).fmask = true ∨ (cfgOf m p).vpend = 0 →
     Leads (.msixUnmask p (some v)) q m (cfgSet m p { cfgOf m p with vmask := setBit (cfgOf m p).vmask v false })) ∧
  (∀ (p : Fin 32) (q : List Instr) (m : Mach), hostLink m p = true →
     Leads (.hostBarBadAccess p true) q m (cfgSet (protoErr m p) p { cfgOf m p with rasCor := true })) ∧
  (∀ (p : Fin 32) (q : List Instr) (m : Mach), hostLink m p = true → Leads (.hostBarBadAccess p false) q m (send (cfgSet (protoErr m p) p
     { cfgOf m p with rasCor := true }) (.barRead p 0)))

/-- On a HOST port whose link is Up, each mailbox command sends its answer and raises vector 2: open contents where the standard gives them, one
  supported log, the timestamp of the port running from Set Timestamp, the records of the Failure and Dynamic Capacity logs and none of the others,
  the policies and configurations as last written, the firmware version, static capacity 0, and up to 256 poisoned lines of its extents; Set and Clear
  commands write their state first. Only the CEL can be read, and another command is unsupported. It says of each of these forms that exec answers a
  next state, under hypotheses on the state and operands alone: identify, backgroundOperationStatus, getSupportedLogs, getLog, getTimestamp,
  setTimestamp, getEventRecords, clearEventRecords, getEventInterruptPolicy, setEventInterruptPolicy, getFwInfo, identifyMemoryDevice, getHealthInfo,
  getAlertConfiguration, setAlertConfiguration, getPoisonList, mailboxUnsupportedCommand. -/
def Obligations.MailboxCommands : Prop :=
  (∀ (p : Fin 32) (q : List Instr) (m : Mach), hostLink m p = true → Leads (.identify p) q m (msix (send (draw m) (.mailbox p "Identify" .success
     [drawn m])) p 2)) ∧
  (∀ (p : Fin 32) (q : List Instr) (m : Mach), hostLink m p = true → Leads (.backgroundOperationStatus p) q m (msix (send (m) (.mailbox p
     "Background Operation Status" .success [0])) p 2)) ∧
  (∀ (p : Fin 32) (q : List Instr) (m : Mach), hostLink m p = true → Leads (.getSupportedLogs p) q m (msix (send (m) (.mailbox p "Get Supported
     Logs" .success [1])) p 2)) ∧
  (∀ (p : Fin 32) (q : List Instr) (m : Mach), hostLink m p = true → Leads (.getLog p true) q m (msix (send (draw m) (.mailbox p "Get Log"
     .success [drawn m])) p 2)) ∧
  (∀ (p : Fin 32) (q : List Instr) (m : Mach), hostLink m p = true → Leads (.getLog p false) q m (msix (send (m) (.mailbox p "Get Log" .invalid
     [])) p 2)) ∧
  (∀ (p : Fin 32) (q : List Instr) (m : Mach), hostLink m p = true → (cfgOf m p).stamp = 0 →
     Leads (.getTimestamp p) q m (msix (send (m) (.mailbox p "Get Timestamp" .success [0])) p 2)) ∧
  (∀ (p : Fin 32) (q : List Instr) (m : Mach), hostLink m p = true → (cfgOf m p).stamp ≠ 0 →
     Leads (.getTimestamp p) q m (msix (send (m) (.mailbox p "Get Timestamp" .success [(cfgOf m p).stamp + (m.timeUs - (cfgOf m p).stampAt) *
     1000])) p 2)) ∧
  (∀ (p : Fin 32) (ns : BitVec 64) (q : List Instr) (m : Mach), hostLink m p = true →
     Leads (.setTimestamp p ns) q m (msix (send (cfgSet m p { cfgOf m p with stamp := ns.toNat, stampAt := m.timeUs }) (.mailbox p "Set Timestamp"
     .success [])) p 2)) ∧
  (∀ (p : Fin 32) (q : List Instr) (m : Mach), hostLink m p = true → Leads (.getEventRecords p .failure) q m (msix (send (m) (.mailbox p "Get
     Event Records" .success (cfgOf m p).failLog)) p 2)) ∧
  (∀ (p : Fin 32) (q : List Instr) (m : Mach), hostLink m p = true → Leads (.getEventRecords p .dynamicCapacity) q m (msix (send (m) (.mailbox p
     "Get Event Records" .success ((cfgOf m p).dcLog.map fun x => x.1 * 64 + x.2))) p 2)) ∧
  (∀ (p : Fin 32) (l : EvLog) (q : List Instr) (m : Mach), hostLink m p = true → l = .informational ∨ l = .warning ∨ l = .fatal →
     Leads (.getEventRecords p l) q m (msix (send (m) (.mailbox p "Get Event Records" .success [])) p 2)) ∧
  (∀ (p : Fin 32) (n : Nat) (q : List Instr) (m : Mach), hostLink m p = true →
     Leads (.clearEventRecords p .failure n) q m (msix (send (cfgSet m p { cfgOf m p with failLog := (cfgOf m p).failLog.drop n }) (.mailbox p
     "Clear Event Records" .success [])) p 2)) ∧
  (∀ (p : Fin 32) (n : Nat) (q : List Instr) (m : Mach), hostLink m p = true →
     Leads (.clearEventRecords p .dynamicCapacity n) q m (msix (send (cfgSet m p { cfgOf m p with dcLog := (cfgOf m p).dcLog.drop n }) (.mailbox p
     "Clear Event Records" .success [])) p 2)) ∧
  (∀ (p : Fin 32) (q : List Instr) (m : Mach), hostLink m p = true → Leads (.getEventInterruptPolicy p) q m (msix (send (m) (.mailbox p "Get Event
     Interrupt Policy" .success [(cfgOf m p).evPolicy])) p 2)) ∧
  (∀ (p : Fin 32) (v : BitVec 40) (q : List Instr) (m : Mach), hostLink m p = true →
     Leads (.setEventInterruptPolicy p v) q m (msix (send (cfgSet m p { cfgOf m p with evPolicy := v.toNat }) (.mailbox p "Set Event Interrupt
     Policy" .success [])) p 2)) ∧
  (∀ (p : Fin 32) (q : List Instr) (m : Mach), hostLink m p = true → Leads (.getFwInfo p) q m (msix (send (m) (.mailbox p "Get FW Info" .success
     [1, fget m mgtBase R.MGT_STATUS_VERSION])) p 2)) ∧
  (∀ (p : Fin 32) (q : List Instr) (m : Mach), hostLink m p = true → Leads (.identifyMemoryDevice p) q m (msix (send (m) (.mailbox p "Identify
     Memory Device" .success [0, 0])) p 2)) ∧
  (∀ (p : Fin 32) (q : List Instr) (m : Mach), hostLink m p = true → Leads (.getHealthInfo p) q m (msix (send (draw m) (.mailbox p "Get Health
     Info" .success [drawn m])) p 2)) ∧
  (∀ (p : Fin 32) (q : List Instr) (m : Mach), hostLink m p = true → Leads (.getAlertConfiguration p) q m (msix (send (m) (.mailbox p "Get Alert
     Configuration" .success [(cfgOf m p).alertCfg])) p 2)) ∧
  (∀ (p : Fin 32) (v : BitVec 64) (q : List Instr) (m : Mach), hostLink m p = true →
     Leads (.setAlertConfiguration p v) q m (msix (send (cfgSet m p { cfgOf m p with alertCfg := v.toNat }) (.mailbox p "Set Alert Configuration"
     .success [])) p 2)) ∧
  (∀ (p : Fin 32) (q : List Instr) (m : Mach), hostLink m p = true → Leads (.getPoisonList p) q m (msix (send (m) (.mailbox p "Get Poison List"
     .success (((poisonedLines m).eraseDups.filterMap fun l => dpaOf m p l).take 256))) p 2)) ∧
  (∀ (p : Fin 32) (q : List Instr) (m : Mach), hostLink m p = true → Leads (.mailboxUnsupportedCommand p) q m (msix (send (m) (.mailbox p "other"
     .unsupported [])) p 2))

/-- On a HOST port whose link is Up: the mailbox gives the one region and the Accepted extents; an accepted or declined offer makes the extent Accepted
  or Free, a release of an Accepted extent starts its release, and other states are invalid. An Offered extent that times out is Free. A write to a
  free slot stores the word, and a header with the expected PHASE in byte 7 commits the slot; a write to a committed slot is dropped, with OVRN, its
  count and class 0x0E. A 64-bit read of the result queue returns and removes the oldest result, a half read returns a half and removes none, an empty
  queue returns 0, and a write of ADV removes one. It says of each of these forms that exec answers a next state, under hypotheses on the state and
  operands alone: getDynamicCapacityConfiguration, getDynamicCapacityExtentList, addDynamicCapacityResponse, releaseDynamicCapacity,
  extentOfferTimeout, cmdqArgWrite, cmdqHeaderWrite, ptResqPop, ptResqAdv. -/
def Obligations.DynamicCapacityAndQueues : Prop :=
  (∀ (p : Fin 32) (q : List Instr) (m : Mach), hostLink m p = true → Leads (.getDynamicCapacityConfiguration p) q m (msix (send (m) (.mailbox p
     "Get Dynamic Capacity Configuration" .success [1, 0, 2 ^ 48, 2 ^ 21, 64])) p 2)) ∧
  (∀ (p : Fin 32) (q : List Instr) (m : Mach), hostLink m p = true → Leads (.getDynamicCapacityExtentList p) q m (msix (send (m) (.mailbox p "Get
     Dynamic Capacity Extent List" .success (((List.range 64).filter fun e => extState m p e == 2).flatMap fun e => [extDpa m p e * 2 ^ 21, extLen m
     p e * 2 ^ 21]))) p 2)) ∧
  (∀ (p : Fin 32) (e : Fin 64) (accept : Bool) (q : List Instr) (m : Mach), hostLink m p = true → extState m p e = 1 →
     Leads (.addDynamicCapacityResponse p e accept) q m (msix (send (fset m (ptBase p + 16 * e) R.PT_VEXT_B_STATE (if accept then 2 else 0))
     (.mailbox p "Add Dynamic Capacity Response" .success [])) p 2)) ∧
  (∀ (p : Fin 32) (e : Fin 64) (accept : Bool) (q : List Instr) (m : Mach), hostLink m p = true → extState m p e ≠ 1 →
     Leads (.addDynamicCapacityResponse p e accept) q m (msix (send (m) (.mailbox p "Add Dynamic Capacity Response" .invalid [])) p 2)) ∧
  (∀ (p : Fin 32) (e : Fin 64) (q : List Instr) (m : Mach), hostLink m p = true → extState m p e = 2 → hostLink (extRelease m p e true) p = true →
     Leads (.releaseDynamicCapacity p e) q m (msix (send (extRelease m p e true) (.mailbox p "Release Dynamic Capacity" .success [])) p 2)) ∧
  (∀ (p : Fin 32) (e : Fin 64) (q : List Instr) (m : Mach), hostLink m p = true → extState m p e = 3 →
     hostLink (extRelease m p e false) p = true → Leads (.releaseDynamicCapacity p e) q m (msix (send (extRelease m p e false) (.mailbox p "Release
     Dynamic Capacity" .success [])) p 2)) ∧
  (∀ (p : Fin 32) (e : Fin 64) (q : List Instr) (m : Mach), hostLink m p = true → extState m p e < 2 →
     Leads (.releaseDynamicCapacity p e) q m (msix (send (m) (.mailbox p "Release Dynamic Capacity" .invalid [])) p 2)) ∧
  (∀ (p : Fin 32) (e : Fin 64) (q : List Instr) (m : Mach), extState m p e = 1 →
     Leads (.extentOfferTimeout p e) q m (fset m (ptBase p + 16 * e) R.PT_VEXT_B_STATE 0)) ∧
  (∀ (p : Fin 32) (slot : Fin 64) (a : Fin 7) (v : Word) (q : List Instr) (m : Mach), hostLink m p = true → slotBusy m p slot = false →
     Leads (.cmdqArgWrite p slot a .full v) q m
     ({ m with ports := { m.ports with queues := { m.ports.queues with words := sset 0 m.ports.queues.words (p * 512 + slot * 8 + (a.val + 1)) (v.toNat) } } })) ∧
  (∀ (p : Fin 32) (slot : Fin 64) (a : Fin 7) (h : Half) (v : Word) (q : List Instr) (m : Mach), hostLink m p = true → slotBusy m p slot = true →
     Leads (.cmdqArgWrite p slot a h v) q m (notice (fsat (fset m (ptBase p) R.PT_QSTAT_OVRN 1) (ptBase p) R.PT_QERR_OVRN_CNT) 0x0E p slot)) ∧
  (∀ (p : Fin 32) (slot : Fin 64) (v : Word) (q : List Instr) (m : Mach), hostLink m p = true → slotBusy m p slot = false →
     v.toNat / 2 ^ 63 = slotPhase m p slot → Leads (.cmdqHeaderWrite p slot .full v) q m (slotCommit
     ({ m with ports := { m.ports with queues := { m.ports.queues with words := sset 0 m.ports.queues.words (p * 512 + slot * 8 + 0) (v.toNat) } } })
     p slot)) ∧
  (∀ (p : Fin 32) (slot : Fin 64) (v : Word) (q : List Instr) (m : Mach), hostLink m p = true → slotBusy m p slot = false →
     v.toNat / 2 ^ 63 ≠ slotPhase m p slot → Leads (.cmdqHeaderWrite p slot .full v) q m
     ({ m with ports := { m.ports with queues := { m.ports.queues with words := sset 0 m.ports.queues.words (p * 512 + slot * 8 + 0) (v.toNat) } } })) ∧
  (∀ (p : Fin 32) (slot : Fin 64) (h : Half) (v : Word) (q : List Instr) (m : Mach), hostLink m p = true → slotBusy m p slot = true →
     Leads (.cmdqHeaderWrite p slot h v) q m (notice (fsat (fset m (ptBase p) R.PT_QSTAT_OVRN 1) (ptBase p) R.PT_QERR_OVRN_CNT) 0x0E p slot)) ∧
  (∀ (p : Fin 32) (w : Nat) (q : List Instr) (m : Mach), hostLink m p = true → (resultsOf m p).head? = some w →
     Leads (.ptResqPop p .full .good) q m (send
     ({ m with ports := { m.ports with queues := { m.ports.queues with results := dropFirst (fun r => r.1 == p.val) m.ports.queues.results, popped := sset 0 m.ports.queues.popped p (sget 0 m.ports.queues.popped p + 1) } } })
     (.barRead p w))) ∧
  (∀ (p : Fin 32) (ck : Check) (w : Nat) (q : List Instr) (m : Mach), hostLink m p = true → (resultsOf m p).head? = some w →
     Leads (.ptResqPop p .low ck) q m (send m (.barRead p (w % 2 ^ 32)))) ∧
  (∀ (p : Fin 32) (h : Half) (ck : Check) (q : List Instr) (m : Mach), hostLink m p = true → resultsOf m p = [] →
     Leads (.ptResqPop p h ck) q m (send m (.barRead p 0))) ∧
  (∀ (p : Fin 32) (w : Nat) (q : List Instr) (m : Mach), hostLink m p = true → (resultsOf m p).head? = some w →
     Leads (.ptResqAdv p) q m ({ m with ports := { m.ports with queues := { m.ports.queues with results := dropFirst (fun r => r.1 == p.val) m.ports.queues.results, popped := sset 0 m.ports.queues.popped p (sget 0 m.ports.queues.popped p + 1) } } })) ∧
  (∀ (p : Fin 32) (q : List Instr) (m : Mach), hostLink m p = true → resultsOf m p = [] → Leads (.ptResqAdv p) q m (m))

/-- On an IO port that takes requests, an access that lies in an enabled window with the right, over regions that permit the port, enters the
  transaction table as one entry for each line of a read or a posted write within the issue window, or one aligned atomic of 4 or 8 bytes, and goes to
  the home as soon as it may. An entry carries Relaxed Ordering of a posted write while PT_IOORD.RO_EN is 1, and ID-Based Ordering while IDO_EN is 1
  and its Requester ID is one of the 64 that the port tracks. A violation is recorded with its KIND; a non-posted request then completes with UR. A
  misaligned atomic, a 128-bit CAS and an unsupported request complete with UR. It says of each of these forms that exec answers a next state, under
  hypotheses on the state and operands alone: ioDmaRead, ioPostedWrite, ioFetchAdd, ioSwap, ioCas, ioUnsupportedRequest. -/
def Obligations.IoRequests : Prop :=
  (∀ (p : Fin 32) (tag : BitVec 14) (a : BitVec 64) (n : Fin 4097) (ido : Bool) (rid : BitVec 16) (x : Nat) (g : Bool) (q : List Instr) (m :
     Mach), npUp m p = true → n.val ≠ 0 → ioDecode m p a.toNat n (fun b => fon m b R.PT_IOWINA_R) = .addr x → piecesCheck m p (pieces x n) = none →
     g = (ido && fon m (ptBase p) R.PT_IOORD_IDO_EN && ((idsTracked m p).contains rid.toNat || decide ((idsTracked m p).length < 64))) →
     Leads (.ioDmaRead p tag a n ido rid) q m (sendHeld ((pieces x n).foldl (fun m l => pttTake m p tag.toNat .ioRead true l.1 0 0 false false false
     g rid.toNat l.2.1 l.2.2 a.toNat) (count m (ptBase p) 0x01)))) ∧
  (∀ (p : Fin 32) (tag : BitVec 14) (a : BitVec 64) (n : Fin 4097) (ido : Bool) (rid : BitVec 16) (k : Nat) (q : List Instr) (m : Mach), npUp m p
     = true → n.val ≠ 0 → ioDecode m p a.toNat n (fun b => fon m b R.PT_IOWINA_R) = .viol k →
     Leads (.ioDmaRead p tag a n ido rid) q m (send (urRecord (viol (count m (ptBase p) 0x01) p k a.toNat) p a.toNat) (.ioCpl p tag.toNat .ur 0 0 0
     false))) ∧
  (∀ (p : Fin 32) (tag : BitVec 14) (a : BitVec 64) (n : Fin 4097) (ido : Bool) (rid : BitVec 16) (x k : Nat) (q : List Instr) (m : Mach), npUp m
     p = true → n.val ≠ 0 → ioDecode m p a.toNat n (fun b => fon m b R.PT_IOWINA_R) = .addr x → piecesCheck m p (pieces x n) = some k →
     Leads (.ioDmaRead p tag a n ido rid) q m (send (urRecord (viol (count m (ptBase p) 0x01) p k a.toNat) p a.toNat) (.ioCpl p tag.toNat .ur 0 0 0
     false))) ∧
  (∀ (p : Fin 32) (a : BitVec 64) (n : Fin 257) (data : BitVec 2048) (en : BitVec 256) (poison ro ido : Bool) (rid : BitVec 16) (x : Nat) (g :
     Bool) (q : List Instr) (m : Mach), ioUp m p = true → n.val ≠ 0 → prepHeld m p + (pieces a.toNat n).length ≤ fget m (ptBase p) R.PT_IOORD_WINDOW
     → ioDecode m p a.toNat n (fun b => fon m b R.PT_IOWINA_W) = .addr x → piecesCheck m p (pieces x n) = none →
     g = (ido && fon m (ptBase p) R.PT_IOORD_IDO_EN && ((idsTracked m p).contains rid.toNat || decide ((idsTracked m p).length < 64))) →
     Leads (.ioPostedWrite p a n data en poison ro ido rid) q m (sendHeld ((pieces x n).foldl (fun m l => pttTake m p 0 .ioWrite true l.1
     (BitVec.ofNat 512 (data.toNat * 2 ^ (8 * (x % 64)) / 2 ^ (512 * (l.1 - x / 64)))) (BitVec.ofNat 64 (en.toNat % 2 ^ n.val * 2 ^ (x % 64) / 2 ^
     (64 * (l.1 - x / 64)))) poison true (ro && fon m (ptBase p) R.PT_IOORD_RO_EN) g rid.toNat l.2.1 l.2.2 a.toNat) (count m (ptBase p) 0x02)))) ∧
  (∀ (p : Fin 32) (a : BitVec 64) (n : Fin 257) (data : BitVec 2048) (en : BitVec 256) (poison ro ido : Bool) (rid : BitVec 16) (k : Nat) (q :
     List Instr) (m : Mach), ioUp m p = true → n.val ≠ 0 → prepHeld m p + (pieces a.toNat n).length ≤ fget m (ptBase p) R.PT_IOORD_WINDOW →
     ioDecode m p a.toNat n (fun b => fon m b R.PT_IOWINA_W) = .viol k → Leads (.ioPostedWrite p a n data en poison ro ido rid) q m (urRecord (viol
     (count m (ptBase p) 0x02) p k a.toNat) p a.toNat)) ∧
  (∀ (p : Fin 32) (a : BitVec 64) (n : Fin 257) (data : BitVec 2048) (en : BitVec 256) (poison ro ido : Bool) (rid : BitVec 16) (x k : Nat) (q :
     List Instr) (m : Mach), ioUp m p = true → n.val ≠ 0 → prepHeld m p + (pieces a.toNat n).length ≤ fget m (ptBase p) R.PT_IOORD_WINDOW →
     ioDecode m p a.toNat n (fun b => fon m b R.PT_IOWINA_W) = .addr x → piecesCheck m p (pieces x n) = some k →
     Leads (.ioPostedWrite p a n data en poison ro ido rid) q m (urRecord (viol (count m (ptBase p) 0x02) p k a.toNat) p a.toNat)) ∧
  (∀ (p : Fin 32) (tag : BitVec 14) (a : BitVec 64) (wide : Bool) (v : Word) (ido : Bool) (rid : BitVec 16) (n x : Nat) (g : Bool) (q : List
     Instr) (m : Mach), npUp m p = true → n = (if wide then 8 else 4) → a.toNat % n = 0 →
     ioDecode m p a.toNat n (fun b => fon m b R.PT_IOWINA_ATOM && fon m b R.PT_IOWINA_R && fon m b R.PT_IOWINA_W) = .addr x →
     piecesCheck m p (pieces x n) = none → g = (ido && fon m (ptBase p) R.PT_IOORD_IDO_EN && ((idsTracked m p).contains rid.toNat || decide
     ((idsTracked m p).length < 64))) → Leads (.ioFetchAdd p tag a wide v ido rid) q m (sendHeld (pttTake (count m (ptBase p) 0x02) p tag.toNat
     (.atomic .add (x % 64) n v.toNat 0) true (x / 64) 0 0 false false false g rid.toNat 0 n a.toNat))) ∧
  (∀ (p : Fin 32) (tag : BitVec 14) (a : BitVec 64) (wide : Bool) (v : Word) (ido : Bool) (rid : BitVec 16) (n k : Nat) (q : List Instr) (m :
     Mach), npUp m p = true → n = (if wide then 8 else 4) → a.toNat % n = 0 →
     ioDecode m p a.toNat n (fun b => fon m b R.PT_IOWINA_ATOM && fon m b R.PT_IOWINA_R && fon m b R.PT_IOWINA_W) = .viol k →
     Leads (.ioFetchAdd p tag a wide v ido rid) q m (send (urRecord (viol (count m (ptBase p) 0x02) p k a.toNat) p a.toNat) (.ioCpl p tag.toNat .ur
     0 0 0 false))) ∧
  (∀ (p : Fin 32) (tag : BitVec 14) (a : BitVec 64) (wide : Bool) (v : Word) (ido : Bool) (rid : BitVec 16) (q : List Instr) (m : Mach), npUp m p
     = true → a.toNat % (if wide then 8 else 4) ≠ 0 → Leads (.ioFetchAdd p tag a wide v ido rid) q m (send (urRecord (count m (ptBase p) 0x02) p
     a.toNat) (.ioCpl p tag.toNat .ur 0 0 0 false))) ∧
  (∀ (p : Fin 32) (tag : BitVec 14) (a : BitVec 64) (wide : Bool) (v : Word) (ido : Bool) (rid : BitVec 16) (n x : Nat) (g : Bool) (q : List
     Instr) (m : Mach), npUp m p = true → n = (if wide then 8 else 4) → a.toNat % n = 0 →
     ioDecode m p a.toNat n (fun b => fon m b R.PT_IOWINA_ATOM && fon m b R.PT_IOWINA_R && fon m b R.PT_IOWINA_W) = .addr x →
     piecesCheck m p (pieces x n) = none → g = (ido && fon m (ptBase p) R.PT_IOORD_IDO_EN && ((idsTracked m p).contains rid.toNat || decide
     ((idsTracked m p).length < 64))) → Leads (.ioSwap p tag a wide v ido rid) q m (sendHeld (pttTake (count m (ptBase p) 0x02) p tag.toNat (.atomic
     .swap (x % 64) n v.toNat 0) true (x / 64) 0 0 false false false g rid.toNat 0 n a.toNat))) ∧
  (∀ (p : Fin 32) (tag : BitVec 14) (a : BitVec 64) (wide : Bool) (v : Word) (ido : Bool) (rid : BitVec 16) (n k : Nat) (q : List Instr) (m :
     Mach), npUp m p = true → n = (if wide then 8 else 4) → a.toNat % n = 0 →
     ioDecode m p a.toNat n (fun b => fon m b R.PT_IOWINA_ATOM && fon m b R.PT_IOWINA_R && fon m b R.PT_IOWINA_W) = .viol k →
     Leads (.ioSwap p tag a wide v ido rid) q m (send (urRecord (viol (count m (ptBase p) 0x02) p k a.toNat) p a.toNat) (.ioCpl p tag.toNat .ur 0 0
     0 false))) ∧
  (∀ (p : Fin 32) (tag : BitVec 14) (a : BitVec 64) (wide : Bool) (v : Word) (ido : Bool) (rid : BitVec 16) (q : List Instr) (m : Mach), npUp m p
     = true → a.toNat % (if wide then 8 else 4) ≠ 0 → Leads (.ioSwap p tag a wide v ido rid) q m (send (urRecord (count m (ptBase p) 0x02) p
     a.toNat) (.ioCpl p tag.toNat .ur 0 0 0 false))) ∧
  (∀ (p : Fin 32) (tag : BitVec 14) (a : BitVec 64) (size : Fin 3) (cmp swap : Word) (ido : Bool) (rid : BitVec 16) (n x : Nat) (g : Bool) (q :
     List Instr) (m : Mach), npUp m p = true → size.val < 2 → n = (if size.val = 1 then 8 else 4) → a.toNat % n = 0 →
     ioDecode m p a.toNat n (fun b => fon m b R.PT_IOWINA_ATOM && fon m b R.PT_IOWINA_R && fon m b R.PT_IOWINA_W) = .addr x →
     piecesCheck m p (pieces x n) = none → g = (ido && fon m (ptBase p) R.PT_IOORD_IDO_EN && ((idsTracked m p).contains rid.toNat || decide
     ((idsTracked m p).length < 64))) → Leads (.ioCas p tag a size cmp swap ido rid) q m (sendHeld (pttTake (count m (ptBase p) 0x02) p tag.toNat
     (.atomic .cas (x % 64) n swap.toNat cmp.toNat) true (x / 64) 0 0 false false false g rid.toNat 0 n a.toNat))) ∧
  (∀ (p : Fin 32) (tag : BitVec 14) (a : BitVec 64) (size : Fin 3) (cmp swap : Word) (ido : Bool) (rid : BitVec 16) (q : List Instr) (m : Mach),
     npUp m p = true → size.val < 2 → a.toNat % (if size.val = 1 then 8 else 4) ≠ 0 →
     Leads (.ioCas p tag a size cmp swap ido rid) q m (send (urRecord (count m (ptBase p) 0x02) p a.toNat) (.ioCpl p tag.toNat .ur 0 0 0 false))) ∧
  (∀ (p : Fin 32) (tag : BitVec 14) (a : BitVec 64) (cmp swap : Word) (ido : Bool) (rid : BitVec 16) (q : List Instr) (m : Mach), npUp m p = true
     → Leads (.ioCas p tag a 2 cmp swap ido rid) q m (send (urRecord m p a.toNat) (.ioCpl p tag.toNat .ur 0 0 0 false))) ∧
  (∀ (p : Fin 32) (tag : BitVec 14) (q : List Instr) (m : Mach), npUp m p = true →
     Leads (.ioUnsupportedRequest p tag) q m (send (urRecord m p (2 ^ 64 - 1)) (.ioCpl p tag.toNat .ur 0 0 0 false)))

/-- On an IO port whose link is Up, error messages are recorded with their Requester ID, and counted messages are discarded. A prepare report marks its
  write prepared and releases every write that may go; a release of a write that is not twinned performs it at its slice. A configuration request with
  an aligned offset on an idle port sends it and sets BUSY; its completion or timeout clears BUSY with the STATUS, and a successful read stores its
  data. A window word with a legal SIZE and EN 0, or a base word of a disabled window, is written; a base that breaks the alignment of an enabled
  window is rejected with CAUSE 3 and changes nothing else. It says of each of these forms that exec answers a next state, under hypotheses on the
  state and operands alone: errCor, errNonfatal, errFatal, ioMessageDiscarded, writePrepared, writeRelease, configurationRequest,
  configurationCompletion, configurationTimeout, ptIowinWrite. -/
def Obligations.IoWritesConfigurationAndWindows : Prop :=
  (∀ (p : Fin 32) (rid : BitVec 16) (q : List Instr) (m : Mach), roleOf m p = 3 → linkUp m p = true →
     Leads (.errCor p rid) q m (err m { errOf 0 0 0x03 p with loc := rid.toNat })) ∧
  (∀ (p : Fin 32) (rid : BitVec 16) (q : List Instr) (m : Mach), roleOf m p = 3 → linkUp m p = true →
     Leads (.errNonfatal p rid) q m (err m { errOf 1 0 0x03 p with loc := rid.toNat })) ∧
  (∀ (p : Fin 32) (rid : BitVec 16) (q : List Instr) (m : Mach), roleOf m p = 3 → linkUp m p = true →
     Leads (.errFatal p rid) q m (err m { errOf 1 0 0x03 p with loc := rid.toNat })) ∧
  (∀ (p : Fin 32) (q : List Instr) (m : Mach), roleOf m p = 3 → linkUp m p = true →
     Leads (.ioMessageDiscarded p true) q m ({ m with ports := { m.ports with discards := sset 0 m.ports.discards p (sget 0 m.ports.discards p + 1) } })) ∧
  (∀ (p : Fin 32) (q : List Instr) (m : Mach), Leads (.ioMessageDiscarded p false) q m (m)) ∧
  (∀ (p : Fin 32) (id : Nat) (q : List Instr) (m : Mach), (m.ports.prepQ.find? fun x => x.1 == p.val) = some (p.val, id) →
     Leads (.writePrepared p) q m (sendHeld (releaseReady
     { m with ports := { m.ports with ptt := mapFirst (fun x => x.id == id) (fun x => { x with prepared := true }) m.ports.ptt, prepQ := dropFirst (fun x => x.1 == p.val) m.ports.prepQ } }
     p))) ∧
  (∀ (h : Fin 64) (pln p id : Nat) (r : Mshr) (x : Req) (rest : List Req) (q : List Instr) (m : Mach), (m.ports.relQ.find? fun x => x.1 == h.val)
     = some (h.val, pln, p, id) → mshrOf m h pln = some r → r.phase = .prepared → r.reqs = x :: rest → x.src = .io p id → r.buf = none →
     Leads (.writeRelease h) q m (pumpAll (mshrPut { m with ports := { m.ports with relQ := dropFirst (fun x => x.1 == h.val) m.ports.relQ } }
     { r with phase := .full, reqs := { x with op := .store } :: rest, coh := true }) h pln)) ∧
  (∀ (p : Fin 32) (off : BitVec 12) (be : BitVec 4) (func : Fin 8) (write : Bool) (q : List Instr) (m : Mach), reach m (ptBase p + 0x90) = .open_
     → roleOf m p = 3 → off.toNat % 4 = 0 → fon m (ptBase p) R.PT_CFGA_BUSY = false → linkUp m p = true →
     Leads (.configurationRequest p off be func write) q m (send (fset (fset (fset (fset (fset m (ptBase p) R.PT_CFGA_OFFSET off.toNat) (ptBase p)
     R.PT_CFGA_BE be.toNat) (ptBase p) R.PT_CFGA_FUNC func.val) (ptBase p) R.PT_CFGA_WRITE (b2n write)) (ptBase p) R.PT_CFGA_BUSY 1) (.cfgReq p
     write func.val off.toNat be.toNat (fget m (ptBase p) R.PT_CFGD_DATA)))) ∧
  (∀ (p : Fin 32) (data : BitVec 32) (q : List Instr) (m : Mach), roleOf m p = 3 → fon m (ptBase p) R.PT_CFGA_BUSY = true →
     fon m (ptBase p) R.PT_CFGA_WRITE = false → Leads (.configurationCompletion p 0 data) q m (fset (fset (fset m (ptBase p) R.PT_CFGA_BUSY 0)
     (ptBase p) R.PT_CFGA_STATUS 0) (ptBase p) R.PT_CFGD_DATA data.toNat)) ∧
  (∀ (p : Fin 32) (st : Fin 4) (data : BitVec 32) (q : List Instr) (m : Mach), roleOf m p = 3 → fon m (ptBase p) R.PT_CFGA_BUSY = true → st ≠ 0 →
     Leads (.configurationCompletion p st data) q m (fset (fset m (ptBase p) R.PT_CFGA_BUSY 0) (ptBase p) R.PT_CFGA_STATUS st.val)) ∧
  (∀ (p : Fin 32) (q : List Instr) (m : Mach), roleOf m p = 3 → fon m (ptBase p) R.PT_CFGA_BUSY = true →
     Leads (.configurationTimeout p) q m (fset (fset m (ptBase p) R.PT_CFGA_BUSY 0) (ptBase p) R.PT_CFGA_STATUS 4)) ∧
  (∀ (p : Fin 32) (w : Fin 64) (v : Word) (q : List Instr) (m : Mach), reach m (ptBase p + 0x400 + 16 * w + 0) = .open_ → roleOf m p = 3 →
     12 ≤ bitsOf v.toNat 0 6 → bitsOf v.toNat 0 6 ≤ 46 → bitsOf v.toNat 6 1 = 0 →
     Leads (.ptIowinWrite p w false v) q m (fset (fset (fset (fset (fset (fset m (ptBase p + 16 * w.val) R.PT_IOWINA_SIZE (bitsOf v.toNat 0 6))
     (ptBase p + 16 * w.val) R.PT_IOWINA_EN 0) (ptBase p + 16 * w.val) R.PT_IOWINA_R (bitsOf v.toNat 7 1)) (ptBase p + 16 * w.val) R.PT_IOWINA_W
     (bitsOf v.toNat 8 1)) (ptBase p + 16 * w.val) R.PT_IOWINA_ATOM (bitsOf v.toNat 9 1)) (ptBase p + 16 * w.val) R.PT_IOWINA_DMA_BASE (bitsOf
     v.toNat 12 52))) ∧
  (∀ (p : Fin 32) (w : Fin 64) (v : Word) (q : List Instr) (m : Mach), reach m (ptBase p + 0x400 + 16 * w + 8) = .open_ → roleOf m p = 3 →
     fon m (ptBase p + 16 * w.val) R.PT_IOWINA_EN = false → Leads (.ptIowinWrite p w true v) q m (fset m (ptBase p + 16 * w.val)
     R.PT_IOWINB_POOL_BASE (bitsOf v.toNat 12 36))) ∧
  (∀ (p : Fin 32) (w : Fin 64) (v : Word) (q : List Instr) (m : Mach), reach m (ptBase p + 0x400 + 16 * w + 8) = .open_ → roleOf m p = 3 →
     fon m (ptBase p + 16 * w.val) R.PT_IOWINA_EN = true → bitsOf v.toNat 12 36 * 4096 % 2 ^ fget m (ptBase p + 16 * w.val) R.PT_IOWINA_SIZE ≠ 0 →
     Leads (.ptIowinWrite p w true v) q m (reject m (ptBase p) 3 (0x408 + 16 * w.val)))

/-- A port that may train and reaches L0 in FLIT mode at a rate and width that PT_LCTL allows shows Up with its rate and width and LUP, and WIDTHLOW
  where it is less than allowed; a HOST port, which needs rate 5 or more, starts its queues, and a MEM port that is not Lost records the capacity of
  its sled and becomes ready when it may, while a Lost one stays Lost; an IO port does no more. A link down, a hot reset and a retry train again; a
  link disable stays down. PERST# of 1 µs or more holds a HOST port in state 5 until its release, and a shorter one is ignored. A cable that appears
  at an IO port starts a PERST# pulse, whose end starts training; one that appears at a HOST port starts training and one that goes takes its link
  down; PRST pulses a MEM or IO port. Retraining is a passage through Recovery; DIS takes the port down and enables it again. It says of each of these
  forms that exec answers a next state, under hypotheses on the state and operands alone: linkUp, trainingRetry, hostLinkDown, memLinkDown,
  ioLinkDown, perstAssert, perstRelease, hotReset, linkDisable, cablePresenceChange, prst, perstPulseEnd, retrain, portDisable. -/
def Obligations.LinkStatesAndResets : Prop :=
  (∀ (p : Fin 32) (rate : Fin 8) (width : Fin 4) (learned : Bool) (cap : Word) (q : List Instr) (m : Mach), mayTrain m p = true → roleOf m p = 1 →
     5 ≤ rate.val → 1 ≤ rate.val → rate.val ≤ 6 → rate.val ≤ fget m (ptBase p) R.PT_LCTL_MAXRATE → width.val ≠ 0 →
     width.val ≤ fget m (ptBase p) R.PT_LCTL_MAXWIDTH → Leads (.linkUp p rate width true learned cap) q m (queuesStart (if rate.val < fget m (ptBase
     p) R.PT_LCTL_MAXRATE ∨ width.val < fget m (ptBase p) R.PT_LCTL_MAXWIDTH then fset (fset (fset (fset (fset (fset (fset m (ptBase p)
     R.PT_LINK_STATE 3) (ptBase p) R.PT_LINK_RATE rate.val) (ptBase p) R.PT_LINK_WIDTH width.val) (ptBase p) R.PT_LINK_FLIT 1) (ptBase p)
     R.PT_LEV_LUP 1) (ptBase p) R.PT_EQ_LEARNED (b2n learned)) (ptBase p) R.PT_LEV_WIDTHLOW 1 else fset (fset (fset (fset (fset (fset m (ptBase p)
     R.PT_LINK_STATE 3) (ptBase p) R.PT_LINK_RATE rate.val) (ptBase p) R.PT_LINK_WIDTH width.val) (ptBase p) R.PT_LINK_FLIT 1) (ptBase p)
     R.PT_LEV_LUP 1) (ptBase p) R.PT_EQ_LEARNED (b2n learned)) p)) ∧
  (∀ (p : Fin 32) (rate : Fin 8) (width : Fin 4) (learned : Bool) (cap : Word) (q : List Instr) (m : Mach), mayTrain m p = true → roleOf m p = 2 →
     memState m p ≠ 2 → 5 ≤ rate.val → 1 ≤ rate.val → rate.val ≤ 6 → rate.val ≤ fget m (ptBase p) R.PT_LCTL_MAXRATE → width.val ≠ 0 →
     width.val ≤ fget m (ptBase p) R.PT_LCTL_MAXWIDTH → Leads (.linkUp p rate width true learned cap) q m (memReady (sledStart ((fun m =>
     { m with ports := { m.ports with sledCap := mput m.ports.sledCap p.val (min (cap.toNat / 2 ^ 21) (2 ^ 23)) } }) ((if rate.val < fget m (ptBase
     p) R.PT_LCTL_MAXRATE ∨ width.val < fget m (ptBase p) R.PT_LCTL_MAXWIDTH then fset (fset (fset (fset (fset (fset (fset m (ptBase p)
     R.PT_LINK_STATE 3) (ptBase p) R.PT_LINK_RATE rate.val) (ptBase p) R.PT_LINK_WIDTH width.val) (ptBase p) R.PT_LINK_FLIT 1) (ptBase p)
     R.PT_LEV_LUP 1) (ptBase p) R.PT_EQ_LEARNED (b2n learned)) (ptBase p) R.PT_LEV_WIDTHLOW 1 else fset (fset (fset (fset (fset (fset m (ptBase p)
     R.PT_LINK_STATE 3) (ptBase p) R.PT_LINK_RATE rate.val) (ptBase p) R.PT_LINK_WIDTH width.val) (ptBase p) R.PT_LINK_FLIT 1) (ptBase p)
     R.PT_LEV_LUP 1) (ptBase p) R.PT_EQ_LEARNED (b2n learned)))) p) p)) ∧
  (∀ (p : Fin 32) (rate : Fin 8) (width : Fin 4) (learned : Bool) (cap : Word) (q : List Instr) (m : Mach), mayTrain m p = true → roleOf m p = 2 →
     memState m p = 2 → 5 ≤ rate.val → 1 ≤ rate.val → rate.val ≤ 6 → rate.val ≤ fget m (ptBase p) R.PT_LCTL_MAXRATE → width.val ≠ 0 →
     width.val ≤ fget m (ptBase p) R.PT_LCTL_MAXWIDTH → Leads (.linkUp p rate width true learned cap) q m ((fun m =>
     { m with ports := { m.ports with sledCap := mput m.ports.sledCap p.val (min (cap.toNat / 2 ^ 21) (2 ^ 23)) } }) (if rate.val < fget m (ptBase
     p) R.PT_LCTL_MAXRATE ∨ width.val < fget m (ptBase p) R.PT_LCTL_MAXWIDTH then fset (fset (fset (fset (fset (fset (fset m (ptBase p)
     R.PT_LINK_STATE 3) (ptBase p) R.PT_LINK_RATE rate.val) (ptBase p) R.PT_LINK_WIDTH width.val) (ptBase p) R.PT_LINK_FLIT 1) (ptBase p)
     R.PT_LEV_LUP 1) (ptBase p) R.PT_EQ_LEARNED (b2n learned)) (ptBase p) R.PT_LEV_WIDTHLOW 1 else fset (fset (fset (fset (fset (fset m (ptBase p)
     R.PT_LINK_STATE 3) (ptBase p) R.PT_LINK_RATE rate.val) (ptBase p) R.PT_LINK_WIDTH width.val) (ptBase p) R.PT_LINK_FLIT 1) (ptBase p)
     R.PT_LEV_LUP 1) (ptBase p) R.PT_EQ_LEARNED (b2n learned)))) ∧
  (∀ (p : Fin 32) (rate : Fin 8) (width : Fin 4) (flit learned : Bool) (cap : Word) (q : List Instr) (m : Mach), mayTrain m p = true →
     roleOf m p = 3 → rate.val < 6 ∨ flit = true → 1 ≤ rate.val → rate.val ≤ 6 → rate.val ≤ fget m (ptBase p) R.PT_LCTL_MAXRATE → width.val ≠ 0 →
     width.val ≤ fget m (ptBase p) R.PT_LCTL_MAXWIDTH → Leads (.linkUp p rate width flit learned cap) q m (if rate.val < fget m (ptBase p)
     R.PT_LCTL_MAXRATE ∨ width.val < fget m (ptBase p) R.PT_LCTL_MAXWIDTH then fset (fset (fset (fset (fset (fset (fset m (ptBase p) R.PT_LINK_STATE
     3) (ptBase p) R.PT_LINK_RATE rate.val) (ptBase p) R.PT_LINK_WIDTH width.val) (ptBase p) R.PT_LINK_FLIT (b2n flit)) (ptBase p) R.PT_LEV_LUP 1)
     (ptBase p) R.PT_EQ_LEARNED (b2n learned)) (ptBase p) R.PT_LEV_WIDTHLOW 1 else fset (fset (fset (fset (fset (fset m (ptBase p) R.PT_LINK_STATE
     3) (ptBase p) R.PT_LINK_RATE rate.val) (ptBase p) R.PT_LINK_WIDTH width.val) (ptBase p) R.PT_LINK_FLIT (b2n flit)) (ptBase p) R.PT_LEV_LUP 1)
     (ptBase p) R.PT_EQ_LEARNED (b2n learned))) ∧
  (∀ (p : Fin 32) (rate : Fin 8) (width : Fin 4) (flit learned : Bool) (cap : Word) (q : List Instr) (m : Mach), mayTrain m p = true →
     roleOf m p = 1 → rate.val < 5 → Leads (.linkUp p rate width flit learned cap) q m (m)) ∧
  (∀ (p : Fin 32) (q : List Instr) (m : Mach), mayTrain m p = true → Leads (.trainingRetry p) q m (send (fset m (ptBase p) R.PT_LINK_STATE 2)
     (.train p))) ∧
  (∀ (p : Fin 32) (q : List Instr) (m : Mach), roleOf m p = 1 → linkUp m p = true → Leads (.hostLinkDown p) q m (trainStart (linkDown m p 1) p)) ∧
  (∀ (p : Fin 32) (q : List Instr) (m : Mach), roleOf m p = 2 → linkUp m p = true → Leads (.memLinkDown p) q m (trainStart (linkDown m p 1) p)) ∧
  (∀ (p : Fin 32) (q : List Instr) (m : Mach), roleOf m p = 3 → linkUp m p = true → Leads (.ioLinkDown p) q m (trainStart (linkDown m p 1) p)) ∧
  (∀ (p : Fin 32) (ns : Nat) (q : List Instr) (m : Mach), roleOf m p = 1 → 1000 ≤ ns → fon m (ptBase p) R.PT_LINK_PERST = false →
     linkUp m p = true → Leads (.perstAssert p ns) q m (perstSet (fset (linkDown m p 5) (ptBase p) R.PT_LINK_STATE 5) p true)) ∧
  (∀ (p : Fin 32) (ns : Nat) (q : List Instr) (m : Mach), roleOf m p = 1 → 1000 ≤ ns → fon m (ptBase p) R.PT_LINK_PERST = false →
     linkUp m p = false → Leads (.perstAssert p ns) q m (perstSet (fset (hostReset m p) (ptBase p) R.PT_LINK_STATE 5) p true)) ∧
  (∀ (p : Fin 32) (ns : Nat) (q : List Instr) (m : Mach), ns < 1000 → Leads (.perstAssert p ns) q m (m)) ∧
  (∀ (p : Fin 32) (q : List Instr) (m : Mach), roleOf m p = 1 → fon m (ptBase p) R.PT_LINK_PERST = true →
     Leads (.perstRelease p) q m (trainStart (perstSet m p false) p)) ∧
  (∀ (p : Fin 32) (q : List Instr) (m : Mach), hostLink m p = true → Leads (.hotReset p) q m (trainStart (linkDown m p 1) p)) ∧
  (∀ (p : Fin 32) (q : List Instr) (m : Mach), hostLink m p = true → Leads (.linkDisable p) q m (linkDown m p 0)) ∧
  (∀ (p : Fin 32) (present : Bool) (q : List Instr) (m : Mach), fon m (ptBase p) R.PT_LINK_PRESENT = present →
     Leads (.cablePresenceChange p present) q m (m)) ∧
  (∀ (p : Fin 32) (q : List Instr) (m : Mach), fon m (ptBase p) R.PT_LINK_PRESENT = false → fon m (ptBase p) R.PT_LCTL_DIS = false →
     roleOf m p = 3 → Leads (.cablePresenceChange p true) q m (pulseStart (fset (fset m (ptBase p) R.PT_LINK_PRESENT 1) (ptBase p) R.PT_LEV_PRSCHG
     1) p)) ∧
  (∀ (p : Fin 32) (q : List Instr) (m : Mach), fon m (ptBase p) R.PT_LINK_PRESENT = false → fon m (ptBase p) R.PT_LCTL_DIS = false →
     roleOf m p = 1 → fon m (ptBase p) R.PT_LINK_PERST = false → Leads (.cablePresenceChange p true) q m (trainStart (fset (fset m (ptBase p)
     R.PT_LINK_PRESENT 1) (ptBase p) R.PT_LEV_PRSCHG 1) p)) ∧
  (∀ (p : Fin 32) (q : List Instr) (m : Mach), fon m (ptBase p) R.PT_LINK_PRESENT = true → linkUp m p = true → roleOf m p = 1 →
     Leads (.cablePresenceChange p false) q m (fset (fset (linkDown m p 1) (ptBase p) R.PT_LINK_PRESENT 0) (ptBase p) R.PT_LEV_PRSCHG 1)) ∧
  (∀ (p : Fin 32) (q : List Instr) (m : Mach), reach m (ptBase p + 0x50) = .open_ → linkUp m p = true →
     Leads (.retrain p) q m (fsat (count m (ptBase p) 0x0C) (ptBase p) R.PT_LINK_RECOVS)) ∧
  (∀ (p : Fin 32) (q : List Instr) (m : Mach), reach m (ptBase p + 0x50) = .open_ → 2 ≤ roleOf m p → fon m (ptBase p) R.PT_LCTL_DIS = false →
     fon m (ptBase p) R.PT_LINK_PRESENT = true → linkUp m p = true → Leads (.prst p) q m (pulseStart (linkDown m p 1) p)) ∧
  (∀ (p : Fin 32) (q : List Instr) (m : Mach), reach m (ptBase p + 0x50) = .open_ → 2 ≤ roleOf m p → fon m (ptBase p) R.PT_LCTL_DIS = false →
     fon m (ptBase p) R.PT_LINK_PRESENT = true → linkUp m p = false → Leads (.prst p) q m (pulseStart m p)) ∧
  (∀ (p : Fin 32) (q : List Instr) (m : Mach), m.ports.pulses.contains p.val = true →
     Leads (.perstPulseEnd p) q m (trainStart (perstSet { m with ports := { m.ports with pulses := m.ports.pulses.filter fun x => x != p.val } } p
     false) p)) ∧
  (∀ (p : Fin 32) (q : List Instr) (m : Mach), reach m (ptBase p + 0x50) = .open_ → fon m (ptBase p) R.PT_LCTL_DIS = false →
     Leads (.portDisable p true) q m (portDown (fset m (ptBase p) R.PT_LCTL_DIS 1) p)) ∧
  (∀ (p : Fin 32) (q : List Instr) (m : Mach), reach m (ptBase p + 0x50) = .open_ → fon m (ptBase p) R.PT_LCTL_DIS = true →
     fget m (ptBase p) R.PT_ROLE_SRC ≠ 3 → tileTripped m p = false → Leads (.portDisable p false) q m (portEnable (fset m (ptBase p) R.PT_LCTL_DIS
     0) p))

/-- A sled answer ends its request: data completes a flume step or the miss register that waits for it; an uncorrectable first copy of a mirrored plot
  is read again from the other, and without one fills the register poisoned with a UCC record; a fenced answer is discarded. An unanswered request is
  logged as uncorrectable and takes the link down. A poll of an Up sled sends its two commands and puts each event record of the sled into the log. A
  Waiting MEM port becomes Lost when its loss wait or its start wait ends, or at a DECLARE; READMIT of a Lost port without plots makes it Up. Active
  link encryption fails its integrity check with IDEFAIL and a link down, renews its keys, and completes a key exchange. Recovery and adaptation count
  their flits and corrections, also in the AER status of a HOST port, and a low margin sets EQLOW and, with EQREDO, redoes equalization through
  Recovery. It says of each of these forms that exec answers a next state, under hypotheses on the state and operands alone: sledReadResponse,
  sledRequestTimeout, sledPoll, ideIntegrityFailure, linkRecovery, adaptationStep, equalizationMarginLow, lossWaitExpiry, startwaitExpiry, declare,
  readmit, memIdeKeyRefresh, cxlMemIdeActive. -/
def Obligations.SledsAndLinkQuality : Prop :=
  (∀ (p : Fin 32) (id : Nat) (data : Line) (bad : Bool) (s : SledReq) (c k : Nat) (q : List Instr) (m : Mach), (m.ports.sleds.find? fun s => s.id
     == id && s.port == p.val && s.sent) = some s → s.what = .flumeRead c k → s.fenced = false →
     Leads (.sledReadResponse p id data bad) q m (complete (count
     { m with ports := { m.ports with sleds := dropFirst (fun x => x == s) m.ports.sleds } } (ptBase p) 0x0E) ⟨.flume c k, 0, some ⟨data, bad⟩,
     none, 0, .ok, none⟩)) ∧
  (∀ (p : Fin 32) (id : Nat) (data : Line) (s : SledReq) (r : Mshr) (h pln : Nat) (q : List Instr) (m : Mach), (m.ports.sleds.find? fun s => s.id
     == id && s.port == p.val && s.sent) = some s → s.what = .fill h pln false → s.fenced = false → mshrOf m h pln = some r →
     Leads (.sledReadResponse p id data false) q m (fillPut (count
     { m with ports := { m.ports with sleds := dropFirst (fun x => x == s) m.ports.sleds } } (ptBase p) 0x0E) r ⟨data, false⟩ false true)) ∧
  (∀ (p : Fin 32) (id : Nat) (data : Line) (bad : Bool) (s : SledReq) (c k : Nat) (q : List Instr) (m : Mach), (m.ports.sleds.find? fun s => s.id
     == id && s.port == p.val && s.sent) = some s → s.fenced = true → s.what = .flumeRead c k →
     Leads (.sledReadResponse p id data bad) q m (count { m with ports := { m.ports with sleds := dropFirst (fun x => x == s) m.ports.sleds } }
     (ptBase p) 0x0E)) ∧
  (∀ (p : Fin 32) (id : Nat) (data : Line) (s : SledReq) (r : Mshr) (h pln : Nat) (second : Bool) (q : List Instr) (m : Mach),
     (m.ports.sleds.find? fun s => s.id == id && s.port == p.val && s.sent) = some s → s.what = .fill h pln second → s.fenced = false →
     mshrOf m h pln = some r → second = true ∨ plcM2 (plcGet m s.sd (plotOf pln)) = false ∨ memState m (plcLoc2 (plcGet m s.sd (plotOf pln))).1 = 2
     → Leads (.sledReadResponse p id data true) q m (fillPut (noteUcc (count
     { m with ports := { m.ports with sleds := dropFirst (fun x => x == s) m.ports.sleds } } (ptBase p) 0x0E) pln) r ⟨data, true⟩ false true)) ∧
  (∀ (p : Fin 32) (id : Nat) (data : Line) (s : SledReq) (r : Mshr) (h pln : Nat) (x : Nat × Nat) (q : List Instr) (m : Mach),
     (m.ports.sleds.find? fun s => s.id == id && s.port == p.val && s.sent) = some s → s.what = .fill h pln false → s.fenced = false →
     mshrOf m h pln = some r → plcM2 (plcGet m s.sd (plotOf pln)) = true → x = plcLoc2 (plcGet m s.sd (plotOf pln)) → memState m x.1 ≠ 2 →
     Leads (.sledReadResponse p id data true) q m (sledReadReq (sampleDue (count
     { m with ports := { m.ports with sleds := dropFirst (fun x => x == s) m.ports.sleds } } (ptBase p) 0x0E) s.sd (plotOf pln)) s.sd x.1 (.fill h
     pln true) (sledAddr x.2 pln))) ∧
  (∀ (p : Fin 32) (q : List Instr) (m : Mach), roleOf m p = 2 → linkUp m p = true →
     (m.ports.sleds.any fun s => s.port == p.val && s.sent) = true → Leads (.sledRequestTimeout p) q m (trainStart (linkDown (err m (errOf 1 0x13
     0x03 p)) p 1) p)) ∧
  (∀ (p : Fin 32) (recs : List (BitVec 256)) (q : List Instr) (m : Mach), roleOf m p = 2 → memState m p = 0 →
     Leads (.sledPoll p recs) q m (recs.foldl (fun m r => eventRecord m 6 0 0x03 p 0 ((List.range 4).map fun i => bitsOf r.toNat (64 * i) 64)) (send
     (send m (.sledCmd p "Get Health Info")) (.sledCmd p "Get Event Records")))) ∧
  (∀ (p : Fin 32) (q : List Instr) (m : Mach), linkUp m p = true → fon m (ptBase p) R.PT_LINK_IDE = true →
     Leads (.ideIntegrityFailure p) q m (fset (trainStart (linkDown (fsat (fset m (ptBase p) R.PT_IDE_STATE 3) (ptBase p) R.PT_IDE_FAILS) p 1) p)
     (ptBase p) R.PT_LEV_IDEFAIL 1)) ∧
  (∀ (p : Fin 32) (flits : BitVec 16) (q : List Instr) (m : Mach), linkUp m p = true → roleOf m p ≠ 1 ∨ flits = 0 →
     Leads (.linkRecovery p flits) q m (fsat (count (fsat (count m (ptBase p) 0x0C) (ptBase p) R.PT_LINK_RECOVS) (ptBase p) 0x0B flits.toNat)
     (ptBase p) R.PT_ERR_REPLAY flits.toNat)) ∧
  (∀ (p : Fin 32) (flits : BitVec 16) (q : List Instr) (m : Mach), linkUp m p = true → roleOf m p = 1 → flits ≠ 0 →
     Leads (.linkRecovery p flits) q m ((fun m => cfgSet m p { cfgOf m p with aerCor := true }) (fsat (count (fsat (count m (ptBase p) 0x0C) (ptBase
     p) R.PT_LINK_RECOVS) (ptBase p) 0x0B flits.toNat) (ptBase p) R.PT_ERR_REPLAY flits.toNat))) ∧
  (∀ (p : Fin 32) (margin : BitVec 8) (lane : Fin 16) (fec : BitVec 16) (q : List Instr) (m : Mach), linkUp m p = true →
     roleOf m p ≠ 1 ∨ fec = 0 → Leads (.adaptationStep p margin lane fec) q m (fsat (count (fset (fset (finc (count m (ptBase p) 0x0F) (ptBase p)
     R.PT_EQ_ADAPT) (ptBase p) R.PT_EQ_MARGIN margin.toNat) (ptBase p) R.PT_EQ_LANE lane.val) (ptBase p) 0x0A fec.toNat) (ptBase p) R.PT_ERR_FECCOR
     fec.toNat)) ∧
  (∀ (p : Fin 32) (margin : BitVec 8) (lane : Fin 16) (fec : BitVec 16) (q : List Instr) (m : Mach), linkUp m p = true → roleOf m p = 1 →
     fec ≠ 0 → Leads (.adaptationStep p margin lane fec) q m ((fun m => cfgSet m p { cfgOf m p with aerCor := true }) (fsat (count (fset (fset (finc
     (count m (ptBase p) 0x0F) (ptBase p) R.PT_EQ_ADAPT) (ptBase p) R.PT_EQ_MARGIN margin.toNat) (ptBase p) R.PT_EQ_LANE lane.val) (ptBase p) 0x0A
     fec.toNat) (ptBase p) R.PT_ERR_FECCOR fec.toNat))) ∧
  (∀ (p : Fin 32) (q : List Instr) (m : Mach), linkUp m p = true → fget m (ptBase p) R.PT_EQ_MARGIN < fget m (ptBase p) R.PT_LCTL_EQMIN →
     fon m (ptBase p) R.PT_LCTL_EQREDO = true → Leads (.equalizationMarginLow p) q m (fsat (count (fsat (fset m (ptBase p) R.PT_LEV_EQLOW 1) (ptBase
     p) R.PT_EQ_REDOS) (ptBase p) 0x0C) (ptBase p) R.PT_LINK_RECOVS)) ∧
  (∀ (p : Fin 32) (q : List Instr) (m : Mach), linkUp m p = true → fget m (ptBase p) R.PT_EQ_MARGIN < fget m (ptBase p) R.PT_LCTL_EQMIN →
     fon m (ptBase p) R.PT_LCTL_EQREDO = false → Leads (.equalizationMarginLow p) q m (fset m (ptBase p) R.PT_LEV_EQLOW 1)) ∧
  (∀ (p : Fin 32) (q : List Instr) (m : Mach), roleOf m p = 2 → memState m p = 1 → m.ports.lossWait.contains p.val = true →
     Leads (.lossWaitExpiry p) q m (memLose m p)) ∧
  (∀ (p : Fin 32) (q : List Instr) (m : Mach), roleOf m p = 2 → memState m p = 1 → m.ports.lossWait.contains p.val = false →
     m.ports.pulses.contains p.val = false → Leads (.startwaitExpiry p) q m (memLose m p)) ∧
  (∀ (p : Fin 32) (q : List Instr) (m : Mach), reach m (ptBase p + 0x110) = .open_ → roleOf m p = 2 → Leads (.declare p) q m (memLose m p)) ∧
  (∀ (p : Fin 32) (q : List Instr) (m : Mach), reach m (ptBase p + 0x110) = .open_ → roleOf m p = 2 → memState m p = 2 → plotsOf m p = 0 →
     linkUp m p = true → fon m (ptBase p) R.PT_IDE_REQ = false → Leads (.readmit p) q m (memSet (sledStart m p) p 0)) ∧
  (∀ (p : Fin 32) (q : List Instr) (m : Mach), roleOf m p = 2 → linkUp m p = true → fon m (ptBase p) R.PT_LINK_IDE = true →
     Leads (.memIdeKeyRefresh p) q m (finc (draw m) (ptBase p) R.PT_IDE_REFRESH)) ∧
  (∀ (p : Fin 32) (q : List Instr) (m : Mach), roleOf m p = 2 → linkUp m p = true → fon m (ptBase p) R.PT_IDE_REQ = true →
     fon m (ptBase p) R.PT_LINK_IDE = false → Leads (.cxlMemIdeActive p) q m (memReady (fset (fset (fset (draw m) (ptBase p) R.PT_IDE_STATE 2)
     (ptBase p) R.PT_IDE_MODE 1) (ptBase p) R.PT_LINK_IDE 1) p))

/-- A load for a line that has a miss register with room, not queued behind others, merges into it; the miss-wait queue likewise. A prefetch that R88
  drops is counted, and another opens a miss register that looks the line up. A fill makes its register whole with the data and source of the fill. A
  held install is tried again. A waiting request whose directory set has room goes on; a set that arrives lets its register go on, and it joins the
  directory-wait queue while the cache has no way. The oldest Formed entry is written into the way that holds its line. A valid way's tag entry holds
  TAG, V 1, D, P and PF, and PAR makes its parity even. It says of each of these forms that exec answers a next state, under hypotheses on the state
  and operands alone: newRequestAccept, prefetchRequest, fillReturn, installRetry, missWaitRetry, directoryWaitRetry, writeBufferArrayWrite,
  directoryCacheFill. -/
def Obligations.HomeRequestsAndFills : Prop :=
  (∀ (h : Fin 64) (x : Req) (rest : List (Nat × Req)) (r : Mshr) (e : Nat) (q : List Instr) (m : Mach), popReq m h m.home.reqQ = some (x, rest) →
     creditsShut m h = false → (m.home.recalls.any fun y => y.h == h.val && y.pln == x.pln) = false → x.op = .load → x.src = .load e →
     mshrOf m h x.pln = some r → r.reqs.length < 8 → (m.home.mwq.any fun y => y.1 == h.val && y.2.pln == x.pln) = false →
     Leads (.newRequestAccept h) q m ((fun y : Mach => sampleCount
     { y with home := { y.home with reqQ := rest ++ y.home.reqQ.drop m.home.reqQ.length } } 0 h none) (pumpAll (mshrPut (count (count m (hsBase h)
     0x01) (hsBase h) 0x06) { r with reqs := r.reqs ++ [x], pf := r.pf && !x.demand, demand := r.demand || x.demand, alloc := r.alloc || x.allocs })
     h x.pln))) ∧
  (∀ (h : Fin 64) (q : List Instr) (m : Mach), popReq m h m.home.reqQ = none → Leads (.newRequestAccept h) q m (m)) ∧
  (∀ (h : Fin 64) (x : Req) (rest : List (Nat × Req)) (r : Mshr) (q : List Instr) (m : Mach), popReq m h m.home.mwq = some (x, rest) →
     (m.home.recalls.any fun y => y.h == h.val && y.pln == x.pln) = false → x.op = .load → mshrOf m h x.pln = some r → r.reqs.length < 8 →
     Leads (.missWaitRetry h) q m (pumpAll (mshrPut (count { m with home := { m.home with mwq := rest } } (hsBase h) 0x06)
     { r with reqs := r.reqs ++ [x], pf := r.pf && !x.demand, demand := r.demand || x.demand, alloc := r.alloc || x.allocs }) h x.pln)) ∧
  (∀ (h : Fin 64) (l : Nat) (rest : List (Nat × Nat)) (q : List Instr) (m : Mach), popFor h.val m.home.pfQ = some (l, rest) →
     pfDrops (count { m with home := { m.home with pfQ := rest } } (hsBase h) 0x01) h l = true →
     Leads (.prefetchRequest h) q m (count (count { m with home := { m.home with pfQ := rest } } (hsBase h) 0x01) (hsBase h) 0x0F)) ∧
  (∀ (h : Fin 64) (l : Nat) (rest : List (Nat × Nat)) (y : Mach) (q : List Instr) (m : Mach), popFor h.val m.home.pfQ = some (l, rest) →
     y = count { m with home := { m.home with pfQ := rest } } (hsBase h) 0x01 → pfDrops y h l = false → repairHeld y l = false →
     Leads (.prefetchRequest h) q m
     ({ y with home := { y.home with mshrs := y.home.mshrs ++ [{ freshMshr h { op := .prefetch, src := .none, pln := l, data := 0, mask := 0, poison := false } with phase := .lookup, coh := true, pf := true }] } })) ∧
  (∀ (h : Fin 64) (f : Fill) (r : Mshr) (q : List Instr) (m : Mach), (m.home.fillQ.find? fun f => f.h == h.val) = some f →
     mshrOf m h f.pln = some r → Leads (.fillReturn h false) q m (pumpAll (mshrPut
     { m with home := { m.home with fillQ := dropFirst (fun f => f.h == h.val) m.home.fillQ } }
     { r with phase := .full, buf := some f.img, dirty := r.dirty || f.dirty, take := f.take, fromSled := f.fromSled }) h f.pln)) ∧
  (∀ (h : Fin 64) (r : Mshr) (q : List Instr) (m : Mach), (m.home.mshrs.filter fun r => r.h == h.val && r.phase == .full) = [r] →
     Leads (.installRetry h) q m (pumpAll m h r.pln)) ∧
  (∀ (h : Fin 64) (l : Nat) (r : Mshr) (q : List Instr) (m : Mach), m.home.dwq = [(h.val, l)] → mshrOf m h l = some r →
     mshrOf (pumpAll (mshrPut { m with home := { m.home with dwq := [] } } { r with phase := .full }) h l) h l = none →
     Leads (.directoryWaitRetry h) q m (pumpAll (mshrPut { m with home := { m.home with dwq := [] } } { r with phase := .full }) h l)) ∧
  (∀ (h : Fin 64) (r : Mshr) (q : List Instr) (m : Mach), (m.home.mshrs.filter fun r => r.h == h.val && r.phase == .dirFill) = [r] →
     dcFill m r.h (halfOf m r.pln) (dirSet (lineL r.pln)) = none → dwqFull m r.h = false →
     Leads (.directoryCacheFill h) q m (mshrPut { m with home := { m.home with dwq := m.home.dwq ++ [(r.h, r.pln)] } } { r with phase := .dirWait })) ∧
  (∀ (h : Fin 64) (r : Mshr) (q : List Instr) (m : Mach), (m.home.mshrs.filter fun r => r.h == h.val && r.phase == .dirFill) = [r] →
     dcHas m r.h (halfOf m r.pln) (dirSet (lineL r.pln)) = true →
     Leads (.directoryCacheFill h) q m (pumpAll (mshrPut m { r with phase := .full, seen := if r.seen == .no then .missed else r.seen }) r.h r.pln)) ∧
  (∀ (h : Fin 64) (e : WbEnt) (w : Nat) (x : HgLine) (q : List Instr) (m : Mach), (m.home.wb.find? fun e => e.h == h.val) = some e →
     hgFind m h e.pln = some (w, x) → Leads (.writeBufferArrayWrite h) q m
     ({ m with home := { m.home with wb := dropFirst (fun e => e.h == h.val) m.home.wb, hg := mput m.home.hg (hgKey h (hgSet (lineL e.pln)) w) { x with img := e.img } } })) ∧
  (∀ x : HgLine, tagEntry (some x) % 2 ^ 31 = x.tag % 2 ^ 31 ∧ tagEntry (some x) / 2 ^ 31 % 16 = 1 + 2 * b2n x.d + 4 * b2n x.img.poison + 8 * b2n
     x.pf ∧ parity 36 (tagEntry (some x)) = false)

/-- With no write held for the line, the last answer to a recall frees its directory entry and an earlier one only leaves the port, and an answer that
  the host gave neither with a state nor after data is counted as a BIRspI; a write of the answering port that is on its way is taken first. Snoop
  data merges as the newest value of the line that its slice is snooping, and marks the host as having given it. A snoop that is not answered in time
  makes its port lost; the sweep of a lost port over an empty directory clears its MASK bit in all 64 slices and posts class 0x04. A directory query
  of a line that the slice homes shows its entry, and another is rejected with CAUSE 2. A way write that leaves no west way is rejected; one that
  changes no way only writes EN; clearing way 15 starts its cleaning pass. A pass makes a line of its way a victim while the victim buffer has room,
  and ends with OFF when the way is empty. A directory entry's payload holds TAG in bits 14:0, a STATE of 1 to 4 and PRES from bit 18 on, and a set's
  pseudo-channel, stack and place give back the set. It says of each of these forms that exec answers a next state, under hypotheses on the state and
  operands alone: snoopResponse, snoopDataWrite, bisnpTimeout, lostPortSweepEnd, dirQuery, headgateWayenWrite, wayCleanLine, wayCleanComplete. -/
def Obligations.HomeSnoopsQueriesAndWays : Prop :=
  (∀ (h : Fin 64) (a : SnpRsp) (rc : Recall) (q : List Instr) (m : Mach), (m.home.rspQ.find? fun a => a.h == h.val) = some a →
     (m.home.recalls.find? fun x => x.h == a.h && x.pln == a.pln) = some rc → rc.left.contains a.port = true →
     (rc.left.filter fun p => p != a.port) = [] → bitOf (lostMask m a.h) a.port = false → m.home.mshrs = [] → m.home.mwq = [] → m.home.reqQ = [] →
     m.home.snpData = [] → Leads (.snoopResponse h) q m ((fun m : Mach => recallDone (freeEnt
     { m with home := { m.home with recalls := dropFirst (fun x => x.h == a.h && x.pln == a.pln) m.home.recalls } } a.h a.pln) a.h rc.cause) (if
     a.st.isNone && !rc.gave.contains a.port then count ({ m with home := { m.home with rspQ := dropFirst (fun a => a.h == h.val) m.home.rspQ } })
     (hsBase a.h) 0x3A else { m with home := { m.home with rspQ := dropFirst (fun a => a.h == h.val) m.home.rspQ } }))) ∧
  (∀ (h : Fin 64) (a : SnpRsp) (rc : Recall) (l : List Nat) (q : List Instr) (m : Mach), (m.home.rspQ.find? fun a => a.h == h.val) = some a →
     (m.home.recalls.find? fun x => x.h == a.h && x.pln == a.pln) = some rc → rc.left.contains a.port = true →
     l = (rc.left.filter fun p => p != a.port) → l ≠ [] → bitOf (lostMask m a.h) a.port = false → m.home.mshrs = [] → m.home.mwq = [] →
     m.home.reqQ = [] → m.home.snpData = [] → Leads (.snoopResponse h) q m ((fun m : Mach =>
     { m with home := { m.home with recalls := mapFirst (fun x => x.h == a.h && x.pln == a.pln) (fun x => { x with left := l }) m.home.recalls } })
     (if a.st.isNone && !rc.gave.contains a.port then count
     ({ m with home := { m.home with rspQ := dropFirst (fun a => a.h == h.val) m.home.rspQ } }) (hsBase a.h) 0x3A else
     { m with home := { m.home with rspQ := dropFirst (fun a => a.h == h.val) m.home.rspQ } }))) ∧
  (∀ (h : Fin 64) (a : SnpRsp) (rc : Recall) (x : Req) (q : List Instr) (m : Mach), (m.home.rspQ.find? fun a => a.h == h.val) = some a →
     (m.home.recalls.find? fun x => x.h == a.h && x.pln == a.pln) = some rc → rc.left.contains a.port = true → m.home.snpData = [(a.h, x)] →
     ownWrite a x = true → bitOf (lostMask m a.h) a.port = false → m.home.mshrs = [] → m.home.mwq = [] → m.home.reqQ = [] →
     Leads (.snoopResponse h) q m (answerSnoop (takeSnpData a.h
     { m with home := { m.home with rspQ := dropFirst (fun a => a.h == h.val) m.home.rspQ, snpData := [] } } x) a)) ∧
  (∀ (h : Fin 64) (x : Req) (rest : List (Nat × Req)) (r : Mshr) (k i : Nat) (q : List Instr) (m : Mach), popFor h.val m.home.snpData = some (x,
     rest) → m.home.recalls = [] → mshrOf m h x.pln = some r → r.phase.snooping = true → x.src = .host k i →
     Leads (.snoopDataWrite h) q m (pumpAll (mshrPut (count { m with home := { m.home with snpData := rest } } (hsBase h) 0x3B)
     { r with late := r.late ++ [x], gave := r.gave ++ [k] }) h x.pln)) ∧
  (∀ (p : Fin 32) (s : OpenSnp) (q : List Instr) (m : Mach), (m.ports.snps.find? fun s => s.port == p.val && !s.fenced && s.sent) = some s →
     Leads (.bisnpTimeout p) q m (losePort (count m (hsBase s.h) 0x3D) p)) ∧
  (∀ (p : Fin 32) (q : List Instr) (m : Mach), (m.ports.snps.find? fun s => s.port == p.val && !s.fenced && s.sent) = none →
     Leads (.bisnpTimeout p) q m (m)) ∧
  (∀ (p : Fin 32) (q : List Instr) (m : Mach), m.home.lostSweeps.contains p.val = true → m.home.dir = [] →
     Leads (.lostPortSweepEnd p) q m ((fun y : Mach => notice
     { y with home := { y.home with lostSweeps := y.home.lostSweeps.filter fun x => x != p.val } } 0x04 p 0) (forN 64 (fun k m => fset m (hsBase k)
     R.DIR_LOST_MASK (setBit (lostMask m k) p false)) m))) ∧
  (∀ (h : Fin 64) (line : BitVec 41) (q : List Instr) (m : Mach), reach m (hsBase h + 0x320) = .open_ →
     fon m (hsBase h) R.DIR_QUERY_BUSY = false → bothUp m = true → sliceIn m line.toNat = h.val % 32 →
     Leads (.dirQuery h line) q m (fset (fset m (hsBase h) R.DIR_QUERY_LINE line.toNat) (hsBase h) R.DIR_QRES_PAYLOAD (dirPayload m h (plnOf m
     (h.val / 32) line.toNat)))) ∧
  (∀ (h : Fin 64) (line : BitVec 41) (q : List Instr) (m : Mach), reach m (hsBase h + 0x320) = .open_ →
     fon m (hsBase h) R.DIR_QUERY_BUSY = false → sliceIn m line.toNat ≠ h.val % 32 → Leads (.dirQuery h line) q m (reject m (hsBase h) 2 0x320)) ∧
  (∀ (h : Fin 64) (en : BitVec 16) (q : List Instr) (m : Mach), reach m (hsBase h + 0x50) = .open_ → en.toNat % 256 = 0 →
     Leads (.headgateWayenWrite h en) q m (reject m (hsBase h) 2 0x50)) ∧
  (∀ (h : Fin 64) (en : BitVec 16) (q : List Instr) (m : Mach), reach m (hsBase h + 0x50) = .open_ → en.toNat % 256 ≠ 0 →
     fget m (hsBase h) R.HS_WAYEN_EN = en.toNat → Leads (.headgateWayenWrite h en) q m (fset m (hsBase h) R.HS_WAYEN_EN en.toNat)) ∧
  (∀ (h : Fin 64) (q : List Instr) (m : Mach), reach m (hsBase h + 0x50) = .open_ → fget m (hsBase h) R.HS_WAYEN_EN = 0xFFFF →
     (m.home.ways.any fun x => x.h == h.val && x.way == 15) = false →
     Leads (.headgateWayenWrite h 0x7FFF) q m ((fun y : Mach => { y with home := { y.home with ways := y.home.ways ++ [⟨h.val, 15, false, false⟩] } })
     (fset (fset m (hsBase h) R.HS_WAYEN_EN 0x7FFF) (hsBase h) R.HS_WAYEN_BUSY (setBit (fget m (hsBase h) R.HS_WAYEN_BUSY) 15 true)))) ∧
  (∀ (h : Fin 64) (q : List Instr) (m : Mach), (m.home.ways.find? fun x => x.h == h.val && !x.clear) = none → Leads (.wayCleanLine h) q m (m)) ∧
  (∀ (h : Fin 64) (x : WayPass) (k : Nat) (l : HgLine) (q : List Instr) (m : Mach), (m.home.ways.find? fun x => x.h == h.val && !x.clear) = some x
     → wayLines m h x.way = [k] → mget m.home.hg k = some l → lineOpen m h (plnOf m (h.val / 32) (hgLineOf (k / 16 % 3072) l.tag)) = false →
     wbOf m h (plnOf m (h.val / 32) (hgLineOf (k / 16 % 3072) l.tag)) = none → vbUsed m h < 16 →
     Leads (.wayCleanLine h) q m (evict (if hgDrains m h || (8 ≤ x.way && fget m (rgeBase (4 * (h.val / 32))) R.RGE_CSTAT_EAST == 1) then count m
     (rgeBase (4 * (h.val / 32))) 6 else m) h (k / 16 % 3072) (k % 16))) ∧
  (∀ (h : Fin 64) (x : WayPass) (q : List Instr) (m : Mach), (m.home.ways.find? fun x => x.h == h.val && (x.clear || (wayLines m h
     x.way).isEmpty)) = some x → x.clear = false → x.again = false → Leads (.wayCleanComplete h) q m ((fun y : Mach => fset (fset y (hsBase h)
     R.HS_WAYEN_BUSY (setBit (fget m (hsBase h) R.HS_WAYEN_BUSY) x.way false)) (hsBase h) R.HS_WAYEN_OFF (setBit (fget m (hsBase h) R.HS_WAYEN_OFF)
     x.way true)) (untrackWay { m with home := { m.home with ways := dropFirst (fun y => y == x) m.home.ways } } h x.way))) ∧
  (∀ e : DirEnt, dirWord (some e) % 2 ^ 15 = e.tag % 2 ^ 15 ∧ 1 ≤ dirWord (some e) / 2 ^ 15 % 8 ∧ dirWord (some e) / 2 ^ 15 % 8 ≤ 4 ∧
     dirWord (some e) / 2 ^ 18 = e.pres % 2 ^ 32) ∧
  (∀ set : Nat, set < 2 ^ 26 → (dirPlace set).1 + 32 * (dirPlace set).2.1 + 128 * (dirPlace set).2.2 = set ∧ (dirPlace set).2.2 < 524288)

/-- With one miss register waiting for its line and nothing held: a hit on its slot sends the slot data to the register, poisoned from a Poisoned slot
  and taken from one that is not Clean, and leaves the slots; else the newest whole tailwater entry answers it. A take makes the hit slot Invalid. An
  offered dirty line goes into a usable empty slot, and waits while the displaced dirty line has no room in the tailwater buffer; a clean line without
  a usable slot is declined and counted. A due clean write puts its bytes into the Clean slot. At the end of a predictor window the threshold moves
  one step within its bounds, and nothing happens before. The even and the odd beat of each codeword of a slot make the codeword, which holds its word
  of the line in bits 63:0 and its two metadata bits in bits 65:64; the 16 metadata bits hold TAG, STATE and EPOCH with bits 15:14 at 0, and STATE 4
  to 7 means nothing. It says of each of these forms that exec answers a next state, under hypotheses on the state and operands alone: slotLookup,
  take, offer, predictorWindowEnd, cleanSlotWrite. -/
def Obligations.ReservoirLookupsTakesAndOffers : Prop :=
  (∀ (h : Fin 64) (r : Mshr) (sd j : Nat) (s : Slot) (q : List Instr) (m : Mach), m.home.mshrs = [r] → r.h = h.val → r.phase = .lookup →
     r.pf = false → sd = h.val / 32 → lookupWaits m sd r = false → taken m r.pln = false → m.ras.injected = [] →
     (slotProbes m sd (lineL r.pln)).isEmpty = false → findSlot m sd (lineL r.pln) = some (j, s) → twNewest m sd r.pln = none →
     ∃ m', Leads (.slotLookup h .good) q m m' ∧ m'.home.fillQ = m.home.fillQ ++ [⟨r.h, r.pln, ⟨s.data, s.st == .poisoned⟩, false, s.st != .clean,
     false⟩] ∧ m'.rsv.slots = m.rsv.slots) ∧
  (∀ (h : Fin 64) (r : Mshr) (sd : Nat) (e : TwEnt) (q : List Instr) (m : Mach), m.home.mshrs = [r] → r.h = h.val → r.phase = .lookup →
     r.pf = false → sd = h.val / 32 → lookupWaits m sd r = false → twNewest m sd r.pln = some e →
     Leads (.slotLookup h .good) q m (fillPut (count m (rsvBase (4 * sd)) 0x20) r e.img false false)) ∧
  (∀ (k : Fin 8) (sd l i : Nat) (s : Slot) (q : List Instr) (m : Mach), m.rsv.takes = [(sd, l)] → slotAny m sd (lineL l) = some (i, s) →
     ctlOf sd i = k.val → Leads (.take k) q m (setSlot (count (slotCmds { m with rsv := { m.rsv with takes := [] } } sd i 1) (rsvBase k) 0x0E) sd i
     none)) ∧
  (∀ (k : Fin 8) (o : Offer) (i tag ep : Nat) (q : List Instr) (m : Mach), m.rsv.offers = [o] → o.from_ = .fill →
     (i, tag, ep) = installAt m o.sd (lineL o.pln) → ctlOf o.sd i = k.val → repairHeld m o.pln = false → takePending m o.sd o.pln = false →
     o.dirty = true → usable m o.sd i = true → slotAt m o.sd i = none →
     Leads (.offer k false) q m ((fun y : Mach => { y with rsv := { y.rsv with offers := [] } }) (setSlot (count (slotCmds m o.sd i 2) (rsvBase k)
     0x0B) o.sd i (some ⟨tag, if o.img.poison then .poisoned else .dirty, ep, o.img.data⟩)))) ∧
  (∀ (k : Fin 8) (o : Offer) (i tag ep : Nat) (q : List Instr) (m : Mach), m.rsv.offers = [o] → o.from_ = .fill →
     (i, tag, ep) = installAt m o.sd (lineL o.pln) → ctlOf o.sd i = k.val → repairHeld m o.pln = false → takePending m o.sd o.pln = false →
     o.dirty = false → usable m o.sd i = false → Leads (.offer k false) q m ((fun y : Mach => { y with rsv := { y.rsv with offers := [] } }) (count
     (offerCounted m k) (rsvBase k) 0x09))) ∧
  (∀ (k : Fin 8) (o : Offer) (i tag ep : Nat) (s : Slot) (q : List Instr) (m : Mach), m.rsv.offers = [o] → o.from_ = .fill →
     (i, tag, ep) = installAt m o.sd (lineL o.pln) → ctlOf o.sd i = k.val → repairHeld m o.pln = false → takePending m o.sd o.pln = false →
     o.dirty = true → usable m o.sd i = true → slotAt m o.sd i = some s → s.st ≠ .clean → s.tag ≠ tag →
     takePending m o.sd (plnOf m o.sd (slotLine m o.sd i s)) = false → twMustWait m o.sd (plnOf m o.sd (slotLine m o.sd i s)) = true →
     Leads (.offer k false) q m (m)) ∧
  (∀ (sd : Fin 2) (c : CleanWr) (i : Nat) (s : Slot) (q : List Instr) (m : Mach), (m.rsv.cleanWr.find? fun c => c.sd == sd.val) = some c →
     findSlot m sd (lineL c.pln) = some (i, s) → s.st = .clean → c.img.poison = false →
     Leads (.cleanSlotWrite sd) q m (twFinish (setSlot (count (slotCmds
     { m with rsv := { m.rsv with cleanWr := dropFirst (fun c => c.sd == sd.val) m.rsv.cleanWr } } sd i 2) (rsvBase (ctlOf sd i)) 0x0D) sd i (some
     { s with st := .clean, data := mergeLine s.data c.img.data c.mask })) sd c.pln c.done)) ∧
  (∀ (k : Fin 8) (q : List Instr) (m : Mach), (ctlGet m k).offers < 2 ^ fget m (rsvBase k) R.RSV_CTL_WINLOG → Leads (.predictorWindowEnd k) q m (m)) ∧
  (∀ (k : Fin 8) (c : Ctl) (q : List Instr) (m : Mach), c = ctlGet m k → 2 ^ fget m (rsvBase k) R.RSV_CTL_WINLOG ≤ c.offers → c.first = true →
     c.dirUp = true → fon m (rsvBase k) R.RSV_CTL_PREDEN = true → Leads (.predictorWindowEnd k) q m (fset (ctlSet m k ⟨true, false, 0, 0, 0, c.hits,
     c.lookups, c.move⟩) (rsvBase k) R.RSV_STATUS_THRESH (max (fget m (rsvBase k) R.RSV_CTL_THR_MIN) (min (fget m (rsvBase k) R.RSV_CTL_THR_MAX)
     (fget m (rsvBase k) R.RSV_STATUS_THRESH + 1))))) ∧
  (∀ (data : Line) (bits j : Nat), j < 8 → burstBeat data bits (2 * j) + burstBeat data bits (2 * j + 1) * 2 ^ 40 = burstCode data bits j ∧
     burstCode data bits j % 2 ^ 64 = data.toNat / 2 ^ (64 * j) % 2 ^ 64 ∧ burstCode data bits j / 2 ^ 64 % 4 = bits / 4 ^ j % 4) ∧
  (∀ s : Slot, slotMeta (some s) % 2 ^ 10 = s.tag % 2 ^ 10 ∧ slotState (slotMeta (some s) / 2 ^ 10 % 8) = some (some s.st) ∧
     slotMeta (some s) / 2 ^ 13 = s.epoch % 2) ∧
  (∀ n : Nat, 4 ≤ n → slotState n = none)

/-- A Sweeping controller writes one frame Invalid for each SWEEP_FRAME and becomes Serving after the last. A refresh counts; a temperature sample moves
  the refresh step with its threshold. A remap, frame bar or bank bar at a Serving controller that is not busy, for a frame whose bank is not barred
  and, for a frame operation, one not remapped with room in the remap memory (and a spare), takes its fields, becomes BUSY and records the move; at
  another controller RESULT is 4. A remap of a frame that holds no line ends with the next spare frame in the remap memory, RESULT 0, BUSY 0 and the
  page of the retirement list due. It says of each of these forms that exec answers a next state, under hypotheses on the state and operands alone:
  sweepFrame, refreshCommand, stackTemperatureSample, frameRemap, frameBar, bankBar, frameMoveComplete. -/
def Obligations.ReservoirUpkeep : Prop :=
  (∀ (k : Fin 8) (p : Nat) (q : List Instr) (m : Mach), rsvState m k = 1 → p = fget m (rsvBase k) R.RSV_STATUS_SWEEP_PTR → p + 1 < 0x80000 →
     Leads (.sweepFrame k) q m (fset (clearFrame m k p) (rsvBase k) R.RSV_STATUS_SWEEP_PTR (p + 1))) ∧
  (∀ (k : Fin 8) (q : List Instr) (m : Mach), rsvState m k = 1 → fget m (rsvBase k) R.RSV_STATUS_SWEEP_PTR = 0x7FFFF →
     Leads (.sweepFrame k) q m (fset (fset (clearFrame m k 0x7FFFF) (rsvBase k) R.RSV_STATUS_SWEEP_PTR 0x80000) (rsvBase k) R.RSV_STATUS_STATE 2)) ∧
  (∀ (k : Fin 8) (q : List Instr) (m : Mach), rsvState m k ≠ 1 → Leads (.sweepFrame k) q m (m)) ∧
  (∀ (k : Fin 8) (q : List Instr) (m : Mach), rsvState m k ≠ 0 → Leads (.refreshCommand k) q m (count m (rsvBase k) 0x0F)) ∧
  (∀ (k : Fin 8) (temp : BitVec 8) (q : List Instr) (m : Mach), rsvState m k ≠ 0 → fget m (rsvBase k) R.RSV_STATUS_REFSTEP = 0 → 95 ≤ temp.toNat →
     Leads (.stackTemperatureSample k temp) q m (finc (fset (fset m (rsvBase k) R.RSV_REFRESH_TEMP temp.toNat) (rsvBase k) R.RSV_STATUS_REFSTEP 3)
     (rsvBase k) R.RSV_REFRESH_CHANGES)) ∧
  (∀ (k : Fin 8) (temp : BitVec 8) (q : List Instr) (m : Mach), rsvState m k ≠ 0 → fget m (rsvBase k) R.RSV_STATUS_REFSTEP = 0 → temp.toNat < 50 →
     Leads (.stackTemperatureSample k temp) q m (fset m (rsvBase k) R.RSV_REFRESH_TEMP temp.toNat)) ∧
  (∀ (k : Fin 8) (pc : Fin 32) (frame : BitVec 19) (q : List Instr) (m : Mach), reach m (rsvBase k + 0x58) = .open_ →
     fon m (rsvBase k) R.RSV_RETIRE_BUSY = false → rsvState m k = 2 → bankBarred m k pc (frame.toNat % 16) = false → remapUsed m k < 4096 →
     sparesUsed m k pc < 13312 → sget 1 m.rsv.remap (frameKey k pc frame.toNat) = 1 →
     Leads (.frameRemap k pc frame) q m (fset (ctlSet (fset (fset (fset m (rsvBase k) R.RSV_RETIRE_FRAME frame.toNat) (rsvBase k) R.RSV_RETIRE_PC
     pc.val) (rsvBase k) R.RSV_RETIRE_OP 1) k { ctlGet m k with move := some ⟨1, pc, frame.toNat, none⟩ }) (rsvBase k) R.RSV_RETIRE_BUSY 1)) ∧
  (∀ (k : Fin 8) (pc : Fin 32) (frame : BitVec 19) (q : List Instr) (m : Mach), reach m (rsvBase k + 0x58) = .open_ →
     fon m (rsvBase k) R.RSV_RETIRE_BUSY = false → rsvState m k = 2 → bankBarred m k pc (frame.toNat % 16) = false → remapUsed m k < 4096 →
     sget 1 m.rsv.remap (frameKey k pc frame.toNat) = 1 → Leads (.frameBar k pc frame) q m (fset (ctlSet (fset (fset (fset m (rsvBase k)
     R.RSV_RETIRE_FRAME frame.toNat) (rsvBase k) R.RSV_RETIRE_PC pc.val) (rsvBase k) R.RSV_RETIRE_OP 2) k
     { ctlGet m k with move := some ⟨2, pc, frame.toNat, none⟩ }) (rsvBase k) R.RSV_RETIRE_BUSY 1)) ∧
  (∀ (k : Fin 8) (pc : Fin 32) (frame : BitVec 19) (q : List Instr) (m : Mach), reach m (rsvBase k + 0x58) = .open_ →
     fon m (rsvBase k) R.RSV_RETIRE_BUSY = false → rsvState m k = 2 → bankBarred m k pc (frame.toNat % 16) = false →
     Leads (.bankBar k pc frame) q m (fset (ctlSet (fset (fset (fset m (rsvBase k) R.RSV_RETIRE_FRAME frame.toNat) (rsvBase k) R.RSV_RETIRE_PC
     pc.val) (rsvBase k) R.RSV_RETIRE_OP 3) k { ctlGet m k with move := some ⟨3, pc, frame.toNat, none⟩ }) (rsvBase k) R.RSV_RETIRE_BUSY 1)) ∧
  (∀ (k : Fin 8) (pc : Fin 32) (frame : BitVec 19) (q : List Instr) (m : Mach), reach m (rsvBase k + 0x58) = .open_ →
     fon m (rsvBase k) R.RSV_RETIRE_BUSY = false → rsvState m k = 1 → Leads (.frameRemap k pc frame) q m (fset (fset (fset (fset m (rsvBase k)
     R.RSV_RETIRE_FRAME frame.toNat) (rsvBase k) R.RSV_RETIRE_PC pc.val) (rsvBase k) R.RSV_RETIRE_OP 1) (rsvBase k) R.RSV_RETIRE_RESULT 4)) ∧
  (∀ (k : Fin 8) (bad : List (BitVec 31 × Fin 8)) (v : FrameMove) (q : List Instr) (m : Mach), (ctlGet m k).move = some v →
     movedSlots m k v = [] → v.op = 1 → v.eng = none → ∃ m', Leads (.frameMoveComplete (⟨k, bad⟩)) q m m' ∧
     m'.rsv.remap = sset 1 m.rsv.remap (frameKey k v.pc v.frame) (sparesUsed m k v.pc + 2) ∧
     m'.rsv.spares = sset 0 m.rsv.spares (k.val * 32 + v.pc) (sparesUsed m k v.pc + 1) ∧ fget m' (rsvBase k) R.RSV_RETIRE_RESULT = 0 ∧
     fget m' (rsvBase k) R.RSV_RETIRE_BUSY = 0 ∧ (ctlGet m' k).move = none ∧ m'.retireQ = m.retireQ ++ [(k.val, v)]) ∧
  (∀ (k : Fin 8) (bad : List (BitVec 31 × Fin 8)) (q : List Instr) (m : Mach), (ctlGet m k).move = none →
     Leads (.frameMoveComplete (⟨k, bad⟩)) q m (m))

/-- With one sled write to place, whose plot is stored and has room, and no entry of its line, it becomes a Waiting entry with the locations of its
  plot; while it must wait, nothing changes. The only Waiting entry of a MEM port that is Up, on a plot that no tracker holds, becomes Issued and its
  write goes to the sled. The last acknowledgment of an entry sets the tracker bits of its plot and frees it; the acknowledgment of a flume write ends
  that write. It says of each of these forms that exec answers a next state, under hypotheses on the state and operands alone: tailwaterWrite,
  tailwaterIssue, sledWriteAcknowledgment. -/
def Obligations.TailwaterBuffer : Prop :=
  (∀ (sd : Fin 2) (e : TwIn) (q : List Instr) (m : Mach), m.twIn = [e] → e.sd = sd.val → e.origin = .other → twLost m sd e.pln = false →
     twFull m sd e.pln = false → m.tw.any (fun x => x.sd == e.sd && x.pln == e.pln) = false →
     Leads (.tailwaterWrite sd) q m ((fun y : Mach => { y with nextId := m.nextId + 1, tw := m.tw ++ [⟨sd, e.pln, e.img, e.mask, writeLocs m (plcGet m sd (plotOf e.pln)), [], .waiting, e.done, m.nextId⟩] })
     (count { m with twIn := [] } (rsvBase (4 * sd.val)) 0x21))) ∧
  (∀ (sd : Fin 2) (e : TwIn) (q : List Instr) (m : Mach), m.twIn = [e] → twFull m sd e.pln = true → Leads (.tailwaterWrite sd) q m (m)) ∧
  (∀ (sd : Fin 2) (p : Fin 32) (e : TwEnt) (a : Nat) (q : List Instr) (m : Mach), m.tw = [e] → e.sd = sd.val → e.st = .waiting →
     e.locs = [(p.val, a)] → plotHeld m sd (plotOf e.pln) = false → repairHeld m e.pln = false → memState m p = 0 → m.ports.sleds = [] →
     Leads (.tailwaterIssue sd p false) q m (sledWriteReq (sampleDue (count { m with tw := [{ e with st := .issued, left := [p.val] }] } (rsvBase (4
     * sd.val)) 0x23) sd (plotOf e.pln)) sd p (.tail sd e.pln) (sledAddr a e.pln) e.img e.mask)) ∧
  (∀ (p : Fin 32) (id : Nat) (s : SledReq) (sd l : Nat) (e : TwEnt) (q : List Instr) (m : Mach), (m.ports.sleds.find? fun s => s.id == id &&
     s.port == p.val && s.sent) = some s → s.what = .tail sd l → s.fenced = false →
     (m.tw.find? fun e => e.sd == sd && e.pln == l && e.st == .issued) = some e → (e.left.filter fun x => x != p.val) = [] →
     Leads (.sledWriteAcknowledgment p id) q m (twFree ((fun y : Mach =>
     { y with tw := mapFirst (fun x => x == e) (fun _ => { e with left := [] }) y.tw }) (trackWrite (count
     { m with ports := { m.ports with sleds := dropFirst (fun x => x == s) m.ports.sleds } } (ptBase p) 0x0E) sd l)) { e with left := [] })) ∧
  (∀ (p : Fin 32) (id : Nat) (s : SledReq) (c k : Nat) (q : List Instr) (m : Mach), (m.ports.sleds.find? fun s => s.id == id && s.port == p.val &&
     s.sent) = some s → s.what = .flumeWrite c k → s.fenced = false →
     Leads (.sledWriteAcknowledgment p id) q m (complete (count { m with ports := { m.ports with sleds := dropFirst (fun x => x == s) m.ports.sleds } }
     (ptBase p) 0x0E) ⟨.flume c k, 0, none, none, 0, .ok, none⟩))

/-- A mirror update at the head of its stream writes the mirror and acknowledges the grant it carries; that acknowledgment frees the record of the grant
  and sends the response held for it. A twin write becomes the most recently written staged entry, keeps a pending flag that stood, and is
  acknowledged and noticed; with the staging buffer full it waits for bridge credit. An acknowledgment completes its write and counts a new copy. A
  notice is recorded at the writer. At or below 30,720 entries no entry is evicted; above, the least recently written one moves to a record of its
  primary bucket. A release frees the copies and is acknowledged, which takes a line off the gauge. A commit clears the pending flag. It says of each
  of these forms that exec answers a next state, under hypotheses on the state and operands alone: mirrorUpdate, grantRecordRelease, twinWrite,
  twinAck, twinNotice, stagingEviction, release, releaseAck, commit. -/
def Obligations.TwinWritesAndMirrors : Prop :=
  (∀ (h : Fin 64) (k : Nat) (e : Option DirEnt) (g : Option (Nat × Nat)) (rest : List (Nat × Stream)) (q : List Instr) (m : Mach), m.twin.stream =
     (h.val, .mirror k e g) :: rest → Leads (.mirrorUpdate h) q m ((fun y : Mach =>
     { y with home := { y.home with mirror := mset y.home.mirror k e }, twin := { y.twin with mirAcks := y.twin.mirAcks ++ g.toList } }) (bridgeMsg
     { m with twin := { m.twin with stream := rest } } (h.val / 32)))) ∧
  (∀ (p : Fin 32) (l : Nat) (rest : List (Nat × Nat)) (q : List Instr) (m : Mach), m.twin.mirAcks = (p.val, l) :: rest → m.ports.heldRsp = [] →
     Leads (.grantRecordRelease p) q m
     ({ m with twin := { m.twin with mirAcks := rest }, ports := { m.ports with grants := dropFirst (fun g => g.port == p.val && g.pln == l) m.ports.grants } })) ∧
  (∀ (p : Fin 32) (l : Nat) (rest : List (Nat × Nat)) (d : Done) (ds : List Done) (id : Nat) (q : List Instr) (m : Mach), m.twin.mirAcks = (p.val,
     l) :: rest → m.ports.heldRsp = d :: ds → d.src = .host p id →
     Leads (.grantRecordRelease p) q m (complete { m with twin := { m.twin with mirAcks := rest }, ports := { m.ports with grants := dropFirst (fun g => g.port == p.val && g.pln == l) m.ports.grants, heldRsp := ds } }
     d)) ∧
  (∀ (h : Fin 64) (l : Nat) (img : Img) (pend : Bool) (ack : AckFor) (rest : List (Nat × Stream)) (q : List Instr) (m : Mach), m.twin.stream =
     (h.val, .twinWrite l img pend ack) :: rest → m.twin.staged = [] → m.twin.recs = [] → ∃ m', Leads (.twinWrite h) q m m' ∧
     m'.twin.stream = rest ∧ m'.twin.staged = [⟨(1 - h.val / 32), l, img, pend⟩] ∧ m'.twin.acks = m.twin.acks ++ [⟨h, l, true, ack⟩] ∧
     m'.twin.notices = m.twin.notices ++ (ack.notice.filter fun s => s.1 != .none).toList) ∧
  (∀ (h : Fin 64) (l : Nat) (img old : Img) (pend pd : Bool) (ack : AckFor) (more : List Staged) (rest : List (Nat × Stream)) (q : List Instr) (m
     : Mach), m.twin.stream = (h.val, .twinWrite l img pend ack) :: rest → m.twin.staged = ⟨(1 - h.val / 32), l, old, pd⟩ :: more →
     ∃ m', Leads (.twinWrite h) q m m' ∧ m'.twin.stream = rest ∧ m'.twin.staged = more ++ [⟨(1 - h.val / 32), l, img, pend || pd⟩] ∧
     m'.twin.acks = m.twin.acks ++ [⟨h, l, false, ack⟩]) ∧
  (∀ (h : Fin 64) (l : Nat) (img : Img) (pend : Bool) (ack : AckFor) (rest : List (Nat × Stream)) (q : List Instr) (m : Mach), m.twin.stream =
     (h.val, .twinWrite l img pend ack) :: rest → 32768 ≤ stagedOn m (1 - h.val / 32) →
     (m.twin.staged.any fun s => s.sd == (1 - h.val / 32) && s.pln == l) = false → Leads (.twinWrite h) q m (m)) ∧
  (∀ (h : Fin 64) (a : TwinAck) (rest : List TwinAck) (r : Req) (res sd : Nat) (q : List Instr) (m : Mach), m.twin.acks = a :: rest →
     a.h = h.val → a.isNew = true → a.ack = .write r res → sd = h.val / 32 →
     Leads (.twinAck h) q m (fin (forcedCheck (finc (bridgeMsg { m with twin := { m.twin with acks := rest } } (1 - sd)) (twnBase sd)
     R.TWN_GAUGE_LINES) sd) r none none res)) ∧
  (∀ (h : Fin 64) (a : TwinAck) (rest : List TwinAck) (r : Req) (res : Nat) (q : List Instr) (m : Mach), m.twin.acks = a :: rest → a.h = h.val →
     a.isNew = false → a.ack = .write r res → Leads (.twinAck h) q m (fin (forcedCheck (bridgeMsg { m with twin := { m.twin with acks := rest } } (1
     - h.val / 32)) (h / 32)) r none none res)) ∧
  (∀ (p id res : Nat) (rest : List (Src × Nat)) (q : List Instr) (m : Mach), m.twin.notices = (.host p id, res) :: rest →
     Leads .twinNotice q m ({ m with twin := { m.twin with notices := rest }, ports := { m.ports with ptt := mapFirst (fun t => t.id == id) (fun t => { t with notice := some res }) m.ports.ptt } })) ∧
  (∀ (e res : Nat) (rest : List (Src × Nat)) (q : List Instr) (m : Mach), m.twin.notices = (.amo e, res) :: rest →
     Leads .twinNotice q m ({ m with twin := { m.twin with notices := rest, unitNotices := m.twin.unitNotices ++ [(.amo e, res)] } })) ∧
  (∀ (t : Fin 2) (q : List Instr) (m : Mach), stagedOn m t ≤ 30720 → Leads (.stagingEviction t) q m (m)) ∧
  (∀ (t : Fin 2) (s : Staged) (q : List Instr) (m : Mach), 30720 < stagedOn m t →
     (m.twin.staged.find? fun x => x.sd == t.val && !x.pending) = some s → m.twin.recs = [] →
     Leads (.stagingEviction t) q m (count { m with twin := { m.twin with staged := dropFirst (fun x => x == s) m.twin.staged, recs := mput [] (recKey t (buckets m t (lineL s.pln)).1 0) ⟨s.pln, s.img, false⟩ } }
     (twnBase t) 0x03)) ∧
  (∀ (h : Fin 64) (l : Nat) (rest : List (Nat × Stream)) (q : List Instr) (m : Mach), m.twin.stream = (h.val, .release l) :: rest →
     hasTwin m l = true → Leads (.release h) q m ((fun y : Mach => (fun z : Mach =>
     { z with twin := { z.twin with relAcks := z.twin.relAcks ++ [(h.val, l)] } }) (copyFree (count y (twnBase (1 - h.val / 32)) 0x06) (1 - h.val /
     32) l)) (bridgeMsg { m with twin := { m.twin with stream := rest } } (h.val / 32)))) ∧
  (∀ (h : Fin 64) (l : Nat) (rest : List (Nat × Stream)) (q : List Instr) (m : Mach), m.twin.stream = (h.val, .release l) :: rest →
     hasTwin m l = false → Leads (.release h) q m (count (bridgeMsg { m with twin := { m.twin with stream := rest } } (h.val / 32)) (twnBase (1 -
     h.val / 32)) 0x06)) ∧
  (∀ (h : Fin 64) (l : Nat) (rest : List (Nat × Nat)) (n : Nat) (q : List Instr) (m : Mach), m.twin.relAcks = (h.val, l) :: rest →
     n = fget m (twnBase (h / 32)) R.TWN_GAUGE_LINES → Leads (.releaseAck h) q m (forcedCheck (fset (bridgeMsg
     { m with twin := { m.twin with relAcks := rest } } (1 - h.val / 32)) (twnBase (h / 32)) R.TWN_GAUGE_LINES (n - 1)) (h / 32))) ∧
  (∀ (h : Fin 64) (l : Nat) (rest : List (Nat × Stream)) (q : List Instr) (m : Mach), m.twin.stream = (h.val, .commit l) :: rest →
     Leads (.commit h) q m ((fun y : Mach =>
     { y with twin := { y.twin with staged := y.twin.staged.map fun s => if s.pln == l then { s with pending := false } else s } }) (bridgeMsg
     { m with twin := { m.twin with stream := rest } } (h.val / 32)))) ∧
  (∀ (h : Fin 64) (q : List Instr) (m : Mach), m.twin.stream = [] → Leads (.commit h) q m (m))

/-- A clean request writes the dirty line to its sled and counts a spill. A release check with a dirty copy left only counts; with none it changes O to
  S and releases the twin copy. The cleaner reads the next slot in index order, writes a Dirty line to its sled and leaves the slot Clean; switched
  off it does nothing. The twin drain writes a copy that it holds to its sled, and a log with none left is Off. A lookup mends the Dirty slot it was
  asked for with the image of the twin copy, and without a copy poisons the line. A search target joins the scan; a 17th forces failover of the side.
  It says of each of these forms that exec answers a next state, under hypotheses on the state and operands alone: cleanRequest, cleanerSlot,
  releaseCheck, twinDrainWrite, twinLookup, twinSearch. -/
def Obligations.TwinCleaningDrainAndRepair : Prop :=
  (∀ (h : Fin 64) (l : Nat) (rest : List HomeNote) (img : Img) (sd : Nat) (q : List Instr) (m : Mach), m.home.notes = .cleanReq h l :: rest →
     dirtyImg m (freshMshr h { op := .maint .clean none, src := .none, pln := l, data := 0, mask := 0, poison := false }) = some img →
     sd = h.val / 32 → Leads (.cleanRequest h) q m (twQueue (fsat { m with home := { m.home with notes := rest } } (twnBase sd) R.TWN_GAUGE_SPILLS)
     sd l img fullMask [.cleanWay h img] .other)) ∧
  (∀ (h : Fin 64) (l : Nat) (rest : List HomeNote) (q : List Instr) (m : Mach), m.home.notes = .relCheck h l :: rest → dirtyAtHome m h l = true →
     Leads (.releaseCheck h) q m (count { m with home := { m.home with notes := rest } } (twnBase (h / 32)) 0x07)) ∧
  (∀ (h : Fin 64) (l : Nat) (rest : List HomeNote) (q : List Instr) (m : Mach), m.home.notes = .relCheck h l :: rest → dirtyAtHome m h l = false →
     m.tw = [] → dirFind m (halfOf m l) (lineL l) = none → twinned m l = true →
     Leads (.releaseCheck h) q m (streamPut { m with home := { m.home with notes := rest } } h (.release l))) ∧
  (∀ (h : Fin 64) (l : Nat) (rest : List HomeNote) (w : Nat) (e : DirEnt) (q : List Instr) (m : Mach), m.home.notes = .relCheck h l :: rest →
     dirtyAtHome m h l = false → m.tw = [] → dirFind m (halfOf m l) (lineL l) = some (w, e) → e.st = .o → twinned m l = true →
     Leads (.releaseCheck h) q m (streamPut (count (dirPut { m with home := { m.home with notes := rest } } h l w (some { e with st := .s }) none)
     (hsBase h) 0x3F) h (.release l))) ∧
  (∀ (sd : Fin 2) (q : List Instr) (m : Mach), fon m (twnBase sd) R.TWN_GAUGE_CLEANING = false → fon m (twnBase sd) R.TWN_GAUGE_FORCED = false →
     m.twin.entering = false → Leads (.cleanerSlot sd) q m (m)) ∧
  (∀ (sd : Fin 2) (i : Nat) (s : Slot) (y : Mach) (l : Nat) (q : List Instr) (m : Mach), fon m (twnBase sd) R.TWN_GAUGE_CLEANING = true →
     i = sget 0 m.rsv.cleanPtr sd → y = { m with rsv := { m.rsv with cleanPtr := sset 0 m.rsv.cleanPtr sd ((i + 1) % 2 ^ 31) } } →
     usable y sd i = true → slotAt y sd i = some s → s.st = .dirty → l = plnOf y sd (slotLine y sd i s) → takePending y sd l = false →
     repairHeld y l = false → twMustWait y sd l = false → Leads (.cleanerSlot sd) q m (setSlot (twTake (count (slotCmds y sd i 2) (twnBase sd) 0x08)
     sd l ⟨s.data, false⟩ fullMask []) sd i (some { s with st := .clean }))) ∧
  (∀ (sd : Fin 2) (q : List Instr) (m : Mach), fget m (twnBase sd) R.TWN_LOG_STATE ≠ 2 → Leads (.twinDrainWrite sd) q m (m)) ∧
  (∀ (sd : Fin 2) (s : Staged) (rest : List Staged) (q : List Instr) (m : Mach), fget m (twnBase sd) R.TWN_LOG_STATE = 2 → m.tw = [] →
     m.twIn = [] → m.home.mshrs = [] → m.twin.staged = s :: rest → s.sd = sd.val → s.pending = false →
     Leads (.twinDrainWrite sd) q m (twQueue (count m (twnBase sd) 0x0B) sd s.pln s.img fullMask [.drain sd] .other)) ∧
  (∀ (sd : Fin 2) (q : List Instr) (m : Mach), fget m (twnBase sd) R.TWN_LOG_STATE = 2 → m.twin.staged = [] → m.twin.recs = [] →
     Leads (.twinDrainWrite sd) q m (fset m (twnBase sd) R.TWN_LOG_STATE 0)) ∧
  (∀ (h : Fin 64) (l sd i : Nat) (g : Img) (s : Slot) (rest : List (Nat × Stream)) (q : List Instr) (m : Mach), m.twin.stream = (h.val, .lookup l
     (.slot sd i)) :: rest → repairImg m l = some g → slotAt m sd i = some s → s.st = .dirty → plnOf m sd (slotLine m sd i s) = l →
     Leads (.twinLookup h) q m (err (setSlot { m with twin := { m.twin with stream := rest } } sd i (some
     { s with data := g.data, st := stateOf true g.poison })) { slotErr 0 sd i l with repaired := true, action := 2 })) ∧
  (∀ (h : Fin 64) (l sd i : Nat) (s : Slot) (rest : List (Nat × Stream)) (q : List Instr) (m : Mach), m.twin.stream = (h.val, .lookup l (.slot sd
     i)) :: rest → repairImg m l = none → slotAt m sd i = some s → s.st = .dirty → plnOf m sd (slotLine m sd i s) = l →
     Leads (.twinLookup h) q m (err (twQueue (setSlot { m with twin := { m.twin with stream := rest } } sd i none) sd l ⟨s.data, true⟩ fullMask []
     .other) { slotErr 1 sd i l with poisoned := true, action := 3 })) ∧
  (∀ (h : Fin 64) (i : Nat) (rest : List (Nat × Stream)) (q : List Instr) (m : Mach), m.twin.stream = (h.val, .search (.slot (h / 32) i)) :: rest
     → m.ras.targets.length < 16 →
     Leads (.twinSearch h) q m ({ m with twin := { m.twin with stream := rest }, ras := { m.ras with targets := m.ras.targets ++ [.slot (h / 32) i] } })) ∧
  (∀ (h : Fin 64) (i sd : Nat) (rest : List (Nat × Stream)) (q : List Instr) (m : Mach), m.twin.stream = (h.val, .search (.slot (h / 32) i)) ::
     rest → m.ras.targets = (List.range 16).map (Target.slot (h / 32)) → sd = h.val / 32 →
     Leads (.twinSearch h) q m (failLater (err (fsat { m with twin := { m.twin with stream := rest } } aonBase R.ERR_SUM_SRCHFULL)
     { errOf 2 0x07 0x17 sd with action := 31 }) sd 2))

/-- A health pulse shows its side healthy; up to two missed in a row only count. A heartbeat clears the run of missed ones at an end that is up; one or
  two missed only count. From Normal mode, the third missed pulse of a side, a fault signal of it, and at the side that is not preferred the third
  missed heartbeat while both health lines pulse or a credit timeout of a twin write, make the other side take over: the mode is Single-side with that
  side up and CAUSE 1, the record of the failover names the failed side and the cause, the survivor's end of the bridge is down and the mirror is
  empty, being the survivor's directory now. A failed lane is replaced by a spare; a fault of an arbiter copy is logged. It says of each of these
  forms that exec answers a next state, under hypotheses on the state and operands alone: healthPulse, healthPulseMissed, heartbeat, heartbeatMissed,
  faultSignal, bridgeCreditTimeout, bridgeLaneFail, arbiterCopyFault. -/
def Obligations.SideFaultsAndTakeover : Prop :=
  (∀ (sd : Fin 2) (q : List Instr) (m : Mach), sd = 0 → sideRuns m 0 = true →
     Leads (.healthPulse sd) q m (fset { m with twin := { m.twin with hpRun := mdel m.twin.hpRun 0 } } aonBase R.AON_ARB_A_OK 1)) ∧
  (∀ (sd : Fin 2) (q : List Instr) (m : Mach), sd = 1 → sideRuns m 1 = true →
     Leads (.healthPulse sd) q m (fset { m with twin := { m.twin with hpRun := mdel m.twin.hpRun 1 } } aonBase R.AON_ARB_B_OK 1)) ∧
  (∀ (sd : Fin 2) (kept : Nat) (q : List Instr) (m : Mach), sideRuns m sd = true → sget 0 m.twin.hpRun sd < 2 →
     Leads (.healthPulseMissed sd kept) q m ({ m with twin := { m.twin with hpRun := sset 0 m.twin.hpRun sd (sget 0 m.twin.hpRun sd + 1) } })) ∧
  (∀ (sd : Fin 2) (kept : Nat) (q : List Instr) (m : Mach), sideRuns m sd = true → sget 0 m.twin.hpRun sd = 2 → opMode m = 1 → bothUp m = true →
     m.twin.returning = none → ∃ m', Leads (.healthPulseMissed sd kept) q m m' ∧ opMode m' = 2 ∧
     fget m' aonBase R.AON_OPMODE_SIDE_UP = 2 ^ (1 - sd.val) ∧ fget m' aonBase R.AON_OPMODE_CAUSE = 1 ∧ fget m' aonBase R.AON_FOREC_SIDE = sd.val ∧
     fget m' aonBase R.AON_FOREC_CAUSE = 1 ∧ fget m' (brgBase (1 - sd.val)) R.BRG_STATUS_UP = 0 ∧ m'.home.mirror = []) ∧
  (∀ (sd : Fin 2) (q : List Instr) (m : Mach), fon m (brgBase sd) R.BRG_STATUS_UP = true →
     Leads (.heartbeat sd) q m (fset (bridgeMsg m (1 - sd)) (brgBase sd) R.BRG_STATUS_HB_RUN 0)) ∧
  (∀ (sd : Fin 2) (q : List Instr) (m : Mach), fon m (brgBase sd) R.BRG_STATUS_UP = false → Leads (.heartbeat sd) q m (m)) ∧
  (∀ (sd : Fin 2) (kept : Nat) (q : List Instr) (m : Mach), fon m (brgBase sd) R.BRG_STATUS_UP = true →
     fget m (brgBase sd) R.BRG_STATUS_HB_RUN < 2 → Leads (.heartbeatMissed sd false kept) q m (fsat (fsat (count m (brgBase sd) 0x04) (brgBase sd)
     R.BRG_STATUS_HB_RUN) (brgBase sd) R.BRG_STATUS_HB_TOTAL)) ∧
  (∀ (sd : Fin 2) (retrain : Bool) (kept : Nat) (q : List Instr) (m : Mach), fon m (brgBase sd) R.BRG_STATUS_UP = true →
     fget m (brgBase sd) R.BRG_STATUS_HB_RUN = 2 → opMode m = 1 → bothUp m = true → m.twin.returning = none → fon m aonBase R.AON_ARB_A_OK = true →
     fon m aonBase R.AON_ARB_B_OK = true → ∃ m', Leads (.heartbeatMissed sd retrain kept) q m m' ∧ opMode m' = 2 ∧
     fget m' aonBase R.AON_OPMODE_SIDE_UP = 2 ^ (1 - (notPreferred m)) ∧ fget m' aonBase R.AON_OPMODE_CAUSE = 1 ∧
     fget m' aonBase R.AON_FOREC_SIDE = (notPreferred m) ∧ fget m' aonBase R.AON_FOREC_CAUSE = 3 ∧
     fget m' (brgBase (1 - (notPreferred m))) R.BRG_STATUS_UP = 0 ∧ m'.home.mirror = []) ∧
  (∀ (sd : Fin 2) (retrain : Bool) (kept : Nat) (q : List Instr) (m : Mach), fon m (brgBase sd) R.BRG_STATUS_UP = true →
     fon m aonBase R.AON_ARB_A_OK = false ∨ fon m aonBase R.AON_ARB_B_OK = false →
     Leads (.heartbeatMissed sd retrain kept) q m (fsat (fsat (count m (brgBase sd) 0x04) (brgBase sd) R.BRG_STATUS_HB_RUN) (brgBase sd)
     R.BRG_STATUS_HB_TOTAL)) ∧
  (∀ (sd : Fin 2) (st bt inst : BitVec 8) (kept : Nat) (q : List Instr) (m : Mach), sideRuns m sd = true → opMode m = 1 → bothUp m = true →
     m.twin.returning = none → ∃ m', Leads (.faultSignal sd st bt inst kept) q m m' ∧ opMode m' = 2 ∧
     fget m' aonBase R.AON_OPMODE_SIDE_UP = 2 ^ (1 - sd.val) ∧ fget m' aonBase R.AON_OPMODE_CAUSE = 1 ∧ fget m' aonBase R.AON_FOREC_SIDE = sd.val ∧
     fget m' aonBase R.AON_FOREC_CAUSE = 2 ∧ fget m' (brgBase (1 - sd.val)) R.BRG_STATUS_UP = 0 ∧ m'.home.mirror = []) ∧
  (∀ (sd : Fin 2) (st bt inst : BitVec 8) (kept : Nat) (q : List Instr) (m : Mach), sideRuns m sd = false →
     Leads (.faultSignal sd st bt inst kept) q m (m)) ∧
  (∀ (sd : Fin 2) (kept : Nat) (h l : Nat) (img : Img) (o : Bool) (a : AckFor) (rest : List (Nat × Stream)) (q : List Instr) (m : Mach),
     m.twin.stream = (h, .twinWrite l img o a) :: rest → h / 32 = sd.val → fon m (brgBase sd) R.BRG_STATUS_UP = true → opMode m = 1 →
     bothUp m = true → m.twin.returning = none → ∃ m', Leads (.bridgeCreditTimeout sd kept) q m m' ∧ opMode m' = 2 ∧
     fget m' aonBase R.AON_OPMODE_SIDE_UP = 2 ^ (1 - (notPreferred m)) ∧ fget m' aonBase R.AON_OPMODE_CAUSE = 1 ∧
     fget m' aonBase R.AON_FOREC_SIDE = (notPreferred m) ∧ fget m' aonBase R.AON_FOREC_CAUSE = 4 ∧
     fget m' (brgBase (1 - (notPreferred m))) R.BRG_STATUS_UP = 0 ∧ m'.home.mirror = []) ∧
  (∀ (sd : Fin 2) (kept : Nat) (h l : Nat) (q : List Instr) (m : Mach), m.twin.stream = [(h, .release l)] →
     Leads (.bridgeCreditTimeout sd kept) q m (m)) ∧
  (∀ (sd : Fin 2) (kept : Nat) (q : List Instr) (m : Mach), m.twin.stream = [] → Leads (.bridgeCreditTimeout sd kept) q m (m)) ∧
  (∀ (q : List Instr) (m : Mach), fon m (brgBase 0) R.BRG_STATUS_UP = true → fon m (brgBase 1) R.BRG_STATUS_UP = true →
     Leads .bridgeLaneFail q m (fsat (count (fsat (count m (brgBase 0) 0x05) (brgBase 0) R.BRG_STATUS_SPARES) (brgBase 1) 0x05) (brgBase 1)
     R.BRG_STATUS_SPARES)) ∧
  (∀ (q : List Instr) (m : Mach), fon m (brgBase 0) R.BRG_STATUS_UP = false → fon m (brgBase 1) R.BRG_STATUS_UP = true →
     Leads .bridgeLaneFail q m (fsat (count m (brgBase 1) 0x05) (brgBase 1) R.BRG_STATUS_SPARES)) ∧
  (∀ (copy : Fin 2) (q : List Instr) (m : Mach), Leads (.arbiterCopyFault copy) q m (err (fset m aonBase R.AON_ARB_COPYERR 1) (errOf 1 0x0F 0x01
     copy)))

/-- A mode request while one is BUSY has no effect; one whose condition is not met gives RESULT 1, as Spillway entry does during a reintegration (a
  choice of the model, log entry 92), or 2 for a reintegration without a bridge; one that runs sets BUSY. Leaving Spillway mode with both sides up
  gives Normal mode with the twin logs on. A planned stop holds the side, and at the end of its drain the other side takes over with cause 5. A
  reintegration begins at step 1; its steps 3 to 5 copy the placement table and the directory and twin the dirty lines, and begin the soak; the soak
  ends in step 7, or runs on after a period with an error (log entry 104); each pair is held, then handed back when nothing of it is open; after the
  last the module is in Normal mode with both sides up. A hold that expires is released. Recovery is entered from Spillway mode at once and from
  Normal mode through Spillway entry. It says of each of these forms that exec answers a next state, under hypotheses on the state and operands alone:
  stopDrainEnd, reintegrationReplicationComplete, soakEnd, slicePairHandback, handbackHoldExpiry, enterSpillway, leaveSpillway, stopSideA, stopSideB,
  reintegrateStoppedSide, enterRecovery. -/
def Obligations.ModeRequestsStopsAndReintegration : Prop :=
  (∀ (q : List Instr) (m : Mach), fon m aonBase R.AON_MODECTL_BUSY = false → m.boot.holdUp = false → steady m = true → m.twin.entering = false →
     Leads .enterSpillway q m (spillBegin (fset (fset m aonBase R.AON_MODECTL_BUSY 1) aonBase R.AON_MODECTL_RESULT 0))) ∧
  (∀ (q : List Instr) (m : Mach), fon m aonBase R.AON_MODECTL_BUSY = false → m.boot.holdUp = false → steady m = false →
     Leads .enterSpillway q m (fset m aonBase R.AON_MODECTL_RESULT 1)) ∧
  (∀ (r : Nat) (q : List Instr) (m : Mach), m.twin.returning = some r → m.boot.holdUp = false →
     Leads .enterSpillway q m (fset m aonBase R.AON_MODECTL_RESULT 1)) ∧
  (∀ (q : List Instr) (m : Mach), m.twin.returning = none → fon m aonBase R.AON_MODECTL_BUSY = true → Leads .enterSpillway q m (m)) ∧
  (∀ (q : List Instr) (m : Mach), fon m aonBase R.AON_MODECTL_BUSY = false → m.boot.holdUp = false → opMode m = 3 → bothUp m = true →
     ∃ m', Leads .leaveSpillway q m m' ∧ opMode m' = 1 ∧ fget m' aonBase R.AON_OPMODE_CAUSE = 2 ∧ fget m' (twnBase 0) R.TWN_LOG_STATE = 1 ∧
     fget m' (twnBase 1) R.TWN_LOG_STATE = 1 ∧ fget m' aonBase R.AON_MODECTL_RESULT = 0 ∧ fget m' aonBase R.AON_MODECTL_BUSY = 0) ∧
  (∀ (q : List Instr) (m : Mach), fon m aonBase R.AON_MODECTL_BUSY = false → m.boot.holdUp = false → opMode m ≠ 3 →
     Leads .leaveSpillway q m (fset m aonBase R.AON_MODECTL_RESULT 1)) ∧
  (∀ (q : List Instr) (m : Mach), fon m aonBase R.AON_MODECTL_BUSY = false → m.boot.holdUp = false → opMode m = 1 → bothUp m = true →
     m.twin.returning = none → m.twin.stopping = none → m.twin.entering = false →
     Leads .stopSideA q m ((fun y : Mach => { y with twin := { y.twin with stopping := some 0 } }) (fset (fset m aonBase R.AON_MODECTL_BUSY 1)
     aonBase R.AON_MODECTL_RESULT 0))) ∧
  (∀ (q : List Instr) (m : Mach), fon m aonBase R.AON_MODECTL_BUSY = false → m.boot.holdUp = false → bothUp m = false →
     Leads .stopSideA q m (fset m aonBase R.AON_MODECTL_RESULT 1)) ∧
  (∀ (q : List Instr) (m : Mach), fon m aonBase R.AON_MODECTL_BUSY = false → m.boot.holdUp = false → opMode m = 1 → bothUp m = true →
     m.twin.returning = none → m.twin.stopping = none → m.twin.entering = false →
     Leads .stopSideB q m ((fun y : Mach => { y with twin := { y.twin with stopping := some 1 } }) (fset (fset m aonBase R.AON_MODECTL_BUSY 1)
     aonBase R.AON_MODECTL_RESULT 0))) ∧
  (∀ (q : List Instr) (m : Mach), fon m aonBase R.AON_MODECTL_BUSY = false → m.boot.holdUp = false → bothUp m = false →
     Leads .stopSideB q m (fset m aonBase R.AON_MODECTL_RESULT 1)) ∧
  (∀ (kept : Nat) (sd : Nat) (q : List Instr) (m : Mach), m.twin.stopping = some sd → sd < 2 → opMode m = 1 → m.twin.returning = none →
     ∃ m', Leads (.stopDrainEnd kept) q m m' ∧ opMode m' = 2 ∧ fget m' aonBase R.AON_OPMODE_SIDE_UP = 2 ^ (1 - sd) ∧
     fget m' aonBase R.AON_OPMODE_CAUSE = 1 ∧ fget m' aonBase R.AON_FOREC_SIDE = sd ∧ fget m' aonBase R.AON_FOREC_CAUSE = 5 ∧
     fget m' (brgBase (1 - sd)) R.BRG_STATUS_UP = 0 ∧ m'.home.mirror = []) ∧
  (∀ (kept : Nat) (q : List Instr) (m : Mach), m.twin.stopping = none → Leads (.stopDrainEnd kept) q m (m)) ∧
  (∀ (q : List Instr) (m : Mach), fon m aonBase R.AON_MODECTL_BUSY = false → m.boot.holdUp = false → opMode m = 2 → sideUp m 0 = true →
     sideUp m 1 = false → bothUp m = false → m.twin.returning = none → m.twin.entering = false →
     ((List.range 4).any fun i => stackRetired m (4 + i)) = false → fget m (twnBase 0) R.TWN_LOG_STATE = 0 →
     Leads (.reintegrateStoppedSide true) q m (fset (fset ((fun y : Mach =>
     { y with twin := { y.twin with returning := some 1, replicated := false, handed := 0, holding := none, soakBad := false } }) (fset (fset m
     aonBase R.AON_MODECTL_BUSY 1) aonBase R.AON_MODECTL_RESULT 0)) aonBase R.AON_OPMODE_REINTEG 1) (twnBase 0) R.TWN_REINT_STEP 1)) ∧
  (∀ (q : List Instr) (m : Mach), fon m aonBase R.AON_MODECTL_BUSY = false → m.boot.holdUp = false → opMode m = 2 → sideUp m 0 = false →
     sideUp m 1 = true → bothUp m = false → m.twin.returning = none → m.twin.entering = false →
     ((List.range 4).any fun i => stackRetired m i) = false → fget m (twnBase 1) R.TWN_LOG_STATE = 0 →
     Leads (.reintegrateStoppedSide true) q m (fset (fset ((fun y : Mach =>
     { y with twin := { y.twin with returning := some 0, replicated := false, handed := 0, holding := none, soakBad := false } }) (fset (fset m
     aonBase R.AON_MODECTL_BUSY 1) aonBase R.AON_MODECTL_RESULT 0)) aonBase R.AON_OPMODE_REINTEG 1) (twnBase 1) R.TWN_REINT_STEP 1)) ∧
  (∀ (q : List Instr) (m : Mach), fon m aonBase R.AON_MODECTL_BUSY = false → m.boot.holdUp = false → opMode m = 2 → bothUp m = false →
     m.twin.returning = none → m.twin.entering = false → Leads (.reintegrateStoppedSide false) q m (fset m aonBase R.AON_MODECTL_RESULT 2)) ∧
  (∀ (r t : Nat) (q : List Instr) (m : Mach), m.twin.returning = some r → t = 1 - r → r < 2 → fget m (twnBase t) R.TWN_REINT_STEP = 5 →
     fget m (twnBase t) R.TWN_GAUGE_LINES < fget m (twnBase t) R.TWN_HIMARK_MARK * 16384 → m.twin.untwinned = [] → opMode m = 2 →
     ∃ m', Leads .reintegrationReplicationComplete q m m' ∧ m'.home.mirror = m.home.dir ∧ m'.comp.plc = m.comp.plc ∧ m'.twin.replicated = true ∧
     fget m' (twnBase t) R.TWN_GAUGE_LINES = (stagedOn m r + recsOn m r) % 2 ^ 28 ∧ fget m' (twnBase r) R.TWN_LOG_STATE = 1 ∧
     fget m' (twnBase t) R.TWN_REINT_STEP = 6) ∧
  (∀ (r t : Nat) (q : List Instr) (m : Mach), m.twin.returning = some r → t = 1 - r → fget m (twnBase t) R.TWN_REINT_STEP = 3 →
     Leads .reintegrationReplicationComplete q m (fset (copyPlc m t r) (twnBase t) R.TWN_REINT_STEP 4)) ∧
  (∀ (r t : Nat) (q : List Instr) (m : Mach), m.twin.returning = some r → t = 1 - r → fget m (twnBase t) R.TWN_REINT_STEP = 2 →
     Leads .reintegrationReplicationComplete q m (fset m (twnBase t) R.TWN_REINT_STEP 3)) ∧
  (∀ (r t : Nat) (q : List Instr) (m : Mach), m.twin.returning = some r → t = 1 - r → r < 2 → fget m (twnBase t) R.TWN_REINT_STEP = 4 →
     opMode m = 2 → fget m (twnBase t) R.TWN_GAUGE_LINES ≤ 201326080 → ∃ m', Leads .reintegrationReplicationComplete q m m' ∧
     m'.home.mirror = m.home.dir ∧ fget m' (twnBase r) R.TWN_LOG_STATE = 3 ∧ fget m' (twnBase t) R.TWN_REINT_STEP = 5 ∧ m'.twin = m.twin) ∧
  (∀ (q : List Instr) (m : Mach), m.twin.returning = none → Leads .reintegrationReplicationComplete q m (m)) ∧
  (∀ (r t : Nat) (q : List Instr) (m : Mach), m.twin.returning = some r → t = 1 - r → fget m (twnBase t) R.TWN_REINT_STEP = 6 →
     m.twin.soakBad = true → Leads .soakEnd q m ({ m with twin := { m.twin with soakBad := false } })) ∧
  (∀ (r t : Nat) (q : List Instr) (m : Mach), m.twin.returning = some r → t = 1 - r → fget m (twnBase t) R.TWN_REINT_STEP = 6 →
     m.twin.soakBad = false → Leads .soakEnd q m (fset m (twnBase t) R.TWN_REINT_STEP 7)) ∧
  (∀ (r t : Nat) (q : List Instr) (m : Mach), m.twin.returning = some r → t = 1 - r → fget m (twnBase t) R.TWN_REINT_STEP = 7 →
     m.twin.holding = none → Leads .slicePairHandback q m ({ m with twin := { m.twin with holding := some m.twin.handed } })) ∧
  (∀ (r t k : Nat) (q : List Instr) (m : Mach), m.twin.returning = some r → t = 1 - r → fget m (twnBase t) R.TWN_REINT_STEP = 7 →
     m.twin.holding = some k → pairBusy m r m.twin.handed = false → m.twin.handed < 31 →
     Leads .slicePairHandback q m ({ m with home := { m.home with mirror := m.home.dir }, twin := { m.twin with holding := none, handed := m.twin.handed + 1 } })) ∧
  (∀ (r t k : Nat) (q : List Instr) (m : Mach), m.twin.returning = some r → t = 1 - r → r < 2 → fget m (twnBase t) R.TWN_REINT_STEP = 7 →
     m.twin.holding = some k → pairBusy m r m.twin.handed = false → m.twin.handed = 31 → opMode m = 2 → ∃ m', Leads .slicePairHandback q m m' ∧
     opMode m' = 1 ∧ bothUp m' = true ∧ fget m' aonBase R.AON_OPMODE_REINTEG = 0 ∧ fget m' (twnBase t) R.TWN_REINT_STEP = 0 ∧
     fget m' (twnBase t) R.TWN_LOG_STATE = 1 ∧ m'.twin.returning = none ∧ m'.home.mirror = m.home.dir) ∧
  (∀ (q : List Instr) (m : Mach), Leads .handbackHoldExpiry q m ({ m with twin := { m.twin with holding := none } })) ∧
  (∀ (q : List Instr) (m : Mach), fon m aonBase R.AON_MODECTL_BUSY = false → m.boot.holdUp = false → opMode m = 3 →
     ∃ m', Leads .enterRecovery q m m' ∧ opMode m' = 4 ∧ fget m' aonBase R.AON_OPMODE_SIDE_UP = 0 ∧ fget m' aonBase R.AON_OPMODE_CAUSE = 2 ∧
     fget m' aonBase R.AON_MODECTL_RESULT = 0 ∧ fget m' aonBase R.AON_MODECTL_BUSY = 0 ∧ m'.boot.faultLow = true) ∧
  (∀ (q : List Instr) (m : Mach), fon m aonBase R.AON_MODECTL_BUSY = false → m.boot.holdUp = false → opMode m = 1 →
     Leads .enterRecovery q m (spillBegin ((fun y : Mach => { y with boot := { y.boot with toRecovery := true } }) (fset (fset m aonBase
     R.AON_MODECTL_BUSY 1) aonBase R.AON_MODECTL_RESULT 0)))) ∧
  (∀ (q : List Instr) (m : Mach), fon m aonBase R.AON_MODECTL_BUSY = false → m.boot.holdUp = false → opMode m = 4 →
     Leads .enterRecovery q m (fset m aonBase R.AON_MODECTL_RESULT 1))

/-- At the end of a levelling window the loop records the largest and the mean channel count and starts its counts again; a qualifying window lengthens
  the run, another ends it, and a run that is long enough, long enough after the last rekey, starts a rekey of the other epoch's keys. FORCE waits for
  the next window and is ignored in a rekey. A sweep move puts an old slot's line in its new slot, unless a dirty line has it, when a clean line is
  dropped. A note enters its plot in the hot table or counts it. A tick halves counts, records the loads of MEM ports and proposes to move the hot
  plot of a loaded port to a port that may take it. A tracker takes its plot and sets every step bit; a hold that expires is cleared with a notice. It
  says of each of these forms that exec answers a next state, under hypotheses on the state and operands alone: levellingWindowEnd, force,
  rekeySweepMove, sampleNote, placementTick, pop, trackerEnable, trackerHold, holdExpiry. -/
def Obligations.LevellingAndPlacementLoops : Prop :=
  (∀ (sd : Fin 2) (q : List Instr) (m : Mach), fon m (lvlBase sd) R.LVL_CTL_EN = false → Leads (.levellingWindowEnd sd) q m (m)) ∧
  (∀ (sd : Fin 2) (q : List Instr) (m : Mach), fon m (lvlBase sd) R.LVL_CTL_EN = true → sideUp m sd = true → rekeying m sd = true →
     Leads (.levellingWindowEnd sd) q m (fset { m with loops := { m.loops with chan := mdrop m.loops.chan fun k => k / 128 == sd.val } } (lvlBase
     sd) R.LVL_STATUS_RUNWIN 0)) ∧
  (∀ (sd : Fin 2) (q : List Instr) (m : Mach), fon m (lvlBase sd) R.LVL_CTL_EN = true → sideUp m sd = true → rekeying m sd = false →
     allServing m sd = false → Leads (.levellingWindowEnd sd) q m (fset (fset
     { m with loops := { m.loops with chan := mdrop m.loops.chan fun k => k / 128 == sd.val } } (lvlBase sd) R.LVL_STATUS_RUNWIN 0) (lvlBase sd)
     R.LVL_STATUS_STATE 3)) ∧
  (∀ (sd : Fin 2) (c : Fin 128) (n s : Nat) (q : List Instr) (m : Mach), fon m (lvlBase sd) R.LVL_CTL_EN = true → sideUp m sd = true →
     rekeying m sd = false → allServing m sd = true → m.loops.force = [] →
     (∀ d : Fin 128, sget 0 m.loops.chan (sd.val * 128 + d) ≤ sget 0 m.loops.chan (sd.val * 128 + c)) → n = sget 0 m.loops.chan (sd.val * 128 + c) →
     s = ((List.range 128).map fun d => sget 0 m.loops.chan (sd.val * 128 + d)).sum → s * fget m (lvlBase sd) R.LVL_CTL_RATIO ≤ n * 8 * 128 →
     5 * fget m (lvlBase sd) R.LVL_CTL_WINDOW * fget m (lvlBase sd) R.LVL_CTL_UTIL ≤ n →
     fget m (lvlBase sd) R.LVL_STATUS_RUNWIN + 1 < fget m (lvlBase sd) R.LVL_CTL_SUSTAIN → ∃ m', Leads (.levellingWindowEnd sd) q m m' ∧
     fget m' (lvlBase sd) R.LVL_STATUS_RUNWIN = fget m (lvlBase sd) R.LVL_STATUS_RUNWIN + 1 ∧ fget m' (lvlBase sd) R.LVL_STATUS_STATE = 1 ∧
     fget m' (lvlBase sd) R.LVL_LAST_MAXCNT = min n (2 ^ 20 - 1) ∧ fget m' (lvlBase sd) R.LVL_LAST_MEANCNT = min (s / 128) (2 ^ 20 - 1) ∧
     (∀ d : Fin 128, sget 0 m'.loops.chan (sd.val * 128 + d) = 0)) ∧
  (∀ (sd : Fin 2) (c : Fin 128) (n s : Nat) (q : List Instr) (m : Mach), fon m (lvlBase sd) R.LVL_CTL_EN = true → sideUp m sd = true →
     rekeying m sd = false → allServing m sd = true → m.loops.force = [] →
     (∀ d : Fin 128, sget 0 m.loops.chan (sd.val * 128 + d) ≤ sget 0 m.loops.chan (sd.val * 128 + c)) → n = sget 0 m.loops.chan (sd.val * 128 + c) →
     s = ((List.range 128).map fun d => sget 0 m.loops.chan (sd.val * 128 + d)).sum →
     5 * fget m (lvlBase sd) R.LVL_CTL_WINDOW * fget m (lvlBase sd) R.LVL_CTL_UTIL > n ∨ n * 8 * 128 < s * fget m (lvlBase sd) R.LVL_CTL_RATIO →
     0 < fget m (lvlBase sd) R.LVL_CTL_SUSTAIN → ∃ m', Leads (.levellingWindowEnd sd) q m m' ∧ fget m' (lvlBase sd) R.LVL_STATUS_RUNWIN = 0 ∧
     fget m' (lvlBase sd) R.LVL_STATUS_STATE = 0 ∧ fget m' (lvlBase sd) R.LVL_LAST_MAXCNT = min n (2 ^ 20 - 1) ∧
     fget m' (lvlBase sd) R.LVL_LAST_MEANCNT = min (s / 128) (2 ^ 20 - 1) ∧ (∀ d : Fin 128, sget 0 m'.loops.chan (sd.val * 128 + d) = 0)) ∧
  (∀ (sd : Fin 2) (c : Fin 128) (n s : Nat) (q : List Instr) (m : Mach), fon m (lvlBase sd) R.LVL_CTL_EN = true → sideUp m sd = true →
     rekeying m sd = false → allServing m sd = true → m.loops.force = [] →
     (∀ d : Fin 128, sget 0 m.loops.chan (sd.val * 128 + d) ≤ sget 0 m.loops.chan (sd.val * 128 + c)) → n = sget 0 m.loops.chan (sd.val * 128 + c) →
     s = ((List.range 128).map fun d => sget 0 m.loops.chan (sd.val * 128 + d)).sum → s * fget m (lvlBase sd) R.LVL_CTL_RATIO ≤ n * 8 * 128 →
     5 * fget m (lvlBase sd) R.LVL_CTL_WINDOW * fget m (lvlBase sd) R.LVL_CTL_UTIL ≤ n →
     fget m (lvlBase sd) R.LVL_CTL_SUSTAIN ≤ fget m (lvlBase sd) R.LVL_STATUS_RUNWIN + 1 → fget m (lvlBase sd) R.LVL_CTL_MININT ≤ sinceRekey m sd →
     ∃ m', Leads (.levellingWindowEnd sd) q m m' ∧ fget m' (lvlBase sd) R.LVL_STATUS_RUNWIN = 0 ∧ rekeying m' sd = true ∧
     fget m' (lvlBase sd) R.LVL_STATUS_PTR = 0 ∧ epochOf m' sd = epochOf m sd ∧ (∀ d : Fin 128, rekeyPos m' sd d = 0) ∧
     fget m' (lvlBase sd) R.LVL_LAST_MAXCNT = min n (2 ^ 20 - 1) ∧ fget m' (lvlBase sd) R.LVL_LAST_MEANCNT = min (s / 128) (2 ^ 20 - 1) ∧
     (∀ d : Fin 128, sget 0 m'.loops.chan (sd.val * 128 + d) = 0)) ∧
  (∀ (sd : Fin 2) (q : List Instr) (m : Mach), reach m (lvlBase sd + 0x40) = .open_ → rekeying m sd = false → m.loops.force = [] →
     Leads (.force sd) q m ({ m with loops := { m.loops with force := [sd.val] } })) ∧
  (∀ (sd : Fin 2) (q : List Instr) (m : Mach), reach m (lvlBase sd + 0x40) = .open_ → rekeying m sd = true → Leads (.force sd) q m (m)) ∧
  (∀ (sd : Fin 2) (c : Fin 128) (q : List Instr) (m : Mach), rekeying m sd = false → Leads (.rekeySweepMove sd c) q m (m)) ∧
  (∀ (sd : Fin 2) (c : Fin 128) (n io : Nat) (s : Slot) (i tag : Nat) (q : List Instr) (m : Mach), rekeying m sd = true →
     m.twin.entering = false → rekeyPos m sd c = n → n + 1 < 2 ^ 24 → io = n / 32 * 2 ^ 12 + c * 32 + n % 32 → usable m sd io = true →
     slotAt m sd io = some s → s.epoch = epochOf m sd → (i, tag) = slotIdx m sd (1 - s.epoch) (slotLine m sd io s) → i ≠ io → usable m sd i = true →
     slotAt m sd i = none → ∃ m', Leads (.rekeySweepMove sd c) q m m' ∧ slotAt m' sd io = none ∧
     slotAt m' sd i = some { s with tag := tag, epoch := 1 - s.epoch } ∧ rekeyPos m' sd c = n + 1) ∧
  (∀ (sd : Fin 2) (c : Fin 128) (n io : Nat) (s : Slot) (i tag : Nat) (t : Slot) (q : List Instr) (m : Mach), rekeying m sd = true →
     m.twin.entering = false → rekeyPos m sd c = n → n + 1 < 2 ^ 24 → io = n / 32 * 2 ^ 12 + c * 32 + n % 32 → usable m sd io = true →
     slotAt m sd io = some s → s.epoch = epochOf m sd → s.st = .clean → (i, tag) = slotIdx m sd (1 - s.epoch) (slotLine m sd io s) → i ≠ io →
     slotAt m sd i = some t → t.st ≠ .clean → ∃ m', Leads (.rekeySweepMove sd c) q m m' ∧ slotAt m' sd io = none ∧ slotAt m' sd i = some t ∧
     rekeyPos m' sd c = n + 1) ∧
  (∀ (sd : Fin 2) (n : Nat) (q : List Instr) (m : Mach), m.sampleQ = [] → Leads (.sampleNote sd n) q m (m)) ∧
  (∀ (sd : Fin 2) (l t : Nat) (q : List Instr) (m : Mach), m.sampleQ = [(sd.val, l)] → t = trackSide m l → fon m (lvlBase t) R.PLC_CTL_EN = true →
     m.loops.hot = [] → ∃ m', Leads (.sampleNote sd 0) q m m' ∧ m'.sampleQ = [] ∧ m'.loops.hot = [(t * 16384, ⟨l, 1, 0⟩)]) ∧
  (∀ (sd : Fin 2) (l t i n hd : Nat) (q : List Instr) (m : Mach), m.sampleQ = [(sd.val, l)] → t = trackSide m l →
     fon m (lvlBase t) R.PLC_CTL_EN = true → m.loops.hot = [(t * 16384 + i, ⟨l, n, hd⟩)] → i < 16384 → n < 65535 →
     ∃ m', Leads (.sampleNote sd 0) q m m' ∧ m'.sampleQ = [] ∧ m'.loops.hot = [(t * 16384 + i, ⟨l, n + 1, hd⟩)]) ∧
  (∀ (sd : Fin 2) (loads : Line) (q : List Instr) (m : Mach), fon m (lvlBase sd) R.PLC_CTL_EN = false → Leads (.placementTick sd loads) q m (m)) ∧
  (∀ (sd : Fin 2) (loads : Line) (q : List Instr) (m : Mach), fon m (lvlBase sd) R.PLC_CTL_EN = true → sideUp m sd = true → m.loops.hot = [] →
     ∃ m', Leads (.placementTick sd loads) q m m' ∧ m'.loops = m.loops ∧ ∀ j : Fin 8, fget m' (lvlBase sd + 8 * j) R.PLC_LOAD_LOAD0 = (if roleOf m
     (4 * j) = 2 then loadOf loads (4 * j) else 0) ∧ fget m' (lvlBase sd + 8 * j) R.PLC_LOAD_LOAD3 = (if roleOf m (4 * j + 3) = 2 then loadOf loads
     (4 * j + 3) else 0)) ∧
  (∀ (sd : Fin 2) (loads : Line) (h c l n : Nat) (q : List Instr) (m : Mach), fon m (lvlBase sd) R.PLC_CTL_EN = true → sideUp m sd = true →
     fget m (lvlBase sd) R.PLC_CTL_PROPMAX = 1 → ((List.range 32).filter fun p => roleOf m p == 2) = [h, c] →
     fget m (lvlBase sd) R.PLC_CTL_PORT_HI * 10 ≤ loadOf loads h → loadOf loads c ≤ fget m (lvlBase sd) R.PLC_CTL_PORT_LO * 10 →
     loadOf loads c < loadOf loads h → bitOf (fget m (lvlBase sd) R.PLC_CTL2_DEST) h = false →
     bitOf (fget m (lvlBase sd) R.PLC_CTL2_DEST) c = true → memState m c = 0 → m.loops.hot = [(sd.val * 16384, ⟨l, n, 1⟩)] →
     fget m (lvlBase sd) R.PLC_CTL_MINHOT ≤ n / 2 → plcV (plcGet m sd l) = true → plcMig (plcGet m sd l) = false → plcM2 (plcGet m sd l) = false →
     (plcLoc1 (plcGet m sd l)).1 = h → m.loops.props = [] → ∃ m', Leads (.placementTick sd loads) q m m' ∧
     m'.loops.props = [⟨sd, l, h, c, n / 2, sget 0 m.loops.seq sd⟩] ∧ m'.loops.hot = [(sd.val * 16384, ⟨l, n / 2, 16⟩)] ∧
     m'.loops.seq = sset 0 m.loops.seq sd ((sget 0 m.loops.seq sd + 1) % 1024)) ∧
  (∀ (sd : Fin 2) (x : Proposal) (rest : List Proposal) (q : List Instr) (m : Mach), reach m (lvlBase sd + 0x120) = .open_ →
     m.loops.props = x :: rest → x.sd = sd.val → Leads (.pop sd) q m ({ m with loops := { m.loops with props := rest } })) ∧
  (∀ (sd : Fin 2) (t : Fin 16) (plot : BitVec 27) (q : List Instr) (m : Mach), reach m (lvlBase sd + 0x400 + 16 * t) = .open_ →
     fon m (lvlBase sd + 16 * t) R.PLC_MIGT_EN = false → ∃ m', Leads (.trackerEnable sd t plot true) q m m' ∧
     fget m' (lvlBase sd + 16 * t) R.PLC_MIGT_PLOT = plot.toNat ∧ fget m' (lvlBase sd + 16 * t) R.PLC_MIGT_EN = 1 ∧
     ∀ j : Fin 8, fget m' (lvlBase sd + 64 * t + 8 * j) R.PLC_MIGBM_BITS = 2 ^ 64 - 1) ∧
  (∀ (sd : Fin 2) (t : Fin 16) (plot : BitVec 27) (q : List Instr) (m : Mach), reach m (lvlBase sd + 0x400 + 16 * t) = .open_ →
     fon m (lvlBase sd + 16 * t) R.PLC_MIGT_EN = true → Leads (.trackerEnable sd t plot false) q m (fset (fset m (lvlBase sd + 16 * t) R.PLC_MIGT_EN
     0) (lvlBase sd + 16 * t) R.PLC_MIGT_HOLD 0)) ∧
  (∀ (sd : Fin 2) (t : Fin 16) (hold : Bool) (q : List Instr) (m : Mach), reach m (lvlBase sd + 0x400 + 16 * t) = .open_ →
     Leads (.trackerHold sd t hold) q m (fset m (lvlBase sd + 16 * t) R.PLC_MIGT_HOLD (b2n hold))) ∧
  (∀ (sd : Fin 2) (t : Fin 16) (q : List Instr) (m : Mach), fon m (lvlBase sd + 16 * t) R.PLC_MIGT_HOLD = true →
     Leads (.holdExpiry sd t) q m (notice (fset (fset (count m (lvlBase sd) 0x0E) (lvlBase sd + 16 * t) R.PLC_MIGT_HOLD 0) (lvlBase sd + 16 * t)
     R.PLC_MIGT_HOLDEXP 1) 6 sd t)) ∧
  (∀ (sd : Fin 2) (t : Fin 16) (q : List Instr) (m : Mach), fon m (lvlBase sd + 16 * t) R.PLC_MIGT_HOLD = false → Leads (.holdExpiry sd t) q m (m))

/-- With one operation at the engine: a quantum starts with the next lines, at most 64, and a stopped operation ends there with status 1. A line without
  storage comes back with status 4; a clean that its home completes at once is ordered there. A line that comes back is counted in LEFT and, if it is
  the last, ends the operation with the lowest status. An abort stops the operation. Four needs of a group become one block snoop; fewer become line
  snoops when 2 us have passed and wait before. It says of each of these forms that exec answers a next state, under hypotheses on the state and
  operands alone: rangeQuantumStart, rangeLineRequest, rangeLineComplete, blockSnoopAssembly, rangeAbort. -/
def Obligations.RangeOperations : Prop :=
  (∀ (n : Fin 8) (r : RangeOp) (k : Nat) (ls : List Nat) (q : List Instr) (m : Mach), m.eng.ranges = [r] → r.n = n.val → r.ended = false →
     r.toSend = [] → r.open_ = [] → r.stop = false → r.begun < r.lines → k = min 64 (r.lines - r.begun) →
     ls = (List.range k).map (fun i => r.first + r.begun + i) →
     Leads (.rangeQuantumStart n) q m (count { fset m (rgeBase n) R.RGE_CUR_NEXT (r.first + r.begun + k) with eng := { m.eng with ranges := [{ r with begun := r.begun + k, toSend := ls, open_ := ls }] } }
     (rgeBase n) 1)) ∧
  (∀ (n : Fin 8) (r : RangeOp) (q : List Instr) (m : Mach), m.eng.ranges = [r] → r.n = n.val → r.ended = false → r.toSend = [] → r.open_ = [] →
     r.stop = true → Leads (.rangeQuantumStart n) q m (rangeEnd m r 1)) ∧
  (∀ (n : Fin 8) (i : Fin 64) (r : RangeOp) (l : Nat) (q : List Instr) (m : Mach), m.eng.ranges = [r] → r.n = n.val → r.toSend[i.val]? = some l →
     plcV (plcGet m (homeSlice m l / 32) (plotOf l)) = false →
     Leads (.rangeLineRequest n i) q m ({ m with eng := { m.eng with ranges := [{ r with toSend := r.toSend.eraseIdx i }], rangeQ := m.eng.rangeQ ++ [⟨n, l, 4⟩] } })) ∧
  (∀ (n : Fin 8) (i : Fin 64) (r : RangeOp) (l h : Nat) (q : List Instr) (m : Mach), m.eng.ranges = [r] → r.n = n.val →
     r.toSend[i.val]? = some l → r.op = 0 → h = homeSlice m l → plcV (plcGet m (h / 32) (plotOf l)) = true → m.home.mwq = [] → m.home.mshrs = [] →
     m.home.recalls = [] → m.home.vb = [] →
     mshrOf (pumpAll ((fun y : Mach => { y with home := { y.home with mshrs := [freshMshr h ({ op := .maint .clean none, src := .range n l, pln := l, data := 0, mask := 0, poison := false, attr := some (attrOf m l) } : Req)] } })
     (count { m with eng := { m.eng with ranges := [{ r with toSend := r.toSend.eraseIdx i }] } } (hsBase h) 0x01)) h l) h l = none →
     Leads (.rangeLineRequest n i) q m (pumpAll ((fun y : Mach =>
     { y with home := { y.home with mshrs := [freshMshr h ({ op := .maint .clean none, src := .range n l, pln := l, data := 0, mask := 0, poison := false, attr := some (attrOf m l) } : Req)] } })
     (count { m with eng := { m.eng with ranges := [{ r with toSend := r.toSend.eraseIdx i }] } } (hsBase h) 0x01)) h l)) ∧
  (∀ (n : Fin 8) (d : RangeDone) (rest : List RangeDone) (r : RangeOp) (os : List Nat) (f : Nat) (q : List Instr) (m : Mach), m.eng.rangeQ = d ::
     rest → d.n = n.val → m.eng.ranges = [r] → r.n = n.val → r.open_ = d.pln :: os → d.status = 0 → r.status = 0 → f = r.finished + 1 →
     f < r.lines → Leads (.rangeLineComplete n) q m (count (fset (fset
     { m with eng := { m.eng with rangeQ := rest, ranges := [{ r with open_ := os, finished := f }] } } (rgeBase n) R.RGE_LEFT_LEFT (r.lines - f))
     (rgeBase n) R.RGE_STATUS_STATUS 0) (rgeBase n) 2)) ∧
  (∀ (n : Fin 8) (d : RangeDone) (rest : List RangeDone) (r : RangeOp) (q : List Instr) (m : Mach), m.eng.rangeQ = d :: rest → d.n = n.val →
     m.eng.ranges = [r] → r.n = n.val → r.open_ = [d.pln] → d.status = 4 → r.status = 0 → r.finished + 1 = r.lines →
     ∃ m', Leads (.rangeLineComplete n) q m m' ∧ fget m' (rgeBase n) R.RGE_STATUS_STATUS = 4 ∧ fget m' (rgeBase n) R.RGE_LEFT_LEFT = 0 ∧
     m'.eng.rangeQ = rest ∧ ∀ x ∈ m'.eng.ranges, x.n = n.val → x.ended = true ∧ x.status = 4) ∧
  (∀ (n : Fin 8) (r : RangeOp) (q : List Instr) (m : Mach), reach m (rgeBase n + 0x58) = .open_ → m.eng.ranges = [r] → r.n = n.val →
     r.ended = false → Leads (.rangeAbort n) q m ({ m with eng := { m.eng with ranges := [{ r with stop := true }] } })) ∧
  (∀ (p : Fin 32) (grp : BitVec 40) (expired : Bool) (g h : Nat) (q : List Instr) (m : Mach), g = grp.toNat →
     m.ports.blk = [⟨g, p.val, 4 * g, h, true⟩, ⟨g, p.val, 4 * g + 1, h, true⟩, ⟨g, p.val, 4 * g + 2, h, true⟩, ⟨g, p.val, 4 * g + 3, h, true⟩] →
     snpsOut m p + 4 ≤ 1024 → Leads (.blockSnoopAssembly p grp expired) q m (send ((fun y : Mach =>
     { y with ports := { y.ports with blk := [], snps := m.ports.snps ++ [⟨p, 4 * g, .invBlk, h, false, true⟩, ⟨p, 4 * g + 1, .invBlk, h, false, true⟩, ⟨p, 4 * g + 2, .invBlk, h, false, true⟩, ⟨p, 4 * g + 3, .invBlk, h, false, true⟩] } })
     (count (count (count (count m (hsBase h) 0x37) (hsBase h) 0x37) (hsBase h) 0x37) (hsBase h) 0x37)) (.bisnp p .invBlk (4 * g)))) ∧
  (∀ (p : Fin 32) (grp : BitVec 40) (g l h : Nat) (q : List Instr) (m : Mach), g = grp.toNat → m.ports.blk = [⟨g, p.val, l, h, true⟩] →
     Leads (.blockSnoopAssembly p grp true) q m (snoop { m with ports := { m.ports with blk := [] } } h l .inv p)) ∧
  (∀ (p : Fin 32) (grp : BitVec 40) (g l h : Nat) (q : List Instr) (m : Mach), g = grp.toNat → m.ports.blk = [⟨g, p.val, l, h, true⟩] →
     Leads (.blockSnoopAssembly p grp false) q m (m))

/-- A step of a move reads its 64 lines from their homes; an operation whose plot has no storage ends with status 4, and one whose MEM port is not Up
  with status 2. A step of a tracked plot clears its bit on the side that armed it and then reads. A completed step is counted, and the last ends the
  operation; an uncorrectable error halts the channel while HALTWAIT is not 0, RESUME runs it again, and the end of the wait ends it with status 5. A
  stopped operation with a step in flight only stops. With no transition in progress an OFF bit starts the drain of its level and its return the
  enabling; a reserved value is refused. A drained Reservoir is Off, an enabled one On. It says of each of these forms that exec answers a next state,
  under hypotheses on the state and operands alone: flumeStepStart, trackerClear, flumeStepComplete, resume, flumeAbort, haltwaitExpiry, headgateOff,
  reservoirOff, eastHalfOff, headgateOn, reservoirOn, eastHalfOn, levelDrainComplete, levelEnableComplete. -/
def Obligations.FlumeStepsAndCacheControl : Prop :=
  (∀ (c : Fin 64) (f : FlumeOp) (src dst : Nat) (q : List Instr) (m : Mach), m.eng.flumes = [f] → f.c = c.val → f.ended = false → f.stop = false →
     fget m (fcBase c) R.FC_STATUS_STATE = 1 → f.begun < f.steps → f.run = [] → f.kind = 0 → src = f.src + 4096 * f.begun →
     dst = f.dst + 4096 * f.begun → plcV (plcGet m (c / 32) (src / 0x200000)) = false → Leads (.flumeStepStart c) q m (flumeEnd m f 4)) ∧
  (∀ (c : Fin 64) (f : FlumeOp) (w : Nat) (q : List Instr) (m : Mach), m.eng.flumes = [f] → f.c = c.val → f.ended = false → f.stop = false →
     fget m (fcBase c) R.FC_STATUS_STATE = 1 → f.begun < f.steps → f.run = [] → f.kind = 2 → w = stepWord f.dst f.begun →
     memState m (wordPort w) ≠ 0 → Leads (.flumeStepStart c) q m (flumeEnd m f 2)) ∧
  (∀ (c : Fin 64) (f : FlumeOp) (src dst : Nat) (q : List Instr) (m : Mach), m.eng.flumes = [f] → f.c = c.val → f.ended = false → f.stop = false →
     fget m (fcBase c) R.FC_STATUS_STATE = 1 → f.begun < f.steps → f.run = [] → f.kind = 0 → src = f.src + 4096 * f.begun →
     dst = f.dst + 4096 * f.begun → plcV (plcGet m (c / 32) (src / 0x200000)) = true → plcV (plcGet m (c / 32) (dst / 0x200000)) = true →
     ∃ m', Leads (.flumeStepStart c) q m m' ∧ fget m' (fcBase c) R.FC_SRC_WORD = src % 2 ^ 64 ∧ fget m' (fcBase c) R.FC_DST_WORD = dst % 2 ^ 64 ∧
     m'.eng.flumes = [{ f with begun := f.begun + 1, run := [⟨f.begun, m.nextId, [], List.range 64, []⟩] }] ∧ m'.nextId = m.nextId + 1 ∧
     m'.home.reqQ = m.home.reqQ ++ (List.range 64).map (fun k => (homeSlice m (src / 64 + k),
     { op := .flumeRead, src := .flume c (m.nextId * 64 + k), pln := src / 64 + k, data := 0, mask := 0, poison := false, attr := some (attrOf m (src / 64 + k)) }))) ∧
  (∀ (c : Fin 64) (f : FlumeOp) (q : List Instr) (m : Mach), m.eng.flumes = [f] → f.c = c.val → fget m (fcBase c) R.FC_STATUS_STATE ≠ 1 →
     Leads (.flumeStepStart c) q m (m)) ∧
  (∀ (c : Fin 64) (f : FlumeOp) (s : FlumeStep) (sd w t b : Nat) (q : List Instr) (m : Mach), m.eng.flumes = [f] → f.c = c.val → f.kind = 1 →
     f.run = [s] → s.clears = [sd] → w = stepWord f.src s.idx → armedFor m sd (bitsOf w 37 27) = some t →
     b = lvlBase sd + 64 * t + 8 * (bitsOf w 0 9 / 64) → Leads (.trackerClear c) q m (flumeGo (count (fset m b R.PLC_MIGBM_BITS (setBit (fget m b
     R.PLC_MIGBM_BITS) (bitsOf w 0 9 % 64) false)) (fcgBase (c / 32)) 2) f s)) ∧
  (∀ (c : Fin 64) (f : FlumeOp) (k g : Nat) (rest : List FlumeStep) (q : List Instr) (m : Mach), m.eng.flumes = [f] → f.c = c.val →
     f.run = ⟨k, g, [], [], []⟩ :: rest → f.stop = false → f.finished + 1 < f.steps →
     Leads (.flumeStepComplete c false) q m (count { fset m (fcBase c) R.FC_STATUS_STEPS (f.finished + 1) with eng := { m.eng with flumes := [{ f with run := rest, finished := f.finished + 1 }] } }
     (fcgBase (c / 32)) 1)) ∧
  (∀ (c : Fin 64) (f : FlumeOp) (k g : Nat) (q : List Instr) (m : Mach), m.eng.flumes = [f] → f.c = c.val → f.run = [⟨k, g, [], [], []⟩] →
     f.finished + 1 = f.steps → f.status = 0 → ∃ m', Leads (.flumeStepComplete c false) q m m' ∧ fget m' (fcBase c) R.FC_STATUS_STATE = 0 ∧
     fget m' (fcBase c) R.FC_STATUS_STATUS = 0 ∧ fget m' (fcBase c) R.FC_STATUS_STEPS = f.steps % 2 ^ 32) ∧
  (∀ (c : Fin 64) (f : FlumeOp) (s : FlumeStep) (rest : List FlumeStep) (q : List Instr) (m : Mach), m.eng.flumes = [f] → f.c = c.val →
     f.run = s :: rest → fget m (fcgBase (c / 32)) R.FC_GCTL_HALTWAIT ≠ 0 → ∃ m', Leads (.flumeStepComplete c true) q m m' ∧
     fget m' (fcBase c) R.FC_STATUS_STATE = 2 ∧ m'.eng.flumes = [{ f with run := [], begun := f.finished }]) ∧
  (∀ (c : Fin 64) (q : List Instr) (m : Mach), reach m (fcBase c + 0x18) = .open_ → fget m (fcBase c) R.FC_STATUS_STATE = 2 →
     Leads (.resume c) q m (fset m (fcBase c) R.FC_STATUS_STATE 1)) ∧
  (∀ (c : Fin 64) (f : FlumeOp) (s : FlumeStep) (rest : List FlumeStep) (q : List Instr) (m : Mach), reach m (fcBase c + 0x18) = .open_ →
     m.eng.flumes = [f] → f.c = c.val → f.ended = false → fget m (fcBase c) R.FC_STATUS_STATE = 1 → f.run = s :: rest →
     Leads (.flumeAbort c) q m ({ m with eng := { m.eng with flumes := [{ f with stop := true }] } })) ∧
  (∀ (c : Fin 64) (f : FlumeOp) (q : List Instr) (m : Mach), m.eng.flumes = [f] → f.c = c.val → fget m (fcBase c) R.FC_STATUS_STATE = 2 →
     Leads (.haltwaitExpiry c) q m (flumeEnd m f 5)) ∧
  (∀ (c : Fin 64) (q : List Instr) (m : Mach), fget m (fcBase c) R.FC_STATUS_STATE ≠ 2 → Leads (.haltwaitExpiry c) q m (m)) ∧
  (∀ (sd : Fin 2) (q : List Instr) (m : Mach), reach m (rgeBase (4 * sd) + 0x800) = .open_ → levelBusy m sd = false → opMode m ≠ 3 →
     fget m (cctlBase sd) R.RGE_CCTL_OFF = 0 → levelOf m sd .headgate = 0 → levelOf m sd .reservoir = 0 → levelOf m sd .east = 0 →
     ∃ m', Leads (.headgateOff sd) q m m' ∧ fget m' (cctlBase sd) R.RGE_CCTL_OFF = 1 ∧ levelOf m' sd .headgate = 1 ∧
     fget m' (cctlBase sd) R.RGE_CSTAT_WT = 1 ∧ ∀ i : Fin 32, ∀ w : Fin 16, ∃ x ∈ m'.home.ways, x.h = sd * 32 + i ∧ x.way = w) ∧
  (∀ (sd : Fin 2) (q : List Instr) (m : Mach), reach m (rgeBase (4 * sd) + 0x800) = .open_ → levelBusy m sd = false → opMode m ≠ 3 →
     fget m (cctlBase sd) R.RGE_CCTL_OFF = 0 → levelOf m sd .headgate = 0 → levelOf m sd .reservoir = 0 → levelOf m sd .east = 0 →
     ∀ c ∈ sideSlots m sd, c.2.st = .clean → ∃ m', Leads (.reservoirOff sd) q m m' ∧ fget m' (cctlBase sd) R.RGE_CCTL_OFF = 2 ∧
     levelOf m' sd .reservoir = 1 ∧ fget m' (cctlBase sd) R.RGE_CSTAT_WT = 1 ∧ ∀ i : Fin (2 ^ 31), slotAt m' sd i = none) ∧
  (∀ (sd : Fin 2) (q : List Instr) (m : Mach), reach m (rgeBase (4 * sd) + 0x800) = .open_ → levelBusy m sd = false → opMode m ≠ 3 →
     fget m (cctlBase sd) R.RGE_CCTL_OFF = 0 → levelOf m sd .headgate = 0 → levelOf m sd .reservoir = 0 → levelOf m sd .east = 0 →
     ∃ m', Leads (.eastHalfOff sd) q m m' ∧ fget m' (cctlBase sd) R.RGE_CCTL_OFF = 4 ∧ levelOf m' sd .east = 1 ∧
     fget m' (cctlBase sd) R.RGE_CSTAT_WT = 0 ∧ ∀ i : Fin 32, ∀ w : Fin 8, ∃ x ∈ m'.home.ways, x.h = sd * 32 + i ∧ x.way = w + 8) ∧
  (∀ (sd : Fin 2) (q : List Instr) (m : Mach), reach m (rgeBase (4 * sd) + 0x800) = .open_ → levelBusy m sd = false → opMode m ≠ 3 →
     fget m (cctlBase sd) R.RGE_CCTL_OFF = 1 → levelOf m sd .headgate = 2 → levelOf m sd .reservoir = 0 → levelOf m sd .east = 0 →
     ∃ m', Leads (.headgateOn sd) q m m' ∧ fget m' (cctlBase sd) R.RGE_CCTL_OFF = 0 ∧ levelOf m' sd .headgate = 3 ∧
     ∀ i : Fin 32, ∀ s w : Nat, s < 3072 → w < 16 → mget m'.home.hg (hgKey (sd * 32 + i) s w) = none) ∧
  (∀ (sd : Fin 2) (q : List Instr) (m : Mach), reach m (rgeBase (4 * sd) + 0x800) = .open_ → levelBusy m sd = false → opMode m ≠ 3 →
     fget m (cctlBase sd) R.RGE_CCTL_OFF = 2 → levelOf m sd .headgate = 0 → levelOf m sd .reservoir = 2 → levelOf m sd .east = 0 →
     ∃ m', Leads (.reservoirOn sd) q m m' ∧ fget m' (cctlBase sd) R.RGE_CCTL_OFF = 0 ∧ levelOf m' sd .reservoir = 3 ∧ epochOf m' sd = 0 ∧
     ∀ k : Fin 4, rsvState m (4 * sd + k) ≠ 0 → rsvState m' (4 * sd + k) = 1) ∧
  (∀ (sd : Fin 2) (q : List Instr) (m : Mach), reach m (rgeBase (4 * sd) + 0x800) = .open_ → levelBusy m sd = false → opMode m ≠ 3 →
     fget m (cctlBase sd) R.RGE_CCTL_OFF = 4 → levelOf m sd .headgate = 0 → levelOf m sd .reservoir = 0 → levelOf m sd .east = 2 →
     ∃ m', Leads (.eastHalfOn sd) q m m' ∧ fget m' (cctlBase sd) R.RGE_CCTL_OFF = 0 ∧ levelOf m' sd .east = 3 ∧
     ∀ i : Fin 32, ∀ s w : Nat, s < 3072 → 8 ≤ w → w < 16 → mget m'.home.hg (hgKey (sd * 32 + i) s w) = none) ∧
  (∀ (sd : Fin 2) (q : List Instr) (m : Mach), reach m (rgeBase (4 * sd) + 0x800) = .open_ → fget m (cctlBase sd) R.RGE_CCTL_OFF % 8 = 2 →
     Leads (.headgateOff sd) q m (reject m (cctlBase sd) 2 0x800)) ∧
  (∀ (sd : Fin 2) (q : List Instr) (m : Mach), levelOf m sd .reservoir = 1 → tailEmpty m sd = true → sideSlots m sd = [] →
     fget m (cctlBase sd) R.RGE_CCTL_OFF = 2 → levelOf m sd .headgate = 0 → levelOf m sd .east = 0 →
     ∃ m', Leads (.levelDrainComplete sd .reservoir) q m m' ∧ levelOf m' sd .reservoir = 2 ∧ fget m' (cctlBase sd) R.RGE_CSTAT_WT = 0 ∧
     fget m' (cctlBase sd) R.RGE_CSTAT_DONE = 1 ∧ ∀ k : Fin 4, rsvState m (4 * sd + k) ≠ 0 → rsvState m' (4 * sd + k) = 4) ∧
  (∀ (sd : Fin 2) (l : Level) (q : List Instr) (m : Mach), levelOf m sd l ≠ 1 → Leads (.levelDrainComplete sd l) q m (m)) ∧
  (∀ (sd : Fin 2) (q : List Instr) (m : Mach), levelOf m sd .reservoir = 3 → opMode m ≠ 3 → (∀ k : Fin 4, rsvState m (4 * sd + k) = 2) →
     fget m (cctlBase sd) R.RGE_CCTL_OFF = 0 → levelOf m sd .headgate = 0 → levelOf m sd .east = 0 →
     Leads (.levelEnableComplete sd .reservoir) q m (levelEnd m sd .reservoir 0)) ∧
  (∀ (sd : Fin 2) (l : Level) (q : List Instr) (m : Mach), levelOf m sd l ≠ 3 → Leads (.levelEnableComplete sd l) q m (m))

/-- With no probe on, a packet is counted where it passes and is delivered by an Open gateway, held by one that powers up, marks a drain aborted when it
  may wake, and at an Off gateway is discarded with an error record, or not answered when it is a control access, or wakes a sleeping cluster; a
  fenced gateway discards it without a record. A probe that alone sees a packet counts it, and with TRACE captures its header. When an uplink fails
  the tile detours for that side; when it returns a marker goes out on each VN, and the acknowledgment of the last ends the detour. TRADV drops the
  oldest record. It says of each of these forms that exec answers a next state, under hypotheses on the state and operands alone: gatewayPacket,
  uplinkFail, uplinkReturn, routeMarkerAck, nocTradv. -/
def Obligations.NetworkGatewaysProbesAndRoutes : Prop :=
  (∀ (sd : Fin 2) (site : Fin 64) (net : Fin 4) (hdr : BitVec 128) (d0 : Word) (q : List Instr) (m : Mach), (∀ s : Fin 2, ∀ j : Fin 8, fon m
     (nocBase s + 0x20 * j) R.NOC_PRBCTL_EN = false) → gwState m sd site = 0 →
     Leads (.gatewayPacket sd site net hdr (⟨d0, .good⟩)) q m ((passCount m (route sd site hdr.toNat)))) ∧
  (∀ (sd : Fin 2) (site : Fin 64) (net : Fin 4) (hdr : BitVec 128) (d0 : Word) (q : List Instr) (m : Mach), (∀ s : Fin 2, ∀ j : Fin 8, fon m
     (nocBase s + 0x20 * j) R.NOC_PRBCTL_EN = false) → gwState m sd site = 3 →
     Leads (.gatewayPacket sd site net hdr (⟨d0, .good⟩)) q m (gwHold (passCount m (route sd site hdr.toNat)) ⟨sd, site, net, hdr.toNat, d0.toNat⟩)) ∧
  (∀ (sd : Fin 2) (site : Fin 64) (net : Fin 4) (hdr : BitVec 128) (d0 : Word) (d : Nat) (q : List Instr) (m : Mach), (∀ s : Fin 2, ∀ j : Fin 8,
     fon m (nocBase s + 0x20 * j) R.NOC_PRBCTL_EN = false) → gwState m sd site = 1 → hdrWake hdr.toNat = true → siteDom sd site = some d →
     Leads (.gatewayPacket sd site net hdr (⟨d0, .good⟩)) q m (fset (fset (gwHold (passCount m (route sd site hdr.toNat)) ⟨sd, site, net, hdr.toNat,
     d0.toNat⟩) (gwBase sd site) R.NOC_GW_ABORT 1) (8 * d) R.PWR_DOM_ABORT 1)) ∧
  (∀ (sd : Fin 2) (site : Fin 64) (hdr : BitVec 128) (d0 : Word) (q : List Instr) (m : Mach), (∀ s : Fin 2, ∀ j : Fin 8, fon m (nocBase s + 0x20 *
     j) R.NOC_PRBCTL_EN = false) → gwState m sd site = 2 → hdrVn hdr.toNat = 2 →
     Leads (.gatewayPacket sd site 0 hdr (⟨d0, .good⟩)) q m (noAnswer (passCount m (route sd site hdr.toNat)) (bitsOf hdr.toNat 64 32))) ∧
  (∀ (sd : Fin 2) (site : Fin 64) (net : Fin 4) (hdr : BitVec 128) (d0 : Word) (q : List Instr) (m : Mach), (∀ s : Fin 2, ∀ j : Fin 8, fon m
     (nocBase s + 0x20 * j) R.NOC_PRBCTL_EN = false) → gwState m sd site = 2 → net ≠ 0 → hdrWake hdr.toNat = false →
     Leads (.gatewayPacket sd site net hdr (⟨d0, .good⟩)) q m (gwDiscard (passCount m (route sd site hdr.toNat)) ⟨sd, site, net, hdr.toNat,
     d0.toNat⟩ true)) ∧
  (∀ (sd : Fin 2) (net : Fin 4) (hdr : BitVec 128) (d0 : Word) (q : List Instr) (m : Mach), (∀ s : Fin 2, ∀ j : Fin 8, fon m (nocBase s + 0x20 *
     j) R.NOC_PRBCTL_EN = false) → gwState m sd 52 = 2 → net ≠ 0 → hdrWake hdr.toNat = true → domSt m (10 + 6 * sd) = 4 →
     Leads (.gatewayPacket sd 52 net hdr (⟨d0, .good⟩)) q m (gwHold (finc (count (gwPut (domPut (passCount m (route sd 52 hdr.toNat)) (10 + 6 * sd)
     1) sd 52 3) (nocBase sd) 0x05) (gwBase sd 52) R.NOC_GW_WAKES) ⟨sd, 52, net, hdr.toNat, d0.toNat⟩)) ∧
  (∀ (sd : Fin 2) (site : Fin 64) (net : Fin 4) (hdr : BitVec 128) (d0 : Word) (q : List Instr) (m : Mach), (∀ s : Fin 2, ∀ j : Fin 8, fon m
     (nocBase s + 0x20 * j) R.NOC_PRBCTL_EN = false) → gwState m sd site = 4 → net ≠ 0 →
     Leads (.gatewayPacket sd site net hdr (⟨d0, .good⟩)) q m (gwDiscard (passCount m (route sd site hdr.toNat)) ⟨sd, site, net, hdr.toNat,
     d0.toNat⟩ false)) ∧
  (∀ (sd : Fin 2) (site : Fin 64) (net : Fin 4) (hdr : BitVec 128) (d0 : Word) (k : Fin 8) (q : List Instr) (m : Mach), (∀ s : Fin 2, ∀ j : Fin 8,
     probeSees m s j net hdr.toNat (route sd site hdr.toNat) = decide (s = sd ∧ j = k)) → fon m (nocBase sd + 0x20 * k) R.NOC_PRBCTL_TRACE = false →
     gwState m sd site = 0 → Leads (.gatewayPacket sd site net hdr (⟨d0, .good⟩)) q m (count (passCount m (route sd site hdr.toNat)) (nocBase sd)
     (0x10 + k))) ∧
  (∀ (sd : Fin 2) (site : Fin 64) (net : Fin 4) (hdr : BitVec 128) (d0 : Word) (k : Fin 8) (q : List Instr) (m : Mach), (∀ s : Fin 2, ∀ j : Fin 8,
     probeSees m s j net hdr.toNat (route sd site hdr.toNat) = decide (s = sd ∧ j = k)) → fon m (nocBase sd + 0x20 * k) R.NOC_PRBCTL_TRACE = true →
     gwState m sd site = 0 → fon m (nocBase sd) R.NOC_TRCTL_EN = true → fon m (nocBase sd) R.NOC_TRCTL_DATA = false → m.net.trace = [] →
     ∃ m', Leads (.gatewayPacket sd site net hdr (⟨d0, .good⟩)) q m m' ∧ ∃ t < 2 ^ 40, m'.net.trace = [(sd.val, [hdr.toNat % 2 ^ 64, hdr.toNat / 2 ^
     64, t + k * 2 ^ 40 + sget 0 m.net.tseq sd * 2 ^ 43 + 2 ^ 63, 0])]) ∧
  (∀ (sd : Fin 2) (site : Fin 64) (net : Fin 4) (hdr : BitVec 128) (d0 : Word) (ck : NetCheck) (q : List Instr) (m : Mach), ck = .header ∨ (ck =
     .word ∧ net ≠ 3) → Leads (.gatewayPacket sd site net hdr (⟨d0, ck⟩)) q m (failLater (err m { errOf 2 0x10 0x15 sd with action := 31 }) sd 2)) ∧
  (∀ (sd : Fin 2) (site : Fin 64) (hdr : BitVec 128) (d0 : Word) (q : List Instr) (m : Mach), (∀ s : Fin 2, ∀ j : Fin 8, fon m (nocBase s + 0x20 *
     j) R.NOC_PRBCTL_EN = false) → gwState m sd site = 0 → Leads (.gatewayPacket sd site 3 hdr (⟨d0, .word⟩)) q m ((fun y : Mach => passCount y
     (route sd site hdr.toNat)) (err m { errOf 1 0x11 0x15 sd with poisoned := true, action := 13, addr := hdrAddr hdr.toNat }))) ∧
  (∀ (sd : Fin 2) (t : Fin 4) (bounced again : BitVec 8) (q : List Instr) (m : Mach), uplink m sd t = false →
     Leads (.uplinkFail sd t bounced again) q m (m)) ∧
  (∀ (sd : Fin 2) (t : Fin 4) (bounced again : BitVec 8) (q : List Instr) (m : Mach), uplink m sd t = true → uplink m (1 - sd) t = true →
     sideRuns m (1 - sd) = true → ∃ m', Leads (.uplinkFail sd t bounced again) q m m' ∧ uplink m' sd t = false ∧
     bitOf (fget m' (nocBase sd) R.NOC_STATUS_DETOUR) t = true ∧ m'.net.markers = m.net.markers.filter (fun x => !(x.1 == sd.val && x.2.1 == t.val))
     ∧ m'.ports = m.ports) ∧
  (∀ (sd : Fin 2) (t : Fin 4) (q : List Instr) (m : Mach), uplink m sd t = false → sideRuns m sd = true →
     bitOf (fget m (nocBase sd) R.NOC_STATUS_DETOUR) t = true →
     Leads (.uplinkReturn sd t) q m ((fun y : Mach => { y with net := { y.net with markers := y.net.markers ++ (List.range 15).map (fun v => (sd.val, t.val, v)) } })
     (uplinkPut m sd t true))) ∧
  (∀ (sd : Fin 2) (t : Fin 4) (q : List Instr) (m : Mach), uplink m sd t = false → sideRuns m sd = true →
     bitOf (fget m (nocBase sd) R.NOC_STATUS_DETOUR) t = false → Leads (.uplinkReturn sd t) q m (uplinkPut m sd t true)) ∧
  (∀ (sd : Fin 2) (t : Fin 4) (vn : Fin 15) (q : List Instr) (m : Mach), m.net.markers = [(sd.val, t.val, vn.val)] →
     Leads (.routeMarkerAck sd t vn) q m (count (finc (detourPut { m with net := { m.net with markers := [] } } sd t false) (nocBase sd)
     R.NOC_STATUS_RECONF) (nocBase sd) 0x0A)) ∧
  (∀ (sd : Fin 2) (t : Fin 4) (vn : Fin 15) (w : Nat) (q : List Instr) (m : Mach), m.net.markers = [(sd.val, t.val, vn.val), (sd.val, t.val, w)] →
     w ≠ vn.val → Leads (.routeMarkerAck sd t vn) q m ({ m with net := { m.net with markers := [(sd.val, t.val, w)] } })) ∧
  (∀ (sd : Fin 2) (t : Fin 4) (vn : Fin 15) (q : List Instr) (m : Mach), m.net.markers = [] → Leads (.routeMarkerAck sd t vn) q m (m)) ∧
  (∀ (sd : Fin 2) (r : List Nat) (rest : List (Nat × List Nat)) (q : List Instr) (m : Mach), reach m (nocBase sd + 0x930) = .open_ →
     m.net.trace = (sd.val, r) :: rest → Leads (.nocTradv sd) q m ({ m with net := { m.net with trace := rest } }))

/-- A drained domain is Off with its gateways Off, a cluster Retained and counted; an aborted drain ends On and Open. A domain that is ready is On with
  nothing held. An idle cluster that may sleep drains, not while HOLD is set, and HOLD wakes a sleeping one. Only an east half powers down or up on
  request. A failed selected oscillator is replaced by a good one. An evaluation with too little slack raises the voltage by 5 mV, one above the
  frequency cap steps the frequency down, and the tenth in a row with spare slack steps it up. A stretcher that runs for 1 ms at the lowest frequency
  and the highest voltage fails its side. Samples record and move the steps of sides, tiles and stacks; a second sample at the trip temperature trips
  the side. It says of each of these forms that exec answers a next state, under hypotheses on the state and operands alone: domainDrainEnd,
  domainReady, clusterIdleSleep, phaseFail, oscillatorFail, vfEvaluate, negativeSlack, stretchFault, thermalSample, powerDownRequest, powerUpRequest,
  hold. -/
def Obligations.PowerClocksAndThermalControl : Prop :=
  (∀ (d : Fin 26) (q : List Instr) (m : Mach), domSt m d ≠ 3 → Leads (.domainDrainEnd d) q m (m)) ∧
  (∀ (d : Fin 26) (q : List Instr) (m : Mach), domSt m d = 3 → fon m (8 * d) R.PWR_DOM_ABORT = false → d ≠ 10 ∧ d ≠ 16 → m.net.held = [] →
     ∃ m', Leads (.domainDrainEnd d) q m m' ∧ domSt m' d = 0 ∧ fget m' (8 * d) R.PWR_DOM_MV = 0 ∧ (∀ site ∈ sitesOf 0 d, gwState m' 0 site = 2) ∧
     (∀ site ∈ sitesOf 1 d, gwState m' 1 site = 2)) ∧
  (∀ (d : Fin 26) (q : List Instr) (m : Mach), domSt m d = 3 → fon m (8 * d) R.PWR_DOM_ABORT = false → d = 10 ∨ d = 16 → m.net.held = [] →
     ∃ m', Leads (.domainDrainEnd d) q m m' ∧ domSt m' d = 4 ∧ fget m' (8 * domSide d) R.PWR_SLEEP_SLEEPS = (fget m (8 * domSide d)
     R.PWR_SLEEP_SLEEPS + 1) % 65536 ∧ (∀ site ∈ sitesOf 0 d, gwState m' 0 site = 2) ∧ (∀ site ∈ sitesOf 1 d, gwState m' 1 site = 2)) ∧
  (∀ (d : Fin 26) (q : List Instr) (m : Mach), domSt m d = 3 → fon m (8 * d) R.PWR_DOM_ABORT = true → ∃ m', Leads (.domainDrainEnd d) q m m' ∧
     domSt m' d = 2 ∧ fget m' (8 * d) R.PWR_DOM_ABORT = 0 ∧ fget m' (8 * d) R.PWR_DOM_ABORTS = min 65535 (fget m (8 * d) R.PWR_DOM_ABORTS + 1) ∧
     (∀ site ∈ sitesOf 0 d, gwState m' 0 site = 0) ∧ (∀ site ∈ sitesOf 1 d, gwState m' 1 site = 0)) ∧
  (∀ (d : Fin 26) (q : List Instr) (m : Mach), domSt m d = 1 → ∃ m', Leads (.domainReady d) q m m' ∧ domSt m' d = 2 ∧
     fget m' (8 * d) R.PWR_DOM_UPS = (fget m (8 * d) R.PWR_DOM_UPS + 1) % 65536 ∧ (∀ p ∈ m'.net.held, heldIn d p = false) ∧
     (∀ site ∈ sitesOf 0 d, gwState m' 0 site = 0) ∧ (∀ site ∈ sitesOf 1 d, gwState m' 1 site = 0)) ∧
  (∀ (d : Fin 26) (q : List Instr) (m : Mach), domSt m d ≠ 1 → Leads (.domainReady d) q m (m)) ∧
  (∀ (sd : Fin 2) (q : List Instr) (m : Mach), fon m (8 * sd) R.PWR_SLEEP_EN = true → fon m (8 * sd) R.PWR_SLEEP_HOLD = false →
     clusterIdle m sd = true → domSt m (10 + 6 * sd) = 2 → Leads (.clusterIdleSleep sd) q m (domDrain m (10 + 6 * sd))) ∧
  (∀ (sd : Fin 2) (q : List Instr) (m : Mach), fon m (8 * sd) R.PWR_SLEEP_HOLD = true → Leads (.clusterIdleSleep sd) q m (m)) ∧
  (∀ (sd : Fin 2) (q : List Instr) (m : Mach), domSt m (10 + 6 * sd) = 4 → Leads (.hold sd) q m (domWake (fset m (8 * sd) R.PWR_SLEEP_HOLD 1) (10
     + 6 * sd))) ∧
  (∀ (sd : Fin 2) (q : List Instr) (m : Mach), domSt m (10 + 6 * sd) = 2 → Leads (.hold sd) q m (fset m (8 * sd) R.PWR_SLEEP_HOLD 1)) ∧
  (∀ (d : Fin 26) (q : List Instr) (m : Mach), d = 8 ∨ d = 14 → domSt m d = 2 → levelOf m (domSide d) .east = 1 →
     eastDrained m (domSide d) = true → Leads (.powerDownRequest d) q m (domDrain m d)) ∧
  (∀ (d : Fin 26) (q : List Instr) (m : Mach), d ≠ 8 → d ≠ 14 → Leads (.powerDownRequest d) q m (m)) ∧
  (∀ (d : Fin 26) (q : List Instr) (m : Mach), d = 8 ∨ d = 14 → domSt m d = 0 → levelOf m (domSide d) .east = 3 →
     Leads (.powerUpRequest d) q m (domWake m d)) ∧
  (∀ (d : Fin 26) (q : List Instr) (m : Mach), domSt m d ≠ 0 → domSt m d ≠ 4 → Leads (.powerUpRequest d) q m (m)) ∧
  (∀ (q : List Instr) (m : Mach), Leads .phaseFail q m (finc m aonBase R.PWR_INPUT_PHASEFAIL)) ∧
  (∀ (q : List Instr) (m : Mach), fon m aonBase R.CLK_OSC_OK0 = true → fget m aonBase R.CLK_OSC_SEL = 0 → fon m aonBase R.CLK_OSC_OK1 = true →
     Leads (.oscillatorFail 0) q m (fsat (fset (fset (fset m aonBase R.CLK_OSC_OK0 0) aonBase R.CLK_OSC_FAILED 1) aonBase R.CLK_OSC_SEL 1) aonBase
     R.CLK_OSC_SWITCHES)) ∧
  (∀ (q : List Instr) (m : Mach), fon m aonBase R.CLK_OSC_OK1 = true → fget m aonBase R.CLK_OSC_SEL = 0 →
     Leads (.oscillatorFail 1) q m (fset (fset m aonBase R.CLK_OSC_OK1 0) aonBase R.CLK_OSC_FAILED 1)) ∧
  (∀ (sd : Fin 2) (x : BitVec 8) (q : List Instr) (m : Mach), sideRuns m sd = true → fget m (16 * sd) R.CLK_FAB_FNOW ≤ fcapOf m sd →
     x.toNat < fget m (16 * sd) R.CLK_FAB_SLO → fget m (16 * sd) R.CLK_FAB_VNOW < 900 → ∃ m', Leads (.vfEvaluate sd (some x)) q m m' ∧
     fget m' (16 * sd) R.CLK_FAB_VNOW = fget m (16 * sd) R.CLK_FAB_VNOW + 5 ∧ fget m' (16 * sd) R.CLK_FAB_FNOW = fget m (16 * sd) R.CLK_FAB_FNOW ∧
     fget m' (16 * sd) R.CLK_FAB_FCAP = fcapOf m sd ∧ fget m' (16 * sd) R.CLK_FABSTAT_SLACK = x.toNat ∧ sget 0 m'.pwr.run sd = 0) ∧
  (∀ (sd : Fin 2) (slack : Option (BitVec 8)) (q : List Instr) (m : Mach), sideRuns m sd = true → fcapOf m sd < fget m (16 * sd) R.CLK_FAB_FNOW →
     ∃ m', Leads (.vfEvaluate sd slack) q m m' ∧ fget m' (16 * sd) R.CLK_FAB_FNOW = fget m (16 * sd) R.CLK_FAB_FNOW - 1 ∧
     fget m' (16 * sd) R.CLK_FAB_VNOW = fget m (16 * sd) R.CLK_FAB_VNOW ∧
     fget m' (16 * sd) R.CLK_FABSTAT_STEPS = (fget m (16 * sd) R.CLK_FABSTAT_STEPS + 1) % 2 ^ 32) ∧
  (∀ (sd : Fin 2) (x : BitVec 8) (q : List Instr) (m : Mach), sideRuns m sd = true → fget m (16 * sd) R.CLK_FAB_FNOW < fcapOf m sd →
     fget m (16 * sd) R.CLK_FAB_SLO ≤ x.toNat → fget m (16 * sd) R.CLK_FAB_SHI < x.toNat → sget 0 m.pwr.run sd = 9 →
     ∃ m', Leads (.vfEvaluate sd (some x)) q m m' ∧ fget m' (16 * sd) R.CLK_FAB_FNOW = fget m (16 * sd) R.CLK_FAB_FNOW + 1 ∧
     fget m' (16 * sd) R.CLK_FAB_VNOW = fget m (16 * sd) R.CLK_FAB_VNOW ∧ sget 0 m'.pwr.run sd = 0) ∧
  (∀ (sd : Fin 2) (slack : Option (BitVec 8)) (q : List Instr) (m : Mach), sideRuns m sd = false → Leads (.vfEvaluate sd slack) q m (m)) ∧
  (∀ (sd : Fin 2) (q : List Instr) (m : Mach), sideRuns m sd = true → Leads (.negativeSlack sd) q m (fsat m (16 * sd) R.CLK_FABSTAT_STRETCH)) ∧
  (∀ (sd : Fin 2) (q : List Instr) (m : Mach), sideRuns m sd = false → Leads (.negativeSlack sd) q m (m)) ∧
  (∀ (sd : Fin 2) (kept : Nat) (q : List Instr) (m : Mach), fget m (16 * sd) R.CLK_FAB_FNOW ≠ 28 → Leads (.stretchFault sd kept) q m (m)) ∧
  (∀ (sd : Fin 2) (kept : Nat) (q : List Instr) (m : Mach), sideRuns m sd = true → fget m (16 * sd) R.CLK_FAB_FNOW = 28 →
     fget m (16 * sd) R.CLK_FAB_VNOW = 900 → opMode m = 1 → bothUp m = true → m.twin.returning = none → ∃ m', Leads (.stretchFault sd kept) q m m' ∧
     opMode m' = 2 ∧ fget m' aonBase R.AON_OPMODE_SIDE_UP = 2 ^ (1 - sd.val) ∧ fget m' aonBase R.AON_FOREC_SIDE = sd.val ∧
     fget m' aonBase R.AON_FOREC_CAUSE = 2) ∧
  (∀ (x : Sample) (t : BitVec 8) (q : List Instr) (m : Mach), x.temps = List.replicate 80 t → t.toNat < 95 → sideStepOf m 0 = 0 →
     sideStepOf m 1 = 0 → fget m aonBase R.PWR_TSTAT_TILE = 0 → fget m aonBase R.PWR_TSTAT_STACK = 0 → ∃ m', Leads (.thermalSample x) q m m' ∧
     sideStepOf m' 0 = 0 ∧ sideStepOf m' 1 = 0 ∧ m'.events = m.events ∧ m'.pwr.hot = [] ∧
     m'.pwr.volts = x.volts.map (fun v => (v.1.toNat, v.2.val)) ∧ m'.pwr.rails = x.rails.map (fun r => r.toNat) ∧
     fget m' aonBase R.PWR_INPUT_WATTS = x.watts.toNat) ∧
  (∀ (x : Sample) (t : BitVec 8) (q : List Instr) (m : Mach), x.temps = List.replicate 80 t → 100 ≤ t.toNat → t.toNat < 105 → sideStepOf m 0 = 0 →
     sideStepOf m 1 = 0 → fget m aonBase R.PWR_TSTAT_TILE = 0 → fget m aonBase R.PWR_TSTAT_STACK = 0 → ∃ m', Leads (.thermalSample x) q m m' ∧
     sideStepOf m' 0 = 2 ∧ sideStepOf m' 1 = 2 ∧ (∀ i : Fin 4, tileStepOf m' i = 1) ∧ (∀ k : Fin 8, stackStepOf m' k = 1) ∧ m'.pwr.hot = []) ∧
  (∀ (x : Sample) (t : BitVec 8) (q : List Instr) (m : Mach), x.temps = List.replicate 80 t → 120 ≤ t.toNat → m.pwr.hot = [0] →
     sideStepOf m 0 = 0 → sideStepOf m 1 = 0 → fget m aonBase R.PWR_TSTAT_TILE = 0 → fget m aonBase R.PWR_TSTAT_STACK = 0 →
     ∃ m', Leads (.thermalSample x) q m m' ∧ sideStepOf m' 0 = 7 ∧ sideStepOf m' 1 = 3 ∧ m'.fails = m.fails ++ [(0, 2)] ∧ m'.pwr.hot = List.range 14)

/-- Power-on begins a cold start with cause 1; MRST# held low begins a cold reset that its release ends with cause 3, and a pulse of at least 10 us is a
  warm reset with cause 2. A start that runs past its time is a warm reset with cause 8. A complete start gives Normal mode with both sides up, or
  Single-side mode, and clears the count of failed starts. A returning side that fails its test ends the reintegration with result 3; one that passes
  takes the placement copy and opens the bridge. A finished commit writes its slot when the readback is valid. The loss of one feed is recorded; the
  loss of both begins the hold-up, whose end is the loss of PD0 and PD1. Spillway entry ends in Spillway mode, a warm reset with cause 4 or Recovery
  mode, as was asked. RST_CTL begins resets with causes 4, 5, 6 and 10. It says of each of these forms that exec answers a next state, under
  hypotheses on the state and operands alone: powerOn, mrstRelease, mrstHeld, startTimeout, startRunning, sideStart, settingsCommitComplete,
  feedPresent, feedLost, holdUpEnd, spillwayEntryComplete, orderlyModuleWarmReset, immediateModuleWarmReset, coldResetRequest, recoveryExit, clr. -/
def Obligations.ResetsStartsAndFeeds : Prop :=
  (∀ (feed : Fin 2) (env : StartEnv) (q : List Instr) (m : Mach), m.boot.power = false →
     Leads (.powerOn feed env) q m (moduleStart (coldReset (fset m (8 * feed) R.PWR_FEED_PRESENT 1)) env 1 true)) ∧
  (∀ (feed : Fin 2) (env : StartEnv) (q : List Instr) (m : Mach), m.boot.power = true → Leads (.powerOn feed env) q m (m)) ∧
  (∀ (us : Nat) (env : StartEnv) (q : List Instr) (m : Mach), m.boot.held = true → Leads (.mrstRelease us env) q m (moduleStart m env 3 true)) ∧
  (∀ (us : Nat) (env : StartEnv) (q : List Instr) (m : Mach), m.boot.held = false → m.boot.power = true → m.boot.holdUp = false → 10 ≤ us →
     us < 5000000 → Leads (.mrstRelease us env) q m (warmReset m env 2)) ∧
  (∀ (us : Nat) (env : StartEnv) (q : List Instr) (m : Mach), m.boot.held = false → us < 10 → Leads (.mrstRelease us env) q m (m)) ∧
  (∀ (q : List Instr) (m : Mach), m.boot.power = true → m.boot.held = false → m.boot.holdUp = false →
     Leads .mrstHeld q m ((fun y : Mach => { y with boot := { y.boot with power := true, held := true } }) (coldReset m))) ∧
  (∀ (env : StartEnv) (q : List Instr) (m : Mach), m.boot.timing = true → opMode m = 0 → m.boot.holdUp = false →
     Leads (.startTimeout env) q m (warmReset m env 8)) ∧
  (∀ (env : StartEnv) (q : List Instr) (m : Mach), opMode m ≠ 0 → Leads (.startTimeout env) q m (m)) ∧
  (∀ (q : List Instr) (m : Mach), opMode m = 0 → m.boot.timing = true → fon m aonBase R.AON_LOAD_DONE = true → m.boot.bad = 0 →
     waitsMem m 0 = false → ∃ m', Leads .startRunning q m m' ∧ opMode m' = 1 ∧ bothUp m' = true ∧ fget m' aonBase R.AON_OPMODE_CAUSE = 0 ∧
     fget m' (twnBase 0) R.TWN_LOG_STATE = 1 ∧ fget m' (twnBase 1) R.TWN_LOG_STATE = 1 ∧ fget m' aonBase R.AON_FS_COUNT_COUNT = 0 ∧
     m'.boot.timing = false) ∧
  (∀ (q : List Instr) (m : Mach), opMode m = 0 → m.boot.timing = true → fon m aonBase R.AON_LOAD_DONE = true → m.boot.bad = 1 →
     waitsMem m 1 = false → ∃ m', Leads .startRunning q m m' ∧ opMode m' = 2 ∧ fget m' aonBase R.AON_OPMODE_SIDE_UP = 2 ∧
     fget m' aonBase R.AON_FS_COUNT_COUNT = 0 ∧ m'.boot.timing = false) ∧
  (∀ (q : List Instr) (m : Mach), m.boot.timing = false → Leads .startRunning q m (m)) ∧
  (∀ (sd : Fin 2) (stk : BitVec 4) (t : Nat) (q : List Instr) (m : Mach), m.twin.returning = some sd.val → t = 1 - sd.val →
     fget m (twnBase t) R.TWN_REINT_STEP = 1 → ∃ m', Leads (.sideStart sd false stk) q m m' ∧ m'.twin.returning = none ∧
     fget m' aonBase R.AON_OPMODE_REINTEG = 0 ∧ fget m' (twnBase t) R.TWN_REINT_STEP = 0 ∧ (fon m aonBase R.AON_MODECTL_BUSY = true →
     fget m' aonBase R.AON_MODECTL_RESULT = 3 ∧ fget m' aonBase R.AON_MODECTL_BUSY = 0)) ∧
  (∀ (sd : Fin 2) (t : Nat) (q : List Instr) (m : Mach), m.twin.returning = some sd.val → t = 1 - sd.val →
     fget m (twnBase t) R.TWN_REINT_STEP = 1 → ∃ m', Leads (.sideStart sd true 15) q m m' ∧ m'.comp.plc = (copyPlc m t sd).comp.plc ∧
     fget m' (brgBase t) R.BRG_STATUS_UP = 1 ∧ fget m' (brgBase sd) R.BRG_STATUS_UP = 1 ∧ fget m' (twnBase t) R.TWN_REINT_STEP = 2) ∧
  (∀ (sd : Fin 2) (ok : Bool) (stk : BitVec 4) (q : List Instr) (m : Mach), m.twin.returning = none → Leads (.sideStart sd ok stk) q m (m)) ∧
  (∀ (c : CommitOp) (q : List Instr) (m : Mach), m.boot.commit = some c → ∃ m', Leads (.settingsCommitComplete true) q m m' ∧
     m'.boot.commit = none ∧ m'.flash.slots = mput m.flash.slots c.slot c.img ∧ fget m' (8 * c.slot) R.AON_SETIMG_WRITING = 0) ∧
  (∀ (c : CommitOp) (q : List Instr) (m : Mach), m.boot.commit = some c → ∃ m', Leads (.settingsCommitComplete false) q m m' ∧
     m'.boot.commit = none ∧ m'.flash.slots = m.flash.slots ∧ fget m' (8 * c.slot) R.AON_SETIMG_WRITING = 0) ∧
  (∀ (ok : Bool) (q : List Instr) (m : Mach), m.boot.commit = none → Leads (.settingsCommitComplete ok) q m (m)) ∧
  (∀ (feed : Fin 2) (env : StartEnv) (q : List Instr) (m : Mach), m.boot.power = true → m.boot.holdUp = true →
     Leads (.feedPresent feed env) q m (warmReset (fset m (8 * feed) R.PWR_FEED_PRESENT 1) env 9)) ∧
  (∀ (feed : Fin 2) (env : StartEnv) (q : List Instr) (m : Mach), m.boot.power = true → m.boot.holdUp = false →
     Leads (.feedPresent feed env) q m (fset m (8 * feed) R.PWR_FEED_PRESENT 1)) ∧
  (∀ (feed : Fin 2) (q : List Instr) (m : Mach), fon m (8 * feed) R.PWR_FEED_PRESENT = true →
     fon m (8 * (1 - feed.val)) R.PWR_FEED_PRESENT = true → Leads (.feedLost feed) q m (eventRecord (fsat (fset (fset m (8 * feed)
     R.PWR_FEED_PRESENT 0) (8 * feed) R.PWR_FEED_LOST 1) (8 * feed) R.PWR_FEED_LOSSES) 2 0 1 feed 0 [])) ∧
  (∀ (feed : Fin 2) (q : List Instr) (m : Mach), fon m (8 * feed) R.PWR_FEED_PRESENT = true →
     fon m (8 * (1 - feed.val)) R.PWR_FEED_PRESENT = false →
     Leads (.feedLost feed) q m ((fun y : Mach => { y with boot := { y.boot with holdUp := true } }) (logFlush (loseDomains (startFailed
     (eventRecord (fsat (fset (fset m (8 * feed) R.PWR_FEED_PRESENT 0) (8 * feed) R.PWR_FEED_LOST 1) (8 * feed) R.PWR_FEED_LOSSES) 2 0 1 feed 0
     [])))))) ∧
  (∀ (feed : Fin 2) (q : List Instr) (m : Mach), fon m (8 * feed) R.PWR_FEED_PRESENT = false → Leads (.feedLost feed) q m (m)) ∧
  (∀ (q : List Instr) (m : Mach), m.boot.holdUp = true → Leads .holdUpEnd q m (coldClear m)) ∧
  (∀ (q : List Instr) (m : Mach), m.boot.holdUp = false → Leads .holdUpEnd q m (m)) ∧
  (∀ (env : StartEnv) (q : List Instr) (m : Mach), spillDone m = false → Leads (.spillwayEntryComplete env) q m (m)) ∧
  (∀ (env : StartEnv) (q : List Instr) (m : Mach), spillDone m = true → m.boot.toRecovery = false → m.boot.orderly = false →
     ∃ m', Leads (.spillwayEntryComplete env) q m m' ∧ opMode m' = 3 ∧ fget m' aonBase R.AON_OPMODE_CAUSE = 2 ∧
     (∀ s ∈ upSides m, fget m' (twnBase s) R.TWN_LOG_STATE = 0 ∧ ∀ k < 2 ^ 31, slotAt m' s k = none)) ∧
  (∀ (env : StartEnv) (q : List Instr) (m : Mach), spillDone m = true → m.boot.toRecovery = false → m.boot.orderly = true →
     Leads (.spillwayEntryComplete env) q m (warmReset (modeEnd (spillEnter m) 0) env 4)) ∧
  (∀ (env : StartEnv) (q : List Instr) (m : Mach), spillDone m = true → m.boot.toRecovery = true → m.boot.orderly = false →
     Leads (.spillwayEntryComplete env) q m (enterRecovery (spillEnter m) 2)) ∧
  (∀ (env : StartEnv) (q : List Instr) (m : Mach), m.boot.power = true → fon m aonBase R.RST_CTL_BUSY = false → opMode m = 1 →
     m.twin.returning = none → m.twin.stopping = none → m.twin.entering = false →
     Leads (.orderlyModuleWarmReset env) q m (spillBegin (fset { m with boot := { m.boot with orderly := true } } aonBase R.RST_CTL_BUSY 1))) ∧
  (∀ (env : StartEnv) (q : List Instr) (m : Mach), m.boot.power = true → fon m aonBase R.RST_CTL_BUSY = false → opMode m = 3 →
     Leads (.orderlyModuleWarmReset env) q m (warmReset m env 4)) ∧
  (∀ (env : StartEnv) (q : List Instr) (m : Mach), m.boot.power = true → fon m aonBase R.RST_CTL_BUSY = false →
     Leads (.immediateModuleWarmReset env) q m (warmReset m env 5)) ∧
  (∀ (env : StartEnv) (q : List Instr) (m : Mach), m.boot.power = true → fon m aonBase R.RST_CTL_BUSY = true →
     Leads (.immediateModuleWarmReset env) q m (m)) ∧
  (∀ (env : StartEnv) (q : List Instr) (m : Mach), m.boot.power = true → fon m aonBase R.RST_CTL_BUSY = false →
     Leads (.coldResetRequest env) q m (moduleStart (coldReset m) env 6 true)) ∧
  (∀ (env : StartEnv) (q : List Instr) (m : Mach), m.boot.power = true → fon m aonBase R.RST_CTL_BUSY = false → opMode m ≠ 4 →
     Leads (.recoveryExit env) q m (reject m aonBase 2 0x130)) ∧
  (∀ (env : StartEnv) (q : List Instr) (m : Mach), m.boot.power = true → fon m aonBase R.RST_CTL_BUSY = false → opMode m = 4 →
     Leads (.recoveryExit env) q m (warmReset ((fun y : Mach => { y with boot := { y.boot with next := some (fget y aonBase R.RST_CTL_BOOT) } })
     (fset m aonBase R.AON_FS_COUNT_COUNT 0)) env 10)) ∧
  (∀ (q : List Instr) (m : Mach), Leads .clr q m (fset m aonBase R.AON_FS_COUNT_COUNT 0))

/-- A warm reset empties the home slices, the Reservoirs, the tailwater buffers, the twin logs, the composition, the engines, the loops and the network,
  gives OPMODE its reset value and keeps the flash, the firmware and the time. The loss of PD0 and PD1 leaves the reset state but for the flash, the
  persistent ring, and the registers that no reset changes. Every module-level reset records its cause and whether it was cold. -/
def Obligations.WhatResetsLeave : Prop :=
  (∀ m : Mach, (warmClear m).home = Home.reset ∧ (warmClear m).rsv = Rsv.reset ∧ (warmClear m).tw = [] ∧ (warmClear m).twIn = [] ∧
    (warmClear m).twin = Twin.reset ∧ (warmClear m).comp = Compose.reset ∧ (warmClear m).eng = Engines.reset ∧
    (warmClear m).loops = Loops.reset ∧ (warmClear m).net = Net.reset ∧ (warmClear m).flash = m.flash ∧
    (warmClear m).timeUs = m.timeUs ∧ opMode (warmClear m) = 0) ∧
  (∀ m : Mach, (coldClear m).home = Home.reset ∧ (coldClear m).rsv = Rsv.reset ∧ (coldClear m).eng = Engines.reset ∧
    (coldClear m).ports = Mach.reset.ports ∧ (coldClear m).mgmt = Mach.reset.mgmt ∧ (coldClear m).boot = Mach.reset.boot ∧
    (coldClear m).flash = m.flash ∧ (coldClear m).log = { Log.reset with pers := m.log.pers } ∧
    fget (coldClear m) aonBase R.AON_FS_COUNT_COUNT = fget m aonBase R.AON_FS_COUNT_COUNT ∧ opMode (coldClear m) = 0) ∧
  (∀ (m : Mach) (c : Nat) (cold : Bool), fget (resetCause m c cold) aonBase R.AON_RST_CAUSE_CAUSE = c % 16 ∧
    fget (resetCause m c cold) aonBase R.AON_RST_CAUSE_COLD = b2n cold)

/-- With no injection pending: a good location only moves the progress; an uncorrectable Clean slot is made Invalid, a Dirty one asks its twin for the
  image; an uncorrectable Headgate tag loses its way and starts a search; a corrected word is counted against its location. A window with many
  corrected errors raises the multiplier, one with few lowers it. A set that nothing gives back is listed and its lines are swept one by one; after
  the last the slot frees. A complete scan ends its oldest target, putting the image of a staged copy back as a dirty line where the target lost it. A
  refresh twins every dirty line again and its end takes the count of copies. A retwin request twins the dirty copy again or releases the line. It
  says of each of these forms that exec answers a next state, under hypotheses on the state and operands alone: twinSearchComplete, twinRefresh,
  twinRefreshComplete, retwinRequest, lostSetSweep, lostSetSweepEnd, scrubRead, scrubWindowEnd. -/
def Obligations.ScrubbingSearchesAndLostSets : Prop :=
  (∀ (ck : Check) (pct : Fin 101) (sd : Fin 2) (i : BitVec 31) (q : List Instr) (m : Mach), sideUp m sd = false →
     Leads (.scrubRead (.slot sd i) ck pct) q m (m)) ∧
  (∀ (pct : Fin 101) (sd : Fin 2) (i : BitVec 31) (q : List Instr) (m : Mach), sideUp m sd = true → fon m (32 * sd) R.ERR_SCRUB_EN = true →
     m.ras.injected = [] → pct ≠ 100 → Leads (.scrubRead (.slot sd i) .good pct) q m (fset (m) (32 * sd) R.ERR_SCRSTAT_PCT pct)) ∧
  (∀ (pct : Fin 101) (sd : Fin 2) (i : BitVec 31) (s : Slot) (l : Nat) (q : List Instr) (m : Mach), sideUp m sd = true →
     fon m (32 * sd) R.ERR_SCRUB_EN = true → m.ras.injected = [] → pct ≠ 100 → slotAt m sd i.toNat = some s → s.st = .clean →
     l = plnOf m sd (slotLine m sd i.toNat s) → Leads (.scrubRead (.slot sd i) .bad pct) q m (fset (err (setSlot m sd i.toNat none)
     { slotErr 0 sd i.toNat l with repaired := true, action := 1, found := 1 }) (32 * sd) R.ERR_SCRSTAT_PCT pct)) ∧
  (∀ (pct : Fin 101) (sd : Fin 2) (i : BitVec 31) (s : Slot) (l : Nat) (q : List Instr) (m : Mach), sideUp m sd = true →
     fon m (32 * sd) R.ERR_SCRUB_EN = true → m.ras.injected = [] → pct ≠ 100 → slotAt m sd i.toNat = some s → s.st = .dirty →
     l = plnOf m sd (slotLine m sd i.toNat s) → repairHeld m l = false → twinned m l = true →
     Leads (.scrubRead (.slot sd i) .bad pct) q m (fset (streamPut m (homeSlice m l) (.lookup l (.slot sd i.toNat))) (32 * sd) R.ERR_SCRSTAT_PCT
     pct)) ∧
  (∀ (pct : Fin 101) (h : Fin 64) (s : Fin 3072) (w : Fin 16) (q : List Instr) (m : Mach), sideUp m (h / 32) = true →
     fon m (32 * (h / 32)) R.ERR_SCRUB_EN = true → m.ras.injected = [] → twinSide m (h / 32) = true →
     (openTargets m).contains (.hgSet h s) = false → Leads (.scrubRead (.hgTag h s w) .bad pct) q m (err (streamPut
     { m with home := { m.home with hg := mdel m.home.hg (hgKey h s w) } } h (.search (.hgSet h s)))
     { errOf 0 0x02 0x10 h with loc := sramLoc s w 0, found := 1, repaired := true, action := 10 })) ∧
  (∀ (pct : Fin 101) (h : Fin 64) (s : Fin 3072) (w : Fin 16) (cw : Fin 8) (q : List Instr) (m : Mach), sideUp m (h / 32) = true →
     fon m (32 * (h / 32)) R.ERR_SCRUB_EN = true → m.ras.injected = [] → m.ras.track = [] → m.ras.hard = [] →
     1 < fget m (32 * (h / 32)) R.ERR_SCRUB_REPEAT → ∃ m', Leads (.scrubRead (.hgWord h s w) (.corrected cw false) pct) q m m' ∧
     m'.ras.track = [(1, h.val, hgKey h s w * 8 + cw, 1)] ∧ m'.ras.ceWin = sset 0 m.ras.ceWin (h / 32) (sget 0 m.ras.ceWin (h / 32) + 1) ∧
     m'.home = m.home) ∧
  (∀ (sd : Fin 2) (n : Nat) (q : List Instr) (m : Mach), n = sget 0 m.ras.ceWin sd → fget m (32 * sd) R.ERR_SCRUB_CEHI < n →
     ∃ m', Leads (.scrubWindowEnd sd) q m m' ∧ fget m' (32 * sd) R.ERR_SCRSTAT_MLOG = min (fget m (32 * sd) R.ERR_SCRSTAT_MLOG + 1) (fget m (32 *
     sd) R.ERR_SCRUB_MULTMAX) ∧ fget m' (32 * sd) R.ERR_SCRSTAT_CELAST = min n 65535 ∧ sget 0 m'.ras.ceWin sd = 0) ∧
  (∀ (sd : Fin 2) (n : Nat) (q : List Instr) (m : Mach), n = sget 0 m.ras.ceWin sd → n < fget m (32 * sd) R.ERR_SCRUB_CELO →
     n ≤ fget m (32 * sd) R.ERR_SCRUB_CEHI → ∃ m', Leads (.scrubWindowEnd sd) q m m' ∧
     fget m' (32 * sd) R.ERR_SCRSTAT_MLOG = min (fget m (32 * sd) R.ERR_SCRSTAT_MLOG - 1) (fget m (32 * sd) R.ERR_SCRUB_MULTMAX) ∧
     fget m' (32 * sd) R.ERR_SCRSTAT_CELAST = min n 65535) ∧
  (∀ (half : Fin 2) (set : BitVec 26) (q : List Instr) (m : Mach), m.home.lostSets = [] →
     sideUp m (servingSide m (plnOf m half set.toNat)) = true → twinned m (plnOf m half set.toNat) = false →
     Leads (.lostSetSweep half set) q m (lostSetPut m half set.toNat 0)) ∧
  (∀ (half : Fin 2) (set : BitVec 26) (n l : Nat) (q : List Instr) (m : Mach), m.home.lostSets = [⟨half, set.toNat, n⟩] → n < 32768 →
     l = plnOf m half (n * 2 ^ 26 + set.toNat) → (attrOf m l).priv = true →
     Leads (.lostSetSweep half set) q m ({ m with home := { m.home with lostSets := [⟨half, set.toNat, n + 1⟩] } })) ∧
  (∀ (half : Fin 2) (set : BitVec 26) (n l p : Nat) (ps : List Nat) (q : List Instr) (m : Mach), m.home.lostSets = [⟨half, set.toNat, n⟩] →
     n < 32768 → l = plnOf m half (n * 2 ^ 26 + set.toNat) → (attrOf m l).priv = false → (attrOf m l).covered = true →
     ((List.range 32).filter fun p => bitOf (attrOf m l).ports p && roleOf m p == 1 && !bitOf (lostMask m (homeSlice m l)) p) = p :: ps →
     lineOpen m (homeSlice m l) l = false → m.home.recalls = [] →
     Leads (.lostSetSweep half set) q m (snoopAll { m with home := { m.home with recalls := [⟨homeSlice m l, dirKey half set.toNat 0, l, p :: ps, [], l⟩], lostSets := [⟨half, set.toNat, n + 1⟩] } }
     (homeSlice m l) l .inv (p :: ps))) ∧
  (∀ (half : Fin 2) (set : BitVec 26) (q : List Instr) (m : Mach), m.home.lostSets = [⟨half, set.toNat, 32768⟩] →
     Leads (.lostSetSweep half set) q m (m)) ∧
  (∀ (half : Fin 2) (set : BitVec 26) (q : List Instr) (m : Mach), m.home.recalls = [] → m.home.lostSets = [⟨half, set.toNat, 32768⟩] →
     Leads (.lostSetSweepEnd half set) q m ({ m with home := { m.home with lostSets := [] } })) ∧
  (∀ (sd : Fin 2) (i : Nat) (rest : List Target) (q : List Instr) (m : Mach), m.ras.targets = .slot sd i :: rest → twinLines m sd = [] →
     Leads (.twinSearchComplete sd) q m ({ m with ras := { m.ras with targets := rest } })) ∧
  (∀ (sd : Fin 2) (h k : Nat) (rest : List Target) (l : Nat) (img : Img) (w : Nat) (q : List Instr) (m : Mach), m.ras.targets = .hgSet h k :: rest
     → h / 32 = sd.val → m.twin.staged = [⟨1 - sd, l, img, false⟩] → m.twin.recs = [] → inTarget m l (.hgSet h k) = true →
     dirtyAtHome m (homeSlice m l) l = false → m.tw = [] → ((List.range 16).find? fun w => (mget m.home.hg (hgKey h k w)).isNone && wayEligible m h
     k w) = some w → Leads (.twinSearchComplete sd) q m
     ({ m with home := { m.home with hg := mput m.home.hg (hgKey h k w) ⟨hgTag (lineL l), true, false, img⟩ }, ras := { m.ras with targets := rest } })) ∧
  (∀ (sd : Fin 2) (l : Nat) (img : Img) (q : List Instr) (m : Mach), m.twin.refresh = [sd.val] → dirtyLines m sd = [l] →
     newestDirty m (homeSlice m l) l = some img → twinned m l = true →
     Leads (.twinRefresh sd) q m ((fun y : Mach => { y with twin := { y.twin with refresh := [sd.val + 2] } }) (streamPut m (homeSlice m l)
     (.twinWrite l img false .none)))) ∧
  (∀ (sd : Fin 2) (q : List Instr) (m : Mach), m.twin.refresh = [] → Leads (.twinRefresh sd) q m (m)) ∧
  (∀ (sd : Fin 2) (q : List Instr) (m : Mach), m.twin.refresh = [sd.val + 2] → m.twin.stream = [] → m.twin.acks = [] → m.twin.relAcks = [] →
     Leads (.twinRefreshComplete sd) q m (forcedCheck (fset { m with twin := { m.twin with refresh := [] } } (twnBase sd) R.TWN_GAUGE_LINES
     (twinLines m sd).length) sd)) ∧
  (∀ (h : Fin 64) (l : Nat) (rest : List HomeNote) (img : Img) (q : List Instr) (m : Mach), m.home.notes = .retwin h l :: rest →
     twinned m l = true → newestDirty m h l = some img → Leads (.retwinRequest h) q m (streamPut { m with home := { m.home with notes := rest } } h
     (.twinWrite l img false .none))) ∧
  (∀ (h : Fin 64) (l : Nat) (rest : List HomeNote) (q : List Instr) (m : Mach), m.home.notes = .retwin h l :: rest → twinned m l = true →
     newestDirty m h l = none → m.tw = [] → Leads (.retwinRequest h) q m (streamPut { m with home := { m.home with notes := rest } } h (.release l)))

/-- A write of ERR_AREMAP takes its fields; while one runs it begins nothing, else results 5, 4 and 3 stand for a side that is down, a row below 32768
  and a row in use, and otherwise the remap runs, and its end installs the entry with a trim record. A spare page of a bank that may be written is
  mapped and holds no program. A stack of a stopped side is retired with its domain off and a trim record; result 2 stands for one retired already and
  1 for a side that serves. The oldest record that waits is written to both trim copies. Presets that differ from the stored ones are recorded once.
  ARM sets its bit. It says of each of these forms that exec answers a next state, under hypotheses on the state and operands alone: areaRemap,
  areaRemapComplete, errPsmapWrite, stackRetire, trimRecordAppend, learnedPresetCapture, arm. -/
def Obligations.RetirementTrimAndInjection : Prop :=
  (∀ (k : Fin 8) (pc : Fin 32) (bank : Fin 16) (row : BitVec 16) (q : List Instr) (m : Mach), fon m aonBase R.ERR_AREMAP_BUSY = true →
     Leads (.areaRemap k pc bank row) q m ((fset (fset (fset (fset m aonBase R.ERR_AREMAP_CTL k) aonBase R.ERR_AREMAP_PC pc) aonBase
     R.ERR_AREMAP_BANK bank) aonBase R.ERR_AREMAP_ROW row.toNat))) ∧
  (∀ (k : Fin 8) (pc : Fin 32) (bank : Fin 16) (row : BitVec 16) (q : List Instr) (m : Mach), fon m aonBase R.ERR_AREMAP_BUSY = false →
     sideUp m (k / 4) = false → Leads (.areaRemap k pc bank row) q m (areaEnd (fset (fset (fset (fset m aonBase R.ERR_AREMAP_CTL k) aonBase
     R.ERR_AREMAP_PC pc) aonBase R.ERR_AREMAP_BANK bank) aonBase R.ERR_AREMAP_ROW row.toNat) 5)) ∧
  (∀ (k : Fin 8) (pc : Fin 32) (bank : Fin 16) (row : BitVec 16) (q : List Instr) (m : Mach), fon m aonBase R.ERR_AREMAP_BUSY = false →
     sideUp m (k / 4) = true → row.toNat < 32768 → Leads (.areaRemap k pc bank row) q m (areaEnd (fset (fset (fset (fset m aonBase R.ERR_AREMAP_CTL
     k) aonBase R.ERR_AREMAP_PC pc) aonBase R.ERR_AREMAP_BANK bank) aonBase R.ERR_AREMAP_ROW row.toNat) 4)) ∧
  (∀ (k : Fin 8) (pc : Fin 32) (bank : Fin 16) (row : BitVec 16) (q : List Instr) (m : Mach), fon m aonBase R.ERR_AREMAP_BUSY = false →
     sideUp m (k / 4) = true → 32768 ≤ row.toNat → m.ras.area = [⟨k, pc, bank, row.toNat⟩] →
     Leads (.areaRemap k pc bank row) q m (areaEnd (fset (fset (fset (fset m aonBase R.ERR_AREMAP_CTL k) aonBase R.ERR_AREMAP_PC pc) aonBase
     R.ERR_AREMAP_BANK bank) aonBase R.ERR_AREMAP_ROW row.toNat) 3)) ∧
  (∀ (k : Fin 8) (pc : Fin 32) (bank : Fin 16) (row : BitVec 16) (q : List Instr) (m : Mach), fon m aonBase R.ERR_AREMAP_BUSY = false →
     sideUp m (k / 4) = true → 32768 ≤ row.toNat → m.ras.area = [] → sparesUsed m k pc < 13312 →
     Leads (.areaRemap k pc bank row) q m (fset ((fun y : Mach => { y with ras := { y.ras with areaRun := some ⟨k, pc, bank, row.toNat⟩ } }) (fset
     (fset (fset (fset m aonBase R.ERR_AREMAP_CTL k) aonBase R.ERR_AREMAP_PC pc) aonBase R.ERR_AREMAP_BANK bank) aonBase R.ERR_AREMAP_ROW
     row.toNat)) aonBase R.ERR_AREMAP_BUSY 1)) ∧
  (∀ (r : Row) (q : List Instr) (m : Mach), m.ras.areaRun = some r → sideUp m (r.k / 4) = true →
     Leads (.areaRemapComplete ([])) q m (areaEnd { m with ras := { m.ras with area := m.ras.area ++ [r], pend := m.ras.pend ++ [.area r] }, rsv := { m.rsv with spares := sset 0 m.rsv.spares (r.k * 32 + r.pc) (sparesUsed m r.k r.pc + 1) } }
     0)) ∧
  (∀ (bad : List (Loc × Bool)) (q : List Instr) (m : Mach), m.ras.areaRun = none → Leads (.areaRemapComplete bad) q m (m)) ∧
  (∀ (sd b : Fin 2) (i : Fin 8) (page : BitVec 8) (v : Bool) (q : List Instr) (m : Mach), progOpen m sd b = true →
     Leads (.errPsmapWrite sd b i page v) q m ((fun y : Mach =>
     { y with eng := { y.eng with prog := mdrop y.eng.prog fun x => x / 1024 == 8 * (2 * sd.val + b) + i + 1024 } }) (fset (fset m (0x80 * sd + 0x40
     * b + 8 * i) R.ERR_PSMAP_PAGE page.toNat) (0x80 * sd + 0x40 * b + 8 * i) R.ERR_PSMAP_V (b2n v)))) ∧
  (∀ (sd b : Fin 2) (i : Fin 8) (page : BitVec 8) (v : Bool) (q : List Instr) (m : Mach), progOpen m sd b = false →
     Leads (.errPsmapWrite sd b i page v) q m (m)) ∧
  (∀ (k : Fin 8) (q : List Instr) (m : Mach), stackRetired m k = true → Leads (.stackRetire k) q m (fset (fset m aonBase R.ERR_STKRET_STACK k)
     aonBase R.ERR_STKRET_RESULT 2)) ∧
  (∀ (k : Fin 8) (q : List Instr) (m : Mach), stackRetired m k = false → sideUp m (k / 4) = true →
     Leads (.stackRetire k) q m (fset (fset m aonBase R.ERR_STKRET_STACK k) aonBase R.ERR_STKRET_RESULT 1)) ∧
  (∀ (k : Fin 8) (q : List Instr) (m : Mach), stackRetired m k = false → opMode m = 2 → sideUp m (k / 4) = false → m.twin.returning = none →
     ∃ m', Leads (.stackRetire k) q m m' ∧ stackRetired m' k = true ∧ domSt m' (18 + k) = 0 ∧ rsvState m' k = 0 ∧
     fget m' aonBase R.ERR_STKRET_RESULT = 0 ∧ m'.ras.pend = m.ras.pend ++ [.stack k]) ∧
  (∀ (r : TrimRec) (rest : List TrimRec) (q : List Instr) (m : Mach), m.ras.pend = r :: rest → ditchRuns m = true →
     Leads .trimRecordAppend q m (count
     { m with ras := { m.ras with pend := rest }, flash := { m.flash with trim := m.flash.trim ++ [⟨r, true, true⟩] } } mgtBase 3)) ∧
  (∀ (q : List Instr) (m : Mach), m.ras.pend = [] → Leads .trimRecordAppend q m (m)) ∧
  (∀ (p : Fin 32) (v : BitVec 128) (q : List Instr) (m : Mach), linkUp m p = true → fget m (ptBase p) R.PT_LINK_RATE = 6 → m.flash.trim = [] →
     m.ras.pend = [] → Leads (.learnedPresetCapture p v) q m ({ m with ras := { m.ras with pend := [.presets p v.toNat] } })) ∧
  (∀ (p : Fin 32) (v : BitVec 128) (q : List Instr) (m : Mach), m.flash.trim = [] → m.ras.pend = [.presets p v.toNat] →
     Leads (.learnedPresetCapture p v) q m (m)) ∧
  (∀ (q : List Instr) (m : Mach), Leads .arm q m (fset m aonBase R.ERR_INJ_ARM 1))

/-- While there is power a tick advances the time by its own length (TICK as it stood when the tick began) and the tick number, ends the tick of a
  counter whose domain runs, taking its snapshot and applying what was written, and issues a record for the selected block when the ring runs and the
  pool serves; it is counted as LOST where the ring is full in MODE 0, and as SKIPPED where no side serves the pool. A record whose two lines are
  complete advances WP. RING_ENABLE writes its fields, but keeps SIZELOG and is recorded as refused with CAUSE 2 where the size is outside 6 to 24;
  from EN 0 the settings take effect and the ring is emptied, and from EN 1 only the register is written. A sample of a source that is due joins the
  buffer with the next sequence number, or is counted as lost when 4,096 wait. CNT_SADV removes the oldest. It says of each of these forms that exec
  answers a next state, under hypotheses on the state and operands alone: counterTick, ringRecordComplete, ringEnable, sampleTaken, cntSadv. -/
def Obligations.CountersRingAndSamples : Prop :=
  (∀ (q : List Instr) (m : Mach), m.boot.power = false → Leads .counterTick q m (m)) ∧
  (∀ (q : List Instr) (m : Mach), m.boot.power = true → m.cnts = [] → fon m cntBase R.CNT_RCTL_EN = false →
     Leads .counterTick q m ((fset (finc { m with timeUs := (m.timeUs + m.col.interval), col := { m.col with interval := fget m cntBase R.CNT_CTL_TICK } }
     cntBase R.CNT_SEQ_SEQ) cntBase R.CNT_SEQ_TIME (m.timeUs + m.col.interval)))) ∧
  (∀ (base k : Nat) (c : Cnt) (q : List Instr) (m : Mach), m.boot.power = true → m.cnts = [(base * 8 + k, c)] → k < 8 → base ≠ cntBase →
     cntHeld m base = false → c.seen = false → fon m cntBase R.CNT_RCTL_EN = false → ∃ m', Leads .counterTick q m m' ∧
     m'.timeUs = (m.timeUs + m.col.interval) ∧ cntOf m' base k = c.tick (fget m (base + 8 * k) R.CNTCFG_EVENT) (fon m (base + 8 * k) R.CNTCFG_EDGE)
     (fon m (base + 8 * k) R.CNTCFG_EN)) ∧
  (∀ (q : List Instr) (m : Mach), m.boot.power = true → m.cnts = [] → fon m cntBase R.CNT_RCTL_EN = true → m.col.mode = true → poolOff m = false →
     (∀ j < 64, fon m (cntBase + 8 * j) R.CNT_RSEL_V = (j == 0)) → (blkAt (fget m cntBase R.CNT_RSEL_BASE * 4096)).isSome = true →
     ∃ m' r, Leads .counterTick q m m' ∧ m'.col.ring = m.col.ring ++ [r] ∧ r.i = m.nextId ∧
     r.pln = (m.col.base + 128 * (m.col.next % 2 ^ m.col.sizelog)) / 64 % 2 ^ 42 ∧ r.left = [0, 1] ∧ m'.nextId = m.nextId + 1 ∧
     m'.col.next = (m.col.next + 1) % 2 ^ 32) ∧
  (∀ (q : List Instr) (m : Mach), m.boot.power = true → m.cnts = [] → fon m cntBase R.CNT_RCTL_EN = true → m.col.mode = false →
     (∀ j < 64, fon m (cntBase + 8 * j) R.CNT_RSEL_V = (j == 0)) → (blkAt (fget m cntBase R.CNT_RSEL_BASE * 4096)).isSome = true →
     2 ^ m.col.sizelog ≤ (m.col.next + 2 ^ 32 - fget m cntBase R.CNT_RPTR_RP) % 2 ^ 32 →
     Leads .counterTick q m (fsat (fset (finc { m with timeUs := (m.timeUs + m.col.interval), col := { m.col with interval := fget m cntBase R.CNT_CTL_TICK } }
     cntBase R.CNT_SEQ_SEQ) cntBase R.CNT_SEQ_TIME (m.timeUs + m.col.interval)) cntBase R.CNT_RSTAT_LOST 1)) ∧
  (∀ (q : List Instr) (m : Mach), m.boot.power = true → m.cnts = [] → fon m cntBase R.CNT_RCTL_EN = true → m.col.mode = true →
     (∀ j < 64, fon m (cntBase + 8 * j) R.CNT_RSEL_V = (j == 0)) → (blkAt (fget m cntBase R.CNT_RSEL_BASE * 4096)).isSome = true →
     poolOff m = true → Leads .counterTick q m (fsat (fset (finc
     { m with timeUs := (m.timeUs + m.col.interval), col := { m.col with interval := fget m cntBase R.CNT_CTL_TICK } } cntBase R.CNT_SEQ_SEQ)
     cntBase R.CNT_SEQ_TIME (m.timeUs + m.col.interval)) cntBase R.CNT_RSTAT_SKIPPED 1)) ∧
  (∀ (r : RingRec) (rest : List RingRec) (q : List Instr) (m : Mach), m.col.ring = r :: rest → r.left = [] →
     Leads .ringRecordComplete q m (count (finc { m with col := { m.col with ring := rest } } cntBase R.CNT_RPTR_WP) cntBase 2)) ∧
  (∀ (q : List Instr) (m : Mach), m.col.ring = [] → Leads .ringRecordComplete q m (m)) ∧
  (∀ (mode : Bool) (sizelog : BitVec 5) (base : BitVec 36) (q : List Instr) (m : Mach), reach m (cntBase + 0x50) = .open_ →
     sizelog.toNat < 6 ∨ 24 < sizelog.toNat → fon m cntBase R.CNT_RCTL_EN = false →
     Leads (.ringEnable mode sizelog base) q m (fset (fset ((fun y : Mach =>
     { y with col := { y.col with ring := [], next := 0, base := base.toNat * 4096, sizelog := fget y cntBase R.CNT_RCTL_SIZELOG, mode := mode } })
     (fset (fset (fset (reject m cntBase 2 0x50) cntBase R.CNT_RCTL_MODE (b2n mode)) cntBase R.CNT_RCTL_BASE base.toNat) cntBase R.CNT_RCTL_EN 1))
     cntBase R.CNT_RPTR_WP 0) cntBase R.CNT_RPTR_RP 0)) ∧
  (∀ (mode : Bool) (sizelog : BitVec 5) (base : BitVec 36) (q : List Instr) (m : Mach), reach m (cntBase + 0x50) = .open_ →
     sizelog.toNat < 6 ∨ 24 < sizelog.toNat → fon m cntBase R.CNT_RCTL_EN = true →
     Leads (.ringEnable mode sizelog base) q m ((fset (fset (fset (reject m cntBase 2 0x50) cntBase R.CNT_RCTL_MODE (b2n mode)) cntBase
     R.CNT_RCTL_BASE base.toNat) cntBase R.CNT_RCTL_EN 1))) ∧
  (∀ (mode : Bool) (sizelog : BitVec 5) (base : BitVec 36) (q : List Instr) (m : Mach), reach m (cntBase + 0x50) = .open_ → 6 ≤ sizelog.toNat ∧
     sizelog.toNat ≤ 24 → fon m cntBase R.CNT_RCTL_EN = false → Leads (.ringEnable mode sizelog base) q m (fset (fset ((fun y : Mach =>
     { y with col := { y.col with ring := [], next := 0, base := base.toNat * 4096, sizelog := sizelog.toNat, mode := mode } }) (fset (fset (fset
     (fset m cntBase R.CNT_RCTL_SIZELOG sizelog.toNat) cntBase R.CNT_RCTL_MODE (b2n mode)) cntBase R.CNT_RCTL_BASE base.toNat) cntBase R.CNT_RCTL_EN
     1)) cntBase R.CNT_RPTR_WP 0) cntBase R.CNT_RPTR_RP 0)) ∧
  (∀ (mode : Bool) (sizelog : BitVec 5) (base : BitVec 36) (q : List Instr) (m : Mach), reach m (cntBase + 0x50) = .open_ → 6 ≤ sizelog.toNat ∧
     sizelog.toNat ≤ 24 → fon m cntBase R.CNT_RCTL_EN = true → Leads (.ringEnable mode sizelog base) q m ((fset (fset (fset (fset m cntBase
     R.CNT_RCTL_SIZELOG sizelog.toNat) cntBase R.CNT_RCTL_MODE (b2n mode)) cntBase R.CNT_RCTL_BASE base.toNat) cntBase R.CNT_RCTL_EN 1))) ∧
  (∀ (j : Fin 16) (inst : Fin 64) (port : Fin 32) (addr : BitVec 48) (outcome : Fin 8) (lat : BitVec 16) (twUsed : BitVec 10) (q : List Instr) (m
     : Mach), m.col.due.contains (j.val * 64 + inst.val) = false → Leads (.sampleTaken j inst port addr outcome lat twUsed) q m (m)) ∧
  (∀ (j : Fin 16) (inst : Fin 64) (port : Fin 32) (addr : BitVec 48) (outcome : Fin 8) (lat : BitVec 16) (twUsed : BitVec 10) (q : List Instr) (m
     : Mach), m.col.due.contains (j.val * 64 + inst.val) = true → m.col.samples.length < 4096 →
     ∃ m' w, Leads (.sampleTaken j inst port addr outcome lat twUsed) q m m' ∧
     m'.col.samples = m.col.samples ++ [[w, m.timeUs, addr.toNat, (if fget m (cntBase + 8 * j.val) R.CNT_SAMPCTL_KIND = 0 then outcome.val +
     lat.toNat * 2 ^ 4 + twUsed.toNat * 2 ^ 20 else 0) + m.col.seq % 2 ^ 32 * 2 ^ 32]] ∧ w / 2 ^ 63 = 1 ∧ w % 32 = port.val ∧
     w / 2 ^ 5 % 16 = j.val ∧ w / 2 ^ 10 % 64 = inst.val ∧ m'.col.seq = (m.col.seq + 1) % 2 ^ 32) ∧
  (∀ (j : Fin 16) (inst : Fin 64) (port : Fin 32) (addr : BitVec 48) (outcome : Fin 8) (lat : BitVec 16) (twUsed : BitVec 10) (q : List Instr) (m
     : Mach), m.col.due.contains (j.val * 64 + inst.val) = true → m.col.samples.length = 4096 →
     Leads (.sampleTaken j inst port addr outcome lat twUsed) q m (count (fsat
     { m with col := { m.col with due := dropFirst (fun x => x == j.val * 64 + inst.val) m.col.due } } cntBase R.CNT_SSTAT_LOST) cntBase 4)) ∧
  (∀ (r : List Nat) (rest : List (List Nat)) (q : List Instr) (m : Mach), reach m (cntBase + 0x930) = .open_ → m.col.samples = r :: rest →
     Leads .cntSadv q m ({ m with col := { m.col with samples := rest } })) ∧
  (∀ (q : List Instr) (m : Mach), reach m (cntBase + 0x930) = .dead → Leads .cntSadv q m (busError (cntBase + 0x930) (noAnswer m (cntBase + 0x930))))

/-- A write or read by the running Ditchrider to an unmapped address or a domain that does not answer is a bus error with an event record, and waits at
  the gateway of a domain that is Waking or Draining. For TWN_HIMARK: a write stores a MARK of 1 to 12,287 and is refused with CAUSE 2 for any other,
  CROSSED clears where 1 is written, the read-only fields stay, and a read returns the four fields. A write of a counter of the always-on block waits
  for the tick. LOCK and UNLOCK of any block instance with a header set and clear LOCK for the Ditchrider; UNLOCK of a keeper program is refused with
  CAUSE 4. An engine writes only what heads its store buffer. A target outside PD0 that gives no answer is a bus error, and the trap TIMEOUT of the
  engine whose load or store asks; PD0 always answers. A write by a host of its command window goes to the slot, or is counted as an overrun of a
  committed one; its reads of the window are 0, and of PT_RESQ_POP the next result. A write in the cycle of the next command notes which W1C fields it
  cleared. A keeper-queue header goes to its slot unless a committed descriptor holds it. The locked-field message needs the interface's keeper bit
  and ends locked; the read message returns the word. It says of each of these forms that exec answers a next state, under hypotheses on the state and
  operands alone: registerWrite, rcRegisterRead, lock, unlock, controlAccessTimeout, keeperQueueHeaderWrite, writeLockedField, readRegister. -/
def Obligations.ControlAccesses : Prop :=
  (∀ (a : BitVec 29) (v : Word) (q : List Instr) (m : Mach), ditchRuns m = false → Leads (.registerWrite (⟨.ditch, false⟩) a v) q m (m)) ∧
  (∀ (a : BitVec 29) (v : Word) (q : List Instr) (m : Mach), ditchRuns m = true → mapped (8 * a.toNat) = false →
     Leads (.registerWrite (⟨.ditch, false⟩) a v) q m (send (noAnswer m (8 * a.toNat)) (.ctl (8 * a.toNat) none))) ∧
  (∀ (a : BitVec 29) (v : Word) (q : List Instr) (m : Mach), ditchRuns m = true → mapped (8 * a.toNat) = true → reach m (8 * a.toNat) = .hold →
     Leads (.registerWrite (⟨.ditch, false⟩) a v) q m ({ m with net := { m.net with ctl := m.net.ctl ++ [⟨(8 * a.toNat), v.toNat, .write⟩] } })) ∧
  (∀ (a : BitVec 29) (v : Word) (q : List Instr) (m : Mach), ditchRuns m = true → mapped (8 * a.toNat) = true → reach m (8 * a.toNat) = .dead →
     Leads (.registerWrite (⟨.ditch, false⟩) a v) q m (send (noAnswer m (8 * a.toNat)) (.ctl (8 * a.toNat) none))) ∧
  (∀ (a : BitVec 29) (v : Word) (sd : Fin 2) (q : List Instr) (m : Mach), ditchRuns m = true → reach m (8 * a.toNat) = .open_ →
     8 * a.toNat = twnBase sd + 0x50 → 1 ≤ v.toNat % 2 ^ 14 → v.toNat % 2 ^ 14 ≤ 12287 → ∃ m', Leads (.registerWrite (⟨.ditch, false⟩) a v) q m m' ∧
     fget m' (twnBase sd) R.TWN_HIMARK_MARK = v.toNat % 2 ^ 14 ∧ fget m' (twnBase sd) R.TWN_HIMARK_CROSSED = (if v.getLsbD 17 then 0 else fget m
     (twnBase sd) R.TWN_HIMARK_CROSSED) ∧ fget m' (twnBase sd) R.TWN_HIMARK_LEVEL = fget m (twnBase sd) R.TWN_HIMARK_LEVEL ∧
     fget m' (twnBase sd) R.TWN_HIMARK_CROSSINGS = fget m (twnBase sd) R.TWN_HIMARK_CROSSINGS) ∧
  (∀ (a : BitVec 29) (v : Word) (sd : Fin 2) (q : List Instr) (m : Mach), ditchRuns m = true → reach m (8 * a.toNat) = .open_ →
     8 * a.toNat = twnBase sd + 0x50 → v.toNat % 2 ^ 14 = 0 ∨ 12287 < v.toNat % 2 ^ 14 → ∃ m', Leads (.registerWrite (⟨.ditch, false⟩) a v) q m m' ∧
     fget m' (twnBase sd) R.TWN_HIMARK_MARK = fget m (twnBase sd) R.TWN_HIMARK_MARK ∧
     fget m' (twnBase sd) R.TWN_HIMARK_CROSSED = (if v.getLsbD 17 then 0 else fget m (twnBase sd) R.TWN_HIMARK_CROSSED) ∧
     fget m' (twnBase sd) hdrRej = 1 ∧ fget m' (twnBase sd) hdrCause = 2 ∧ fget m' (twnBase sd) hdrOffset = 0xA ∧
     fget m' (twnBase sd) hdrCount = min 65535 (fget m (twnBase sd) hdrCount + 1)) ∧
  (∀ (a : BitVec 29) (v : Word) (k : Nat) (c : Cnt) (q : List Instr) (m : Mach), ditchRuns m = true → k < 8 → 8 * a.toNat = 0x240 + 8 * k →
     c = cntOf m 0 k → Leads (.registerWrite (⟨.ditch, false⟩) a v) q m (cntPut m 0 k
     { c with wcount := some (v.toNat % 2 ^ 48), wovf := c.wovf || v.getLsbD 63 })) ∧
  (∀ (a : BitVec 29) (v : Word) (e : Fin 32) (q : List Instr) (m : Mach), sbHead m e = none →
     Leads (.registerWrite (⟨.engine e, false⟩) a v) q m (m)) ∧
  (∀ (a : BitVec 29) (v : Word) (e : Fin 32) (s : SbEnt) (q : List Instr) (m : Mach), sbHead m e = some s → s.space = .control →
     s.addr = (8 * a.toNat) → s.data = v.toNat → Leads (.registerWrite (⟨.engine e, false⟩) a v) q m (doStoreBufferSend e .good m)) ∧
  (∀ (a : BitVec 29) (q : List Instr) (m : Mach), ditchRuns m = false → Leads (.rcRegisterRead (⟨.ditch, a⟩)) q m (m)) ∧
  (∀ (a : BitVec 29) (q : List Instr) (m : Mach), ditchRuns m = true → mapped (8 * a.toNat) = false →
     Leads (.rcRegisterRead (⟨.ditch, a⟩)) q m (send (noAnswer m (8 * a.toNat)) (.ctl (8 * a.toNat) none))) ∧
  (∀ (a : BitVec 29) (q : List Instr) (m : Mach), ditchRuns m = true → mapped (8 * a.toNat) = true → reach m (8 * a.toNat) = .hold →
     Leads (.rcRegisterRead (⟨.ditch, a⟩)) q m ({ m with net := { m.net with ctl := m.net.ctl ++ [⟨(8 * a.toNat), 0, .read⟩] } })) ∧
  (∀ (a : BitVec 29) (sd : Fin 2) (q : List Instr) (m : Mach), ditchRuns m = true → reach m (8 * a.toNat) = .open_ →
     8 * a.toNat = twnBase sd + 0x50 → Leads (.rcRegisterRead (⟨.ditch, a⟩)) q m (send m (.ctl (8 * a.toNat) (some (fget m (twnBase sd)
     R.TWN_HIMARK_MARK % 2 ^ 14 + fget m (twnBase sd) R.TWN_HIMARK_LEVEL % 2 * 2 ^ 16 + fget m (twnBase sd) R.TWN_HIMARK_CROSSED % 2 * 2 ^ 17 + fget
     m (twnBase sd) R.TWN_HIMARK_CROSSINGS % 2 ^ 16 * 2 ^ 32))))) ∧
  (∀ (a : BitVec 29) (v : Word) (sd : Fin 2) (q : List Instr) (m : Mach), ditchRuns m = true → reach m (8 * a.toNat) = .open_ →
     8 * a.toNat = twnBase sd + 0x50 → 1 ≤ v.toNat % 2 ^ 14 → v.toNat % 2 ^ 14 ≤ 12287 → ∃ m', Leads (.registerWrite (⟨.ditch, true⟩) a v) q m m' ∧
     fget m' (twnBase sd) R.TWN_HIMARK_MARK = v.toNat % 2 ^ 14 ∧ fget m' (twnBase sd) R.TWN_HIMARK_CROSSED = (if v.getLsbD 17 then 0 else fget m
     (twnBase sd) R.TWN_HIMARK_CROSSED) ∧ m'.clash = (if v.getLsbD 17 && fon m (twnBase sd) R.TWN_HIMARK_CROSSED then [(fkey (twnBase sd)
     R.TWN_HIMARK_CROSSED, true)] else [])) ∧
  (∀ (a : BitVec 29) (v : Word) (p : Fin 32) (h : Half) (q : List Instr) (m : Mach), hostLink m p = false →
     Leads (.registerWrite (⟨.host p h, false⟩) a v) q m (m)) ∧
  (∀ (a : BitVec 29) (v : Word) (p : Fin 32) (h : Half) (s : Nat) (q : List Instr) (m : Mach), hostLink m p = true → 0x1000 ≤ 8 * a.toNat →
     8 * a.toNat < 0x2000 → s = (8 * a.toNat - 0x1000) / 64 → slotBusy m p s = false →
     Leads (.registerWrite (⟨.host p h, false⟩) a v) q m (slotWrite m p s (8 * a.toNat % 64 / 8) h v.toNat)) ∧
  (∀ (a : BitVec 29) (v : Word) (p : Fin 32) (h : Half) (s : Nat) (q : List Instr) (m : Mach), hostLink m p = true → 0x1000 ≤ 8 * a.toNat →
     8 * a.toNat < 0x2000 → s = (8 * a.toNat - 0x1000) / 64 → slotBusy m p s = true →
     Leads (.registerWrite (⟨.host p h, false⟩) a v) q m (notice (fsat (fset m (ptBase p) R.PT_QSTAT_OVRN 1) (ptBase p) R.PT_QERR_OVRN_CNT) 0x0E p
     s)) ∧
  (∀ (a : BitVec 29) (v : Word) (p : Fin 32) (h : Half) (q : List Instr) (m : Mach), hostLink m p = true → 0x3030 ≤ 8 * a.toNat →
     Leads (.registerWrite (⟨.host p h, false⟩) a v) q m (m)) ∧
  (∀ (a : BitVec 29) (p : Fin 32) (h : Half) (q : List Instr) (m : Mach), hostLink m p = false → Leads (.rcRegisterRead (⟨.host p h, a⟩)) q m (m)) ∧
  (∀ (a : BitVec 29) (p : Fin 32) (h : Half) (q : List Instr) (m : Mach), hostLink m p = true → 0x1000 ≤ 8 * a.toNat → 8 * a.toNat < 0x2000 →
     Leads (.rcRegisterRead (⟨.host p h, a⟩)) q m (send m (.barRead p 0))) ∧
  (∀ (a : BitVec 29) (p : Fin 32) (h : Half) (q : List Instr) (m : Mach), hostLink m p = true → 8 * a.toNat = 0x2000 →
     Leads (.rcRegisterRead (⟨.host p h, a⟩)) q m (doPtResqPop p h .good m)) ∧
  (∀ (a : BitVec 29) (p : Fin 32) (h : Half) (q : List Instr) (m : Mach), hostLink m p = true → 8 * a.toNat = 0x3800 →
     Leads (.rcRegisterRead (⟨.host p h, a⟩)) q m (send m (.barRead p (halfRead h ((cfgOf m p).vpend % 8))))) ∧
  (∀ (b : BitVec 20) (B : Blk) (q : List Instr) (m : Mach), ditchRuns m = true → blkAt (4096 * b.toNat + 8) = some B → B.hdr = true →
     B.base = 4096 * b.toNat → progStoreAt (4096 * b.toNat + 8) = none → reach m (4096 * b.toNat + 8) = .open_ →
     Leads (.lock .ditch b) q m (fset m B.base hdrLock 1)) ∧
  (∀ (b : BitVec 20) (q : List Instr) (m : Mach), ditchRuns m = false → Leads (.lock .ditch b) q m (m)) ∧
  (∀ (b : BitVec 20) (e : Fin 32) (s : SbEnt) (q : List Instr) (m : Mach), sbHead m e = some s → s.space = .control →
     s.addr = 4096 * b.toNat + 8 → s.data = 1 → Leads (.lock (.engine e) b) q m (doStoreBufferSend e .good m)) ∧
  (∀ (b : BitVec 20) (B : Blk) (q : List Instr) (m : Mach), ditchRuns m = true → blkAt (4096 * b.toNat + 8) = some B → B.hdr = true →
     B.base = 4096 * b.toNat → progStoreAt (4096 * b.toNat + 8) = none → reach m (4096 * b.toNat + 8) = .open_ →
     Leads (.unlock .ditch b) q m (fset m B.base hdrLock 0)) ∧
  (∀ (b : BitVec 20) (e : Fin 32) (q : List Instr) (m : Mach), sbHead m e = none → Leads (.unlock (.engine e) b) q m (m)) ∧
  (∀ (b : BitVec 20) (e : Fin 32) (s : SbEnt) (B : Blk) (q : List Instr) (m : Mach), blkAt (4096 * b.toNat + 8) = some B → B.hdr = true →
     B.base = 4096 * b.toNat → progStoreAt (4096 * b.toNat + 8) = none → reach m (4096 * b.toNat + 8) = .open_ → sbHead m e = some s →
     s.space = .control → s.addr = 4096 * b.toNat + 8 → s.data = 2 → s.sent = false → (engOf m e).keeper = true →
     ∃ m', Leads (.unlock (.engine e) b) q m m' ∧ fget m' B.base hdrLock = fget m B.base hdrLock ∧ fget m' B.base hdrRej = 1 ∧
     fget m' B.base hdrCause = 4 ∧ fget m' B.base hdrOffset = 1) ∧
  (∀ (a : BitVec 29) (q : List Instr) (m : Mach), ditchRuns m = true → reach m (8 * a.toNat) = .open_ → mapped (8 * a.toNat) = true →
     domOf (8 * a.toNat) ≠ 0 → Leads (.controlAccessTimeout .ditch a) q m (send (noAnswer m (8 * a.toNat)) (.ctl (8 * a.toNat) none))) ∧
  (∀ (w : By) (a : BitVec 29) (q : List Instr) (m : Mach), mapped (8 * a.toNat) = false ∨ domOf (8 * a.toNat) = 0 ∨ reach m (8 * a.toNat) ≠ .open_
     → Leads (.controlAccessTimeout w a) q m (m)) ∧
  (∀ (a : BitVec 29) (e : Fin 32) (x : Eng) (q : List Instr) (m : Mach), reach m (8 * a.toNat) = .open_ → mapped (8 * a.toNat) = true →
     domOf (8 * a.toNat) ≠ 0 → x = engOf m e → sbHead m e = none → x.st = .running ∨ x.st = .waiting → x.wait = .none → x.trap = none →
     ctlLoadAddr m e = some (8 * a.toNat) → pathTrap m (engSide e) (pathOf x) (8 * a.toNat) 8 false 0 = none →
     Leads (.controlAccessTimeout (.engine e) a) q m (trapNow (noAnswer m (8 * a.toNat)) e .timeout (8 * a.toNat))) ∧
  (∀ (a : BitVec 29) (e : Fin 32) (s : SbEnt) (q : List Instr) (m : Mach), reach m (8 * a.toNat) = .open_ → mapped (8 * a.toNat) = true →
     domOf (8 * a.toNat) ≠ 0 → sbHead m e = some s → s.space = .control → s.addr = (8 * a.toNat) → s.sent = false →
     pathTrap m (engSide e) (pathOf (engOf m e)) (8 * a.toNat) 8 true s.data = none →
     Leads (.controlAccessTimeout (.engine e) a) q m (storeRefuse (noAnswer m (8 * a.toNat)) e s .timeout)) ∧
  (∀ (slot : Fin 64) (v : Word) (q : List Instr) (m : Mach), ditchRuns m = true → reach m 0x11000 = .open_ → slotBusy m 32 slot = false →
     Leads (.keeperQueueHeaderWrite .ditch slot v) q m (slotWrite m 32 slot 0 .full v.toNat)) ∧
  (∀ (slot : Fin 64) (v : Word) (q : List Instr) (m : Mach), ditchRuns m = true → reach m 0x11000 = .open_ → slotBusy m 32 slot = true →
     Leads (.keeperQueueHeaderWrite .ditch slot v) q m (notice (fsat (fset (draw m) mgtBase R.PT_QSTAT_OVRN 1) mgtBase R.PT_QERR_OVRN_CNT) 0x0E
     (drawn m) slot)) ∧
  (∀ (i : Fin 2) (a : BitVec 29) (v : Word) (q : List Instr) (m : Mach), mgmtOn m i = false → Leads (.writeLockedField i a v) q m (m)) ∧
  (∀ (i : Fin 2) (a : BitVec 29) (v : Word) (q : List Instr) (m : Mach), mgmtOn m i = true → bitOf (fget m mgtBase R.MGT_IFCTL_KEEPER) i = false →
     Leads (.writeLockedField i a v) q m (send m (.mgmt "Write locked field DENIED" []))) ∧
  (∀ (i : Fin 2) (a : BitVec 29) (v : Word) (sd : Fin 2) (q : List Instr) (m : Mach), mgmtOn m i = true →
     bitOf (fget m mgtBase R.MGT_IFCTL_KEEPER) i = true → reach m (8 * a.toNat) = .open_ → 8 * a.toNat = twnBase sd + 0x50 → 1 ≤ v.toNat % 2 ^ 14 →
     v.toNat % 2 ^ 14 ≤ 12287 → ∃ m', Leads (.writeLockedField i a v) q m m' ∧ fget m' (twnBase sd) R.TWN_HIMARK_MARK = v.toNat % 2 ^ 14 ∧
     fget m' (twnBase sd) hdrLock = 1 ∧ m'.outbox = m.outbox ++ [.mgmt "Write locked field" []]) ∧
  (∀ (i : Fin 2) (a : BitVec 29) (q : List Instr) (m : Mach), mgmtOn m i = false → Leads (.readRegister i a) q m (m)) ∧
  (∀ (i : Fin 2) (a : BitVec 29) (q : List Instr) (m : Mach), mgmtOn m i = true → mapped (8 * a.toNat) = false →
     Leads (.readRegister i a) q m (send (noAnswer m (8 * a.toNat)) (.mgmt "Read register error" []))) ∧
  (∀ (i : Fin 2) (a : BitVec 29) (sd : Fin 2) (q : List Instr) (m : Mach), mgmtOn m i = true → reach m (8 * a.toNat) = .open_ →
     8 * a.toNat = twnBase sd + 0x50 → Leads (.readRegister i a) q m (send m (.mgmt "Read register" [(fget m (twnBase sd) R.TWN_HIMARK_MARK % 2 ^ 14
     + fget m (twnBase sd) R.TWN_HIMARK_LEVEL % 2 * 2 ^ 16 + fget m (twnBase sd) R.TWN_HIMARK_CROSSED % 2 * 2 ^ 17 + fget m (twnBase sd)
     R.TWN_HIMARK_CROSSINGS % 2 ^ 16 * 2 ^ 32)])))

/-- On an interface that is answered: endpoint and terminus IDs are set and read, types 0, 2 and 5 are named, versions and command lists are open
  content of the standard, the repository holds 139 sensor records numbered as in Table 18-4 with their thresholds, numeric sensors give their reading
  and state sensors their states, and an unknown number is invalid. Setting the event receiver takes every sensor's level as the point from which
  crossings count. A poll gives the oldest event that waits. Any other command is unsupported. On an interface that is not answered nothing changes.
  It says of each of these forms that exec answers a next state, under hypotheses on the state and operands alone: setEndpointId, getTid, setTid,
  getPldmVersion, getPldmTypes, getPldmCommands, getPdrRepositoryInfo, getPdr, getSensorReading, getStateSensorReadings, setEventReceiver,
  pollForPlatformEventMessage, pldmUnsupportedCommand. -/
def Obligations.PldmBaseAndMonitoring : Prop :=
  (∀ (i : Fin 2) (eid : BitVec 8) (q : List Instr) (m : Mach), Leads (.setEndpointId i eid) q m (if mgmtOn m i = true then send
     ({ m with mgmt := { m.mgmt with eid := mput m.mgmt.eid i.val eid.toNat } }) (.mgmt "Set Endpoint ID" [eid.toNat]) else m)) ∧
  (∀ (i : Fin 2) (q : List Instr) (m : Mach), Leads (.getTid i) q m (if mgmtOn m i = true then send (m) (.mgmt "GetTID" [m.mgmt.tid]) else m)) ∧
  (∀ (i : Fin 2) (t : BitVec 8) (q : List Instr) (m : Mach), Leads (.setTid i t) q m (if mgmtOn m i = true then send
     ({ m with mgmt := { m.mgmt with tid := t.toNat } }) (.mgmt "SetTID" []) else m)) ∧
  (∀ (i : Fin 2) (q : List Instr) (m : Mach), Leads (.getPldmVersion i) q m (if mgmtOn m i = true then send (draw m) (.mgmt "GetPLDMVersion"
     [drawn m]) else m)) ∧
  (∀ (i : Fin 2) (q : List Instr) (m : Mach), Leads (.getPldmTypes i) q m (if mgmtOn m i = true then send (m) (.mgmt "GetPLDMTypes" [0, 2, 5])
     else m)) ∧
  (∀ (i : Fin 2) (q : List Instr) (m : Mach), Leads (.getPldmCommands i) q m (if mgmtOn m i = true then send (draw m) (.mgmt "GetPLDMCommands"
     [drawn m]) else m)) ∧
  (∀ (i : Fin 2) (q : List Instr) (m : Mach), Leads (.getPdrRepositoryInfo i) q m (if mgmtOn m i = true then send (m) (.mgmt
     "GetPDRRepositoryInfo" [139]) else m)) ∧
  (∀ (i : Fin 2) (n : Nat) (id : Nat) (q : List Instr) (m : Mach), n < 139 →
     id = (if n < 80 then n + 1 else if n < 120 then n + 21 else if n < 132 then n + 81 else if n < 135 then n + 169 else n + 266) →
     Leads (.getPdr i n) q m (if mgmtOn m i = true then send (m) (.mgmt "GetPDR" (id :: sensorBounds id)) else m)) ∧
  (∀ (i : Fin 2) (n : Nat) (q : List Instr) (m : Mach), 139 ≤ n → Leads (.getPdr i n) q m (if mgmtOn m i = true then send (m) (.mgmt "GetPDR
     invalid" []) else m)) ∧
  (∀ (i : Fin 2) (id : BitVec 16) (q : List Instr) (m : Mach), 1 ≤ id.toNat → id.toNat ≤ 80 →
     Leads (.getSensorReading i id) q m (if mgmtOn m i = true then send (m) (.mgmt "GetSensorReading" [tempOf m (id.toNat - 1)]) else m)) ∧
  (∀ (i : Fin 2) (id : BitVec 16) (q : List Instr) (m : Mach), 101 ≤ id.toNat → id.toNat ≤ 140 →
     Leads (.getSensorReading i id) q m (if mgmtOn m i = true then send (m) (.mgmt "GetSensorReading" [((m.pwr.volts[id.toNat - 101]?).map fun v =>
     v.1).getD 0]) else m)) ∧
  (∀ (i : Fin 2) (id : BitVec 16) (q : List Instr) (m : Mach), 201 ≤ id.toNat → id.toNat ≤ 212 →
     Leads (.getSensorReading i id) q m (if mgmtOn m i = true then send (m) (.mgmt "GetSensorReading" [(m.pwr.rails[id.toNat - 201]?).getD 0]) else
     m)) ∧
  (∀ (i : Fin 2) (id : BitVec 16) (f : Fin 2) (q : List Instr) (m : Mach), id.toNat = 301 + f.val →
     Leads (.getSensorReading i id) q m (if mgmtOn m i = true then send (m) (.mgmt "GetSensorReading" [fget m (8 * f.val) R.PWR_FEED_VIN]) else m)) ∧
  (∀ (i : Fin 2) (id : BitVec 16) (q : List Instr) (m : Mach), id.toNat = 303 →
     Leads (.getSensorReading i id) q m (if mgmtOn m i = true then send (m) (.mgmt "GetSensorReading" [fget m aonBase R.PWR_INPUT_WATTS]) else m)) ∧
  (∀ (i : Fin 2) (id : BitVec 16) (q : List Instr) (m : Mach), sensorIds.contains id.toNat = false →
     Leads (.getSensorReading i id) q m (if mgmtOn m i = true then send (m) (.mgmt "GetSensorReading invalid" []) else m)) ∧
  (∀ (i : Fin 2) (id : BitVec 16) (q : List Instr) (m : Mach), id.toNat = 401 →
     Leads (.getStateSensorReadings i id) q m (if mgmtOn m i = true then send (m) (.mgmt "GetStateSensorReadings" [opMode m]) else m)) ∧
  (∀ (i : Fin 2) (id : BitVec 16) (f : Fin 2) (q : List Instr) (m : Mach), id.toNat = 402 + f.val →
     Leads (.getStateSensorReadings i id) q m (if mgmtOn m i = true then send (m) (.mgmt "GetStateSensorReadings" [fget m (8 * f.val)
     R.PWR_FEED_PRESENT]) else m)) ∧
  (∀ (i : Fin 2) (id : BitVec 16) (q : List Instr) (m : Mach), id.toNat = 404 →
     Leads (.getStateSensorReadings i id) q m (if mgmtOn m i = true then send (m) (.mgmt "GetStateSensorReadings" [fget m aonBase R.PWR_TSTAT_SIDEA,
     fget m aonBase R.PWR_TSTAT_SIDEB, fget m aonBase R.PWR_TSTAT_TILE, fget m aonBase R.PWR_TSTAT_STACK]) else m)) ∧
  (∀ (i : Fin 2) (id : BitVec 16) (q : List Instr) (m : Mach), id.toNat < 401 ∨ 404 < id.toNat →
     Leads (.getStateSensorReadings i id) q m (if mgmtOn m i = true then send (m) (.mgmt "GetStateSensorReadings invalid" []) else m)) ∧
  (∀ (i : Fin 2) (eid : BitVec 8) (poll : Bool) (q : List Instr) (m : Mach), mgmtOn m i = false → Leads (.setEventReceiver i eid poll) q m (m)) ∧
  (∀ (i : Fin 2) (eid : BitVec 8) (poll : Bool) (q : List Instr) (m : Mach), mgmtOn m i = true →
     ∃ m', Leads (.setEventReceiver i eid poll) q m m' ∧ m'.mgmt.receiver = some (eid.toNat + 256 * (if poll then 2 else 1)) ∧
     (∀ id ∈ eventSensors, sget 0 m'.mgmt.levels id = sensorLevel m id) ∧ m'.outbox = m.outbox ++ [.mgmt "SetEventReceiver" []]) ∧
  (∀ (i : Fin 2) (q : List Instr) (m : Mach), m.mgmt.events = [] → Leads (.pollForPlatformEventMessage i) q m (if mgmtOn m i = true then send (m)
     (.mgmt "PollForPlatformEventMessage" []) else m)) ∧
  (∀ (i : Fin 2) (id v : Nat) (rest : List (Nat × Nat)) (q : List Instr) (m : Mach), m.mgmt.events = (id, v) :: rest →
     Leads (.pollForPlatformEventMessage i) q m (if mgmtOn m i = true then send ({ m with mgmt := { m.mgmt with events := rest } }) (.mgmt
     "PollForPlatformEventMessage" [id, v]) else m)) ∧
  (∀ (i : Fin 2) (q : List Instr) (m : Mach), Leads (.pldmUnsupportedCommand i) q m (if updOn m i = true then send (m) (.mgmt
     "ERROR_UNSUPPORTED_PLDM_CMD" []) else m))

/-- One agent at a time is in update mode; every command answers so outside it or in another phase and does nothing else. The component table is passed,
  a component 1 to 3 starts its transfer and erases its slot, chunks of at most 256 bytes over SMBus and 1,024 over Ethernet are counted, the transfer
  ends with the package, verification checks format, key, signature and security version, a package that fails leaving RESULT and its phase, and puts
  a good package of component 1 or 2 in its slot; application makes component 1 ready, shows the factory version of component 2, or revokes the key
  that component 3 names. Activation without a ready component only leaves update mode; with one the core restarts from the new slot, the watchdog is
  suspended, the PHYs have firmware to swap and the program image is staged; a slot that is no longer valid leaves the old firmware running, or else
  the factory package or the recovery loader. Cancelling records result 5, makes the partly written slot invalid and leaves the transfer or update
  mode. It says of each of these forms that exec answers a next state, under hypotheses on the state and operands alone: queryDeviceIdentifiers,
  getFirmwareParameters, requestUpdate, passComponentTable, updateComponent, requestFirmwareData, transferComplete, verifyComplete, applyComplete,
  activateFirmware, getStatus, cancelUpdateComponent, cancelUpdate. -/
def Obligations.PldmFirmwareUpdate : Prop :=
  (∀ (i : Fin 2) (q : List Instr) (m : Mach), m.mgmt.upd = none → Leads (.passComponentTable i) q m (if updOn m i = true then send (m) (.mgmt
     "PassComponentTable not in update mode" []) else m)) ∧
  (∀ (i : Fin 2) (u : Update) (q : List Instr) (m : Mach), m.mgmt.upd = some u → u.phase ≠ 0 →
     Leads (.passComponentTable i) q m (if updOn m i = true then send (m) (.mgmt "PassComponentTable invalid state" []) else m)) ∧
  (∀ (i : Fin 2) (comp : BitVec 16) (q : List Instr) (m : Mach), m.mgmt.upd = none →
     Leads (.updateComponent i comp) q m (if updOn m i = true then send (m) (.mgmt "UpdateComponent not in update mode" []) else m)) ∧
  (∀ (i : Fin 2) (comp : BitVec 16) (u : Update) (q : List Instr) (m : Mach), m.mgmt.upd = some u → u.phase ≠ 1 →
     Leads (.updateComponent i comp) q m (if updOn m i = true then send (m) (.mgmt "UpdateComponent invalid state" []) else m)) ∧
  (∀ (i : Fin 2) (n : Nat) (q : List Instr) (m : Mach), m.mgmt.upd = none →
     Leads (.requestFirmwareData i n) q m (if updOn m i = true then send (m) (.mgmt "RequestFirmwareData not in update mode" []) else m)) ∧
  (∀ (i : Fin 2) (n : Nat) (u : Update) (q : List Instr) (m : Mach), m.mgmt.upd = some u → u.phase ≠ 2 →
     Leads (.requestFirmwareData i n) q m (if updOn m i = true then send (m) (.mgmt "RequestFirmwareData invalid state" []) else m)) ∧
  (∀ (i : Fin 2) (pkg : Package) (q : List Instr) (m : Mach), m.mgmt.upd = none →
     Leads (.transferComplete i pkg) q m (if updOn m i = true then send (m) (.mgmt "TransferComplete not in update mode" []) else m)) ∧
  (∀ (i : Fin 2) (pkg : Package) (u : Update) (q : List Instr) (m : Mach), m.mgmt.upd = some u → u.phase ≠ 2 →
     Leads (.transferComplete i pkg) q m (if updOn m i = true then send (m) (.mgmt "TransferComplete invalid state" []) else m)) ∧
  (∀ (i : Fin 2) (q : List Instr) (m : Mach), m.mgmt.upd = none → Leads (.verifyComplete i) q m (if updOn m i = true then send (m) (.mgmt
     "VerifyComplete not in update mode" []) else m)) ∧
  (∀ (i : Fin 2) (u : Update) (q : List Instr) (m : Mach), m.mgmt.upd = some u → u.phase ≠ 3 →
     Leads (.verifyComplete i) q m (if updOn m i = true then send (m) (.mgmt "VerifyComplete invalid state" []) else m)) ∧
  (∀ (i : Fin 2) (q : List Instr) (m : Mach), m.mgmt.upd = none → Leads (.applyComplete i) q m (if updOn m i = true then send (m) (.mgmt
     "ApplyComplete not in update mode" []) else m)) ∧
  (∀ (i : Fin 2) (u : Update) (q : List Instr) (m : Mach), m.mgmt.upd = some u → u.phase ≠ 4 →
     Leads (.applyComplete i) q m (if updOn m i = true then send (m) (.mgmt "ApplyComplete invalid state" []) else m)) ∧
  (∀ (i : Fin 2) (q : List Instr) (m : Mach), m.mgmt.upd = none → Leads (.activateFirmware i) q m (if updOn m i = true then send (m) (.mgmt
     "ActivateFirmware not in update mode" []) else m)) ∧
  (∀ (i : Fin 2) (u : Update) (q : List Instr) (m : Mach), m.mgmt.upd = some u → u.phase ≠ 1 →
     Leads (.activateFirmware i) q m (if updOn m i = true then send (m) (.mgmt "ActivateFirmware invalid state" []) else m)) ∧
  (∀ (i : Fin 2) (q : List Instr) (m : Mach), m.mgmt.upd = none → Leads (.cancelUpdateComponent i) q m (if updOn m i = true then send (m) (.mgmt
     "CancelUpdateComponent not in update mode" []) else m)) ∧
  (∀ (i : Fin 2) (u : Update) (q : List Instr) (m : Mach), m.mgmt.upd = some u → u.phase < 2 →
     Leads (.cancelUpdateComponent i) q m (if updOn m i = true then send (m) (.mgmt "CancelUpdateComponent invalid state" []) else m)) ∧
  (∀ (i : Fin 2) (q : List Instr) (m : Mach), m.mgmt.upd = none → Leads (.cancelUpdate i) q m (if updOn m i = true then send (m) (.mgmt
     "CancelUpdate not in update mode" []) else m)) ∧
  (∀ (i : Fin 2) (q : List Instr) (m : Mach), Leads (.queryDeviceIdentifiers i) q m (if updOn m i = true then send (m) (.mgmt
     "QueryDeviceIdentifiers" [0x0512]) else m)) ∧
  (∀ (i : Fin 2) (q : List Instr) (m : Mach), slotValid m 0 = none → slotValid m 1 = none → slotValid m 2 = none →
     Leads (.getFirmwareParameters i) q m (if updOn m i = true then send (m) (.mgmt "GetFirmwareParameters" [fget m mgtBase R.MGT_STATUS_VERSION, 0,
     0, 0]) else m)) ∧
  (∀ (i : Fin 2) (a b c : Package) (q : List Instr) (m : Mach), slotValid m 0 = some a → slotValid m 1 = some b → slotValid m 2 = some c →
     Leads (.getFirmwareParameters i) q m (if updOn m i = true then send (m) (.mgmt "GetFirmwareParameters" [fget m mgtBase R.MGT_STATUS_VERSION,
     a.version.toNat, b.version.toNat, c.version.toNat]) else m)) ∧
  (∀ (i : Fin 2) (ep : BitVec 8) (q : List Instr) (m : Mach), m.mgmt.upd = none →
     Leads (.requestUpdate i ep) q m (if updOn m i = true then send (fset
     ({ m with mgmt := { m.mgmt with upd := some ⟨ep.toNat + 256 * i.val, 0, 0, 0, 0, none, false⟩ } }) mgtBase R.MGT_UPD_STATE 1) (.mgmt
     "RequestUpdate" []) else m)) ∧
  (∀ (i : Fin 2) (ep : BitVec 8) (u : Update) (q : List Instr) (m : Mach), m.mgmt.upd = some u →
     Leads (.requestUpdate i ep) q m (if updOn m i = true then send (m) (.mgmt "RequestUpdate ALREADY_IN_UPDATE_MODE" []) else m)) ∧
  (∀ (i : Fin 2) (u : Update) (q : List Instr) (m : Mach), updOn m i = true → m.mgmt.upd = some u → u.phase = 0 →
     Leads (.passComponentTable i) q m (send ({ m with mgmt := { m.mgmt with upd := some { u with phase := 1 } } }) (.mgmt "PassComponentTable" []))) ∧
  (∀ (i : Fin 2) (comp : BitVec 16) (u : Update) (s : Nat) (q : List Instr) (m : Mach), updOn m i = true → m.mgmt.upd = some u → u.phase = 1 →
     comp.toNat = 1 → s = (if ditchRuns m = true ∧ fget m mgtBase R.MGT_STATUS_SLOT = 0 then 1 else 0) →
     Leads (.updateComponent i comp) q m (send (fset ((fun y : Mach => { y with flash := { y.flash with fw := mdel y.flash.fw s } })
     ({ m with mgmt := { m.mgmt with upd := some { u with comp := 1, phase := 2, bytes := 0, pkg := none, slot := s, ready := false } } })) mgtBase
     R.MGT_UPD_STATE 1) (.mgmt "UpdateComponent" []))) ∧
  (∀ (i : Fin 2) (comp : BitVec 16) (u : Update) (q : List Instr) (m : Mach), updOn m i = true → m.mgmt.upd = some u → u.phase = 1 →
     comp.toNat = 2 → Leads (.updateComponent i comp) q m (send (fset ((fun y : Mach =>
     { y with flash := { y.flash with fw := mdel y.flash.fw 2 } })
     ({ m with mgmt := { m.mgmt with upd := some { u with comp := 2, phase := 2, bytes := 0, pkg := none } } })) mgtBase R.MGT_UPD_STATE 1) (.mgmt
     "UpdateComponent" []))) ∧
  (∀ (i : Fin 2) (comp : BitVec 16) (u : Update) (q : List Instr) (m : Mach), updOn m i = true → m.mgmt.upd = some u → u.phase = 1 →
     comp.toNat = 3 → Leads (.updateComponent i comp) q m (send (fset
     ({ m with mgmt := { m.mgmt with upd := some { u with comp := 3, phase := 2, bytes := 0, pkg := none } } }) mgtBase R.MGT_UPD_STATE 1) (.mgmt
     "UpdateComponent" []))) ∧
  (∀ (i : Fin 2) (comp : BitVec 16) (u : Update) (q : List Instr) (m : Mach), updOn m i = true → m.mgmt.upd = some u → u.phase = 1 →
     comp.toNat = 0 ∨ 3 < comp.toNat → Leads (.updateComponent i comp) q m (send (m) (.mgmt "UpdateComponent unsupported" []))) ∧
  (∀ (i : Fin 2) (n : Nat) (u : Update) (q : List Instr) (m : Mach), updOn m i = true → m.mgmt.upd = some u → u.phase = 2 →
     n ≤ (if i = 0 then 256 else 1024) → Leads (.requestFirmwareData i n) q m (send
     ({ m with mgmt := { m.mgmt with upd := some { u with bytes := u.bytes + n } } }) (.mgmt "RequestFirmwareData" [u.bytes + n]))) ∧
  (∀ (i : Fin 2) (n : Nat) (u : Update) (q : List Instr) (m : Mach), updOn m i = true → m.mgmt.upd = some u → u.phase = 2 →
     (if i = 0 then 256 else 1024) < n → Leads (.requestFirmwareData i n) q m (send (m) (.mgmt "RequestFirmwareData invalid" []))) ∧
  (∀ (i : Fin 2) (pkg : Package) (u : Update) (q : List Instr) (m : Mach), updOn m i = true → m.mgmt.upd = some u → u.phase = 2 →
     Leads (.transferComplete i pkg) q m (send (fset ({ m with mgmt := { m.mgmt with upd := some { u with phase := 3, pkg := some pkg } } }) mgtBase
     R.MGT_UPD_STATE 2) (.mgmt "TransferComplete" []))) ∧
  (∀ (i : Fin 2) (u : Update) (p : Package) (k : Fin 4) (q : List Instr) (m : Mach), updOn m i = true → m.mgmt.upd = some u → u.phase = 3 →
     u.comp = 1 ∨ u.comp = 2 → u.pkg = some p → p.formatOk = true → p.key = some k → bitOf m.flash.revoked k = false → p.sigOk = true →
     m.flash.svnFuse ≤ p.svn.toNat → p.svn.toNat ≤ 64 → Leads (.verifyComplete i) q m (send (fset ((fun y : Mach =>
     { y with mgmt := { y.mgmt with upd := some { u with phase := 4 } }, flash := { y.flash with fw := mput y.flash.fw (if u.comp = 1 then u.slot else 2) ⟨p, true⟩ } })
     m) mgtBase R.MGT_UPD_RESULT 0) (.mgmt "VerifyComplete" [0]))) ∧
  (∀ (i : Fin 2) (u : Update) (p : Package) (k r : Fin 4) (q : List Instr) (m : Mach), updOn m i = true → m.mgmt.upd = some u → u.phase = 3 →
     u.comp = 3 → u.pkg = some p → p.formatOk = true → p.key = some k → bitOf m.flash.revoked k = false → p.revokes = some r → r ≠ k →
     p.sigOk = true → Leads (.verifyComplete i) q m (send (fset ({ m with mgmt := { m.mgmt with upd := some { u with phase := 4 } } }) mgtBase
     R.MGT_UPD_RESULT 0) (.mgmt "VerifyComplete" [0]))) ∧
  (∀ (i : Fin 2) (u : Update) (p : Package) (q : List Instr) (m : Mach), updOn m i = true → m.mgmt.upd = some u → u.phase = 3 → u.pkg = some p →
     p.formatOk = false → ∃ m' res, Leads (.verifyComplete i) q m m' ∧ 1 ≤ res ∧ res ≤ 4 ∧ fget m' mgtBase R.MGT_UPD_RESULT = res ∧
     m'.flash = m.flash ∧ m'.mgmt.upd = m.mgmt.upd ∧ m'.outbox = m.outbox ++ [.mgmt "VerifyComplete" [res]]) ∧
  (∀ (i : Fin 2) (u : Update) (p : Package) (k : Fin 4) (q : List Instr) (m : Mach), updOn m i = true → m.mgmt.upd = some u → u.phase = 3 →
     u.pkg = some p → p.formatOk = true → p.key = none ∨ p.key = some k ∧ bitOf m.flash.revoked k = true ∨ p.key = some k ∧ u.comp = 3 ∧
     (p.revokes = none ∨ p.revokes = some k) → ∃ m', Leads (.verifyComplete i) q m m' ∧ fget m' mgtBase R.MGT_UPD_RESULT = 2 ∧ m'.flash = m.flash ∧
     m'.mgmt.upd = m.mgmt.upd ∧ m'.outbox = m.outbox ++ [.mgmt "VerifyComplete" [2]]) ∧
  (∀ (i : Fin 2) (u : Update) (p : Package) (k : Fin 4) (q : List Instr) (m : Mach), updOn m i = true → m.mgmt.upd = some u → u.phase = 3 →
     u.comp = 1 ∨ u.comp = 2 → u.pkg = some p → p.formatOk = true → p.key = some k → bitOf m.flash.revoked k = false → p.sigOk = false →
     ∃ m', Leads (.verifyComplete i) q m m' ∧ fget m' mgtBase R.MGT_UPD_RESULT = 1 ∧ m'.flash = m.flash ∧ m'.mgmt.upd = m.mgmt.upd ∧
     m'.outbox = m.outbox ++ [.mgmt "VerifyComplete" [1]]) ∧
  (∀ (i : Fin 2) (u : Update) (p : Package) (k r : Fin 4) (q : List Instr) (m : Mach), updOn m i = true → m.mgmt.upd = some u → u.phase = 3 →
     u.comp = 3 → u.pkg = some p → p.formatOk = true → p.key = some k → bitOf m.flash.revoked k = false → p.revokes = some r → r ≠ k →
     p.sigOk = false → ∃ m', Leads (.verifyComplete i) q m m' ∧ fget m' mgtBase R.MGT_UPD_RESULT = 1 ∧ m'.flash = m.flash ∧
     m'.mgmt.upd = m.mgmt.upd ∧ m'.outbox = m.outbox ++ [.mgmt "VerifyComplete" [1]]) ∧
  (∀ (i : Fin 2) (u : Update) (p : Package) (k : Fin 4) (q : List Instr) (m : Mach), updOn m i = true → m.mgmt.upd = some u → u.phase = 3 →
     u.comp = 1 ∨ u.comp = 2 → u.pkg = some p → p.formatOk = true → p.key = some k → bitOf m.flash.revoked k = false → p.sigOk = true →
     p.svn.toNat < m.flash.svnFuse ∨ 64 < p.svn.toNat → ∃ m', Leads (.verifyComplete i) q m m' ∧ fget m' mgtBase R.MGT_UPD_RESULT = 3 ∧
     m'.flash = m.flash ∧ m'.mgmt.upd = m.mgmt.upd ∧ m'.outbox = m.outbox ++ [.mgmt "VerifyComplete" [3]]) ∧
  (∀ (i : Fin 2) (u : Update) (q : List Instr) (m : Mach), updOn m i = true → m.mgmt.upd = some u → u.phase = 4 → u.comp = 1 →
     ∃ m', Leads (.applyComplete i) q m m' ∧ m'.mgmt.upd = some { u with phase := 1, ready := true } ∧ fget m' mgtBase R.MGT_UPD_STATE = 3 ∧
     fget m' mgtBase R.MGT_UPD_RESULT = 0 ∧ m'.flash = m.flash) ∧
  (∀ (i : Fin 2) (u : Update) (p : Package) (q : List Instr) (m : Mach), updOn m i = true → m.mgmt.upd = some u → u.phase = 4 → u.comp = 2 →
     slotValid m 2 = some p → ∃ m', Leads (.applyComplete i) q m m' ∧ m'.mgmt.upd = some { u with phase := 1 } ∧
     fget m' mgtBase R.MGT_SEC_FACTSVN = p.svn.toNat ∧ fget m' mgtBase R.MGT_UPD_RESULT = 0 ∧ m'.flash = m.flash) ∧
  (∀ (i : Fin 2) (u : Update) (p : Package) (r : Fin 4) (q : List Instr) (m : Mach), updOn m i = true → m.mgmt.upd = some u → u.phase = 4 →
     u.comp = 3 → u.pkg = some p → p.revokes = some r → ∃ m', Leads (.applyComplete i) q m m' ∧ m'.mgmt.upd = some { u with phase := 1 } ∧
     m'.flash.revoked = setBit m.flash.revoked r true) ∧
  (∀ (i : Fin 2) (u : Update) (q : List Instr) (m : Mach), updOn m i = true → m.mgmt.upd = some u → u.phase = 1 →
     u.ready = false ∨ ditchRuns m = false → Leads (.activateFirmware i) q m ((fun y : Mach => fset { y with mgmt := { y.mgmt with upd := none } }
     mgtBase R.MGT_UPD_STATE 0) (send m (.mgmt "ActivateFirmware" [])))) ∧
  (∀ (i : Fin 2) (u : Update) (p : Package) (q : List Instr) (m : Mach), updOn m i = true → m.mgmt.upd = some u → u.phase = 1 → u.ready = true →
     ditchRuns m = true → slotValid m u.slot = some p → ∃ m', Leads (.activateFirmware i) q m m' ∧ fget m' mgtBase R.MGT_STATUS_STATE = 1 ∧
     fget m' mgtBase R.MGT_STATUS_VERSION = p.version.toNat ∧ m'.mgmt.suspended = true ∧ m'.mgmt.phy = [0, 1, 2, 3] ∧
     m'.mgmt.staged = some p.image ∧ m'.mgmt.upd = none ∧ fget m' mgtBase R.MGT_UPD_PROGPEND = 1) ∧
  (∀ (i : Fin 2) (u : Update) (p : Package) (q : List Instr) (m : Mach), updOn m i = true → m.mgmt.upd = some u → u.phase = 1 → u.ready = true →
     ditchRuns m = true → slotValid m u.slot = none → slotValid m (fget m mgtBase R.MGT_STATUS_SLOT) = some p →
     ∃ m', Leads (.activateFirmware i) q m m' ∧ fget m' mgtBase R.MGT_STATUS_STATE = 1 ∧
     fget m' mgtBase R.MGT_STATUS_SLOT = fget m mgtBase R.MGT_STATUS_SLOT ∧ fget m' mgtBase R.MGT_STATUS_VERSION = p.version.toNat ∧
     m'.mgmt.staged = m.mgmt.staged) ∧
  (∀ (i : Fin 2) (u : Update) (p : Package) (q : List Instr) (m : Mach), updOn m i = true → m.mgmt.upd = some u → u.phase = 1 → u.ready = true →
     ditchRuns m = true → slotValid m u.slot = none → slotValid m (fget m mgtBase R.MGT_STATUS_SLOT) = none → slotValid m 0 = none →
     slotValid m 1 = none → slotValid m 2 = some p → ∃ m', Leads (.activateFirmware i) q m m' ∧ fget m' mgtBase R.MGT_STATUS_STATE = 1 ∧
     fget m' mgtBase R.MGT_STATUS_SLOT = 2 ∧ fget m' mgtBase R.MGT_STATUS_VERSION = p.version.toNat ∧ m'.mgmt.staged = m.mgmt.staged) ∧
  (∀ (i : Fin 2) (u : Update) (q : List Instr) (m : Mach), updOn m i = true → m.mgmt.upd = some u → u.phase = 1 → u.ready = true →
     ditchRuns m = true → slotValid m u.slot = none → slotValid m (fget m mgtBase R.MGT_STATUS_SLOT) = none → slotValid m 0 = none →
     slotValid m 1 = none → slotValid m 2 = none → ∃ m', Leads (.activateFirmware i) q m m' ∧ fget m' mgtBase R.MGT_STATUS_STATE = 4 ∧
     m'.mgmt.staged = m.mgmt.staged) ∧
  (∀ (i : Fin 2) (q : List Instr) (m : Mach), Leads (.getStatus i) q m (if updOn m i = true then send (m) (.mgmt "GetStatus" [((m.mgmt.upd.map fun
     u => u.phase + 1).getD 0), fget m mgtBase R.MGT_UPD_STATE]) else m)) ∧
  (∀ (i : Fin 2) (u : Update) (q : List Instr) (m : Mach), updOn m i = true → m.mgmt.upd = some u → 2 ≤ u.phase →
     ∃ m', Leads (.cancelUpdateComponent i) q m m' ∧ m'.mgmt.upd = some { u with phase := 1, pkg := none } ∧ fget m' mgtBase R.MGT_UPD_RESULT = 5 ∧
     fget m' mgtBase R.MGT_UPD_STATE = (if u.ready then 3 else 1) ∧ m'.flash.fw = (if u.comp = 1 then mdel m.flash.fw u.slot else if u.comp = 2 then
     mdel m.flash.fw 2 else m.flash.fw)) ∧
  (∀ (i : Fin 2) (u : Update) (q : List Instr) (m : Mach), updOn m i = true → m.mgmt.upd = some u → ∃ m', Leads (.cancelUpdate i) q m m' ∧
     m'.mgmt.upd = none ∧ fget m' mgtBase R.MGT_UPD_RESULT = 5 ∧ fget m' mgtBase R.MGT_UPD_STATE = 0 ∧ m'.flash.fw = (if 2 ≤ u.phase ∧
     u.comp = 1 then mdel m.flash.fw u.slot else if 2 ≤ u.phase ∧ u.comp = 2 then mdel m.flash.fw 2 else m.flash.fw))

/-- On an interface that is answered: 32 heads, HOST ports among them, one logical device per head, one region of 2 MiB blocks per host and the Accepted
  extents of a port; Identify and the message limit are open content of the standard. A capacity change is unsupported with FMDC 0 and busy while one
  runs or the next slot of the keeper queue is taken; otherwise it commits a keeper descriptor with a tag that the Ditchrider chooses, which stays
  open, and has started. Submit call needs the keeper bit of the interface, is busy where that slot is taken, and commits a descriptor under the next
  tag and answers it. Read results gives the results held for the endpoint. After 60 s the oldest held result goes. It says of each of these forms
  that exec answers a next state, under hypotheses on the state and operands alone: fmIdentify, fmBackgroundOperationStatus, getResponseMessageLimit,
  getMultiHeadedInfo, getHeadInfo, getLdInfo, getDcdInfo, getHostDcRegionConfiguration, getDcRegionExtentLists, initiateDynamicCapacityAdd,
  initiateDynamicCapacityRelease, fmUnsupportedCommand, submitCall, readResults, resultHoldExpiry. -/
def Obligations.FabricManagementAndCalls : Prop :=
  (∀ (i : Fin 2) (q : List Instr) (m : Mach), Leads (.fmIdentify i) q m (if mgmtOn m i = true then send (draw m) (.mgmt "FM Identify" [drawn m])
     else m)) ∧
  (∀ (i : Fin 2) (q : List Instr) (m : Mach), Leads (.fmBackgroundOperationStatus i) q m (if mgmtOn m i = true then send (m) (.mgmt "FM Background
     Operation Status" [b2n (m.mgmt.fmTag.isSome && m.mgmt.fmResult.isNone), m.mgmt.fmResult.getD 0]) else m)) ∧
  (∀ (i : Fin 2) (q : List Instr) (m : Mach), Leads (.getResponseMessageLimit i) q m (if mgmtOn m i = true then send (draw m) (.mgmt "Get Response
     Message Limit" [drawn m]) else m)) ∧
  (∀ (i : Fin 2) (q : List Instr) (m : Mach), Leads (.getMultiHeadedInfo i) q m (if mgmtOn m i = true then send (m) (.mgmt "Get Multi-Headed Info"
     [32]) else m)) ∧
  (∀ (i : Fin 2) (q : List Instr) (m : Mach), Leads (.getHeadInfo i) q m (if mgmtOn m i = true then send (m) (.mgmt "Get Head Info" ((List.range
     32).map fun p => b2n (roleOf m p == 1))) else m)) ∧
  (∀ (i : Fin 2) (q : List Instr) (m : Mach), Leads (.getLdInfo i) q m (if mgmtOn m i = true then send (m) (.mgmt "Get LD Info" [1]) else m)) ∧
  (∀ (i : Fin 2) (q : List Instr) (m : Mach), Leads (.getDcdInfo i) q m (if mgmtOn m i = true then send (m) (.mgmt "Get DCD Info" [32, 1,
     2097152]) else m)) ∧
  (∀ (i : Fin 2) (p : Fin 32) (q : List Instr) (m : Mach), Leads (.getHostDcRegionConfiguration i p) q m (if mgmtOn m i = true then send (m)
     (.mgmt "Get Host DC Region Configuration" [1, 0, 281474976710656, 2097152]) else m)) ∧
  (∀ (i : Fin 2) (p : Fin 32) (q : List Instr) (m : Mach), Leads (.getDcRegionExtentLists i p) q m (if mgmtOn m i = true then send (m) (.mgmt "Get
     DC Region Extent Lists" (((List.range 64).filter fun e => extState m p e == 2).flatMap fun e => [extDpa m p e * 2097152, extLen m p e *
     2097152])) else m)) ∧
  (∀ (i : Fin 2) (q : List Instr) (m : Mach), Leads (.fmUnsupportedCommand i) q m (if mgmtOn m i = true then send (m) (.mgmt "FM Unsupported" [])
     else m)) ∧
  (∀ (i : Fin 2) (args : BitVec 448) (q : List Instr) (m : Mach), mgmtOn m i = false → Leads (.initiateDynamicCapacityAdd i args) q m (m)) ∧
  (∀ (i : Fin 2) (args : BitVec 448) (s : Nat) (q : List Instr) (m : Mach), mgmtOn m i = true → fon m mgtBase R.MGT_FMCTL_FMDC = true →
     m.mgmt.fmTag = none ∨ m.mgmt.fmResult ≠ none → s = (sget 0 m.ports.queues.taken 32 + (m.ports.queues.commits.filter fun k => k / 64 ==
     32).length) % 64 → slotBusy m 32 s = true → Leads (.initiateDynamicCapacityAdd i args) q m (send (m) (.mgmt "Initiate Dynamic Capacity Add
     Busy" []))) ∧
  (∀ (i : Fin 2) (args : BitVec 448) (q : List Instr) (m : Mach), mgmtOn m i = true → fon m mgtBase R.MGT_FMCTL_FMDC = false →
     Leads (.initiateDynamicCapacityAdd i args) q m (send (m) (.mgmt "Initiate Dynamic Capacity Add Unsupported" []))) ∧
  (∀ (i : Fin 2) (args : BitVec 448) (t : Nat) (q : List Instr) (m : Mach), mgmtOn m i = true → fon m mgtBase R.MGT_FMCTL_FMDC = true →
     m.mgmt.fmTag = some t → m.mgmt.fmResult = none → Leads (.initiateDynamicCapacityAdd i args) q m (send (m) (.mgmt "Initiate Dynamic Capacity Add
     Busy" []))) ∧
  (∀ (i : Fin 2) (args : BitVec 448) (s : Nat) (q : List Instr) (m : Mach), mgmtOn m i = true → fon m mgtBase R.MGT_FMCTL_FMDC = true →
     m.mgmt.fmTag = none ∨ m.mgmt.fmResult ≠ none → s = (sget 0 m.ports.queues.taken 32 + (m.ports.queues.commits.filter fun k => k / 64 ==
     32).length) % 64 → slotBusy m 32 s = false → ∃ m', Leads (.initiateDynamicCapacityAdd i args) q m m' ∧
     m'.ports.queues.commits = m.ports.queues.commits ++ [2048 + s] ∧ m'.mgmt.fmTag = some (drawn m % 2 ^ 15) ∧ m'.mgmt.fmResult = none ∧
     m'.outbox = m.outbox ++ [.mgmt "Initiate Dynamic Capacity Add Background Operation Started" []]) ∧
  (∀ (i : Fin 2) (args : BitVec 448) (q : List Instr) (m : Mach), mgmtOn m i = false → Leads (.initiateDynamicCapacityRelease i args) q m (m)) ∧
  (∀ (i : Fin 2) (args : BitVec 448) (s : Nat) (q : List Instr) (m : Mach), mgmtOn m i = true → fon m mgtBase R.MGT_FMCTL_FMDC = true →
     m.mgmt.fmTag = none ∨ m.mgmt.fmResult ≠ none → s = (sget 0 m.ports.queues.taken 32 + (m.ports.queues.commits.filter fun k => k / 64 ==
     32).length) % 64 → slotBusy m 32 s = true → Leads (.initiateDynamicCapacityRelease i args) q m (send (m) (.mgmt "Initiate Dynamic Capacity
     Release Busy" []))) ∧
  (∀ (i : Fin 2) (args : BitVec 448) (q : List Instr) (m : Mach), mgmtOn m i = true → fon m mgtBase R.MGT_FMCTL_FMDC = false →
     Leads (.initiateDynamicCapacityRelease i args) q m (send (m) (.mgmt "Initiate Dynamic Capacity Release Unsupported" []))) ∧
  (∀ (i : Fin 2) (args : BitVec 448) (t : Nat) (q : List Instr) (m : Mach), mgmtOn m i = true → fon m mgtBase R.MGT_FMCTL_FMDC = true →
     m.mgmt.fmTag = some t → m.mgmt.fmResult = none → Leads (.initiateDynamicCapacityRelease i args) q m (send (m) (.mgmt "Initiate Dynamic Capacity
     Release Busy" []))) ∧
  (∀ (i : Fin 2) (args : BitVec 448) (s : Nat) (q : List Instr) (m : Mach), mgmtOn m i = true → fon m mgtBase R.MGT_FMCTL_FMDC = true →
     m.mgmt.fmTag = none ∨ m.mgmt.fmResult ≠ none → s = (sget 0 m.ports.queues.taken 32 + (m.ports.queues.commits.filter fun k => k / 64 ==
     32).length) % 64 → slotBusy m 32 s = false → ∃ m', Leads (.initiateDynamicCapacityRelease i args) q m m' ∧
     m'.ports.queues.commits = m.ports.queues.commits ++ [2048 + s] ∧ m'.mgmt.fmTag = some (drawn m % 2 ^ 15) ∧ m'.mgmt.fmResult = none ∧
     m'.outbox = m.outbox ++ [.mgmt "Initiate Dynamic Capacity Release Background Operation Started" []]) ∧
  (∀ (i : Fin 2) (ep : BitVec 8) (entry : BitVec 8) (flags : BitVec 2) (args : BitVec 448) (q : List Instr) (m : Mach), mgmtOn m i = false →
     Leads (.submitCall i ep entry flags args) q m (m)) ∧
  (∀ (i : Fin 2) (ep : BitVec 8) (entry : BitVec 8) (flags : BitVec 2) (args : BitVec 448) (s : Nat) (q : List Instr) (m : Mach), mgmtOn m i =
     true → bitOf (fget m mgtBase R.MGT_IFCTL_KEEPER) i = true → s = (sget 0 m.ports.queues.taken 32 + (m.ports.queues.commits.filter fun k => k /
     64 == 32).length) % 64 → slotBusy m 32 s = true → Leads (.submitCall i ep entry flags args) q m (send (m) (.mgmt "Submit call Busy" []))) ∧
  (∀ (i : Fin 2) (ep : BitVec 8) (entry : BitVec 8) (flags : BitVec 2) (args : BitVec 448) (q : List Instr) (m : Mach), mgmtOn m i = true →
     bitOf (fget m mgtBase R.MGT_IFCTL_KEEPER) i = false → Leads (.submitCall i ep entry flags args) q m (send (m) (.mgmt "Submit call DENIED" []))) ∧
  (∀ (i : Fin 2) (ep : BitVec 8) (entry : BitVec 8) (flags : BitVec 2) (args : BitVec 448) (t s : Nat) (q : List Instr) (m : Mach), mgmtOn m i =
     true → bitOf (fget m mgtBase R.MGT_IFCTL_KEEPER) i = true → s = (sget 0 m.ports.queues.taken 32 + (m.ports.queues.commits.filter fun k => k /
     64 == 32).length) % 64 → slotBusy m 32 s = false → t = m.mgmt.nextTag → ∃ m', Leads (.submitCall i ep entry flags args) q m m' ∧
     m'.ports.queues.commits = m.ports.queues.commits ++ [2048 + s] ∧ mget m'.mgmt.tags t = some (ep.toNat + 256 * i.val) ∧
     m'.mgmt.nextTag = (if t = 0xFFFE then 0x8000 else t + 1) ∧ m'.outbox = m.outbox ++ [.mgmt "Submit call" [t]]) ∧
  (∀ (i : Fin 2) (ep : BitVec 8) (q : List Instr) (m : Mach), Leads (.readResults i ep) q m (if mgmtOn m i = true then send (m) (.mgmt "Read
     results" ((m.mgmt.results.filter fun r => r.ep == ep.toNat + 256 * i.val).map fun r => r.word)) else m)) ∧
  (∀ (r : HeldRes) (rest : List HeldRes) (q : List Instr) (m : Mach), m.mgmt.results = r :: rest →
     Leads .resultHoldExpiry q m ({ m with mgmt := { m.mgmt with results := rest } })) ∧
  (∀ (q : List Instr) (m : Mach), m.mgmt.results = [] → Leads .resultHoldExpiry q m (m))

/-- The recovery loader, while it runs, writes a package to slot A, gives the result of one that fails, and a valid one runs, releases FAULT# and lets
  the start go on. A flush moves the pending records to the persistent ring; a log read gives a record that the ring holds with STATUS 0, STATUS 1 for
  one that is gone and 2 for one still to come; a queued notice becomes a record of both rings once the Ditchrider runs. Commit SVN blows the fuses to
  the lower of the running and the factory package. PROGACT writes the staged program to both sides and swaps where no call runs on the old one, and
  waits while one does. A PHY swap and a KICK end what waits for them. An expiry of the watchdog at LEVEL 0 restarts the same slot at LEVEL 1, at
  LEVEL 1 the other slot at LEVEL 2, and the recovery loader where no slot is valid; at LEVEL 2 it warm-resets the module with WARM and holds the core
  without; the level falls to 0 after 60 s, and a held core restarts after 600 s at LEVEL 1. It says of each of these forms that exec answers a next
  state, under hypotheses on the state and operands alone: recoveryLoaderPackage, logFlush, logRead, noticeQueueDrain, readRecords, commitSvn,
  progact, phyFirmwareActivation, kick, watchdogExpiry, watchdogLevelDecay, watchdogHeldRestart. -/
def Obligations.DitchriderLogUpdatesAndWatchdog : Prop :=
  (∀ (pkg : Package) (env : StartEnv) (q : List Instr) (m : Mach), fget m mgtBase R.MGT_STATUS_STATE ≠ 4 →
     Leads (.recoveryLoaderPackage pkg env) q m (m)) ∧
  (∀ (pkg : Package) (env : StartEnv) (k : Fin 4) (q : List Instr) (m : Mach), fget m mgtBase R.MGT_STATUS_STATE = 4 →
     fon m aonBase R.AON_LOAD_DONE = true → pkg.formatOk = true → pkg.sigOk = true → pkg.key = some k → bitOf m.flash.revoked k = false →
     m.flash.svnFuse ≤ pkg.svn.toNat → pkg.svn.toNat ≤ 64 → opMode m = 1 → m.boot.faultLow = true →
     ∃ m', Leads (.recoveryLoaderPackage pkg env) q m m' ∧ fget m' mgtBase R.MGT_STATUS_STATE = 1 ∧ fget m' mgtBase R.MGT_STATUS_SLOT = 0 ∧
     fget m' mgtBase R.MGT_STATUS_VERSION = pkg.version.toNat ∧ m'.boot.faultLow = false ∧ slotValid m' 0 = some pkg) ∧
  (∀ (pkg : Package) (env : StartEnv) (q : List Instr) (m : Mach), fget m mgtBase R.MGT_STATUS_STATE = 4 → pkgValid m pkg = false →
     ∃ m', Leads (.recoveryLoaderPackage pkg env) q m m' ∧ fget m' mgtBase R.MGT_STATUS_STATE = 4 ∧ slotValid m' 0 = none ∧
     1 ≤ fget m' mgtBase R.MGT_UPD_RESULT ∧ m'.mgmt.upd = none) ∧
  (∀ (pkg : Package) (env : StartEnv) (q : List Instr) (m : Mach), fget m mgtBase R.MGT_STATUS_STATE = 4 → pkgValid m pkg = true → opMode m = 0 →
     m.boot.power = true → fon m aonBase R.AON_LOAD_DONE = false → Leads (.recoveryLoaderPackage pkg env) q m (startBody ((fun y : Mach =>
     { y with boot := { y.boot with timing := true } }) (faultPin (runFw
     { m with flash := { m.flash with fw := mput m.flash.fw 0 ⟨pkg, true⟩ }, mgmt := { m.mgmt with upd := none } } 0 pkg) false)) env (fon m aonBase
     R.AON_RST_CAUSE_COLD))) ∧
  (∀ (q : List Instr) (m : Mach), ditchRuns m = true → m.log.pers.length + m.log.pend.length ≤ 1048576 →
     Leads .logFlush q m (count { m with log := { m.log with pers := m.log.pers ++ m.log.pend, pend := [] } } mgtBase 0x03 (b2n
     (!m.log.pend.isEmpty)))) ∧
  (∀ (q : List Instr) (m : Mach), ditchRuns m = true → 1048576 < m.log.pers.length + m.log.pend.length →
     Leads .logFlush q m (count { m with log := { m.log with pers := (m.log.pers ++ m.log.pend).drop 1024, pend := [] } } mgtBase 0x03 (b2n
     (!m.log.pend.isEmpty)))) ∧
  (∀ (q : List Instr) (m : Mach), ditchRuns m = false → Leads .logFlush q m (m)) ∧
  (∀ (seq : BitVec 32) (boot : BitVec 16) (pers : Bool) (r : LogRec) (q : List Instr) (m : Mach), reach m (mgtBase + 0x78) = .open_ →
     ((ringOf m pers).find? fun r => recSeq r == seq.toNat && (!pers || r.boot == boot.toNat)) = some r →
     ∃ m', Leads (.logRead seq boot pers) q m m' ∧ fget m' mgtBase R.MGT_LOGRD_STATUS = 0 ∧
     (∀ w ∈ List.range 8, fget m' (mgtBase + 8 * w) R.MGT_LOGDAT_WORD = (ringWords r).getD w 0 % 2 ^ 64) ∧ m'.log = m.log) ∧
  (∀ (seq : BitVec 32) (boot : BitVec 16) (pers : Bool) (q : List Instr) (m : Mach), reach m (mgtBase + 0x78) = .open_ → pers = false →
     (m.log.ring.any fun r => recSeq r == seq.toNat) = false → (m.log.held.any fun r => recSeq r == seq.toNat) = false → seq.toNat < m.log.seq →
     ∃ m', Leads (.logRead seq boot pers) q m m' ∧ fget m' mgtBase R.MGT_LOGRD_STATUS = 1 ∧
     (∀ w ∈ List.range 8, fget m' (mgtBase + 8 * w) R.MGT_LOGDAT_WORD = 0)) ∧
  (∀ (seq : BitVec 32) (boot : BitVec 16) (pers : Bool) (q : List Instr) (m : Mach), reach m (mgtBase + 0x78) = .open_ → pers = false →
     (m.log.ring.any fun r => recSeq r == seq.toNat) = false → m.log.seq ≤ seq.toNat → ∃ m', Leads (.logRead seq boot pers) q m m' ∧
     fget m' mgtBase R.MGT_LOGRD_STATUS = 2) ∧
  (∀ (seq : BitVec 32) (boot : BitVec 16) (pers : Bool) (q : List Instr) (m : Mach), reach m (mgtBase + 0x78) = .open_ → pers = true →
     (m.log.pers.any fun r => recSeq r == seq.toNat && r.boot == boot.toNat) = false → fget m mgtBase R.MGT_LOGSTAT_BOOT < boot.toNat →
     ∃ m', Leads (.logRead seq boot pers) q m m' ∧ fget m' mgtBase R.MGT_LOGRD_STATUS = 2) ∧
  (∀ (seq : BitVec 32) (boot : BitVec 16) (pers : Bool) (q : List Instr) (m : Mach), reach m (mgtBase + 0x78) = .open_ → pers = true →
     (m.log.pers.any fun r => recSeq r == seq.toNat && r.boot == boot.toNat) = false → boot.toNat < fget m mgtBase R.MGT_LOGSTAT_BOOT →
     ∃ m', Leads (.logRead seq boot pers) q m m' ∧ fget m' mgtBase R.MGT_LOGRD_STATUS = 1 ∧
     (∀ w ∈ List.range 8, fget m' (mgtBase + 8 * w) R.MGT_LOGDAT_WORD = 0)) ∧
  (∀ (q : List Instr) (m : Mach), ditchRuns m = true → Leads .noticeQueueDrain q m ((m.log.held.foldl logWrite
     { m with log := { m.log with held := [] } }))) ∧
  (∀ (r : LogRec) (q : List Instr) (m : Mach), ditchRuns m = true → m.log.held = [r] → r.ceOnly = false → m.log.ring.length < 65536 →
     m.log.pend.length < 127 → Leads .noticeQueueDrain q m ((fun y : Mach =>
     { y with log := { y.log with ring := m.log.ring ++ [r], pend := m.log.pend ++ [r] } }) (count { m with log := { m.log with held := [] } }
     mgtBase 2))) ∧
  (∀ (q : List Instr) (m : Mach), ditchRuns m = false → Leads .noticeQueueDrain q m (m)) ∧
  (∀ (i : Fin 2) (boot : BitVec 16) (seq : BitVec 32) (pers : Bool) (q : List Instr) (m : Mach), Leads (.readRecords i boot seq pers) q m (if
     mgmtOn m i = true then send (m) (.mgmt "Read records" ((((ringOf m pers).filter fun r => r.boot == boot.toNat && seq.toNat ≤ recSeq r).take
     8).flatMap ringWords)) else m)) ∧
  (∀ (i : Fin 2) (p f : Package) (q : List Instr) (m : Mach), mgmtOn m i = true → bitOf (fget m mgtBase R.MGT_IFCTL_KEEPER) i = true →
     fwOf m = some p → slotValid m 2 = some f →
     Leads (.commitSvn i) q m (send ({ m with flash := { m.flash with svnFuse := max m.flash.svnFuse (min p.svn.toNat f.svn.toNat) } }) (.mgmt
     "Commit SVN" []))) ∧
  (∀ (i : Fin 2) (q : List Instr) (m : Mach), mgmtOn m i = true → bitOf (fget m mgtBase R.MGT_IFCTL_KEEPER) i = false →
     Leads (.commitSvn i) q m (send (m) (.mgmt "Commit SVN DENIED" []))) ∧
  (∀ (q : List Instr) (m : Mach), reach m (mgtBase + 0x50) = .open_ → m.mgmt.staged = none → Leads .progact q m (m)) ∧
  (∀ (i : Fin 2) (q : List Instr) (m : Mach), mgmtOn m i = false → Leads (.commitSvn i) q m (m)) ∧
  (∀ (i : Fin 2) (q : List Instr) (m : Mach), mgmtOn m i = true → bitOf (fget m mgtBase R.MGT_IFCTL_KEEPER) i = true →
     fwOf m = none ∨ slotValid m 2 = none → Leads (.commitSvn i) q m (send (m) (.mgmt "Commit SVN" []))) ∧
  (∀ (q : List Instr) (m : Mach), reach m (mgtBase + 0x50) = .open_ → ditchRuns m = false ∨ fon m mgtBase R.MGT_UPD_PROGBUSY = true →
     Leads .progact q m (m)) ∧
  (∀ (img : Nat) (q : List Instr) (m : Mach), reach m (mgtBase + 0x50) = .open_ → ditchRuns m = true → fon m mgtBase R.MGT_UPD_PROGBUSY = false →
     m.mgmt.staged = some img → sideUp m 0 = true → sideUp m 1 = true → domSt m 10 = 2 → domSt m 16 = 2 → (∀ sd < 2, oldBusy m sd ≠ 0) →
     ∃ m', Leads .progact q m m' ∧ m'.mgmt.staged = some img ∧ m'.mgmt.progact = [0, 1] ∧ fget m' mgtBase R.MGT_UPD_PROGBUSY = 1 ∧
     fget m' (seBase 0) R.SE_PSCTL_ACTIVE = fget m (seBase 0) R.SE_PSCTL_ACTIVE ∧
     fget m' (seBase 1) R.SE_PSCTL_ACTIVE = fget m (seBase 1) R.SE_PSCTL_ACTIVE) ∧
  (∀ (img : Nat) (q : List Instr) (m : Mach), reach m (mgtBase + 0x50) = .open_ → ditchRuns m = true → fon m mgtBase R.MGT_UPD_PROGBUSY = false →
     m.mgmt.staged = some img → sideUp m 0 = true → sideUp m 1 = true → domSt m 10 = 2 → domSt m 16 = 2 → (∀ sd < 2, oldBusy m sd = 0) →
     ∃ m', Leads .progact q m m' ∧ m'.mgmt.staged = none ∧ m'.mgmt.progact = [] ∧ fget m' mgtBase R.MGT_UPD_PROGBUSY = 0 ∧
     fget m' (seBase 0) R.SE_PSCTL_ACTIVE = 1 - fget m (seBase 0) R.SE_PSCTL_ACTIVE ∧
     fget m' (seBase 1) R.SE_PSCTL_ACTIVE = 1 - fget m (seBase 1) R.SE_PSCTL_ACTIVE) ∧
  (∀ (t : Fin 4) (q : List Instr) (m : Mach), ditchRuns m = true →
     Leads (.phyFirmwareActivation t) q m ({ m with mgmt := { m.mgmt with phy := m.mgmt.phy.filter fun x => x != t.val } })) ∧
  (∀ (t : Fin 4) (q : List Instr) (m : Mach), ditchRuns m = false → Leads (.phyFirmwareActivation t) q m (m)) ∧
  (∀ (q : List Instr) (m : Mach), reach m (mgtBase + 0x58) = .open_ → Leads .kick q m ({ m with mgmt := { m.mgmt with suspended := false } })) ∧
  (∀ (env : StartEnv) (q : List Instr) (m : Mach), ditchRuns m = false ∨ m.mgmt.suspended = true → Leads (.watchdogExpiry env) q m (m)) ∧
  (∀ (env : StartEnv) (p : Package) (s : Nat) (q : List Instr) (m : Mach), ditchRuns m = true → m.mgmt.suspended = false →
     fget m mgtBase R.MGT_WD_LEVEL = 0 → s = fget m mgtBase R.MGT_STATUS_SLOT → slotValid m s = some p → ∃ m', Leads (.watchdogExpiry env) q m m' ∧
     fget m' mgtBase R.MGT_WD_LEVEL = 1 ∧ fget m' mgtBase R.MGT_STATUS_STATE = 1 ∧ fget m' mgtBase R.MGT_STATUS_SLOT = s ∧
     fget m' mgtBase R.MGT_STATUS_VERSION = p.version.toNat ∧ m'.events = m.events ++ [⟨0x10, 0x10010, false⟩]) ∧
  (∀ (env : StartEnv) (p : Package) (s : Nat) (q : List Instr) (m : Mach), ditchRuns m = true → m.mgmt.suspended = false →
     fget m mgtBase R.MGT_WD_LEVEL = 1 → s = fget m mgtBase R.MGT_STATUS_SLOT → s < 2 → slotValid m (1 - s) = some p →
     ∃ m', Leads (.watchdogExpiry env) q m m' ∧ fget m' mgtBase R.MGT_WD_LEVEL = 2 ∧ fget m' mgtBase R.MGT_STATUS_STATE = 1 ∧
     fget m' mgtBase R.MGT_STATUS_SLOT = 1 - s ∧ fget m' mgtBase R.MGT_STATUS_VERSION = p.version.toNat ∧
     m'.events = m.events ++ [⟨0x10, 0x20010, false⟩]) ∧
  (∀ (env : StartEnv) (q : List Instr) (m : Mach), ditchRuns m = true → m.mgmt.suspended = false → fget m mgtBase R.MGT_WD_LEVEL < 2 →
     slotValid m 0 = none → slotValid m 1 = none → slotValid m 2 = none → fget m mgtBase R.MGT_STATUS_SLOT < 3 →
     ∃ m', Leads (.watchdogExpiry env) q m m' ∧ fget m' mgtBase R.MGT_WD_LEVEL = fget m mgtBase R.MGT_WD_LEVEL + 1 ∧
     fget m' mgtBase R.MGT_STATUS_STATE = 4 ∧ m'.boot.faultLow = true) ∧
  (∀ (env : StartEnv) (q : List Instr) (m : Mach), ditchRuns m = true → m.mgmt.suspended = false → fget m mgtBase R.MGT_WD_LEVEL = 2 →
     fon m mgtBase R.MGT_WD_WARM = true → Leads (.watchdogExpiry env) q m (warmReset (notice (eventRecord (fset (fsat m mgtBase R.MGT_WD_EXPIRIES)
     mgtBase R.MGT_WD_LEVEL 0) 8 0 0 0 0 []) 0x10 0 0) env 7)) ∧
  (∀ (env : StartEnv) (q : List Instr) (m : Mach), ditchRuns m = true → m.mgmt.suspended = false → fget m mgtBase R.MGT_WD_LEVEL = 2 →
     fon m mgtBase R.MGT_WD_WARM = false → ∃ m', Leads (.watchdogExpiry env) q m m' ∧ fget m' mgtBase R.MGT_WD_LEVEL = 3 ∧
     fget m' mgtBase R.MGT_STATUS_STATE = 3 ∧ m'.events = m.events ++ [⟨0x10, 0x30010, false⟩]) ∧
  (∀ (q : List Instr) (m : Mach), fget m mgtBase R.MGT_WD_LEVEL ≠ 3 → Leads .watchdogLevelDecay q m (fset m mgtBase R.MGT_WD_LEVEL 0)) ∧
  (∀ (q : List Instr) (m : Mach), fget m mgtBase R.MGT_WD_LEVEL = 3 → Leads .watchdogLevelDecay q m (m)) ∧
  (∀ (p : Package) (q : List Instr) (m : Mach), fget m mgtBase R.MGT_STATUS_STATE = 3 → slotValid m 0 = none → slotValid m 1 = none →
     slotValid m 2 = some p → ∃ m', Leads .watchdogHeldRestart q m m' ∧ fget m' mgtBase R.MGT_STATUS_STATE = 1 ∧
     fget m' mgtBase R.MGT_STATUS_SLOT = 2 ∧ fget m' mgtBase R.MGT_STATUS_VERSION = p.version.toNat ∧ fget m' mgtBase R.MGT_WD_LEVEL = 1) ∧
  (∀ (a b : Package) (s : Nat) (q : List Instr) (m : Mach), fget m mgtBase R.MGT_STATUS_STATE = 3 → slotValid m 0 = some a →
     slotValid m 1 = some b → s = (if a.version.toNat < b.version.toNat then 1 else 0) → ∃ m', Leads .watchdogHeldRestart q m m' ∧
     fget m' mgtBase R.MGT_STATUS_STATE = 1 ∧ fget m' mgtBase R.MGT_STATUS_SLOT = s ∧ fget m' mgtBase R.MGT_WD_LEVEL = 1) ∧
  (∀ (p : Package) (s : Fin 2) (q : List Instr) (m : Mach), fget m mgtBase R.MGT_STATUS_STATE = 3 → slotValid m s = some p →
     slotValid m (1 - s.val) = none → ∃ m', Leads .watchdogHeldRestart q m m' ∧ fget m' mgtBase R.MGT_STATUS_STATE = 1 ∧
     fget m' mgtBase R.MGT_STATUS_SLOT = s ∧ fget m' mgtBase R.MGT_WD_LEVEL = 1) ∧
  (∀ (q : List Instr) (m : Mach), fget m mgtBase R.MGT_STATUS_STATE = 3 → slotValid m 0 = none → slotValid m 1 = none → slotValid m 2 = none →
     ∃ m', Leads .watchdogHeldRestart q m m' ∧ fget m' mgtBase R.MGT_STATUS_STATE = 4 ∧ m'.boot.faultLow = true ∧ fget m' mgtBase R.MGT_WD_LEVEL = 1) ∧
  (∀ (q : List Instr) (m : Mach), fget m mgtBase R.MGT_STATUS_STATE ≠ 3 → Leads .watchdogHeldRestart q m (m))
end

