-- ==== Sys2Proof/Laws/Control.lean ====
section
/-! SUPPORT. A command that is the write of a register whose domain answers does its effect, whatever the address. -/

namespace Sys2Proof.Machine

theorem gated_open {m : Mach} {a : Nat} (h : reach m a = .open_) (v : Nat) (f : Mach → Mach) : gated a v f m = f m := by
  unfold gated; rw [h]

theorem gatedReg_open {m : Mach} {a : Nat} (h : reach m a = .open_) (fs : Mach → List (Fld × Nat)) (f : Mach → Mach) : gatedReg a fs f m = f m := by
  unfold gatedReg; exact gated_open h _ _

/-- A command that is performed leads where its effect leads. -/
theorem leads_act {i : Instr} {q : List Instr} {m : Mach} {f : Mach → Mach} (h : exec i ⟨q, m⟩ = act ⟨q, m⟩ f) : Leads i q m (f m) := h

end Sys2Proof.Machine
end

