-- ==== Sys2Proof/Laws/Engine.lean ====
section
/-! SUPPORT. Issue of an instruction by an engine that stands at its word, once for all instructions. -/

namespace Sys2Proof.Machine

theorem passFences_stay {m : Mach} {e : Nat}
    (h : progWord m (engSide e) (engOf m e).bank (engOf m e).pc ≠ fenceWord) (n : Nat) : passFences n e m = m := by
  cases n with
  | zero => rfl
  | succ n => simp [passFences, h]

/-- An engine that stands at a word performs it. -/
theorem issueIf_at {m : Mach} {e w : Nat} (h : atWord m e w = true) {ok : Nat → Bool} (hok : ok w = true) (k : Mach → Mach) :
    issueIf e ok k m = k m := by
  simp only [atWord, Bool.and_eq_true, beq_iff_eq, Bool.not_eq_true', decide_eq_true_eq, bne_iff_ne] at h
  obtain ⟨⟨⟨⟨⟨⟨⟨hst, hw⟩, ht⟩, hl⟩, hpc⟩, hb⟩, hp⟩, hf⟩ := h
  have hstay := passFences_stay (m := m) (e := e) (by rw [hp]; exact hf)
  unfold issueIf
  simp only [hstay, hst, hw, hl, hb, hp, hok]
  have ht' : (engOf m e).trap.isSome = false := by
    revert ht; cases (engOf m e).trap <;> simp
  simp [ht', Nat.not_le.mpr hpc]

theorem issue_at {m : Mach} {e w : Nat} (h : atWord m e w = true) (k : Mach → Mach) : issue e w k m = k m :=
  issueIf_at h (by simp) k

end Sys2Proof.Machine
end

