-- ==== Sys2Proof/Laws/Map.lean ====
section
/-! SUPPORT. What is read after a cell, a register field or a part of the machine is written, and that every write keeps the canonical form. -/

namespace Sys2Proof.Machine

/-! ## Cells -/

theorem mget_mput {α : Type} (m : List (Nat × α)) (k j : Nat) (v : α) : mget (mput m k v) j = if k = j then some v else mget m j := by
  induction m with
  | nil => simp [mput, mget]
  | cons c m ih =>
    obtain ⟨a, x⟩ := c
    simp only [mput]
    split
    · subst a; simp only [mget]; split <;> simp_all
    · split
      · simp only [mget]
      · simp only [mget, ih]; split <;> split <;> simp_all

theorem mget_mdel {α : Type} (m : List (Nat × α)) (k j : Nat) : mget (mdel m k) j = if k = j then none else mget m j := by
  induction m with
  | nil => simp [mdel, mget]
  | cons c m ih =>
    obtain ⟨a, x⟩ := c
    simp only [mdel]
    split
    · subst a; simp only [ih, mget]; split <;> simp_all
    · simp only [mget, ih]; split <;> split <;> simp_all

/-- A cell reads as written, and every other cell as before. -/
theorem sget_sset {α : Type} [DecidableEq α] (d : α) (m : List (Nat × α)) (k j : Nat) (v : α) :
    sget d (sset d m k v) j = if k = j then v else sget d m j := by
  unfold sget sset
  split
  · subst v; rw [mget_mdel]; split <;> simp
  · rw [mget_mput]; split <;> simp

theorem rising_mput {α : Type} (m : List (Nat × α)) (k : Nat) (v : α) (h : Rising m) : Rising (mput m k v) := by
  induction m with
  | nil => simp [mput, Rising]
  | cons c m ih =>
    obtain ⟨a, x⟩ := c
    simp only [mput]
    split
    · subst a; exact ⟨h.1, h.2⟩
    · split
      · refine ⟨?_, h⟩
        intro p hp
        rcases List.mem_cons.mp hp with rfl | hp
        · assumption
        · exact Nat.lt_trans (by assumption) (h.1 p hp)
      · refine ⟨?_, ih h.2⟩
        intro p hp
        have key : ∀ (l : List (Nat × α)), (∀ q ∈ l, a < q.1) → a < k → ∀ q ∈ mput l k v, a < q.1 := by
          intro l hl hk
          induction l with
          | nil => intro q hq; simp [mput] at hq; subst hq; exact hk
          | cons d l il =>
            obtain ⟨b, y⟩ := d
            intro q hq
            simp only [mput] at hq
            split at hq
            · rcases List.mem_cons.mp hq with rfl | hq
              · exact hk
              · exact hl q (List.mem_cons_of_mem _ hq)
            · split at hq
              · rcases List.mem_cons.mp hq with rfl | hq
                · exact hk
                · exact hl q hq
              · rcases List.mem_cons.mp hq with rfl | hq
                · exact hl _ (List.mem_cons_self ..)
                · exact il (fun q hq => hl q (List.mem_cons_of_mem _ hq)) q hq
        exact key m h.1 (by omega) p hp

theorem mem_mdel {α : Type} (m : List (Nat × α)) (k : Nat) (c : Nat × α) (h : c ∈ mdel m k) : c ∈ m := by
  induction m with
  | nil => exact h
  | cons d m ih =>
    obtain ⟨a, x⟩ := d
    simp only [mdel] at h
    split at h
    · exact List.mem_cons_of_mem _ (ih h)
    · rcases List.mem_cons.mp h with rfl | h
      · exact List.mem_cons_self ..
      · exact List.mem_cons_of_mem _ (ih h)

theorem rising_mdel {α : Type} (m : List (Nat × α)) (k : Nat) (h : Rising m) : Rising (mdel m k) := by
  induction m with
  | nil => exact h
  | cons c m ih =>
    obtain ⟨a, x⟩ := c
    simp only [mdel]
    split
    · exact ih h.2
    · exact ⟨fun p hp => h.1 p (mem_mdel m k p hp), ih h.2⟩

theorem mem_mput {α : Type} (m : List (Nat × α)) (k : Nat) (v : α) (c : Nat × α) (h : c ∈ mput m k v) : c = (k, v) ∨ c ∈ m := by
  induction m with
  | nil => simp [mput] at h; exact .inl h
  | cons d m ih =>
    obtain ⟨a, x⟩ := d
    simp only [mput] at h
    split at h
    · rcases List.mem_cons.mp h with h | h
      · exact .inl h
      · exact .inr (List.mem_cons_of_mem _ h)
    · split at h
      · rcases List.mem_cons.mp h with h | h
        · exact .inl h
        · exact .inr h
      · rcases List.mem_cons.mp h with rfl | h
        · exact .inr (List.mem_cons_self ..)
        · rcases ih h with h | h
          · exact .inl h
          · exact .inr (List.mem_cons_of_mem _ h)

/-- A write keeps the canonical form. -/
theorem canon_sset {α : Type} [DecidableEq α] (d : α) (m : List (Nat × α)) (k : Nat) (v : α) (h : Canon d m) : Canon d (sset d m k v) := by
  unfold sset
  split
  · exact ⟨rising_mdel m k h.1, fun c hc => h.2 c (mem_mdel m k c hc)⟩
  · refine ⟨rising_mput m k v h.1, fun c hc => ?_⟩
    rcases mem_mput m k v c hc with rfl | hc
    · assumption
    · exact h.2 c hc

/-- Dropping cells keeps the canonical form. -/
theorem canon_mdrop {α : Type} (d : α) (m : List (Nat × α)) (p : Nat → Bool) (h : Canon d m) : Canon d (mdrop m p) := by
  refine ⟨?_, fun c hc => h.2 c ((List.mem_filter.mp hc).1)⟩
  have key : ∀ l : List (Nat × α), Rising l → Rising (l.filter fun c => !p c.1) := by
    intro l
    induction l with
    | nil => exact fun h => h
    | cons c l ih =>
      obtain ⟨a, x⟩ := c
      intro h
      simp only [List.filter_cons]
      split
      · exact ⟨fun q hq => h.1 q ((List.mem_filter.mp hq).1), ih h.2⟩
      · exact ih h.2
  exact key m h.1

/-! ## Register fields -/

/-- A register field reads as written, modulo its width. -/
theorem fget_fset_same (m : Mach) (b : Nat) (f : Fld) (v : Nat) : fget (fset m b f v) b f = v % 2 ^ f.w := by
  unfold fget fset; rw [sget_sset]; simp

/-- A field fits its width. -/
theorem fget_lt (m : Mach) (b : Nat) (f : Fld) : fget m b f < 2 ^ f.w := Nat.mod_lt _ (Nat.two_pow_pos _)

/-- A field with another key reads as before. -/
theorem fget_fset_other (m : Mach) (b c : Nat) (f g : Fld) (v : Nat) (h : (b + f.off) * 8 + f.lo ≠ (c + g.off) * 8 + g.lo) :
    fget (fset m b f v) c g = fget m c g := by
  unfold fget fset sget sset
  split
  · rw [mget_mdel, if_neg h]
  · rw [mget_mput, if_neg h]

/-- A counter reads as written, and every other counter as before. -/
theorem cntOf_cntPut (m : Mach) (b c j k : Nat) (x : Cnt) :
    cntOf (cntPut m b k x) c j = if b * 8 + k = c * 8 + j then x else cntOf m c j := by
  unfold cntOf cntPut; exact sget_sset ..

end Sys2Proof.Machine
end

