-- ==== Sys2Proof/Laws/State.lean ====
section
/-! SUPPORT. What each update of the machine leaves as it was, field by field. -/

namespace Sys2Proof.Machine

@[simp] theorem fset_cnts (m : Mach) (b : Nat) (f : Fld) (v : Nat) : (fset m b f v).cnts = m.cnts := rfl
@[simp] theorem fset_home (m : Mach) (b : Nat) (f : Fld) (v : Nat) : (fset m b f v).home = m.home := rfl
@[simp] theorem fset_rsv (m : Mach) (b : Nat) (f : Fld) (v : Nat) : (fset m b f v).rsv = m.rsv := rfl
@[simp] theorem fset_twIn (m : Mach) (b : Nat) (f : Fld) (v : Nat) : (fset m b f v).twIn = m.twIn := rfl
@[simp] theorem fset_tw (m : Mach) (b : Nat) (f : Fld) (v : Nat) : (fset m b f v).tw = m.tw := rfl
@[simp] theorem fset_twin (m : Mach) (b : Nat) (f : Fld) (v : Nat) : (fset m b f v).twin = m.twin := rfl
@[simp] theorem fset_comp (m : Mach) (b : Nat) (f : Fld) (v : Nat) : (fset m b f v).comp = m.comp := rfl
@[simp] theorem fset_ports (m : Mach) (b : Nat) (f : Fld) (v : Nat) : (fset m b f v).ports = m.ports := rfl
@[simp] theorem fset_eng (m : Mach) (b : Nat) (f : Fld) (v : Nat) : (fset m b f v).eng = m.eng := rfl
@[simp] theorem fset_done (m : Mach) (b : Nat) (f : Fld) (v : Nat) : (fset m b f v).done = m.done := rfl
@[simp] theorem fset_events (m : Mach) (b : Nat) (f : Fld) (v : Nat) : (fset m b f v).events = m.events := rfl
@[simp] theorem fset_log (m : Mach) (b : Nat) (f : Fld) (v : Nat) : (fset m b f v).log = m.log := rfl
@[simp] theorem fset_loops (m : Mach) (b : Nat) (f : Fld) (v : Nat) : (fset m b f v).loops = m.loops := rfl
@[simp] theorem fset_twDone (m : Mach) (b : Nat) (f : Fld) (v : Nat) : (fset m b f v).twDone = m.twDone := rfl
@[simp] theorem fset_sampleQ (m : Mach) (b : Nat) (f : Fld) (v : Nat) : (fset m b f v).sampleQ = m.sampleQ := rfl
@[simp] theorem fset_fretDone (m : Mach) (b : Nat) (f : Fld) (v : Nat) : (fset m b f v).fretDone = m.fretDone := rfl
@[simp] theorem fset_retireQ (m : Mach) (b : Nat) (f : Fld) (v : Nat) : (fset m b f v).retireQ = m.retireQ := rfl
@[simp] theorem fset_net (m : Mach) (b : Nat) (f : Fld) (v : Nat) : (fset m b f v).net = m.net := rfl
@[simp] theorem fset_ras (m : Mach) (b : Nat) (f : Fld) (v : Nat) : (fset m b f v).ras = m.ras := rfl
@[simp] theorem fset_flash (m : Mach) (b : Nat) (f : Fld) (v : Nat) : (fset m b f v).flash = m.flash := rfl
@[simp] theorem fset_boot (m : Mach) (b : Nat) (f : Fld) (v : Nat) : (fset m b f v).boot = m.boot := rfl
@[simp] theorem fset_pwr (m : Mach) (b : Nat) (f : Fld) (v : Nat) : (fset m b f v).pwr = m.pwr := rfl
@[simp] theorem fset_mgmt (m : Mach) (b : Nat) (f : Fld) (v : Nat) : (fset m b f v).mgmt = m.mgmt := rfl
@[simp] theorem fset_col (m : Mach) (b : Nat) (f : Fld) (v : Nat) : (fset m b f v).col = m.col := rfl
@[simp] theorem fset_fails (m : Mach) (b : Nat) (f : Fld) (v : Nat) : (fset m b f v).fails = m.fails := rfl
@[simp] theorem fset_markStart (m : Mach) (b : Nat) (f : Fld) (v : Nat) : (fset m b f v).markStart = m.markStart := rfl
@[simp] theorem fset_clash (m : Mach) (b : Nat) (f : Fld) (v : Nat) : (fset m b f v).clash = m.clash := rfl
@[simp] theorem fset_outbox (m : Mach) (b : Nat) (f : Fld) (v : Nat) : (fset m b f v).outbox = m.outbox := rfl
@[simp] theorem fset_nextId (m : Mach) (b : Nat) (f : Fld) (v : Nat) : (fset m b f v).nextId = m.nextId := rfl
@[simp] theorem fset_free (m : Mach) (b : Nat) (f : Fld) (v : Nat) : (fset m b f v).free = m.free := rfl
@[simp] theorem fset_timeUs (m : Mach) (b : Nat) (f : Fld) (v : Nat) : (fset m b f v).timeUs = m.timeUs := rfl

@[simp] theorem send_regs (m : Mach) (o : Out) : (send m o).regs = m.regs := rfl
@[simp] theorem send_cnts (m : Mach) (o : Out) : (send m o).cnts = m.cnts := rfl
@[simp] theorem send_home (m : Mach) (o : Out) : (send m o).home = m.home := rfl
@[simp] theorem send_rsv (m : Mach) (o : Out) : (send m o).rsv = m.rsv := rfl
@[simp] theorem send_twIn (m : Mach) (o : Out) : (send m o).twIn = m.twIn := rfl
@[simp] theorem send_tw (m : Mach) (o : Out) : (send m o).tw = m.tw := rfl
@[simp] theorem send_twin (m : Mach) (o : Out) : (send m o).twin = m.twin := rfl
@[simp] theorem send_comp (m : Mach) (o : Out) : (send m o).comp = m.comp := rfl
@[simp] theorem send_ports (m : Mach) (o : Out) : (send m o).ports = m.ports := rfl
@[simp] theorem send_eng (m : Mach) (o : Out) : (send m o).eng = m.eng := rfl
@[simp] theorem send_done (m : Mach) (o : Out) : (send m o).done = m.done := rfl
@[simp] theorem send_events (m : Mach) (o : Out) : (send m o).events = m.events := rfl
@[simp] theorem send_log (m : Mach) (o : Out) : (send m o).log = m.log := rfl
@[simp] theorem send_loops (m : Mach) (o : Out) : (send m o).loops = m.loops := rfl
@[simp] theorem send_twDone (m : Mach) (o : Out) : (send m o).twDone = m.twDone := rfl
@[simp] theorem send_sampleQ (m : Mach) (o : Out) : (send m o).sampleQ = m.sampleQ := rfl
@[simp] theorem send_fretDone (m : Mach) (o : Out) : (send m o).fretDone = m.fretDone := rfl
@[simp] theorem send_retireQ (m : Mach) (o : Out) : (send m o).retireQ = m.retireQ := rfl
@[simp] theorem send_net (m : Mach) (o : Out) : (send m o).net = m.net := rfl
@[simp] theorem send_ras (m : Mach) (o : Out) : (send m o).ras = m.ras := rfl
@[simp] theorem send_flash (m : Mach) (o : Out) : (send m o).flash = m.flash := rfl
@[simp] theorem send_boot (m : Mach) (o : Out) : (send m o).boot = m.boot := rfl
@[simp] theorem send_pwr (m : Mach) (o : Out) : (send m o).pwr = m.pwr := rfl
@[simp] theorem send_mgmt (m : Mach) (o : Out) : (send m o).mgmt = m.mgmt := rfl
@[simp] theorem send_col (m : Mach) (o : Out) : (send m o).col = m.col := rfl
@[simp] theorem send_fails (m : Mach) (o : Out) : (send m o).fails = m.fails := rfl
@[simp] theorem send_markStart (m : Mach) (o : Out) : (send m o).markStart = m.markStart := rfl
@[simp] theorem send_clash (m : Mach) (o : Out) : (send m o).clash = m.clash := rfl
@[simp] theorem send_nextId (m : Mach) (o : Out) : (send m o).nextId = m.nextId := rfl
@[simp] theorem send_free (m : Mach) (o : Out) : (send m o).free = m.free := rfl
@[simp] theorem send_timeUs (m : Mach) (o : Out) : (send m o).timeUs = m.timeUs := rfl

@[simp] theorem notice_regs (m : Mach) (c i d : Nat) : (notice m c i d).regs = m.regs := rfl
@[simp] theorem notice_cnts (m : Mach) (c i d : Nat) : (notice m c i d).cnts = m.cnts := rfl
@[simp] theorem notice_home (m : Mach) (c i d : Nat) : (notice m c i d).home = m.home := rfl
@[simp] theorem notice_rsv (m : Mach) (c i d : Nat) : (notice m c i d).rsv = m.rsv := rfl
@[simp] theorem notice_twIn (m : Mach) (c i d : Nat) : (notice m c i d).twIn = m.twIn := rfl
@[simp] theorem notice_tw (m : Mach) (c i d : Nat) : (notice m c i d).tw = m.tw := rfl
@[simp] theorem notice_twin (m : Mach) (c i d : Nat) : (notice m c i d).twin = m.twin := rfl
@[simp] theorem notice_comp (m : Mach) (c i d : Nat) : (notice m c i d).comp = m.comp := rfl
@[simp] theorem notice_ports (m : Mach) (c i d : Nat) : (notice m c i d).ports = m.ports := rfl
@[simp] theorem notice_eng (m : Mach) (c i d : Nat) : (notice m c i d).eng = m.eng := rfl
@[simp] theorem notice_done (m : Mach) (c i d : Nat) : (notice m c i d).done = m.done := rfl
@[simp] theorem notice_log (m : Mach) (c i d : Nat) : (notice m c i d).log = m.log := rfl
@[simp] theorem notice_loops (m : Mach) (c i d : Nat) : (notice m c i d).loops = m.loops := rfl
@[simp] theorem notice_twDone (m : Mach) (c i d : Nat) : (notice m c i d).twDone = m.twDone := rfl
@[simp] theorem notice_sampleQ (m : Mach) (c i d : Nat) : (notice m c i d).sampleQ = m.sampleQ := rfl
@[simp] theorem notice_fretDone (m : Mach) (c i d : Nat) : (notice m c i d).fretDone = m.fretDone := rfl
@[simp] theorem notice_retireQ (m : Mach) (c i d : Nat) : (notice m c i d).retireQ = m.retireQ := rfl
@[simp] theorem notice_net (m : Mach) (c i d : Nat) : (notice m c i d).net = m.net := rfl
@[simp] theorem notice_ras (m : Mach) (c i d : Nat) : (notice m c i d).ras = m.ras := rfl
@[simp] theorem notice_flash (m : Mach) (c i d : Nat) : (notice m c i d).flash = m.flash := rfl
@[simp] theorem notice_boot (m : Mach) (c i d : Nat) : (notice m c i d).boot = m.boot := rfl
@[simp] theorem notice_pwr (m : Mach) (c i d : Nat) : (notice m c i d).pwr = m.pwr := rfl
@[simp] theorem notice_mgmt (m : Mach) (c i d : Nat) : (notice m c i d).mgmt = m.mgmt := rfl
@[simp] theorem notice_col (m : Mach) (c i d : Nat) : (notice m c i d).col = m.col := rfl
@[simp] theorem notice_fails (m : Mach) (c i d : Nat) : (notice m c i d).fails = m.fails := rfl
@[simp] theorem notice_markStart (m : Mach) (c i d : Nat) : (notice m c i d).markStart = m.markStart := rfl
@[simp] theorem notice_clash (m : Mach) (c i d : Nat) : (notice m c i d).clash = m.clash := rfl
@[simp] theorem notice_outbox (m : Mach) (c i d : Nat) : (notice m c i d).outbox = m.outbox := rfl
@[simp] theorem notice_nextId (m : Mach) (c i d : Nat) : (notice m c i d).nextId = m.nextId := rfl
@[simp] theorem notice_free (m : Mach) (c i d : Nat) : (notice m c i d).free = m.free := rfl
@[simp] theorem notice_timeUs (m : Mach) (c i d : Nat) : (notice m c i d).timeUs = m.timeUs := rfl

@[simp] theorem complete_regs (m : Mach) (d : Done) : (complete m d).regs = m.regs := rfl
@[simp] theorem complete_cnts (m : Mach) (d : Done) : (complete m d).cnts = m.cnts := rfl
@[simp] theorem complete_home (m : Mach) (d : Done) : (complete m d).home = m.home := rfl
@[simp] theorem complete_rsv (m : Mach) (d : Done) : (complete m d).rsv = m.rsv := rfl
@[simp] theorem complete_twIn (m : Mach) (d : Done) : (complete m d).twIn = m.twIn := rfl
@[simp] theorem complete_tw (m : Mach) (d : Done) : (complete m d).tw = m.tw := rfl
@[simp] theorem complete_twin (m : Mach) (d : Done) : (complete m d).twin = m.twin := rfl
@[simp] theorem complete_comp (m : Mach) (d : Done) : (complete m d).comp = m.comp := rfl
@[simp] theorem complete_ports (m : Mach) (d : Done) : (complete m d).ports = m.ports := rfl
@[simp] theorem complete_eng (m : Mach) (d : Done) : (complete m d).eng = m.eng := rfl
@[simp] theorem complete_events (m : Mach) (d : Done) : (complete m d).events = m.events := rfl
@[simp] theorem complete_log (m : Mach) (d : Done) : (complete m d).log = m.log := rfl
@[simp] theorem complete_loops (m : Mach) (d : Done) : (complete m d).loops = m.loops := rfl
@[simp] theorem complete_twDone (m : Mach) (d : Done) : (complete m d).twDone = m.twDone := rfl
@[simp] theorem complete_sampleQ (m : Mach) (d : Done) : (complete m d).sampleQ = m.sampleQ := rfl
@[simp] theorem complete_fretDone (m : Mach) (d : Done) : (complete m d).fretDone = m.fretDone := rfl
@[simp] theorem complete_retireQ (m : Mach) (d : Done) : (complete m d).retireQ = m.retireQ := rfl
@[simp] theorem complete_net (m : Mach) (d : Done) : (complete m d).net = m.net := rfl
@[simp] theorem complete_ras (m : Mach) (d : Done) : (complete m d).ras = m.ras := rfl
@[simp] theorem complete_flash (m : Mach) (d : Done) : (complete m d).flash = m.flash := rfl
@[simp] theorem complete_boot (m : Mach) (d : Done) : (complete m d).boot = m.boot := rfl
@[simp] theorem complete_pwr (m : Mach) (d : Done) : (complete m d).pwr = m.pwr := rfl
@[simp] theorem complete_mgmt (m : Mach) (d : Done) : (complete m d).mgmt = m.mgmt := rfl
@[simp] theorem complete_col (m : Mach) (d : Done) : (complete m d).col = m.col := rfl
@[simp] theorem complete_fails (m : Mach) (d : Done) : (complete m d).fails = m.fails := rfl
@[simp] theorem complete_markStart (m : Mach) (d : Done) : (complete m d).markStart = m.markStart := rfl
@[simp] theorem complete_clash (m : Mach) (d : Done) : (complete m d).clash = m.clash := rfl
@[simp] theorem complete_outbox (m : Mach) (d : Done) : (complete m d).outbox = m.outbox := rfl
@[simp] theorem complete_nextId (m : Mach) (d : Done) : (complete m d).nextId = m.nextId := rfl
@[simp] theorem complete_free (m : Mach) (d : Done) : (complete m d).free = m.free := rfl
@[simp] theorem complete_timeUs (m : Mach) (d : Done) : (complete m d).timeUs = m.timeUs := rfl

@[simp] theorem draw_regs (m : Mach) : (draw m).regs = m.regs := rfl
@[simp] theorem draw_cnts (m : Mach) : (draw m).cnts = m.cnts := rfl
@[simp] theorem draw_home (m : Mach) : (draw m).home = m.home := rfl
@[simp] theorem draw_rsv (m : Mach) : (draw m).rsv = m.rsv := rfl
@[simp] theorem draw_twIn (m : Mach) : (draw m).twIn = m.twIn := rfl
@[simp] theorem draw_tw (m : Mach) : (draw m).tw = m.tw := rfl
@[simp] theorem draw_twin (m : Mach) : (draw m).twin = m.twin := rfl
@[simp] theorem draw_comp (m : Mach) : (draw m).comp = m.comp := rfl
@[simp] theorem draw_ports (m : Mach) : (draw m).ports = m.ports := rfl
@[simp] theorem draw_eng (m : Mach) : (draw m).eng = m.eng := rfl
@[simp] theorem draw_done (m : Mach) : (draw m).done = m.done := rfl
@[simp] theorem draw_events (m : Mach) : (draw m).events = m.events := rfl
@[simp] theorem draw_log (m : Mach) : (draw m).log = m.log := rfl
@[simp] theorem draw_loops (m : Mach) : (draw m).loops = m.loops := rfl
@[simp] theorem draw_twDone (m : Mach) : (draw m).twDone = m.twDone := rfl
@[simp] theorem draw_sampleQ (m : Mach) : (draw m).sampleQ = m.sampleQ := rfl
@[simp] theorem draw_fretDone (m : Mach) : (draw m).fretDone = m.fretDone := rfl
@[simp] theorem draw_retireQ (m : Mach) : (draw m).retireQ = m.retireQ := rfl
@[simp] theorem draw_net (m : Mach) : (draw m).net = m.net := rfl
@[simp] theorem draw_ras (m : Mach) : (draw m).ras = m.ras := rfl
@[simp] theorem draw_flash (m : Mach) : (draw m).flash = m.flash := rfl
@[simp] theorem draw_boot (m : Mach) : (draw m).boot = m.boot := rfl
@[simp] theorem draw_pwr (m : Mach) : (draw m).pwr = m.pwr := rfl
@[simp] theorem draw_mgmt (m : Mach) : (draw m).mgmt = m.mgmt := rfl
@[simp] theorem draw_col (m : Mach) : (draw m).col = m.col := rfl
@[simp] theorem draw_fails (m : Mach) : (draw m).fails = m.fails := rfl
@[simp] theorem draw_markStart (m : Mach) : (draw m).markStart = m.markStart := rfl
@[simp] theorem draw_clash (m : Mach) : (draw m).clash = m.clash := rfl
@[simp] theorem draw_outbox (m : Mach) : (draw m).outbox = m.outbox := rfl
@[simp] theorem draw_nextId (m : Mach) : (draw m).nextId = m.nextId := rfl
@[simp] theorem draw_timeUs (m : Mach) : (draw m).timeUs = m.timeUs := rfl

@[simp] theorem cntPut_regs (m : Mach) (b k : Nat) (c : Cnt) : (cntPut m b k c).regs = m.regs := rfl
@[simp] theorem cntPut_home (m : Mach) (b k : Nat) (c : Cnt) : (cntPut m b k c).home = m.home := rfl
@[simp] theorem cntPut_rsv (m : Mach) (b k : Nat) (c : Cnt) : (cntPut m b k c).rsv = m.rsv := rfl
@[simp] theorem cntPut_twIn (m : Mach) (b k : Nat) (c : Cnt) : (cntPut m b k c).twIn = m.twIn := rfl
@[simp] theorem cntPut_tw (m : Mach) (b k : Nat) (c : Cnt) : (cntPut m b k c).tw = m.tw := rfl
@[simp] theorem cntPut_twin (m : Mach) (b k : Nat) (c : Cnt) : (cntPut m b k c).twin = m.twin := rfl
@[simp] theorem cntPut_comp (m : Mach) (b k : Nat) (c : Cnt) : (cntPut m b k c).comp = m.comp := rfl
@[simp] theorem cntPut_ports (m : Mach) (b k : Nat) (c : Cnt) : (cntPut m b k c).ports = m.ports := rfl
@[simp] theorem cntPut_eng (m : Mach) (b k : Nat) (c : Cnt) : (cntPut m b k c).eng = m.eng := rfl
@[simp] theorem cntPut_done (m : Mach) (b k : Nat) (c : Cnt) : (cntPut m b k c).done = m.done := rfl
@[simp] theorem cntPut_events (m : Mach) (b k : Nat) (c : Cnt) : (cntPut m b k c).events = m.events := rfl
@[simp] theorem cntPut_log (m : Mach) (b k : Nat) (c : Cnt) : (cntPut m b k c).log = m.log := rfl
@[simp] theorem cntPut_loops (m : Mach) (b k : Nat) (c : Cnt) : (cntPut m b k c).loops = m.loops := rfl
@[simp] theorem cntPut_twDone (m : Mach) (b k : Nat) (c : Cnt) : (cntPut m b k c).twDone = m.twDone := rfl
@[simp] theorem cntPut_sampleQ (m : Mach) (b k : Nat) (c : Cnt) : (cntPut m b k c).sampleQ = m.sampleQ := rfl
@[simp] theorem cntPut_fretDone (m : Mach) (b k : Nat) (c : Cnt) : (cntPut m b k c).fretDone = m.fretDone := rfl
@[simp] theorem cntPut_retireQ (m : Mach) (b k : Nat) (c : Cnt) : (cntPut m b k c).retireQ = m.retireQ := rfl
@[simp] theorem cntPut_net (m : Mach) (b k : Nat) (c : Cnt) : (cntPut m b k c).net = m.net := rfl
@[simp] theorem cntPut_ras (m : Mach) (b k : Nat) (c : Cnt) : (cntPut m b k c).ras = m.ras := rfl
@[simp] theorem cntPut_flash (m : Mach) (b k : Nat) (c : Cnt) : (cntPut m b k c).flash = m.flash := rfl
@[simp] theorem cntPut_boot (m : Mach) (b k : Nat) (c : Cnt) : (cntPut m b k c).boot = m.boot := rfl
@[simp] theorem cntPut_pwr (m : Mach) (b k : Nat) (c : Cnt) : (cntPut m b k c).pwr = m.pwr := rfl
@[simp] theorem cntPut_mgmt (m : Mach) (b k : Nat) (c : Cnt) : (cntPut m b k c).mgmt = m.mgmt := rfl
@[simp] theorem cntPut_col (m : Mach) (b k : Nat) (c : Cnt) : (cntPut m b k c).col = m.col := rfl
@[simp] theorem cntPut_fails (m : Mach) (b k : Nat) (c : Cnt) : (cntPut m b k c).fails = m.fails := rfl
@[simp] theorem cntPut_markStart (m : Mach) (b k : Nat) (c : Cnt) : (cntPut m b k c).markStart = m.markStart := rfl
@[simp] theorem cntPut_clash (m : Mach) (b k : Nat) (c : Cnt) : (cntPut m b k c).clash = m.clash := rfl
@[simp] theorem cntPut_outbox (m : Mach) (b k : Nat) (c : Cnt) : (cntPut m b k c).outbox = m.outbox := rfl
@[simp] theorem cntPut_nextId (m : Mach) (b k : Nat) (c : Cnt) : (cntPut m b k c).nextId = m.nextId := rfl
@[simp] theorem cntPut_free (m : Mach) (b k : Nat) (c : Cnt) : (cntPut m b k c).free = m.free := rfl
@[simp] theorem cntPut_timeUs (m : Mach) (b k : Nat) (c : Cnt) : (cntPut m b k c).timeUs = m.timeUs := rfl

@[simp] theorem engSet_regs (m : Mach) (e : Nat) (x : Eng) : (engSet m e x).regs = m.regs := rfl
@[simp] theorem engSet_cnts (m : Mach) (e : Nat) (x : Eng) : (engSet m e x).cnts = m.cnts := rfl
@[simp] theorem engSet_home (m : Mach) (e : Nat) (x : Eng) : (engSet m e x).home = m.home := rfl
@[simp] theorem engSet_rsv (m : Mach) (e : Nat) (x : Eng) : (engSet m e x).rsv = m.rsv := rfl
@[simp] theorem engSet_twIn (m : Mach) (e : Nat) (x : Eng) : (engSet m e x).twIn = m.twIn := rfl
@[simp] theorem engSet_tw (m : Mach) (e : Nat) (x : Eng) : (engSet m e x).tw = m.tw := rfl
@[simp] theorem engSet_twin (m : Mach) (e : Nat) (x : Eng) : (engSet m e x).twin = m.twin := rfl
@[simp] theorem engSet_comp (m : Mach) (e : Nat) (x : Eng) : (engSet m e x).comp = m.comp := rfl
@[simp] theorem engSet_ports (m : Mach) (e : Nat) (x : Eng) : (engSet m e x).ports = m.ports := rfl
@[simp] theorem engSet_done (m : Mach) (e : Nat) (x : Eng) : (engSet m e x).done = m.done := rfl
@[simp] theorem engSet_events (m : Mach) (e : Nat) (x : Eng) : (engSet m e x).events = m.events := rfl
@[simp] theorem engSet_log (m : Mach) (e : Nat) (x : Eng) : (engSet m e x).log = m.log := rfl
@[simp] theorem engSet_loops (m : Mach) (e : Nat) (x : Eng) : (engSet m e x).loops = m.loops := rfl
@[simp] theorem engSet_twDone (m : Mach) (e : Nat) (x : Eng) : (engSet m e x).twDone = m.twDone := rfl
@[simp] theorem engSet_sampleQ (m : Mach) (e : Nat) (x : Eng) : (engSet m e x).sampleQ = m.sampleQ := rfl
@[simp] theorem engSet_fretDone (m : Mach) (e : Nat) (x : Eng) : (engSet m e x).fretDone = m.fretDone := rfl
@[simp] theorem engSet_retireQ (m : Mach) (e : Nat) (x : Eng) : (engSet m e x).retireQ = m.retireQ := rfl
@[simp] theorem engSet_net (m : Mach) (e : Nat) (x : Eng) : (engSet m e x).net = m.net := rfl
@[simp] theorem engSet_ras (m : Mach) (e : Nat) (x : Eng) : (engSet m e x).ras = m.ras := rfl
@[simp] theorem engSet_flash (m : Mach) (e : Nat) (x : Eng) : (engSet m e x).flash = m.flash := rfl
@[simp] theorem engSet_boot (m : Mach) (e : Nat) (x : Eng) : (engSet m e x).boot = m.boot := rfl
@[simp] theorem engSet_pwr (m : Mach) (e : Nat) (x : Eng) : (engSet m e x).pwr = m.pwr := rfl
@[simp] theorem engSet_mgmt (m : Mach) (e : Nat) (x : Eng) : (engSet m e x).mgmt = m.mgmt := rfl
@[simp] theorem engSet_col (m : Mach) (e : Nat) (x : Eng) : (engSet m e x).col = m.col := rfl
@[simp] theorem engSet_fails (m : Mach) (e : Nat) (x : Eng) : (engSet m e x).fails = m.fails := rfl
@[simp] theorem engSet_markStart (m : Mach) (e : Nat) (x : Eng) : (engSet m e x).markStart = m.markStart := rfl
@[simp] theorem engSet_clash (m : Mach) (e : Nat) (x : Eng) : (engSet m e x).clash = m.clash := rfl
@[simp] theorem engSet_outbox (m : Mach) (e : Nat) (x : Eng) : (engSet m e x).outbox = m.outbox := rfl
@[simp] theorem engSet_nextId (m : Mach) (e : Nat) (x : Eng) : (engSet m e x).nextId = m.nextId := rfl
@[simp] theorem engSet_free (m : Mach) (e : Nat) (x : Eng) : (engSet m e x).free = m.free := rfl
@[simp] theorem engSet_timeUs (m : Mach) (e : Nat) (x : Eng) : (engSet m e x).timeUs = m.timeUs := rfl

@[simp] theorem gput_regs (m : Mach) (e r : Nat) (v : Word) : (gput m e r v).regs = m.regs := by unfold gput; split <;> rfl
@[simp] theorem gput_cnts (m : Mach) (e r : Nat) (v : Word) : (gput m e r v).cnts = m.cnts := by unfold gput; split <;> rfl
@[simp] theorem gput_home (m : Mach) (e r : Nat) (v : Word) : (gput m e r v).home = m.home := by unfold gput; split <;> rfl
@[simp] theorem gput_rsv (m : Mach) (e r : Nat) (v : Word) : (gput m e r v).rsv = m.rsv := by unfold gput; split <;> rfl
@[simp] theorem gput_twIn (m : Mach) (e r : Nat) (v : Word) : (gput m e r v).twIn = m.twIn := by unfold gput; split <;> rfl
@[simp] theorem gput_tw (m : Mach) (e r : Nat) (v : Word) : (gput m e r v).tw = m.tw := by unfold gput; split <;> rfl
@[simp] theorem gput_twin (m : Mach) (e r : Nat) (v : Word) : (gput m e r v).twin = m.twin := by unfold gput; split <;> rfl
@[simp] theorem gput_comp (m : Mach) (e r : Nat) (v : Word) : (gput m e r v).comp = m.comp := by unfold gput; split <;> rfl
@[simp] theorem gput_ports (m : Mach) (e r : Nat) (v : Word) : (gput m e r v).ports = m.ports := by unfold gput; split <;> rfl
@[simp] theorem gput_done (m : Mach) (e r : Nat) (v : Word) : (gput m e r v).done = m.done := by unfold gput; split <;> rfl
@[simp] theorem gput_events (m : Mach) (e r : Nat) (v : Word) : (gput m e r v).events = m.events := by unfold gput; split <;> rfl
@[simp] theorem gput_log (m : Mach) (e r : Nat) (v : Word) : (gput m e r v).log = m.log := by unfold gput; split <;> rfl
@[simp] theorem gput_loops (m : Mach) (e r : Nat) (v : Word) : (gput m e r v).loops = m.loops := by unfold gput; split <;> rfl
@[simp] theorem gput_twDone (m : Mach) (e r : Nat) (v : Word) : (gput m e r v).twDone = m.twDone := by unfold gput; split <;> rfl
@[simp] theorem gput_sampleQ (m : Mach) (e r : Nat) (v : Word) : (gput m e r v).sampleQ = m.sampleQ := by unfold gput; split <;> rfl
@[simp] theorem gput_fretDone (m : Mach) (e r : Nat) (v : Word) : (gput m e r v).fretDone = m.fretDone := by unfold gput; split <;> rfl
@[simp] theorem gput_retireQ (m : Mach) (e r : Nat) (v : Word) : (gput m e r v).retireQ = m.retireQ := by unfold gput; split <;> rfl
@[simp] theorem gput_net (m : Mach) (e r : Nat) (v : Word) : (gput m e r v).net = m.net := by unfold gput; split <;> rfl
@[simp] theorem gput_ras (m : Mach) (e r : Nat) (v : Word) : (gput m e r v).ras = m.ras := by unfold gput; split <;> rfl
@[simp] theorem gput_flash (m : Mach) (e r : Nat) (v : Word) : (gput m e r v).flash = m.flash := by unfold gput; split <;> rfl
@[simp] theorem gput_boot (m : Mach) (e r : Nat) (v : Word) : (gput m e r v).boot = m.boot := by unfold gput; split <;> rfl
@[simp] theorem gput_pwr (m : Mach) (e r : Nat) (v : Word) : (gput m e r v).pwr = m.pwr := by unfold gput; split <;> rfl
@[simp] theorem gput_mgmt (m : Mach) (e r : Nat) (v : Word) : (gput m e r v).mgmt = m.mgmt := by unfold gput; split <;> rfl
@[simp] theorem gput_col (m : Mach) (e r : Nat) (v : Word) : (gput m e r v).col = m.col := by unfold gput; split <;> rfl
@[simp] theorem gput_fails (m : Mach) (e r : Nat) (v : Word) : (gput m e r v).fails = m.fails := by unfold gput; split <;> rfl
@[simp] theorem gput_markStart (m : Mach) (e r : Nat) (v : Word) : (gput m e r v).markStart = m.markStart := by unfold gput; split <;> rfl
@[simp] theorem gput_clash (m : Mach) (e r : Nat) (v : Word) : (gput m e r v).clash = m.clash := by unfold gput; split <;> rfl
@[simp] theorem gput_outbox (m : Mach) (e r : Nat) (v : Word) : (gput m e r v).outbox = m.outbox := by unfold gput; split <;> rfl
@[simp] theorem gput_nextId (m : Mach) (e r : Nat) (v : Word) : (gput m e r v).nextId = m.nextId := by unfold gput; split <;> rfl
@[simp] theorem gput_free (m : Mach) (e r : Nat) (v : Word) : (gput m e r v).free = m.free := by unfold gput; split <;> rfl
@[simp] theorem gput_timeUs (m : Mach) (e r : Nat) (v : Word) : (gput m e r v).timeUs = m.timeUs := by unfold gput; split <;> rfl

@[simp] theorem cfgSet_regs (m : Mach) (p : Nat) (c : HostCfg) : (cfgSet m p c).regs = m.regs := rfl
@[simp] theorem cfgSet_cnts (m : Mach) (p : Nat) (c : HostCfg) : (cfgSet m p c).cnts = m.cnts := rfl
@[simp] theorem cfgSet_home (m : Mach) (p : Nat) (c : HostCfg) : (cfgSet m p c).home = m.home := rfl
@[simp] theorem cfgSet_rsv (m : Mach) (p : Nat) (c : HostCfg) : (cfgSet m p c).rsv = m.rsv := rfl
@[simp] theorem cfgSet_twIn (m : Mach) (p : Nat) (c : HostCfg) : (cfgSet m p c).twIn = m.twIn := rfl
@[simp] theorem cfgSet_tw (m : Mach) (p : Nat) (c : HostCfg) : (cfgSet m p c).tw = m.tw := rfl
@[simp] theorem cfgSet_twin (m : Mach) (p : Nat) (c : HostCfg) : (cfgSet m p c).twin = m.twin := rfl
@[simp] theorem cfgSet_comp (m : Mach) (p : Nat) (c : HostCfg) : (cfgSet m p c).comp = m.comp := rfl
@[simp] theorem cfgSet_eng (m : Mach) (p : Nat) (c : HostCfg) : (cfgSet m p c).eng = m.eng := rfl
@[simp] theorem cfgSet_done (m : Mach) (p : Nat) (c : HostCfg) : (cfgSet m p c).done = m.done := rfl
@[simp] theorem cfgSet_events (m : Mach) (p : Nat) (c : HostCfg) : (cfgSet m p c).events = m.events := rfl
@[simp] theorem cfgSet_log (m : Mach) (p : Nat) (c : HostCfg) : (cfgSet m p c).log = m.log := rfl
@[simp] theorem cfgSet_loops (m : Mach) (p : Nat) (c : HostCfg) : (cfgSet m p c).loops = m.loops := rfl
@[simp] theorem cfgSet_twDone (m : Mach) (p : Nat) (c : HostCfg) : (cfgSet m p c).twDone = m.twDone := rfl
@[simp] theorem cfgSet_sampleQ (m : Mach) (p : Nat) (c : HostCfg) : (cfgSet m p c).sampleQ = m.sampleQ := rfl
@[simp] theorem cfgSet_fretDone (m : Mach) (p : Nat) (c : HostCfg) : (cfgSet m p c).fretDone = m.fretDone := rfl
@[simp] theorem cfgSet_retireQ (m : Mach) (p : Nat) (c : HostCfg) : (cfgSet m p c).retireQ = m.retireQ := rfl
@[simp] theorem cfgSet_net (m : Mach) (p : Nat) (c : HostCfg) : (cfgSet m p c).net = m.net := rfl
@[simp] theorem cfgSet_ras (m : Mach) (p : Nat) (c : HostCfg) : (cfgSet m p c).ras = m.ras := rfl
@[simp] theorem cfgSet_flash (m : Mach) (p : Nat) (c : HostCfg) : (cfgSet m p c).flash = m.flash := rfl
@[simp] theorem cfgSet_boot (m : Mach) (p : Nat) (c : HostCfg) : (cfgSet m p c).boot = m.boot := rfl
@[simp] theorem cfgSet_pwr (m : Mach) (p : Nat) (c : HostCfg) : (cfgSet m p c).pwr = m.pwr := rfl
@[simp] theorem cfgSet_mgmt (m : Mach) (p : Nat) (c : HostCfg) : (cfgSet m p c).mgmt = m.mgmt := rfl
@[simp] theorem cfgSet_col (m : Mach) (p : Nat) (c : HostCfg) : (cfgSet m p c).col = m.col := rfl
@[simp] theorem cfgSet_fails (m : Mach) (p : Nat) (c : HostCfg) : (cfgSet m p c).fails = m.fails := rfl
@[simp] theorem cfgSet_markStart (m : Mach) (p : Nat) (c : HostCfg) : (cfgSet m p c).markStart = m.markStart := rfl
@[simp] theorem cfgSet_clash (m : Mach) (p : Nat) (c : HostCfg) : (cfgSet m p c).clash = m.clash := rfl
@[simp] theorem cfgSet_outbox (m : Mach) (p : Nat) (c : HostCfg) : (cfgSet m p c).outbox = m.outbox := rfl
@[simp] theorem cfgSet_nextId (m : Mach) (p : Nat) (c : HostCfg) : (cfgSet m p c).nextId = m.nextId := rfl
@[simp] theorem cfgSet_free (m : Mach) (p : Nat) (c : HostCfg) : (cfgSet m p c).free = m.free := rfl
@[simp] theorem cfgSet_timeUs (m : Mach) (p : Nat) (c : HostCfg) : (cfgSet m p c).timeUs = m.timeUs := rfl

@[simp] theorem draw_free (m : Mach) : (draw m).free = m.free + 1 := rfl
@[simp] theorem send_outbox (m : Mach) (o : Out) : (send m o).outbox = m.outbox ++ [o] := rfl
@[simp] theorem complete_done (m : Mach) (d : Done) : (complete m d).done = m.done ++ [d] := rfl

end Sys2Proof.Machine
end

