-- ==== Sys2Proof/WellFormed.lean ====
section
/-! DEFINITION. Which commands the outside world can send at all: bounds on operands that the manual or the standards give, where the operand's type is
wider. A command that is ill-formed has an effect all the same; nothing is claimed of it. -/

namespace Sys2Proof

/-- A DMA read asks for 1 to 4,096 bytes (R368). -/
def readLenOk (n : Fin 4097) : Bool := decide (1 ≤ n.val)

/-- A posted write carries 1 to 256 bytes (R368, Table 14-1). -/
def writeLenOk (n : Fin 257) : Bool := decide (1 ≤ n.val)

/-- A link trains at a rate and a width that PT_LINK can show (Table 14-12). -/
def linkOk (rate : Fin 8) (width : Fin 4) : Bool := decide (1 ≤ rate.val) && decide (rate.val ≤ 6) && decide (1 ≤ width.val)

/-- At most eight pairs of CFGSEL measurements, each a ratio of at most 1 (R417, R418). -/
def StartEnv.ok (e : StartEnv) : Bool := decide (e.cfgsel.length ≤ 8) && e.cfgsel.all fun p => decide (p.1 ≤ 10000) && decide (p.2 ≤ 10000)

/-- As many readings as there are sensors (R450, R464). -/
def Sample.ok (x : Sample) : Bool :=
  decide (x.temps.length ≤ 80) && decide (x.volts.length ≤ 40) && decide (x.rails.length ≤ 12)

/-- Is the command one that can be sent? -/
def WellFormed : Instr → Bool
  | .ioDmaRead _ _ _ n _ _ => readLenOk n
  | .ioPostedWrite _ _ n _ _ _ _ _ _ => writeLenOk n
  | .linkUp _ rate width _ _ _ => linkOk rate width
  | .powerOn _ e => e.ok
  | .mrstRelease _ e => e.ok
  | .startTimeout e => e.ok
  | .feedPresent _ e => e.ok
  | .spillwayEntryComplete e => e.ok
  | .orderlyModuleWarmReset e => e.ok
  | .immediateModuleWarmReset e => e.ok
  | .coldResetRequest e => e.ok
  | .recoveryExit e => e.ok
  | .recoveryLoaderPackage _ e => e.ok
  | .watchdogExpiry e => e.ok
  | .thermalSample x => x.ok
  | _ => true

end Sys2Proof
end

