-- ==== Sys2Proof/Tests/Slice0.lean ====
section
/-! SUPPORT. Tests: ill-formed commands that the check refuses, small single steps with results from the manual, and a state and operands that meet
the hypotheses of each statement. -/

set_option Elab.async false

open Sys2Proof Sys2Proof.Machine

/-- Engine `e` with state `x`, running at word 0 of its bank 0, which holds `w`. -/
def wRun (e w : Nat) (x : Eng) : Mach :=
  engSet { Mach.reset with eng := { Engines.reset with prog := [(progKey (engSide e) 0 0, w)] } } e { x with st := .running }

/-- A keeper call. -/
def wC : Call :=
  { id := 7, from_ := .keeper, tag := 9, entry := 17, notify := false, first := true, posted := false, gone := false, side := 0, eng := some 0
    args := [], pc := 0, keeper := true, bank := 0, gen := 0, maxt := 0 }

/-- `m` with call record `c`. -/
def wWith (c : Call) (m : Mach) : Mach := { m with ports := { m.ports with queues := { m.ports.queues with calls := [c] } } }

/-- Engine `e` running that call at word `w`. -/
def wCall (e w : Nat) : Mach := wWith wC (wRun e w { Eng.fresh with call := some 7, keeper := true, queue := 1 })

/-- Engine 0 waits in a POST of that call, of port 0 for `queue` 0, and every result entry of its queue is taken. -/
def wFull (queue : Nat) : Mach :=
  let m := wWith (if queue = 0 then { wC with from_ := .host 0 } else wC)
    (wRun 0 (encX 0x30 0 0 0 0) { Eng.fresh with call := some 7, queue := queue })
  let m := engSet m 0 { engOf m 0 with st := .waiting }
  { m with ports := { m.ports with queues := { m.ports.queues with results := List.replicate 256 (if queue = 0 then 0 else 32, 0) } } }

/-- The call is ready and no engine has it. -/
def wReady : Mach := wWith { wC with eng := none } Mach.reset

theorem witness_stored_words : (∃ j : Nat, j < 8) ∧ (∃ n : Nat, 4 ≤ n) ∧ ∃ set : Nat, set < 2 ^ 26 :=
  ⟨⟨7, by decide⟩, ⟨4, by decide⟩, ⟨2 ^ 26 - 1, by decide⟩⟩

/-- Register fields set in turn: base, field, value. -/
def wSet (l : List (Nat × Fld × Nat)) (m : Mach) : Mach := l.foldl (fun m x => fset m x.1 x.2.1 x.2.2) m

/-- Every power domain On, Normal mode, the Ditchrider running; port 0 a HOST port, port 8 a MEM port and port 16 an IO port, each Up. -/
def wOn : Mach :=
  wSet ((List.range 26).map (fun d => (8 * d, R.PWR_DOM_STATE, 2)) ++
    [(aonBase, R.AON_OPMODE_MODE, 1), (aonBase, R.AON_OPMODE_SIDE_UP, 3), (mgtBase, R.MGT_STATUS_STATE, 1),
     (ptBase 0, R.PT_ROLE_ROLE, 1), (ptBase 0, R.PT_LINK_STATE, 3), (ptBase 8, R.PT_ROLE_ROLE, 2), (ptBase 8, R.PT_LINK_STATE, 3),
     (ptBase 16, R.PT_ROLE_ROLE, 3), (ptBase 16, R.PT_LINK_STATE, 3)]) Mach.reset

/-- The same with both levelling loops suspended, as their controllers are in Bypass. -/
def wQuiet : Mach := wSet [(lvlBase 0, R.LVL_STATUS_STATE, 3), (lvlBase 1, R.LVL_STATUS_STATE, 3)] wOn

/-- The same with power. -/
def wPow : Mach := { wOn with boot := { wOn.boot with power := true } }

/-- A source of sampler 5 is due and `n` samples wait. -/
def wSmp (n : Nat) : Mach := { wOn with col := { wOn.col with due := [5 * 64 + 3], samples := List.replicate n [] } }

theorem wSmp_due (n : Nat) : (wSmp n).col.due = [5 * 64 + 3] := rfl

theorem wSmp_samples (n : Nat) : (wSmp n).col.samples.length = n := by simp [wSmp]

/-- The persistent ring holds `n` records and one waits for it. -/
def wPers (n : Nat) : Mach := { wOn with log := { wOn.log with pers := List.replicate n ⟨[], 0⟩, pend := [⟨[], 0⟩] } }

theorem wPers_log (n : Nat) : (wPers n).log.pers.length + (wPers n).log.pend.length = n + 1 := by simp [wPers]

/-- A call runs on the inactive bank on each side. -/
def wOldBusy : Mach :=
  engSet (engSet wOn 0 { Eng.fresh with st := .running, call := some 7, bank := 1 }) 16 { Eng.fresh with st := .running, call := some 8, bank := 1 }

/-- A keeper call on engine 3 at a control load of Side A's TWN_HIMARK. -/
def wCtl : Mach :=
  let m := engSet { wOn with eng := { wOn.eng with greg := [(32 * 3 + 1, 0x80000000010E0050#64)], prog := [(progKey 0 0 0, 0x16 * 2 ^ 26 + 2 ^ 16)] } } 3
    { Eng.fresh with st := .running, keeper := true }
  m

/-- A valid package in every firmware slot. -/
def wFw : Mach :=
  let p : Pkg := ⟨⟨true, 5, 3, some 1, true, none, 0, 0⟩, true⟩
  { wOn with flash := { wOn.flash with fw := [(0, p), (1, p), (2, p)] } }

/-- A descriptor of entry 17 in the internal queue, and a valid keeper entry for Side A. -/
def wIq : Mach :=
  { wOn with
    ports := { wOn.ports with queues := { Queues.reset with iq := [⟨17, 9, []⟩] } }
    eng := { wOn.eng with prog := [(progKey 0 0 (0x3FC00 + 4 * 17), 2 ^ 18 + 2 ^ 19 + 2 ^ 20)] } }

/-- Port 0 with a committed decoder of 256 MiB, an Accepted extent of one plot and a region that permits it. -/
def wHost : Mach :=
  wSet [(ptBase 0, R.PT_VEXT_B_STATE, 2)] (cfgSet
    { wOn with comp := { wOn.comp with hdm := [(0, ⟨0, 1, 0, true, false⟩)], regions := [(0, ⟨2 ^ 59, 1⟩)] } } 0 { cfgOf wOn 0 with biEn := true })

/-- The same with a region that permits no access. -/
def wHostOff : Mach := { wHost with comp := { wHost.comp with regions := [(0, ⟨2 ^ 59, 0⟩)] } }

/-- `m` with snoop `s` open. -/
def wSnp (s : OpenSnp) (m : Mach) : Mach := { m with ports := { m.ports with snps := [s] } }

/-- IO port 16 with a window of 4 KiB at 0 that permits every access, and a region that permits it. -/
def wIo : Mach :=
  wSet [(ptBase 16, R.PT_IOWINA_SIZE, 12), (ptBase 16, R.PT_IOWINA_EN, 1), (ptBase 16, R.PT_IOWINA_R, 1), (ptBase 16, R.PT_IOWINA_W, 1),
        (ptBase 16, R.PT_IOWINA_ATOM, 1), (ptBase 16, R.PT_IOORD_WINDOW, 256)]
    { wOn with comp := { wOn.comp with regions := [(0, ⟨2 ^ 59, 2 ^ 16⟩)] } }

/-- A request of line `l`. -/
def wQ (op : Op) (src : Src) (l : Nat) (data : Line := 0) (mask : Mask := 0) : Req :=
  { op := op, src := src, pln := l, data := data, mask := mask, poison := false }

/-- A miss register of slice `h` and line `l`. -/
def wMs (h l : Nat) (p : Phase) (reqs : List Req := []) (buf : Option Img := none) : Mshr :=
  { freshMshr h (wQ .load (.load 0) l) with phase := p, reqs := reqs, buf := buf, coh := true, own := false }

/-- An entry of the transaction table of port 16. -/
def wPtt (id : Nat) (posted : Bool) : Ptt :=
  { id := id, port := 16, tag := 7, req := wQ .ioWrite (.io 16 id) 0, held := false, posted := posted, prepared := false, released := false
    ro := false, ido := false, rid := 0, notice := none, off := 0, len := 64, got := none, dead := false, ask := 0 }

/-- A posted write of port 16, prepared at slice 0 and released by its tile. -/
def wRel : Mach :=
  { wIo with
    ports := { wIo.ports with relQ := [(0, 0, 16, 4)], ptt := [wPtt 4 true] }
    home := { wIo.home with mshrs := [wMs 0 0 .prepared [wQ .ioWrite (.io 16 4) 0]] } }

/-- Ports 0, 8 and 16 training, with their cables present. -/
def wTrain : Mach :=
  wSet ([0, 8, 16].flatMap fun p => [(ptBase p, R.PT_LINK_STATE, 1), (ptBase p, R.PT_LINK_PRESENT, 1)]) wOn

/-- Three reads sent to the sled of port 8: of flume channel 1, of a miss register, and one that a failed side had sent. -/
def wSled : Mach :=
  { wOn with
    ports := { wOn.ports with sleds := [⟨5, 8, 0, .flumeRead 1 2, 0, true, false, ⟨0, false⟩, 0, false⟩, ⟨6, 8, 0, .fill 0 0 false, 0, true, false, ⟨0, false⟩, 0, false⟩,
      ⟨7, 8, 0, .flumeRead 1 2, 0, true, true, ⟨0, false⟩, 0, false⟩] }
    home := { wOn.home with mshrs := [wMs 0 0 .sled] } }

/-- Miss registers of slice 0 that hold four sets of one directory cache set open, and one that waits for another set. -/
def wDc : Mach :=
  { wOn with
    home := { wOn.home with
      dc := (List.range 4).map fun w => (w, ⟨0, w + 1, false⟩)
      mshrs := wMs 0 0 .dirFill :: (List.range 4).map fun w => wMs 0 (plnOf wOn 0 ((w + 1) * 2048)) .sled } }

/-- A prefetch of line 0 at slice 0, on a region and placement that let it be fetched. -/
def wPf : Mach :=
  wSet [(ptBase 8, R.PT_MEMCTL_STATE, 0), (hsBase 0, R.HS_STATUS_STATE, 1)]
    { wOn with
      comp := { wOn.comp with regions := [(0, ⟨2 ^ 59, 1 + 2 ^ 34 + 2 ^ 35 + 2 ^ 36⟩)], plc := [(0, 2 ^ 28 + 8 * 2 ^ 23)] }
      home := { wOn.home with pfQ := [(0, 0)] } }

/-- Side A's Reservoir on, its controllers Serving. -/
def wRsv : Mach := wSet ((List.range 8).map fun k => (rsvBase k, R.RSV_STATUS_STATE, 2)) wOn

/-- The slot of line `2 * l` on side A, holding it in state `st`. -/
def wSlot (l : Nat) (st : SlotSt) : Slot := ⟨(installAt wOn 0 l).2.1, st, (installAt wOn 0 l).2.2, 9⟩

/-- That Reservoir with the slot in its place. -/
def wSlotM (st : SlotSt) : Mach := setSlot wRsv 0 (installAt wOn 0 0).1 (some (wSlot 0 st))

/-- Plot 0 placed on plot 0 of an Up port 8. -/
def wPlc (m : Mach) : Mach :=
  { fset m (ptBase 8) R.PT_MEMCTL_STATE 0 with comp := { m.comp with plc := [(0, 2 ^ 28 + 8 * 2 ^ 23), (2 ^ 27, 2 ^ 28 + 8 * 2 ^ 23)] } }

/-- That Reservoir with a dirty line, and the cleaner of side A at slot `i`. -/
def wCl (i : Nat) : Mach :=
  let m := fset (wPlc (wSlotM .dirty)) (twnBase 0) R.TWN_GAUGE_CLEANING 1
  { m with rsv := { m.rsv with cleanPtr := sset 0 [] 0 i } }

/-- A tailwater entry of line 0 with one location, sled plot 0 of port 8. -/
def wTw (st : TwSt) (left : List Nat) : TwEnt := ⟨0, 0, ⟨9, false⟩, fullMask, [(8, 0)], left, st, [], 0⟩

/-- An offered dirty line whose slot holds another dirty line that has no room in the tailwater buffer. -/
def wOff : Mach :=
  let m := wSet [(rsvBase 0, R.RSV_TWCTL_PORTMAX, 0), (ptBase 8, R.PT_MEMCTL_STATE, 0)] (setSlot wRsv 0 (installAt wOn 0 1).1 (some ⟨99, .dirty, 0, 9⟩))
  let plot := plotOf (plnOf m 0 (slotLine m 0 (installAt wOn 0 1).1 ⟨99, .dirty, 0, 9⟩))
  { m with comp := { m.comp with plc := [(plot, 2 ^ 28 + 8 * 2 ^ 23)] }, rsv := { m.rsv with offers := [⟨0, 2, ⟨9, false⟩, true, false, .fill⟩] } }

/-- `n` staged entries of line 9 on side `t`, and a stream. -/
def wStaged (n t : Nat) (s : List (Nat × Stream)) : Mach :=
  { wOn with twin := { wOn.twin with staged := List.replicate n ⟨t, 9, ⟨4, false⟩, false⟩, stream := s } }

theorem stagedOn_wStaged (n t : Nat) (s : List (Nat × Stream)) : stagedOn (wStaged n t s) t = n := by simp [stagedOn, wStaged]

theorem any_wStaged (n t l : Nat) (s : List (Nat × Stream)) (h : l ≠ 9) :
    ((wStaged n t s).twin.staged.any fun x => x.sd == t && x.pln == l) = false := by
  simp only [wStaged, List.any_replicate]; simp [Ne.symm h]

theorem find_wStaged (n t : Nat) (s : List (Nat × Stream)) :
    ((wStaged (n + 1) t s).twin.staged.find? fun x => x.sd == t && !x.pending) = some ⟨t, 9, ⟨4, false⟩, false⟩ := by
  simp [wStaged, List.replicate_succ]

/-- Side A's levelling loop on over an idle window with every controller Serving: fields of LVL_STATUS first. -/
def wLvl (l : List (Fld × Nat)) : Mach := wSet (l.map fun x => (lvlBase 0, x.1, x.2)) wRsv

/-- A rekey of side A whose first old slot of channel 0 holds a clean line. -/
def wRek : Mach := setSlot (wLvl [(R.LVL_STATUS_STATE, 2)]) 0 0 (some ⟨0, .clean, 0, 9⟩)

/-- MEM ports 8 and 9; plot 0 is on port 8 and hot; port 9 may take it. -/
def wTick : Mach :=
  wSet [(ptBase 9, R.PT_ROLE_ROLE, 2), (ptBase 9, R.PT_LINK_STATE, 3), (ptBase 9, R.PT_MEMCTL_STATE, 0), (lvlBase 0, R.PLC_CTL2_DEST, 2 ^ 9),
        (lvlBase 0, R.PLC_CTL_PROPMAX, 1), (lvlBase 0, R.PLC_CTL_EN, 1), (lvlBase 0, R.PLC_CTL_MINHOT, 4)]
    { wPlc wOn with loops := { wOn.loops with hot := [(0, ⟨0, 100, 1⟩)] } }

/-- That rekey with keys for the other epoch. -/
def wRek2 : Mach := { wRek with rsv := { wRek.rsv with keys := [(1, [3, 5, 7, 9])] } }

/-- A range operation of engine 0, with lines to send and lines open. -/
def wRange (op first lines begun : Nat) (toSend open_ : List Nat) (fin : Nat) : RangeOp := ⟨0, op, first, lines, begun, toSend, open_, fin, 0, false, false⟩

/-- Side A serving with that operation, whose handle an engine holds. -/
def wRg (r : RangeOp) (m : Mach) : Mach := { wPlc m with eng := { m.eng with ranges := [r] } }

/-- A flume operation on channel 0 and its channel in state `st`. -/
def wFl (kind steps src dst fin : Nat) (run : List FlumeStep) (begun : Nat) : FlumeOp := ⟨0, kind, steps, src, dst, fin, run, begun, 0, false, false⟩
def wFm (f : FlumeOp) (st : Nat) : Mach :=
  fset { wPlc wOn with eng := { wOn.eng with flumes := [f] } } (fcBase 0) R.FC_STATUS_STATE st

/-- Probe 2 of side A watches the packets of REQ that leave its root router for child port 1. -/
def wProbe : Mach :=
  wSet [(nocBase 0 + 64, R.NOC_PRBCTL_EN, 1), (nocBase 0 + 64, R.NOC_PRBCTL_RTR, 0), (nocBase 0 + 64, R.NOC_PRBCTL_PORT, wPort), (nocBase 0 + 64, R.NOC_PRBCTL_DIR, 1),
        (nocBase 0 + 64, R.NOC_PRBCTL_VNMASK, 255)] wOn
where
  /-- The child port by which site 53 is reached from the root. -/
  wPort : Nat := ((route 0 53 0x1234).find? fun x => x.side == 0 && x.rtr == 0 && x.out).elim 0 fun x => x.port

/-! ## Ill-formed commands (R368, Table 14-12, R417, R418, R450) -/

/-- A start with everything good and these measurements of CFGSEL. -/
def wEnv (l : List (Nat × Nat)) : StartEnv := ⟨l, true, true, 30, true, 3, 0xFFFFFFFF, 0xFF, (0, 0, 0, 0), 0, 0⟩

theorem test_illformed_read_of_nothing : WellFormed (.ioDmaRead 16 0 0 0 false 0) = false := by decide +kernel
theorem test_wellformed_read : WellFormed (.ioDmaRead 16 0 0 4096 false 0) = true := by decide +kernel
theorem test_illformed_write_of_nothing : WellFormed (.ioPostedWrite 16 0 0 0 0 false false false 0) = false := by decide +kernel
theorem test_illformed_link_rate : WellFormed (.linkUp 0 7 3 true true 0) = false := by decide +kernel
theorem test_illformed_link_width : WellFormed (.linkUp 0 6 0 true true 0) = false := by decide +kernel
theorem test_illformed_ninth_pair : WellFormed (.startTimeout (wEnv (List.replicate 9 (500, 500)))) = false := by decide +kernel
theorem test_illformed_ratio : WellFormed (.startTimeout (wEnv [(10001, 500)])) = false := by decide +kernel
theorem test_wellformed_start : WellFormed (.startTimeout (wEnv [(500, 500)])) = true := by decide +kernel
theorem test_illformed_sample : WellFormed (.thermalSample ⟨List.replicate 81 40, [], [], (480, 480), (0, 0), 0⟩) = false := by decide +kernel

/-! ## Single steps -/

/-- What one step with command `i` leaves. -/
def after (i : Instr) (m : Mach) : Option Mach := match step ⟨[i], m⟩ with
  | .next s => some s.m
  | _ => none

/-- Engine 0 at word `w` with registers r1 and r2. -/
def wRegs (w : Nat) (x y : Word) : Mach :=
  let m := wRun 0 w Eng.fresh
  { m with eng := { m.eng with greg := [(1, x), (2, y)] } }

/-- ADDI r3, r1, 1 wraps at 64 bits (R286). -/
theorem test_addi_wraps :
    (after (.addi 0 3 1 1) (wRegs (0x01 * 2 ^ 26 + 3 * 2 ^ 21 + 1 * 2 ^ 16 + 1) 0xFFFFFFFFFFFFFFFF 0)).map (fun m => greg m 0 3) = some 0 := by decide +kernel

/-- ADDI extends its immediate's sign, and the source may be the destination. -/
theorem test_addi_minus_one_in_place :
    (after (.addi 0 1 1 0xFFFF) (wRegs (0x01 * 2 ^ 26 + 1 * 2 ^ 21 + 1 * 2 ^ 16 + 0xFFFF) 5 0)).map (fun m => greg m 0 1) = some 4 := by decide +kernel

/-- CLZ of 0 is 64. -/
theorem test_clz_zero : (after (.clz 0 3 1) (wRegs (0x17 + 3 * 2 ^ 21 + 1 * 2 ^ 16) 0 0)).map (fun m => greg m 0 3) = some 64 := by decide +kernel

/-- TICK is 10 µs at reset, and a new TICK is the length of the tick after the one that runs (R476). -/
theorem test_tick :
    let m := doCounterTick (fset wPow cntBase R.CNT_CTL_TICK 1000)
    m.timeUs = 10 ∧ (doCounterTick m).timeUs = 1010 ∧ fget (doCounterTick m) cntBase R.CNT_SEQ_SEQ = 2 := by decide +kernel

/-- A MARK of 0 is a reserved encoding: CAUSE 2, and MARK keeps 9,216 (R31, Table 8-13). -/
theorem test_mark_refused :
    let m := doRegisterWrite .ditch 0x21C00A 0 false wOn
    fget m (twnBase 0) hdrCause = 2 ∧ fget m (twnBase 0) R.TWN_HIMARK_MARK = 9216 := by decide +kernel

/-- A MARK written at the measured value is crossed: CROSSED, CROSSINGS and one notice (R36, R37). -/
theorem test_mark_crossed :
    let old := fset wOn (twnBase 0) R.TWN_GAUGE_LINES (50 * 16384)
    let m := wmCross old (doRegisterWrite .ditch 0x21C00A 50 false old) (.dirtyHi 0)
    fget m (twnBase 0) R.TWN_HIMARK_CROSSED = 1 ∧ fget m (twnBase 0) R.TWN_HIMARK_CROSSINGS = 1 ∧ m.events.length = 1 := by decide +kernel

/-- TWN_LOMARK reads LEVEL 1 and CROSSED 0 at reset (R36). -/
theorem test_low_mark_at_reset : fget State.reset.m (twnBase 1) R.TWN_LOMARK_LEVEL = 1 ∧ fget State.reset.m (twnBase 1) R.TWN_LOMARK_CROSSED = 0 := by
  decide +kernel

/-- A read of an unmapped address is a bus error (Table 2-6). -/
theorem test_unmapped_read : (doRcRegisterRead .ditch 0x4000 wOn).outbox = [.ctl 0x20000 none] := by decide +kernel

/-- UNLOCK clears LOCK of the side's twin block (R34). -/
theorem test_unlock : fget (doUnlock .ditch 0x10E0 (fset wOn (twnBase 0) hdrLock 1)) (twnBase 0) hdrLock = 0 := by decide +kernel

/-- A low pulse of 9 µs on MRST# is ignored, and 5 s of low begin a cold reset that holds (R414). -/
theorem test_short_pulse : doMrstRelease 9 (wEnv []) wPow = wPow := by decide +kernel
theorem test_long_pulse : opMode (doMrstHeld wPow) = 0 ∧ (doMrstHeld wPow).boot.held = true := by decide +kernel

/-- With no command waiting the module idles. -/
theorem test_idle : step State.reset = .next State.reset := rfl

/-! ## Witnesses -/

theorem witness_watermark_levels_are_kept : ∃ s t : State, LevelsShow s.m ∧ step s = .next t :=
  ⟨{ State.reset with pending := [.ringRecordComplete] }, _, by unfold LevelsShow; decide +kernel, rfl⟩

theorem witness_the_alert_pin_is_kept : ∃ s t : State, AlertShows s.m ∧ NothingRaised s.m ∧ step s = .next t :=
  ⟨{ State.reset with pending := [.ringRecordComplete] }, _, by unfold AlertShows; decide +kernel, ⟨rfl, rfl⟩, rfl⟩

theorem witness_what_follows_a_command_leaves_the_rest :
    (∃ m : Mach, Quiet m ∧ resultsOf m 32 = []) ∧
    (∃ (old m : Mach) (b : Nat) (f : Fld), Quiet m ∧ resultsOf m 32 = [] ∧ m.events = [] ∧ fon m aonBase R.ERR_INJ_ARM = false ∧
      (∀ w ∈ Wm.all, wmCrosses old m w = false) ∧ (∀ w ∈ Wm.all, fkey b f ≠ fkey w.base w.level) ∧
      (∀ sd < 2, fkey b f ≠ fkey (twnBase sd) R.TWN_GAUGE_CLEANING)) :=
  ⟨⟨wQuiet, by unfold Quiet; decide +kernel, by decide +kernel⟩,
   ⟨setLevels wQuiet, setLevels wQuiet, mgtBase, R.MGT_STATUS_STATE, by unfold Quiet; decide +kernel, by decide +kernel, by decide +kernel, by decide +kernel,
    by decide +kernel, by decide +kernel, by decide +kernel⟩⟩

theorem witness_watermark_crossings :
    (∃ (old m : Mach) (w : Wm), w ∈ Wm.all ∧ wmCrosses old m w = true ∧ fget m w.base w.crossed = 0) ∧
    (∃ (old m : Mach) (w : Wm), w ∈ Wm.all ∧ wmCrosses old m w = false) :=
  ⟨⟨wOn, fset wOn (twnBase 0) R.TWN_GAUGE_LINES (9216 * 16384), .dirtyHi 0, by decide +kernel, by decide +kernel, by decide +kernel⟩,
   ⟨wOn, wOn, .dirtyHi 0, by decide +kernel, by decide +kernel⟩⟩

theorem witness_the_scrub_multiplier_follows_its_window :
    (∃ (sd : Fin 2) (m : Mach), fget m (32 * sd) R.ERR_SCRUB_CEHI < sget 0 m.ras.ceWin sd) ∧
    (∃ (sd : Fin 2) (m : Mach), sget 0 m.ras.ceWin sd < fget m (32 * sd) R.ERR_SCRUB_CELO ∧ sget 0 m.ras.ceWin sd ≤ fget m (32 * sd) R.ERR_SCRUB_CEHI) ∧
    (∃ (sd : Fin 2) (m : Mach), fget m (32 * sd) R.ERR_SCRUB_CELO ≤ sget 0 m.ras.ceWin sd ∧ sget 0 m.ras.ceWin sd ≤ fget m (32 * sd) R.ERR_SCRUB_CEHI) :=
  ⟨⟨0, { wOn with ras := { wOn.ras with ceWin := [(0, 65)] } }, by decide +kernel⟩, ⟨1, wOn, by decide +kernel, by decide +kernel⟩,
   ⟨0, { wOn with ras := { wOn.ras with ceWin := [(0, 64)] } }, by decide +kernel, by decide +kernel⟩⟩

theorem witness_alu_arithmetic :
    (∃ e : Fin 32, ∃ rd ra rb : Fin 32, ∃ m : Mach, atWord m e (encA 0 rd ra rb 0x00) = true) ∧
    (∃ e : Fin 32, ∃ rd ra rb : Fin 32, ∃ m : Mach, atWord m e (encA 0 rd ra rb 0x01) = true) ∧
    (∃ e : Fin 32, ∃ rd ra rb : Fin 32, ∃ m : Mach, atWord m e (encA 0 rd ra rb 0x02) = true) ∧
    (∃ e : Fin 32, ∃ rd ra rb : Fin 32, ∃ m : Mach, atWord m e (encA 0 rd ra rb 0x03) = true) ∧
    (∃ e : Fin 32, ∃ rd ra rb : Fin 32, ∃ m : Mach, atWord m e (encA 0 rd ra rb 0x04) = true) ∧
    (∃ e : Fin 32, ∃ rd ra rb : Fin 32, ∃ m : Mach, atWord m e (encA 0 rd ra rb 0x05) = true) ∧
    (∃ e : Fin 32, ∃ rd ra rb : Fin 32, ∃ m : Mach, atWord m e (encA 0 rd ra rb 0x06) = true) ∧
    (∃ e : Fin 32, ∃ rd ra rb : Fin 32, ∃ m : Mach, atWord m e (encA 0 rd ra rb 0x07) = true) ∧
    (∃ e : Fin 32, ∃ rd ra rb : Fin 32, ∃ m : Mach, atWord m e (encA 0 rd ra rb 0x08) = true) ∧
    (∃ e : Fin 32, ∃ rd ra rb : Fin 32, ∃ m : Mach, atWord m e (encA 0 rd ra rb 0x09) = true) ∧
    (∃ e : Fin 32, ∃ rd ra rb : Fin 32, ∃ m : Mach, atWord m e (encA 0 rd ra rb 0x12) = true) ∧
    (∃ e : Fin 32, ∃ rd ra rb : Fin 32, ∃ m : Mach, atWord m e (encA 0 rd ra rb 0x13) = true) ∧
    (∃ e : Fin 32, ∃ rd ra rb : Fin 32, ∃ m : Mach, atWord m e (encA 0 rd ra rb 0x14) = true) ∧
    (∃ e : Fin 32, ∃ rd ra rb : Fin 32, ∃ m : Mach, atWord m e (encA 0 rd ra rb 0x15) = true) :=
  ⟨⟨0, 3, 1, 2, wRun 0 (encA 0 3 1 2 0x00) Eng.fresh, by decide +kernel⟩,
    ⟨0, 3, 1, 2, wRun 0 (encA 0 3 1 2 0x01) Eng.fresh, by decide +kernel⟩,
    ⟨0, 3, 1, 2, wRun 0 (encA 0 3 1 2 0x02) Eng.fresh, by decide +kernel⟩,
    ⟨0, 3, 1, 2, wRun 0 (encA 0 3 1 2 0x03) Eng.fresh, by decide +kernel⟩,
    ⟨0, 3, 1, 2, wRun 0 (encA 0 3 1 2 0x04) Eng.fresh, by decide +kernel⟩,
    ⟨0, 3, 1, 2, wRun 0 (encA 0 3 1 2 0x05) Eng.fresh, by decide +kernel⟩,
    ⟨0, 3, 1, 2, wRun 0 (encA 0 3 1 2 0x06) Eng.fresh, by decide +kernel⟩,
    ⟨0, 3, 1, 2, wRun 0 (encA 0 3 1 2 0x07) Eng.fresh, by decide +kernel⟩,
    ⟨0, 3, 1, 2, wRun 0 (encA 0 3 1 2 0x08) Eng.fresh, by decide +kernel⟩,
    ⟨0, 3, 1, 2, wRun 0 (encA 0 3 1 2 0x09) Eng.fresh, by decide +kernel⟩,
    ⟨0, 3, 1, 2, wRun 0 (encA 0 3 1 2 0x12) Eng.fresh, by decide +kernel⟩,
    ⟨0, 3, 1, 2, wRun 0 (encA 0 3 1 2 0x13) Eng.fresh, by decide +kernel⟩,
    ⟨0, 3, 1, 2, wRun 0 (encA 0 3 1 2 0x14) Eng.fresh, by decide +kernel⟩,
    ⟨0, 3, 1, 2, wRun 0 (encA 0 3 1 2 0x15) Eng.fresh, by decide +kernel⟩⟩

theorem witness_alu_comparisons :
    (∃ e : Fin 32, ∃ rd ra rb : Fin 32, ∃ m : Mach, atWord m e (encA 0 rd ra rb 0x0A) = true) ∧
    (∃ e : Fin 32, ∃ rd ra rb : Fin 32, ∃ m : Mach, atWord m e (encA 0 rd ra rb 0x0B) = true) ∧
    (∃ e : Fin 32, ∃ rd ra rb : Fin 32, ∃ m : Mach, atWord m e (encA 0 rd ra rb 0x0C) = true) ∧
    (∃ e : Fin 32, ∃ rd ra rb : Fin 32, ∃ m : Mach, atWord m e (encA 0 rd ra rb 0x0D) = true) ∧
    (∃ e : Fin 32, ∃ rd ra rb : Fin 32, ∃ m : Mach, atWord m e (encA 0 rd ra rb 0x0E) = true) ∧
    (∃ e : Fin 32, ∃ rd ra rb : Fin 32, ∃ m : Mach, atWord m e (encA 0 rd ra rb 0x0F) = true) ∧
    (∃ e : Fin 32, ∃ rd ra rb : Fin 32, ∃ m : Mach, atWord m e (encA 0 rd ra rb 0x10) = true) ∧
    (∃ e : Fin 32, ∃ rd ra rb : Fin 32, ∃ m : Mach, atWord m e (encA 0 rd ra rb 0x11) = true) :=
  ⟨⟨0, 3, 1, 2, wRun 0 (encA 0 3 1 2 0x0A) Eng.fresh, by decide +kernel⟩,
    ⟨0, 3, 1, 2, wRun 0 (encA 0 3 1 2 0x0B) Eng.fresh, by decide +kernel⟩,
    ⟨0, 3, 1, 2, wRun 0 (encA 0 3 1 2 0x0C) Eng.fresh, by decide +kernel⟩,
    ⟨0, 3, 1, 2, wRun 0 (encA 0 3 1 2 0x0D) Eng.fresh, by decide +kernel⟩,
    ⟨0, 3, 1, 2, wRun 0 (encA 0 3 1 2 0x0E) Eng.fresh, by decide +kernel⟩,
    ⟨0, 3, 1, 2, wRun 0 (encA 0 3 1 2 0x0F) Eng.fresh, by decide +kernel⟩,
    ⟨0, 3, 1, 2, wRun 0 (encA 0 3 1 2 0x10) Eng.fresh, by decide +kernel⟩,
    ⟨0, 3, 1, 2, wRun 0 (encA 0 3 1 2 0x11) Eng.fresh, by decide +kernel⟩⟩

theorem witness_alu_counts :
    (∃ e : Fin 32, ∃ rd ra : Fin 32, ∃ m : Mach, atWord m e (encA 0 rd ra 0 0x16) = true) ∧
    (∃ e : Fin 32, ∃ rd ra : Fin 32, ∃ m : Mach, atWord m e (encA 0 rd ra 0 0x17) = true) ∧
    (∃ e : Fin 32, ∃ rd ra : Fin 32, ∃ m : Mach, atWord m e (encA 0 rd ra 0 0x18) = true) ∧
    (∃ e : Fin 32, ∃ rd ra : Fin 32, ∃ m : Mach, atWord m e (encA 0 rd ra 0 0x19) = true) :=
  ⟨⟨0, 3, 1, wRun 0 (encA 0 3 1 0 0x16) Eng.fresh, by decide +kernel⟩,
    ⟨0, 3, 1, wRun 0 (encA 0 3 1 0 0x17) Eng.fresh, by decide +kernel⟩,
    ⟨0, 3, 1, wRun 0 (encA 0 3 1 0 0x18) Eng.fresh, by decide +kernel⟩,
    ⟨0, 3, 1, wRun 0 (encA 0 3 1 0 0x19) Eng.fresh, by decide +kernel⟩⟩

theorem witness_immediate_results :
    (∃ e : Fin 32, ∃ rd ra : Fin 32, ∃ imm : BitVec 16, ∃ m : Mach, atWord m e (encI 0x01 rd ra imm.toNat) = true) ∧
    (∃ e : Fin 32, ∃ rd ra : Fin 32, ∃ imm : BitVec 16, ∃ m : Mach, atWord m e (encI 0x02 rd ra imm.toNat) = true) ∧
    (∃ e : Fin 32, ∃ rd ra : Fin 32, ∃ imm : BitVec 16, ∃ m : Mach, atWord m e (encI 0x03 rd ra imm.toNat) = true) ∧
    (∃ e : Fin 32, ∃ rd ra : Fin 32, ∃ imm : BitVec 16, ∃ m : Mach, atWord m e (encI 0x04 rd ra imm.toNat) = true) ∧
    (∃ e : Fin 32, ∃ rd ra : Fin 32, ∃ sh : Fin 64, ∃ m : Mach, atWord m e (encI 0x05 rd ra sh) = true) ∧
    (∃ e : Fin 32, ∃ rd ra : Fin 32, ∃ sh : Fin 64, ∃ m : Mach, atWord m e (encI 0x06 rd ra sh) = true) ∧
    (∃ e : Fin 32, ∃ rd ra : Fin 32, ∃ sh : Fin 64, ∃ m : Mach, atWord m e (encI 0x07 rd ra sh) = true) ∧
    (∃ e : Fin 32, ∃ rd : Fin 32, ∃ imm : BitVec 16, ∃ m : Mach, atWord m e (encI 0x08 rd 0 imm.toNat) = true) ∧
    (∃ e : Fin 32, ∃ rd ra : Fin 32, ∃ imm : BitVec 16, ∃ m : Mach, atWord m e (encI 0x09 rd ra imm.toNat) = true) ∧
    (∃ e : Fin 32, ∃ rd ra : Fin 32, ∃ imm : BitVec 16, ∃ m : Mach, atWord m e (encI 0x0A rd ra imm.toNat) = true) ∧
    (∃ e : Fin 32, ∃ rd ra : Fin 32, ∃ imm : BitVec 16, ∃ m : Mach, atWord m e (encI 0x0B rd ra imm.toNat) = true) ∧
    (∃ e : Fin 32, ∃ rd ra : Fin 32, ∃ imm : BitVec 16, ∃ m : Mach, atWord m e (encI 0x0C rd ra imm.toNat) = true) ∧
    (∃ e : Fin 32, ∃ rd ra : Fin 32, ∃ imm : BitVec 16, ∃ m : Mach, atWord m e (encI 0x0F rd ra imm.toNat) = true) :=
  ⟨⟨0, 3, 1, 0x8001, wRun 0 (encI 0x01 3 1 0x8001) Eng.fresh, by decide +kernel⟩,
    ⟨0, 3, 1, 0x8001, wRun 0 (encI 0x02 3 1 0x8001) Eng.fresh, by decide +kernel⟩,
    ⟨0, 3, 1, 0x8001, wRun 0 (encI 0x03 3 1 0x8001) Eng.fresh, by decide +kernel⟩,
    ⟨0, 3, 1, 0x8001, wRun 0 (encI 0x04 3 1 0x8001) Eng.fresh, by decide +kernel⟩,
    ⟨0, 3, 1, 63, wRun 0 (encI 0x05 3 1 63) Eng.fresh, by decide +kernel⟩,
    ⟨0, 3, 1, 63, wRun 0 (encI 0x06 3 1 63) Eng.fresh, by decide +kernel⟩,
    ⟨0, 3, 1, 63, wRun 0 (encI 0x07 3 1 63) Eng.fresh, by decide +kernel⟩,
    ⟨0, 3, 0x8001, wRun 0 (encI 0x08 3 0 0x8001) Eng.fresh, by decide +kernel⟩,
    ⟨0, 3, 1, 0x8001, wRun 0 (encI 0x09 3 1 0x8001) Eng.fresh, by decide +kernel⟩,
    ⟨0, 3, 1, 0x8001, wRun 0 (encI 0x0A 3 1 0x8001) Eng.fresh, by decide +kernel⟩,
    ⟨0, 3, 1, 0x8001, wRun 0 (encI 0x0B 3 1 0x8001) Eng.fresh, by decide +kernel⟩,
    ⟨0, 3, 1, 0x8001, wRun 0 (encI 0x0C 3 1 0x8001) Eng.fresh, by decide +kernel⟩,
    ⟨0, 3, 1, 0x8001, wRun 0 (encI 0x0F 3 1 0x8001) Eng.fresh, by decide +kernel⟩⟩

theorem witness_bit_fields :
    (∃ e : Fin 32, ∃ rd ra : Fin 32, ∃ lo wm1 : Fin 64, ∃ m : Mach, atWord m e (encI 0x0D rd ra (lo + wm1 * 64)) = true ∧ lo.val + wm1.val + 1 ≤ 64) ∧
    (∃ e : Fin 32, ∃ rd ra : Fin 32, ∃ lo wm1 : Fin 64, ∃ m : Mach, atWord m e (encI 0x0E rd ra (lo + wm1 * 64)) = true ∧ lo.val + wm1.val + 1 ≤ 64) ∧
    (∃ e : Fin 32, ∃ rd ra : Fin 32, ∃ lo wm1 : Fin 64, ∃ m : Mach, atWord m e (encI 0x0D rd ra (lo + wm1 * 64)) = true ∧ 64 < lo.val + wm1.val + 1) ∧
    (∃ e : Fin 32, ∃ rd ra : Fin 32, ∃ lo wm1 : Fin 64, ∃ m : Mach, atWord m e (encI 0x0E rd ra (lo + wm1 * 64)) = true ∧ 64 < lo.val + wm1.val + 1) :=
  ⟨⟨0, 3, 1, 0, 63, wRun 0 (encI 0x0D 3 1 (63 * 64)) Eng.fresh, by decide +kernel⟩,
    ⟨0, 3, 1, 63, 0, wRun 0 (encI 0x0E 3 1 63) Eng.fresh, by decide +kernel⟩,
    ⟨0, 3, 1, 1, 63, wRun 0 (encI 0x0D 3 1 (1 + 63 * 64)) Eng.fresh, by decide +kernel⟩,
    ⟨0, 3, 1, 63, 1, wRun 0 (encI 0x0E 3 1 (63 + 64)) Eng.fresh, by decide +kernel⟩⟩

theorem witness_branches_and_jumps :
    (∃ e : Fin 32, ∃ ra rb : Fin 32, ∃ off : BitVec 16, ∃ m : Mach, atWord m e (encI 0x20 ra rb off.toNat) = true) ∧
    (∃ e : Fin 32, ∃ ra rb : Fin 32, ∃ off : BitVec 16, ∃ m : Mach, atWord m e (encI 0x21 ra rb off.toNat) = true) ∧
    (∃ e : Fin 32, ∃ ra rb : Fin 32, ∃ off : BitVec 16, ∃ m : Mach, atWord m e (encI 0x22 ra rb off.toNat) = true) ∧
    (∃ e : Fin 32, ∃ ra rb : Fin 32, ∃ off : BitVec 16, ∃ m : Mach, atWord m e (encI 0x23 ra rb off.toNat) = true) ∧
    (∃ e : Fin 32, ∃ ra rb : Fin 32, ∃ off : BitVec 16, ∃ m : Mach, atWord m e (encI 0x24 ra rb off.toNat) = true) ∧
    (∃ e : Fin 32, ∃ ra rb : Fin 32, ∃ off : BitVec 16, ∃ m : Mach, atWord m e (encI 0x25 ra rb off.toNat) = true) ∧
    (∃ e : Fin 32, ∃ rd : Fin 32, ∃ off : BitVec 21, ∃ m : Mach, atWord m e (encJ rd off.toNat) = true) ∧
    (∃ e : Fin 32, ∃ rd ra : Fin 32, ∃ imm : BitVec 16, ∃ m : Mach, atWord m e (encI 0x27 rd ra imm.toNat) = true) ∧
    (∃ e : Fin 32, ∃ _ra _rb : Fin 32, ∃ _off : BitVec 16, ∃ m : Mach, (engOf m e).st = .running ∧ (engOf m e).wait = .none ∧
      (engOf m e).trap = none ∧ (engOf m e).late = false ∧ 0x3FC00 ≤ (engOf m e).pc) :=
  ⟨⟨0, 1, 2, 0xFFFF, wRun 0 (encI 0x20 1 2 0xFFFF) Eng.fresh, by decide +kernel⟩,
    ⟨0, 1, 2, 0xFFFF, wRun 0 (encI 0x21 1 2 0xFFFF) Eng.fresh, by decide +kernel⟩,
    ⟨0, 1, 2, 0xFFFF, wRun 0 (encI 0x22 1 2 0xFFFF) Eng.fresh, by decide +kernel⟩,
    ⟨0, 1, 2, 0xFFFF, wRun 0 (encI 0x23 1 2 0xFFFF) Eng.fresh, by decide +kernel⟩,
    ⟨0, 1, 2, 0xFFFF, wRun 0 (encI 0x24 1 2 0xFFFF) Eng.fresh, by decide +kernel⟩,
    ⟨0, 1, 2, 0xFFFF, wRun 0 (encI 0x25 1 2 0xFFFF) Eng.fresh, by decide +kernel⟩,
    ⟨0, 31, 0x1FFFFF, wRun 0 (encJ 31 0x1FFFFF) Eng.fresh, by decide +kernel⟩,
    ⟨0, 1, 1, 0x8000, wRun 0 (encI 0x27 1 1 0x8000) Eng.fresh, by decide +kernel⟩,
    ⟨0, 0, 0, 0, engSet Mach.reset 0 { Eng.fresh with st := .running, pc := 0x3FC00 }, by decide +kernel⟩⟩

theorem witness_retire_writes_rd :
    (engOf (wRun 0 0 Eng.fresh) 0).trap = none ∧ (engOf (wRun 0 0 Eng.fresh) 0).late = false := by decide +kernel

theorem witness_service_and_system :
    (∃ e : Fin 32, ∃ ra rb : Fin 32, ∃ id : Nat, ∃ c : Call, ∃ n : Nat, ∃ m : Mach, atWord m e (encX 0x30 0 ra rb 0) = true ∧ (engOf m e).sb = [] ∧
      (engOf m e).call = some id ∧ callOf m id = some c ∧ c.first = true ∧ n = (greg m e rb).toNat % 128 ∧ (n ≤ 5 ∨ (0x40 ≤ n ∧ n ≤ 0x7E))) ∧
    (∃ e : Fin 32, ∃ ra rb : Fin 32, ∃ n : Nat, ∃ m : Mach, atWord m e (encX 0x30 0 ra rb 0) = true ∧ n = (greg m e rb).toNat % 128 ∧ ((5 < n ∧
      n < 0x40) ∨ n = 0x7F)) ∧
    (∃ e : Fin 32, ∃ rd : Fin 32, ∃ m : Mach, atWord m e (encX 0x31 rd 1 0 0) = true) ∧
    (∃ e : Fin 32, ∃ rd : Fin 32, ∃ m : Mach, atWord m e (encX 0x31 rd 2 0 0) = true) ∧
    (∃ e : Fin 32, ∃ rd : Fin 32, ∃ m : Mach, atWord m e (encX 0x31 rd 3 0 0) = true) ∧
    (∃ e : Fin 32, ∃ rd : Fin 32, ∃ m : Mach, atWord m e (encX 0x31 rd 4 0 0) = true) ∧
    (∃ e : Fin 32, ∃ rd : Fin 32, ∃ m : Mach, atWord m e (encX 0x31 rd 6 0 0) = true) ∧
    (∃ e : Fin 32, ∃ rd : Fin 32, ∃ m : Mach, atWord m e (encX 0x31 rd 8 0 0) = true) ∧
    (∃ e : Fin 32, ∃ rd n : Fin 32, ∃ m : Mach, atWord m e (encX 0x31 rd n 0 0) = true ∧ (n.val = 0 ∨ n.val = 7)) ∧
    (∃ e : Fin 32, ∃ rd : Fin 32, ∃ m : Mach, atWord m e (encX 0x31 rd 5 0 0) = true ∧ (engOf m e).limit = none) ∧
    (∃ e : Fin 32, ∃ rd : Fin 32, ∃ l : Nat, ∃ m : Mach, atWord m e (encX 0x31 rd 5 0 0) = true ∧ (engOf m e).limit = some l) ∧
    (∃ e : Fin 32, ∃ m : Mach, atWord m e (encA 0x3F 0 0 0 1) = true) ∧
    (∃ e : Fin 32, ∃ m : Mach, atWord m e (encA 0x3F 0 0 0 2) = true) ∧
    (∃ e : Fin 32, ∃ m : Mach, atWord m e (encA 0x3F 0 0 0 3) = true) ∧
    (∃ e : Fin 32, ∃ id : Nat, ∃ c : Call, ∃ m : Mach, atWord m e (encA 0x3F 0 0 0 5) = true ∧ (engOf m e).sb = [] ∧ (engOf m e).handles = [] ∧
      (engOf m e).call = some id ∧ callOf m id = some c) ∧
    (∃ e : Fin 32, ∃ w : Nat, ∃ m : Mach, atWord m e (w) = true ∧ legalWord w = false) :=
  ⟨⟨0, 0, 0, 7, wC, 0, wCall 0 (encX 0x30 0 0 0 0), by decide +kernel⟩,
    ⟨0, 0, 1, 6, gput (wCall 0 (encX 0x30 0 0 1 0)) 0 1 6, by decide +kernel⟩,
    ⟨0, 3, wRun 0 (encX 0x31 3 1 0 0) Eng.fresh, by decide +kernel⟩,
    ⟨0, 3, wRun 0 (encX 0x31 3 2 0 0) Eng.fresh, by decide +kernel⟩,
    ⟨0, 3, wRun 0 (encX 0x31 3 3 0 0) Eng.fresh, by decide +kernel⟩,
    ⟨0, 3, wRun 0 (encX 0x31 3 4 0 0) Eng.fresh, by decide +kernel⟩,
    ⟨0, 3, wRun 0 (encX 0x31 3 6 0 0) Eng.fresh, by decide +kernel⟩,
    ⟨0, 3, wRun 0 (encX 0x31 3 8 0 0) Eng.fresh, by decide +kernel⟩,
    ⟨0, 3, 7, wRun 0 (encX 0x31 3 7 0 0) Eng.fresh, by decide +kernel⟩,
    ⟨0, 3, wRun 0 (encX 0x31 3 5 0 0) Eng.fresh, by decide +kernel⟩,
    ⟨0, 3, 9, wRun 0 (encX 0x31 3 5 0 0) { Eng.fresh with limit := some 9 }, by decide +kernel⟩,
    ⟨0, wRun 0 (encA 0x3F 0 0 0 1) Eng.fresh, by decide +kernel⟩,
    ⟨0, wRun 0 (encA 0x3F 0 0 0 2) Eng.fresh, by decide +kernel⟩,
    ⟨0, wRun 0 (encA 0x3F 0 0 0 3) Eng.fresh, by decide +kernel⟩,
    ⟨0, 7, wC, wCall 0 (encA 0x3F 0 0 0 5), by decide +kernel⟩,
    ⟨0, 0xF4000000, wRun 0 0xF4000000 Eng.fresh, by decide +kernel⟩⟩

theorem witness_calls_start_and_end :
    (∃ e : Fin 32, ∃ c : Call, ∃ m : Mach, (readyOf m (e.val / 16)).head? = some c ∧ (engOf m e).st = .idle) ∧
    (∃ e : Fin 32, ∃ l : Nat, ∃ m : Mach, (engOf m e).limit = some l ∧ (engOf m e).st = .waiting) ∧
    (∃ e : Fin 32, ∃ l : Nat, ∃ m : Mach, (engOf m e).limit = some l ∧ (engOf m e).st = .running ∧ (engOf m e).wait = .none ∧ (engOf m e).trap = none) ∧
    (∃ e : Fin 32, ∃ m : Mach, (engOf m e).late = true ∧ (engOf m e).st = .waiting ∧ (engOf m e).wait = .none ∧ (engOf m e).trap = none) ∧
    (∃ e : Fin 32, ∃ t : Trap, ∃ b : Nat, ∃ m : Mach, (engOf m e).st = .draining ∧ (engOf m e).trap = some t ∧ (engOf m e).sb = [] ∧
      b = seBase (e.val / 16) + e.val % 16 * 0x100 ∧ t.pc < 2 ^ 18 ∧ t.addr < 2 ^ 64 ∧ (engOf m e).bank < 2) ∧
    (∃ e : Fin 32, ∃ m : Mach, reach m (seBase (e.val / 16) + 0x1000 + 256 * (e.val % 16)) = .open_) ∧
    (∃ e : Fin 32, ∃ m : Mach, reach m (seBase (e.val / 16) + 0x1000 + 256 * (e.val % 16)) = .open_ ∧ (engOf m e).st = .held) :=
  ⟨⟨0, ({ wC with eng := none }), wReady, by decide +kernel⟩,
    ⟨0, 5, engSet Mach.reset 0 { Eng.fresh with st := .waiting, limit := some 5 }, by decide +kernel⟩,
    ⟨0, 5, engSet Mach.reset 0 { Eng.fresh with st := .running, limit := some 5 }, by decide +kernel⟩,
    ⟨0, engSet Mach.reset 0 { Eng.fresh with st := .waiting, late := true }, by decide +kernel⟩,
    ⟨0, ⟨.align,3,4⟩, 0x1080000, engSet Mach.reset 0 { Eng.fresh with st := .draining, trap := some ⟨.align, 3, 4⟩ }, by decide +kernel⟩,
    ⟨0, wOn, by decide +kernel⟩,
    ⟨0, engSet wOn 0 { Eng.fresh with st := .held }, by decide +kernel⟩⟩

theorem witness_dispatch_and_banks :
    (∃ d : IqDesc, ∃ rest : List IqDesc, ∃ m : Mach, m.ports.queues.iq = d :: rest ∧ 2 ≤ resFree m 32 ∧ eligible m 0 = true ∧
      bitOf (callEntry m 0 d.entry) 18 = true ∧ bitOf (callEntry m 0 d.entry) 19 = true ∧ bitsOf (callEntry m 0 d.entry) 20 2 = 1 ∧
      clusterOn m 0 = true ∧ idleFor m 0 true ≠ 0) ∧
    (∃ _ck : Check, ∃ d : IqDesc, ∃ rest : List IqDesc, ∃ m : Mach, m.ports.queues.iq = d :: rest ∧ 2 ≤ resFree m 32 ∧ eligible m 0 = true ∧
      bitsOf (callEntry m 0 d.entry) 20 2 = 1 ∧ clusterOn m 0 = false ∧ (∀ f ∈ dispatchQueues m, f ≠ .internal → headOf m f = none)) ∧
    (∃ sd : Fin 2, ∃ m : Mach, reach m (seBase sd + 0x48) = .open_ ∧ oldBusy m sd = 0) ∧
    (∃ sd : Fin 2, ∃ m : Mach, reach m (seBase sd + 0x48) = .open_ ∧ oldBusy m sd ≠ 0) ∧
    (∃ sd : Fin 2, ∃ b : Fin 2, ∃ i : Fin 131072, ∃ _v : Word, ∃ m : Mach, reach m (sideBase sd + 0x400000 + 0x100000 * b + 8 * i) = .open_ ∧
      progOpen m sd b = true) ∧
    (∃ sd : Fin 2, ∃ b : Fin 2, ∃ i : Fin 131072, ∃ _v : Word, ∃ m : Mach, reach m (sideBase sd + 0x400000 + 0x100000 * b + 8 * i) = .open_ ∧
      progOpen m sd b = false) :=
  ⟨⟨⟨17,9,[]⟩, [], wIq, by decide +kernel⟩,
    ⟨.good, ⟨17,9,[]⟩, [], fset wIq 80 R.PWR_DOM_STATE 4, by decide +kernel⟩,
    ⟨0, wOn, by decide +kernel⟩,
    ⟨0, engSet wOn 0 { Eng.fresh with call := some 1, bank := 1 }, by decide +kernel⟩,
    ⟨1, 1, 131071, 0x8000000000000001, wOn, by decide +kernel⟩,
    ⟨1, 0, 131071, 1, wOn, by decide +kernel⟩⟩

theorem witness_post_wait_expires :
    (∃ e : Fin 32, ∃ id : Nat, ∃ c : Call, ∃ m : Mach, (engOf m e).st = .waiting ∧
      isPost (progWord m (e.val / 16) (engOf m e).bank (engOf m e).pc) = true ∧ (engOf m e).queue = 0 ∧ (engOf m e).call = some id ∧
      callOf m id = some c ∧ resFree m c.from_.queue = 0) ∧
    (∃ e : Fin 32, ∃ id : Nat, ∃ c : Call, ∃ m : Mach, (engOf m e).st = .waiting ∧ (engOf m e).call = some id ∧ callOf m id = some c ∧
      0 < resFree m c.from_.queue) ∧
    (∃ e : Fin 32, ∃ id : Nat, ∃ c : Call, ∃ m : Mach, (engOf m e).st = .waiting ∧
      isPost (progWord m (e.val / 16) (engOf m e).bank (engOf m e).pc) = true ∧ (engOf m e).queue ≠ 0 ∧ (engOf m e).call = some id ∧
      callOf m id = some c ∧ resFree m c.from_.queue = 0) :=
  ⟨⟨0, 7, ({ wC with from_ := .host 0 }), wFull 0, by decide +kernel⟩,
    ⟨0, 7, ({ wC with from_ := .host 0 }), (fun m : Mach => { m with ports := { m.ports with queues := { m.ports.queues with results := [] } } }) (wFull 0), by decide +kernel⟩,
    ⟨0, 7, wC, wFull 1, by decide +kernel⟩⟩

theorem witness_scratch_loads :
    (∃ e : Fin 32, ∃ rd ra : Fin 32, ∃ imm : BitVec 16, ∃ a : Nat, ∃ m : Mach, atWord m e (encI 0x10 rd ra imm.toNat) = true ∧
      (greg m e ra + imm.signExtend 64).toNat / 2 ^ 62 = 1 ∧ a = (greg m e ra + imm.signExtend 64).toNat % 2 ^ 62 ∧ a + 1 ≤ 65536 ∧
      sbHit (engOf m e) .scratch a 1 = none) ∧
    (∃ e : Fin 32, ∃ rd ra : Fin 32, ∃ imm : BitVec 16, ∃ a : Nat, ∃ m : Mach, atWord m e (encI 0x11 rd ra imm.toNat) = true ∧
      (greg m e ra + imm.signExtend 64).toNat / 2 ^ 62 = 1 ∧ a = (greg m e ra + imm.signExtend 64).toNat % 2 ^ 62 ∧ a + 1 ≤ 65536 ∧
      sbHit (engOf m e) .scratch a 1 = none) ∧
    (∃ e : Fin 32, ∃ rd ra : Fin 32, ∃ imm : BitVec 16, ∃ a : Nat, ∃ m : Mach, atWord m e (encI 0x12 rd ra imm.toNat) = true ∧
      (greg m e ra + imm.signExtend 64).toNat / 2 ^ 62 = 1 ∧ a = (greg m e ra + imm.signExtend 64).toNat % 2 ^ 62 ∧ a + 2 ≤ 65536 ∧
      sbHit (engOf m e) .scratch a 2 = none) ∧
    (∃ e : Fin 32, ∃ rd ra : Fin 32, ∃ imm : BitVec 16, ∃ a : Nat, ∃ m : Mach, atWord m e (encI 0x13 rd ra imm.toNat) = true ∧
      (greg m e ra + imm.signExtend 64).toNat / 2 ^ 62 = 1 ∧ a = (greg m e ra + imm.signExtend 64).toNat % 2 ^ 62 ∧ a + 2 ≤ 65536 ∧
      sbHit (engOf m e) .scratch a 2 = none) ∧
    (∃ e : Fin 32, ∃ rd ra : Fin 32, ∃ imm : BitVec 16, ∃ a : Nat, ∃ m : Mach, atWord m e (encI 0x14 rd ra imm.toNat) = true ∧
      (greg m e ra + imm.signExtend 64).toNat / 2 ^ 62 = 1 ∧ a = (greg m e ra + imm.signExtend 64).toNat % 2 ^ 62 ∧ a + 4 ≤ 65536 ∧
      sbHit (engOf m e) .scratch a 4 = none) ∧
    (∃ e : Fin 32, ∃ rd ra : Fin 32, ∃ imm : BitVec 16, ∃ a : Nat, ∃ m : Mach, atWord m e (encI 0x15 rd ra imm.toNat) = true ∧
      (greg m e ra + imm.signExtend 64).toNat / 2 ^ 62 = 1 ∧ a = (greg m e ra + imm.signExtend 64).toNat % 2 ^ 62 ∧ a + 4 ≤ 65536 ∧
      sbHit (engOf m e) .scratch a 4 = none) ∧
    (∃ e : Fin 32, ∃ rd ra : Fin 32, ∃ imm : BitVec 16, ∃ a : Nat, ∃ m : Mach, atWord m e (encI 0x16 rd ra imm.toNat) = true ∧
      (greg m e ra + imm.signExtend 64).toNat / 2 ^ 62 = 1 ∧ a = (greg m e ra + imm.signExtend 64).toNat % 2 ^ 62 ∧ a + 8 ≤ 65536 ∧
      sbHit (engOf m e) .scratch a 8 = none) ∧
    (∃ e : Fin 32, ∃ rd ra rb : Fin 32, ∃ a : Nat, ∃ m : Mach, atWord m e (encA 0x17 rd ra rb 0) = true ∧
      (greg m e ra + greg m e rb).toNat / 2 ^ 62 = 1 ∧ a = (greg m e ra + greg m e rb).toNat % 2 ^ 62 ∧ a + 8 ≤ 65536 ∧
      sbHit (engOf m e) .scratch a 8 = none) ∧
    (∃ e : Fin 32, ∃ rd ra : Fin 32, ∃ imm : BitVec 16, ∃ ck : Check, ∃ a : Nat, ∃ m : Mach, atWord m e (encI 0x16 rd ra imm.toNat) = true ∧
      (greg m e ra + imm.signExtend 64).toNat / 2 ^ 62 = 1 ∧ a = (greg m e ra + imm.signExtend 64).toNat % 2 ^ 62 ∧ a + 8 ≤ 65536 ∧
      sbHit (engOf m e) .scratch a 8 = none ∧ ck.isBad = true) ∧
    (∃ e : Fin 32, ∃ rd ra : Fin 32, ∃ imm : BitVec 16, ∃ _cw : Fin 8, ∃ _again : Bool, ∃ a : Nat, ∃ m : Mach, atWord m e (encI 0x16 rd ra
      imm.toNat) = true ∧ (greg m e ra + imm.signExtend 64).toNat / 2 ^ 62 = 1 ∧ a = (greg m e ra + imm.signExtend 64).toNat % 2 ^ 62 ∧
      a + 8 ≤ 65536 ∧ sbHit (engOf m e) .scratch a 8 = none) ∧
    (∃ e : Fin 32, ∃ rd ra : Fin 32, ∃ imm : BitVec 16, ∃ _ck : Check, ∃ a : Nat, ∃ m : Mach, atWord m e (encI 0x16 rd ra imm.toNat) = true ∧
      (greg m e ra + imm.signExtend 64).toNat / 2 ^ 62 = 1 ∧ a = (greg m e ra + imm.signExtend 64).toNat % 2 ^ 62 ∧ 65536 < a + 8) :=
  ⟨⟨0, 3, 1, 0, 0, gput (wRun 0 (encI 0x10 3 1 0) Eng.fresh) 0 1 0x4000000000000000, by decide +kernel⟩,
    ⟨0, 3, 1, 0, 0, gput (wRun 0 (encI 0x11 3 1 0) Eng.fresh) 0 1 0x4000000000000000, by decide +kernel⟩,
    ⟨0, 3, 1, 0, 0, gput (wRun 0 (encI 0x12 3 1 0) Eng.fresh) 0 1 0x4000000000000000, by decide +kernel⟩,
    ⟨0, 3, 1, 0, 0, gput (wRun 0 (encI 0x13 3 1 0) Eng.fresh) 0 1 0x4000000000000000, by decide +kernel⟩,
    ⟨0, 3, 1, 0, 0, gput (wRun 0 (encI 0x14 3 1 0) Eng.fresh) 0 1 0x4000000000000000, by decide +kernel⟩,
    ⟨0, 3, 1, 0, 0, gput (wRun 0 (encI 0x15 3 1 0) Eng.fresh) 0 1 0x4000000000000000, by decide +kernel⟩,
    ⟨0, 3, 1, 0, 0, gput (wRun 0 (encI 0x16 3 1 0) Eng.fresh) 0 1 0x4000000000000000, by decide +kernel⟩,
    ⟨0, 3, 1, 2, 0, gput (wRun 0 (encA 0x17 3 1 2 0) Eng.fresh) 0 1 0x4000000000000000, by decide +kernel⟩,
    ⟨0, 3, 1, 0, .bad, 0, gput (wRun 0 (encI 0x16 3 1 0) Eng.fresh) 0 1 0x4000000000000000, by decide +kernel⟩,
    ⟨0, 3, 1, 0, 2, true, 0, gput (wRun 0 (encI 0x16 3 1 0) Eng.fresh) 0 1 0x4000000000000000, by decide +kernel⟩,
    ⟨0, 3, 1, 0xFFF9, .good, 0x3FFFFFFFFFFFFFF9, gput (wRun 0 (encI 0x16 3 1 0xFFF9) Eng.fresh) 0 1 0x8000000000000000, by decide +kernel⟩⟩

theorem witness_pool_and_control_loads :
    (∃ e : Fin 32, ∃ rd ra : Fin 32, ∃ imm : BitVec 16, ∃ _ck : Check, ∃ a : Nat, ∃ m : Mach, atWord m e (encI 0x16 rd ra imm.toNat) = true ∧
      (greg m e ra + imm.signExtend 64).toNat / 2 ^ 62 = 0 ∧ a = (greg m e ra + imm.signExtend 64).toNat ∧ a + 8 ≤ 2 ^ 48 ∧ opMode m ≠ 0 ∧
      opMode m ≠ 4 ∧ (engOf m e).keeper = true ∧ (engOf m e).slFence = false ∧ sbHit (engOf m e) .pool a 8 = none) ∧
    (∃ e : Fin 32, ∃ rd ra : Fin 32, ∃ imm : BitVec 16, ∃ _ck : Check, ∃ a : Nat, ∃ s : SbEnt, ∃ m : Mach, atWord m e (encI 0x16 rd ra imm.toNat) =
      true ∧ (greg m e ra + imm.signExtend 64).toNat / 2 ^ 62 = 0 ∧ a = (greg m e ra + imm.signExtend 64).toNat ∧ a + 8 ≤ 2 ^ 48 ∧ opMode m ≠ 0 ∧
      opMode m ≠ 4 ∧ (engOf m e).keeper = true ∧ (engOf m e).slFence = false ∧ sbHit (engOf m e) .pool a 8 = some s ∧ s.addr ≤ a ∧
      a + 8 ≤ s.addr + s.size) ∧
    (∃ e : Fin 32, ∃ rd ra : Fin 32, ∃ imm : BitVec 16, ∃ _ck : Check, ∃ a : Nat, ∃ m : Mach, atWord m e (encI 0x16 rd ra imm.toNat) = true ∧
      (greg m e ra + imm.signExtend 64).toNat / 2 ^ 62 = 2 ∧ a = (greg m e ra + imm.signExtend 64).toNat % 2 ^ 62 ∧ a < 2 ^ 32 ∧ a % 8 = 0 ∧
      (engOf m e).keeper = true ∧ mapped a = true ∧ (engOf m e).sb = [] ∧ reach m a = .open_) ∧
    (∃ e : Fin 32, ∃ rd ra : Fin 32, ∃ imm : BitVec 16, ∃ _ck : Check, ∃ a : Nat, ∃ m : Mach, atWord m e (encI 0x16 rd ra imm.toNat) = true ∧
      (greg m e ra + imm.signExtend 64).toNat / 2 ^ 62 = 2 ∧ a = (greg m e ra + imm.signExtend 64).toNat % 2 ^ 62 ∧ a < 2 ^ 32 ∧ a % 8 ≠ 0 ∧
      (engOf m e).keeper = true) ∧
    (∃ e : Fin 32, ∃ rd ra : Fin 32, ∃ imm : BitVec 16, ∃ _ck : Check, ∃ m : Mach, atWord m e (encI 0x16 rd ra imm.toNat) = true ∧
      (greg m e ra + imm.signExtend 64).toNat / 2 ^ 62 = 3) :=
  ⟨⟨0, 3, 1, 0, .good, 0, (fun m => { m with eng := { m.eng with prog := [(progKey 0 0 0, encI 0x16 3 1 0)] } }) (engSet wOn 0 { Eng.fresh with st := .running, keeper := true }), by decide +kernel⟩,
    ⟨0, 3, 1, 0, .good, 0, ⟨.pool,0,8,258,0,false,false,false⟩, (fun m => { m with eng := { m.eng with prog := [(progKey 0 0 0, encI 0x16 3 1 0)] } }) (engSet wOn 0 { Eng.fresh with st := .running, keeper := true, sb := [⟨.pool, 0, 8, 258, 0, false, false, false⟩] }), by decide +kernel⟩,
    ⟨0, 3, 1, 0x40, .good, 0x40, gput ((fun m => { m with eng := { m.eng with prog := [(progKey 0 0 0, encI 0x16 3 1 0x40)] } }) (engSet wOn 0 { Eng.fresh with st := .running, keeper := true })) 0 1 0x8000000000000000, by decide +kernel⟩,
    ⟨0, 3, 1, 0x11, .good, 0x11, gput ((fun m => { m with eng := { m.eng with prog := [(progKey 0 0 0, encI 0x16 3 1 0x11)] } }) (engSet wOn 0 { Eng.fresh with st := .running, keeper := true })) 0 1 0x8000000000000000, by decide +kernel⟩,
    ⟨0, 3, 1, 0xFFFF, .good, (fun m => { m with eng := { m.eng with prog := [(progKey 0 0 0, encI 0x16 3 1 0xFFFF)] } }) (engSet wOn 0 { Eng.fresh with st := .running, keeper := true }), by decide +kernel⟩⟩

theorem witness_stores_and_their_buffer :
    (∃ e : Fin 32, ∃ rs ra : Fin 32, ∃ imm : BitVec 16, ∃ a : Nat, ∃ m : Mach, atWord m e (encI 0x18 rs ra imm.toNat) = true ∧
      (greg m e ra + imm.signExtend 64).toNat / 2 ^ 62 = 1 ∧ a = (greg m e ra + imm.signExtend 64).toNat % 2 ^ 62 ∧ a + 1 ≤ 65536 ∧
      (engOf m e).sb.length < 16) ∧
    (∃ e : Fin 32, ∃ rs ra : Fin 32, ∃ imm : BitVec 16, ∃ a : Nat, ∃ m : Mach, atWord m e (encI 0x19 rs ra imm.toNat) = true ∧
      (greg m e ra + imm.signExtend 64).toNat / 2 ^ 62 = 1 ∧ a = (greg m e ra + imm.signExtend 64).toNat % 2 ^ 62 ∧ a + 2 ≤ 65536 ∧
      (engOf m e).sb.length < 16) ∧
    (∃ e : Fin 32, ∃ rs ra : Fin 32, ∃ imm : BitVec 16, ∃ a : Nat, ∃ m : Mach, atWord m e (encI 0x1A rs ra imm.toNat) = true ∧
      (greg m e ra + imm.signExtend 64).toNat / 2 ^ 62 = 1 ∧ a = (greg m e ra + imm.signExtend 64).toNat % 2 ^ 62 ∧ a + 4 ≤ 65536 ∧
      (engOf m e).sb.length < 16) ∧
    (∃ e : Fin 32, ∃ rs ra : Fin 32, ∃ imm : BitVec 16, ∃ a : Nat, ∃ m : Mach, atWord m e (encI 0x1B rs ra imm.toNat) = true ∧
      (greg m e ra + imm.signExtend 64).toNat / 2 ^ 62 = 1 ∧ a = (greg m e ra + imm.signExtend 64).toNat % 2 ^ 62 ∧ a + 8 ≤ 65536 ∧
      (engOf m e).sb.length < 16) ∧
    (∃ e : Fin 32, ∃ rs ra : Fin 32, ∃ imm : BitVec 16, ∃ a : Nat, ∃ m : Mach, atWord m e (encI 0x1B rs ra imm.toNat) = true ∧
      (greg m e ra + imm.signExtend 64).toNat / 2 ^ 62 = 0 ∧ a = (greg m e ra + imm.signExtend 64).toNat ∧ a + 8 ≤ 2 ^ 48 ∧ opMode m ≠ 0 ∧
      opMode m ≠ 4 ∧ (engOf m e).keeper = true ∧ a % 64 ≤ 56 ∧ (engOf m e).sb.length < 16) ∧
    (∃ e : Fin 32, ∃ rs ra : Fin 32, ∃ imm : BitVec 16, ∃ a : Nat, ∃ m : Mach, atWord m e (encI 0x1B rs ra imm.toNat) = true ∧
      (greg m e ra + imm.signExtend 64).toNat / 2 ^ 62 = 2 ∧ a = (greg m e ra + imm.signExtend 64).toNat % 2 ^ 62 ∧ a < 2 ^ 32 ∧ a % 8 = 0 ∧
      (engOf m e).sb.length < 16) ∧
    (∃ e : Fin 32, ∃ s : SbEnt, ∃ rest : List SbEnt, ∃ m : Mach, (engOf m e).sb = s :: rest ∧ s.sent = false ∧ s.space = .scratch) ∧
    (∃ e : Fin 32, ∃ s : SbEnt, ∃ rest : List SbEnt, ∃ m : Mach, (engOf m e).sb = s :: rest ∧ s.sent = false ∧ s.space = .pool) ∧
    (∃ e : Fin 32, ∃ s : SbEnt, ∃ rest : List SbEnt, ∃ m : Mach, (engOf m e).sb = s :: rest ∧ s.sent = false ∧ s.space = .control ∧
      (engOf m e).keeper = true ∧ mapped s.addr = true ∧ reach m s.addr = .open_ ∧ bankShut m s.addr = false) ∧
    (∃ e : Fin 32, ∃ s : SbEnt, ∃ rest : List SbEnt, ∃ m : Mach, (engOf m e).sb = s :: rest ∧ s.sent = false ∧ s.space = .control ∧
      (engOf m e).keeper = true ∧ mapped s.addr = false) ∧
    (∃ e : Fin 32, ∃ s : SbEnt, ∃ rest : List SbEnt, ∃ m : Mach, (engOf m e).sb = s :: rest ∧ s.sent = true ∧ s.ack = true ∧ holdPends m s = false) ∧
    (∃ e : Fin 32, ∃ s : SbEnt, ∃ rest : List SbEnt, ∃ m : Mach, (engOf m e).sb = s :: rest ∧ holdPends m s = true) ∧
    (∃ e : Fin 32, ∃ ck : Check, ∃ s : SbEnt, ∃ rest : List SbEnt, ∃ m : Mach, (engOf m e).sb = s :: rest ∧ s.sent = false ∧ s.space = .pool ∧
      ck.isBad = true) ∧
    (∃ e : Fin 32, ∃ s : SbEnt, ∃ rest : List SbEnt, ∃ m : Mach, (engOf m e).sb = s :: rest ∧ s.ack = false) :=
  ⟨⟨0, 3, 1, 0, 0, gput (wRun 0 (encI 0x18 3 1 0) Eng.fresh) 0 1 0x4000000000000000, by decide +kernel⟩,
    ⟨0, 3, 1, 0, 0, gput (wRun 0 (encI 0x19 3 1 0) Eng.fresh) 0 1 0x4000000000000000, by decide +kernel⟩,
    ⟨0, 3, 1, 0, 0, gput (wRun 0 (encI 0x1A 3 1 0) Eng.fresh) 0 1 0x4000000000000000, by decide +kernel⟩,
    ⟨0, 3, 1, 0, 0, gput (wRun 0 (encI 0x1B 3 1 0) Eng.fresh) 0 1 0x4000000000000000, by decide +kernel⟩,
    ⟨0, 3, 1, 0, 0, (fun m => { m with eng := { m.eng with prog := [(progKey 0 0 0, encI 0x1B 3 1 0)] } }) (engSet wOn 0 { Eng.fresh with st := .running, keeper := true }), by decide +kernel⟩,
    ⟨0, 3, 1, 0, 0, gput ((fun m => { m with eng := { m.eng with prog := [(progKey 0 0 0, encI 0x1B 3 1 0)] } }) (engSet wOn 0 { Eng.fresh with st := .running, keeper := true })) 0 1 0x8000000000000000, by decide +kernel⟩,
    ⟨0, ⟨.scratch,8,8,1,0,false,false,false⟩, [], wRun 0 0 { Eng.fresh with sb := [⟨.scratch, 8, 8, 1, 0, false, false, false⟩] }, by decide +kernel⟩,
    ⟨0, ⟨.pool,8,8,1,0,false,false,false⟩, [], wRun 0 0 { Eng.fresh with sb := [⟨.pool, 8, 8, 1, 0, false, false, false⟩] }, by decide +kernel⟩,
    ⟨0, ⟨.control,0x48,8,1,0,false,false,false⟩, [], engSet wOn 0 { Eng.fresh with keeper := true, sb := [⟨.control, 0x48, 8, 1, 0, false, false, false⟩] }, by decide +kernel⟩,
    ⟨0, ⟨.control,0xFFFFFFF8,8,1,0,false,false,false⟩, [], engSet wOn 0 { Eng.fresh with keeper := true, sb := [⟨.control, 0xFFFFFFF8, 8, 1, 0, false, false, false⟩] }, by decide +kernel⟩,
    ⟨0, ⟨.pool,8,8,1,0,true,true,false⟩, [], wRun 0 0 { Eng.fresh with sb := [⟨.pool, 8, 8, 1, 0, true, true, false⟩] }, by decide +kernel⟩,
    ⟨0, ⟨.control,0x3100,8,2,0,true,true,false⟩, [], fset (engSet wOn 0 { Eng.fresh with st := .running, sb := [⟨.control, 0x3100, 8, 2, 0, true, true, false⟩] }) 80 R.PWR_DOM_STATE 3, by decide +kernel⟩,
    ⟨0, .bad, ⟨.pool,8,8,1,0,false,false,false⟩, [], wRun 0 0 { Eng.fresh with sb := [⟨.pool, 8, 8, 1, 0, false, false, false⟩] }, by decide +kernel⟩,
    ⟨0, ⟨.pool,8,8,1,0,true,false,false⟩, [], wRun 0 0 { Eng.fresh with sb := [⟨.pool, 8, 8, 1, 0, true, false, false⟩] }, by decide +kernel⟩⟩

theorem witness_atomics :
    (∃ e : Fin 32, ∃ rd ra rb : Fin 32, ∃ wide : Bool, ∃ ea n : Nat, ∃ m : Mach, atWord m e (encA 0x1C rd ra rb (0 + (if wide then 3 else 2) * 16))
      = true ∧ ea = (greg m e ra).toNat ∧ n = (if wide then 8 else 4) ∧ ea % n = 0 ∧ ea + n ≤ 2 ^ 48 ∧ opMode m ≠ 0 ∧ opMode m ≠ 4 ∧
      (engOf m e).keeper = true ∧ (engOf m e).sb = []) ∧
    (∃ e : Fin 32, ∃ rd ra rb : Fin 32, ∃ wide : Bool, ∃ ea n : Nat, ∃ m : Mach, atWord m e (encA 0x1C rd ra rb (1 + (if wide then 3 else 2) * 16))
      = true ∧ ea = (greg m e ra).toNat ∧ n = (if wide then 8 else 4) ∧ ea % n = 0 ∧ ea + n ≤ 2 ^ 48 ∧ opMode m ≠ 0 ∧ opMode m ≠ 4 ∧
      (engOf m e).keeper = true ∧ (engOf m e).sb = []) ∧
    (∃ e : Fin 32, ∃ rd ra rb : Fin 32, ∃ wide : Bool, ∃ ea n : Nat, ∃ m : Mach, atWord m e (encA 0x1C rd ra rb (2 + (if wide then 3 else 2) * 16))
      = true ∧ ea = (greg m e ra).toNat ∧ n = (if wide then 8 else 4) ∧ ea % n = 0 ∧ ea + n ≤ 2 ^ 48 ∧ opMode m ≠ 0 ∧ opMode m ≠ 4 ∧
      (engOf m e).keeper = true ∧ (engOf m e).sb = []) ∧
    (∃ e : Fin 32, ∃ rd ra rb : Fin 32, ∃ wide : Bool, ∃ ea n : Nat, ∃ m : Mach, atWord m e (encA 0x1C rd ra rb (3 + (if wide then 3 else 2) * 16))
      = true ∧ ea = (greg m e ra).toNat ∧ n = (if wide then 8 else 4) ∧ ea % n = 0 ∧ ea + n ≤ 2 ^ 48 ∧ opMode m ≠ 0 ∧ opMode m ≠ 4 ∧
      (engOf m e).keeper = true ∧ (engOf m e).sb = []) ∧
    (∃ e : Fin 32, ∃ rd ra rb : Fin 32, ∃ wide : Bool, ∃ ea n : Nat, ∃ m : Mach, atWord m e (encA 0x1C rd ra rb (4 + (if wide then 3 else 2) * 16))
      = true ∧ ea = (greg m e ra).toNat ∧ n = (if wide then 8 else 4) ∧ ea % n = 0 ∧ ea + n ≤ 2 ^ 48 ∧ opMode m ≠ 0 ∧ opMode m ≠ 4 ∧
      (engOf m e).keeper = true ∧ (engOf m e).sb = []) ∧
    (∃ e : Fin 32, ∃ rd ra rb : Fin 32, ∃ wide : Bool, ∃ ea n : Nat, ∃ m : Mach, atWord m e (encA 0x1C rd ra rb (5 + (if wide then 3 else 2) * 16))
      = true ∧ ea = (greg m e ra).toNat ∧ n = (if wide then 8 else 4) ∧ ea % n = 0 ∧ ea + n ≤ 2 ^ 48 ∧ opMode m ≠ 0 ∧ opMode m ≠ 4 ∧
      (engOf m e).keeper = true ∧ (engOf m e).sb = []) ∧
    (∃ e : Fin 32, ∃ rd ra rb : Fin 32, ∃ wide : Bool, ∃ ea n : Nat, ∃ m : Mach, atWord m e (encA 0x1C rd ra rb (6 + (if wide then 3 else 2) * 16))
      = true ∧ ea = (greg m e ra).toNat ∧ n = (if wide then 8 else 4) ∧ ea % n = 0 ∧ ea + n ≤ 2 ^ 48 ∧ opMode m ≠ 0 ∧ opMode m ≠ 4 ∧
      (engOf m e).keeper = true ∧ (engOf m e).sb = []) ∧
    (∃ e : Fin 32, ∃ rd ra rb : Fin 32, ∃ wide : Bool, ∃ ea n : Nat, ∃ m : Mach, atWord m e (encA 0x1C rd ra rb (7 + (if wide then 3 else 2) * 16))
      = true ∧ ea = (greg m e ra).toNat ∧ n = (if wide then 8 else 4) ∧ ea % n = 0 ∧ ea + n ≤ 2 ^ 48 ∧ opMode m ≠ 0 ∧ opMode m ≠ 4 ∧
      (engOf m e).keeper = true ∧ (engOf m e).sb = []) ∧
    (∃ e : Fin 32, ∃ rd ra rb : Fin 32, ∃ wide : Bool, ∃ m : Mach, atWord m e (encA 0x1C rd ra rb (5 + (if wide then 3 else 2) * 16)) = true ∧
      (greg m e ra).toNat % (if wide then 8 else 4) ≠ 0) ∧
    (∃ e : Fin 32, ∃ rd ra rb : Fin 32, ∃ wide : Bool, ∃ m : Mach, atWord m e (encA 0x1C rd ra rb (5 + (if wide then 3 else 2) * 16)) = true ∧
      (greg m e ra).toNat % (if wide then 8 else 4) = 0 ∧ (greg m e ra).toNat / 2 ^ 62 ≠ 0) :=
  ⟨⟨0, 3, 1, 2, true, 0, 8, (fun m => { m with eng := { m.eng with prog := [(progKey 0 0 0, encA 0x1C 3 1 2 (0 + 3 * 16))] } }) (engSet wOn 0 { Eng.fresh with st := .running, keeper := true }), by decide +kernel⟩,
    ⟨0, 3, 1, 2, true, 0, 8, (fun m => { m with eng := { m.eng with prog := [(progKey 0 0 0, encA 0x1C 3 1 2 (1 + 3 * 16))] } }) (engSet wOn 0 { Eng.fresh with st := .running, keeper := true }), by decide +kernel⟩,
    ⟨0, 3, 1, 2, true, 0, 8, (fun m => { m with eng := { m.eng with prog := [(progKey 0 0 0, encA 0x1C 3 1 2 (2 + 3 * 16))] } }) (engSet wOn 0 { Eng.fresh with st := .running, keeper := true }), by decide +kernel⟩,
    ⟨0, 3, 1, 2, true, 0, 8, (fun m => { m with eng := { m.eng with prog := [(progKey 0 0 0, encA 0x1C 3 1 2 (3 + 3 * 16))] } }) (engSet wOn 0 { Eng.fresh with st := .running, keeper := true }), by decide +kernel⟩,
    ⟨0, 3, 1, 2, true, 0, 8, (fun m => { m with eng := { m.eng with prog := [(progKey 0 0 0, encA 0x1C 3 1 2 (4 + 3 * 16))] } }) (engSet wOn 0 { Eng.fresh with st := .running, keeper := true }), by decide +kernel⟩,
    ⟨0, 3, 1, 2, true, 0, 8, (fun m => { m with eng := { m.eng with prog := [(progKey 0 0 0, encA 0x1C 3 1 2 (5 + 3 * 16))] } }) (engSet wOn 0 { Eng.fresh with st := .running, keeper := true }), by decide +kernel⟩,
    ⟨0, 3, 1, 2, true, 0, 8, (fun m => { m with eng := { m.eng with prog := [(progKey 0 0 0, encA 0x1C 3 1 2 (6 + 3 * 16))] } }) (engSet wOn 0 { Eng.fresh with st := .running, keeper := true }), by decide +kernel⟩,
    ⟨0, 3, 1, 2, true, 0, 8, (fun m => { m with eng := { m.eng with prog := [(progKey 0 0 0, encA 0x1C 3 1 2 (7 + 3 * 16))] } }) (engSet wOn 0 { Eng.fresh with st := .running, keeper := true }), by decide +kernel⟩,
    ⟨0, 3, 1, 2, false, gput ((fun m => { m with eng := { m.eng with prog := [(progKey 0 0 0, encA 0x1C 3 1 2 37)] } }) (engSet wOn 0 { Eng.fresh with st := .running, keeper := true })) 0 1 2, by decide +kernel⟩,
    ⟨0, 3, 1, 2, false, gput ((fun m => { m with eng := { m.eng with prog := [(progKey 0 0 0, encA 0x1C 3 1 2 37)] } }) (engSet wOn 0 { Eng.fresh with st := .running, keeper := true })) 0 1 0x4000000000000000, by decide +kernel⟩⟩

theorem witness_wait_for_a_register :
    (∃ e : Fin 32, ∃ rd ra rb : Fin 32, ∃ ea a : Nat, ∃ v : Word, ∃ m : Mach, atWord m e (encA 0x3F rd ra rb (4 + 0 * 256)) = true ∧
      (engOf m e).st = .running ∧ ea = (greg m e ra).toNat ∧ ea / 2 ^ 62 = 2 ∧ a = ea % 2 ^ 62 ∧ a < 2 ^ 32 ∧ a % 8 = 0 ∧
      (engOf m e).keeper = true ∧ mapped a = true ∧ (engOf m e).sb = [] ∧ reach m a = .open_ ∧ v = BitVec.ofNat 64 (ctlRead a m).1 ∧
      v &&& greg m e rb ≠ 0) ∧
    (∃ e : Fin 32, ∃ rd ra rb : Fin 32, ∃ ea a : Nat, ∃ v : Word, ∃ m : Mach, atWord m e (encA 0x3F rd ra rb (4 + 1 * 256)) = true ∧
      (engOf m e).st = .running ∧ ea = (greg m e ra).toNat ∧ ea / 2 ^ 62 = 2 ∧ a = ea % 2 ^ 62 ∧ a < 2 ^ 32 ∧ a % 8 = 0 ∧
      (engOf m e).keeper = true ∧ mapped a = true ∧ (engOf m e).sb = [] ∧ reach m a = .open_ ∧ v = BitVec.ofNat 64 (ctlRead a m).1 ∧
      v &&& greg m e rb = 0) ∧
    (∃ e : Fin 32, ∃ rd ra rb : Fin 32, ∃ ea a : Nat, ∃ v : Word, ∃ m : Mach, atWord m e (encA 0x3F rd ra rb (4 + 1 * 256)) = true ∧
      (engOf m e).st = .running ∧ ea = (greg m e ra).toNat ∧ ea / 2 ^ 62 = 2 ∧ a = ea % 2 ^ 62 ∧ a < 2 ^ 32 ∧ a % 8 = 0 ∧
      (engOf m e).keeper = true ∧ mapped a = true ∧ (engOf m e).sb = [] ∧ reach m a = .open_ ∧ v = BitVec.ofNat 64 (ctlRead a m).1 ∧
      ¬ (v &&& greg m e rb = 0)) ∧
    (∃ e : Fin 32, ∃ rd ra rb : Fin 32, ∃ ea a : Nat, ∃ v : Word, ∃ m : Mach, atWord m e (encA 0x3F rd ra rb (4 + 2 * 256)) = true ∧
      (engOf m e).st = .running ∧ ea = (greg m e ra).toNat ∧ ea / 2 ^ 62 = 2 ∧ a = ea % 2 ^ 62 ∧ a < 2 ^ 32 ∧ a % 8 = 0 ∧
      (engOf m e).keeper = true ∧ mapped a = true ∧ (engOf m e).sb = [] ∧ reach m a = .open_ ∧ v = BitVec.ofNat 64 (ctlRead a m).1 ∧
      v &&& greg m e rb = greg m e rd &&& greg m e rb) ∧
    (∃ e : Fin 32, ∃ rd ra rb : Fin 32, ∃ ea a : Nat, ∃ v : Word, ∃ m : Mach, atWord m e (encA 0x3F rd ra rb (4 + 256)) = true ∧
      (engOf m e).st = .waiting ∧ ea = (greg m e ra).toNat ∧ ea / 2 ^ 62 = 2 ∧ a = ea % 2 ^ 62 ∧ a < 2 ^ 32 ∧ a % 8 = 0 ∧
      (engOf m e).keeper = true ∧ mapped a = true ∧ (engOf m e).sb = [] ∧ reach m a = .open_ ∧ v = BitVec.ofNat 64 (ctlRead a m).1 ∧
      v &&& greg m e rb = 0) ∧
    (∃ e : Fin 32, ∃ m : Mach, (engOf m e).st = .running) :=
  ⟨⟨0, 3, 1, 2, 0x8000000000000040, 0x40, 0x31, gput (gput ((fun m => { m with eng := { m.eng with prog := [(progKey 0 0 0, encA 0x3F 3 1 2 4)] } }) (engSet wOn 0 { Eng.fresh with st := .running, keeper := true })) 0 1 0x8000000000000040) 0 2 0xFFFFFFFFFFFFFFFF, by decide +kernel⟩,
    ⟨0, 3, 1, 2, 0x8000000000000040, 0x40, 0x31, gput ((fun m => { m with eng := { m.eng with prog := [(progKey 0 0 0, encA 0x3F 3 1 2 (4 + 1 * 256))] } }) (engSet wOn 0 { Eng.fresh with st := .running, keeper := true })) 0 1 0x8000000000000040, by decide +kernel⟩,
    ⟨0, 3, 1, 2, 0x8000000000000040, 0x40, 0x31, gput (gput ((fun m => { m with eng := { m.eng with prog := [(progKey 0 0 0, encA 0x3F 3 1 2 (4 + 1 * 256))] } }) (engSet wOn 0 { Eng.fresh with st := .running, keeper := true })) 0 1 0x8000000000000040) 0 2 0xFFFFFFFFFFFFFFFF, by decide +kernel⟩,
    ⟨0, 3, 1, 2, 0x8000000000000040, 0x40, 0x31, gput ((fun m => { m with eng := { m.eng with prog := [(progKey 0 0 0, encA 0x3F 3 1 2 (4 + 2 * 256))] } }) (engSet wOn 0 { Eng.fresh with st := .running, keeper := true })) 0 1 0x8000000000000040, by decide +kernel⟩,
    ⟨0, 3, 1, 2, 0x8000000000000040, 0x40, 0x31, gput (engSet ((fun m => { m with eng := { m.eng with prog := [(progKey 0 0 0, encA 0x3F 3 1 2 (4 + 256))] } }) (engSet wOn 0 { Eng.fresh with st := .running, keeper := true })) 0 { Eng.fresh with st := .waiting, keeper := true }) 0 1 0x8000000000000040, by decide +kernel⟩,
    ⟨0, wRun 0 0 Eng.fresh, by decide +kernel⟩⟩

theorem witness_range_and_flume_starts :
    (∃ e : Fin 32, ∃ rd ra rb : Fin 32, ∃ a n i0 : Nat, ∃ m : Mach, atWord m e (encX 0x01 rd ra rb 0) = true ∧ (engOf m e).keeper = true ∧
      (engOf m e).sb = [] ∧ opMode m ≠ 0 ∧ opMode m ≠ 4 ∧ a = (greg m e ra).toNat ∧ a % 64 = 0 ∧ n = (greg m e rb).toNat ∧ 0 < n ∧
      a + 64 * n ≤ 2 ^ 48 ∧ (handlesOf m e false).length < 4 ∧ i0 < 4 ∧ rangeOf m (4 * engSide e + i0) = none) ∧
    (∃ e : Fin 32, ∃ rd ra rb : Fin 32, ∃ a n i0 : Nat, ∃ m : Mach, atWord m e (encX 0x01 rd ra rb 1) = true ∧ (engOf m e).keeper = true ∧
      (engOf m e).sb = [] ∧ opMode m ≠ 0 ∧ opMode m ≠ 4 ∧ a = (greg m e ra).toNat ∧ a % 64 = 0 ∧ n = (greg m e rb).toNat ∧ 0 < n ∧
      a + 64 * n ≤ 2 ^ 48 ∧ (handlesOf m e false).length < 4 ∧ i0 < 4 ∧ rangeOf m (4 * engSide e + i0) = none) ∧
    (∃ e : Fin 32, ∃ rd ra rb : Fin 32, ∃ a n i0 : Nat, ∃ m : Mach, atWord m e (encX 0x01 rd ra rb 2) = true ∧ (engOf m e).keeper = true ∧
      (engOf m e).sb = [] ∧ opMode m ≠ 0 ∧ opMode m ≠ 4 ∧ a = (greg m e ra).toNat ∧ a % 64 = 0 ∧ n = (greg m e rb).toNat ∧ 0 < n ∧
      a + 64 * n ≤ 2 ^ 48 ∧ (handlesOf m e false).length < 4 ∧ i0 < 4 ∧ rangeOf m (4 * engSide e + i0) = none) ∧
    (∃ e : Fin 32, ∃ rd ra rb : Fin 32, ∃ a n i0 : Nat, ∃ m : Mach, atWord m e (encX 0x01 rd ra rb 3) = true ∧ (engOf m e).keeper = true ∧
      (engOf m e).sb = [] ∧ opMode m ≠ 0 ∧ opMode m ≠ 4 ∧ a = (greg m e ra).toNat ∧ a % 64 = 0 ∧ n = (greg m e rb).toNat ∧ 0 < n ∧
      a + 64 * n ≤ 2 ^ 48 ∧ (handlesOf m e false).length < 4 ∧ i0 < 4 ∧ rangeOf m (4 * engSide e + i0) = none) ∧
    (∃ e : Fin 32, ∃ rd ra rb : Fin 32, ∃ a n i0 : Nat, ∃ m : Mach, atWord m e (encX 0x01 rd ra rb 4) = true ∧ (engOf m e).keeper = true ∧
      (engOf m e).sb = [] ∧ opMode m ≠ 0 ∧ opMode m ≠ 4 ∧ a = (greg m e ra).toNat ∧ a % 64 = 0 ∧ n = (greg m e rb).toNat ∧ 0 < n ∧
      a + 64 * n ≤ 2 ^ 48 ∧ (handlesOf m e false).length < 4 ∧ i0 < 4 ∧ rangeOf m (4 * engSide e + i0) = none) ∧
    (∃ e : Fin 32, ∃ rd ra rb : Fin 32, ∃ m : Mach, atWord m e (encX 0x01 rd ra rb 0) = true ∧ greg m e rb = 0) ∧
    (∃ e : Fin 32, ∃ rd ra rb : Fin 32, ∃ m : Mach, atWord m e (encX 0x01 rd ra rb 2) = true ∧ greg m e rb ≠ 0 ∧ (engOf m e).keeper = false) ∧
    (∃ e : Fin 32, ∃ rd ra : Fin 32, ∃ h : Handle, ∃ m : Mach, atWord m e (encX 0x02 rd ra 0 0) = true ∧ ra ≠ 0 ∧
      ((handlesOf m e false).find? fun h => handleWord h == (greg m e ra).toNat) = some h ∧ handleEnded m h = true) ∧
    (∃ e : Fin 32, ∃ rd ra : Fin 32, ∃ h : Handle, ∃ m : Mach, atWord m e (encX 0x02 rd ra 0 0) = true ∧ ra ≠ 0 ∧
      ((handlesOf m e false).find? fun h => handleWord h == (greg m e ra).toNat) = some h ∧ handleEnded m h = false) ∧
    (∃ e : Fin 32, ∃ rd ra : Fin 32, ∃ h : Handle, ∃ m : Mach, atWord m e (encX 0x04 rd ra 0 0) = true ∧ ra ≠ 0 ∧
      ((handlesOf m e true).find? fun h => handleWord h == (greg m e ra).toNat) = some h ∧ handleEnded m h = true) ∧
    (∃ e : Fin 32, ∃ rd ra : Fin 32, ∃ h : Handle, ∃ m : Mach, atWord m e (encX 0x04 rd ra 0 0) = true ∧ ra ≠ 0 ∧
      ((handlesOf m e true).find? fun h => handleWord h == (greg m e ra).toNat) = some h ∧ handleEnded m h = false) ∧
    (∃ e : Fin 32, ∃ rd ra : Fin 32, ∃ a steps src dst i c : Nat, ∃ m : Mach, atWord m e (encX 0x03 rd ra 0 0) = true ∧ (engOf m e).keeper = true ∧
      (engOf m e).sb = [] ∧ opMode m ≠ 0 ∧ opMode m ≠ 4 ∧ (greg m e ra).toNat / 2 ^ 62 = 1 ∧ a = (greg m e ra).toNat % 2 ^ 62 ∧ a % 8 = 0 ∧
      a + 32 ≤ 65536 ∧ scrWord m e a = steps * 2 ^ 16 ∧ 0 < steps ∧ steps < 2 ^ 32 ∧ src = scrWord m e (a + 8) ∧ dst = scrWord m e (a + 16) ∧
      scrWord m e (a + 24) = 0 ∧ src % 4096 = 0 ∧ dst % 4096 = 0 ∧ (src + 4096 * steps ≤ dst ∨ dst + 4096 * steps ≤ src) ∧
      src + 4096 * steps ≤ 2 ^ 48 ∧ dst + 4096 * steps ≤ 2 ^ 48 ∧ (handlesOf m e true).length < 16 ∧
      ((List.range 32).find? fun i => (flumeOf m (32 * engSide e + i)).isNone) = some i ∧ c = 32 * engSide e + i) ∧
    (∃ e : Fin 32, ∃ rd ra rb : Fin 32, ∃ src dst i c : Nat, ∃ m : Mach, atWord m e (encX 0x03 rd ra rb 1) = true ∧ (engOf m e).keeper = true ∧
      (engOf m e).sb = [] ∧ opMode m ≠ 0 ∧ opMode m ≠ 4 ∧ src = (greg m e ra).toNat ∧ dst = (greg m e rb).toNat ∧ roleOf m (wordPort src) = 2 ∧
      roleOf m (wordPort dst) = 2 ∧ (handlesOf m e true).length < 16 ∧ ((List.range 32).find? fun i => (flumeOf m (32 * engSide e + i)).isNone) =
      some i ∧ c = 32 * engSide e + i) ∧
    (∃ e : Fin 32, ∃ rd ra rb : Fin 32, ∃ m : Mach, atWord m e (encX 0x03 rd ra rb 1) = true ∧ (engOf m e).keeper = false) :=
  ⟨⟨0, 3, 1, 2, 64, 1, 3, gput (gput ((fun m => { m with eng := { m.eng with prog := [(progKey 0 0 0, encX 0x01 3 1 2 0)] } }) (engSet wOn 0 { Eng.fresh with st := .running, keeper := true })) 0 1 64) 0 2 1, by decide +kernel⟩,
    ⟨0, 3, 1, 2, 64, 1, 3, gput (gput ((fun m => { m with eng := { m.eng with prog := [(progKey 0 0 0, encX 0x01 3 1 2 1)] } }) (engSet wOn 0 { Eng.fresh with st := .running, keeper := true })) 0 1 64) 0 2 1, by decide +kernel⟩,
    ⟨0, 3, 1, 2, 64, 1, 3, gput (gput ((fun m => { m with eng := { m.eng with prog := [(progKey 0 0 0, encX 0x01 3 1 2 2)] } }) (engSet wOn 0 { Eng.fresh with st := .running, keeper := true })) 0 1 64) 0 2 1, by decide +kernel⟩,
    ⟨0, 3, 1, 2, 64, 1, 3, gput (gput ((fun m => { m with eng := { m.eng with prog := [(progKey 0 0 0, encX 0x01 3 1 2 3)] } }) (engSet wOn 0 { Eng.fresh with st := .running, keeper := true })) 0 1 64) 0 2 1, by decide +kernel⟩,
    ⟨0, 3, 1, 2, 64, 1, 3, gput (gput ((fun m => { m with eng := { m.eng with prog := [(progKey 0 0 0, encX 0x01 3 1 2 4)] } }) (engSet wOn 0 { Eng.fresh with st := .running, keeper := true })) 0 1 64) 0 2 1, by decide +kernel⟩,
    ⟨0, 3, 1, 2, (fun m => { m with eng := { m.eng with prog := [(progKey 0 0 0, encX 0x01 3 1 2 0)] } }) (engSet wOn 0 { Eng.fresh with st := .running, keeper := true }), by decide +kernel⟩,
    ⟨0, 3, 1, 2, gput ((fun m => { m with eng := { m.eng with prog := [(progKey 0 0 0, encX 0x01 3 1 2 2)] } }) (engSet wOn 0 { Eng.fresh with st := .running, keeper := false })) 0 2 1, by decide +kernel⟩,
    ⟨0, 3, 1, ⟨false,0,1⟩, gput ((fun m => { m with eng := { m.eng with prog := [(progKey 0 0 0, encX 0x02 3 1 0 0)] } }) (engSet wOn 0 { Eng.fresh with st := .running, keeper := true, handles := [⟨false, 0, 1⟩] })) 0 1 0x10000, by decide +kernel⟩,
    ⟨0, 3, 1, ⟨false,0,1⟩, gput ((fun m => { m with eng := { m.eng with ranges := [⟨0, 0, 0, 1, 0, [], [], 0, 0, false, false⟩], prog := [(progKey 0 0 0, encX 0x02 3 1 0 0)] } }) (engSet wOn 0 { Eng.fresh with st := .running, keeper := true, handles := [⟨false, 0, 1⟩] })) 0 1 0x10000, by decide +kernel⟩,
    ⟨0, 3, 1, ⟨true,0,1⟩, gput ((fun m => { m with eng := { m.eng with prog := [(progKey 0 0 0, encX 0x04 3 1 0 0)] } }) (engSet wOn 0 { Eng.fresh with st := .running, keeper := true, handles := [⟨true, 0, 1⟩] })) 0 1 0x10100, by decide +kernel⟩,
    ⟨0, 3, 1, ⟨true,0,1⟩, gput ((fun m => { m with eng := { m.eng with flumes := [⟨0, 0, 1, 0, 0, 0, [], 0, 0, false, false⟩], prog := [(progKey 0 0 0, encX 0x04 3 1 0 0)] } }) (engSet wOn 0 { Eng.fresh with st := .running, keeper := true, handles := [⟨true, 0, 1⟩] })) 0 1 0x10100, by decide +kernel⟩,
    ⟨0, 3, 1, 0, 1, 0, 4096, 0, 0, (fun m => { m with eng := { m.eng with scratch := [(2, 1), (17, 0x10)] } }) (gput ((fun m => { m with eng := { m.eng with prog := [(progKey 0 0 0, encX 0x03 3 1 0 0)] } }) (engSet wOn 0 { Eng.fresh with st := .running, keeper := true })) 0 1 0x4000000000000000), by decide +kernel⟩,
    ⟨0, 3, 1, 2, 0x800000000, 0x800000001, 0, 0, gput (gput ((fun m => { m with eng := { m.eng with prog := [(progKey 0 0 0, encX 0x03 3 1 2 1)] } }) (engSet wOn 0 { Eng.fresh with st := .running, keeper := true })) 0 1 0x800000000) 0 2 0x800000001, by decide +kernel⟩,
    ⟨0, 3, 1, 2, (fun m => { m with eng := { m.eng with prog := [(progKey 0 0 0, encX 0x03 3 1 2 1)] } }) (engSet wOn 0 { Eng.fresh with st := .running, keeper := false }), by decide +kernel⟩⟩

theorem witness_composition_instructions :
    (∃ e : Fin 32, ∃ rd ra rb : Fin 32, ∃ a i : Nat, ∃ n : Region, ∃ m : Mach, atWord m e (encX 0x10 rd ra rb 0) = true ∧
      (engOf m e).keeper = true ∧ (engOf m e).sb = [] ∧ (greg m e rb).toNat / 2 ^ 62 = 1 ∧ a = (greg m e rb).toNat % 2 ^ 62 ∧ a % 8 = 0 ∧
      a + 16 ≤ 65536 ∧ (engOf m e).p = none ∧ greg m e rd = 0 ∧ i = (greg m e ra).toNat ∧ i ≤ 4095 ∧
      n = (⟨scrWord m e a, scrWord m e (a + 8)⟩ : Region) ∧ planOf m i = none ∧ regCheck m (engSide e) i n = 0 ∧ regAt m i ≠ n) ∧
    (∃ e : Fin 32, ∃ rd ra rb : Fin 32, ∃ a i : Nat, ∃ n : Region, ∃ m : Mach, atWord m e (encX 0x10 rd ra rb 0) = true ∧
      (engOf m e).keeper = true ∧ (engOf m e).sb = [] ∧ (greg m e rb).toNat / 2 ^ 62 = 1 ∧ a = (greg m e rb).toNat % 2 ^ 62 ∧ a % 8 = 0 ∧
      a + 16 ≤ 65536 ∧ (engOf m e).p = none ∧ greg m e rd = 0 ∧ i = (greg m e ra).toNat ∧ i ≤ 4095 ∧
      n = (⟨scrWord m e a, scrWord m e (a + 8)⟩ : Region) ∧ planOf m i = none ∧ regCheck m (engSide e) i n ≠ 0) ∧
    (∃ e : Fin 32, ∃ rd ra rb : Fin 32, ∃ a i : Nat, ∃ r : Region, ∃ m : Mach, atWord m e (encX 0x11 rd ra rb 0) = true ∧
      (engOf m e).keeper = true ∧ (engOf m e).sb = [] ∧ (greg m e rb).toNat / 2 ^ 62 = 1 ∧ a = (greg m e rb).toNat % 2 ^ 62 ∧ a % 8 = 0 ∧
      a + 16 ≤ 65536 ∧ i = (greg m e ra).toNat ∧ i ≤ 4095 ∧ r = (regAt m i).clean) ∧
    (∃ e : Fin 32, ∃ rd ra rb : Fin 32, ∃ plot new : Nat, ∃ m : Mach, atWord m e (encX 0x12 rd ra rb 0) = true ∧ (engOf m e).keeper = true ∧
      plot = (greg m e ra).toNat ∧ new = (greg m e rb).toNat ∧ plcCheck m plot (plcGet m (engSide e) plot) new = .write) ∧
    (∃ e : Fin 32, ∃ rd ra rb : Fin 32, ∃ plot new s : Nat, ∃ m : Mach, atWord m e (encX 0x12 rd ra rb 0) = true ∧ (engOf m e).keeper = true ∧
      plot = (greg m e ra).toNat ∧ new = (greg m e rb).toNat ∧ plcCheck m plot (plcGet m (engSide e) plot) new = .status s) ∧
    (∃ e : Fin 32, ∃ rd ra : Fin 32, ∃ plot : Nat, ∃ m : Mach, atWord m e (encX 0x13 rd ra 0 0) = true ∧ (engOf m e).keeper = true ∧
      plot = (greg m e ra).toNat ∧ plot ≤ 0x7FFFFFF) ∧
    (∃ e : Fin 32, ∃ rd ra : Fin 32, ∃ a w0 w1 w2 n : Nat, ∃ m : Mach, atWord m e (encX 0x14 rd ra 0 0) = true ∧ (engOf m e).keeper = true ∧
      (engOf m e).sb = [] ∧ (greg m e ra).toNat / 2 ^ 62 = 1 ∧ a = (greg m e ra).toNat % 2 ^ 62 ∧ a % 8 = 0 ∧ a + 32 ≤ 65536 ∧
      (engOf m e).p = none ∧ greg m e rd = 0 ∧ w0 = scrWord m e a ∧ w1 = scrWord m e (a + 8) ∧ w2 = scrWord m e (a + 16) ∧
      runCheck m w0 w1 w2 (scrWord m e (a + 24)) = 0 ∧ n = bitsOf w0 32 28 ∧ n ≤ 4096 ∧
      (∀ i < n, plcCheck m (bitsOf w0 0 27 + i) (plcGet m (engSide e) (bitsOf w0 0 27 + i)) (runEntry w1 w2 i) = .write)) ∧
    (∃ e : Fin 32, ∃ rd ra : Fin 32, ∃ a s : Nat, ∃ m : Mach, atWord m e (encX 0x14 rd ra 0 0) = true ∧ (engOf m e).keeper = true ∧
      (engOf m e).sb = [] ∧ (greg m e ra).toNat / 2 ^ 62 = 1 ∧ a = (greg m e ra).toNat % 2 ^ 62 ∧ a % 8 = 0 ∧ a + 32 ≤ 65536 ∧
      (engOf m e).p = none ∧ greg m e rd = 0 ∧ s = runCheck m (scrWord m e a) (scrWord m e (a + 8)) (scrWord m e (a + 16)) (scrWord m e (a + 24)) ∧
      s ≠ 0) :=
  ⟨⟨0, 3, 1, 2, 0, 0, ⟨1,0⟩, (fun m => { m with eng := { m.eng with scratch := [(0, 1)] } }) (gput ((fun m => { m with eng := { m.eng with prog := [(progKey 0 0 0, encX 0x10 3 1 2 0)] } }) (engSet wOn 0 { Eng.fresh with st := .running, keeper := true })) 0 2 0x4000000000000000), by decide +kernel⟩,
    ⟨0, 3, 1, 2, 0, 0, ⟨0,2^63⟩, (fun m => { m with eng := { m.eng with scratch := [(15, 0x80)] } }) (gput ((fun m => { m with eng := { m.eng with prog := [(progKey 0 0 0, encX 0x10 3 1 2 0)] } }) (engSet wOn 0 { Eng.fresh with st := .running, keeper := true })) 0 2 0x4000000000000000), by decide +kernel⟩,
    ⟨0, 3, 1, 2, 0, 0, ⟨0,0⟩, gput ((fun m => { m with eng := { m.eng with prog := [(progKey 0 0 0, encX 0x11 3 1 2 0)] } }) (engSet wOn 0 { Eng.fresh with st := .running, keeper := true })) 0 2 0x4000000000000000, by decide +kernel⟩,
    ⟨0, 3, 1, 2, 0, 2, gput ((fun m => { m with eng := { m.eng with prog := [(progKey 0 0 0, encX 0x12 3 1 2 0)] } }) (engSet wOn 0 { Eng.fresh with st := .running, keeper := true })) 0 2 2, by decide +kernel⟩,
    ⟨0, 3, 1, 2, 0x8000000, 0, 1, gput ((fun m => { m with eng := { m.eng with prog := [(progKey 0 0 0, encX 0x12 3 1 2 0)] } }) (engSet wOn 0 { Eng.fresh with st := .running, keeper := true })) 0 1 0x8000000, by decide +kernel⟩,
    ⟨0, 3, 1, 0, (fun m => { m with eng := { m.eng with prog := [(progKey 0 0 0, encX 0x13 3 1 0 0)] } }) (engSet wOn 0 { Eng.fresh with st := .running, keeper := true }), by decide +kernel⟩,
    ⟨0, 3, 1, 0, 0x100000000, 0x204000000, 0, 1, (fun m => { m with ports := { m.ports with sledCap := [(8, 1)] }, eng := { m.eng with scratch := [(4, 1), (11, 4), (12, 2)] } }) (gput ((fun m => { m with eng := { m.eng with prog := [(progKey 0 0 0, encX 0x14 3 1 0 0)] } }) (engSet wOn 0 { Eng.fresh with st := .running, keeper := true })) 0 1 0x4000000000000000), by decide +kernel⟩,
    ⟨0, 3, 1, 0, 1, gput ((fun m => { m with eng := { m.eng with prog := [(progKey 0 0 0, encX 0x14 3 1 0 0)] } }) (engSet wOn 0 { Eng.fresh with st := .running, keeper := true })) 0 1 0x4000000000000000, by decide +kernel⟩⟩

theorem witness_trackers_extents_and_retirement :
    (∃ e : Fin 32, ∃ rd ra rb : Fin 32, ∃ t plot : Nat, ∃ m : Mach, atWord m e (encX 0x15 rd ra rb 1) = true ∧ (engOf m e).keeper = true ∧
      t = (greg m e ra).toNat ∧ t ≤ 15 ∧ plot = (greg m e rb).toNat ∧ plot ≤ 0x7FFFFFF ∧ fon m (lvlBase 0 + 16 * t) R.PLC_MIGT_EN = false ∧
      fon m (lvlBase 1 + 16 * t) R.PLC_MIGT_EN = false) ∧
    (∃ e : Fin 32, ∃ rd ra rb : Fin 32, ∃ t plot : Nat, ∃ m : Mach, atWord m e (encX 0x15 rd ra rb 1) = true ∧ (engOf m e).keeper = true ∧
      t = (greg m e ra).toNat ∧ t ≤ 15 ∧ plot = (greg m e rb).toNat ∧ plot ≤ 0x7FFFFFF ∧ fon m (lvlBase 0 + 16 * t) R.PLC_MIGT_EN = true ∧
      fget m (lvlBase 0 + 16 * t) R.PLC_MIGT_PLOT ≠ plot) ∧
    (∃ e : Fin 32, ∃ rd ra rb : Fin 32, ∃ t : Nat, ∃ m : Mach, atWord m e (encX 0x15 rd ra rb 0) = true ∧ (engOf m e).keeper = true ∧
      t = (greg m e ra).toNat ∧ t ≤ 15) ∧
    (∃ e : Fin 32, ∃ rd ra : Fin 32, ∃ t : Nat, ∃ m : Mach, atWord m e (encX 0x16 rd ra 0 1) = true ∧ (engOf m e).keeper = true ∧
      (engOf m e).st = .running ∧ t = (greg m e ra).toNat ∧ t ≤ 15 ∧ plotQuiet m 0 (fget m (lvlBase 0 + 16 * t) R.PLC_MIGT_PLOT) = true ∧
      plotQuiet m 1 (fget m (lvlBase 1 + 16 * t) R.PLC_MIGT_PLOT) = true) ∧
    (∃ e : Fin 32, ∃ rd ra : Fin 32, ∃ t : Nat, ∃ m : Mach, atWord m e (encX 0x16 rd ra 0 0) = true ∧ (engOf m e).keeper = true ∧
      t = (greg m e ra).toNat ∧ t ≤ 15) ∧
    (∃ e : Fin 32, ∃ rd ra rb : Fin 32, ∃ a p x w0 w1 : Nat, ∃ m : Mach, atWord m e (encX 0x17 rd ra rb 0) = true ∧ (engOf m e).keeper = true ∧
      (engOf m e).sb = [] ∧ (greg m e rb).toNat / 2 ^ 62 = 1 ∧ a = (greg m e rb).toNat % 2 ^ 62 ∧ a % 8 = 0 ∧ a + 16 ≤ 65536 ∧
      (engOf m e).p = none ∧ greg m e rd = 0 ∧ p = bitsOf (greg m e ra).toNat 0 5 ∧ x = bitsOf (greg m e ra).toNat 8 6 ∧ roleOf m p = 1 ∧
      w0 = scrWord m e a ∧ w1 = scrWord m e (a + 8) ∧ extCheck m (engSide e) p x w0 w1 = 0) ∧
    (∃ e : Fin 32, ∃ rd ra rb : Fin 32, ∃ a p x : Nat, ∃ m : Mach, atWord m e (encX 0x17 rd ra rb 1) = true ∧ (engOf m e).keeper = true ∧
      (engOf m e).sb = [] ∧ (greg m e rb).toNat / 2 ^ 62 = 1 ∧ a = (greg m e rb).toNat % 2 ^ 62 ∧ a % 8 = 0 ∧ a + 16 ≤ 65536 ∧
      (engOf m e).p = none ∧ greg m e rd = 0 ∧ p = bitsOf (greg m e ra).toNat 0 5 ∧ x = bitsOf (greg m e ra).toNat 8 6 ∧ roleOf m p = 1 ∧
      extState m p x = 2) ∧
    (∃ e : Fin 32, ∃ rd ra rb : Fin 32, ∃ a p x : Nat, ∃ m : Mach, atWord m e (encX 0x17 rd ra rb 2) = true ∧ (engOf m e).keeper = true ∧
      (engOf m e).sb = [] ∧ (greg m e rb).toNat / 2 ^ 62 = 1 ∧ a = (greg m e rb).toNat % 2 ^ 62 ∧ a % 8 = 0 ∧ a + 16 ≤ 65536 ∧
      (engOf m e).p = none ∧ greg m e rd = 0 ∧ p = bitsOf (greg m e ra).toNat 0 5 ∧ x = bitsOf (greg m e ra).toNat 8 6 ∧ roleOf m p = 1 ∧
      extState m p x = 2) ∧
    (∃ e : Fin 32, ∃ rd ra rb : Fin 32, ∃ k frame pc : Nat, ∃ m : Mach, atWord m e (encX 0x20 rd ra rb 1) = true ∧ (engOf m e).keeper = true ∧
      (engOf m e).p = none ∧ greg m e rd = 0 ∧ k = (greg m e ra).toNat ∧ k ≤ 7 ∧ sideUp m (k / 4) = true ∧
      fon m (rsvBase k) R.RSV_RETIRE_BUSY = false ∧ frame = bitsOf (greg m e rb).toNat 0 19 ∧ pc = bitsOf (greg m e rb).toNat 19 5) ∧
    (∃ e : Fin 32, ∃ rd ra rb : Fin 32, ∃ k frame pc : Nat, ∃ m : Mach, atWord m e (encX 0x20 rd ra rb 2) = true ∧ (engOf m e).keeper = true ∧
      (engOf m e).p = none ∧ greg m e rd = 0 ∧ k = (greg m e ra).toNat ∧ k ≤ 7 ∧ sideUp m (k / 4) = true ∧
      fon m (rsvBase k) R.RSV_RETIRE_BUSY = false ∧ frame = bitsOf (greg m e rb).toNat 0 19 ∧ pc = bitsOf (greg m e rb).toNat 19 5) ∧
    (∃ e : Fin 32, ∃ rd ra rb : Fin 32, ∃ k frame pc : Nat, ∃ m : Mach, atWord m e (encX 0x20 rd ra rb 3) = true ∧ (engOf m e).keeper = true ∧
      (engOf m e).p = none ∧ greg m e rd = 0 ∧ k = (greg m e ra).toNat ∧ k ≤ 7 ∧ sideUp m (k / 4) = true ∧
      fon m (rsvBase k) R.RSV_RETIRE_BUSY = false ∧ frame = bitsOf (greg m e rb).toNat 0 19 ∧ pc = bitsOf (greg m e rb).toNat 19 5) ∧
    (∃ e : Fin 32, ∃ rd ra rb : Fin 32, ∃ m : Mach, atWord m e (encX 0x20 rd ra rb 1) = true ∧ (engOf m e).keeper = true ∧ 7 < (greg m e ra).toNat) ∧
    (∃ e : Fin 32, ∃ rd : Fin 32, ∃ size : BitVec 48, ∃ s : Nat, ∃ m : Mach, atWord m e (encX 0x21 rd 0 0 0) = true ∧ (engOf m e).keeper = true ∧
      (engOf m e).p = none ∧ greg m e rd = 0 ∧ m.boot.commit = none ∧ size.toNat ≤ 32 * 2 ^ 20 ∧ s = commitSlot m) ∧
    (∃ e : Fin 32, ∃ rd : Fin 32, ∃ size : BitVec 48, ∃ m : Mach, atWord m e (encX 0x21 rd 0 0 0) = true ∧ (engOf m e).keeper = true ∧
      (engOf m e).p = none ∧ greg m e rd = 0 ∧ m.boot.commit = none ∧ 32 * 2 ^ 20 < size.toNat) :=
  ⟨⟨0, 3, 1, 2, 0, 5, gput ((fun m => { m with eng := { m.eng with prog := [(progKey 0 0 0, encX 0x15 3 1 2 1)] } }) (engSet wOn 0 { Eng.fresh with st := .running, keeper := true })) 0 2 5, by decide +kernel⟩,
    ⟨0, 3, 1, 2, 0, 5, fset (gput ((fun m => { m with eng := { m.eng with prog := [(progKey 0 0 0, encX 0x15 3 1 2 1)] } }) (engSet wOn 0 { Eng.fresh with st := .running, keeper := true })) 0 2 5) (lvlBase 0) R.PLC_MIGT_EN 1, by decide +kernel⟩,
    ⟨0, 3, 1, 2, 0, (fun m => { m with eng := { m.eng with prog := [(progKey 0 0 0, encX 0x15 3 1 2 0)] } }) (engSet wOn 0 { Eng.fresh with st := .running, keeper := true }), by decide +kernel⟩,
    ⟨0, 3, 1, 0, (fun m => { m with eng := { m.eng with prog := [(progKey 0 0 0, encX 0x16 3 1 0 1)] } }) (engSet wOn 0 { Eng.fresh with st := .running, keeper := true }), by decide +kernel⟩,
    ⟨0, 3, 1, 0, (fun m => { m with eng := { m.eng with prog := [(progKey 0 0 0, encX 0x16 3 1 0 0)] } }) (engSet wOn 0 { Eng.fresh with st := .running, keeper := true }), by decide +kernel⟩,
    ⟨0, 3, 1, 2, 0, 0, 0, 0, 0, (fun m => { m with comp := { m.comp with plc := [(0, 2 ^ 28)] } }) (gput ((fun m => { m with eng := { m.eng with prog := [(progKey 0 0 0, encX 0x17 3 1 2 0)] } }) (engSet wOn 0 { Eng.fresh with st := .running, keeper := true })) 0 2 0x4000000000000000), by decide +kernel⟩,
    ⟨0, 3, 1, 2, 0, 0, 0, fset (gput ((fun m => { m with eng := { m.eng with prog := [(progKey 0 0 0, encX 0x17 3 1 2 1)] } }) (engSet wOn 0 { Eng.fresh with st := .running, keeper := true })) 0 2 0x4000000000000000) (ptBase 0) R.PT_VEXT_B_STATE 2, by decide +kernel⟩,
    ⟨0, 3, 1, 2, 0, 0, 0, fset (gput ((fun m => { m with eng := { m.eng with prog := [(progKey 0 0 0, encX 0x17 3 1 2 2)] } }) (engSet wOn 0 { Eng.fresh with st := .running, keeper := true })) 0 2 0x4000000000000000) (ptBase 0) R.PT_VEXT_B_STATE 2, by decide +kernel⟩,
    ⟨0, 3, 1, 2, 0, 0, 0, (fun m => { m with eng := { m.eng with prog := [(progKey 0 0 0, encX 0x20 3 1 2 1)] } }) (engSet wOn 0 { Eng.fresh with st := .running, keeper := true }), by decide +kernel⟩,
    ⟨0, 3, 1, 2, 0, 0, 0, (fun m => { m with eng := { m.eng with prog := [(progKey 0 0 0, encX 0x20 3 1 2 2)] } }) (engSet wOn 0 { Eng.fresh with st := .running, keeper := true }), by decide +kernel⟩,
    ⟨0, 3, 1, 2, 0, 0, 0, (fun m => { m with eng := { m.eng with prog := [(progKey 0 0 0, encX 0x20 3 1 2 3)] } }) (engSet wOn 0 { Eng.fresh with st := .running, keeper := true }), by decide +kernel⟩,
    ⟨0, 3, 1, 2, gput ((fun m => { m with eng := { m.eng with prog := [(progKey 0 0 0, encX 0x20 3 1 2 1)] } }) (engSet wOn 0 { Eng.fresh with st := .running, keeper := true })) 0 1 8, by decide +kernel⟩,
    ⟨0, 3, 100, 0, (fun m => { m with eng := { m.eng with prog := [(progKey 0 0 0, encX 0x21 3 0 0 0)] } }) (engSet wOn 0 { Eng.fresh with st := .running, keeper := true }), by decide +kernel⟩,
    ⟨0, 3, 0x2000001, (fun m => { m with eng := { m.eng with prog := [(progKey 0 0 0, encX 0x21 3 0 0 0)] } }) (engSet wOn 0 { Eng.fresh with st := .running, keeper := true }), by decide +kernel⟩⟩

theorem witness_host_memory_requests :
    (∃ p : Fin 32, ∃ _tag : BitVec 16, ∃ hpa : BitVec 46, ∃ _mv : Meta, ∃ pln : Nat, ∃ m : Mach, takesMem m p = true ∧
      hostDecode m p hpa.toNat = .line pln) ∧
    (∃ p : Fin 32, ∃ _tag : BitVec 16, ∃ hpa : BitVec 46, ∃ _mv : Meta, ∃ k : Nat, ∃ m : Mach, takesMem m p = true ∧
      hostDecode m p hpa.toNat = .viol k) ∧
    (∃ p : Fin 32, ∃ _tag : BitVec 16, ∃ hpa : BitVec 46, ∃ _mv : Meta, ∃ pln : Nat, ∃ m : Mach, takesMem m p = true ∧
      hostDecode m p hpa.toNat = .line pln) ∧
    (∃ p : Fin 32, ∃ _tag : BitVec 16, ∃ hpa : BitVec 46, ∃ _mv : Meta, ∃ pln : Nat, ∃ m : Mach, takesMem m p = true ∧
      hostDecode m p hpa.toNat = .line pln) ∧
    (∃ p : Fin 32, ∃ _tag : BitVec 16, ∃ hpa : BitVec 46, ∃ _mv : Meta, ∃ k : Nat, ∃ m : Mach, takesMem m p = true ∧
      hostDecode m p hpa.toNat = .viol k) ∧
    (∃ p : Fin 32, ∃ _tag : BitVec 16, ∃ hpa : BitVec 46, ∃ _mv : Meta, ∃ _data : Line, ∃ _poison : Bool, ∃ pln : Nat, ∃ m : Mach, takesMem m p =
      true ∧ hostDecode m p hpa.toNat = .line pln) ∧
    (∃ p : Fin 32, ∃ _tag : BitVec 16, ∃ hpa : BitVec 46, ∃ _mv : Meta, ∃ _data : Line, ∃ _mask : Mask, ∃ _poison : Bool, ∃ pln : Nat, ∃ m : Mach,
      takesMem m p = true ∧ hostDecode m p hpa.toNat = .line pln) ∧
    (∃ p : Fin 32, ∃ _tag : BitVec 16, ∃ hpa : BitVec 46, ∃ _mv : Meta, ∃ _data : Line, ∃ _poison : Bool, ∃ k : Nat, ∃ m : Mach, takesMem m p =
      true ∧ hostDecode m p hpa.toNat = .viol k ∧ hostReach m p hpa.toNat true = .viol k) ∧
    (∃ p : Fin 32, ∃ _tag : BitVec 16, ∃ hpa : BitVec 46, ∃ _data : Line, ∃ _poison : Bool, ∃ k pln : Nat, ∃ m : Mach, takesMem m p = true ∧
      hostDecode m p hpa.toNat = .viol k ∧ hostLine m p hpa.toNat = .line pln ∧ snoopOpen m p pln = true) ∧
    (∃ p : Fin 32, ∃ _tag : BitVec 16, ∃ hpa : BitVec 46, ∃ _mv : Meta, ∃ k : Nat, ∃ m : Mach, takesMem m p = true ∧
      hostDecode m p hpa.toNat = .viol k) ∧
    (∃ p : Fin 32, ∃ _tag : BitVec 16, ∃ hpa : BitVec 46, ∃ _mv : Meta, ∃ _data : Line, ∃ _mask : Mask, ∃ _poison : Bool, ∃ k : Nat, ∃ m : Mach,
      takesMem m p = true ∧ hostDecode m p hpa.toNat = .viol k ∧ hostReach m p hpa.toNat true = .viol k) :=
  ⟨⟨0, 7, 5, .a, 5, wHost, by decide +kernel⟩,
    ⟨0, 7, 0x400000, .s, 1, wHost, by decide +kernel⟩,
    ⟨0, 7, 5, .a, 5, wHost, by decide +kernel⟩,
    ⟨0, 7, 5, .i, 5, wHost, by decide +kernel⟩,
    ⟨0, 7, 0x400000, .s, 1, wHost, by decide +kernel⟩,
    ⟨0, 7, 5, .i, 9, true, 5, wHost, by decide +kernel⟩,
    ⟨0, 7, 5, .i, 9, 1, false, 5, wHost, by decide +kernel⟩,
    ⟨0, 7, 0x400000, .i, 9, true, 1, wHost, by decide +kernel⟩,
    ⟨0, 7, 5, 9, true, 6, 5, wSnp ⟨0,5,.cur,0,false,true⟩ wHostOff, by decide +kernel⟩,
    ⟨0, 7, 0x400000, .s, 1, wHost, by decide +kernel⟩,
    ⟨0, 7, 0x400000, .i, 9, 1, true, 1, wHost, by decide +kernel⟩⟩

theorem witness_snoop_responses :
    (∃ p : Fin 32, ∃ pln : BitVec 42, ∃ s : OpenSnp, ∃ m : Mach, hostLink m p = true ∧
      (m.ports.snps.find? fun s => s.port == p.val && s.pln == pln.toNat && s.sent) = some s ∧ s.fenced = false) ∧
    (∃ p : Fin 32, ∃ pln : BitVec 42, ∃ m : Mach, hostLink m p = true ∧ (m.ports.snps.find? fun s => s.port == p.val && s.pln == pln.toNat &&
      s.sent) = none) ∧
    (∃ p : Fin 32, ∃ pln : BitVec 42, ∃ s : OpenSnp, ∃ m : Mach, hostLink m p = true ∧
      (m.ports.snps.find? fun s => s.port == p.val && s.pln == pln.toNat && s.sent) = some s ∧ s.fenced = false) ∧
    (∃ p : Fin 32, ∃ pln : BitVec 42, ∃ s : OpenSnp, ∃ m : Mach, hostLink m p = true ∧
      (m.ports.snps.find? fun s => s.port == p.val && s.pln == pln.toNat && s.sent) = some s ∧ s.fenced = false ∧ (s.kind = .cur ∨ s.kind = .data)) ∧
    (∃ p : Fin 32, ∃ pln : BitVec 42, ∃ s : OpenSnp, ∃ m : Mach, hostLink m p = true ∧
      (m.ports.snps.find? fun s => s.port == p.val && s.pln == pln.toNat && s.sent) = some s ∧ s.fenced = false ∧ s.kind = .cur) ∧
    (∃ p : Fin 32, ∃ pln : BitVec 42, ∃ s : OpenSnp, ∃ m : Mach, hostLink m p = true ∧
      (m.ports.snps.find? fun s => s.port == p.val && s.pln == pln.toNat && s.sent) = some s ∧ s.fenced = false ∧ s.kind ≠ .cur) ∧
    (∃ p : Fin 32, ∃ pln : BitVec 42, ∃ s : OpenSnp, ∃ m : Mach, hostLink m p = true ∧
      (m.ports.snps.find? fun s => s.port == p.val && s.pln == pln.toNat && s.sent) = some s ∧ s.fenced = true) ∧
    (∃ p : Fin 32, ∃ grp : BitVec 40, ∃ lines : BitVec 4, ∃ named : List Nat, ∃ op : List OpenSnp, ∃ m : Mach, hostLink m p = true ∧
      ((blkOpen m p grp.toNat true).filter fun s => s.kind == .invBlk && (blkLines grp.toNat lines).contains s.pln).isEmpty = true ∧
      (blkOpen m p grp.toNat false).isEmpty = false ∧ named = (((List.range 4).filter fun i => bitOf lines.toNat i).map fun i => grp.toNat * 4 + i)
      ∧ named ≠ [] ∧ op = ((blkOpen m p grp.toNat false).filter fun s => s.kind == .invBlk && named.contains s.pln) ∧ op.length = named.length) ∧
    (∃ p : Fin 32, ∃ grp : BitVec 40, ∃ lines : BitVec 4, ∃ m : Mach, hostLink m p = true ∧ (blkOpen m p grp.toNat true).isEmpty = true ∧
      (blkOpen m p grp.toNat false).isEmpty = false ∧ lines = 0) ∧
    (∃ p : Fin 32, ∃ grp : BitVec 40, ∃ m : Mach, hostLink m p = true ∧ (blkOpen m p grp.toNat true).isEmpty = true ∧
      (blkOpen m p grp.toNat false).isEmpty = false) ∧
    (∃ p : Fin 32, ∃ grp : BitVec 40, ∃ m : Mach, hostLink m p = true ∧ (blkOpen m p grp.toNat false).isEmpty = true ∧
      (blkOpen m p grp.toNat true).isEmpty = true) ∧
    (∃ p : Fin 32, ∃ grp : BitVec 40, ∃ m : Mach, hostLink m p = true ∧ (blkOpen m p grp.toNat true).isEmpty = true ∧
      (blkOpen m p grp.toNat false).isEmpty = false) ∧
    (∃ p : Fin 32, ∃ grp : BitVec 40, ∃ m : Mach, hostLink m p = true ∧ (blkOpen m p grp.toNat false).isEmpty = true ∧
      (blkOpen m p grp.toNat true).isEmpty = true) :=
  ⟨⟨0, 5, ⟨0,5,.cur,0,false,true⟩, wSnp ⟨0,5,.cur,0,false,true⟩ wOn, by decide +kernel⟩,
    ⟨0, 5, wOn, by decide +kernel⟩,
    ⟨0, 5, ⟨0,5,.cur,0,false,true⟩, wSnp ⟨0,5,.cur,0,false,true⟩ wOn, by decide +kernel⟩,
    ⟨0, 5, ⟨0,5,.cur,0,false,true⟩, wSnp ⟨0,5,.cur,0,false,true⟩ wOn, by decide +kernel⟩,
    ⟨0, 5, ⟨0,5,.cur,0,false,true⟩, wSnp ⟨0,5,.cur,0,false,true⟩ wOn, by decide +kernel⟩,
    ⟨0, 5, ⟨0,5,.data,0,false,true⟩, wSnp ⟨0,5,.data,0,false,true⟩ wOn, by decide +kernel⟩,
    ⟨0, 5, ⟨0,5,.cur,0,true,true⟩, wSnp ⟨0, 5, .cur, 0, true, true⟩ wOn, by decide +kernel⟩,
    ⟨0, 1, 2, [5], [⟨0,5,.invBlk,0,false,true⟩], wSnp ⟨0,5,.invBlk,0,false,true⟩ wOn, by decide +kernel⟩,
    ⟨0, 1, 0, wSnp ⟨0,5,.invBlk,0,false,true⟩ wOn, by decide +kernel⟩,
    ⟨0, 1, wSnp ⟨0,5,.invBlk,0,false,true⟩ wOn, by decide +kernel⟩,
    ⟨0, 1, wOn, by decide +kernel⟩,
    ⟨0, 1, wSnp ⟨0,5,.invBlk,0,false,true⟩ wOn, by decide +kernel⟩,
    ⟨0, 1, wOn, by decide +kernel⟩⟩

theorem witness_host_configuration :
    (∃ p : Fin 32, ∃ _on : Bool, ∃ m : Mach, hostLink m p = true) ∧
    (∃ p : Fin 32, ∃ _v : Fin 3, ∃ m : Mach, hostLink m p = true) ∧
    (∃ p : Fin 32, ∃ m : Mach, hostLink m p = true) ∧
    (∃ p : Fin 32, ∃ d : Fin 8, ∃ x : Hdm, ∃ m : Mach, hostLink m p = true ∧ mget m.comp.hdm (p.val * 8 + d.val) = some x ∧ x.lock = false) ∧
    (∃ p : Fin 32, ∃ d : Fin 8, ∃ m : Mach, hostLink m p = true ∧ (mget m.comp.hdm (p.val * 8 + d.val)).all (fun x => x.lock) = true) ∧
    (∃ p : Fin 32, ∃ m : Mach, hostLink m p = true) ∧
    (∃ p : Fin 32, ∃ m : Mach, hostLink m p = true) ∧
    (∃ p : Fin 32, ∃ off : BitVec 12, ∃ m : Mach, hostLink m p = true ∧ off ≠ 0 ∧ off ≠ 8) ∧
    (∃ p : Fin 32, ∃ m : Mach, hostLink m p = true) ∧
    (∃ p : Fin 32, ∃ m : Mach, hostLink m p = true) ∧
    (∃ p : Fin 32, ∃ m : Mach, hostLink m p = true ∧ (cfgOf m p).spdm = true ∧ fget m (ptBase p) R.PT_IDE_STATE ≠ 2) ∧
    (∃ p : Fin 32, ∃ m : Mach, hostLink m p = true ∧ (cfgOf m p).spdm = true ∧ fget m (ptBase p) R.PT_IDE_STATE = 2) ∧
    (∃ p : Fin 32, ∃ _ct : Bool, ∃ m : Mach, hostLink m p = true ∧ (cfgOf m p).spdm = true ∧ fget m (ptBase p) R.PT_IDE_STATE = 1) ∧
    (∃ p : Fin 32, ∃ _ct : Bool, ∃ m : Mach, hostLink m p = true ∧ (cfgOf m p).spdm = true ∧ fget m (ptBase p) R.PT_IDE_STATE = 2) ∧
    (∃ p : Fin 32, ∃ d : Fin 8, ∃ base size dpa : BitVec 36, ∃ _lock : Bool, ∃ m : Mach, hostLink m p = true ∧ (cfgOf m p).biEn = true ∧
      ((∀ k < d.val, (mget m.comp.hdm (p.val * 8 + k)).any (fun x => x.committed && decide (x.base < base.toNat) && (x.size == 0 || size == 0 ||
      (decide (x.base + x.size ≤ base.toNat) && (decide (x.dpa + x.size ≤ dpa.toNat) || decide (dpa.toNat + size.toNat ≤ x.dpa))))) = true)) ∧
      ((∀ k < 8, d.val < k → (mget m.comp.hdm (p.val * 8 + k)).any (fun x => x.committed) = false)) ∧
      (mget m.comp.hdm (p.val * 8 + d.val)).any (fun x => x.committed && x.lock) = false) ∧
    (∃ p : Fin 32, ∃ d : Fin 8, ∃ _base _size _dpa : BitVec 36, ∃ ways : BitVec 4, ∃ _lock other : Bool, ∃ m : Mach, hostLink m p = true ∧
      (mget m.comp.hdm (p.val * 8 + d.val)).any (fun x => x.committed && x.lock) = false ∧ ((cfgOf m p).biEn = false ∨ ways ≠ 0 ∨ other = true)) ∧
    (∃ p : Fin 32, ∃ d : Fin 8, ∃ base size dpa : BitVec 36, ∃ _ways : BitVec 4, ∃ _lock _other : Bool, ∃ k : Nat, ∃ x : Hdm, ∃ m : Mach, hostLink
      m p = true ∧ (mget m.comp.hdm (p.val * 8 + d.val)).any (fun x => x.committed && x.lock) = false ∧ k < 8 ∧ k ≠ d.val ∧
      (mget m.comp.hdm (p.val * 8 + k)) = some x ∧ x.committed = true ∧ (d.val < k ∨ base.toNat ≤ x.base ∨ (0 < size.toNat ∧ 0 < x.size ∧
      base.toNat < x.base + x.size) ∨ (0 < size.toNat ∧ 0 < x.size ∧ dpa.toNat < x.dpa + x.size ∧ x.dpa < dpa.toNat + size.toNat))) ∧
    (∃ p : Fin 32, ∃ d : Fin 8, ∃ _base _size _dpa : BitVec 36, ∃ _ways : BitVec 4, ∃ _lock _other : Bool, ∃ m : Mach, hostLink m p = true ∧
      (mget m.comp.hdm (p.val * 8 + d.val)).any (fun x => x.committed && x.lock) = true) ∧
    (∃ p : Fin 32, ∃ v : Fin 3, ∃ m : Mach, hostLink m p = true ∧ (cfgOf m p).vpend = 2 ^ v.val ∧ bitOf (cfgOf m p).vmask v = false) ∧
    (∃ p : Fin 32, ∃ m : Mach, hostLink m p = true ∧ ((∀ u < 3, bitOf (cfgOf m p).vpend u = false ∨ bitOf (cfgOf m p).vmask u = true))) ∧
    (∃ p : Fin 32, ∃ v : Fin 3, ∃ m : Mach, hostLink m p = true ∧ (cfgOf m p).fmask = false ∧ bitOf (cfgOf m p).vpend v = true ∧
      ((∀ u < 3, u ≠ v.val → bitOf (cfgOf m p).vpend u = false ∨ bitOf (cfgOf m p).vmask u = true))) ∧
    (∃ p : Fin 32, ∃ _v : Fin 3, ∃ m : Mach, hostLink m p = true ∧ ((cfgOf m p).fmask = true ∨ (cfgOf m p).vpend = 0)) ∧
    (∃ p : Fin 32, ∃ m : Mach, hostLink m p = true) ∧
    (∃ p : Fin 32, ∃ m : Mach, hostLink m p = true) :=
  ⟨⟨0, true, wOn, by decide +kernel⟩,
    ⟨0, 1, wOn, by decide +kernel⟩,
    ⟨0, wOn, by decide +kernel⟩,
    ⟨0, 0, ⟨0,1,0,true,false⟩, wHost, by decide +kernel⟩,
    ⟨0, 5, wHost, by decide +kernel⟩,
    ⟨0, wOn, by decide +kernel⟩,
    ⟨0, wOn, by decide +kernel⟩,
    ⟨0, 4, wOn, by decide +kernel⟩,
    ⟨0, wOn, by decide +kernel⟩,
    ⟨0, wOn, by decide +kernel⟩,
    ⟨0, cfgSet wOn 0 { cfgOf wOn 0 with spdm := true }, by decide +kernel⟩,
    ⟨0, fset (cfgSet wOn 0 { cfgOf wOn 0 with spdm := true }) (ptBase 0) R.PT_IDE_STATE 2, by decide +kernel⟩,
    ⟨0, true, fset (cfgSet wOn 0 { cfgOf wOn 0 with spdm := true }) (ptBase 0) R.PT_IDE_STATE 1, by decide +kernel⟩,
    ⟨0, true, fset (cfgSet wOn 0 { cfgOf wOn 0 with spdm := true }) (ptBase 0) R.PT_IDE_STATE 2, by decide +kernel⟩,
    ⟨0, 1, 5, 1, 5, true, { cfgSet wOn 0 { cfgOf wOn 0 with biEn := true } with comp := { wOn.comp with hdm := [(0, ⟨0, 4, 0, true, false⟩)] } }, by decide +kernel⟩,
    ⟨0, 0, 5, 1, 5, 1, true, false, wOn, by decide +kernel⟩,
    ⟨0, 1, 2, 1, 2, 0, true, false, 0, ⟨0,4,0,true,false⟩, { cfgSet wOn 0 { cfgOf wOn 0 with biEn := true } with comp := { wOn.comp with hdm := [(0, ⟨0, 4, 0, true, false⟩)] } }, by decide +kernel⟩,
    ⟨0, 0, 5, 1, 5, 1, true, false, { wOn with comp := { wOn.comp with hdm := [(0, ⟨0, 4, 0, true, true⟩)] } }, by decide +kernel⟩,
    ⟨0, 1, cfgSet wOn 0 { cfgOf wOn 0 with vpend := 2, fmask := true, vmask := 0 }, by decide +kernel⟩,
    ⟨0, cfgSet wOn 0 { cfgOf wOn 0 with vpend := 2, fmask := true, vmask := 2 }, by decide +kernel⟩,
    ⟨0, 1, cfgSet wOn 0 { cfgOf wOn 0 with vpend := 2, fmask := false, vmask := 2 }, by decide +kernel⟩,
    ⟨0, 1, cfgSet wOn 0 { cfgOf wOn 0 with vpend := 2, fmask := true, vmask := 2 }, by decide +kernel⟩,
    ⟨0, wOn, by decide +kernel⟩,
    ⟨0, wOn, by decide +kernel⟩⟩

theorem witness_mailbox_commands :
    (∃ p : Fin 32, ∃ m : Mach, hostLink m p = true) ∧
    (∃ p : Fin 32, ∃ m : Mach, hostLink m p = true) ∧
    (∃ p : Fin 32, ∃ m : Mach, hostLink m p = true) ∧
    (∃ p : Fin 32, ∃ m : Mach, hostLink m p = true) ∧
    (∃ p : Fin 32, ∃ m : Mach, hostLink m p = true) ∧
    (∃ p : Fin 32, ∃ m : Mach, hostLink m p = true ∧ (cfgOf m p).stamp = 0) ∧
    (∃ p : Fin 32, ∃ m : Mach, hostLink m p = true ∧ (cfgOf m p).stamp ≠ 0) ∧
    (∃ p : Fin 32, ∃ _ns : BitVec 64, ∃ m : Mach, hostLink m p = true) ∧
    (∃ p : Fin 32, ∃ m : Mach, hostLink m p = true) ∧
    (∃ p : Fin 32, ∃ m : Mach, hostLink m p = true) ∧
    (∃ p : Fin 32, ∃ l : EvLog, ∃ m : Mach, hostLink m p = true ∧ (l = .informational ∨ l = .warning ∨ l = .fatal)) ∧
    (∃ p : Fin 32, ∃ _n : Nat, ∃ m : Mach, hostLink m p = true) ∧
    (∃ p : Fin 32, ∃ _n : Nat, ∃ m : Mach, hostLink m p = true) ∧
    (∃ p : Fin 32, ∃ m : Mach, hostLink m p = true) ∧
    (∃ p : Fin 32, ∃ _v : BitVec 40, ∃ m : Mach, hostLink m p = true) ∧
    (∃ p : Fin 32, ∃ m : Mach, hostLink m p = true) ∧
    (∃ p : Fin 32, ∃ m : Mach, hostLink m p = true) ∧
    (∃ p : Fin 32, ∃ m : Mach, hostLink m p = true) ∧
    (∃ p : Fin 32, ∃ m : Mach, hostLink m p = true) ∧
    (∃ p : Fin 32, ∃ _v : BitVec 64, ∃ m : Mach, hostLink m p = true) ∧
    (∃ p : Fin 32, ∃ m : Mach, hostLink m p = true) ∧
    (∃ p : Fin 32, ∃ m : Mach, hostLink m p = true) :=
  ⟨⟨0, wOn, by decide +kernel⟩,
    ⟨0, wOn, by decide +kernel⟩,
    ⟨0, wOn, by decide +kernel⟩,
    ⟨0, wOn, by decide +kernel⟩,
    ⟨0, wOn, by decide +kernel⟩,
    ⟨0, wOn, by decide +kernel⟩,
    ⟨0, cfgSet wOn 0 { cfgOf wOn 0 with stamp := 5 }, by decide +kernel⟩,
    ⟨0, 9, wOn, by decide +kernel⟩,
    ⟨0, wOn, by decide +kernel⟩,
    ⟨0, wOn, by decide +kernel⟩,
    ⟨0, .fatal, wOn, by decide +kernel⟩,
    ⟨0, 1, wOn, by decide +kernel⟩,
    ⟨0, 1, wOn, by decide +kernel⟩,
    ⟨0, wOn, by decide +kernel⟩,
    ⟨0, 9, wOn, by decide +kernel⟩,
    ⟨0, wOn, by decide +kernel⟩,
    ⟨0, wOn, by decide +kernel⟩,
    ⟨0, wOn, by decide +kernel⟩,
    ⟨0, wOn, by decide +kernel⟩,
    ⟨0, 9, wOn, by decide +kernel⟩,
    ⟨0, wOn, by decide +kernel⟩,
    ⟨0, wOn, by decide +kernel⟩⟩

theorem witness_dynamic_capacity_and_queues :
    (∃ p : Fin 32, ∃ m : Mach, hostLink m p = true) ∧
    (∃ p : Fin 32, ∃ m : Mach, hostLink m p = true) ∧
    (∃ p : Fin 32, ∃ e : Fin 64, ∃ _accept : Bool, ∃ m : Mach, hostLink m p = true ∧ extState m p e = 1) ∧
    (∃ p : Fin 32, ∃ e : Fin 64, ∃ _accept : Bool, ∃ m : Mach, hostLink m p = true ∧ extState m p e ≠ 1) ∧
    (∃ p : Fin 32, ∃ e : Fin 64, ∃ m : Mach, hostLink m p = true ∧ extState m p e = 2 ∧ hostLink (extRelease m p e true) p = true) ∧
    (∃ p : Fin 32, ∃ e : Fin 64, ∃ m : Mach, hostLink m p = true ∧ extState m p e = 3 ∧ hostLink (extRelease m p e false) p = true) ∧
    (∃ p : Fin 32, ∃ e : Fin 64, ∃ m : Mach, hostLink m p = true ∧ extState m p e < 2) ∧
    (∃ p : Fin 32, ∃ e : Fin 64, ∃ m : Mach, extState m p e = 1) ∧
    (∃ p : Fin 32, ∃ slot : Fin 64, ∃ _a : Fin 7, ∃ _v : Word, ∃ m : Mach, hostLink m p = true ∧ slotBusy m p slot = false) ∧
    (∃ p : Fin 32, ∃ slot : Fin 64, ∃ _a : Fin 7, ∃ _h : Half, ∃ _v : Word, ∃ m : Mach, hostLink m p = true ∧ slotBusy m p slot = true) ∧
    (∃ p : Fin 32, ∃ slot : Fin 64, ∃ v : Word, ∃ m : Mach, hostLink m p = true ∧ slotBusy m p slot = false ∧ v.toNat / 2 ^ 63 = slotPhase m p slot) ∧
    (∃ p : Fin 32, ∃ slot : Fin 64, ∃ v : Word, ∃ m : Mach, hostLink m p = true ∧ slotBusy m p slot = false ∧ v.toNat / 2 ^ 63 ≠ slotPhase m p slot) ∧
    (∃ p : Fin 32, ∃ slot : Fin 64, ∃ _h : Half, ∃ _v : Word, ∃ m : Mach, hostLink m p = true ∧ slotBusy m p slot = true) ∧
    (∃ p : Fin 32, ∃ w : Nat, ∃ m : Mach, hostLink m p = true ∧ (resultsOf m p).head? = some w) ∧
    (∃ p : Fin 32, ∃ _ck : Check, ∃ w : Nat, ∃ m : Mach, hostLink m p = true ∧ (resultsOf m p).head? = some w) ∧
    (∃ p : Fin 32, ∃ _h : Half, ∃ _ck : Check, ∃ m : Mach, hostLink m p = true ∧ resultsOf m p = []) ∧
    (∃ p : Fin 32, ∃ w : Nat, ∃ m : Mach, hostLink m p = true ∧ (resultsOf m p).head? = some w) ∧
    (∃ p : Fin 32, ∃ m : Mach, hostLink m p = true ∧ resultsOf m p = []) :=
  ⟨⟨0, wOn, by decide +kernel⟩,
    ⟨0, wOn, by decide +kernel⟩,
    ⟨0, 0, true, fset wOn (ptBase 0) R.PT_VEXT_B_STATE 1, by decide +kernel⟩,
    ⟨0, 0, true, wOn, by decide +kernel⟩,
    ⟨0, 0, fset wOn (ptBase 0) R.PT_VEXT_B_STATE 2, by decide +kernel⟩,
    ⟨0, 0, fset wOn (ptBase 0) R.PT_VEXT_B_STATE 3, by decide +kernel⟩,
    ⟨0, 0, wOn, by decide +kernel⟩,
    ⟨0, 0, fset wOn (ptBase 0) R.PT_VEXT_B_STATE 1, by decide +kernel⟩,
    ⟨0, 3, 2, 5, wOn, by decide +kernel⟩,
    ⟨0, 3, 2, .low, 5, { wOn with ports := { wOn.ports with queues := { wOn.ports.queues with commits := [3] } } }, by decide +kernel⟩,
    ⟨0, 3, 0x8000000000000001, wOn, by decide +kernel⟩,
    ⟨0, 3, 1, wOn, by decide +kernel⟩,
    ⟨0, 3, .full, 5, { wOn with ports := { wOn.ports with queues := { wOn.ports.queues with commits := [3] } } }, by decide +kernel⟩,
    ⟨0, 0x100000007, { wOn with ports := { wOn.ports with queues := { wOn.ports.queues with results := [(0, 2 ^ 32 + 7)] } } }, by decide +kernel⟩,
    ⟨0, .good, 0x100000007, { wOn with ports := { wOn.ports with queues := { wOn.ports.queues with results := [(0, 2 ^ 32 + 7)] } } }, by decide +kernel⟩,
    ⟨0, .full, .good, wOn, by decide +kernel⟩,
    ⟨0, 0x100000007, { wOn with ports := { wOn.ports with queues := { wOn.ports.queues with results := [(0, 2 ^ 32 + 7)] } } }, by decide +kernel⟩,
    ⟨0, wOn, by decide +kernel⟩⟩

theorem witness_io_requests :
    (∃ p : Fin 32, ∃ _tag : BitVec 14, ∃ a : BitVec 64, ∃ n : Fin 4097, ∃ ido : Bool, ∃ rid : BitVec 16, ∃ x : Nat, ∃ g : Bool, ∃ m : Mach, npUp m
      p = true ∧ n.val ≠ 0 ∧ ioDecode m p a.toNat n (fun b => fon m b R.PT_IOWINA_R) = .addr x ∧ piecesCheck m p (pieces x n) = none ∧
      g = (ido && fon m (ptBase p) R.PT_IOORD_IDO_EN && ((idsTracked m p).contains rid.toNat || decide ((idsTracked m p).length < 64)))) ∧
    (∃ p : Fin 32, ∃ _tag : BitVec 14, ∃ a : BitVec 64, ∃ n : Fin 4097, ∃ _ido : Bool, ∃ _rid : BitVec 16, ∃ k : Nat, ∃ m : Mach, npUp m p = true ∧
      n.val ≠ 0 ∧ ioDecode m p a.toNat n (fun b => fon m b R.PT_IOWINA_R) = .viol k) ∧
    (∃ p : Fin 32, ∃ _tag : BitVec 14, ∃ a : BitVec 64, ∃ n : Fin 4097, ∃ _ido : Bool, ∃ _rid : BitVec 16, ∃ x k : Nat, ∃ m : Mach, npUp m p = true
      ∧ n.val ≠ 0 ∧ ioDecode m p a.toNat n (fun b => fon m b R.PT_IOWINA_R) = .addr x ∧ piecesCheck m p (pieces x n) = some k) ∧
    (∃ p : Fin 32, ∃ a : BitVec 64, ∃ n : Fin 257, ∃ _data : BitVec 2048, ∃ _en : BitVec 256, ∃ _poison _ro ido : Bool, ∃ rid : BitVec 16, ∃ x :
      Nat, ∃ g : Bool, ∃ m : Mach, ioUp m p = true ∧ n.val ≠ 0 ∧ prepHeld m p + (pieces a.toNat n).length ≤ fget m (ptBase p) R.PT_IOORD_WINDOW ∧
      ioDecode m p a.toNat n (fun b => fon m b R.PT_IOWINA_W) = .addr x ∧ piecesCheck m p (pieces x n) = none ∧
      g = (ido && fon m (ptBase p) R.PT_IOORD_IDO_EN && ((idsTracked m p).contains rid.toNat || decide ((idsTracked m p).length < 64)))) ∧
    (∃ p : Fin 32, ∃ a : BitVec 64, ∃ n : Fin 257, ∃ _data : BitVec 2048, ∃ _en : BitVec 256, ∃ _poison _ro _ido : Bool, ∃ _rid : BitVec 16, ∃ k :
      Nat, ∃ m : Mach, ioUp m p = true ∧ n.val ≠ 0 ∧ prepHeld m p + (pieces a.toNat n).length ≤ fget m (ptBase p) R.PT_IOORD_WINDOW ∧
      ioDecode m p a.toNat n (fun b => fon m b R.PT_IOWINA_W) = .viol k) ∧
    (∃ p : Fin 32, ∃ a : BitVec 64, ∃ n : Fin 257, ∃ _data : BitVec 2048, ∃ _en : BitVec 256, ∃ _poison _ro _ido : Bool, ∃ _rid : BitVec 16, ∃ x k
      : Nat, ∃ m : Mach, ioUp m p = true ∧ n.val ≠ 0 ∧ prepHeld m p + (pieces a.toNat n).length ≤ fget m (ptBase p) R.PT_IOORD_WINDOW ∧
      ioDecode m p a.toNat n (fun b => fon m b R.PT_IOWINA_W) = .addr x ∧ piecesCheck m p (pieces x n) = some k) ∧
    (∃ p : Fin 32, ∃ _tag : BitVec 14, ∃ a : BitVec 64, ∃ wide : Bool, ∃ _v : Word, ∃ ido : Bool, ∃ rid : BitVec 16, ∃ n x : Nat, ∃ g : Bool, ∃ m :
      Mach, npUp m p = true ∧ n = (if wide then 8 else 4) ∧ a.toNat % n = 0 ∧
      ioDecode m p a.toNat n (fun b => fon m b R.PT_IOWINA_ATOM && fon m b R.PT_IOWINA_R && fon m b R.PT_IOWINA_W) = .addr x ∧
      piecesCheck m p (pieces x n) = none ∧ g = (ido && fon m (ptBase p) R.PT_IOORD_IDO_EN && ((idsTracked m p).contains rid.toNat || decide
      ((idsTracked m p).length < 64)))) ∧
    (∃ p : Fin 32, ∃ _tag : BitVec 14, ∃ a : BitVec 64, ∃ wide : Bool, ∃ _v : Word, ∃ _ido : Bool, ∃ _rid : BitVec 16, ∃ n k : Nat, ∃ m : Mach,
      npUp m p = true ∧ n = (if wide then 8 else 4) ∧ a.toNat % n = 0 ∧ ioDecode m p a.toNat n (fun b => fon m b R.PT_IOWINA_ATOM && fon m b
      R.PT_IOWINA_R && fon m b R.PT_IOWINA_W) = .viol k) ∧
    (∃ p : Fin 32, ∃ _tag : BitVec 14, ∃ a : BitVec 64, ∃ wide : Bool, ∃ _v : Word, ∃ _ido : Bool, ∃ _rid : BitVec 16, ∃ m : Mach, npUp m p = true
      ∧ a.toNat % (if wide then 8 else 4) ≠ 0) ∧
    (∃ p : Fin 32, ∃ _tag : BitVec 14, ∃ a : BitVec 64, ∃ wide : Bool, ∃ _v : Word, ∃ ido : Bool, ∃ rid : BitVec 16, ∃ n x : Nat, ∃ g : Bool, ∃ m :
      Mach, npUp m p = true ∧ n = (if wide then 8 else 4) ∧ a.toNat % n = 0 ∧
      ioDecode m p a.toNat n (fun b => fon m b R.PT_IOWINA_ATOM && fon m b R.PT_IOWINA_R && fon m b R.PT_IOWINA_W) = .addr x ∧
      piecesCheck m p (pieces x n) = none ∧ g = (ido && fon m (ptBase p) R.PT_IOORD_IDO_EN && ((idsTracked m p).contains rid.toNat || decide
      ((idsTracked m p).length < 64)))) ∧
    (∃ p : Fin 32, ∃ _tag : BitVec 14, ∃ a : BitVec 64, ∃ wide : Bool, ∃ _v : Word, ∃ _ido : Bool, ∃ _rid : BitVec 16, ∃ n k : Nat, ∃ m : Mach,
      npUp m p = true ∧ n = (if wide then 8 else 4) ∧ a.toNat % n = 0 ∧ ioDecode m p a.toNat n (fun b => fon m b R.PT_IOWINA_ATOM && fon m b
      R.PT_IOWINA_R && fon m b R.PT_IOWINA_W) = .viol k) ∧
    (∃ p : Fin 32, ∃ _tag : BitVec 14, ∃ a : BitVec 64, ∃ wide : Bool, ∃ _v : Word, ∃ _ido : Bool, ∃ _rid : BitVec 16, ∃ m : Mach, npUp m p = true
      ∧ a.toNat % (if wide then 8 else 4) ≠ 0) ∧
    (∃ p : Fin 32, ∃ _tag : BitVec 14, ∃ a : BitVec 64, ∃ size : Fin 3, ∃ _cmp _swap : Word, ∃ ido : Bool, ∃ rid : BitVec 16, ∃ n x : Nat, ∃ g :
      Bool, ∃ m : Mach, npUp m p = true ∧ size.val < 2 ∧ n = (if size.val = 1 then 8 else 4) ∧ a.toNat % n = 0 ∧
      ioDecode m p a.toNat n (fun b => fon m b R.PT_IOWINA_ATOM && fon m b R.PT_IOWINA_R && fon m b R.PT_IOWINA_W) = .addr x ∧
      piecesCheck m p (pieces x n) = none ∧ g = (ido && fon m (ptBase p) R.PT_IOORD_IDO_EN && ((idsTracked m p).contains rid.toNat || decide
      ((idsTracked m p).length < 64)))) ∧
    (∃ p : Fin 32, ∃ _tag : BitVec 14, ∃ a : BitVec 64, ∃ size : Fin 3, ∃ _cmp _swap : Word, ∃ _ido : Bool, ∃ _rid : BitVec 16, ∃ m : Mach, npUp m
      p = true ∧ size.val < 2 ∧ a.toNat % (if size.val = 1 then 8 else 4) ≠ 0) ∧
    (∃ p : Fin 32, ∃ _tag : BitVec 14, ∃ _a : BitVec 64, ∃ _cmp _swap : Word, ∃ _ido : Bool, ∃ _rid : BitVec 16, ∃ m : Mach, npUp m p = true) ∧
    (∃ p : Fin 32, ∃ _tag : BitVec 14, ∃ m : Mach, npUp m p = true) :=
  ⟨⟨16, 7, 0, 64, true, 3, 0, true, fset wIo (ptBase 16) R.PT_IOORD_IDO_EN 1, by decide +kernel⟩,
    ⟨16, 7, 0x10000, 64, false, 3, 3, wIo, by decide +kernel⟩,
    ⟨16, 7, 0, 64, false, 3, 0, 5, { wIo with comp := { wIo.comp with regions := [] } }, by decide +kernel⟩,
    ⟨16, 0, 64, 5, 255, false, true, true, 3, 0, true, fset wIo (ptBase 16) R.PT_IOORD_IDO_EN 1, by decide +kernel⟩,
    ⟨16, 0x10000, 64, 5, 255, false, true, false, 3, 3, wIo, by decide +kernel⟩,
    ⟨16, 0, 64, 5, 255, false, true, false, 3, 0, 5, { wIo with comp := { wIo.comp with regions := [] } }, by decide +kernel⟩,
    ⟨16, 7, 8, true, 5, true, 3, 8, 8, true, fset wIo (ptBase 16) R.PT_IOORD_IDO_EN 1, by decide +kernel⟩,
    ⟨16, 7, 0x10000, true, 5, true, 3, 8, 3, wIo, by decide +kernel⟩,
    ⟨16, 7, 2, false, 5, true, 3, wIo, by decide +kernel⟩,
    ⟨16, 7, 8, true, 5, true, 3, 8, 8, true, fset wIo (ptBase 16) R.PT_IOORD_IDO_EN 1, by decide +kernel⟩,
    ⟨16, 7, 0x10000, true, 5, true, 3, 8, 3, wIo, by decide +kernel⟩,
    ⟨16, 7, 2, false, 5, true, 3, wIo, by decide +kernel⟩,
    ⟨16, 7, 8, 1, 5, 6, true, 3, 8, 8, true, fset wIo (ptBase 16) R.PT_IOORD_IDO_EN 1, by decide +kernel⟩,
    ⟨16, 7, 2, 1, 5, 6, true, 3, wIo, by decide +kernel⟩,
    ⟨16, 7, 8, 5, 6, true, 3, wIo, by decide +kernel⟩,
    ⟨16, 7, wIo, by decide +kernel⟩⟩

theorem witness_io_writes_configuration_and_windows :
    (∃ p : Fin 32, ∃ _rid : BitVec 16, ∃ m : Mach, roleOf m p = 3 ∧ linkUp m p = true) ∧
    (∃ p : Fin 32, ∃ _rid : BitVec 16, ∃ m : Mach, roleOf m p = 3 ∧ linkUp m p = true) ∧
    (∃ p : Fin 32, ∃ _rid : BitVec 16, ∃ m : Mach, roleOf m p = 3 ∧ linkUp m p = true) ∧
    (∃ p : Fin 32, ∃ m : Mach, roleOf m p = 3 ∧ linkUp m p = true) ∧
    (∃ p : Fin 32, ∃ id : Nat, ∃ m : Mach, (m.ports.prepQ.find? fun x => x.1 == p.val) = some (p.val, id)) ∧
    (∃ h : Fin 64, ∃ pln p id : Nat, ∃ r : Mshr, ∃ x : Req, ∃ rest : List Req, ∃ m : Mach, (m.ports.relQ.find? fun x => x.1 == h.val) = some
      (h.val, pln, p, id) ∧ mshrOf m h pln = some r ∧ r.phase = .prepared ∧ r.reqs = x :: rest ∧ x.src = .io p id ∧ r.buf = none) ∧
    (∃ p : Fin 32, ∃ off : BitVec 12, ∃ _be : BitVec 4, ∃ _func : Fin 8, ∃ _write : Bool, ∃ m : Mach, reach m (ptBase p + 0x90) = .open_ ∧
      roleOf m p = 3 ∧ off.toNat % 4 = 0 ∧ fon m (ptBase p) R.PT_CFGA_BUSY = false ∧ linkUp m p = true) ∧
    (∃ p : Fin 32, ∃ _data : BitVec 32, ∃ m : Mach, roleOf m p = 3 ∧ fon m (ptBase p) R.PT_CFGA_BUSY = true ∧
      fon m (ptBase p) R.PT_CFGA_WRITE = false) ∧
    (∃ p : Fin 32, ∃ st : Fin 4, ∃ _data : BitVec 32, ∃ m : Mach, roleOf m p = 3 ∧ fon m (ptBase p) R.PT_CFGA_BUSY = true ∧ st ≠ 0) ∧
    (∃ p : Fin 32, ∃ m : Mach, roleOf m p = 3 ∧ fon m (ptBase p) R.PT_CFGA_BUSY = true) ∧
    (∃ p : Fin 32, ∃ w : Fin 64, ∃ v : Word, ∃ m : Mach, reach m (ptBase p + 0x400 + 16 * w + 0) = .open_ ∧ roleOf m p = 3 ∧
      12 ≤ bitsOf v.toNat 0 6 ∧ bitsOf v.toNat 0 6 ≤ 46 ∧ bitsOf v.toNat 6 1 = 0) ∧
    (∃ p : Fin 32, ∃ w : Fin 64, ∃ _v : Word, ∃ m : Mach, reach m (ptBase p + 0x400 + 16 * w + 8) = .open_ ∧ roleOf m p = 3 ∧
      fon m (ptBase p + 16 * w.val) R.PT_IOWINA_EN = false) ∧
    (∃ p : Fin 32, ∃ w : Fin 64, ∃ v : Word, ∃ m : Mach, reach m (ptBase p + 0x400 + 16 * w + 8) = .open_ ∧ roleOf m p = 3 ∧
      fon m (ptBase p + 16 * w.val) R.PT_IOWINA_EN = true ∧ bitsOf v.toNat 12 36 * 4096 % 2 ^ fget m (ptBase p + 16 * w.val) R.PT_IOWINA_SIZE ≠ 0) :=
  ⟨⟨16, 9, wOn, by decide +kernel⟩,
    ⟨16, 9, wOn, by decide +kernel⟩,
    ⟨16, 9, wOn, by decide +kernel⟩,
    ⟨16, wOn, by decide +kernel⟩,
    ⟨16, 4, { wIo with ports := { wIo.ports with prepQ := [(16, 4)], ptt := [wPtt 4 true] } }, by decide +kernel⟩,
    ⟨0, 0, 16, 4, (wMs 0 0 .prepared [wQ .ioWrite (.io 16 4) 0]), (wQ .ioWrite (.io 16 4) 0), [], wRel, by decide +kernel⟩,
    ⟨16, 4, 15, 0, true, wOn, by decide +kernel⟩,
    ⟨16, 9, fset wOn (ptBase 16) R.PT_CFGA_BUSY 1, by decide +kernel⟩,
    ⟨16, 2, 9, fset wOn (ptBase 16) R.PT_CFGA_BUSY 1, by decide +kernel⟩,
    ⟨16, fset wOn (ptBase 16) R.PT_CFGA_BUSY 1, by decide +kernel⟩,
    ⟨16, 0, 12, wOn, by decide +kernel⟩,
    ⟨16, 0, 0x1000, wOn, by decide +kernel⟩,
    ⟨16, 0, 0x1000, wSet [(ptBase 16, R.PT_IOWINA_EN, 1), (ptBase 16, R.PT_IOWINA_SIZE, 13)] wOn, by decide +kernel⟩⟩

theorem witness_link_states_and_resets :
    (∃ p : Fin 32, ∃ rate : Fin 8, ∃ width : Fin 4, ∃ _learned : Bool, ∃ _cap : Word, ∃ m : Mach, mayTrain m p = true ∧ roleOf m p = 1 ∧
      5 ≤ rate.val ∧ 1 ≤ rate.val ∧ rate.val ≤ 6 ∧ rate.val ≤ fget m (ptBase p) R.PT_LCTL_MAXRATE ∧ width.val ≠ 0 ∧
      width.val ≤ fget m (ptBase p) R.PT_LCTL_MAXWIDTH) ∧
    (∃ p : Fin 32, ∃ rate : Fin 8, ∃ width : Fin 4, ∃ _learned : Bool, ∃ _cap : Word, ∃ m : Mach, mayTrain m p = true ∧ roleOf m p = 2 ∧
      memState m p ≠ 2 ∧ 5 ≤ rate.val ∧ 1 ≤ rate.val ∧ rate.val ≤ 6 ∧ rate.val ≤ fget m (ptBase p) R.PT_LCTL_MAXRATE ∧ width.val ≠ 0 ∧
      width.val ≤ fget m (ptBase p) R.PT_LCTL_MAXWIDTH) ∧
    (∃ p : Fin 32, ∃ rate : Fin 8, ∃ width : Fin 4, ∃ _learned : Bool, ∃ _cap : Word, ∃ m : Mach, mayTrain m p = true ∧ roleOf m p = 2 ∧
      memState m p = 2 ∧ 5 ≤ rate.val ∧ 1 ≤ rate.val ∧ rate.val ≤ 6 ∧ rate.val ≤ fget m (ptBase p) R.PT_LCTL_MAXRATE ∧ width.val ≠ 0 ∧
      width.val ≤ fget m (ptBase p) R.PT_LCTL_MAXWIDTH) ∧
    (∃ p : Fin 32, ∃ rate : Fin 8, ∃ width : Fin 4, ∃ flit _learned : Bool, ∃ _cap : Word, ∃ m : Mach, mayTrain m p = true ∧ roleOf m p = 3 ∧
      (rate.val < 6 ∨ flit = true) ∧ 1 ≤ rate.val ∧ rate.val ≤ 6 ∧ rate.val ≤ fget m (ptBase p) R.PT_LCTL_MAXRATE ∧ width.val ≠ 0 ∧
      width.val ≤ fget m (ptBase p) R.PT_LCTL_MAXWIDTH) ∧
    (∃ p : Fin 32, ∃ rate : Fin 8, ∃ _width : Fin 4, ∃ _flit _learned : Bool, ∃ _cap : Word, ∃ m : Mach, mayTrain m p = true ∧ roleOf m p = 1 ∧
      rate.val < 5) ∧
    (∃ p : Fin 32, ∃ m : Mach, mayTrain m p = true) ∧
    (∃ p : Fin 32, ∃ m : Mach, roleOf m p = 1 ∧ linkUp m p = true) ∧
    (∃ p : Fin 32, ∃ m : Mach, roleOf m p = 2 ∧ linkUp m p = true) ∧
    (∃ p : Fin 32, ∃ m : Mach, roleOf m p = 3 ∧ linkUp m p = true) ∧
    (∃ p : Fin 32, ∃ ns : Nat, ∃ m : Mach, roleOf m p = 1 ∧ 1000 ≤ ns ∧ fon m (ptBase p) R.PT_LINK_PERST = false ∧ linkUp m p = true) ∧
    (∃ p : Fin 32, ∃ ns : Nat, ∃ m : Mach, roleOf m p = 1 ∧ 1000 ≤ ns ∧ fon m (ptBase p) R.PT_LINK_PERST = false ∧ linkUp m p = false) ∧
    (∃ _p : Fin 32, ∃ ns : Nat, ∃ _m : Mach, ns < 1000) ∧
    (∃ p : Fin 32, ∃ m : Mach, roleOf m p = 1 ∧ fon m (ptBase p) R.PT_LINK_PERST = true) ∧
    (∃ p : Fin 32, ∃ m : Mach, hostLink m p = true) ∧
    (∃ p : Fin 32, ∃ m : Mach, hostLink m p = true) ∧
    (∃ p : Fin 32, ∃ present : Bool, ∃ m : Mach, fon m (ptBase p) R.PT_LINK_PRESENT = present) ∧
    (∃ p : Fin 32, ∃ m : Mach, fon m (ptBase p) R.PT_LINK_PRESENT = false ∧ fon m (ptBase p) R.PT_LCTL_DIS = false ∧ roleOf m p = 3) ∧
    (∃ p : Fin 32, ∃ m : Mach, fon m (ptBase p) R.PT_LINK_PRESENT = false ∧ fon m (ptBase p) R.PT_LCTL_DIS = false ∧ roleOf m p = 1 ∧
      fon m (ptBase p) R.PT_LINK_PERST = false) ∧
    (∃ p : Fin 32, ∃ m : Mach, fon m (ptBase p) R.PT_LINK_PRESENT = true ∧ linkUp m p = true ∧ roleOf m p = 1) ∧
    (∃ p : Fin 32, ∃ m : Mach, reach m (ptBase p + 0x50) = .open_ ∧ linkUp m p = true) ∧
    (∃ p : Fin 32, ∃ m : Mach, reach m (ptBase p + 0x50) = .open_ ∧ 2 ≤ roleOf m p ∧ fon m (ptBase p) R.PT_LCTL_DIS = false ∧
      fon m (ptBase p) R.PT_LINK_PRESENT = true ∧ linkUp m p = true) ∧
    (∃ p : Fin 32, ∃ m : Mach, reach m (ptBase p + 0x50) = .open_ ∧ 2 ≤ roleOf m p ∧ fon m (ptBase p) R.PT_LCTL_DIS = false ∧
      fon m (ptBase p) R.PT_LINK_PRESENT = true ∧ linkUp m p = false) ∧
    (∃ p : Fin 32, ∃ m : Mach, m.ports.pulses.contains p.val = true) ∧
    (∃ p : Fin 32, ∃ m : Mach, reach m (ptBase p + 0x50) = .open_ ∧ fon m (ptBase p) R.PT_LCTL_DIS = false) ∧
    (∃ p : Fin 32, ∃ m : Mach, reach m (ptBase p + 0x50) = .open_ ∧ fon m (ptBase p) R.PT_LCTL_DIS = true ∧ fget m (ptBase p) R.PT_ROLE_SRC ≠ 3 ∧
      tileTripped m p = false) :=
  ⟨⟨0, 5, 3, false, 0, wTrain, by decide +kernel⟩,
    ⟨8, 6, 3, true, 0x200000, wTrain, by decide +kernel⟩,
    ⟨8, 6, 2, true, 0x200000, fset wTrain (ptBase 8) R.PT_MEMCTL_STATE 2, by decide +kernel⟩,
    ⟨16, 4, 3, false, false, 0, wTrain, by decide +kernel⟩,
    ⟨0, 4, 3, false, true, 0, wTrain, by decide +kernel⟩,
    ⟨0, wTrain, by decide +kernel⟩,
    ⟨0, wOn, by decide +kernel⟩,
    ⟨8, wOn, by decide +kernel⟩,
    ⟨16, wOn, by decide +kernel⟩,
    ⟨0, 1000, wOn, by decide +kernel⟩,
    ⟨0, 1000, fset wOn (ptBase 0) R.PT_LINK_STATE 1, by decide +kernel⟩,
    ⟨0, 999, wOn, by decide +kernel⟩,
    ⟨0, fset wOn (ptBase 0) R.PT_LINK_PERST 1, by decide +kernel⟩,
    ⟨0, wOn, by decide +kernel⟩,
    ⟨0, wOn, by decide +kernel⟩,
    ⟨0, false, wOn, by decide +kernel⟩,
    ⟨16, wOn, by decide +kernel⟩,
    ⟨0, fset wOn (ptBase 0) R.PT_LINK_PRESENT 0, by decide +kernel⟩,
    ⟨0, fset wOn (ptBase 0) R.PT_LINK_PRESENT 1, by decide +kernel⟩,
    ⟨0, wOn, by decide +kernel⟩,
    ⟨8, fset wOn (ptBase 8) R.PT_LINK_PRESENT 1, by decide +kernel⟩,
    ⟨8, wSet [(ptBase 8, R.PT_LINK_PRESENT, 1), (ptBase 8, R.PT_LINK_STATE, 1)] wOn, by decide +kernel⟩,
    ⟨8, { wOn with ports := { wOn.ports with pulses := [8] } }, by decide +kernel⟩,
    ⟨8, wOn, by decide +kernel⟩,
    ⟨8, fset wOn (ptBase 8) R.PT_LCTL_DIS 1, by decide +kernel⟩⟩

theorem witness_sleds_and_link_quality :
    (∃ p : Fin 32, ∃ id : Nat, ∃ _data : Line, ∃ _bad : Bool, ∃ s : SledReq, ∃ c k : Nat, ∃ m : Mach, (m.ports.sleds.find? fun s => s.id == id &&
      s.port == p.val && s.sent) = some s ∧ s.what = .flumeRead c k ∧ s.fenced = false) ∧
    (∃ p : Fin 32, ∃ id : Nat, ∃ _data : Line, ∃ s : SledReq, ∃ r : Mshr, ∃ h pln : Nat, ∃ m : Mach, (m.ports.sleds.find? fun s => s.id == id &&
      s.port == p.val && s.sent) = some s ∧ s.what = .fill h pln false ∧ s.fenced = false ∧ mshrOf m h pln = some r) ∧
    (∃ p : Fin 32, ∃ id : Nat, ∃ _data : Line, ∃ _bad : Bool, ∃ s : SledReq, ∃ c k : Nat, ∃ m : Mach, (m.ports.sleds.find? fun s => s.id == id &&
      s.port == p.val && s.sent) = some s ∧ s.fenced = true ∧ s.what = .flumeRead c k) ∧
    (∃ p : Fin 32, ∃ id : Nat, ∃ _data : Line, ∃ s : SledReq, ∃ r : Mshr, ∃ h pln : Nat, ∃ second : Bool, ∃ m : Mach, (m.ports.sleds.find? fun s =>
      s.id == id && s.port == p.val && s.sent) = some s ∧ s.what = .fill h pln second ∧ s.fenced = false ∧ mshrOf m h pln = some r ∧
      (second = true ∨ plcM2 (plcGet m s.sd (plotOf pln)) = false ∨ memState m (plcLoc2 (plcGet m s.sd (plotOf pln))).1 = 2)) ∧
    (∃ p : Fin 32, ∃ id : Nat, ∃ _data : Line, ∃ s : SledReq, ∃ r : Mshr, ∃ h pln : Nat, ∃ x : Nat × Nat, ∃ m : Mach, (m.ports.sleds.find? fun s =>
      s.id == id && s.port == p.val && s.sent) = some s ∧ s.what = .fill h pln false ∧ s.fenced = false ∧ mshrOf m h pln = some r ∧
      plcM2 (plcGet m s.sd (plotOf pln)) = true ∧ x = plcLoc2 (plcGet m s.sd (plotOf pln)) ∧ memState m x.1 ≠ 2) ∧
    (∃ p : Fin 32, ∃ m : Mach, roleOf m p = 2 ∧ linkUp m p = true ∧ (m.ports.sleds.any fun s => s.port == p.val && s.sent) = true) ∧
    (∃ p : Fin 32, ∃ _recs : List (BitVec 256), ∃ m : Mach, roleOf m p = 2 ∧ memState m p = 0) ∧
    (∃ p : Fin 32, ∃ m : Mach, linkUp m p = true ∧ fon m (ptBase p) R.PT_LINK_IDE = true) ∧
    (∃ p : Fin 32, ∃ flits : BitVec 16, ∃ m : Mach, linkUp m p = true ∧ (roleOf m p ≠ 1 ∨ flits = 0)) ∧
    (∃ p : Fin 32, ∃ flits : BitVec 16, ∃ m : Mach, linkUp m p = true ∧ roleOf m p = 1 ∧ flits ≠ 0) ∧
    (∃ p : Fin 32, ∃ _margin : BitVec 8, ∃ _lane : Fin 16, ∃ fec : BitVec 16, ∃ m : Mach, linkUp m p = true ∧ (roleOf m p ≠ 1 ∨ fec = 0)) ∧
    (∃ p : Fin 32, ∃ _margin : BitVec 8, ∃ _lane : Fin 16, ∃ fec : BitVec 16, ∃ m : Mach, linkUp m p = true ∧ roleOf m p = 1 ∧ fec ≠ 0) ∧
    (∃ p : Fin 32, ∃ m : Mach, linkUp m p = true ∧ fget m (ptBase p) R.PT_EQ_MARGIN < fget m (ptBase p) R.PT_LCTL_EQMIN ∧
      fon m (ptBase p) R.PT_LCTL_EQREDO = true) ∧
    (∃ p : Fin 32, ∃ m : Mach, linkUp m p = true ∧ fget m (ptBase p) R.PT_EQ_MARGIN < fget m (ptBase p) R.PT_LCTL_EQMIN ∧
      fon m (ptBase p) R.PT_LCTL_EQREDO = false) ∧
    (∃ p : Fin 32, ∃ m : Mach, roleOf m p = 2 ∧ memState m p = 1 ∧ m.ports.lossWait.contains p.val = true) ∧
    (∃ p : Fin 32, ∃ m : Mach, roleOf m p = 2 ∧ memState m p = 1 ∧ m.ports.lossWait.contains p.val = false ∧ m.ports.pulses.contains p.val = false) ∧
    (∃ p : Fin 32, ∃ m : Mach, reach m (ptBase p + 0x110) = .open_ ∧ roleOf m p = 2) ∧
    (∃ p : Fin 32, ∃ m : Mach, reach m (ptBase p + 0x110) = .open_ ∧ roleOf m p = 2 ∧ memState m p = 2 ∧ plotsOf m p = 0 ∧ linkUp m p = true ∧
      fon m (ptBase p) R.PT_IDE_REQ = false) ∧
    (∃ p : Fin 32, ∃ m : Mach, roleOf m p = 2 ∧ linkUp m p = true ∧ fon m (ptBase p) R.PT_LINK_IDE = true) ∧
    (∃ p : Fin 32, ∃ m : Mach, roleOf m p = 2 ∧ linkUp m p = true ∧ fon m (ptBase p) R.PT_IDE_REQ = true ∧ fon m (ptBase p) R.PT_LINK_IDE = false) :=
  ⟨⟨8, 5, 9, true, ⟨5,8,0,.flumeRead 1 2,0,true,false,⟨0,false⟩,0,false⟩, 1, 2, wSled, by decide +kernel⟩,
    ⟨8, 6, 9, ⟨6,8,0,.fill 0 0 false,0,true,false,⟨0,false⟩,0,false⟩, (wMs 0 0 .sled), 0, 0, wSled, by decide +kernel⟩,
    ⟨8, 7, 9, true, ⟨7,8,0,.flumeRead 1 2,0,true,true,⟨0,false⟩,0,false⟩, 1, 2, wSled, by decide +kernel⟩,
    ⟨8, 6, 9, ⟨6,8,0,.fill 0 0 false,0,true,false,⟨0,false⟩,0,false⟩, (wMs 0 0 .sled), 0, 0, false, wSled, by decide +kernel⟩,
    ⟨8, 6, 9, ⟨6,8,0,.fill 0 0 false,0,true,false,⟨0,false⟩,0,false⟩, (wMs 0 0 .sled), 0, 0, (9,1), { wSled with comp := { wSled.comp with plc := [(0, 2 ^ 28 + 8 * 2 ^ 23 + 2 ^ 29 + 2 ^ 30 + 9 * 2 ^ 53)] } }, by decide +kernel⟩,
    ⟨8, wSled, by decide +kernel⟩,
    ⟨8, [5], fset wOn (ptBase 8) R.PT_MEMCTL_STATE 0, by decide +kernel⟩,
    ⟨0, fset wOn (ptBase 0) R.PT_LINK_IDE 1, by decide +kernel⟩,
    ⟨16, 4, wOn, by decide +kernel⟩,
    ⟨0, 4, wOn, by decide +kernel⟩,
    ⟨16, 40, 3, 1, wOn, by decide +kernel⟩,
    ⟨0, 40, 3, 1, wOn, by decide +kernel⟩,
    ⟨16, wSet [(ptBase 16, R.PT_LCTL_EQMIN, 5), (ptBase 16, R.PT_LCTL_EQREDO, 1)] wOn, by decide +kernel⟩,
    ⟨16, wSet [(ptBase 16, R.PT_LCTL_EQMIN, 5), (ptBase 16, R.PT_LCTL_EQREDO, 0)] wOn, by decide +kernel⟩,
    ⟨8, { fset wOn (ptBase 8) R.PT_MEMCTL_STATE 1 with ports := { wOn.ports with lossWait := [8] } }, by decide +kernel⟩,
    ⟨8, fset wOn (ptBase 8) R.PT_MEMCTL_STATE 1, by decide +kernel⟩,
    ⟨8, wOn, by decide +kernel⟩,
    ⟨8, wSet [(ptBase 8, R.PT_MEMCTL_STATE, 2), (ptBase 8, R.PT_IDE_REQ, 0)] wOn, by decide +kernel⟩,
    ⟨8, fset wOn (ptBase 8) R.PT_LINK_IDE 1, by decide +kernel⟩,
    ⟨8, fset wOn (ptBase 8) R.PT_IDE_REQ 1, by decide +kernel⟩⟩

theorem witness_home_requests_and_fills :
    (∃ h : Fin 64, ∃ x : Req, ∃ rest : List (Nat × Req), ∃ r : Mshr, ∃ e : Nat, ∃ m : Mach, popReq m h m.home.reqQ = some (x, rest) ∧
      creditsShut m h = false ∧ (m.home.recalls.any fun y => y.h == h.val && y.pln == x.pln) = false ∧ x.op = .load ∧ x.src = .load e ∧
      mshrOf m h x.pln = some r ∧ r.reqs.length < 8 ∧ (m.home.mwq.any fun y => y.1 == h.val && y.2.pln == x.pln) = false) ∧
    (∃ h : Fin 64, ∃ m : Mach, popReq m h m.home.reqQ = none) ∧
    (∃ h : Fin 64, ∃ x : Req, ∃ rest : List (Nat × Req), ∃ r : Mshr, ∃ m : Mach, popReq m h m.home.mwq = some (x, rest) ∧
      (m.home.recalls.any fun y => y.h == h.val && y.pln == x.pln) = false ∧ x.op = .load ∧ mshrOf m h x.pln = some r ∧ r.reqs.length < 8) ∧
    (∃ h : Fin 64, ∃ l : Nat, ∃ rest : List (Nat × Nat), ∃ m : Mach, popFor h.val m.home.pfQ = some (l, rest) ∧
      pfDrops (count { m with home := { m.home with pfQ := rest } } (hsBase h) 0x01) h l = true) ∧
    (∃ h : Fin 64, ∃ l : Nat, ∃ rest : List (Nat × Nat), ∃ y : Mach, ∃ m : Mach, popFor h.val m.home.pfQ = some (l, rest) ∧
      y = count { m with home := { m.home with pfQ := rest } } (hsBase h) 0x01 ∧ pfDrops y h l = false ∧ repairHeld y l = false) ∧
    (∃ h : Fin 64, ∃ f : Fill, ∃ r : Mshr, ∃ m : Mach, (m.home.fillQ.find? fun f => f.h == h.val) = some f ∧ mshrOf m h f.pln = some r) ∧
    (∃ h : Fin 64, ∃ r : Mshr, ∃ m : Mach, (m.home.mshrs.filter fun r => r.h == h.val && r.phase == .full) = [r]) ∧
    (∃ h : Fin 64, ∃ l : Nat, ∃ r : Mshr, ∃ m : Mach, m.home.dwq = [(h.val, l)] ∧ mshrOf m h l = some r ∧
      mshrOf (pumpAll (mshrPut { m with home := { m.home with dwq := [] } } { r with phase := .full }) h l) h l = none) ∧
    (∃ h : Fin 64, ∃ r : Mshr, ∃ m : Mach, (m.home.mshrs.filter fun r => r.h == h.val && r.phase == .dirFill) = [r] ∧
      dcFill m r.h (halfOf m r.pln) (dirSet (lineL r.pln)) = none ∧ dwqFull m r.h = false) ∧
    (∃ h : Fin 64, ∃ r : Mshr, ∃ m : Mach, (m.home.mshrs.filter fun r => r.h == h.val && r.phase == .dirFill) = [r] ∧
      dcHas m r.h (halfOf m r.pln) (dirSet (lineL r.pln)) = true) ∧
    (∃ h : Fin 64, ∃ e : WbEnt, ∃ w : Nat, ∃ x : HgLine, ∃ m : Mach, (m.home.wb.find? fun e => e.h == h.val) = some e ∧
      hgFind m h e.pln = some (w, x)) :=
  ⟨⟨0, (wQ .load (.load 3) 0), [], (wMs 0 0 .sled), 3, fset ({ wOn with home := { wOn.home with reqQ := [(0, (wQ .load (.load 3) 0))], mshrs := [(wMs 0 0 .sled)] } }) (hsBase 0) R.HS_STATUS_STATE 1, by decide +kernel⟩,
    ⟨0, wOn, by decide +kernel⟩,
    ⟨0, (wQ .load (.load 3) 0), [], (wMs 0 0 .sled), { wOn with home := { wOn.home with mwq := [(0, (wQ .load (.load 3) 0))], mshrs := [(wMs 0 0 .sled)] } }, by decide +kernel⟩,
    ⟨0, 5, [], { wOn with home := { wOn.home with pfQ := [(0, 5)] } }, by decide +kernel⟩,
    ⟨0, 0, [], (count { wPf with home := { wPf.home with pfQ := [] } } (hsBase 0) 0x01), wPf, by decide +kernel⟩,
    ⟨0, ⟨0,0,⟨7,false⟩,false,false,true⟩, (wMs 0 0 .filled), { wOn with home := { wOn.home with fillQ := [⟨0, 0, ⟨7, false⟩, false, false, true⟩], mshrs := [(wMs 0 0 .filled)] } }, by decide +kernel⟩,
    ⟨0, (wMs 0 0 .full), { wOn with home := { wOn.home with mshrs := [(wMs 0 0 .full)] } }, by decide +kernel⟩,
    ⟨0, 0, (wMs 0 0 .dirWait), { wOn with home := { wOn.home with dwq := [(0, 0)], mshrs := [(wMs 0 0 .dirWait)] } }, by decide +kernel⟩,
    ⟨0, (wMs 0 0 .dirFill), wDc, by decide +kernel⟩,
    ⟨0, (wMs 0 0 .dirFill), { wOn with home := { wOn.home with dc := [(0, ⟨0, 0, false⟩)], mshrs := [(wMs 0 0 .dirFill)] } }, by decide +kernel⟩,
    ⟨0, ⟨0,0,⟨9,false⟩⟩, 2, ⟨0,true,false,⟨0,false⟩⟩, fset { wOn with home := { wOn.home with wb := [⟨0, 0, ⟨9, false⟩⟩], hg := [(hgKey 0 0 2, ⟨0, true, false, ⟨0, false⟩⟩)] } } (hsBase 0) R.HS_STATUS_STATE 1, by decide +kernel⟩⟩

theorem witness_home_snoops_queries_and_ways :
    (∃ h : Fin 64, ∃ a : SnpRsp, ∃ rc : Recall, ∃ m : Mach, (m.home.rspQ.find? fun a => a.h == h.val) = some a ∧
      (m.home.recalls.find? fun x => x.h == a.h && x.pln == a.pln) = some rc ∧ rc.left.contains a.port = true ∧
      (rc.left.filter fun p => p != a.port) = [] ∧ bitOf (lostMask m a.h) a.port = false ∧ m.home.mshrs = [] ∧ m.home.mwq = [] ∧ m.home.reqQ = [] ∧
      m.home.snpData = []) ∧
    (∃ h : Fin 64, ∃ a : SnpRsp, ∃ rc : Recall, ∃ l : List Nat, ∃ m : Mach, (m.home.rspQ.find? fun a => a.h == h.val) = some a ∧
      (m.home.recalls.find? fun x => x.h == a.h && x.pln == a.pln) = some rc ∧ rc.left.contains a.port = true ∧
      l = (rc.left.filter fun p => p != a.port) ∧ l ≠ [] ∧ bitOf (lostMask m a.h) a.port = false ∧ m.home.mshrs = [] ∧ m.home.mwq = [] ∧
      m.home.reqQ = [] ∧ m.home.snpData = []) ∧
    (∃ h : Fin 64, ∃ a : SnpRsp, ∃ rc : Recall, ∃ x : Req, ∃ m : Mach, (m.home.rspQ.find? fun a => a.h == h.val) = some a ∧
      (m.home.recalls.find? fun x => x.h == a.h && x.pln == a.pln) = some rc ∧ rc.left.contains a.port = true ∧ m.home.snpData = [(a.h, x)] ∧
      ownWrite a x = true ∧ bitOf (lostMask m a.h) a.port = false ∧ m.home.mshrs = [] ∧ m.home.mwq = [] ∧ m.home.reqQ = []) ∧
    (∃ h : Fin 64, ∃ x : Req, ∃ rest : List (Nat × Req), ∃ r : Mshr, ∃ k i : Nat, ∃ m : Mach, popFor h.val m.home.snpData = some (x, rest) ∧
      m.home.recalls = [] ∧ mshrOf m h x.pln = some r ∧ r.phase.snooping = true ∧ x.src = .host k i) ∧
    (∃ p : Fin 32, ∃ s : OpenSnp, ∃ m : Mach, (m.ports.snps.find? fun s => s.port == p.val && !s.fenced && s.sent) = some s) ∧
    (∃ p : Fin 32, ∃ m : Mach, (m.ports.snps.find? fun s => s.port == p.val && !s.fenced && s.sent) = none) ∧
    (∃ p : Fin 32, ∃ m : Mach, m.home.lostSweeps.contains p.val = true ∧ m.home.dir = []) ∧
    (∃ h : Fin 64, ∃ line : BitVec 41, ∃ m : Mach, reach m (hsBase h + 0x320) = .open_ ∧ fon m (hsBase h) R.DIR_QUERY_BUSY = false ∧
      bothUp m = true ∧ sliceIn m line.toNat = h.val % 32) ∧
    (∃ h : Fin 64, ∃ line : BitVec 41, ∃ m : Mach, reach m (hsBase h + 0x320) = .open_ ∧ fon m (hsBase h) R.DIR_QUERY_BUSY = false ∧
      sliceIn m line.toNat ≠ h.val % 32) ∧
    (∃ h : Fin 64, ∃ en : BitVec 16, ∃ m : Mach, reach m (hsBase h + 0x50) = .open_ ∧ en.toNat % 256 = 0) ∧
    (∃ h : Fin 64, ∃ en : BitVec 16, ∃ m : Mach, reach m (hsBase h + 0x50) = .open_ ∧ en.toNat % 256 ≠ 0 ∧ fget m (hsBase h) R.HS_WAYEN_EN = en.toNat) ∧
    (∃ h : Fin 64, ∃ m : Mach, reach m (hsBase h + 0x50) = .open_ ∧ fget m (hsBase h) R.HS_WAYEN_EN = 0xFFFF ∧
      (m.home.ways.any fun x => x.h == h.val && x.way == 15) = false) ∧
    (∃ h : Fin 64, ∃ m : Mach, (m.home.ways.find? fun x => x.h == h.val && !x.clear) = none) ∧
    (∃ h : Fin 64, ∃ x : WayPass, ∃ k : Nat, ∃ l : HgLine, ∃ m : Mach, (m.home.ways.find? fun x => x.h == h.val && !x.clear) = some x ∧
      wayLines m h x.way = [k] ∧ mget m.home.hg k = some l ∧ lineOpen m h (plnOf m (h.val / 32) (hgLineOf (k / 16 % 3072) l.tag)) = false ∧
      wbOf m h (plnOf m (h.val / 32) (hgLineOf (k / 16 % 3072) l.tag)) = none ∧ vbUsed m h < 16) ∧
    (∃ h : Fin 64, ∃ x : WayPass, ∃ m : Mach, (m.home.ways.find? fun x => x.h == h.val && (x.clear || (wayLines m h x.way).isEmpty)) = some x ∧
      x.clear = false ∧ x.again = false) :=
  ⟨⟨0, ⟨0,0,0,none⟩, ⟨0,0,0,[0],[],0⟩, { wOn with home := { wOn.home with rspQ := [⟨0, 0, 0, none⟩], recalls := [⟨0, 0, 0, [0], [], 0⟩] } }, by decide +kernel⟩,
    ⟨0, ⟨0,0,0,none⟩, ⟨0,0,0,[0,1],[],0⟩, [1], { wOn with home := { wOn.home with rspQ := [⟨0, 0, 0, none⟩], recalls := [⟨0, 0, 0, [0, 1], [], 0⟩] } }, by decide +kernel⟩,
    ⟨0, ⟨0,0,0,none⟩, ⟨0,0,0,[0],[],0⟩, (wQ (.host .wbInv) (.host 0 4) 0 5 1), { wOn with home := { wOn.home with rspQ := [⟨0, 0, 0, none⟩], recalls := [⟨0, 0, 0, [0], [], 0⟩], snpData := [(0, (wQ (.host .wbInv) (.host 0 4) 0 5 1))] } }, by decide +kernel⟩,
    ⟨0, (wQ (.host .wbInv) (.host 0 4) 0 5 1), [], (wMs 0 0 (.snoop .si [0])), 0, 4, { wOn with home := { wOn.home with snpData := [(0, (wQ (.host .wbInv) (.host 0 4) 0 5 1))], mshrs := [(wMs 0 0 (.snoop .si [0]))] } }, by decide +kernel⟩,
    ⟨0, ⟨0,5,.cur,0,false,true⟩, wSnp ⟨0, 5, .cur, 0, false, true⟩ wOn, by decide +kernel⟩,
    ⟨0, wOn, by decide +kernel⟩,
    ⟨0, { wOn with home := { wOn.home with lostSweeps := [0] } }, by decide +kernel⟩,
    ⟨0, 0, wOn, by decide +kernel⟩,
    ⟨1, 0, wOn, by decide +kernel⟩,
    ⟨0, 0xFF00, wOn, by decide +kernel⟩,
    ⟨0, 0xFFFF, wOn, by decide +kernel⟩,
    ⟨0, wOn, by decide +kernel⟩,
    ⟨0, wOn, by decide +kernel⟩,
    ⟨0, ⟨0,2,false,false⟩, 2, ⟨0,true,false,⟨0,false⟩⟩, { wOn with home := { wOn.home with ways := [⟨0, 2, false, false⟩], hg := [(2, ⟨0, true, false, ⟨0, false⟩⟩)] } }, by decide +kernel⟩,
    ⟨0, ⟨0,2,false,false⟩, { wOn with home := { wOn.home with ways := [⟨0, 2, false, false⟩] } }, by decide +kernel⟩⟩

theorem witness_reservoir_lookups_takes_and_offers :
    (∃ h : Fin 64, ∃ r : Mshr, ∃ sd j : Nat, ∃ s : Slot, ∃ m : Mach, m.home.mshrs = [r] ∧ r.h = h.val ∧ r.phase = .lookup ∧ r.pf = false ∧
      sd = h.val / 32 ∧ lookupWaits m sd r = false ∧ taken m r.pln = false ∧ m.ras.injected = [] ∧ (slotProbes m sd (lineL r.pln)).isEmpty = false ∧
      findSlot m sd (lineL r.pln) = some (j, s) ∧ twNewest m sd r.pln = none) ∧
    (∃ h : Fin 64, ∃ r : Mshr, ∃ sd : Nat, ∃ e : TwEnt, ∃ m : Mach, m.home.mshrs = [r] ∧ r.h = h.val ∧ r.phase = .lookup ∧ r.pf = false ∧
      sd = h.val / 32 ∧ lookupWaits m sd r = false ∧ twNewest m sd r.pln = some e) ∧
    (∃ k : Fin 8, ∃ sd l i : Nat, ∃ s : Slot, ∃ m : Mach, m.rsv.takes = [(sd, l)] ∧ slotAny m sd (lineL l) = some (i, s) ∧ ctlOf sd i = k.val) ∧
    (∃ k : Fin 8, ∃ o : Offer, ∃ i tag ep : Nat, ∃ m : Mach, m.rsv.offers = [o] ∧ o.from_ = .fill ∧ (i, tag, ep) = installAt m o.sd (lineL o.pln) ∧
      ctlOf o.sd i = k.val ∧ repairHeld m o.pln = false ∧ takePending m o.sd o.pln = false ∧ o.dirty = true ∧ usable m o.sd i = true ∧
      slotAt m o.sd i = none) ∧
    (∃ k : Fin 8, ∃ o : Offer, ∃ i tag ep : Nat, ∃ m : Mach, m.rsv.offers = [o] ∧ o.from_ = .fill ∧ (i, tag, ep) = installAt m o.sd (lineL o.pln) ∧
      ctlOf o.sd i = k.val ∧ repairHeld m o.pln = false ∧ takePending m o.sd o.pln = false ∧ o.dirty = false ∧ usable m o.sd i = false) ∧
    (∃ k : Fin 8, ∃ o : Offer, ∃ i tag ep : Nat, ∃ s : Slot, ∃ m : Mach, m.rsv.offers = [o] ∧ o.from_ = .fill ∧
      (i, tag, ep) = installAt m o.sd (lineL o.pln) ∧ ctlOf o.sd i = k.val ∧ repairHeld m o.pln = false ∧ takePending m o.sd o.pln = false ∧
      o.dirty = true ∧ usable m o.sd i = true ∧ slotAt m o.sd i = some s ∧ s.st ≠ .clean ∧ s.tag ≠ tag ∧
      takePending m o.sd (plnOf m o.sd (slotLine m o.sd i s)) = false ∧ twMustWait m o.sd (plnOf m o.sd (slotLine m o.sd i s)) = true) ∧
    (∃ sd : Fin 2, ∃ c : CleanWr, ∃ i : Nat, ∃ s : Slot, ∃ m : Mach, (m.rsv.cleanWr.find? fun c => c.sd == sd.val) = some c ∧
      findSlot m sd (lineL c.pln) = some (i, s) ∧ s.st = .clean ∧ c.img.poison = false) ∧
    (∃ k : Fin 8, ∃ m : Mach, (ctlGet m k).offers < 2 ^ fget m (rsvBase k) R.RSV_CTL_WINLOG) ∧
    (∃ k : Fin 8, ∃ c : Ctl, ∃ m : Mach, c = ctlGet m k ∧ 2 ^ fget m (rsvBase k) R.RSV_CTL_WINLOG ≤ c.offers ∧ c.first = true ∧ c.dirUp = true ∧
      fon m (rsvBase k) R.RSV_CTL_PREDEN = true) :=
  ⟨⟨0, (wMs 0 0 .lookup), 0, ((installAt wOn 0 0).1), (wSlot 0 .clean), (fun m : Mach => { m with home := { m.home with mshrs := [(wMs 0 0 .lookup)] } }) (wSlotM .clean), by decide +kernel⟩,
    ⟨0, (wMs 0 0 .lookup), 0, (wTw .waiting []), (fun m : Mach => { m with home := { m.home with mshrs := [(wMs 0 0 .lookup)] } }) ({ wRsv with tw := [wTw .waiting []] }), by decide +kernel⟩,
    ⟨3, 0, 0, ((installAt wOn 0 0).1), (wSlot 0 .dirty), (fun m : Mach => { m with rsv := { m.rsv with takes := [(0, 0)] } }) (wSlotM .dirty), by decide +kernel⟩,
    ⟨3, ⟨0,0,⟨9,false⟩,true,false,.fill⟩, ((installAt wOn 0 0).1), ((installAt wOn 0 0).2.1), ((installAt wOn 0 0).2.2), (fun m : Mach => { m with rsv := { m.rsv with offers := [⟨0, 0, ⟨9, false⟩, true, false, .fill⟩] } }) (wRsv), by decide +kernel⟩,
    ⟨3, ⟨0,0,⟨9,false⟩,false,false,.fill⟩, ((installAt wOn 0 0).1), ((installAt wOn 0 0).2.1), ((installAt wOn 0 0).2.2), (fun m : Mach => { m with rsv := { m.rsv with offers := [⟨0, 0, ⟨9, false⟩, false, false, .fill⟩] } }) (wOn), by decide +kernel⟩,
    ⟨2, ⟨0,2,⟨9,false⟩,true,false,.fill⟩, ((installAt wOn 0 1).1), ((installAt wOn 0 1).2.1), ((installAt wOn 0 1).2.2), ⟨99,.dirty,0,9⟩, wOff, by decide +kernel⟩,
    ⟨0, ⟨0,0,⟨5,false⟩,1,[]⟩, ((installAt wOn 0 0).1), (wSlot 0 .clean), (fun m : Mach => { m with rsv := { m.rsv with cleanWr := [⟨0, 0, ⟨5, false⟩, 1, []⟩] } }) (wSlotM .clean), by decide +kernel⟩,
    ⟨0, wOn, by decide +kernel⟩,
    ⟨0, ⟨true,true,0x100000,0,0,0,0,none⟩, ctlSet (fset wOn (rsvBase 0) R.RSV_CTL_PREDEN 1) 0 ⟨true, true, 0x100000, 0, 0, 0, 0, none⟩, by decide +kernel⟩⟩

theorem witness_reservoir_upkeep :
    (∃ k : Fin 8, ∃ p : Nat, ∃ m : Mach, rsvState m k = 1 ∧ p = fget m (rsvBase k) R.RSV_STATUS_SWEEP_PTR ∧ p + 1 < 0x80000) ∧
    (∃ k : Fin 8, ∃ m : Mach, rsvState m k = 1 ∧ fget m (rsvBase k) R.RSV_STATUS_SWEEP_PTR = 0x7FFFF) ∧
    (∃ k : Fin 8, ∃ m : Mach, rsvState m k ≠ 1) ∧
    (∃ k : Fin 8, ∃ m : Mach, rsvState m k ≠ 0) ∧
    (∃ k : Fin 8, ∃ temp : BitVec 8, ∃ m : Mach, rsvState m k ≠ 0 ∧ fget m (rsvBase k) R.RSV_STATUS_REFSTEP = 0 ∧ 95 ≤ temp.toNat) ∧
    (∃ k : Fin 8, ∃ temp : BitVec 8, ∃ m : Mach, rsvState m k ≠ 0 ∧ fget m (rsvBase k) R.RSV_STATUS_REFSTEP = 0 ∧ temp.toNat < 50) ∧
    (∃ k : Fin 8, ∃ pc : Fin 32, ∃ frame : BitVec 19, ∃ m : Mach, reach m (rsvBase k + 0x58) = .open_ ∧
      fon m (rsvBase k) R.RSV_RETIRE_BUSY = false ∧ rsvState m k = 2 ∧ bankBarred m k pc (frame.toNat % 16) = false ∧ remapUsed m k < 4096 ∧
      sparesUsed m k pc < 13312 ∧ sget 1 m.rsv.remap (frameKey k pc frame.toNat) = 1) ∧
    (∃ k : Fin 8, ∃ pc : Fin 32, ∃ frame : BitVec 19, ∃ m : Mach, reach m (rsvBase k + 0x58) = .open_ ∧
      fon m (rsvBase k) R.RSV_RETIRE_BUSY = false ∧ rsvState m k = 2 ∧ bankBarred m k pc (frame.toNat % 16) = false ∧ remapUsed m k < 4096 ∧
      sget 1 m.rsv.remap (frameKey k pc frame.toNat) = 1) ∧
    (∃ k : Fin 8, ∃ pc : Fin 32, ∃ frame : BitVec 19, ∃ m : Mach, reach m (rsvBase k + 0x58) = .open_ ∧
      fon m (rsvBase k) R.RSV_RETIRE_BUSY = false ∧ rsvState m k = 2 ∧ bankBarred m k pc (frame.toNat % 16) = false) ∧
    (∃ k : Fin 8, ∃ _pc : Fin 32, ∃ _frame : BitVec 19, ∃ m : Mach, reach m (rsvBase k + 0x58) = .open_ ∧
      fon m (rsvBase k) R.RSV_RETIRE_BUSY = false ∧ rsvState m k = 1) ∧
    (∃ k : Fin 8, ∃ _bad : List (BitVec 31 × Fin 8), ∃ v : FrameMove, ∃ m : Mach, (ctlGet m k).move = some v ∧ movedSlots m k v = [] ∧ v.op = 1 ∧
      v.eng = none) ∧
    (∃ k : Fin 8, ∃ _bad : List (BitVec 31 × Fin 8), ∃ m : Mach, (ctlGet m k).move = none) :=
  ⟨⟨0, 0, fset wOn (rsvBase 0) R.RSV_STATUS_STATE 1, by decide +kernel⟩,
    ⟨0, wSet [(rsvBase 0, R.RSV_STATUS_STATE, 1), (rsvBase 0, R.RSV_STATUS_SWEEP_PTR, 0x7FFFF)] wOn, by decide +kernel⟩,
    ⟨0, wRsv, by decide +kernel⟩,
    ⟨0, wRsv, by decide +kernel⟩,
    ⟨0, 95, wRsv, by decide +kernel⟩,
    ⟨0, 49, wRsv, by decide +kernel⟩,
    ⟨0, 3, 5, wRsv, by decide +kernel⟩,
    ⟨0, 3, 5, wRsv, by decide +kernel⟩,
    ⟨0, 3, 5, wRsv, by decide +kernel⟩,
    ⟨0, 3, 5, fset wOn (rsvBase 0) R.RSV_STATUS_STATE 1, by decide +kernel⟩,
    ⟨0, [], ⟨1,3,5,none⟩, ctlSet wRsv 0 ⟨true, true, 0, 0, 0, 0, 0, some ⟨1, 3, 5, none⟩⟩, by decide +kernel⟩,
    ⟨0, [], wRsv, by decide +kernel⟩⟩

theorem witness_tailwater_buffer :
    (∃ sd : Fin 2, ∃ e : TwIn, ∃ m : Mach, m.twIn = [e] ∧ e.sd = sd.val ∧ e.origin = .other ∧ twLost m sd e.pln = false ∧
      twFull m sd e.pln = false ∧ m.tw.any (fun x => x.sd == e.sd && x.pln == e.pln) = false) ∧
    (∃ sd : Fin 2, ∃ e : TwIn, ∃ m : Mach, m.twIn = [e] ∧ twFull m sd e.pln = true) ∧
    (∃ sd : Fin 2, ∃ p : Fin 32, ∃ e : TwEnt, ∃ a : Nat, ∃ m : Mach, m.tw = [e] ∧ e.sd = sd.val ∧ e.st = .waiting ∧ e.locs = [(p.val, a)] ∧
      plotHeld m sd (plotOf e.pln) = false ∧ repairHeld m e.pln = false ∧ memState m p = 0 ∧ m.ports.sleds = []) ∧
    (∃ p : Fin 32, ∃ id : Nat, ∃ s : SledReq, ∃ sd l : Nat, ∃ e : TwEnt, ∃ m : Mach, (m.ports.sleds.find? fun s => s.id == id && s.port == p.val &&
      s.sent) = some s ∧ s.what = .tail sd l ∧ s.fenced = false ∧ (m.tw.find? fun e => e.sd == sd && e.pln == l && e.st == .issued) = some e ∧
      (e.left.filter fun x => x != p.val) = []) ∧
    (∃ p : Fin 32, ∃ id : Nat, ∃ s : SledReq, ∃ c k : Nat, ∃ m : Mach, (m.ports.sleds.find? fun s => s.id == id && s.port == p.val && s.sent) =
      some s ∧ s.what = .flumeWrite c k ∧ s.fenced = false) :=
  ⟨⟨0, ⟨0,0,⟨9,false⟩,1,[],.other⟩, wPlc { wOn with twIn := [⟨0, 0, ⟨9, false⟩, 1, [], .other⟩] }, by decide +kernel⟩,
    ⟨0, ⟨0,0,⟨9,false⟩,1,[],.other⟩, fset (wPlc { wOn with twIn := [⟨0, 0, ⟨9, false⟩, 1, [], .other⟩] }) (rsvBase 0) R.RSV_TWCTL_PORTMAX 0, by decide +kernel⟩,
    ⟨0, 8, (wTw .waiting []), 0, wPlc { wOn with tw := [wTw .waiting []] }, by decide +kernel⟩,
    ⟨8, 5, ⟨5,8,0,.tail 0 0,0,true,false,⟨0,false⟩,0,false⟩, 0, 0, (wTw .issued [8]), { wOn with tw := [wTw .issued [8]], ports := { wOn.ports with sleds := [⟨5, 8, 0, .tail 0 0, 0, true, false, ⟨0, false⟩, 0, false⟩] } }, by decide +kernel⟩,
    ⟨8, 5, ⟨5,8,0,.flumeWrite 0 0,0,true,false,⟨0,false⟩,0,false⟩, 0, 0, { wOn with ports := { wOn.ports with sleds := [⟨5, 8, 0, .flumeWrite 0 0, 0, true, false, ⟨0, false⟩, 0, false⟩] } }, by decide +kernel⟩⟩

theorem witness_twin_writes_and_mirrors :
    (∃ h : Fin 64, ∃ k : Nat, ∃ e : Option DirEnt, ∃ g : Option (Nat × Nat), ∃ rest : List (Nat × Stream), ∃ m : Mach, m.twin.stream = (h.val,
      .mirror k e g) :: rest) ∧
    (∃ p : Fin 32, ∃ l : Nat, ∃ rest : List (Nat × Nat), ∃ m : Mach, m.twin.mirAcks = (p.val, l) :: rest ∧ m.ports.heldRsp = []) ∧
    (∃ p : Fin 32, ∃ l : Nat, ∃ rest : List (Nat × Nat), ∃ d : Done, ∃ ds : List Done, ∃ id : Nat, ∃ m : Mach, m.twin.mirAcks = (p.val, l) :: rest
      ∧ m.ports.heldRsp = d :: ds ∧ d.src = .host p id) ∧
    (∃ h : Fin 64, ∃ l : Nat, ∃ img : Img, ∃ pend : Bool, ∃ ack : AckFor, ∃ rest : List (Nat × Stream), ∃ m : Mach, m.twin.stream = (h.val,
      .twinWrite l img pend ack) :: rest ∧ m.twin.staged = [] ∧ m.twin.recs = []) ∧
    (∃ h : Fin 64, ∃ l : Nat, ∃ img old : Img, ∃ pend pd : Bool, ∃ ack : AckFor, ∃ more : List Staged, ∃ rest : List (Nat × Stream), ∃ m : Mach,
      m.twin.stream = (h.val, .twinWrite l img pend ack) :: rest ∧ m.twin.staged = ⟨(1 - h.val / 32), l, old, pd⟩ :: more) ∧
    (∃ h : Fin 64, ∃ l : Nat, ∃ img : Img, ∃ pend : Bool, ∃ ack : AckFor, ∃ rest : List (Nat × Stream), ∃ m : Mach, m.twin.stream = (h.val,
      .twinWrite l img pend ack) :: rest ∧ 32768 ≤ stagedOn m (1 - h.val / 32) ∧
      (m.twin.staged.any fun s => s.sd == (1 - h.val / 32) && s.pln == l) = false) ∧
    (∃ h : Fin 64, ∃ a : TwinAck, ∃ rest : List TwinAck, ∃ r : Req, ∃ res sd : Nat, ∃ m : Mach, m.twin.acks = a :: rest ∧ a.h = h.val ∧
      a.isNew = true ∧ a.ack = .write r res ∧ sd = h.val / 32) ∧
    (∃ h : Fin 64, ∃ a : TwinAck, ∃ rest : List TwinAck, ∃ r : Req, ∃ res : Nat, ∃ m : Mach, m.twin.acks = a :: rest ∧ a.h = h.val ∧
      a.isNew = false ∧ a.ack = .write r res) ∧
    (∃ p id res : Nat, ∃ rest : List (Src × Nat), ∃ m : Mach, m.twin.notices = (.host p id, res) :: rest) ∧
    (∃ e res : Nat, ∃ rest : List (Src × Nat), ∃ m : Mach, m.twin.notices = (.amo e, res) :: rest) ∧
    (∃ t : Fin 2, ∃ m : Mach, stagedOn m t ≤ 30720) ∧
    (∃ t : Fin 2, ∃ s : Staged, ∃ m : Mach, 30720 < stagedOn m t ∧ (m.twin.staged.find? fun x => x.sd == t.val && !x.pending) = some s ∧
      m.twin.recs = []) ∧
    (∃ h : Fin 64, ∃ l : Nat, ∃ rest : List (Nat × Stream), ∃ m : Mach, m.twin.stream = (h.val, .release l) :: rest ∧ hasTwin m l = true) ∧
    (∃ h : Fin 64, ∃ l : Nat, ∃ rest : List (Nat × Stream), ∃ m : Mach, m.twin.stream = (h.val, .release l) :: rest ∧ hasTwin m l = false) ∧
    (∃ h : Fin 64, ∃ l : Nat, ∃ rest : List (Nat × Nat), ∃ n : Nat, ∃ m : Mach, m.twin.relAcks = (h.val, l) :: rest ∧
      n = fget m (twnBase (h / 32)) R.TWN_GAUGE_LINES) ∧
    (∃ h : Fin 64, ∃ l : Nat, ∃ rest : List (Nat × Stream), ∃ m : Mach, m.twin.stream = (h.val, .commit l) :: rest) ∧
    (∃ _h : Fin 64, ∃ m : Mach, m.twin.stream = []) :=
  ⟨⟨0, 5, none, (some (3,7)), [], { wOn with twin := { wOn.twin with stream := [(0, .mirror 5 none (some (3, 7)))] } }, by decide +kernel⟩,
    ⟨3, 7, [], { wOn with twin := { wOn.twin with mirAcks := [(3, 7)] } }, by decide +kernel⟩,
    ⟨3, 7, [], ⟨.host 3 1,7,none,none,0,.ok,none⟩, [], 1, { wOn with twin := { wOn.twin with mirAcks := [(3, 7)] }, ports := { wOn.ports with heldRsp := [⟨.host 3 1, 7, none, none, 0, .ok, none⟩] } }, by decide +kernel⟩,
    ⟨0, 7, ⟨5,false⟩, true, .none, [], { wOn with twin := { wOn.twin with stream := [(0, .twinWrite 7 ⟨5, false⟩ true .none)] } }, by decide +kernel⟩,
    ⟨0, 7, ⟨5,false⟩, ⟨4,false⟩, false, true, .none, [], [], { wOn with twin := { wOn.twin with stream := [(0, .twinWrite 7 ⟨5, false⟩ false .none)], staged := [⟨1, 7, ⟨4, false⟩, true⟩] } }, by decide +kernel⟩,
    ⟨0, 7, ⟨5,false⟩, false, .none, [], wStaged 32768 1 [(0, .twinWrite 7 ⟨5, false⟩ false .none)], rfl, Nat.le_of_eq (stagedOn_wStaged 32768 1 _).symm, any_wStaged 32768 1 7 _ (by decide)⟩,
    ⟨0, ⟨0,7,true,.write (wQ .store (.store 3) 7) 0⟩, [], (wQ .store (.store 3) 7), 0, 0, { wOn with twin := { wOn.twin with acks := [⟨0, 7, true, .write (wQ .store (.store 3) 7) 0⟩] } }, by decide +kernel⟩,
    ⟨0, ⟨0,7,false,.write (wQ .store (.store 3) 7) 0⟩, [], (wQ .store (.store 3) 7), 0, { wOn with twin := { wOn.twin with acks := [⟨0, 7, false, .write (wQ .store (.store 3) 7) 0⟩] } }, by decide +kernel⟩,
    ⟨3, 1, 0, [], { wOn with twin := { wOn.twin with notices := [(.host 3 1, 0)] } }, by decide +kernel⟩,
    ⟨3, 1, [], { wOn with twin := { wOn.twin with notices := [(.amo 3, 1)] } }, by decide +kernel⟩,
    ⟨0, wOn, by decide +kernel⟩,
    ⟨0, ⟨0,9,⟨4,false⟩,false⟩, wStaged (30720 + 1) 0 [], Nat.le_of_eq (stagedOn_wStaged (30720 + 1) 0 []).symm, find_wStaged 30720 0 [], rfl⟩,
    ⟨0, 7, [], { wOn with twin := { wOn.twin with stream := [(0, .release 7)], staged := [⟨1, 7, ⟨4, false⟩, false⟩] } }, by decide +kernel⟩,
    ⟨0, 7, [], { wOn with twin := { wOn.twin with stream := [(0, .release 7)] } }, by decide +kernel⟩,
    ⟨0, 7, [], 0, { wOn with twin := { wOn.twin with relAcks := [(0, 7)] } }, by decide +kernel⟩,
    ⟨0, 7, [], { wOn with twin := { wOn.twin with stream := [(0, .commit 7)] } }, by decide +kernel⟩,
    ⟨0, wOn, by decide +kernel⟩⟩

theorem witness_twin_cleaning_drain_and_repair :
    (∃ h : Fin 64, ∃ l : Nat, ∃ rest : List HomeNote, ∃ img : Img, ∃ sd : Nat, ∃ m : Mach, m.home.notes = .cleanReq h l :: rest ∧
      dirtyImg m (freshMshr h { op := .maint .clean none, src := .none, pln := l, data := 0, mask := 0, poison := false }) = some img ∧
      sd = h.val / 32) ∧
    (∃ h : Fin 64, ∃ l : Nat, ∃ rest : List HomeNote, ∃ m : Mach, m.home.notes = .relCheck h l :: rest ∧ dirtyAtHome m h l = true) ∧
    (∃ h : Fin 64, ∃ l : Nat, ∃ rest : List HomeNote, ∃ m : Mach, m.home.notes = .relCheck h l :: rest ∧ dirtyAtHome m h l = false ∧ m.tw = [] ∧
      dirFind m (halfOf m l) (lineL l) = none ∧ twinned m l = true) ∧
    (∃ h : Fin 64, ∃ l : Nat, ∃ rest : List HomeNote, ∃ w : Nat, ∃ e : DirEnt, ∃ m : Mach, m.home.notes = .relCheck h l :: rest ∧
      dirtyAtHome m h l = false ∧ m.tw = [] ∧ dirFind m (halfOf m l) (lineL l) = some (w, e) ∧ e.st = .o ∧ twinned m l = true) ∧
    (∃ sd : Fin 2, ∃ m : Mach, fon m (twnBase sd) R.TWN_GAUGE_CLEANING = false ∧ fon m (twnBase sd) R.TWN_GAUGE_FORCED = false ∧
      m.twin.entering = false) ∧
    (∃ sd : Fin 2, ∃ i : Nat, ∃ s : Slot, ∃ y : Mach, ∃ l : Nat, ∃ m : Mach, fon m (twnBase sd) R.TWN_GAUGE_CLEANING = true ∧
      i = sget 0 m.rsv.cleanPtr sd ∧ y = { m with rsv := { m.rsv with cleanPtr := sset 0 m.rsv.cleanPtr sd ((i + 1) % 2 ^ 31) } } ∧
      usable y sd i = true ∧ slotAt y sd i = some s ∧ s.st = .dirty ∧ l = plnOf y sd (slotLine y sd i s) ∧ takePending y sd l = false ∧
      repairHeld y l = false ∧ twMustWait y sd l = false) ∧
    (∃ sd : Fin 2, ∃ m : Mach, fget m (twnBase sd) R.TWN_LOG_STATE ≠ 2) ∧
    (∃ sd : Fin 2, ∃ s : Staged, ∃ rest : List Staged, ∃ m : Mach, fget m (twnBase sd) R.TWN_LOG_STATE = 2 ∧ m.tw = [] ∧ m.twIn = [] ∧
      m.home.mshrs = [] ∧ m.twin.staged = s :: rest ∧ s.sd = sd.val ∧ s.pending = false) ∧
    (∃ sd : Fin 2, ∃ m : Mach, fget m (twnBase sd) R.TWN_LOG_STATE = 2 ∧ m.twin.staged = [] ∧ m.twin.recs = []) ∧
    (∃ h : Fin 64, ∃ l sd i : Nat, ∃ g : Img, ∃ s : Slot, ∃ rest : List (Nat × Stream), ∃ m : Mach, m.twin.stream = (h.val, .lookup l (.slot sd i))
      :: rest ∧ repairImg m l = some g ∧ slotAt m sd i = some s ∧ s.st = .dirty ∧ plnOf m sd (slotLine m sd i s) = l) ∧
    (∃ h : Fin 64, ∃ l sd i : Nat, ∃ s : Slot, ∃ rest : List (Nat × Stream), ∃ m : Mach, m.twin.stream = (h.val, .lookup l (.slot sd i)) :: rest ∧
      repairImg m l = none ∧ slotAt m sd i = some s ∧ s.st = .dirty ∧ plnOf m sd (slotLine m sd i s) = l) ∧
    (∃ h : Fin 64, ∃ i : Nat, ∃ rest : List (Nat × Stream), ∃ m : Mach, m.twin.stream = (h.val, .search (.slot (h / 32) i)) :: rest ∧
      m.ras.targets.length < 16) ∧
    (∃ h : Fin 64, ∃ i sd : Nat, ∃ rest : List (Nat × Stream), ∃ m : Mach, m.twin.stream = (h.val, .search (.slot (h / 32) i)) :: rest ∧
      m.ras.targets = (List.range 16).map (Target.slot (h / 32)) ∧ sd = h.val / 32) :=
  ⟨⟨0, 0, [], ⟨9,false⟩, 0, fset { wOn with home := { wOn.home with notes := [.cleanReq 0 0], hg := [(hgKey 0 0 2, ⟨0, true, true, ⟨9, false⟩⟩)] } } (hsBase 0) R.HS_STATUS_STATE 1, by decide +kernel⟩,
    ⟨0, 0, [], fset { wOn with home := { wOn.home with notes := [.relCheck 0 0], hg := [(hgKey 0 0 2, ⟨0, true, true, ⟨9, false⟩⟩)] } } (hsBase 0) R.HS_STATUS_STATE 1, by decide +kernel⟩,
    ⟨0, 0, [], { wOn with home := { wOn.home with notes := [.relCheck 0 0] } }, by decide +kernel⟩,
    ⟨0, 0, [], 0, ⟨0,.o,8⟩, { wOn with home := { wOn.home with notes := [.relCheck 0 0], dir := [(0, ⟨0, .o, 8⟩)] } }, by decide +kernel⟩,
    ⟨0, wOn, by decide +kernel⟩,
    ⟨0, ((installAt wOn 0 0).1), (wSlot 0 .dirty), (wCl ((installAt wOn 0 0).1 + 1)), 0, wCl (installAt wOn 0 0).1, by decide +kernel⟩,
    ⟨0, wOn, by decide +kernel⟩,
    ⟨0, ⟨0,7,⟨5,false⟩,false⟩, [], fset ({ wOn with twin := { wOn.twin with staged := [⟨0, 7, ⟨5, false⟩, false⟩] } }) (twnBase 0) R.TWN_LOG_STATE 2, by decide +kernel⟩,
    ⟨0, fset wOn (twnBase 0) R.TWN_LOG_STATE 2, by decide +kernel⟩,
    ⟨0, 0, 0, ((installAt wOn 0 0).1), ⟨5,false⟩, (wSlot 0 .dirty), [], (fun m : Mach => { m with twin := { m.twin with staged := [⟨1, 0, ⟨5, false⟩, false⟩], stream := [(0, .lookup 0 (.slot 0 (installAt wOn 0 0).1))] } }) (wSlotM .dirty), by decide +kernel⟩,
    ⟨0, 0, 0, ((installAt wOn 0 0).1), (wSlot 0 .dirty), [], (fun m : Mach => { m with twin := { m.twin with stream := [(0, .lookup 0 (.slot 0 (installAt wOn 0 0).1))] } }) (wSlotM .dirty), by decide +kernel⟩,
    ⟨0, 9, [], { wOn with twin := { wOn.twin with stream := [(0, .search (.slot 0 9))] } }, by decide +kernel⟩,
    ⟨0, 99, 0, [], { wOn with twin := { wOn.twin with stream := [(0, .search (.slot 0 99))] }, ras := { wOn.ras with targets := (List.range 16).map (Target.slot 0) } }, by decide +kernel⟩⟩

theorem witness_side_faults_and_takeover :
    (∃ sd : Fin 2, ∃ m : Mach, sd = 0 ∧ sideRuns m 0 = true) ∧
    (∃ sd : Fin 2, ∃ m : Mach, sd = 1 ∧ sideRuns m 1 = true) ∧
    (∃ sd : Fin 2, ∃ _kept : Nat, ∃ m : Mach, sideRuns m sd = true ∧ sget 0 m.twin.hpRun sd < 2) ∧
    (∃ sd : Fin 2, ∃ _kept : Nat, ∃ m : Mach, sideRuns m sd = true ∧ sget 0 m.twin.hpRun sd = 2 ∧ opMode m = 1 ∧ bothUp m = true ∧
      m.twin.returning = none) ∧
    (∃ sd : Fin 2, ∃ m : Mach, fon m (brgBase sd) R.BRG_STATUS_UP = true) ∧
    (∃ sd : Fin 2, ∃ m : Mach, fon m (brgBase sd) R.BRG_STATUS_UP = false) ∧
    (∃ sd : Fin 2, ∃ _kept : Nat, ∃ m : Mach, fon m (brgBase sd) R.BRG_STATUS_UP = true ∧ fget m (brgBase sd) R.BRG_STATUS_HB_RUN < 2) ∧
    (∃ sd : Fin 2, ∃ _retrain : Bool, ∃ _kept : Nat, ∃ m : Mach, fon m (brgBase sd) R.BRG_STATUS_UP = true ∧
      fget m (brgBase sd) R.BRG_STATUS_HB_RUN = 2 ∧ opMode m = 1 ∧ bothUp m = true ∧ m.twin.returning = none ∧ fon m aonBase R.AON_ARB_A_OK = true ∧
      fon m aonBase R.AON_ARB_B_OK = true) ∧
    (∃ sd : Fin 2, ∃ _retrain : Bool, ∃ _kept : Nat, ∃ m : Mach, fon m (brgBase sd) R.BRG_STATUS_UP = true ∧
      (fon m aonBase R.AON_ARB_A_OK = false ∨ fon m aonBase R.AON_ARB_B_OK = false)) ∧
    (∃ sd : Fin 2, ∃ _st _bt _inst : BitVec 8, ∃ _kept : Nat, ∃ m : Mach, sideRuns m sd = true ∧ opMode m = 1 ∧ bothUp m = true ∧
      m.twin.returning = none) ∧
    (∃ sd : Fin 2, ∃ _st _bt _inst : BitVec 8, ∃ _kept : Nat, ∃ m : Mach, sideRuns m sd = false) ∧
    (∃ sd : Fin 2, ∃ _kept : Nat, ∃ h l : Nat, ∃ img : Img, ∃ o : Bool, ∃ a : AckFor, ∃ rest : List (Nat × Stream), ∃ m : Mach, m.twin.stream = (h,
      .twinWrite l img o a) :: rest ∧ h / 32 = sd.val ∧ fon m (brgBase sd) R.BRG_STATUS_UP = true ∧ opMode m = 1 ∧ bothUp m = true ∧
      m.twin.returning = none) ∧
    (∃ _sd : Fin 2, ∃ _kept : Nat, ∃ h l : Nat, ∃ m : Mach, m.twin.stream = [(h, .release l)]) ∧
    (∃ _sd : Fin 2, ∃ _kept : Nat, ∃ m : Mach, m.twin.stream = []) ∧
    (∃ m : Mach, fon m (brgBase 0) R.BRG_STATUS_UP = true ∧ fon m (brgBase 1) R.BRG_STATUS_UP = true) ∧
    (∃ m : Mach, fon m (brgBase 0) R.BRG_STATUS_UP = false ∧ fon m (brgBase 1) R.BRG_STATUS_UP = true) :=
  ⟨⟨0, wOn, by decide +kernel⟩,
    ⟨1, wOn, by decide +kernel⟩,
    ⟨1, 0, wOn, by decide +kernel⟩,
    ⟨1, 0, (fun m : Mach => { m with twin := { m.twin with hpRun := [(1, 2)] } }) (wOn), by decide +kernel⟩,
    ⟨0, fset wOn (brgBase 0) R.BRG_STATUS_UP 1, by decide +kernel⟩,
    ⟨0, wOn, by decide +kernel⟩,
    ⟨0, 7, fset wOn (brgBase 0) R.BRG_STATUS_UP 1, by decide +kernel⟩,
    ⟨0, true, 7, wSet [(brgBase 0, R.BRG_STATUS_UP, 1), (brgBase 0, R.BRG_STATUS_HB_RUN, 2), (aonBase, R.AON_ARB_A_OK, 1), (aonBase, R.AON_ARB_B_OK, 1)] wOn, by decide +kernel⟩,
    ⟨0, true, 7, fset wOn (brgBase 0) R.BRG_STATUS_UP 1, by decide +kernel⟩,
    ⟨1, 0x0A, 3, 0, 7, wOn, by decide +kernel⟩,
    ⟨1, 0x0A, 3, 0, 7, fset wOn (8 * 12) R.PWR_DOM_STATE 0, by decide +kernel⟩,
    ⟨0, 0, 0, 7, ⟨5,false⟩, false, .none, [], fset ((fun m : Mach => { m with twin := { m.twin with stream := [(0, .twinWrite 7 ⟨5, false⟩ false .none)] } }) (wOn)) (brgBase 0) R.BRG_STATUS_UP 1, by decide +kernel⟩,
    ⟨0, 0, 0, 7, (fun m : Mach => { m with twin := { m.twin with stream := [(0, .release 7)] } }) (wOn), by decide +kernel⟩,
    ⟨0, 0, wOn, by decide +kernel⟩,
    ⟨fset (fset wOn (brgBase 0) R.BRG_STATUS_UP 1) (brgBase 1) R.BRG_STATUS_UP 1, by decide +kernel⟩,
    ⟨fset wOn (brgBase 1) R.BRG_STATUS_UP 1, by decide +kernel⟩⟩

theorem witness_mode_requests_stops_and_reintegration :
    (∃ m : Mach, fon m aonBase R.AON_MODECTL_BUSY = false ∧ m.boot.holdUp = false ∧ steady m = true ∧ m.twin.entering = false) ∧
    (∃ m : Mach, fon m aonBase R.AON_MODECTL_BUSY = false ∧ m.boot.holdUp = false ∧ steady m = false) ∧
    (∃ r : Nat, ∃ m : Mach, m.twin.returning = some r ∧ m.boot.holdUp = false) ∧
    (∃ m : Mach, m.twin.returning = none ∧ fon m aonBase R.AON_MODECTL_BUSY = true) ∧
    (∃ m : Mach, fon m aonBase R.AON_MODECTL_BUSY = false ∧ m.boot.holdUp = false ∧ opMode m = 3 ∧ bothUp m = true) ∧
    (∃ m : Mach, fon m aonBase R.AON_MODECTL_BUSY = false ∧ m.boot.holdUp = false ∧ opMode m ≠ 3) ∧
    (∃ m : Mach, fon m aonBase R.AON_MODECTL_BUSY = false ∧ m.boot.holdUp = false ∧ opMode m = 1 ∧ bothUp m = true ∧ m.twin.returning = none ∧
      m.twin.stopping = none ∧ m.twin.entering = false) ∧
    (∃ m : Mach, fon m aonBase R.AON_MODECTL_BUSY = false ∧ m.boot.holdUp = false ∧ bothUp m = false) ∧
    (∃ m : Mach, fon m aonBase R.AON_MODECTL_BUSY = false ∧ m.boot.holdUp = false ∧ opMode m = 1 ∧ bothUp m = true ∧ m.twin.returning = none ∧
      m.twin.stopping = none ∧ m.twin.entering = false) ∧
    (∃ m : Mach, fon m aonBase R.AON_MODECTL_BUSY = false ∧ m.boot.holdUp = false ∧ bothUp m = false) ∧
    (∃ _kept : Nat, ∃ sd : Nat, ∃ m : Mach, m.twin.stopping = some sd ∧ sd < 2 ∧ opMode m = 1 ∧ m.twin.returning = none) ∧
    (∃ _kept : Nat, ∃ m : Mach, m.twin.stopping = none) ∧
    (∃ m : Mach, fon m aonBase R.AON_MODECTL_BUSY = false ∧ m.boot.holdUp = false ∧ opMode m = 2 ∧ sideUp m 0 = true ∧ sideUp m 1 = false ∧
      bothUp m = false ∧ m.twin.returning = none ∧ m.twin.entering = false ∧ ((List.range 4).any fun i => stackRetired m (4 + i)) = false ∧
      fget m (twnBase 0) R.TWN_LOG_STATE = 0) ∧
    (∃ m : Mach, fon m aonBase R.AON_MODECTL_BUSY = false ∧ m.boot.holdUp = false ∧ opMode m = 2 ∧ sideUp m 0 = false ∧ sideUp m 1 = true ∧
      bothUp m = false ∧ m.twin.returning = none ∧ m.twin.entering = false ∧ ((List.range 4).any fun i => stackRetired m i) = false ∧
      fget m (twnBase 1) R.TWN_LOG_STATE = 0) ∧
    (∃ m : Mach, fon m aonBase R.AON_MODECTL_BUSY = false ∧ m.boot.holdUp = false ∧ opMode m = 2 ∧ bothUp m = false ∧ m.twin.returning = none ∧
      m.twin.entering = false) ∧
    (∃ r t : Nat, ∃ m : Mach, m.twin.returning = some r ∧ t = 1 - r ∧ r < 2 ∧ fget m (twnBase t) R.TWN_REINT_STEP = 5 ∧
      fget m (twnBase t) R.TWN_GAUGE_LINES < fget m (twnBase t) R.TWN_HIMARK_MARK * 16384 ∧ m.twin.untwinned = [] ∧ opMode m = 2) ∧
    (∃ r t : Nat, ∃ m : Mach, m.twin.returning = some r ∧ t = 1 - r ∧ fget m (twnBase t) R.TWN_REINT_STEP = 3) ∧
    (∃ r t : Nat, ∃ m : Mach, m.twin.returning = some r ∧ t = 1 - r ∧ fget m (twnBase t) R.TWN_REINT_STEP = 2) ∧
    (∃ r t : Nat, ∃ m : Mach, m.twin.returning = some r ∧ t = 1 - r ∧ r < 2 ∧ fget m (twnBase t) R.TWN_REINT_STEP = 4 ∧ opMode m = 2 ∧
      fget m (twnBase t) R.TWN_GAUGE_LINES ≤ 201326080) ∧
    (∃ m : Mach, m.twin.returning = none) ∧
    (∃ r t : Nat, ∃ m : Mach, m.twin.returning = some r ∧ t = 1 - r ∧ fget m (twnBase t) R.TWN_REINT_STEP = 6 ∧ m.twin.soakBad = true) ∧
    (∃ r t : Nat, ∃ m : Mach, m.twin.returning = some r ∧ t = 1 - r ∧ fget m (twnBase t) R.TWN_REINT_STEP = 6 ∧ m.twin.soakBad = false) ∧
    (∃ r t : Nat, ∃ m : Mach, m.twin.returning = some r ∧ t = 1 - r ∧ fget m (twnBase t) R.TWN_REINT_STEP = 7 ∧ m.twin.holding = none) ∧
    (∃ r t k : Nat, ∃ m : Mach, m.twin.returning = some r ∧ t = 1 - r ∧ fget m (twnBase t) R.TWN_REINT_STEP = 7 ∧ m.twin.holding = some k ∧
      pairBusy m r m.twin.handed = false ∧ m.twin.handed < 31) ∧
    (∃ r t k : Nat, ∃ m : Mach, m.twin.returning = some r ∧ t = 1 - r ∧ r < 2 ∧ fget m (twnBase t) R.TWN_REINT_STEP = 7 ∧ m.twin.holding = some k ∧
      pairBusy m r m.twin.handed = false ∧ m.twin.handed = 31 ∧ opMode m = 2) ∧
    (∃ m : Mach, fon m aonBase R.AON_MODECTL_BUSY = false ∧ m.boot.holdUp = false ∧ opMode m = 3) ∧
    (∃ m : Mach, fon m aonBase R.AON_MODECTL_BUSY = false ∧ m.boot.holdUp = false ∧ opMode m = 1) ∧
    (∃ m : Mach, fon m aonBase R.AON_MODECTL_BUSY = false ∧ m.boot.holdUp = false ∧ opMode m = 4) :=
  ⟨⟨wOn, by decide +kernel⟩,
    ⟨fset wOn aonBase R.AON_OPMODE_MODE 4, by decide +kernel⟩,
    ⟨1, fset ((fun m : Mach => { m with twin := { m.twin with returning := some 1 } }) (wOn)) aonBase R.AON_MODECTL_BUSY 1, by decide +kernel⟩,
    ⟨fset wOn aonBase R.AON_MODECTL_BUSY 1, by decide +kernel⟩,
    ⟨fset wOn aonBase R.AON_OPMODE_MODE 3, by decide +kernel⟩,
    ⟨wOn, by decide +kernel⟩,
    ⟨wOn, by decide +kernel⟩,
    ⟨fset wOn aonBase R.AON_OPMODE_SIDE_UP 1, by decide +kernel⟩,
    ⟨wOn, by decide +kernel⟩,
    ⟨fset wOn aonBase R.AON_OPMODE_SIDE_UP 1, by decide +kernel⟩,
    ⟨7, 1, (fun m : Mach => { m with twin := { m.twin with stopping := some 1 } }) (wOn), by decide +kernel⟩,
    ⟨7, wOn, by decide +kernel⟩,
    ⟨wSet [(aonBase, R.AON_OPMODE_SIDE_UP, 1), (aonBase, R.AON_OPMODE_MODE, 2)] wOn, by decide +kernel⟩,
    ⟨wSet [(aonBase, R.AON_OPMODE_SIDE_UP, 2), (aonBase, R.AON_OPMODE_MODE, 2)] wOn, by decide +kernel⟩,
    ⟨wSet [(aonBase, R.AON_OPMODE_SIDE_UP, 1), (aonBase, R.AON_OPMODE_MODE, 2)] wOn, by decide +kernel⟩,
    ⟨1, 0, wSet [(twnBase 0, R.TWN_REINT_STEP, 5), (aonBase, R.AON_OPMODE_MODE, 2), (aonBase, R.AON_OPMODE_SIDE_UP, 1)] ((fun m : Mach => { m with twin := { m.twin with returning := some 1 } }) (wOn)), by decide +kernel⟩,
    ⟨1, 0, wSet [(twnBase 0, R.TWN_REINT_STEP, 3), (aonBase, R.AON_OPMODE_MODE, 2), (aonBase, R.AON_OPMODE_SIDE_UP, 1)] ((fun m : Mach => { m with twin := { m.twin with returning := some 1 } }) (wOn)), by decide +kernel⟩,
    ⟨1, 0, wSet [(twnBase 0, R.TWN_REINT_STEP, 2), (aonBase, R.AON_OPMODE_MODE, 2), (aonBase, R.AON_OPMODE_SIDE_UP, 1)] ((fun m : Mach => { m with twin := { m.twin with returning := some 1 } }) (wOn)), by decide +kernel⟩,
    ⟨1, 0, wSet [(twnBase 0, R.TWN_REINT_STEP, 4), (aonBase, R.AON_OPMODE_MODE, 2), (aonBase, R.AON_OPMODE_SIDE_UP, 1)] ((fun m : Mach => { m with twin := { m.twin with returning := some 1 } }) (wOn)), by decide +kernel⟩,
    ⟨wOn, by decide +kernel⟩,
    ⟨1, 0, fset ((fun m : Mach => { m with twin := { m.twin with returning := some 1, soakBad := true } }) (wOn)) (twnBase 0) R.TWN_REINT_STEP 6, by decide +kernel⟩,
    ⟨1, 0, fset ((fun m : Mach => { m with twin := { m.twin with returning := some 1 } }) (wOn)) (twnBase 0) R.TWN_REINT_STEP 6, by decide +kernel⟩,
    ⟨1, 0, fset ((fun m : Mach => { m with twin := { m.twin with returning := some 1 } }) (wOn)) (twnBase 0) R.TWN_REINT_STEP 7, by decide +kernel⟩,
    ⟨1, 0, 0, fset ((fun m : Mach => { m with twin := { m.twin with returning := some 1, holding := some 0 } }) (wOn)) (twnBase 0) R.TWN_REINT_STEP 7, by decide +kernel⟩,
    ⟨1, 0, 31, wSet [(twnBase 0, R.TWN_REINT_STEP, 7), (aonBase, R.AON_OPMODE_MODE, 2)] ((fun m : Mach => { m with twin := { m.twin with returning := some 1, holding := some 31, handed := 31 } }) (wOn)), by decide +kernel⟩,
    ⟨fset wOn aonBase R.AON_OPMODE_MODE 3, by decide +kernel⟩,
    ⟨wOn, by decide +kernel⟩,
    ⟨fset wOn aonBase R.AON_OPMODE_MODE 4, by decide +kernel⟩⟩

theorem witness_levelling_and_placement_loops :
    (∃ sd : Fin 2, ∃ m : Mach, fon m (lvlBase sd) R.LVL_CTL_EN = false) ∧
    (∃ sd : Fin 2, ∃ m : Mach, fon m (lvlBase sd) R.LVL_CTL_EN = true ∧ sideUp m sd = true ∧ rekeying m sd = true) ∧
    (∃ sd : Fin 2, ∃ m : Mach, fon m (lvlBase sd) R.LVL_CTL_EN = true ∧ sideUp m sd = true ∧ rekeying m sd = false ∧ allServing m sd = false) ∧
    (∃ sd : Fin 2, ∃ c : Fin 128, ∃ n s : Nat, ∃ m : Mach, fon m (lvlBase sd) R.LVL_CTL_EN = true ∧ sideUp m sd = true ∧ rekeying m sd = false ∧
      allServing m sd = true ∧ m.loops.force = [] ∧ ((∀ d : Fin 128, sget 0 m.loops.chan (sd.val * 128 + d) ≤ sget 0 m.loops.chan (sd.val * 128 +
      c))) ∧ n = sget 0 m.loops.chan (sd.val * 128 + c) ∧ s = ((List.range 128).map fun d => sget 0 m.loops.chan (sd.val * 128 + d)).sum ∧
      s * fget m (lvlBase sd) R.LVL_CTL_RATIO ≤ n * 8 * 128 ∧ 5 * fget m (lvlBase sd) R.LVL_CTL_WINDOW * fget m (lvlBase sd) R.LVL_CTL_UTIL ≤ n ∧
      fget m (lvlBase sd) R.LVL_STATUS_RUNWIN + 1 < fget m (lvlBase sd) R.LVL_CTL_SUSTAIN) ∧
    (∃ sd : Fin 2, ∃ c : Fin 128, ∃ n s : Nat, ∃ m : Mach, fon m (lvlBase sd) R.LVL_CTL_EN = true ∧ sideUp m sd = true ∧ rekeying m sd = false ∧
      allServing m sd = true ∧ m.loops.force = [] ∧ ((∀ d : Fin 128, sget 0 m.loops.chan (sd.val * 128 + d) ≤ sget 0 m.loops.chan (sd.val * 128 +
      c))) ∧ n = sget 0 m.loops.chan (sd.val * 128 + c) ∧ s = ((List.range 128).map fun d => sget 0 m.loops.chan (sd.val * 128 + d)).sum ∧
      (5 * fget m (lvlBase sd) R.LVL_CTL_WINDOW * fget m (lvlBase sd) R.LVL_CTL_UTIL > n ∨ n * 8 * 128 < s * fget m (lvlBase sd) R.LVL_CTL_RATIO) ∧
      0 < fget m (lvlBase sd) R.LVL_CTL_SUSTAIN) ∧
    (∃ sd : Fin 2, ∃ c : Fin 128, ∃ n s : Nat, ∃ m : Mach, fon m (lvlBase sd) R.LVL_CTL_EN = true ∧ sideUp m sd = true ∧ rekeying m sd = false ∧
      allServing m sd = true ∧ m.loops.force = [] ∧ ((∀ d : Fin 128, sget 0 m.loops.chan (sd.val * 128 + d) ≤ sget 0 m.loops.chan (sd.val * 128 +
      c))) ∧ n = sget 0 m.loops.chan (sd.val * 128 + c) ∧ s = ((List.range 128).map fun d => sget 0 m.loops.chan (sd.val * 128 + d)).sum ∧
      s * fget m (lvlBase sd) R.LVL_CTL_RATIO ≤ n * 8 * 128 ∧ 5 * fget m (lvlBase sd) R.LVL_CTL_WINDOW * fget m (lvlBase sd) R.LVL_CTL_UTIL ≤ n ∧
      fget m (lvlBase sd) R.LVL_CTL_SUSTAIN ≤ fget m (lvlBase sd) R.LVL_STATUS_RUNWIN + 1 ∧ fget m (lvlBase sd) R.LVL_CTL_MININT ≤ sinceRekey m sd) ∧
    (∃ sd : Fin 2, ∃ m : Mach, reach m (lvlBase sd + 0x40) = .open_ ∧ rekeying m sd = false ∧ m.loops.force = []) ∧
    (∃ sd : Fin 2, ∃ m : Mach, reach m (lvlBase sd + 0x40) = .open_ ∧ rekeying m sd = true) ∧
    (∃ sd : Fin 2, ∃ _c : Fin 128, ∃ m : Mach, rekeying m sd = false) ∧
    (∃ sd : Fin 2, ∃ c : Fin 128, ∃ n io : Nat, ∃ s : Slot, ∃ i tag : Nat, ∃ m : Mach, rekeying m sd = true ∧ m.twin.entering = false ∧
      rekeyPos m sd c = n ∧ n + 1 < 2 ^ 24 ∧ io = n / 32 * 2 ^ 12 + c * 32 + n % 32 ∧ usable m sd io = true ∧ slotAt m sd io = some s ∧
      s.epoch = epochOf m sd ∧ (i, tag) = slotIdx m sd (1 - s.epoch) (slotLine m sd io s) ∧ i ≠ io ∧ usable m sd i = true ∧ slotAt m sd i = none) ∧
    (∃ sd : Fin 2, ∃ c : Fin 128, ∃ n io : Nat, ∃ s : Slot, ∃ i tag : Nat, ∃ t : Slot, ∃ m : Mach, rekeying m sd = true ∧ m.twin.entering = false ∧
      rekeyPos m sd c = n ∧ n + 1 < 2 ^ 24 ∧ io = n / 32 * 2 ^ 12 + c * 32 + n % 32 ∧ usable m sd io = true ∧ slotAt m sd io = some s ∧
      s.epoch = epochOf m sd ∧ s.st = .clean ∧ (i, tag) = slotIdx m sd (1 - s.epoch) (slotLine m sd io s) ∧ i ≠ io ∧ slotAt m sd i = some t ∧
      t.st ≠ .clean) ∧
    (∃ _sd : Fin 2, ∃ _n : Nat, ∃ m : Mach, m.sampleQ = []) ∧
    (∃ sd : Fin 2, ∃ l t : Nat, ∃ m : Mach, m.sampleQ = [(sd.val, l)] ∧ t = trackSide m l ∧ fon m (lvlBase t) R.PLC_CTL_EN = true ∧ m.loops.hot = []) ∧
    (∃ sd : Fin 2, ∃ l t i n hd : Nat, ∃ m : Mach, m.sampleQ = [(sd.val, l)] ∧ t = trackSide m l ∧ fon m (lvlBase t) R.PLC_CTL_EN = true ∧
      m.loops.hot = [(t * 16384 + i, ⟨l, n, hd⟩)] ∧ i < 16384 ∧ n < 65535) ∧
    (∃ sd : Fin 2, ∃ _loads : Line, ∃ m : Mach, fon m (lvlBase sd) R.PLC_CTL_EN = false) ∧
    (∃ sd : Fin 2, ∃ _loads : Line, ∃ m : Mach, fon m (lvlBase sd) R.PLC_CTL_EN = true ∧ sideUp m sd = true ∧ m.loops.hot = []) ∧
    (∃ sd : Fin 2, ∃ loads : Line, ∃ h c l n : Nat, ∃ m : Mach, fon m (lvlBase sd) R.PLC_CTL_EN = true ∧ sideUp m sd = true ∧
      fget m (lvlBase sd) R.PLC_CTL_PROPMAX = 1 ∧ ((List.range 32).filter fun p => roleOf m p == 2) = [h, c] ∧
      fget m (lvlBase sd) R.PLC_CTL_PORT_HI * 10 ≤ loadOf loads h ∧ loadOf loads c ≤ fget m (lvlBase sd) R.PLC_CTL_PORT_LO * 10 ∧
      loadOf loads c < loadOf loads h ∧ bitOf (fget m (lvlBase sd) R.PLC_CTL2_DEST) h = false ∧
      bitOf (fget m (lvlBase sd) R.PLC_CTL2_DEST) c = true ∧ memState m c = 0 ∧ m.loops.hot = [(sd.val * 16384, ⟨l, n, 1⟩)] ∧
      fget m (lvlBase sd) R.PLC_CTL_MINHOT ≤ n / 2 ∧ plcV (plcGet m sd l) = true ∧ plcMig (plcGet m sd l) = false ∧ plcM2 (plcGet m sd l) = false ∧
      (plcLoc1 (plcGet m sd l)).1 = h ∧ m.loops.props = []) ∧
    (∃ sd : Fin 2, ∃ x : Proposal, ∃ rest : List Proposal, ∃ m : Mach, reach m (lvlBase sd + 0x120) = .open_ ∧ m.loops.props = x :: rest ∧
      x.sd = sd.val) ∧
    (∃ sd : Fin 2, ∃ t : Fin 16, ∃ _plot : BitVec 27, ∃ m : Mach, reach m (lvlBase sd + 0x400 + 16 * t) = .open_ ∧
      fon m (lvlBase sd + 16 * t) R.PLC_MIGT_EN = false) ∧
    (∃ sd : Fin 2, ∃ t : Fin 16, ∃ _plot : BitVec 27, ∃ m : Mach, reach m (lvlBase sd + 0x400 + 16 * t) = .open_ ∧
      fon m (lvlBase sd + 16 * t) R.PLC_MIGT_EN = true) ∧
    (∃ sd : Fin 2, ∃ t : Fin 16, ∃ _hold : Bool, ∃ m : Mach, reach m (lvlBase sd + 0x400 + 16 * t) = .open_) ∧
    (∃ sd : Fin 2, ∃ t : Fin 16, ∃ m : Mach, fon m (lvlBase sd + 16 * t) R.PLC_MIGT_HOLD = true) ∧
    (∃ sd : Fin 2, ∃ t : Fin 16, ∃ m : Mach, fon m (lvlBase sd + 16 * t) R.PLC_MIGT_HOLD = false) :=
  ⟨⟨0, fset wOn (lvlBase 0) R.LVL_CTL_EN 0, by decide +kernel⟩,
    ⟨0, wRek, by decide +kernel⟩,
    ⟨0, wOn, by decide +kernel⟩,
    ⟨0, 5, 40000, 40000, (fun m : Mach => { m with loops := { m.loops with chan := [(5, 40000)] } }) (wLvl [(R.LVL_STATUS_STATE, 0)]), by decide +kernel, by decide +kernel, by decide +kernel, by decide +kernel, by decide +kernel, by decide +kernel, by decide +kernel, by decide +kernel, by decide +kernel, by decide +kernel, by decide +kernel⟩,
    ⟨0, 5, 0, 0, wLvl [(R.LVL_STATUS_STATE, 0)], by decide +kernel⟩,
    ⟨0, 5, 40000, 40000, (fun m : Mach => { m with timeUs := 20000000 }) ((fun m : Mach => { m with loops := { m.loops with chan := [(5, 40000)] } }) (wLvl [(R.LVL_STATUS_STATE, 0), (R.LVL_STATUS_RUNWIN, 63)])), by decide +kernel⟩,
    ⟨0, wRsv, by decide +kernel⟩,
    ⟨0, wRek, by decide +kernel⟩,
    ⟨0, 0, wRsv, by decide +kernel⟩,
    ⟨0, 0, 0, 0, ⟨0,.clean,0,9⟩, ((slotIdx wRek2 0 1 (slotLine wRek2 0 0 ⟨0, .clean, 0, 9⟩)).1), ((slotIdx wRek2 0 1 (slotLine wRek2 0 0 ⟨0, .clean, 0, 9⟩)).2), wRek2, by decide +kernel⟩,
    ⟨0, 0, 0, 0, ⟨0,.clean,0,9⟩, ((slotIdx wRek2 0 1 (slotLine wRek2 0 0 ⟨0, .clean, 0, 9⟩)).1), ((slotIdx wRek2 0 1 (slotLine wRek2 0 0 ⟨0, .clean, 0, 9⟩)).2), ⟨7,.dirty,1,9⟩, setSlot wRek2 0 (slotIdx wRek2 0 1 (slotLine wRek2 0 0 ⟨0, .clean, 0, 9⟩)).1 (some ⟨7, .dirty, 1, 9⟩), by decide +kernel⟩,
    ⟨0, 0, wOn, by decide +kernel⟩,
    ⟨0, 6, 0, { wOn with sampleQ := [(0, 6)] }, by decide +kernel⟩,
    ⟨0, 6, 0, 3, 9, 2, { wOn with sampleQ := [(0, 6)], loops := { wOn.loops with hot := [(3, ⟨6, 9, 2⟩)] } }, by decide +kernel⟩,
    ⟨0, 5, fset wOn (lvlBase 0) R.PLC_CTL_EN 0, by decide +kernel⟩,
    ⟨0, (2^128*77), fset wOn (lvlBase 0) R.PLC_CTL_EN 1, by decide +kernel⟩,
    ⟨0, (900*2^128), 8, 9, 0, 100, wTick, by decide +kernel⟩,
    ⟨0, ⟨0,5,8,9,70,0⟩, [], { wOn with loops := { wOn.loops with props := [⟨0, 5, 8, 9, 70, 0⟩] } }, by decide +kernel⟩,
    ⟨0, 2, 77, wOn, by decide +kernel⟩,
    ⟨0, 2, 77, fset wOn (lvlBase 0 + 16 * 2) R.PLC_MIGT_EN 1, by decide +kernel⟩,
    ⟨0, 2, true, wOn, by decide +kernel⟩,
    ⟨0, 2, fset wOn (lvlBase 0 + 16 * 2) R.PLC_MIGT_HOLD 1, by decide +kernel⟩,
    ⟨0, 2, wOn, by decide +kernel⟩⟩

theorem witness_range_operations :
    (∃ n : Fin 8, ∃ r : RangeOp, ∃ k : Nat, ∃ ls : List Nat, ∃ m : Mach, m.eng.ranges = [r] ∧ r.n = n.val ∧ r.ended = false ∧ r.toSend = [] ∧
      r.open_ = [] ∧ r.stop = false ∧ r.begun < r.lines ∧ k = min 64 (r.lines - r.begun) ∧ ls = (List.range k).map (fun i => r.first + r.begun + i)) ∧
    (∃ n : Fin 8, ∃ r : RangeOp, ∃ m : Mach, m.eng.ranges = [r] ∧ r.n = n.val ∧ r.ended = false ∧ r.toSend = [] ∧ r.open_ = [] ∧ r.stop = true) ∧
    (∃ n : Fin 8, ∃ i : Fin 64, ∃ r : RangeOp, ∃ l : Nat, ∃ m : Mach, m.eng.ranges = [r] ∧ r.n = n.val ∧ r.toSend[i.val]? = some l ∧
      plcV (plcGet m (homeSlice m l / 32) (plotOf l)) = false) ∧
    (∃ n : Fin 8, ∃ i : Fin 64, ∃ r : RangeOp, ∃ l h : Nat, ∃ m : Mach, m.eng.ranges = [r] ∧ r.n = n.val ∧ r.toSend[i.val]? = some l ∧ r.op = 0 ∧
      h = homeSlice m l ∧ plcV (plcGet m (h / 32) (plotOf l)) = true ∧ m.home.mwq = [] ∧ m.home.mshrs = [] ∧ m.home.recalls = [] ∧ m.home.vb = [] ∧
      mshrOf (pumpAll ((fun y : Mach =>
      { y with home := { y.home with mshrs := [freshMshr h ({ op := .maint .clean none, src := .range n l, pln := l, data := 0, mask := 0, poison := false, attr := some (attrOf m l) } : Req)] } })
      (count { m with eng := { m.eng with ranges := [{ r with toSend := r.toSend.eraseIdx i }] } } (hsBase h) 0x01)) h l) h l = none) ∧
    (∃ n : Fin 8, ∃ d : RangeDone, ∃ rest : List RangeDone, ∃ r : RangeOp, ∃ os : List Nat, ∃ f : Nat, ∃ m : Mach, m.eng.rangeQ = d :: rest ∧
      d.n = n.val ∧ m.eng.ranges = [r] ∧ r.n = n.val ∧ r.open_ = d.pln :: os ∧ d.status = 0 ∧ r.status = 0 ∧ f = r.finished + 1 ∧ f < r.lines) ∧
    (∃ n : Fin 8, ∃ d : RangeDone, ∃ rest : List RangeDone, ∃ r : RangeOp, ∃ m : Mach, m.eng.rangeQ = d :: rest ∧ d.n = n.val ∧
      m.eng.ranges = [r] ∧ r.n = n.val ∧ r.open_ = [d.pln] ∧ d.status = 4 ∧ r.status = 0 ∧ r.finished + 1 = r.lines) ∧
    (∃ n : Fin 8, ∃ r : RangeOp, ∃ m : Mach, reach m (rgeBase n + 0x58) = .open_ ∧ m.eng.ranges = [r] ∧ r.n = n.val ∧ r.ended = false) ∧
    (∃ p : Fin 32, ∃ grp : BitVec 40, ∃ _expired : Bool, ∃ g h : Nat, ∃ m : Mach, g = grp.toNat ∧
      m.ports.blk = [⟨g, p.val, 4 * g, h, true⟩, ⟨g, p.val, 4 * g + 1, h, true⟩, ⟨g, p.val, 4 * g + 2, h, true⟩, ⟨g, p.val, 4 * g + 3, h, true⟩] ∧
      snpsOut m p + 4 ≤ 1024) ∧
    (∃ p : Fin 32, ∃ grp : BitVec 40, ∃ g l h : Nat, ∃ m : Mach, g = grp.toNat ∧ m.ports.blk = [⟨g, p.val, l, h, true⟩]) ∧
    (∃ p : Fin 32, ∃ grp : BitVec 40, ∃ g l h : Nat, ∃ m : Mach, g = grp.toNat ∧ m.ports.blk = [⟨g, p.val, l, h, true⟩]) :=
  ⟨⟨0, (wRange 0 0 200 0 [] [] 0), 64, (List.range 64), wRg (wRange 0 0 200 0 [] [] 0) wOn, by decide +kernel⟩,
    ⟨0, ⟨0,0,0,200,64,[],[],64,0,true,false⟩, wRg ⟨0, 0, 0, 200, 64, [], [], 64, 0, true, false⟩ wOn, by decide +kernel⟩,
    ⟨0, 0, (wRange 0 0x8000 2 2 [0x8000] [0x8000] 1), 0x8000, wRg (wRange 0 0x8000 2 2 [0x8000] [0x8000] 1) wOn, by decide +kernel⟩,
    ⟨0, 0, (wRange 0 0 2 2 [0] [0] 1), 0, 0, fset (wRg (wRange 0 0 2 2 [0] [0] 1) wOn) (hsBase 0) R.HS_STATUS_STATE 1, by decide +kernel⟩,
    ⟨0, ⟨0,5,0⟩, [], (wRange 0 5 2 2 [] [5,6] 0), [6], 1, (fun m : Mach => { m with eng := { m.eng with rangeQ := [⟨0, 5, 0⟩] } }) (wRg (wRange 0 5 2 2 [] [5, 6] 0) wOn), by decide +kernel⟩,
    ⟨0, ⟨0,5,4⟩, [], (wRange 0 4 2 2 [] [5] 1), (fun m : Mach => { m with eng := { m.eng with rangeQ := [⟨0, 5, 4⟩] } }) (wRg (wRange 0 4 2 2 [] [5] 1) wOn), by decide +kernel⟩,
    ⟨0, (wRange 0 0 200 0 [] [] 0), wRg (wRange 0 0 200 0 [] [] 0) wOn, by decide +kernel⟩,
    ⟨0, 7, false, 7, 3, { wOn with ports := { wOn.ports with blk := [⟨7, 0, 28, 3, true⟩, ⟨7, 0, 28 + 1, 3, true⟩, ⟨7, 0, 28 + 2, 3, true⟩, ⟨7, 0, 28 + 3, 3, true⟩] } }, by decide +kernel⟩,
    ⟨0, 7, 7, 28, 3, { wOn with ports := { wOn.ports with blk := [⟨7, 0, 28, 3, true⟩] } }, by decide +kernel⟩,
    ⟨0, 7, 7, 28, 3, { wOn with ports := { wOn.ports with blk := [⟨7, 0, 28, 3, true⟩] } }, by decide +kernel⟩⟩

theorem witness_flume_steps_and_cache_control :
    (∃ c : Fin 64, ∃ f : FlumeOp, ∃ src dst : Nat, ∃ m : Mach, m.eng.flumes = [f] ∧ f.c = c.val ∧ f.ended = false ∧ f.stop = false ∧
      fget m (fcBase c) R.FC_STATUS_STATE = 1 ∧ f.begun < f.steps ∧ f.run = [] ∧ f.kind = 0 ∧ src = f.src + 4096 * f.begun ∧
      dst = f.dst + 4096 * f.begun ∧ plcV (plcGet m (c / 32) (src / 0x200000)) = false) ∧
    (∃ c : Fin 64, ∃ f : FlumeOp, ∃ w : Nat, ∃ m : Mach, m.eng.flumes = [f] ∧ f.c = c.val ∧ f.ended = false ∧ f.stop = false ∧
      fget m (fcBase c) R.FC_STATUS_STATE = 1 ∧ f.begun < f.steps ∧ f.run = [] ∧ f.kind = 2 ∧ w = stepWord f.dst f.begun ∧
      memState m (wordPort w) ≠ 0) ∧
    (∃ c : Fin 64, ∃ f : FlumeOp, ∃ src dst : Nat, ∃ m : Mach, m.eng.flumes = [f] ∧ f.c = c.val ∧ f.ended = false ∧ f.stop = false ∧
      fget m (fcBase c) R.FC_STATUS_STATE = 1 ∧ f.begun < f.steps ∧ f.run = [] ∧ f.kind = 0 ∧ src = f.src + 4096 * f.begun ∧
      dst = f.dst + 4096 * f.begun ∧ plcV (plcGet m (c / 32) (src / 0x200000)) = true ∧ plcV (plcGet m (c / 32) (dst / 0x200000)) = true) ∧
    (∃ c : Fin 64, ∃ f : FlumeOp, ∃ m : Mach, m.eng.flumes = [f] ∧ f.c = c.val ∧ fget m (fcBase c) R.FC_STATUS_STATE ≠ 1) ∧
    (∃ c : Fin 64, ∃ f : FlumeOp, ∃ s : FlumeStep, ∃ sd w t b : Nat, ∃ m : Mach, m.eng.flumes = [f] ∧ f.c = c.val ∧ f.kind = 1 ∧ f.run = [s] ∧
      s.clears = [sd] ∧ w = stepWord f.src s.idx ∧ armedFor m sd (bitsOf w 37 27) = some t ∧ b = lvlBase sd + 64 * t + 8 * (bitsOf w 0 9 / 64)) ∧
    (∃ c : Fin 64, ∃ f : FlumeOp, ∃ k g : Nat, ∃ rest : List FlumeStep, ∃ m : Mach, m.eng.flumes = [f] ∧ f.c = c.val ∧
      f.run = ⟨k, g, [], [], []⟩ :: rest ∧ f.stop = false ∧ f.finished + 1 < f.steps) ∧
    (∃ c : Fin 64, ∃ f : FlumeOp, ∃ k g : Nat, ∃ m : Mach, m.eng.flumes = [f] ∧ f.c = c.val ∧ f.run = [⟨k, g, [], [], []⟩] ∧
      f.finished + 1 = f.steps ∧ f.status = 0) ∧
    (∃ c : Fin 64, ∃ f : FlumeOp, ∃ s : FlumeStep, ∃ rest : List FlumeStep, ∃ m : Mach, m.eng.flumes = [f] ∧ f.c = c.val ∧ f.run = s :: rest ∧
      fget m (fcgBase (c / 32)) R.FC_GCTL_HALTWAIT ≠ 0) ∧
    (∃ c : Fin 64, ∃ m : Mach, reach m (fcBase c + 0x18) = .open_ ∧ fget m (fcBase c) R.FC_STATUS_STATE = 2) ∧
    (∃ c : Fin 64, ∃ f : FlumeOp, ∃ s : FlumeStep, ∃ rest : List FlumeStep, ∃ m : Mach, reach m (fcBase c + 0x18) = .open_ ∧ m.eng.flumes = [f] ∧
      f.c = c.val ∧ f.ended = false ∧ fget m (fcBase c) R.FC_STATUS_STATE = 1 ∧ f.run = s :: rest) ∧
    (∃ c : Fin 64, ∃ f : FlumeOp, ∃ m : Mach, m.eng.flumes = [f] ∧ f.c = c.val ∧ fget m (fcBase c) R.FC_STATUS_STATE = 2) ∧
    (∃ c : Fin 64, ∃ m : Mach, fget m (fcBase c) R.FC_STATUS_STATE ≠ 2) ∧
    (∃ sd : Fin 2, ∃ m : Mach, reach m (rgeBase (4 * sd) + 0x800) = .open_ ∧ levelBusy m sd = false ∧ opMode m ≠ 3 ∧
      fget m (cctlBase sd) R.RGE_CCTL_OFF = 0 ∧ levelOf m sd .headgate = 0 ∧ levelOf m sd .reservoir = 0 ∧ levelOf m sd .east = 0) ∧
    (∃ sd : Fin 2, ∃ m : Mach, reach m (rgeBase (4 * sd) + 0x800) = .open_ ∧ levelBusy m sd = false ∧ opMode m ≠ 3 ∧
      fget m (cctlBase sd) R.RGE_CCTL_OFF = 0 ∧ levelOf m sd .headgate = 0 ∧ levelOf m sd .reservoir = 0 ∧ levelOf m sd .east = 0 ∧
      (∀ c ∈ sideSlots m sd, c.2.st = .clean)) ∧
    (∃ sd : Fin 2, ∃ m : Mach, reach m (rgeBase (4 * sd) + 0x800) = .open_ ∧ levelBusy m sd = false ∧ opMode m ≠ 3 ∧
      fget m (cctlBase sd) R.RGE_CCTL_OFF = 0 ∧ levelOf m sd .headgate = 0 ∧ levelOf m sd .reservoir = 0 ∧ levelOf m sd .east = 0) ∧
    (∃ sd : Fin 2, ∃ m : Mach, reach m (rgeBase (4 * sd) + 0x800) = .open_ ∧ levelBusy m sd = false ∧ opMode m ≠ 3 ∧
      fget m (cctlBase sd) R.RGE_CCTL_OFF = 1 ∧ levelOf m sd .headgate = 2 ∧ levelOf m sd .reservoir = 0 ∧ levelOf m sd .east = 0) ∧
    (∃ sd : Fin 2, ∃ m : Mach, reach m (rgeBase (4 * sd) + 0x800) = .open_ ∧ levelBusy m sd = false ∧ opMode m ≠ 3 ∧
      fget m (cctlBase sd) R.RGE_CCTL_OFF = 2 ∧ levelOf m sd .headgate = 0 ∧ levelOf m sd .reservoir = 2 ∧ levelOf m sd .east = 0) ∧
    (∃ sd : Fin 2, ∃ m : Mach, reach m (rgeBase (4 * sd) + 0x800) = .open_ ∧ levelBusy m sd = false ∧ opMode m ≠ 3 ∧
      fget m (cctlBase sd) R.RGE_CCTL_OFF = 4 ∧ levelOf m sd .headgate = 0 ∧ levelOf m sd .reservoir = 0 ∧ levelOf m sd .east = 2) ∧
    (∃ sd : Fin 2, ∃ m : Mach, reach m (rgeBase (4 * sd) + 0x800) = .open_ ∧ fget m (cctlBase sd) R.RGE_CCTL_OFF % 8 = 2) ∧
    (∃ sd : Fin 2, ∃ m : Mach, levelOf m sd .reservoir = 1 ∧ tailEmpty m sd = true ∧ sideSlots m sd = [] ∧
      fget m (cctlBase sd) R.RGE_CCTL_OFF = 2 ∧ levelOf m sd .headgate = 0 ∧ levelOf m sd .east = 0) ∧
    (∃ sd : Fin 2, ∃ l : Level, ∃ m : Mach, levelOf m sd l ≠ 1) ∧
    (∃ sd : Fin 2, ∃ m : Mach, levelOf m sd .reservoir = 3 ∧ opMode m ≠ 3 ∧ ((∀ k : Fin 4, rsvState m (4 * sd + k) = 2)) ∧
      fget m (cctlBase sd) R.RGE_CCTL_OFF = 0 ∧ levelOf m sd .headgate = 0 ∧ levelOf m sd .east = 0) ∧
    (∃ sd : Fin 2, ∃ l : Level, ∃ m : Mach, levelOf m sd l ≠ 3) :=
  ⟨⟨0, (wFl 0 2 0x10000000 0 0 [] 0), 0x10000000, 0, wFm (wFl 0 2 0x10000000 0 0 [] 0) 1, by decide +kernel⟩,
    ⟨0, (wFl 2 2 77 (3 * 2 ^ 32) 0 [] 0), (3*2^32), wFm (wFl 2 2 77 (3 * 2 ^ 32) 0 [] 0) 1, by decide +kernel⟩,
    ⟨0, (wFl 0 2 0 4096 0 [] 0), 0, 4096, wFm (wFl 0 2 0 4096 0 [] 0) 1, by decide +kernel⟩,
    ⟨0, (wFl 0 2 0 4096 0 [] 0), wFm (wFl 0 2 0 4096 0 [] 0) 2, by decide +kernel⟩,
    ⟨0, (wFl 1 2 (8*2^32) (8*2^32+16) 0 [⟨0,0,[0],[],[]⟩] 1), ⟨0,0,[0],[],[]⟩, 0, (8*2^32), 3, (lvlBase 0+192), wSet [(lvlBase 0 + 48, R.PLC_MIGT_EN, 1), (lvlBase 0 + 192, R.PLC_MIGBM_BITS, 3)] (wFm (wFl 1 2 (8 * 2 ^ 32) (8 * 2 ^ 32 + 16) 0 [⟨0, 0, [0], [], []⟩] 1) 1), by decide +kernel⟩,
    ⟨0, (wFl 0 2 0 4096 0 [⟨0,0,[],[],[]⟩] 1), 0, 0, [], wFm (wFl 0 2 0 4096 0 [⟨0, 0, [], [], []⟩] 1) 1, by decide +kernel⟩,
    ⟨0, (wFl 0 1 0 4096 0 [⟨0,0,[],[],[]⟩] 1), 0, 0, wFm (wFl 0 1 0 4096 0 [⟨0, 0, [], [], []⟩] 1) 1, by decide +kernel⟩,
    ⟨0, (wFl 0 2 0 4096 0 [⟨0,0,[],[],[]⟩] 1), ⟨0,0,[],[],[]⟩, [], fset (wFm (wFl 0 2 0 4096 0 [⟨0, 0, [], [], []⟩] 1) 1) (fcgBase 0) R.FC_GCTL_HALTWAIT 5, by decide +kernel⟩,
    ⟨0, wFm (wFl 0 2 0 4096 0 [] 0) 2, by decide +kernel⟩,
    ⟨0, (wFl 0 2 0 4096 0 [⟨0,0,[],[],[]⟩] 1), ⟨0,0,[],[],[]⟩, [], wFm (wFl 0 2 0 4096 0 [⟨0, 0, [], [], []⟩] 1) 1, by decide +kernel⟩,
    ⟨0, (wFl 0 2 0 4096 0 [] 0), wFm (wFl 0 2 0 4096 0 [] 0) 2, by decide +kernel⟩,
    ⟨0, wOn, by decide +kernel⟩,
    ⟨0, wOn, by decide +kernel⟩,
    ⟨0, wOn, by decide +kernel⟩,
    ⟨0, wOn, by decide +kernel⟩,
    ⟨0, wSet [(rgeBase 0, R.RGE_CCTL_OFF, 1), (rgeBase 0, R.RGE_CSTAT_HG, 2)] wOn, by decide +kernel⟩,
    ⟨0, wSet [(rgeBase 0, R.RGE_CCTL_OFF, 2), (rgeBase 0, R.RGE_CSTAT_RS, 2)] wRsv, by decide +kernel⟩,
    ⟨0, wSet [(rgeBase 0, R.RGE_CCTL_OFF, 4), (rgeBase 0, R.RGE_CSTAT_EAST, 2)] wOn, by decide +kernel⟩,
    ⟨0, fset wOn (rgeBase 0) R.RGE_CCTL_OFF 2, by decide +kernel⟩,
    ⟨0, wSet [(rgeBase 0, R.RGE_CCTL_OFF, 2), (rgeBase 0, R.RGE_CSTAT_RS, 1)] wRsv, by decide +kernel⟩,
    ⟨0, .headgate, wOn, by decide +kernel⟩,
    ⟨0, wSet [(rgeBase 0, R.RGE_CSTAT_RS, 3)] wRsv, by decide +kernel⟩,
    ⟨0, .headgate, wOn, by decide +kernel⟩⟩

theorem witness_network_gateways_probes_and_routes :
    (∃ sd : Fin 2, ∃ site : Fin 64, ∃ _net : Fin 4, ∃ _hdr : BitVec 128, ∃ _d0 : Word, ∃ m : Mach, ((∀ s : Fin 2, ∀ j : Fin 8, fon m (nocBase s +
      0x20 * j) R.NOC_PRBCTL_EN = false)) ∧ gwState m sd site = 0) ∧
    (∃ sd : Fin 2, ∃ site : Fin 64, ∃ _net : Fin 4, ∃ _hdr : BitVec 128, ∃ _d0 : Word, ∃ m : Mach, ((∀ s : Fin 2, ∀ j : Fin 8, fon m (nocBase s +
      0x20 * j) R.NOC_PRBCTL_EN = false)) ∧ gwState m sd site = 3) ∧
    (∃ sd : Fin 2, ∃ site : Fin 64, ∃ _net : Fin 4, ∃ hdr : BitVec 128, ∃ _d0 : Word, ∃ d : Nat, ∃ m : Mach, ((∀ s : Fin 2, ∀ j : Fin 8, fon m
      (nocBase s + 0x20 * j) R.NOC_PRBCTL_EN = false)) ∧ gwState m sd site = 1 ∧ hdrWake hdr.toNat = true ∧ siteDom sd site = some d) ∧
    (∃ sd : Fin 2, ∃ site : Fin 64, ∃ hdr : BitVec 128, ∃ _d0 : Word, ∃ m : Mach, ((∀ s : Fin 2, ∀ j : Fin 8, fon m (nocBase s + 0x20 * j)
      R.NOC_PRBCTL_EN = false)) ∧ gwState m sd site = 2 ∧ hdrVn hdr.toNat = 2) ∧
    (∃ sd : Fin 2, ∃ site : Fin 64, ∃ net : Fin 4, ∃ hdr : BitVec 128, ∃ _d0 : Word, ∃ m : Mach, ((∀ s : Fin 2, ∀ j : Fin 8, fon m (nocBase s +
      0x20 * j) R.NOC_PRBCTL_EN = false)) ∧ gwState m sd site = 2 ∧ net ≠ 0 ∧ hdrWake hdr.toNat = false) ∧
    (∃ sd : Fin 2, ∃ net : Fin 4, ∃ hdr : BitVec 128, ∃ _d0 : Word, ∃ m : Mach, ((∀ s : Fin 2, ∀ j : Fin 8, fon m (nocBase s + 0x20 * j)
      R.NOC_PRBCTL_EN = false)) ∧ gwState m sd 52 = 2 ∧ net ≠ 0 ∧ hdrWake hdr.toNat = true ∧ domSt m (10 + 6 * sd) = 4) ∧
    (∃ sd : Fin 2, ∃ site : Fin 64, ∃ net : Fin 4, ∃ _hdr : BitVec 128, ∃ _d0 : Word, ∃ m : Mach, ((∀ s : Fin 2, ∀ j : Fin 8, fon m (nocBase s +
      0x20 * j) R.NOC_PRBCTL_EN = false)) ∧ gwState m sd site = 4 ∧ net ≠ 0) ∧
    (∃ sd : Fin 2, ∃ site : Fin 64, ∃ net : Fin 4, ∃ hdr : BitVec 128, ∃ _d0 : Word, ∃ k : Fin 8, ∃ m : Mach, ((∀ s : Fin 2, ∀ j : Fin 8, probeSees
      m s j net hdr.toNat (route sd site hdr.toNat) = decide (s = sd ∧ j = k))) ∧ fon m (nocBase sd + 0x20 * k) R.NOC_PRBCTL_TRACE = false ∧
      gwState m sd site = 0) ∧
    (∃ sd : Fin 2, ∃ site : Fin 64, ∃ net : Fin 4, ∃ hdr : BitVec 128, ∃ _d0 : Word, ∃ k : Fin 8, ∃ m : Mach, ((∀ s : Fin 2, ∀ j : Fin 8, probeSees
      m s j net hdr.toNat (route sd site hdr.toNat) = decide (s = sd ∧ j = k))) ∧ fon m (nocBase sd + 0x20 * k) R.NOC_PRBCTL_TRACE = true ∧
      gwState m sd site = 0 ∧ fon m (nocBase sd) R.NOC_TRCTL_EN = true ∧ fon m (nocBase sd) R.NOC_TRCTL_DATA = false ∧ m.net.trace = []) ∧
    (∃ _sd : Fin 2, ∃ _site : Fin 64, ∃ net : Fin 4, ∃ _hdr : BitVec 128, ∃ _d0 : Word, ∃ ck : NetCheck, ∃ _m : Mach, (ck = .header ∨ (ck = .word ∧
      net ≠ 3))) ∧
    (∃ sd : Fin 2, ∃ site : Fin 64, ∃ _hdr : BitVec 128, ∃ _d0 : Word, ∃ m : Mach, ((∀ s : Fin 2, ∀ j : Fin 8, fon m (nocBase s + 0x20 * j)
      R.NOC_PRBCTL_EN = false)) ∧ gwState m sd site = 0) ∧
    (∃ sd : Fin 2, ∃ t : Fin 4, ∃ _bounced _again : BitVec 8, ∃ m : Mach, uplink m sd t = false) ∧
    (∃ sd : Fin 2, ∃ t : Fin 4, ∃ _bounced _again : BitVec 8, ∃ m : Mach, uplink m sd t = true ∧ uplink m (1 - sd) t = true ∧
      sideRuns m (1 - sd) = true) ∧
    (∃ sd : Fin 2, ∃ t : Fin 4, ∃ m : Mach, uplink m sd t = false ∧ sideRuns m sd = true ∧ bitOf (fget m (nocBase sd) R.NOC_STATUS_DETOUR) t = true) ∧
    (∃ sd : Fin 2, ∃ t : Fin 4, ∃ m : Mach, uplink m sd t = false ∧ sideRuns m sd = true ∧ bitOf (fget m (nocBase sd) R.NOC_STATUS_DETOUR) t = false) ∧
    (∃ sd : Fin 2, ∃ t : Fin 4, ∃ vn : Fin 15, ∃ m : Mach, m.net.markers = [(sd.val, t.val, vn.val)]) ∧
    (∃ sd : Fin 2, ∃ t : Fin 4, ∃ vn : Fin 15, ∃ w : Nat, ∃ m : Mach, m.net.markers = [(sd.val, t.val, vn.val), (sd.val, t.val, w)] ∧ w ≠ vn.val) ∧
    (∃ _sd : Fin 2, ∃ _t : Fin 4, ∃ _vn : Fin 15, ∃ m : Mach, m.net.markers = []) ∧
    (∃ sd : Fin 2, ∃ r : List Nat, ∃ rest : List (Nat × List Nat), ∃ m : Mach, reach m (nocBase sd + 0x930) = .open_ ∧
      m.net.trace = (sd.val, r) :: rest) :=
  ⟨⟨0, 53, 0, 0x1234, 7, fset wOn (gwBase 0 53) R.NOC_GW_STATE 0, by decide +kernel⟩,
    ⟨0, 53, 0, 0x1234, 7, fset wOn (gwBase 0 53) R.NOC_GW_STATE 3, by decide +kernel⟩,
    ⟨0, 53, 0, (2^56), 7, 6, fset wOn (gwBase 0 53) R.NOC_GW_STATE 1, by decide +kernel⟩,
    ⟨0, 53, 2, 7, fset wOn (gwBase 0 53) R.NOC_GW_STATE 2, by decide +kernel⟩,
    ⟨0, 53, 3, 2, 7, fset wOn (gwBase 0 53) R.NOC_GW_STATE 2, by decide +kernel⟩,
    ⟨0, 3, (2^56), 7, fset (fset wOn (gwBase 0 52) R.NOC_GW_STATE 2) 80 R.PWR_DOM_STATE 4, by decide +kernel⟩,
    ⟨0, 53, 3, 2, 7, fset wOn (gwBase 0 53) R.NOC_GW_STATE 4, by decide +kernel⟩,
    ⟨0, 53, 0, 0x1234, 7, 2, wProbe, by decide +kernel⟩,
    ⟨0, 53, 0, 0x1234, 7, 2, wSet [(nocBase 0 + 64, R.NOC_PRBCTL_TRACE, 1), (nocBase 0, R.NOC_TRCTL_EN, 1)] wProbe, by decide +kernel⟩,
    ⟨0, 53, 3, 0x1234, 7, .header, wOn, by decide +kernel⟩,
    ⟨0, 53, 0x1234, 7, fset wOn (gwBase 0 53) R.NOC_GW_STATE 0, by decide +kernel⟩,
    ⟨0, 1, 0, 0, wOn, by decide +kernel⟩,
    ⟨0, 1, 2, 1, wSet [(nocBase 0, R.NOC_STATUS_UPLINK, 15), (nocBase 1, R.NOC_STATUS_UPLINK, 15)] wOn, by decide +kernel⟩,
    ⟨0, 1, fset wOn (nocBase 0) R.NOC_STATUS_DETOUR 2, by decide +kernel⟩,
    ⟨0, 1, wOn, by decide +kernel⟩,
    ⟨0, 1, 5, { wOn with net := { wOn.net with markers := [(0, 1, 5)] } }, by decide +kernel⟩,
    ⟨0, 1, 5, 6, { wOn with net := { wOn.net with markers := [(0, 1, 5), (0, 1, 6)] } }, by decide +kernel⟩,
    ⟨0, 1, 5, wOn, by decide +kernel⟩,
    ⟨0, [1], [], { wOn with net := { wOn.net with trace := [(0, [1])] } }, by decide +kernel⟩⟩

theorem witness_power_clocks_and_thermal_control :
    (∃ d : Fin 26, ∃ m : Mach, domSt m d ≠ 3) ∧
    (∃ d : Fin 26, ∃ m : Mach, domSt m d = 3 ∧ fon m (8 * d) R.PWR_DOM_ABORT = false ∧ d ≠ 10 ∧ d ≠ 16 ∧ m.net.held = []) ∧
    (∃ d : Fin 26, ∃ m : Mach, domSt m d = 3 ∧ fon m (8 * d) R.PWR_DOM_ABORT = false ∧ (d = 10 ∨ d = 16) ∧ m.net.held = []) ∧
    (∃ d : Fin 26, ∃ m : Mach, domSt m d = 3 ∧ fon m (8 * d) R.PWR_DOM_ABORT = true) ∧
    (∃ d : Fin 26, ∃ m : Mach, domSt m d = 1) ∧
    (∃ d : Fin 26, ∃ m : Mach, domSt m d ≠ 1) ∧
    (∃ sd : Fin 2, ∃ m : Mach, fon m (8 * sd) R.PWR_SLEEP_EN = true ∧ fon m (8 * sd) R.PWR_SLEEP_HOLD = false ∧ clusterIdle m sd = true ∧
      domSt m (10 + 6 * sd) = 2) ∧
    (∃ sd : Fin 2, ∃ m : Mach, fon m (8 * sd) R.PWR_SLEEP_HOLD = true) ∧
    (∃ sd : Fin 2, ∃ m : Mach, domSt m (10 + 6 * sd) = 4) ∧
    (∃ sd : Fin 2, ∃ m : Mach, domSt m (10 + 6 * sd) = 2) ∧
    (∃ d : Fin 26, ∃ m : Mach, (d = 8 ∨ d = 14) ∧ domSt m d = 2 ∧ levelOf m (domSide d) .east = 1 ∧ eastDrained m (domSide d) = true) ∧
    (∃ d : Fin 26, ∃ _m : Mach, d ≠ 8 ∧ d ≠ 14) ∧
    (∃ d : Fin 26, ∃ m : Mach, (d = 8 ∨ d = 14) ∧ domSt m d = 0 ∧ levelOf m (domSide d) .east = 3) ∧
    (∃ d : Fin 26, ∃ m : Mach, domSt m d ≠ 0 ∧ domSt m d ≠ 4) ∧
    (∃ m : Mach, fon m aonBase R.CLK_OSC_OK0 = true ∧ fget m aonBase R.CLK_OSC_SEL = 0 ∧ fon m aonBase R.CLK_OSC_OK1 = true) ∧
    (∃ m : Mach, fon m aonBase R.CLK_OSC_OK1 = true ∧ fget m aonBase R.CLK_OSC_SEL = 0) ∧
    (∃ sd : Fin 2, ∃ x : BitVec 8, ∃ m : Mach, sideRuns m sd = true ∧ fget m (16 * sd) R.CLK_FAB_FNOW ≤ fcapOf m sd ∧
      x.toNat < fget m (16 * sd) R.CLK_FAB_SLO ∧ fget m (16 * sd) R.CLK_FAB_VNOW < 900) ∧
    (∃ sd : Fin 2, ∃ _slack : Option (BitVec 8), ∃ m : Mach, sideRuns m sd = true ∧ fcapOf m sd < fget m (16 * sd) R.CLK_FAB_FNOW) ∧
    (∃ sd : Fin 2, ∃ x : BitVec 8, ∃ m : Mach, sideRuns m sd = true ∧ fget m (16 * sd) R.CLK_FAB_FNOW < fcapOf m sd ∧
      fget m (16 * sd) R.CLK_FAB_SLO ≤ x.toNat ∧ fget m (16 * sd) R.CLK_FAB_SHI < x.toNat ∧ sget 0 m.pwr.run sd = 9) ∧
    (∃ sd : Fin 2, ∃ _slack : Option (BitVec 8), ∃ m : Mach, sideRuns m sd = false) ∧
    (∃ sd : Fin 2, ∃ m : Mach, sideRuns m sd = true) ∧
    (∃ sd : Fin 2, ∃ m : Mach, sideRuns m sd = false) ∧
    (∃ sd : Fin 2, ∃ _kept : Nat, ∃ m : Mach, fget m (16 * sd) R.CLK_FAB_FNOW ≠ 28) ∧
    (∃ sd : Fin 2, ∃ _kept : Nat, ∃ m : Mach, sideRuns m sd = true ∧ fget m (16 * sd) R.CLK_FAB_FNOW = 28 ∧ fget m (16 * sd) R.CLK_FAB_VNOW = 900 ∧
      opMode m = 1 ∧ bothUp m = true ∧ m.twin.returning = none) ∧
    (∃ x : Sample, ∃ t : BitVec 8, ∃ m : Mach, x.temps = List.replicate 80 t ∧ t.toNat < 95 ∧ sideStepOf m 0 = 0 ∧ sideStepOf m 1 = 0 ∧
      fget m aonBase R.PWR_TSTAT_TILE = 0 ∧ fget m aonBase R.PWR_TSTAT_STACK = 0) ∧
    (∃ x : Sample, ∃ t : BitVec 8, ∃ m : Mach, x.temps = List.replicate 80 t ∧ 100 ≤ t.toNat ∧ t.toNat < 105 ∧ sideStepOf m 0 = 0 ∧
      sideStepOf m 1 = 0 ∧ fget m aonBase R.PWR_TSTAT_TILE = 0 ∧ fget m aonBase R.PWR_TSTAT_STACK = 0) ∧
    (∃ x : Sample, ∃ t : BitVec 8, ∃ m : Mach, x.temps = List.replicate 80 t ∧ 120 ≤ t.toNat ∧ m.pwr.hot = [0] ∧ sideStepOf m 0 = 0 ∧
      sideStepOf m 1 = 0 ∧ fget m aonBase R.PWR_TSTAT_TILE = 0 ∧ fget m aonBase R.PWR_TSTAT_STACK = 0) :=
  ⟨⟨8, wOn, by decide +kernel⟩,
    ⟨8, fset wOn 64 R.PWR_DOM_STATE 3, by decide +kernel⟩,
    ⟨10, fset wOn 80 R.PWR_DOM_STATE 3, by decide +kernel⟩,
    ⟨8, wSet [(64, R.PWR_DOM_STATE, 3), (64, R.PWR_DOM_ABORT, 1)] wOn, by decide +kernel⟩,
    ⟨8, fset wOn 64 R.PWR_DOM_STATE 1, by decide +kernel⟩,
    ⟨8, wOn, by decide +kernel⟩,
    ⟨0, fset wOn 0 R.PWR_SLEEP_EN 1, by decide +kernel⟩,
    ⟨0, wSet [(0, R.PWR_SLEEP_EN, 1), (0, R.PWR_SLEEP_HOLD, 1)] wOn, by decide +kernel⟩,
    ⟨0, fset wOn 80 R.PWR_DOM_STATE 4, by decide +kernel⟩,
    ⟨0, wOn, by decide +kernel⟩,
    ⟨8, fset wOn (rgeBase 0) R.RGE_CSTAT_EAST 1, by decide +kernel⟩,
    ⟨6, wOn, by decide +kernel⟩,
    ⟨8, wSet [(rgeBase 0, R.RGE_CSTAT_EAST, 3), (64, R.PWR_DOM_STATE, 0)] wOn, by decide +kernel⟩,
    ⟨6, wOn, by decide +kernel⟩,
    ⟨wSet [(aonBase, R.CLK_OSC_OK0, 1), (aonBase, R.CLK_OSC_OK1, 1)] wOn, by decide +kernel⟩,
    ⟨wSet [(aonBase, R.CLK_OSC_OK1, 1)] wOn, by decide +kernel⟩,
    ⟨0, 3, wSet [(0, R.CLK_FAB_VNOW, 800), (0, R.CLK_FAB_FTARGET, 40), (0, R.CLK_FAB_SLO, 20)] wOn, by decide +kernel⟩,
    ⟨0, (some 30), wSet [(0, R.CLK_FAB_FNOW, 41), (0, R.CLK_FAB_FTARGET, 40)] wOn, by decide +kernel⟩,
    ⟨0, 99, (fun m : Mach => { m with pwr := { m.pwr with run := [(0, 9)] } }) (wSet [(0, R.CLK_FAB_FNOW, 30), (0, R.CLK_FAB_FTARGET, 40), (0, R.CLK_FAB_SHI, 45), (0, R.CLK_FAB_SLO, 20)] wOn), by decide +kernel⟩,
    ⟨0, none, Mach.reset, by decide +kernel⟩,
    ⟨0, wOn, by decide +kernel⟩,
    ⟨0, Mach.reset, by decide +kernel⟩,
    ⟨0, 0, wSet [(0, R.CLK_FAB_FNOW, 30)] wOn, by decide +kernel⟩,
    ⟨0, 7, wSet [(0, R.CLK_FAB_FNOW, 28), (0, R.CLK_FAB_VNOW, 900)] wOn, by decide +kernel⟩,
    ⟨⟨List.replicate 80 60,[],[],(0,0),(0,0),55⟩, 60, wOn, by decide +kernel⟩,
    ⟨⟨List.replicate 80 101,[],[],(0,0),(0,0),55⟩, 101, wOn, by decide +kernel⟩,
    ⟨⟨List.replicate 80 121,[],[],(0,0),(0,0),55⟩, 121, { wOn with pwr := { wOn.pwr with hot := [0] } }, by decide +kernel⟩⟩

theorem witness_resets_starts_and_feeds :
    (∃ _feed : Fin 2, ∃ _env : StartEnv, ∃ m : Mach, m.boot.power = false) ∧
    (∃ _feed : Fin 2, ∃ _env : StartEnv, ∃ m : Mach, m.boot.power = true) ∧
    (∃ _us : Nat, ∃ _env : StartEnv, ∃ m : Mach, m.boot.held = true) ∧
    (∃ us : Nat, ∃ _env : StartEnv, ∃ m : Mach, m.boot.held = false ∧ m.boot.power = true ∧ m.boot.holdUp = false ∧ 10 ≤ us ∧ us < 5000000) ∧
    (∃ us : Nat, ∃ _env : StartEnv, ∃ m : Mach, m.boot.held = false ∧ us < 10) ∧
    (∃ m : Mach, m.boot.power = true ∧ m.boot.held = false ∧ m.boot.holdUp = false) ∧
    (∃ _env : StartEnv, ∃ m : Mach, m.boot.timing = true ∧ opMode m = 0 ∧ m.boot.holdUp = false) ∧
    (∃ _env : StartEnv, ∃ m : Mach, opMode m ≠ 0) ∧
    (∃ m : Mach, opMode m = 0 ∧ m.boot.timing = true ∧ fon m aonBase R.AON_LOAD_DONE = true ∧ m.boot.bad = 0 ∧ waitsMem m 0 = false) ∧
    (∃ m : Mach, opMode m = 0 ∧ m.boot.timing = true ∧ fon m aonBase R.AON_LOAD_DONE = true ∧ m.boot.bad = 1 ∧ waitsMem m 1 = false) ∧
    (∃ m : Mach, m.boot.timing = false) ∧
    (∃ sd : Fin 2, ∃ _stk : BitVec 4, ∃ t : Nat, ∃ m : Mach, m.twin.returning = some sd.val ∧ t = 1 - sd.val ∧
      fget m (twnBase t) R.TWN_REINT_STEP = 1) ∧
    (∃ sd : Fin 2, ∃ t : Nat, ∃ m : Mach, m.twin.returning = some sd.val ∧ t = 1 - sd.val ∧ fget m (twnBase t) R.TWN_REINT_STEP = 1) ∧
    (∃ _sd : Fin 2, ∃ _ok : Bool, ∃ _stk : BitVec 4, ∃ m : Mach, m.twin.returning = none) ∧
    (∃ c : CommitOp, ∃ m : Mach, m.boot.commit = some c) ∧
    (∃ c : CommitOp, ∃ m : Mach, m.boot.commit = some c) ∧
    (∃ _ok : Bool, ∃ m : Mach, m.boot.commit = none) ∧
    (∃ _feed : Fin 2, ∃ _env : StartEnv, ∃ m : Mach, m.boot.power = true ∧ m.boot.holdUp = true) ∧
    (∃ _feed : Fin 2, ∃ _env : StartEnv, ∃ m : Mach, m.boot.power = true ∧ m.boot.holdUp = false) ∧
    (∃ feed : Fin 2, ∃ m : Mach, fon m (8 * feed) R.PWR_FEED_PRESENT = true ∧ fon m (8 * (1 - feed.val)) R.PWR_FEED_PRESENT = true) ∧
    (∃ feed : Fin 2, ∃ m : Mach, fon m (8 * feed) R.PWR_FEED_PRESENT = true ∧ fon m (8 * (1 - feed.val)) R.PWR_FEED_PRESENT = false) ∧
    (∃ feed : Fin 2, ∃ m : Mach, fon m (8 * feed) R.PWR_FEED_PRESENT = false) ∧
    (∃ m : Mach, m.boot.holdUp = true) ∧
    (∃ m : Mach, m.boot.holdUp = false) ∧
    (∃ _env : StartEnv, ∃ m : Mach, spillDone m = false) ∧
    (∃ _env : StartEnv, ∃ m : Mach, spillDone m = true ∧ m.boot.toRecovery = false ∧ m.boot.orderly = false) ∧
    (∃ _env : StartEnv, ∃ m : Mach, spillDone m = true ∧ m.boot.toRecovery = false ∧ m.boot.orderly = true) ∧
    (∃ _env : StartEnv, ∃ m : Mach, spillDone m = true ∧ m.boot.toRecovery = true ∧ m.boot.orderly = false) ∧
    (∃ _env : StartEnv, ∃ m : Mach, m.boot.power = true ∧ fon m aonBase R.RST_CTL_BUSY = false ∧ opMode m = 1 ∧ m.twin.returning = none ∧
      m.twin.stopping = none ∧ m.twin.entering = false) ∧
    (∃ _env : StartEnv, ∃ m : Mach, m.boot.power = true ∧ fon m aonBase R.RST_CTL_BUSY = false ∧ opMode m = 3) ∧
    (∃ _env : StartEnv, ∃ m : Mach, m.boot.power = true ∧ fon m aonBase R.RST_CTL_BUSY = false) ∧
    (∃ _env : StartEnv, ∃ m : Mach, m.boot.power = true ∧ fon m aonBase R.RST_CTL_BUSY = true) ∧
    (∃ _env : StartEnv, ∃ m : Mach, m.boot.power = true ∧ fon m aonBase R.RST_CTL_BUSY = false) ∧
    (∃ _env : StartEnv, ∃ m : Mach, m.boot.power = true ∧ fon m aonBase R.RST_CTL_BUSY = false ∧ opMode m ≠ 4) ∧
    (∃ _env : StartEnv, ∃ m : Mach, m.boot.power = true ∧ fon m aonBase R.RST_CTL_BUSY = false ∧ opMode m = 4) :=
  ⟨⟨0, ⟨[(500,500)],true,true,30,true,3,0xFFFFFFFF,0xFF,(0,0,0,0),0,0⟩, Mach.reset, by decide +kernel⟩,
    ⟨0, ⟨[(500,500)],true,true,30,true,3,0xFFFFFFFF,0xFF,(0,0,0,0),0,0⟩, (fun m : Mach => { m with boot := { m.boot with power := true } }) (wOn), by decide +kernel⟩,
    ⟨9, ⟨[(500,500)],true,true,30,true,3,0xFFFFFFFF,0xFF,(0,0,0,0),0,0⟩, (fun m : Mach => { m with boot := { m.boot with held := true } }) (wOn), by decide +kernel⟩,
    ⟨10, ⟨[(500,500)],true,true,30,true,3,0xFFFFFFFF,0xFF,(0,0,0,0),0,0⟩, (fun m : Mach => { m with boot := { m.boot with power := true } }) (wOn), by decide +kernel⟩,
    ⟨9, ⟨[(500,500)],true,true,30,true,3,0xFFFFFFFF,0xFF,(0,0,0,0),0,0⟩, (fun m : Mach => { m with boot := { m.boot with power := true } }) (wOn), by decide +kernel⟩,
    ⟨(fun m : Mach => { m with boot := { m.boot with power := true } }) (wOn), by decide +kernel⟩,
    ⟨⟨[(500,500)],true,true,30,true,3,0xFFFFFFFF,0xFF,(0,0,0,0),0,0⟩, (fun m : Mach => { m with boot := { m.boot with timing := true } }) ((fset wOn aonBase R.AON_OPMODE_MODE 0)), by decide +kernel⟩,
    ⟨⟨[(500,500)],true,true,30,true,3,0xFFFFFFFF,0xFF,(0,0,0,0),0,0⟩, wOn, by decide +kernel⟩,
    ⟨(fun m : Mach => { m with boot := { m.boot with timing := true } }) (fset (fset wOn aonBase R.AON_OPMODE_MODE 0) aonBase R.AON_LOAD_DONE 1), by decide +kernel⟩,
    ⟨(fun m : Mach => { m with boot := { m.boot with timing := true, bad := 1 } }) (fset (fset wOn aonBase R.AON_OPMODE_MODE 0) aonBase R.AON_LOAD_DONE 1), by decide +kernel⟩,
    ⟨wOn, by decide +kernel⟩,
    ⟨1, 15, 0, fset { wOn with twin := { wOn.twin with returning := some 1 } } (twnBase 0) R.TWN_REINT_STEP 1, by decide +kernel⟩,
    ⟨1, 0, fset { wOn with twin := { wOn.twin with returning := some 1 } } (twnBase 0) R.TWN_REINT_STEP 1, by decide +kernel⟩,
    ⟨1, true, 15, wOn, by decide +kernel⟩,
    ⟨⟨0,(snapshot wOn 0 65536),3⟩, (fun m : Mach => { m with boot := { m.boot with commit := some ⟨0, snapshot wOn 0 65536, 3⟩ } }) (wOn), by decide +kernel⟩,
    ⟨⟨0,(snapshot wOn 0 65536),3⟩, (fun m : Mach => { m with boot := { m.boot with commit := some ⟨0, snapshot wOn 0 65536, 3⟩ } }) (wOn), by decide +kernel⟩,
    ⟨true, wOn, by decide +kernel⟩,
    ⟨0, ⟨[(500,500)],true,true,30,true,3,0xFFFFFFFF,0xFF,(0,0,0,0),0,0⟩, (fun m : Mach => { m with boot := { m.boot with power := true, holdUp := true } }) (wOn), by decide +kernel⟩,
    ⟨0, ⟨[(500,500)],true,true,30,true,3,0xFFFFFFFF,0xFF,(0,0,0,0),0,0⟩, (fun m : Mach => { m with boot := { m.boot with power := true } }) (wOn), by decide +kernel⟩,
    ⟨1, wSet [(0, R.PWR_FEED_PRESENT, 1), (8, R.PWR_FEED_PRESENT, 1)] wOn, by decide +kernel⟩,
    ⟨0, fset wOn 0 R.PWR_FEED_PRESENT 1, by decide +kernel⟩,
    ⟨0, wOn, by decide +kernel⟩,
    ⟨(fun m : Mach => { m with boot := { m.boot with holdUp := true } }) (wOn), by decide +kernel⟩,
    ⟨wOn, by decide +kernel⟩,
    ⟨⟨[(500,500)],true,true,30,true,3,0xFFFFFFFF,0xFF,(0,0,0,0),0,0⟩, wOn, by decide +kernel⟩,
    ⟨⟨[(500,500)],true,true,30,true,3,0xFFFFFFFF,0xFF,(0,0,0,0),0,0⟩, { wOn with twin := { wOn.twin with entering := true } }, by decide +kernel⟩,
    ⟨⟨[(500,500)],true,true,30,true,3,0xFFFFFFFF,0xFF,(0,0,0,0),0,0⟩, (fun m : Mach => { m with boot := { m.boot with orderly := true } }) ({ wOn with twin := { wOn.twin with entering := true } }), by decide +kernel⟩,
    ⟨⟨[(500,500)],true,true,30,true,3,0xFFFFFFFF,0xFF,(0,0,0,0),0,0⟩, (fun m : Mach => { m with boot := { m.boot with toRecovery := true } }) ({ wOn with twin := { wOn.twin with entering := true } }), by decide +kernel⟩,
    ⟨⟨[(500,500)],true,true,30,true,3,0xFFFFFFFF,0xFF,(0,0,0,0),0,0⟩, (fun m : Mach => { m with boot := { m.boot with power := true } }) (wOn), by decide +kernel⟩,
    ⟨⟨[(500,500)],true,true,30,true,3,0xFFFFFFFF,0xFF,(0,0,0,0),0,0⟩, (fun m : Mach => { m with boot := { m.boot with power := true } }) ((fset wOn aonBase R.AON_OPMODE_MODE 3)), by decide +kernel⟩,
    ⟨⟨[(500,500)],true,true,30,true,3,0xFFFFFFFF,0xFF,(0,0,0,0),0,0⟩, (fun m : Mach => { m with boot := { m.boot with power := true } }) (wOn), by decide +kernel⟩,
    ⟨⟨[(500,500)],true,true,30,true,3,0xFFFFFFFF,0xFF,(0,0,0,0),0,0⟩, (fun m : Mach => { m with boot := { m.boot with power := true } }) (fset wOn aonBase R.RST_CTL_BUSY 1), by decide +kernel⟩,
    ⟨⟨[(500,500)],true,true,30,true,3,0xFFFFFFFF,0xFF,(0,0,0,0),0,0⟩, (fun m : Mach => { m with boot := { m.boot with power := true } }) (wOn), by decide +kernel⟩,
    ⟨⟨[(500,500)],true,true,30,true,3,0xFFFFFFFF,0xFF,(0,0,0,0),0,0⟩, (fun m : Mach => { m with boot := { m.boot with power := true } }) (wOn), by decide +kernel⟩,
    ⟨⟨[(500,500)],true,true,30,true,3,0xFFFFFFFF,0xFF,(0,0,0,0),0,0⟩, (fun m : Mach => { m with boot := { m.boot with power := true } }) ((fset wOn aonBase R.AON_OPMODE_MODE 4)), by decide +kernel⟩⟩

theorem witness_scrubbing_searches_and_lost_sets :
    (∃ _ck : Check, ∃ _pct : Fin 101, ∃ sd : Fin 2, ∃ _i : BitVec 31, ∃ m : Mach, sideUp m sd = false) ∧
    (∃ pct : Fin 101, ∃ sd : Fin 2, ∃ _i : BitVec 31, ∃ m : Mach, sideUp m sd = true ∧ fon m (32 * sd) R.ERR_SCRUB_EN = true ∧
      m.ras.injected = [] ∧ pct ≠ 100) ∧
    (∃ pct : Fin 101, ∃ sd : Fin 2, ∃ i : BitVec 31, ∃ s : Slot, ∃ l : Nat, ∃ m : Mach, sideUp m sd = true ∧
      fon m (32 * sd) R.ERR_SCRUB_EN = true ∧ m.ras.injected = [] ∧ pct ≠ 100 ∧ slotAt m sd i.toNat = some s ∧ s.st = .clean ∧
      l = plnOf m sd (slotLine m sd i.toNat s)) ∧
    (∃ pct : Fin 101, ∃ sd : Fin 2, ∃ i : BitVec 31, ∃ s : Slot, ∃ l : Nat, ∃ m : Mach, sideUp m sd = true ∧
      fon m (32 * sd) R.ERR_SCRUB_EN = true ∧ m.ras.injected = [] ∧ pct ≠ 100 ∧ slotAt m sd i.toNat = some s ∧ s.st = .dirty ∧
      l = plnOf m sd (slotLine m sd i.toNat s) ∧ repairHeld m l = false ∧ twinned m l = true) ∧
    (∃ _pct : Fin 101, ∃ h : Fin 64, ∃ s : Fin 3072, ∃ _w : Fin 16, ∃ m : Mach, sideUp m (h / 32) = true ∧
      fon m (32 * (h / 32)) R.ERR_SCRUB_EN = true ∧ m.ras.injected = [] ∧ twinSide m (h / 32) = true ∧ (openTargets m).contains (.hgSet h s) = false) ∧
    (∃ _pct : Fin 101, ∃ h : Fin 64, ∃ _s : Fin 3072, ∃ _w : Fin 16, ∃ _cw : Fin 8, ∃ m : Mach, sideUp m (h / 32) = true ∧
      fon m (32 * (h / 32)) R.ERR_SCRUB_EN = true ∧ m.ras.injected = [] ∧ m.ras.track = [] ∧ m.ras.hard = [] ∧
      1 < fget m (32 * (h / 32)) R.ERR_SCRUB_REPEAT) ∧
    (∃ sd : Fin 2, ∃ n : Nat, ∃ m : Mach, n = sget 0 m.ras.ceWin sd ∧ fget m (32 * sd) R.ERR_SCRUB_CEHI < n) ∧
    (∃ sd : Fin 2, ∃ n : Nat, ∃ m : Mach, n = sget 0 m.ras.ceWin sd ∧ n < fget m (32 * sd) R.ERR_SCRUB_CELO ∧ n ≤ fget m (32 * sd) R.ERR_SCRUB_CEHI) ∧
    (∃ half : Fin 2, ∃ set : BitVec 26, ∃ m : Mach, m.home.lostSets = [] ∧ sideUp m (servingSide m (plnOf m half set.toNat)) = true ∧
      twinned m (plnOf m half set.toNat) = false) ∧
    (∃ half : Fin 2, ∃ set : BitVec 26, ∃ n l : Nat, ∃ m : Mach, m.home.lostSets = [⟨half, set.toNat, n⟩] ∧ n < 32768 ∧
      l = plnOf m half (n * 2 ^ 26 + set.toNat) ∧ (attrOf m l).priv = true) ∧
    (∃ half : Fin 2, ∃ set : BitVec 26, ∃ n l p : Nat, ∃ ps : List Nat, ∃ m : Mach, m.home.lostSets = [⟨half, set.toNat, n⟩] ∧ n < 32768 ∧
      l = plnOf m half (n * 2 ^ 26 + set.toNat) ∧ (attrOf m l).priv = false ∧ (attrOf m l).covered = true ∧
      ((List.range 32).filter fun p => bitOf (attrOf m l).ports p && roleOf m p == 1 && !bitOf (lostMask m (homeSlice m l)) p) = p :: ps ∧
      lineOpen m (homeSlice m l) l = false ∧ m.home.recalls = []) ∧
    (∃ half : Fin 2, ∃ set : BitVec 26, ∃ m : Mach, m.home.lostSets = [⟨half, set.toNat, 32768⟩]) ∧
    (∃ half : Fin 2, ∃ set : BitVec 26, ∃ m : Mach, m.home.recalls = [] ∧ m.home.lostSets = [⟨half, set.toNat, 32768⟩]) ∧
    (∃ sd : Fin 2, ∃ i : Nat, ∃ rest : List Target, ∃ m : Mach, m.ras.targets = .slot sd i :: rest ∧ twinLines m sd = []) ∧
    (∃ sd : Fin 2, ∃ h k : Nat, ∃ rest : List Target, ∃ l : Nat, ∃ img : Img, ∃ w : Nat, ∃ m : Mach, m.ras.targets = .hgSet h k :: rest ∧
      h / 32 = sd.val ∧ m.twin.staged = [⟨1 - sd, l, img, false⟩] ∧ m.twin.recs = [] ∧ inTarget m l (.hgSet h k) = true ∧
      dirtyAtHome m (homeSlice m l) l = false ∧ m.tw = [] ∧ ((List.range 16).find? fun w => (mget m.home.hg (hgKey h k w)).isNone && wayEligible m h
      k w) = some w) ∧
    (∃ sd : Fin 2, ∃ l : Nat, ∃ img : Img, ∃ m : Mach, m.twin.refresh = [sd.val] ∧ dirtyLines m sd = [l] ∧
      newestDirty m (homeSlice m l) l = some img ∧ twinned m l = true) ∧
    (∃ _sd : Fin 2, ∃ m : Mach, m.twin.refresh = []) ∧
    (∃ sd : Fin 2, ∃ m : Mach, m.twin.refresh = [sd.val + 2] ∧ m.twin.stream = [] ∧ m.twin.acks = [] ∧ m.twin.relAcks = []) ∧
    (∃ h : Fin 64, ∃ l : Nat, ∃ rest : List HomeNote, ∃ img : Img, ∃ m : Mach, m.home.notes = .retwin h l :: rest ∧ twinned m l = true ∧
      newestDirty m h l = some img) ∧
    (∃ h : Fin 64, ∃ l : Nat, ∃ rest : List HomeNote, ∃ m : Mach, m.home.notes = .retwin h l :: rest ∧ twinned m l = true ∧
      newestDirty m h l = none ∧ m.tw = []) :=
  ⟨⟨.bad, 5, 1, 9, fset wOn aonBase R.AON_OPMODE_SIDE_UP 1, by decide +kernel⟩,
    ⟨5, 0, 9, fset wOn 0 R.ERR_SCRUB_EN 1, by decide +kernel⟩,
    ⟨5, 0, (BitVec.ofNat 31 ((installAt wOn 0 0).1)), (wSlot 0 .clean), (plnOf wOn 0 (slotLine wOn 0 (installAt wOn 0 0).1 (wSlot 0 .clean))), fset (wSlotM .clean) 0 R.ERR_SCRUB_EN 1, by decide +kernel⟩,
    ⟨5, 0, (BitVec.ofNat 31 ((installAt wOn 0 0).1)), (wSlot 0 .dirty), (plnOf wOn 0 (slotLine wOn 0 (installAt wOn 0 0).1 (wSlot 0 .dirty))), fset (wSlotM .dirty) 0 R.ERR_SCRUB_EN 1, by decide +kernel⟩,
    ⟨5, 0, 7, 2, fset wOn 0 R.ERR_SCRUB_EN 1, by decide +kernel⟩,
    ⟨5, 0, 7, 2, 3, fset (fset wOn 0 R.ERR_SCRUB_EN 1) 0 R.ERR_SCRUB_REPEAT 3, by decide +kernel⟩,
    ⟨0, 9999999, (fun m : Mach => { m with ras := { m.ras with ceWin := [(0, 9999999)] } }) (wOn), by decide +kernel⟩,
    ⟨0, 0, wSet [(0, R.ERR_SCRUB_CELO, 4), (0, R.ERR_SCRSTAT_MLOG, 2)] wOn, by decide +kernel⟩,
    ⟨0, 5, wSet [(aonBase, R.AON_OPMODE_SIDE_UP, 1), (aonBase, R.AON_OPMODE_MODE, 2)] wOn, by decide +kernel⟩,
    ⟨0, 5, 0, (plnOf wOn 0 5), (fun m : Mach => { m with comp := { m.comp with regions := [(0, ⟨2 ^ 59, 2 ^ 37⟩)] } }) ((fun m : Mach => { m with home := { m.home with lostSets := [⟨0, 5, 0⟩] } }) (wOn)), by decide +kernel⟩,
    ⟨0, 5, 0, (plnOf wOn 0 5), 0, [], (fun m : Mach => { m with comp := { m.comp with regions := [(0, ⟨2 ^ 59, 1⟩)] } }) ((fun m : Mach => { m with home := { m.home with lostSets := [⟨0, 5, 0⟩] } }) (wOn)), by decide +kernel⟩,
    ⟨0, 5, (fun m : Mach => { m with home := { m.home with lostSets := [⟨0, 5, 32768⟩] } }) (wOn), by decide +kernel⟩,
    ⟨0, 5, (fun m : Mach => { m with home := { m.home with lostSets := [⟨0, 5, 32768⟩] } }) (wOn), by decide +kernel⟩,
    ⟨0, 9, [], (fun m : Mach => { m with ras := { m.ras with targets := [.slot 0 9] } }) (wOn), by decide +kernel⟩,
    ⟨0, 0, 0, [], 0, ⟨5,false⟩, 0, fset ((fun m : Mach => { m with twin := { m.twin with staged := [⟨1, 0, ⟨5, false⟩, false⟩] } }) ((fun m : Mach => { m with ras := { m.ras with targets := [.hgSet 0 0] } }) (wOn))) (hsBase 0) R.HS_STATUS_STATE 1, by decide +kernel⟩,
    ⟨0, 0, ⟨9,false⟩, fset ((fun m : Mach => { m with home := { m.home with hg := [(hgKey 0 0 2, ⟨0, true, true, ⟨9, false⟩⟩)] } }) ((fun m : Mach => { m with twin := { m.twin with refresh := [0] } }) (wOn))) (hsBase 0) R.HS_STATUS_STATE 1, by decide +kernel⟩,
    ⟨0, wOn, by decide +kernel⟩,
    ⟨0, (fun m : Mach => { m with twin := { m.twin with refresh := [2] } }) (wOn), by decide +kernel⟩,
    ⟨0, 0, [], ⟨9,false⟩, fset ((fun m : Mach => { m with home := { m.home with hg := [(hgKey 0 0 2, ⟨0, true, true, ⟨9, false⟩⟩)], notes := [.retwin 0 0] } }) (wOn)) (hsBase 0) R.HS_STATUS_STATE 1, by decide +kernel⟩,
    ⟨0, 0, [], (fun m : Mach => { m with home := { m.home with notes := [.retwin 0 0] } }) (wOn), by decide +kernel⟩⟩

theorem witness_retirement_trim_and_injection :
    (∃ _k : Fin 8, ∃ _pc : Fin 32, ∃ _bank : Fin 16, ∃ _row : BitVec 16, ∃ m : Mach, fon m aonBase R.ERR_AREMAP_BUSY = true) ∧
    (∃ k : Fin 8, ∃ _pc : Fin 32, ∃ _bank : Fin 16, ∃ _row : BitVec 16, ∃ m : Mach, fon m aonBase R.ERR_AREMAP_BUSY = false ∧
      sideUp m (k / 4) = false) ∧
    (∃ k : Fin 8, ∃ _pc : Fin 32, ∃ _bank : Fin 16, ∃ row : BitVec 16, ∃ m : Mach, fon m aonBase R.ERR_AREMAP_BUSY = false ∧
      sideUp m (k / 4) = true ∧ row.toNat < 32768) ∧
    (∃ k : Fin 8, ∃ pc : Fin 32, ∃ bank : Fin 16, ∃ row : BitVec 16, ∃ m : Mach, fon m aonBase R.ERR_AREMAP_BUSY = false ∧
      sideUp m (k / 4) = true ∧ 32768 ≤ row.toNat ∧ m.ras.area = [⟨k, pc, bank, row.toNat⟩]) ∧
    (∃ k : Fin 8, ∃ pc : Fin 32, ∃ _bank : Fin 16, ∃ row : BitVec 16, ∃ m : Mach, fon m aonBase R.ERR_AREMAP_BUSY = false ∧
      sideUp m (k / 4) = true ∧ 32768 ≤ row.toNat ∧ m.ras.area = [] ∧ sparesUsed m k pc < 13312) ∧
    (∃ r : Row, ∃ m : Mach, m.ras.areaRun = some r ∧ sideUp m (r.k / 4) = true) ∧
    (∃ _bad : List (Loc × Bool), ∃ m : Mach, m.ras.areaRun = none) ∧
    (∃ sd b : Fin 2, ∃ _i : Fin 8, ∃ _page : BitVec 8, ∃ _v : Bool, ∃ m : Mach, progOpen m sd b = true) ∧
    (∃ sd b : Fin 2, ∃ _i : Fin 8, ∃ _page : BitVec 8, ∃ _v : Bool, ∃ m : Mach, progOpen m sd b = false) ∧
    (∃ k : Fin 8, ∃ m : Mach, stackRetired m k = true) ∧
    (∃ k : Fin 8, ∃ m : Mach, stackRetired m k = false ∧ sideUp m (k / 4) = true) ∧
    (∃ k : Fin 8, ∃ m : Mach, stackRetired m k = false ∧ opMode m = 2 ∧ sideUp m (k / 4) = false ∧ m.twin.returning = none) ∧
    (∃ r : TrimRec, ∃ rest : List TrimRec, ∃ m : Mach, m.ras.pend = r :: rest ∧ ditchRuns m = true) ∧
    (∃ m : Mach, m.ras.pend = []) ∧
    (∃ p : Fin 32, ∃ _v : BitVec 128, ∃ m : Mach, linkUp m p = true ∧ fget m (ptBase p) R.PT_LINK_RATE = 6 ∧ m.flash.trim = [] ∧ m.ras.pend = []) ∧
    (∃ p : Fin 32, ∃ v : BitVec 128, ∃ m : Mach, m.flash.trim = [] ∧ m.ras.pend = [.presets p v.toNat]) :=
  ⟨⟨0, 1, 2, 0x9000, fset wOn aonBase R.ERR_AREMAP_BUSY 1, by decide +kernel⟩,
    ⟨4, 1, 2, 0x9000, fset wOn aonBase R.AON_OPMODE_SIDE_UP 1, by decide +kernel⟩,
    ⟨4, 1, 2, 0x7FFF, wOn, by decide +kernel⟩,
    ⟨4, 1, 2, 0x9000, (fun m : Mach => { m with ras := { m.ras with area := [⟨4, 1, 2, 0x9000⟩] } }) (wOn), by decide +kernel⟩,
    ⟨4, 1, 2, 0x9000, wOn, by decide +kernel⟩,
    ⟨⟨4,1,2,0x9000⟩, (fun m : Mach => { m with ras := { m.ras with areaRun := some ⟨4, 1, 2, 0x9000⟩ } }) (wOn), by decide +kernel⟩,
    ⟨[], wOn, by decide +kernel⟩,
    ⟨0, 1, 3, 77, true, wOn, by decide +kernel⟩,
    ⟨0, 0, 3, 77, true, wOn, by decide +kernel⟩,
    ⟨3, fset wOn aonBase R.ERR_STKRET_RETIRED 8, by decide +kernel⟩,
    ⟨3, wOn, by decide +kernel⟩,
    ⟨5, wSet [(aonBase, R.AON_OPMODE_SIDE_UP, 1), (aonBase, R.AON_OPMODE_MODE, 2)] wOn, by decide +kernel⟩,
    ⟨(.stack 3), [], (fun m : Mach => { m with ras := { m.ras with pend := [.stack 3] } }) (wOn), by decide +kernel⟩,
    ⟨wOn, by decide +kernel⟩,
    ⟨0, 77, fset wOn (ptBase 0) R.PT_LINK_RATE 6, by decide +kernel⟩,
    ⟨0, 77, (fun m : Mach => { m with ras := { m.ras with pend := [.presets 0 77] } }) (wOn), by decide +kernel⟩⟩

theorem witness_counters_ring_and_samples :
    (∃ m : Mach, m.boot.power = false) ∧
    (∃ m : Mach, m.boot.power = true ∧ m.cnts = [] ∧ fon m cntBase R.CNT_RCTL_EN = false) ∧
    (∃ base k : Nat, ∃ c : Cnt, ∃ m : Mach, m.boot.power = true ∧ m.cnts = [(base * 8 + k, c)] ∧ k < 8 ∧ base ≠ cntBase ∧ cntHeld m base = false ∧
      c.seen = false ∧ fon m cntBase R.CNT_RCTL_EN = false) ∧
    (∃ m : Mach, m.boot.power = true ∧ m.cnts = [] ∧ fon m cntBase R.CNT_RCTL_EN = true ∧ m.col.mode = true ∧ poolOff m = false ∧
      ((∀ j < 64, fon m (cntBase + 8 * j) R.CNT_RSEL_V = (j == 0))) ∧ (blkAt (fget m cntBase R.CNT_RSEL_BASE * 4096)).isSome = true) ∧
    (∃ m : Mach, m.boot.power = true ∧ m.cnts = [] ∧ fon m cntBase R.CNT_RCTL_EN = true ∧ m.col.mode = false ∧
      ((∀ j < 64, fon m (cntBase + 8 * j) R.CNT_RSEL_V = (j == 0))) ∧ (blkAt (fget m cntBase R.CNT_RSEL_BASE * 4096)).isSome = true ∧
      2 ^ m.col.sizelog ≤ (m.col.next + 2 ^ 32 - fget m cntBase R.CNT_RPTR_RP) % 2 ^ 32) ∧
    (∃ m : Mach, m.boot.power = true ∧ m.cnts = [] ∧ fon m cntBase R.CNT_RCTL_EN = true ∧ m.col.mode = true ∧
      ((∀ j < 64, fon m (cntBase + 8 * j) R.CNT_RSEL_V = (j == 0))) ∧ (blkAt (fget m cntBase R.CNT_RSEL_BASE * 4096)).isSome = true ∧
      poolOff m = true) ∧
    (∃ r : RingRec, ∃ rest : List RingRec, ∃ m : Mach, m.col.ring = r :: rest ∧ r.left = []) ∧
    (∃ m : Mach, m.col.ring = []) ∧
    (∃ _mode : Bool, ∃ sizelog : BitVec 5, ∃ _base : BitVec 36, ∃ m : Mach, reach m (cntBase + 0x50) = .open_ ∧
      (sizelog.toNat < 6 ∨ 24 < sizelog.toNat) ∧ fon m cntBase R.CNT_RCTL_EN = false) ∧
    (∃ _mode : Bool, ∃ sizelog : BitVec 5, ∃ _base : BitVec 36, ∃ m : Mach, reach m (cntBase + 0x50) = .open_ ∧
      (sizelog.toNat < 6 ∨ 24 < sizelog.toNat) ∧ fon m cntBase R.CNT_RCTL_EN = true) ∧
    (∃ _mode : Bool, ∃ sizelog : BitVec 5, ∃ _base : BitVec 36, ∃ m : Mach, reach m (cntBase + 0x50) = .open_ ∧ 6 ≤ sizelog.toNat ∧
      sizelog.toNat ≤ 24 ∧ fon m cntBase R.CNT_RCTL_EN = false) ∧
    (∃ _mode : Bool, ∃ sizelog : BitVec 5, ∃ _base : BitVec 36, ∃ m : Mach, reach m (cntBase + 0x50) = .open_ ∧ 6 ≤ sizelog.toNat ∧
      sizelog.toNat ≤ 24 ∧ fon m cntBase R.CNT_RCTL_EN = true) ∧
    (∃ j : Fin 16, ∃ inst : Fin 64, ∃ _port : Fin 32, ∃ _addr : BitVec 48, ∃ _outcome : Fin 8, ∃ _lat : BitVec 16, ∃ _twUsed : BitVec 10, ∃ m :
      Mach, m.col.due.contains (j.val * 64 + inst.val) = false) ∧
    (∃ j : Fin 16, ∃ inst : Fin 64, ∃ _port : Fin 32, ∃ _addr : BitVec 48, ∃ _outcome : Fin 8, ∃ _lat : BitVec 16, ∃ _twUsed : BitVec 10, ∃ m :
      Mach, m.col.due.contains (j.val * 64 + inst.val) = true ∧ m.col.samples.length < 4096) ∧
    (∃ j : Fin 16, ∃ inst : Fin 64, ∃ _port : Fin 32, ∃ _addr : BitVec 48, ∃ _outcome : Fin 8, ∃ _lat : BitVec 16, ∃ _twUsed : BitVec 10, ∃ m :
      Mach, m.col.due.contains (j.val * 64 + inst.val) = true ∧ m.col.samples.length = 4096) ∧
    (∃ r : List Nat, ∃ rest : List (List Nat), ∃ m : Mach, reach m (cntBase + 0x930) = .open_ ∧ m.col.samples = r :: rest) ∧
    (∃ m : Mach, reach m (cntBase + 0x930) = .dead) :=
  ⟨⟨{ Mach.reset with boot := { Mach.reset.boot with power := false } }, by decide +kernel⟩,
    ⟨wPow, by decide +kernel⟩,
    ⟨0, 3, ({ Cnt.reset with count := 7, wcount := some 90, wcfg := true }), (fun m : Mach => { m with cnts := [(3, { Cnt.reset with count := 7, wcount := some 90, wcfg := true })] }) wPow, by decide +kernel⟩,
    ⟨(fun m : Mach => { m with col := { m.col with mode := true } }) (wSet [(cntBase, R.CNT_RCTL_EN, 1), (cntBase, R.CNT_RSEL_V, 1)] wPow), by decide +kernel⟩,
    ⟨(fun m : Mach => { m with col := { m.col with mode := false, sizelog := 6, next := 64 } }) (wSet [(cntBase, R.CNT_RCTL_EN, 1), (cntBase, R.CNT_RSEL_V, 1)] wPow), by decide +kernel⟩,
    ⟨(fun m : Mach => { m with col := { m.col with mode := true } }) (wSet [(cntBase, R.CNT_RCTL_EN, 1), (cntBase, R.CNT_RSEL_V, 1), (aonBase, R.AON_OPMODE_MODE, 4), (aonBase, R.AON_OPMODE_SIDE_UP, 0)] wPow), by decide +kernel⟩,
    ⟨⟨0,0,[],[]⟩, [], (fun m : Mach => { m with col := { m.col with ring := [⟨0, 0, [], []⟩] } }) (wOn), by decide +kernel⟩,
    ⟨wOn, by decide +kernel⟩,
    ⟨true, 25, 0, wOn, by decide +kernel⟩,
    ⟨true, 25, 0, fset wOn cntBase R.CNT_RCTL_EN 1, by decide +kernel⟩,
    ⟨true, 6, 77, wOn, by decide +kernel⟩,
    ⟨true, 6, 77, fset wOn cntBase R.CNT_RCTL_EN 1, by decide +kernel⟩,
    ⟨5, 3, 7, 0x1234, 2, 40, 6, wOn, by decide +kernel⟩,
    ⟨5, 3, 7, 0x1234, 2, 40, 6, (fun m : Mach => { m with col := { m.col with due := [5 * 64 + 3] } }) (wOn), by decide +kernel⟩,
    ⟨5, 3, 7, 0x1234, 2, 40, 6, wSmp 4096, by rw [wSmp_due]; decide, wSmp_samples 4096⟩,
    ⟨[1,2,3,4], [], (fun m : Mach => { m with col := { m.col with samples := [[1, 2, 3, 4]] } }) (wOn), by decide +kernel⟩,
    ⟨fset wOn (8 * domOf (cntBase + 0x930)) R.PWR_DOM_STATE 0, by decide +kernel⟩⟩

theorem witness_control_accesses :
    (∃ _a : BitVec 29, ∃ _v : Word, ∃ m : Mach, ditchRuns m = false) ∧
    (∃ a : BitVec 29, ∃ _v : Word, ∃ m : Mach, ditchRuns m = true ∧ mapped (8 * a.toNat) = false) ∧
    (∃ a : BitVec 29, ∃ _v : Word, ∃ m : Mach, ditchRuns m = true ∧ mapped (8 * a.toNat) = true ∧ reach m (8 * a.toNat) = .hold) ∧
    (∃ a : BitVec 29, ∃ _v : Word, ∃ m : Mach, ditchRuns m = true ∧ mapped (8 * a.toNat) = true ∧ reach m (8 * a.toNat) = .dead) ∧
    (∃ a : BitVec 29, ∃ v : Word, ∃ sd : Fin 2, ∃ m : Mach, ditchRuns m = true ∧ reach m (8 * a.toNat) = .open_ ∧ 8 * a.toNat = twnBase sd + 0x50 ∧
      1 ≤ v.toNat % 2 ^ 14 ∧ v.toNat % 2 ^ 14 ≤ 12287) ∧
    (∃ a : BitVec 29, ∃ v : Word, ∃ sd : Fin 2, ∃ m : Mach, ditchRuns m = true ∧ reach m (8 * a.toNat) = .open_ ∧ 8 * a.toNat = twnBase sd + 0x50 ∧
      (v.toNat % 2 ^ 14 = 0 ∨ 12287 < v.toNat % 2 ^ 14)) ∧
    (∃ a : BitVec 29, ∃ _v : Word, ∃ k : Nat, ∃ c : Cnt, ∃ m : Mach, ditchRuns m = true ∧ k < 8 ∧ 8 * a.toNat = 0x240 + 8 * k ∧ c = cntOf m 0 k) ∧
    (∃ _a : BitVec 29, ∃ _v : Word, ∃ e : Fin 32, ∃ m : Mach, sbHead m e = none) ∧
    (∃ a : BitVec 29, ∃ v : Word, ∃ e : Fin 32, ∃ s : SbEnt, ∃ m : Mach, sbHead m e = some s ∧ s.space = .control ∧ s.addr = (8 * a.toNat) ∧
      s.data = v.toNat) ∧
    (∃ _a : BitVec 29, ∃ m : Mach, ditchRuns m = false) ∧
    (∃ a : BitVec 29, ∃ m : Mach, ditchRuns m = true ∧ mapped (8 * a.toNat) = false) ∧
    (∃ a : BitVec 29, ∃ m : Mach, ditchRuns m = true ∧ mapped (8 * a.toNat) = true ∧ reach m (8 * a.toNat) = .hold) ∧
    (∃ a : BitVec 29, ∃ sd : Fin 2, ∃ m : Mach, ditchRuns m = true ∧ reach m (8 * a.toNat) = .open_ ∧ 8 * a.toNat = twnBase sd + 0x50) ∧
    (∃ a : BitVec 29, ∃ v : Word, ∃ sd : Fin 2, ∃ m : Mach, ditchRuns m = true ∧ reach m (8 * a.toNat) = .open_ ∧ 8 * a.toNat = twnBase sd + 0x50 ∧
      1 ≤ v.toNat % 2 ^ 14 ∧ v.toNat % 2 ^ 14 ≤ 12287) ∧
    (∃ _a : BitVec 29, ∃ _v : Word, ∃ p : Fin 32, ∃ _h : Half, ∃ m : Mach, hostLink m p = false) ∧
    (∃ a : BitVec 29, ∃ _v : Word, ∃ p : Fin 32, ∃ _h : Half, ∃ s : Nat, ∃ m : Mach, hostLink m p = true ∧ 0x1000 ≤ 8 * a.toNat ∧
      8 * a.toNat < 0x2000 ∧ s = (8 * a.toNat - 0x1000) / 64 ∧ slotBusy m p s = false) ∧
    (∃ a : BitVec 29, ∃ _v : Word, ∃ p : Fin 32, ∃ _h : Half, ∃ s : Nat, ∃ m : Mach, hostLink m p = true ∧ 0x1000 ≤ 8 * a.toNat ∧
      8 * a.toNat < 0x2000 ∧ s = (8 * a.toNat - 0x1000) / 64 ∧ slotBusy m p s = true) ∧
    (∃ a : BitVec 29, ∃ _v : Word, ∃ p : Fin 32, ∃ _h : Half, ∃ m : Mach, hostLink m p = true ∧ 0x3030 ≤ 8 * a.toNat) ∧
    (∃ _a : BitVec 29, ∃ p : Fin 32, ∃ _h : Half, ∃ m : Mach, hostLink m p = false) ∧
    (∃ a : BitVec 29, ∃ p : Fin 32, ∃ _h : Half, ∃ m : Mach, hostLink m p = true ∧ 0x1000 ≤ 8 * a.toNat ∧ 8 * a.toNat < 0x2000) ∧
    (∃ a : BitVec 29, ∃ p : Fin 32, ∃ _h : Half, ∃ m : Mach, hostLink m p = true ∧ 8 * a.toNat = 0x2000) ∧
    (∃ a : BitVec 29, ∃ p : Fin 32, ∃ _h : Half, ∃ m : Mach, hostLink m p = true ∧ 8 * a.toNat = 0x3800) ∧
    (∃ b : BitVec 20, ∃ B : Blk, ∃ m : Mach, ditchRuns m = true ∧ blkAt (4096 * b.toNat + 8) = some B ∧ B.hdr = true ∧ B.base = 4096 * b.toNat ∧
      progStoreAt (4096 * b.toNat + 8) = none ∧ reach m (4096 * b.toNat + 8) = .open_) ∧
    (∃ _b : BitVec 20, ∃ m : Mach, ditchRuns m = false) ∧
    (∃ b : BitVec 20, ∃ e : Fin 32, ∃ s : SbEnt, ∃ m : Mach, sbHead m e = some s ∧ s.space = .control ∧ s.addr = 4096 * b.toNat + 8 ∧ s.data = 1) ∧
    (∃ b : BitVec 20, ∃ B : Blk, ∃ m : Mach, ditchRuns m = true ∧ blkAt (4096 * b.toNat + 8) = some B ∧ B.hdr = true ∧ B.base = 4096 * b.toNat ∧
      progStoreAt (4096 * b.toNat + 8) = none ∧ reach m (4096 * b.toNat + 8) = .open_) ∧
    (∃ _b : BitVec 20, ∃ e : Fin 32, ∃ m : Mach, sbHead m e = none) ∧
    (∃ b : BitVec 20, ∃ e : Fin 32, ∃ s : SbEnt, ∃ B : Blk, ∃ m : Mach, blkAt (4096 * b.toNat + 8) = some B ∧ B.hdr = true ∧
      B.base = 4096 * b.toNat ∧ progStoreAt (4096 * b.toNat + 8) = none ∧ reach m (4096 * b.toNat + 8) = .open_ ∧ sbHead m e = some s ∧
      s.space = .control ∧ s.addr = 4096 * b.toNat + 8 ∧ s.data = 2 ∧ s.sent = false ∧ (engOf m e).keeper = true) ∧
    (∃ a : BitVec 29, ∃ m : Mach, ditchRuns m = true ∧ reach m (8 * a.toNat) = .open_ ∧ mapped (8 * a.toNat) = true ∧ domOf (8 * a.toNat) ≠ 0) ∧
    (∃ _w : By, ∃ a : BitVec 29, ∃ m : Mach, (mapped (8 * a.toNat) = false ∨ domOf (8 * a.toNat) = 0 ∨ reach m (8 * a.toNat) ≠ .open_)) ∧
    (∃ a : BitVec 29, ∃ e : Fin 32, ∃ x : Eng, ∃ m : Mach, reach m (8 * a.toNat) = .open_ ∧ mapped (8 * a.toNat) = true ∧ domOf (8 * a.toNat) ≠ 0 ∧
      x = engOf m e ∧ sbHead m e = none ∧ (x.st = .running ∨ x.st = .waiting) ∧ x.wait = .none ∧ x.trap = none ∧
      ctlLoadAddr m e = some (8 * a.toNat) ∧ pathTrap m (engSide e) (pathOf x) (8 * a.toNat) 8 false 0 = none) ∧
    (∃ a : BitVec 29, ∃ e : Fin 32, ∃ s : SbEnt, ∃ m : Mach, reach m (8 * a.toNat) = .open_ ∧ mapped (8 * a.toNat) = true ∧
      domOf (8 * a.toNat) ≠ 0 ∧ sbHead m e = some s ∧ s.space = .control ∧ s.addr = (8 * a.toNat) ∧ s.sent = false ∧
      pathTrap m (engSide e) (pathOf (engOf m e)) (8 * a.toNat) 8 true s.data = none) ∧
    (∃ slot : Fin 64, ∃ _v : Word, ∃ m : Mach, ditchRuns m = true ∧ reach m 0x11000 = .open_ ∧ slotBusy m 32 slot = false) ∧
    (∃ slot : Fin 64, ∃ _v : Word, ∃ m : Mach, ditchRuns m = true ∧ reach m 0x11000 = .open_ ∧ slotBusy m 32 slot = true) ∧
    (∃ i : Fin 2, ∃ _a : BitVec 29, ∃ _v : Word, ∃ m : Mach, mgmtOn m i = false) ∧
    (∃ i : Fin 2, ∃ _a : BitVec 29, ∃ _v : Word, ∃ m : Mach, mgmtOn m i = true ∧ bitOf (fget m mgtBase R.MGT_IFCTL_KEEPER) i = false) ∧
    (∃ i : Fin 2, ∃ a : BitVec 29, ∃ v : Word, ∃ sd : Fin 2, ∃ m : Mach, mgmtOn m i = true ∧ bitOf (fget m mgtBase R.MGT_IFCTL_KEEPER) i = true ∧
      reach m (8 * a.toNat) = .open_ ∧ 8 * a.toNat = twnBase sd + 0x50 ∧ 1 ≤ v.toNat % 2 ^ 14 ∧ v.toNat % 2 ^ 14 ≤ 12287) ∧
    (∃ i : Fin 2, ∃ _a : BitVec 29, ∃ m : Mach, mgmtOn m i = false) ∧
    (∃ i : Fin 2, ∃ a : BitVec 29, ∃ m : Mach, mgmtOn m i = true ∧ mapped (8 * a.toNat) = false) ∧
    (∃ i : Fin 2, ∃ a : BitVec 29, ∃ sd : Fin 2, ∃ m : Mach, mgmtOn m i = true ∧ reach m (8 * a.toNat) = .open_ ∧ 8 * a.toNat = twnBase sd + 0x50) :=
  ⟨⟨0x21C00A, 5, Mach.reset, by decide +kernel⟩,
    ⟨0x4000, 5, wOn, by decide +kernel⟩,
    ⟨0x21C00A, 5, fset wOn (8 * 6) R.PWR_DOM_STATE 3, by decide +kernel⟩,
    ⟨0x21C00A, 5, fset wOn (8 * 6) R.PWR_DOM_STATE 0, by decide +kernel⟩,
    ⟨0x21C00A, 0x20005, 0, wSet [(twnBase 0, R.TWN_HIMARK_CROSSED, 1), (twnBase 0, R.TWN_HIMARK_CROSSINGS, 9)] wOn, by decide +kernel⟩,
    ⟨0x21C00A, 0x3000, 0, wOn, by decide +kernel⟩,
    ⟨0x4B, 0x8000000000000007, 3, Cnt.reset, wOn, by decide +kernel⟩,
    ⟨0x21C00A, 5, 3, wOn, by decide +kernel⟩,
    ⟨0x21C00A, 5, 3, ⟨.control,0x10E0050,8,5,0,false,false,false⟩, engSet wOn 3 { Eng.fresh with st := .running, sb := [⟨.control, 0x10E0050, 8, 5, 0, false, false, false⟩] }, by decide +kernel⟩,
    ⟨0x21C00A, Mach.reset, by decide +kernel⟩,
    ⟨0x4000, wOn, by decide +kernel⟩,
    ⟨0x21C00A, fset wOn (8 * 6) R.PWR_DOM_STATE 1, by decide +kernel⟩,
    ⟨0x21C00A, 0, fset wOn (twnBase 0) R.TWN_HIMARK_CROSSINGS 9, by decide +kernel⟩,
    ⟨0x21C00A, 0x20005, 0, fset wOn (twnBase 0) R.TWN_HIMARK_CROSSED 1, by decide +kernel⟩,
    ⟨0x200, 5, 0, .full, Mach.reset, by decide +kernel⟩,
    ⟨0x209, 5, 0, .high, 1, wOn, by decide +kernel⟩,
    ⟨0x209, 5, 0, .high, 1, (fun m : Mach => { m with ports := { m.ports with queues := { wOn.ports.queues with commits := [1] } } }) (wOn), by decide +kernel⟩,
    ⟨0x700, 5, 0, .low, wOn, by decide +kernel⟩,
    ⟨0x200, 0, .full, Mach.reset, by decide +kernel⟩,
    ⟨0x209, 0, .low, wOn, by decide +kernel⟩,
    ⟨0x400, 0, .low, wOn, by decide +kernel⟩,
    ⟨0x700, 0, .low, wOn, by decide +kernel⟩,
    ⟨0, ⟨0,true,1,0,R.aonRegs,true⟩, wOn, by decide +kernel, by simp [blkAt], by decide +kernel, by decide +kernel, by decide +kernel, by decide +kernel⟩,
    ⟨0, Mach.reset, by decide +kernel⟩,
    ⟨0, 3, ⟨.control,8,8,1,0,false,false,false⟩, engSet wOn 3 { Eng.fresh with st := .running, sb := [⟨.control, 8, 8, 1, 0, false, false, false⟩] }, by decide +kernel⟩,
    ⟨0, ⟨0,true,1,0,R.aonRegs,true⟩, fset wOn 0 hdrLock 1, by decide +kernel, by simp [blkAt], by decide +kernel, by decide +kernel, by decide +kernel, by decide +kernel⟩,
    ⟨0, 3, wOn, by decide +kernel⟩,
    ⟨0, 3, ⟨.control,8,8,2,0,false,false,false⟩, ⟨0,true,1,0,R.aonRegs,true⟩, fset (engSet wOn 3 { Eng.fresh with st := .running, keeper := true, sb := [⟨.control, 8, 8, 2, 0, false, false, false⟩] }) 0 hdrLock 1, by simp [blkAt], by decide +kernel, by decide +kernel, by decide +kernel, by decide +kernel, by decide +kernel, by decide +kernel, by decide +kernel, by decide +kernel, by decide +kernel, by decide +kernel⟩,
    ⟨0x21C00A, wOn, by decide +kernel⟩,
    ⟨.ditch, 0x21C00A, fset wOn (8 * 6) R.PWR_DOM_STATE 0, by decide +kernel⟩,
    ⟨0x21C00A, 3, (engOf wCtl 3), wCtl, by decide +kernel⟩,
    ⟨0x21C00A, 3, ⟨.control,0x10E0050,8,5,0,false,false,false⟩, engSet wOn 3 { Eng.fresh with st := .running, keeper := true, sb := [⟨.control, 0x10E0050, 8, 5, 0, false, false, false⟩] }, by decide +kernel⟩,
    ⟨5, 77, wOn, by decide +kernel⟩,
    ⟨5, 77, { wOn with ports := { wOn.ports with queues := { wOn.ports.queues with commits := [32 * 64 + 5] } } }, by decide +kernel⟩,
    ⟨1, 0x21C00A, 5, fset wOn mgtBase R.MGT_IFCTL_ETHEN 0, by decide +kernel⟩,
    ⟨0, 0x21C00A, 5, fset wOn mgtBase R.MGT_IFCTL_KEEPER 2, by decide +kernel⟩,
    ⟨0, 0x21C00A, 5, 0, fset wOn mgtBase R.MGT_IFCTL_KEEPER 3, by decide +kernel⟩,
    ⟨1, 0x21C00A, fset wOn mgtBase R.MGT_IFCTL_ETHEN 0, by decide +kernel⟩,
    ⟨0, 0x4000, wOn, by decide +kernel⟩,
    ⟨0, 0x21C00A, 0, fset wOn (twnBase 0) R.TWN_HIMARK_CROSSINGS 9, by decide +kernel⟩⟩

theorem witness_pldm_base_and_monitoring :
    (∃ _i : Fin 2, ∃ n : Nat, ∃ id : Nat, ∃ _m : Mach, n < 139 ∧ id = (if n < 80 then n + 1 else if n < 120 then n + 21 else if n < 132 then n + 81
      else if n < 135 then n + 169 else n + 266)) ∧
    (∃ _i : Fin 2, ∃ n : Nat, ∃ _m : Mach, 139 ≤ n) ∧
    (∃ _i : Fin 2, ∃ id : BitVec 16, ∃ _m : Mach, 1 ≤ id.toNat ∧ id.toNat ≤ 80) ∧
    (∃ _i : Fin 2, ∃ id : BitVec 16, ∃ _m : Mach, 101 ≤ id.toNat ∧ id.toNat ≤ 140) ∧
    (∃ _i : Fin 2, ∃ id : BitVec 16, ∃ _m : Mach, 201 ≤ id.toNat ∧ id.toNat ≤ 212) ∧
    (∃ _i : Fin 2, ∃ id : BitVec 16, ∃ f : Fin 2, ∃ _m : Mach, id.toNat = 301 + f.val) ∧
    (∃ _i : Fin 2, ∃ id : BitVec 16, ∃ _m : Mach, id.toNat = 303) ∧
    (∃ _i : Fin 2, ∃ id : BitVec 16, ∃ _m : Mach, sensorIds.contains id.toNat = false) ∧
    (∃ _i : Fin 2, ∃ id : BitVec 16, ∃ _m : Mach, id.toNat = 401) ∧
    (∃ _i : Fin 2, ∃ id : BitVec 16, ∃ f : Fin 2, ∃ _m : Mach, id.toNat = 402 + f.val) ∧
    (∃ _i : Fin 2, ∃ id : BitVec 16, ∃ _m : Mach, id.toNat = 404) ∧
    (∃ _i : Fin 2, ∃ id : BitVec 16, ∃ _m : Mach, (id.toNat < 401 ∨ 404 < id.toNat)) ∧
    (∃ i : Fin 2, ∃ _eid : BitVec 8, ∃ _poll : Bool, ∃ m : Mach, mgmtOn m i = false) ∧
    (∃ i : Fin 2, ∃ _eid : BitVec 8, ∃ _poll : Bool, ∃ m : Mach, mgmtOn m i = true) ∧
    (∃ _i : Fin 2, ∃ m : Mach, m.mgmt.events = []) ∧
    (∃ _i : Fin 2, ∃ id v : Nat, ∃ rest : List (Nat × Nat), ∃ m : Mach, m.mgmt.events = (id, v) :: rest) :=
  ⟨⟨0, 134, 303, wOn, by decide +kernel⟩,
    ⟨0, 139, wOn, by decide +kernel⟩,
    ⟨0, 80, wOn, by decide +kernel⟩,
    ⟨0, 140, wOn, by decide +kernel⟩,
    ⟨0, 212, wOn, by decide +kernel⟩,
    ⟨0, 302, 1, wOn, by decide +kernel⟩,
    ⟨0, 303, wOn, by decide +kernel⟩,
    ⟨0, 81, wOn, by decide +kernel⟩,
    ⟨0, 401, wOn, by decide +kernel⟩,
    ⟨0, 403, 1, wOn, by decide +kernel⟩,
    ⟨0, 404, wOn, by decide +kernel⟩,
    ⟨0, 405, wOn, by decide +kernel⟩,
    ⟨1, 9, true, Mach.reset, by decide +kernel⟩,
    ⟨0, 9, true, wOn, by decide +kernel⟩,
    ⟨0, wOn, by decide +kernel⟩,
    ⟨0, 5, 1, [], (fun m : Mach => { m with mgmt := { m.mgmt with events := [(5, 1)] } }) (wOn), by decide +kernel⟩⟩

theorem witness_pldm_firmware_update :
    (∃ _i : Fin 2, ∃ m : Mach, m.mgmt.upd = none) ∧
    (∃ _i : Fin 2, ∃ u : Update, ∃ m : Mach, m.mgmt.upd = some u ∧ u.phase ≠ 0) ∧
    (∃ _i : Fin 2, ∃ _comp : BitVec 16, ∃ m : Mach, m.mgmt.upd = none) ∧
    (∃ _i : Fin 2, ∃ _comp : BitVec 16, ∃ u : Update, ∃ m : Mach, m.mgmt.upd = some u ∧ u.phase ≠ 1) ∧
    (∃ _i : Fin 2, ∃ _n : Nat, ∃ m : Mach, m.mgmt.upd = none) ∧
    (∃ _i : Fin 2, ∃ _n : Nat, ∃ u : Update, ∃ m : Mach, m.mgmt.upd = some u ∧ u.phase ≠ 2) ∧
    (∃ _i : Fin 2, ∃ _pkg : Package, ∃ m : Mach, m.mgmt.upd = none) ∧
    (∃ _i : Fin 2, ∃ _pkg : Package, ∃ u : Update, ∃ m : Mach, m.mgmt.upd = some u ∧ u.phase ≠ 2) ∧
    (∃ _i : Fin 2, ∃ m : Mach, m.mgmt.upd = none) ∧
    (∃ _i : Fin 2, ∃ u : Update, ∃ m : Mach, m.mgmt.upd = some u ∧ u.phase ≠ 3) ∧
    (∃ _i : Fin 2, ∃ m : Mach, m.mgmt.upd = none) ∧
    (∃ _i : Fin 2, ∃ u : Update, ∃ m : Mach, m.mgmt.upd = some u ∧ u.phase ≠ 4) ∧
    (∃ _i : Fin 2, ∃ m : Mach, m.mgmt.upd = none) ∧
    (∃ _i : Fin 2, ∃ u : Update, ∃ m : Mach, m.mgmt.upd = some u ∧ u.phase ≠ 1) ∧
    (∃ _i : Fin 2, ∃ m : Mach, m.mgmt.upd = none) ∧
    (∃ _i : Fin 2, ∃ u : Update, ∃ m : Mach, m.mgmt.upd = some u ∧ u.phase < 2) ∧
    (∃ _i : Fin 2, ∃ m : Mach, m.mgmt.upd = none) ∧
    (∃ _i : Fin 2, ∃ m : Mach, slotValid m 0 = none ∧ slotValid m 1 = none ∧ slotValid m 2 = none) ∧
    (∃ _i : Fin 2, ∃ a b c : Package, ∃ m : Mach, slotValid m 0 = some a ∧ slotValid m 1 = some b ∧ slotValid m 2 = some c) ∧
    (∃ _i : Fin 2, ∃ _ep : BitVec 8, ∃ m : Mach, m.mgmt.upd = none) ∧
    (∃ _i : Fin 2, ∃ _ep : BitVec 8, ∃ u : Update, ∃ m : Mach, m.mgmt.upd = some u) ∧
    (∃ i : Fin 2, ∃ u : Update, ∃ m : Mach, updOn m i = true ∧ m.mgmt.upd = some u ∧ u.phase = 0) ∧
    (∃ i : Fin 2, ∃ comp : BitVec 16, ∃ u : Update, ∃ s : Nat, ∃ m : Mach, updOn m i = true ∧ m.mgmt.upd = some u ∧ u.phase = 1 ∧ comp.toNat = 1 ∧
      s = (if ditchRuns m = true ∧ fget m mgtBase R.MGT_STATUS_SLOT = 0 then 1 else 0)) ∧
    (∃ i : Fin 2, ∃ comp : BitVec 16, ∃ u : Update, ∃ m : Mach, updOn m i = true ∧ m.mgmt.upd = some u ∧ u.phase = 1 ∧ comp.toNat = 2) ∧
    (∃ i : Fin 2, ∃ comp : BitVec 16, ∃ u : Update, ∃ m : Mach, updOn m i = true ∧ m.mgmt.upd = some u ∧ u.phase = 1 ∧ comp.toNat = 3) ∧
    (∃ i : Fin 2, ∃ comp : BitVec 16, ∃ u : Update, ∃ m : Mach, updOn m i = true ∧ m.mgmt.upd = some u ∧ u.phase = 1 ∧
      (comp.toNat = 0 ∨ 3 < comp.toNat)) ∧
    (∃ i : Fin 2, ∃ n : Nat, ∃ u : Update, ∃ m : Mach, updOn m i = true ∧ m.mgmt.upd = some u ∧ u.phase = 2 ∧ n ≤ (if i = 0 then 256 else 1024)) ∧
    (∃ i : Fin 2, ∃ n : Nat, ∃ u : Update, ∃ m : Mach, updOn m i = true ∧ m.mgmt.upd = some u ∧ u.phase = 2 ∧ (if i = 0 then 256 else 1024) < n) ∧
    (∃ i : Fin 2, ∃ _pkg : Package, ∃ u : Update, ∃ m : Mach, updOn m i = true ∧ m.mgmt.upd = some u ∧ u.phase = 2) ∧
    (∃ i : Fin 2, ∃ u : Update, ∃ p : Package, ∃ k : Fin 4, ∃ m : Mach, updOn m i = true ∧ m.mgmt.upd = some u ∧ u.phase = 3 ∧
      (u.comp = 1 ∨ u.comp = 2) ∧ u.pkg = some p ∧ p.formatOk = true ∧ p.key = some k ∧ bitOf m.flash.revoked k = false ∧ p.sigOk = true ∧
      m.flash.svnFuse ≤ p.svn.toNat ∧ p.svn.toNat ≤ 64) ∧
    (∃ i : Fin 2, ∃ u : Update, ∃ p : Package, ∃ k r : Fin 4, ∃ m : Mach, updOn m i = true ∧ m.mgmt.upd = some u ∧ u.phase = 3 ∧ u.comp = 3 ∧
      u.pkg = some p ∧ p.formatOk = true ∧ p.key = some k ∧ bitOf m.flash.revoked k = false ∧ p.revokes = some r ∧ r ≠ k ∧ p.sigOk = true) ∧
    (∃ i : Fin 2, ∃ u : Update, ∃ p : Package, ∃ m : Mach, updOn m i = true ∧ m.mgmt.upd = some u ∧ u.phase = 3 ∧ u.pkg = some p ∧ p.formatOk = false) ∧
    (∃ i : Fin 2, ∃ u : Update, ∃ p : Package, ∃ k : Fin 4, ∃ m : Mach, updOn m i = true ∧ m.mgmt.upd = some u ∧ u.phase = 3 ∧ u.pkg = some p ∧
      p.formatOk = true ∧ (p.key = none ∨ p.key = some k ∧ bitOf m.flash.revoked k = true ∨ p.key = some k ∧ u.comp = 3 ∧
      (p.revokes = none ∨ p.revokes = some k))) ∧
    (∃ i : Fin 2, ∃ u : Update, ∃ p : Package, ∃ k : Fin 4, ∃ m : Mach, updOn m i = true ∧ m.mgmt.upd = some u ∧ u.phase = 3 ∧
      (u.comp = 1 ∨ u.comp = 2) ∧ u.pkg = some p ∧ p.formatOk = true ∧ p.key = some k ∧ bitOf m.flash.revoked k = false ∧ p.sigOk = false) ∧
    (∃ i : Fin 2, ∃ u : Update, ∃ p : Package, ∃ k r : Fin 4, ∃ m : Mach, updOn m i = true ∧ m.mgmt.upd = some u ∧ u.phase = 3 ∧ u.comp = 3 ∧
      u.pkg = some p ∧ p.formatOk = true ∧ p.key = some k ∧ bitOf m.flash.revoked k = false ∧ p.revokes = some r ∧ r ≠ k ∧ p.sigOk = false) ∧
    (∃ i : Fin 2, ∃ u : Update, ∃ p : Package, ∃ k : Fin 4, ∃ m : Mach, updOn m i = true ∧ m.mgmt.upd = some u ∧ u.phase = 3 ∧
      (u.comp = 1 ∨ u.comp = 2) ∧ u.pkg = some p ∧ p.formatOk = true ∧ p.key = some k ∧ bitOf m.flash.revoked k = false ∧ p.sigOk = true ∧
      (p.svn.toNat < m.flash.svnFuse ∨ 64 < p.svn.toNat)) ∧
    (∃ i : Fin 2, ∃ u : Update, ∃ m : Mach, updOn m i = true ∧ m.mgmt.upd = some u ∧ u.phase = 4 ∧ u.comp = 1) ∧
    (∃ i : Fin 2, ∃ u : Update, ∃ p : Package, ∃ m : Mach, updOn m i = true ∧ m.mgmt.upd = some u ∧ u.phase = 4 ∧ u.comp = 2 ∧ slotValid m 2 = some p) ∧
    (∃ i : Fin 2, ∃ u : Update, ∃ p : Package, ∃ r : Fin 4, ∃ m : Mach, updOn m i = true ∧ m.mgmt.upd = some u ∧ u.phase = 4 ∧ u.comp = 3 ∧
      u.pkg = some p ∧ p.revokes = some r) ∧
    (∃ i : Fin 2, ∃ u : Update, ∃ m : Mach, updOn m i = true ∧ m.mgmt.upd = some u ∧ u.phase = 1 ∧ (u.ready = false ∨ ditchRuns m = false)) ∧
    (∃ i : Fin 2, ∃ u : Update, ∃ p : Package, ∃ m : Mach, updOn m i = true ∧ m.mgmt.upd = some u ∧ u.phase = 1 ∧ u.ready = true ∧
      ditchRuns m = true ∧ slotValid m u.slot = some p) ∧
    (∃ i : Fin 2, ∃ u : Update, ∃ p : Package, ∃ m : Mach, updOn m i = true ∧ m.mgmt.upd = some u ∧ u.phase = 1 ∧ u.ready = true ∧
      ditchRuns m = true ∧ slotValid m u.slot = none ∧ slotValid m (fget m mgtBase R.MGT_STATUS_SLOT) = some p) ∧
    (∃ i : Fin 2, ∃ u : Update, ∃ p : Package, ∃ m : Mach, updOn m i = true ∧ m.mgmt.upd = some u ∧ u.phase = 1 ∧ u.ready = true ∧
      ditchRuns m = true ∧ slotValid m u.slot = none ∧ slotValid m (fget m mgtBase R.MGT_STATUS_SLOT) = none ∧ slotValid m 0 = none ∧
      slotValid m 1 = none ∧ slotValid m 2 = some p) ∧
    (∃ i : Fin 2, ∃ u : Update, ∃ m : Mach, updOn m i = true ∧ m.mgmt.upd = some u ∧ u.phase = 1 ∧ u.ready = true ∧ ditchRuns m = true ∧
      slotValid m u.slot = none ∧ slotValid m (fget m mgtBase R.MGT_STATUS_SLOT) = none ∧ slotValid m 0 = none ∧ slotValid m 1 = none ∧
      slotValid m 2 = none) ∧
    (∃ i : Fin 2, ∃ u : Update, ∃ m : Mach, updOn m i = true ∧ m.mgmt.upd = some u ∧ 2 ≤ u.phase) ∧
    (∃ i : Fin 2, ∃ u : Update, ∃ m : Mach, updOn m i = true ∧ m.mgmt.upd = some u) :=
  ⟨⟨0, wOn, by decide +kernel⟩,
    ⟨0, ⟨5,1,1,2,0,none,false⟩, (fun m : Mach => { m with mgmt := { m.mgmt with upd := some ⟨5,1,1,2,0,none,false⟩ } }) (wOn), by decide +kernel⟩,
    ⟨0, 1, wOn, by decide +kernel⟩,
    ⟨0, 1, ⟨5,1,1,0,0,none,false⟩, (fun m : Mach => { m with mgmt := { m.mgmt with upd := some ⟨5,1,1,0,0,none,false⟩ } }) (wOn), by decide +kernel⟩,
    ⟨0, 64, wOn, by decide +kernel⟩,
    ⟨0, 64, ⟨5,1,1,3,0,none,false⟩, (fun m : Mach => { m with mgmt := { m.mgmt with upd := some ⟨5,1,1,3,0,none,false⟩ } }) (wOn), by decide +kernel⟩,
    ⟨0, ⟨true,5,3,none,true,none,0,0⟩, wOn, by decide +kernel⟩,
    ⟨0, ⟨true,5,3,none,true,none,0,0⟩, ⟨5,1,1,3,0,none,false⟩, (fun m : Mach => { m with mgmt := { m.mgmt with upd := some ⟨5,1,1,3,0,none,false⟩ } }) (wOn), by decide +kernel⟩,
    ⟨0, wOn, by decide +kernel⟩,
    ⟨0, ⟨5,1,1,0,0,none,false⟩, (fun m : Mach => { m with mgmt := { m.mgmt with upd := some ⟨5,1,1,0,0,none,false⟩ } }) (wOn), by decide +kernel⟩,
    ⟨0, wOn, by decide +kernel⟩,
    ⟨0, ⟨5,1,1,0,0,none,false⟩, (fun m : Mach => { m with mgmt := { m.mgmt with upd := some ⟨5,1,1,0,0,none,false⟩ } }) (wOn), by decide +kernel⟩,
    ⟨0, wOn, by decide +kernel⟩,
    ⟨0, ⟨5,1,1,0,0,none,false⟩, (fun m : Mach => { m with mgmt := { m.mgmt with upd := some ⟨5,1,1,0,0,none,false⟩ } }) (wOn), by decide +kernel⟩,
    ⟨0, wOn, by decide +kernel⟩,
    ⟨0, ⟨5,1,1,0,0,none,false⟩, (fun m : Mach => { m with mgmt := { m.mgmt with upd := some ⟨5,1,1,0,0,none,false⟩ } }) (wOn), by decide +kernel⟩,
    ⟨0, wOn, by decide +kernel⟩,
    ⟨0, wOn, by decide +kernel⟩,
    ⟨0, ⟨true,5,3,some 1,true,none,0,0⟩, ⟨true,5,3,some 1,true,none,0,0⟩, ⟨true,5,3,some 1,true,none,0,0⟩, wFw, by decide +kernel⟩,
    ⟨0, 7, wOn, by decide +kernel⟩,
    ⟨0, 7, ⟨5,1,1,0,0,none,false⟩, (fun m : Mach => { m with mgmt := { m.mgmt with upd := some ⟨5,1,1,0,0,none,false⟩ } }) (wOn), by decide +kernel⟩,
    ⟨0, ⟨5,1,1,0,0,none,false⟩, (fun m : Mach => { m with mgmt := { m.mgmt with upd := some ⟨5,1,1,0,0,none,false⟩ } }) (wOn), by decide +kernel⟩,
    ⟨0, 1, ⟨5,1,1,1,0,none,false⟩, 1, (fun m : Mach => { m with mgmt := { m.mgmt with upd := some ⟨5,1,1,1,0,none,false⟩ } }) (fset wFw mgtBase R.MGT_STATUS_SLOT 0), by decide +kernel⟩,
    ⟨0, 2, ⟨5,1,1,1,0,none,true⟩, (fun m : Mach => { m with mgmt := { m.mgmt with upd := some ⟨5,1,1,1,0,none,true⟩ } }) (wFw), by decide +kernel⟩,
    ⟨0, 3, ⟨5,1,1,1,0,none,true⟩, (fun m : Mach => { m with mgmt := { m.mgmt with upd := some ⟨5,1,1,1,0,none,true⟩ } }) (wFw), by decide +kernel⟩,
    ⟨0, 4, ⟨5,1,1,1,0,none,false⟩, (fun m : Mach => { m with mgmt := { m.mgmt with upd := some ⟨5,1,1,1,0,none,false⟩ } }) (wOn), by decide +kernel⟩,
    ⟨1, 1024, ⟨5,1,1,2,0,none,false⟩, (fun m : Mach => { m with mgmt := { m.mgmt with upd := some ⟨5,1,1,2,0,none,false⟩ } }) (fset wOn mgtBase R.MGT_IFCTL_ETHEN 1), by decide +kernel⟩,
    ⟨0, 257, ⟨5,1,1,2,0,none,false⟩, (fun m : Mach => { m with mgmt := { m.mgmt with upd := some ⟨5,1,1,2,0,none,false⟩ } }) (wOn), by decide +kernel⟩,
    ⟨0, ⟨true,5,3,some 1,true,none,0,0⟩, ⟨5,1,1,2,0,none,false⟩, (fun m : Mach => { m with mgmt := { m.mgmt with upd := some ⟨5,1,1,2,0,none,false⟩ } }) (wOn), by decide +kernel⟩,
    ⟨0, ⟨5,1,1,3,0,some ⟨true,5,3,some 1,true,none,0,0⟩,false⟩, ⟨true,5,3,some 1,true,none,0,0⟩, 1, (fun m : Mach => { m with mgmt := { m.mgmt with upd := some ⟨5,1,1,3,0,some ⟨true,5,3,some 1,true,none,0,0⟩,false⟩ } }) (wOn), by decide +kernel⟩,
    ⟨0, ⟨5,3,1,3,0,some ⟨true,5,3,some 1,true,some 2,0,0⟩,false⟩, ⟨true,5,3,some 1,true,some 2,0,0⟩, 1, 2, (fun m : Mach => { m with mgmt := { m.mgmt with upd := some ⟨5,3,1,3,0,some ⟨true,5,3,some 1,true,some 2,0,0⟩,false⟩ } }) (wOn), by decide +kernel⟩,
    ⟨0, ⟨5,1,1,3,0,some ⟨false,5,3,some 1,true,none,0,0⟩,false⟩, ⟨false,5,3,some 1,true,none,0,0⟩, (fun m : Mach => { m with mgmt := { m.mgmt with upd := some ⟨5,1,1,3,0,some ⟨false,5,3,some 1,true,none,0,0⟩,false⟩ } }) (wOn), by decide +kernel⟩,
    ⟨0, ⟨5,1,1,3,0,some ⟨true,5,3,some 1,true,none,0,0⟩,false⟩, ⟨true,5,3,some 1,true,none,0,0⟩, 1, (fun m : Mach => { m with mgmt := { m.mgmt with upd := some ⟨5,1,1,3,0,some ⟨true,5,3,some 1,true,none,0,0⟩,false⟩ } }) ((fun m : Mach => { m with flash := { m.flash with revoked := 2 } }) (wOn)), by decide +kernel⟩,
    ⟨0, ⟨5,1,1,3,0,some ⟨true,5,3,some 1,false,none,0,0⟩,false⟩, ⟨true,5,3,some 1,false,none,0,0⟩, 1, (fun m : Mach => { m with mgmt := { m.mgmt with upd := some ⟨5,1,1,3,0,some ⟨true,5,3,some 1,false,none,0,0⟩,false⟩ } }) (wOn), by decide +kernel⟩,
    ⟨0, ⟨5,3,1,3,0,some ⟨true,5,3,some 1,false,some 2,0,0⟩,false⟩, ⟨true,5,3,some 1,false,some 2,0,0⟩, 1, 2, (fun m : Mach => { m with mgmt := { m.mgmt with upd := some ⟨5,3,1,3,0,some ⟨true,5,3,some 1,false,some 2,0,0⟩,false⟩ } }) (wOn), by decide +kernel⟩,
    ⟨0, ⟨5,1,1,3,0,some ⟨true,5,3,some 1,true,none,0,0⟩,false⟩, ⟨true,5,3,some 1,true,none,0,0⟩, 1, (fun m : Mach => { m with mgmt := { m.mgmt with upd := some ⟨5,1,1,3,0,some ⟨true,5,3,some 1,true,none,0,0⟩,false⟩ } }) ((fun m : Mach => { m with flash := { m.flash with svnFuse := 4 } }) (wOn)), by decide +kernel⟩,
    ⟨0, ⟨5,1,1,4,0,none,false⟩, (fun m : Mach => { m with mgmt := { m.mgmt with upd := some ⟨5,1,1,4,0,none,false⟩ } }) (wOn), by decide +kernel⟩,
    ⟨0, ⟨5,2,1,4,0,none,false⟩, ⟨true,5,3,some 1,true,none,0,0⟩, (fun m : Mach => { m with mgmt := { m.mgmt with upd := some ⟨5,2,1,4,0,none,false⟩ } }) (wFw), by decide +kernel⟩,
    ⟨0, ⟨5,3,1,4,0,some ⟨true,5,3,some 1,true,some 2,0,0⟩,false⟩, ⟨true,5,3,some 1,true,some 2,0,0⟩, 2, (fun m : Mach => { m with mgmt := { m.mgmt with upd := some ⟨5,3,1,4,0,some ⟨true,5,3,some 1,true,some 2,0,0⟩,false⟩ } }) (wOn), by decide +kernel⟩,
    ⟨0, ⟨5,1,1,1,0,none,false⟩, (fun m : Mach => { m with mgmt := { m.mgmt with upd := some ⟨5,1,1,1,0,none,false⟩ } }) (wOn), by decide +kernel⟩,
    ⟨0, ⟨5,1,1,1,0,none,true⟩, ⟨true,5,3,some 1,true,none,0,0⟩, (fun m : Mach => { m with mgmt := { m.mgmt with upd := some ⟨5,1,1,1,0,none,true⟩ } }) (wFw), by decide +kernel⟩,
    ⟨0, ⟨5,1,3,1,0,none,true⟩, ⟨true,5,3,some 1,true,none,0,0⟩, (fun m : Mach => { m with mgmt := { m.mgmt with upd := some ⟨5,1,3,1,0,none,true⟩ } }) (wFw), by decide +kernel⟩,
    ⟨0, ⟨5,1,1,1,0,none,true⟩, ⟨true,5,3,some 1,true,none,0,0⟩, (fun m : Mach => { m with mgmt := { m.mgmt with upd := some ⟨5,1,1,1,0,none,true⟩ } }) ((fun m : Mach => { m with flash := { m.flash with fw := m.flash.fw.drop 2 } }) wFw), by decide +kernel⟩,
    ⟨0, ⟨5,1,1,1,0,none,true⟩, (fun m : Mach => { m with mgmt := { m.mgmt with upd := some ⟨5,1,1,1,0,none,true⟩ } }) (wOn), by decide +kernel⟩,
    ⟨0, ⟨5,1,1,2,0,none,false⟩, (fun m : Mach => { m with mgmt := { m.mgmt with upd := some ⟨5,1,1,2,0,none,false⟩ } }) (wFw), by decide +kernel⟩,
    ⟨0, ⟨5,1,1,2,0,none,false⟩, (fun m : Mach => { m with mgmt := { m.mgmt with upd := some ⟨5,1,1,2,0,none,false⟩ } }) (wFw), by decide +kernel⟩⟩

theorem witness_fabric_management_and_calls :
    (∃ i : Fin 2, ∃ _args : BitVec 448, ∃ m : Mach, mgmtOn m i = false) ∧
    (∃ i : Fin 2, ∃ _args : BitVec 448, ∃ s : Nat, ∃ m : Mach, mgmtOn m i = true ∧ fon m mgtBase R.MGT_FMCTL_FMDC = true ∧
      (m.mgmt.fmTag = none ∨ m.mgmt.fmResult ≠ none) ∧ s = (sget 0 m.ports.queues.taken 32 + (m.ports.queues.commits.filter fun k => k / 64 ==
      32).length) % 64 ∧ slotBusy m 32 s = true) ∧
    (∃ i : Fin 2, ∃ _args : BitVec 448, ∃ m : Mach, mgmtOn m i = true ∧ fon m mgtBase R.MGT_FMCTL_FMDC = false) ∧
    (∃ i : Fin 2, ∃ _args : BitVec 448, ∃ t : Nat, ∃ m : Mach, mgmtOn m i = true ∧ fon m mgtBase R.MGT_FMCTL_FMDC = true ∧ m.mgmt.fmTag = some t ∧
      m.mgmt.fmResult = none) ∧
    (∃ i : Fin 2, ∃ _args : BitVec 448, ∃ s : Nat, ∃ m : Mach, mgmtOn m i = true ∧ fon m mgtBase R.MGT_FMCTL_FMDC = true ∧
      (m.mgmt.fmTag = none ∨ m.mgmt.fmResult ≠ none) ∧ s = (sget 0 m.ports.queues.taken 32 + (m.ports.queues.commits.filter fun k => k / 64 ==
      32).length) % 64 ∧ slotBusy m 32 s = false) ∧
    (∃ i : Fin 2, ∃ _args : BitVec 448, ∃ m : Mach, mgmtOn m i = false) ∧
    (∃ i : Fin 2, ∃ _args : BitVec 448, ∃ s : Nat, ∃ m : Mach, mgmtOn m i = true ∧ fon m mgtBase R.MGT_FMCTL_FMDC = true ∧
      (m.mgmt.fmTag = none ∨ m.mgmt.fmResult ≠ none) ∧ s = (sget 0 m.ports.queues.taken 32 + (m.ports.queues.commits.filter fun k => k / 64 ==
      32).length) % 64 ∧ slotBusy m 32 s = true) ∧
    (∃ i : Fin 2, ∃ _args : BitVec 448, ∃ m : Mach, mgmtOn m i = true ∧ fon m mgtBase R.MGT_FMCTL_FMDC = false) ∧
    (∃ i : Fin 2, ∃ _args : BitVec 448, ∃ t : Nat, ∃ m : Mach, mgmtOn m i = true ∧ fon m mgtBase R.MGT_FMCTL_FMDC = true ∧ m.mgmt.fmTag = some t ∧
      m.mgmt.fmResult = none) ∧
    (∃ i : Fin 2, ∃ _args : BitVec 448, ∃ s : Nat, ∃ m : Mach, mgmtOn m i = true ∧ fon m mgtBase R.MGT_FMCTL_FMDC = true ∧
      (m.mgmt.fmTag = none ∨ m.mgmt.fmResult ≠ none) ∧ s = (sget 0 m.ports.queues.taken 32 + (m.ports.queues.commits.filter fun k => k / 64 ==
      32).length) % 64 ∧ slotBusy m 32 s = false) ∧
    (∃ i : Fin 2, ∃ _ep : BitVec 8, ∃ _entry : BitVec 8, ∃ _flags : BitVec 2, ∃ _args : BitVec 448, ∃ m : Mach, mgmtOn m i = false) ∧
    (∃ i : Fin 2, ∃ _ep : BitVec 8, ∃ _entry : BitVec 8, ∃ _flags : BitVec 2, ∃ _args : BitVec 448, ∃ s : Nat, ∃ m : Mach, mgmtOn m i = true ∧
      bitOf (fget m mgtBase R.MGT_IFCTL_KEEPER) i = true ∧ s = (sget 0 m.ports.queues.taken 32 + (m.ports.queues.commits.filter fun k => k / 64 ==
      32).length) % 64 ∧ slotBusy m 32 s = true) ∧
    (∃ i : Fin 2, ∃ _ep : BitVec 8, ∃ _entry : BitVec 8, ∃ _flags : BitVec 2, ∃ _args : BitVec 448, ∃ m : Mach, mgmtOn m i = true ∧
      bitOf (fget m mgtBase R.MGT_IFCTL_KEEPER) i = false) ∧
    (∃ i : Fin 2, ∃ _ep : BitVec 8, ∃ _entry : BitVec 8, ∃ _flags : BitVec 2, ∃ _args : BitVec 448, ∃ t s : Nat, ∃ m : Mach, mgmtOn m i = true ∧
      bitOf (fget m mgtBase R.MGT_IFCTL_KEEPER) i = true ∧ s = (sget 0 m.ports.queues.taken 32 + (m.ports.queues.commits.filter fun k => k / 64 ==
      32).length) % 64 ∧ slotBusy m 32 s = false ∧ t = m.mgmt.nextTag) ∧
    (∃ r : HeldRes, ∃ rest : List HeldRes, ∃ m : Mach, m.mgmt.results = r :: rest) ∧
    (∃ m : Mach, m.mgmt.results = []) :=
  ⟨⟨1, 99, fset wOn mgtBase R.MGT_IFCTL_ETHEN 0, by decide +kernel⟩,
    ⟨0, 99, 0, (fun m : Mach => { m with ports := { m.ports with queues := { m.ports.queues with commits := (List.range 64).map (2048 + ·) } } }) (fset wOn mgtBase R.MGT_FMCTL_FMDC 1), by decide +kernel⟩,
    ⟨0, 99, fset wOn mgtBase R.MGT_FMCTL_FMDC 0, by decide +kernel⟩,
    ⟨0, 99, 7, (fun m : Mach => { m with mgmt := { m.mgmt with fmTag := some 7 } }) (fset wOn mgtBase R.MGT_FMCTL_FMDC 1), by decide +kernel⟩,
    ⟨0, 99, 0, fset wOn mgtBase R.MGT_FMCTL_FMDC 1, by decide +kernel⟩,
    ⟨1, 99, fset wOn mgtBase R.MGT_IFCTL_ETHEN 0, by decide +kernel⟩,
    ⟨0, 99, 0, (fun m : Mach => { m with ports := { m.ports with queues := { m.ports.queues with commits := (List.range 64).map (2048 + ·) } } }) (fset wOn mgtBase R.MGT_FMCTL_FMDC 1), by decide +kernel⟩,
    ⟨0, 99, fset wOn mgtBase R.MGT_FMCTL_FMDC 0, by decide +kernel⟩,
    ⟨0, 99, 7, (fun m : Mach => { m with mgmt := { m.mgmt with fmTag := some 7 } }) (fset wOn mgtBase R.MGT_FMCTL_FMDC 1), by decide +kernel⟩,
    ⟨0, 99, 0, fset wOn mgtBase R.MGT_FMCTL_FMDC 1, by decide +kernel⟩,
    ⟨1, 9, 17, 2, 5, fset wOn mgtBase R.MGT_IFCTL_ETHEN 0, by decide +kernel⟩,
    ⟨0, 9, 17, 2, 5, 0, (fun m : Mach => { m with ports := { m.ports with queues := { m.ports.queues with commits := (List.range 64).map (2048 + ·) } } }) (fset wOn mgtBase R.MGT_IFCTL_KEEPER 1), by decide +kernel⟩,
    ⟨0, 9, 17, 2, 5, fset wOn mgtBase R.MGT_IFCTL_KEEPER 2, by decide +kernel⟩,
    ⟨0, 9, 17, 2, 5, 0x8000, 0, fset wOn mgtBase R.MGT_IFCTL_KEEPER 1, by decide +kernel⟩,
    ⟨⟨9,0x8000,5⟩, [], (fun m : Mach => { m with mgmt := { m.mgmt with results := [⟨9, 0x8000, 5⟩] } }) (wOn), by decide +kernel⟩,
    ⟨wOn, by decide +kernel⟩⟩

theorem witness_ditchrider_log_updates_and_watchdog :
    (∃ _pkg : Package, ∃ _env : StartEnv, ∃ m : Mach, fget m mgtBase R.MGT_STATUS_STATE ≠ 4) ∧
    (∃ pkg : Package, ∃ _env : StartEnv, ∃ k : Fin 4, ∃ m : Mach, fget m mgtBase R.MGT_STATUS_STATE = 4 ∧ fon m aonBase R.AON_LOAD_DONE = true ∧
      pkg.formatOk = true ∧ pkg.sigOk = true ∧ pkg.key = some k ∧ bitOf m.flash.revoked k = false ∧ m.flash.svnFuse ≤ pkg.svn.toNat ∧
      pkg.svn.toNat ≤ 64 ∧ opMode m = 1 ∧ m.boot.faultLow = true) ∧
    (∃ pkg : Package, ∃ _env : StartEnv, ∃ m : Mach, fget m mgtBase R.MGT_STATUS_STATE = 4 ∧ pkgValid m pkg = false) ∧
    (∃ pkg : Package, ∃ _env : StartEnv, ∃ m : Mach, fget m mgtBase R.MGT_STATUS_STATE = 4 ∧ pkgValid m pkg = true ∧ opMode m = 0 ∧
      m.boot.power = true ∧ fon m aonBase R.AON_LOAD_DONE = false) ∧
    (∃ m : Mach, ditchRuns m = true ∧ m.log.pers.length + m.log.pend.length ≤ 1048576) ∧
    (∃ m : Mach, ditchRuns m = true ∧ 1048576 < m.log.pers.length + m.log.pend.length) ∧
    (∃ m : Mach, ditchRuns m = false) ∧
    (∃ seq : BitVec 32, ∃ boot : BitVec 16, ∃ pers : Bool, ∃ r : LogRec, ∃ m : Mach, reach m (mgtBase + 0x78) = .open_ ∧
      ((ringOf m pers).find? fun r => recSeq r == seq.toNat && (!pers || r.boot == boot.toNat)) = some r) ∧
    (∃ seq : BitVec 32, ∃ _boot : BitVec 16, ∃ pers : Bool, ∃ m : Mach, reach m (mgtBase + 0x78) = .open_ ∧ pers = false ∧
      (m.log.ring.any fun r => recSeq r == seq.toNat) = false ∧ (m.log.held.any fun r => recSeq r == seq.toNat) = false ∧ seq.toNat < m.log.seq) ∧
    (∃ seq : BitVec 32, ∃ _boot : BitVec 16, ∃ pers : Bool, ∃ m : Mach, reach m (mgtBase + 0x78) = .open_ ∧ pers = false ∧
      (m.log.ring.any fun r => recSeq r == seq.toNat) = false ∧ m.log.seq ≤ seq.toNat) ∧
    (∃ seq : BitVec 32, ∃ boot : BitVec 16, ∃ pers : Bool, ∃ m : Mach, reach m (mgtBase + 0x78) = .open_ ∧ pers = true ∧
      (m.log.pers.any fun r => recSeq r == seq.toNat && r.boot == boot.toNat) = false ∧ fget m mgtBase R.MGT_LOGSTAT_BOOT < boot.toNat) ∧
    (∃ seq : BitVec 32, ∃ boot : BitVec 16, ∃ pers : Bool, ∃ m : Mach, reach m (mgtBase + 0x78) = .open_ ∧ pers = true ∧
      (m.log.pers.any fun r => recSeq r == seq.toNat && r.boot == boot.toNat) = false ∧ boot.toNat < fget m mgtBase R.MGT_LOGSTAT_BOOT) ∧
    (∃ m : Mach, ditchRuns m = true) ∧
    (∃ r : LogRec, ∃ m : Mach, ditchRuns m = true ∧ m.log.held = [r] ∧ r.ceOnly = false ∧ m.log.ring.length < 65536 ∧ m.log.pend.length < 127) ∧
    (∃ m : Mach, ditchRuns m = false) ∧
    (∃ i : Fin 2, ∃ p f : Package, ∃ m : Mach, mgmtOn m i = true ∧ bitOf (fget m mgtBase R.MGT_IFCTL_KEEPER) i = true ∧ fwOf m = some p ∧
      slotValid m 2 = some f) ∧
    (∃ i : Fin 2, ∃ m : Mach, mgmtOn m i = true ∧ bitOf (fget m mgtBase R.MGT_IFCTL_KEEPER) i = false) ∧
    (∃ m : Mach, reach m (mgtBase + 0x50) = .open_ ∧ m.mgmt.staged = none) ∧
    (∃ i : Fin 2, ∃ m : Mach, mgmtOn m i = false) ∧
    (∃ i : Fin 2, ∃ m : Mach, mgmtOn m i = true ∧ bitOf (fget m mgtBase R.MGT_IFCTL_KEEPER) i = true ∧ (fwOf m = none ∨ slotValid m 2 = none)) ∧
    (∃ m : Mach, reach m (mgtBase + 0x50) = .open_ ∧ (ditchRuns m = false ∨ fon m mgtBase R.MGT_UPD_PROGBUSY = true)) ∧
    (∃ img : Nat, ∃ m : Mach, reach m (mgtBase + 0x50) = .open_ ∧ ditchRuns m = true ∧ fon m mgtBase R.MGT_UPD_PROGBUSY = false ∧
      m.mgmt.staged = some img ∧ sideUp m 0 = true ∧ sideUp m 1 = true ∧ domSt m 10 = 2 ∧ domSt m 16 = 2 ∧ ((∀ sd < 2, oldBusy m sd ≠ 0))) ∧
    (∃ img : Nat, ∃ m : Mach, reach m (mgtBase + 0x50) = .open_ ∧ ditchRuns m = true ∧ fon m mgtBase R.MGT_UPD_PROGBUSY = false ∧
      m.mgmt.staged = some img ∧ sideUp m 0 = true ∧ sideUp m 1 = true ∧ domSt m 10 = 2 ∧ domSt m 16 = 2 ∧ ((∀ sd < 2, oldBusy m sd = 0))) ∧
    (∃ _t : Fin 4, ∃ m : Mach, ditchRuns m = true) ∧
    (∃ _t : Fin 4, ∃ m : Mach, ditchRuns m = false) ∧
    (∃ m : Mach, reach m (mgtBase + 0x58) = .open_) ∧
    (∃ _env : StartEnv, ∃ m : Mach, (ditchRuns m = false ∨ m.mgmt.suspended = true)) ∧
    (∃ _env : StartEnv, ∃ p : Package, ∃ s : Nat, ∃ m : Mach, ditchRuns m = true ∧ m.mgmt.suspended = false ∧ fget m mgtBase R.MGT_WD_LEVEL = 0 ∧
      s = fget m mgtBase R.MGT_STATUS_SLOT ∧ slotValid m s = some p) ∧
    (∃ _env : StartEnv, ∃ p : Package, ∃ s : Nat, ∃ m : Mach, ditchRuns m = true ∧ m.mgmt.suspended = false ∧ fget m mgtBase R.MGT_WD_LEVEL = 1 ∧
      s = fget m mgtBase R.MGT_STATUS_SLOT ∧ s < 2 ∧ slotValid m (1 - s) = some p) ∧
    (∃ _env : StartEnv, ∃ m : Mach, ditchRuns m = true ∧ m.mgmt.suspended = false ∧ fget m mgtBase R.MGT_WD_LEVEL < 2 ∧ slotValid m 0 = none ∧
      slotValid m 1 = none ∧ slotValid m 2 = none ∧ fget m mgtBase R.MGT_STATUS_SLOT < 3) ∧
    (∃ _env : StartEnv, ∃ m : Mach, ditchRuns m = true ∧ m.mgmt.suspended = false ∧ fget m mgtBase R.MGT_WD_LEVEL = 2 ∧
      fon m mgtBase R.MGT_WD_WARM = true) ∧
    (∃ _env : StartEnv, ∃ m : Mach, ditchRuns m = true ∧ m.mgmt.suspended = false ∧ fget m mgtBase R.MGT_WD_LEVEL = 2 ∧
      fon m mgtBase R.MGT_WD_WARM = false) ∧
    (∃ m : Mach, fget m mgtBase R.MGT_WD_LEVEL ≠ 3) ∧
    (∃ m : Mach, fget m mgtBase R.MGT_WD_LEVEL = 3) ∧
    (∃ p : Package, ∃ m : Mach, fget m mgtBase R.MGT_STATUS_STATE = 3 ∧ slotValid m 0 = none ∧ slotValid m 1 = none ∧ slotValid m 2 = some p) ∧
    (∃ a b : Package, ∃ s : Nat, ∃ m : Mach, fget m mgtBase R.MGT_STATUS_STATE = 3 ∧ slotValid m 0 = some a ∧ slotValid m 1 = some b ∧
      s = (if a.version.toNat < b.version.toNat then 1 else 0)) ∧
    (∃ p : Package, ∃ s : Fin 2, ∃ m : Mach, fget m mgtBase R.MGT_STATUS_STATE = 3 ∧ slotValid m s = some p ∧ slotValid m (1 - s.val) = none) ∧
    (∃ m : Mach, fget m mgtBase R.MGT_STATUS_STATE = 3 ∧ slotValid m 0 = none ∧ slotValid m 1 = none ∧ slotValid m 2 = none) ∧
    (∃ m : Mach, fget m mgtBase R.MGT_STATUS_STATE ≠ 3) :=
  ⟨⟨⟨true,5,3,some 1,true,none,0,0⟩, ⟨[],true,true,0,true,3,0xFFFFFFFF,255,(255,255,255,63),0xFFFFFFFF,0⟩, wOn, by decide +kernel⟩,
    ⟨⟨true,5,3,some 1,true,none,0,0⟩, ⟨[],true,true,0,true,3,0xFFFFFFFF,255,(255,255,255,63),0xFFFFFFFF,0⟩, 1, (fun m : Mach => { m with boot := { m.boot with faultLow := true } }) (wSet [(mgtBase, R.MGT_STATUS_STATE, 4), (aonBase, R.AON_LOAD_DONE, 1)] wOn), by decide +kernel⟩,
    ⟨⟨true,5,3,some 1,true,none,0,0⟩, ⟨[],true,true,0,true,3,0xFFFFFFFF,255,(255,255,255,63),0xFFFFFFFF,0⟩, (fun m : Mach => { m with flash := { m.flash with svnFuse := 4 } }) (fset wOn mgtBase R.MGT_STATUS_STATE 4), by decide +kernel⟩,
    ⟨⟨true,5,3,some 1,true,none,0,0⟩, ⟨[],true,true,0,true,3,0xFFFFFFFF,255,(255,255,255,63),0xFFFFFFFF,0⟩, wSet [(mgtBase, R.MGT_STATUS_STATE, 4), (aonBase, R.AON_OPMODE_MODE, 0), (aonBase, R.AON_LOAD_DONE, 0)] wPow, by decide +kernel⟩,
    ⟨(fun m : Mach => { m with log := { m.log with pend := [⟨[0,0,0,0,0,0,5],2⟩] } }) (wOn), by decide +kernel⟩,
    ⟨wPers 1048576, by decide +kernel, by rw [wPers_log]; decide⟩,
    ⟨Mach.reset, by decide +kernel⟩,
    ⟨5, 2, true, ⟨[0,0,0,0,0,0,5],2⟩, (fun m : Mach => { m with log := { m.log with pers := [⟨[0,0,0,0,0,0,5],2⟩] } }) (wOn), by decide +kernel⟩,
    ⟨5, 2, false, (fun m : Mach => { m with log := { m.log with seq := 9 } }) (wOn), by decide +kernel⟩,
    ⟨5, 2, false, wOn, by decide +kernel⟩,
    ⟨5, 2, true, fset wOn mgtBase R.MGT_LOGSTAT_BOOT 1, by decide +kernel⟩,
    ⟨5, 2, true, fset wOn mgtBase R.MGT_LOGSTAT_BOOT 3, by decide +kernel⟩,
    ⟨(fun m : Mach => { m with log := { m.log with held := [⟨[2, 0, 0, 0, 0, 0, 5], 2⟩] } }) (wOn), by decide +kernel⟩,
    ⟨⟨[2,0,0,0,0,0,5],2⟩, (fun m : Mach => { m with log := { m.log with held := [⟨[2, 0, 0, 0, 0, 0, 5], 2⟩] } }) (wOn), by decide +kernel⟩,
    ⟨Mach.reset, by decide +kernel⟩,
    ⟨0, ⟨true,5,3,some 1,true,none,0,0⟩, ⟨true,5,3,some 1,true,none,0,0⟩, fset wFw mgtBase R.MGT_IFCTL_KEEPER 1, by decide +kernel⟩,
    ⟨0, fset wOn mgtBase R.MGT_IFCTL_KEEPER 2, by decide +kernel⟩,
    ⟨wOn, by decide +kernel⟩,
    ⟨1, fset wOn mgtBase R.MGT_IFCTL_ETHEN 0, by decide +kernel⟩,
    ⟨0, fset wOn mgtBase R.MGT_IFCTL_KEEPER 1, by decide +kernel⟩,
    ⟨(fun m : Mach => { m with mgmt := { m.mgmt with staged := some 5 } }) (fset wOn mgtBase R.MGT_UPD_PROGBUSY 1), by decide +kernel⟩,
    ⟨5, (fun m : Mach => { m with mgmt := { m.mgmt with staged := some 5 } }) (wOldBusy), by decide +kernel⟩,
    ⟨5, (fun m : Mach => { m with mgmt := { m.mgmt with staged := some 5 } }) (wOn), by decide +kernel⟩,
    ⟨2, (fun m : Mach => { m with mgmt := { m.mgmt with phy := [0, 1, 2, 3] } }) (wOn), by decide +kernel⟩,
    ⟨2, Mach.reset, by decide +kernel⟩,
    ⟨(fun m : Mach => { m with mgmt := { m.mgmt with suspended := true } }) (wOn), by decide +kernel⟩,
    ⟨⟨[],true,true,0,true,3,0xFFFFFFFF,255,(255,255,255,63),0xFFFFFFFF,0⟩, Mach.reset, by decide +kernel⟩,
    ⟨⟨[],true,true,0,true,3,0xFFFFFFFF,255,(255,255,255,63),0xFFFFFFFF,0⟩, ⟨true,5,3,some 1,true,none,0,0⟩, 0, wFw, by decide +kernel⟩,
    ⟨⟨[],true,true,0,true,3,0xFFFFFFFF,255,(255,255,255,63),0xFFFFFFFF,0⟩, ⟨true,5,3,some 1,true,none,0,0⟩, 0, fset wFw mgtBase R.MGT_WD_LEVEL 1, by decide +kernel⟩,
    ⟨⟨[],true,true,0,true,3,0xFFFFFFFF,255,(255,255,255,63),0xFFFFFFFF,0⟩, wOn, by decide +kernel⟩,
    ⟨⟨[],true,true,0,true,3,0xFFFFFFFF,255,(255,255,255,63),0xFFFFFFFF,0⟩, wSet [(mgtBase, R.MGT_WD_LEVEL, 2), (mgtBase, R.MGT_WD_WARM, 1)] wOn, by decide +kernel⟩,
    ⟨⟨[],true,true,0,true,3,0xFFFFFFFF,255,(255,255,255,63),0xFFFFFFFF,0⟩, wSet [(mgtBase, R.MGT_WD_LEVEL, 2), (mgtBase, R.MGT_WD_WARM, 0)] wOn, by decide +kernel⟩,
    ⟨fset wOn mgtBase R.MGT_WD_LEVEL 2, by decide +kernel⟩,
    ⟨fset wOn mgtBase R.MGT_WD_LEVEL 3, by decide +kernel⟩,
    ⟨⟨true,5,3,some 1,true,none,0,0⟩, (fun m : Mach => { m with flash := { m.flash with fw := m.flash.fw.drop 2 } }) (fset wFw mgtBase R.MGT_STATUS_STATE 3), by decide +kernel⟩,
    ⟨⟨true,5,3,some 1,true,none,0,0⟩, ⟨true,5,3,some 1,true,none,0,0⟩, 0, fset wFw mgtBase R.MGT_STATUS_STATE 3, by decide +kernel⟩,
    ⟨⟨true,5,3,some 1,true,none,0,0⟩, 0, (fun m : Mach => { m with flash := { m.flash with fw := m.flash.fw.take 1 } }) (fset wFw mgtBase R.MGT_STATUS_STATE 3), by decide +kernel⟩,
    ⟨fset wOn mgtBase R.MGT_STATUS_STATE 3, by decide +kernel⟩,
    ⟨wOn, by decide +kernel⟩⟩
end

section
/-! SUPPORT. What loops, folds and the shared operations leave unchanged. -/

namespace Sys2Proof.Machine

/-! ## Loops -/

/-- What no round of a counted loop changes, the loop does not change. -/
theorem forN_same {α β : Type} (p : α → β) {f : Nat → α → α} (h : ∀ i a, p (f i a) = p a) (n : Nat) (a : α) :
    p (forN n f a) = p a := by
  induction n with
  | zero => rfl
  | succ n ih => exact (h n _).trans ih

/-- What no round of a fold changes, the fold does not change. -/
theorem foldl_same {α β γ : Type} (p : α → β) {f : α → γ → α} (h : ∀ a x, p (f a x) = p a) (l : List γ) (a : α) :
    p (l.foldl f a) = p a := by
  induction l generalizing a with
  | nil => rfl
  | cons x l ih => exact (ih _).trans (h a x)

/-! ## Counters, records and fields -/

/-- A count changes counters alone. -/
theorem count_same {β : Type} (p : Mach → β) (hp : ∀ m b k c, p (cntPut m b k c) = p m) (m : Mach) (b c n : Nat) :
    p (count m b c n) = p m := by
  unfold count
  split
  · rfl
  · refine forN_same p (fun i a => ?_) 8 m
    dsimp only
    split
    · exact hp ..
    · rfl

@[simp] theorem count_regs (m : Mach) (b c n : Nat) : (count m b c n).regs = m.regs := count_same Mach.regs cntPut_regs m b c n
@[simp] theorem count_home (m : Mach) (b c n : Nat) : (count m b c n).home = m.home := count_same Mach.home cntPut_home m b c n
@[simp] theorem count_twin (m : Mach) (b c n : Nat) : (count m b c n).twin = m.twin := count_same Mach.twin cntPut_twin m b c n
@[simp] theorem count_boot (m : Mach) (b c n : Nat) : (count m b c n).boot = m.boot := count_same Mach.boot cntPut_boot m b c n

@[simp] theorem finc_home (m : Mach) (b : Nat) (f : Fld) (n : Nat) : (finc m b f n).home = m.home := fset_home ..
@[simp] theorem finc_twin (m : Mach) (b : Nat) (f : Fld) (n : Nat) : (finc m b f n).twin = m.twin := fset_twin ..
@[simp] theorem finc_boot (m : Mach) (b : Nat) (f : Fld) (n : Nat) : (finc m b f n).boot = m.boot := fset_boot ..
@[simp] theorem fsat_home (m : Mach) (b : Nat) (f : Fld) (n : Nat) : (fsat m b f n).home = m.home := fset_home ..
@[simp] theorem fsat_boot (m : Mach) (b : Nat) (f : Fld) (n : Nat) : (fsat m b f n).boot = m.boot := fset_boot ..

@[simp] theorem logRecord_home (m : Mach) (w : Nat) (ws : List Nat) : (logRecord m w ws).home = m.home := by
  simp [logRecord, logWrite, logFlush, apply_ite Mach.home]

@[simp] theorem logRecord_boot (m : Mach) (w : Nat) (ws : List Nat) : (logRecord m w ws).boot = m.boot := by
  simp [logRecord, logWrite, logFlush, apply_ite Mach.boot]

@[simp] theorem forN_fset_home (n : Nat) (b : Nat → Nat) (f : Fld) (v : Nat → Mach → Nat) (m : Mach) :
    (forN n (fun i m => fset m (b i) f (v i m)) m).home = m.home := forN_same Mach.home (fun _ _ => fset_home ..) n m

@[simp] theorem forN_fset_boot (n : Nat) (b : Nat → Nat) (f : Fld) (v : Nat → Mach → Nat) (m : Mach) :
    (forN n (fun i m => fset m (b i) f (v i m)) m).boot = m.boot := forN_same Mach.boot (fun _ _ => fset_boot ..) n m

/-- An error on the returning side marks its soak, and changes nothing else. -/
theorem soakErr_eq (m : Mach) (e : Err) : soakErr m e = m ∨ soakErr m e = { m with twin := { m.twin with soakBad := true } } := by
  unfold soakErr
  split
  · split
    · exact .inr rfl
    · exact .inl rfl
  · exact .inl rfl

@[simp] theorem soakErr_regs (m : Mach) (e : Err) : (soakErr m e).regs = m.regs := by
  rcases soakErr_eq m e with h | h <;> rw [h]

@[simp] theorem soakErr_home (m : Mach) (e : Err) : (soakErr m e).home = m.home := by
  rcases soakErr_eq m e with h | h <;> rw [h]

@[simp] theorem soakErr_boot (m : Mach) (e : Err) : (soakErr m e).boot = m.boot := by
  rcases soakErr_eq m e with h | h <;> rw [h]

@[simp] theorem errWrite_home (m : Mach) (e : Err) (n : Nat) : (errWrite m e n).home = m.home := by
  simp [errWrite, apply_ite Mach.home]

@[simp] theorem errWrite_boot (m : Mach) (e : Err) (n : Nat) : (errWrite m e n).boot = m.boot := by
  simp [errWrite, apply_ite Mach.boot]

@[simp] theorem err_home (m : Mach) (e : Err) : (err m e).home = m.home := by
  simp [err, apply_ite Mach.home]

@[simp] theorem err_boot (m : Mach) (e : Err) : (err m e).boot = m.boot := by
  simp [err, apply_ite Mach.boot]

end Sys2Proof.Machine
end

section
/-! SUPPORT. The directory mirror under the home's own work: requests, fills, snoops and sled writes change the store, and send its changes
over the bridge, but leave the mirror of the other side's store as it is (R147). -/

namespace Sys2Proof.Machine

/-! ## Reservoir, tailwater buffer and streams -/

@[simp] theorem streamPut_home (m : Mach) (h : Nat) (s : Stream) : (streamPut m h s).home = m.home := rfl
@[simp] theorem setSlot_home (m : Mach) (sd i : Nat) (s : Option Slot) : (setSlot m sd i s).home = m.home := rfl
@[simp] theorem slotCmds_home (m : Mach) (sd i n : Nat) : (slotCmds m sd i n).home = m.home := rfl

@[simp] theorem supersede_home (m : Mach) (sd pln : Nat) (img : Img) : (supersede m sd pln img).home = m.home := by
  unfold supersede
  dsimp only
  split
  · rfl
  · split
    · rfl
    · split <;> rfl

@[simp] theorem twQueue_home (m : Mach) (sd pln : Nat) (img : Img) (mask : Mask) (done : List TwDone) (o : TwOrigin) :
    (twQueue m sd pln img mask done o).home = m.home := by
  simp [twQueue, apply_ite Mach.home]

@[simp] theorem forcedCheck_home (m : Mach) (sd : Nat) : (forcedCheck m sd).home = m.home := by
  simp [forcedCheck, apply_ite Mach.home]

@[simp] theorem fin_home (m : Mach) (q : Req) (img : Option Img) (g : Option DirSt) (res : Nat) : (fin m q img g res).home = m.home := rfl

@[simp] theorem gaugeUntwinned_home (m : Mach) (sd pln : Nat) : (gaugeUntwinned m sd pln).home = m.home := by
  simp [gaugeUntwinned, apply_ite Mach.home]

@[simp] theorem twinWrite_home (m : Mach) (h pln : Nat) (img : Img) (p : Bool) (a : AckFor) : (twinWrite m h pln img p a).home = m.home := by
  unfold twinWrite
  split
  · simp
  · cases a <;> simp

@[simp] theorem snoop_home (m : Mach) (h pln : Nat) (k : Snp) (p : Nat) : (snoop m h pln k p).home = m.home := by
  simp [snoop, apply_ite Mach.home]

@[simp] theorem snoopAll_home (m : Mach) (h pln : Nat) (k : Snp) (ps : List Nat) : (snoopAll m h pln k ps).home = m.home :=
  foldl_same Mach.home (fun _ _ => snoop_home ..) ps m

@[simp] theorem recsFree_home (m : Mach) (t pln : Nat) : (recsFree m t pln).home = m.home := by
  refine foldl_same Mach.home (fun a c => ?_) _ m
  dsimp only
  split <;> rfl

@[simp] theorem copyFree_home (m : Mach) (t pln : Nat) : (copyFree m t pln).home = m.home := recsFree_home ..

@[simp] theorem drainFree_home (m : Mach) (sd pln : Nat) : (drainFree m sd pln).home = m.home := by
  simp [drainFree, apply_ite Mach.home]

@[simp] theorem rangeWrote_home (m : Mach) (q : Req) : (rangeWrote m q).home = m.home := by
  unfold rangeWrote
  split <;> simp

@[simp] theorem blkNote_home (m : Mach) (r : Mshr) (q : Req) (n : Bool) : (blkNote m r q n).home = m.home := by
  unfold blkNote
  split <;> rfl

/-! ## Miss registers, ways and buffers -/

@[simp] theorem mshrPut_mirror (m : Mach) (r : Mshr) : (mshrPut m r).home.mirror = m.home.mirror := rfl
@[simp] theorem mshrDel_mirror (m : Mach) (h pln : Nat) : (mshrDel m h pln).home.mirror = m.home.mirror := rfl
@[simp] theorem plruTouch_mirror (m : Mach) (h s w : Nat) : (plruTouch m h s w).home.mirror = m.home.mirror := rfl

@[simp] theorem handOn_home (m : Mach) (h pln : Nat) (img : Img) (d pf : Bool) (o : OfferFrom) : (handOn m h pln img d pf o).home = m.home := by
  simp [handOn, apply_ite Mach.home]

@[simp] theorem evict_mirror (m : Mach) (h s w : Nat) : (evict m h s w).home.mirror = m.home.mirror := by
  unfold evict
  split
  · rfl
  · simp [apply_ite Mach.home, apply_ite Home.mirror]

@[simp] theorem install_mirror (m : Mach) (r : Mshr) (img : Img) (w : Nat) : (install m r img w).home.mirror = m.home.mirror := by
  simp [install, apply_ite Mach.home, apply_ite Home.mirror]

@[simp] theorem pfTrigger_mirror (m : Mach) (h : Nat) (q : Req) : (pfTrigger m h q).home.mirror = m.home.mirror := by
  simp [pfTrigger, apply_ite Mach.home, apply_ite Home.mirror]

@[simp] theorem hgHit_mirror (m : Mach) (h : Nat) (q : Req) : (hgHit m h q).home.mirror = m.home.mirror := by
  unfold hgHit
  split
  · rfl
  · simp [apply_ite Mach.home, apply_ite Home.mirror]

@[simp] theorem wbWrite_mirror (m : Mach) (h pln : Nat) (img : Img) (d : Bool) : (wbWrite m h pln img d).home.mirror = m.home.mirror := by
  unfold wbWrite
  split
  · rfl
  · split <;> simp

@[simp] theorem closeMshr_mirror (m : Mach) (r : Mshr) : (closeMshr m r).home.mirror = m.home.mirror := by
  unfold closeMshr
  split
  · rfl
  · split
    · simp [apply_ite Mach.home, apply_ite Home.mirror]
    · split
      · split <;> simp
      · simp [apply_ite Mach.home]

@[simp] theorem foldl_slotCmds_home (sd : Nat) (l : List Nat) (n : Nat) (m : Mach) :
    (l.foldl (fun m i => slotCmds m sd i n) m).home = m.home := foldl_same Mach.home (fun _ _ => slotCmds_home ..) l m

@[simp] theorem dropCopies_mirror (m : Mach) (h pln : Nat) : (dropCopies m h pln).home.mirror = m.home.mirror := by
  unfold dropCopies
  cases hgFind m h pln <;> dsimp only <;> split
  case none.isFalse | some.isFalse => split <;> simp
  all_goals rfl

/-! ## The miss register's head request -/

/-- The machine that a step of a miss register's head request leaves. -/
def PumpRes.mach : PumpRes → Mach
  | .next m => m
  | .lookup m => m
  | .stop m => m

@[simp] theorem PumpRes.mach_next (m : Mach) : (PumpRes.next m).mach = m := rfl
@[simp] theorem PumpRes.mach_lookup (m : Mach) : (PumpRes.lookup m).mach = m := rfl
@[simp] theorem PumpRes.mach_stop (m : Mach) : (PumpRes.stop m).mach = m := rfl

@[simp] theorem PumpRes.mach_ite (c : Prop) [Decidable c] (a b : PumpRes) :
    (if c then a else b).mach = if c then a.mach else b.mach := apply_ite ..

@[simp] theorem placeWrite_mirror (m : Mach) (r : Mshr) (q : Req) (res : Nat) (w : WriteFor) :
    (placeWrite m r q res w).mach.home.mirror = m.home.mirror := by
  unfold placeWrite
  extract_lets +onlyGivenNames h sd a0 a1 a held full base waits asks inHg m0 m1 m2 m3 r'
  have h3 : m3.home.mirror = m.home.mirror := by simp [m3, m2, m1, apply_ite Mach.home, apply_ite Home.mirror]
  clear_value base r' m3
  split
  · simp
  · cases base with
    | none => simp [apply_ite Mach.home, apply_ite Home.mirror, h3, m0]
    | some b => simp [apply_ite Mach.home, apply_ite Home.mirror, h3, m0]

@[simp] theorem maintDo_mirror (m : Mach) (r : Mshr) (q : Req) (k : Maint) : (maintDo m r q k).mach.home.mirror = m.home.mirror := by
  unfold maintDo
  extract_lets +onlyGivenNames h sd drain below after
  have hafter (m : Mach) : (after m).home = m.home := by
    dsimp only [after]
    split <;> rfl
  clear_value after
  split
  · rfl
  · cases k with
    | zero => exact placeWrite_mirror ..
    | prefetch =>
      dsimp only
      split
      · simp [apply_ite Mach.home]
      · simp
    | discard => simp [apply_ite Mach.home]
    | clean => dsimp only; split <;> simp [hafter]
    | flush => dsimp only; split <;> simp [hafter]

@[simp] theorem prepare_mirror (m : Mach) (r : Mshr) (q : Req) : (prepare m r q).home.mirror = m.home.mirror := rfl

theorem perform_mirror (m : Mach) (r : Mshr) (q : Req) : (perform m r q).mach.home.mirror = m.home.mirror := by
  unfold perform
  extract_lets +onlyGivenNames h img hit read
  clear_value img
  have hhit (m : Mach) : (hit m).home.mirror = m.home.mirror := by simp [hit, apply_ite Mach.home, apply_ite Home.mirror]
  have hread (g : Option DirSt) : (read g).mach.home.mirror = m.home.mirror := by
    dsimp only [read]
    cases img <;> simp [apply_ite Mach.home, apply_ite Home.mirror, hhit]
  clear_value hit read
  split
  case h_14 =>
    dsimp only
    split
    · rfl
    · split <;> simp [apply_ite Mach.home, apply_ite Home.mirror]
  case h_15 => cases img <;> simp [apply_ite Mach.home, apply_ite Home.mirror]
  case h_18 => cases img <;> rfl
  all_goals simp [hread, hhit]

/-! ## Coherence -/

@[simp] theorem dcTouch_mirror (m : Mach) (h half set : Nat) (d : Bool) : (dcTouch m h half set d).home.mirror = m.home.mirror := by
  unfold dcTouch
  dsimp only
  split <;> rfl

@[simp] theorem dirPut_mirror (m : Mach) (h pln w : Nat) (e : Option DirEnt) (g : Option (Nat × Nat)) :
    (dirPut m h pln w e g).home.mirror = m.home.mirror := by
  simp [dirPut, apply_ite Mach.home]

@[simp] theorem freeEnt_mirror (m : Mach) (h pln : Nat) : (freeEnt m h pln).home.mirror = m.home.mirror := by
  unfold freeEnt
  split <;> simp

@[simp] theorem setEnt_mirror (m : Mach) (h pln : Nat) (st : DirSt) (pres : Nat) : (setEnt m h pln st pres).home.mirror = m.home.mirror := by
  unfold setEnt
  split <;> simp

@[simp] theorem poisonHome_mirror (m : Mach) (h pln : Nat) : (poisonHome m h pln).home.mirror = m.home.mirror := by
  unfold poisonHome
  extract_lets +onlyGivenNames img m1 a twin mark m2 inBuf
  have htwin (m : Mach) : (twin m).home = m.home := by simp [twin, apply_ite Mach.home]
  have h2 : m2.home.mirror = m.home.mirror := by
    dsimp only [m2]
    split <;> simp [m1]
  clear_value twin m2
  split
  · simp [apply_ite Mach.home, htwin, h2]
  · simp [htwin, h2]
  · simp [apply_ite Mach.home, htwin, h2]

@[simp] theorem applyLost_mirror (m : Mach) (h pln : Nat) : (applyLost m h pln).home.mirror = m.home.mirror := by
  unfold applyLost
  split
  · rfl
  · simp [apply_ite Mach.home, apply_ite Home.mirror]

/-- Does a property hold of the machine that the search for a grant's way leaves? -/
def WayRes.All (p : Mach → Prop) : WayRes → Prop
  | .way m _ => p m
  | .recall m => p m
  | .queue => True

/-- Does a property hold of the machine that the coherence step of a request leaves? -/
def Coh.All (p : Mach → Prop) : Coh → Prop
  | .ok m _ => p m
  | .snoop m _ _ _ => p m
  | .fill m => p m
  | .recall m => p m
  | .wait m => p m

@[simp] theorem Coh.all_ok (p : Mach → Prop) (m : Mach) (g : Option DirSt) : (Coh.ok m g).All p ↔ p m := .rfl
@[simp] theorem Coh.all_snoop (p : Mach → Prop) (m : Mach) (t : Trans) (k : Snp) (ps : List Nat) : (Coh.snoop m t k ps).All p ↔ p m := .rfl
@[simp] theorem Coh.all_fill (p : Mach → Prop) (m : Mach) : (Coh.fill m).All p ↔ p m := .rfl

@[simp] theorem Coh.all_ite (p : Mach → Prop) (c : Prop) [Decidable c] (a b : Coh) :
    (if c then a else b).All p ↔ if c then a.All p else b.All p := by
  split <;> rfl

/-- The mirror after a coherence step that starts from a machine with mirror `a`. -/
theorem Coh.All.trans {c : Coh} {a b : List (Nat × DirEnt)} (h : c.All fun m => m.home.mirror = a) (e : a = b) :
    c.All fun m => m.home.mirror = b := e ▸ h

theorem grantWay_mirror (m : Mach) (h pln : Nat) : (grantWay m h pln).All fun m' => m'.home.mirror = m.home.mirror := by
  unfold grantWay
  dsimp only
  split
  · rfl
  · split
    · split
      · trivial
      · dsimp only [WayRes.All]
        split <;> simp
    · split
      · trivial
      · split
        · trivial
        · simp [WayRes.All]

@[simp] theorem grantEnt_mirror (m : Mach) (h pln : Nat) (st : DirSt) (pres p : Nat) :
    (grantEnt m h pln st pres p).All fun m' => m'.home.mirror = m.home.mirror := by
  have hway := grantWay_mirror m h pln
  unfold grantEnt
  cases hg : grantWay m h pln with
  | way m' w =>
    rw [hg] at hway
    dsimp only
    split
    · exact hway
    · exact (dirPut_mirror ..).trans hway
  | queue => rfl
  | _ => rw [hg] at hway; exact hway

@[simp] theorem addRights_mirror (m : Mach) (h pln : Nat) (st : DirSt) (pres p : Nat) :
    (addRights m h pln st pres p).All fun m' => m'.home.mirror = m.home.mirror := by
  unfold addRights
  split
  · exact dirPut_mirror ..
  · rfl

@[simp] theorem fromI_mirror (m : Mach) (h pln p : Nat) (c : HostCls) (d : Bool) :
    (fromI m h pln p c d).All fun m' => m'.home.mirror = m.home.mirror := by
  cases c with
  | rdShared | share | rdOwn | own | wbShared | wbKeep => exact grantEnt_mirror ..
  | rdCur | release | wbInv => exact freeEnt_mirror ..
  | touch | wbNoOp => rfl

@[simp] theorem cohHost_mirror (m : Mach) (h pln p : Nat) (c : HostCls) (d first : Bool) :
    (cohHost m h pln p c d first).All fun m' => m'.home.mirror = m.home.mirror := by
  unfold cohHost
  split
  · exact fromI_mirror ..
  · rename_i w e _
    extract_lets +onlyGivenNames mine others m1
    have h1 : m1.home.mirror = m.home.mirror := by simp [m1, apply_ite Mach.home]
    rw [← h1]
    clear_value m1
    cases c <;> simp [apply_ite Mach.home, apply_ite Home.mirror]

theorem coher_mirror (m : Mach) (r : Mshr) (q : Req) : (coher m r q).All fun m' => m'.home.mirror = m.home.mirror := by
  unfold coher
  extract_lets +onlyGivenNames h a wdirty own
  clear_value a wdirty own
  split
  · rfl
  · split
    · split
      · split
        · exact (cohHost_mirror ..).trans (by simp [apply_ite Mach.home])
        · rfl
      · split <;> simp
    · split
      · split
        · rfl
        · split <;> simp
      · split
        · rfl
        · extract_lets +onlyGivenNames m1 m2 m3 others
          have h3 : m3.home.mirror = m.home.mirror := by simp [m3, m2, m1, apply_ite Mach.home]
          clear_value m3
          rw [← h3]
          split
          · rfl
          · split
            · exact cohHost_mirror ..
            · split
              · rfl
              · dsimp only
                split
                · split <;> rfl
                · split <;> simp

/-! ## The pump -/

theorem applyLate_mirror (m : Mach) (r : Mshr) (q : Req) : (applyLate m r q).mach.home.mirror = m.home.mirror := placeWrite_mirror ..

/-- A register's requests, in whatever order they are processed, leave the mirror as it is. -/
theorem pump_mirror (n : Nat) (m : Mach) (h pln : Nat) : (pump n m h pln).home.mirror = m.home.mirror := by
  induction n generalizing m with
  | zero => rfl
  | succ n ih =>
    unfold pump
    split
    · rfl
    · rename_i r _
      split
      · rfl
      · split
        · rename_i q _ _
          split
          · simp [ih]
          · have hl := applyLate_mirror m r q
            cases ha : applyLate m r q with
            | next m' =>
              rw [ha] at hl
              dsimp only
              split
              · exact (ih _).trans hl
              · exact hl
            | lookup m' => rw [ha] at hl; simp [apply_ite Mach.home, apply_ite Home.mirror, hl.symm]
            | stop m' => rw [ha] at hl; simp [apply_ite Mach.home, apply_ite Home.mirror, hl.symm]
        · split
          · rfl
          · split
            · split
              · exact ih _
              · exact closeMshr_mirror ..
            · rename_i q _ _
              split
              · have hc := coher_mirror m r q
                cases ha : coher m r q with
                | ok m' g => rw [ha] at hc; exact (ih _).trans (by simpa using hc)
                | snoop m' t k ps =>
                  rw [ha, Coh.all_snoop] at hc
                  dsimp only
                  split
                  · simp [apply_ite Mach.home, hc]
                  · simp [hc]
                | wait m' => rw [ha] at hc; dsimp only; split <;> exact hc
                | _ => rw [ha] at hc; exact hc
              · have hp := perform_mirror m r q
                cases ha : perform m r q with
                | next m' =>
                  rw [ha] at hp
                  dsimp only
                  split
                  · exact (ih _).trans hp
                  · exact hp
                | lookup m' => rw [ha] at hp; simp [apply_ite Mach.home, apply_ite Home.mirror, hp.symm]
                | stop m' => rw [ha] at hp; exact hp

@[simp] theorem pumpAll_mirror (m : Mach) (h pln : Nat) : (pumpAll m h pln).home.mirror = m.home.mirror := pump_mirror ..

end Sys2Proof.Machine
end

section
/-! SUPPORT. What a takeover leaves: the mirror that the fence has emptied stays empty through the replay (R208 to R212). -/

namespace Sys2Proof.Machine

/-! ## The fence -/

@[simp] theorem msix_home (m : Mach) (p v : Nat) : (msix m p v).home = m.home := by
  simp [msix, apply_ite Mach.home]

@[simp] theorem resSend_home (m : Mach) (c : Call) (n : Bool) (st v : Nat) : (resSend m c n st v).home = m.home := by
  unfold resSend
  split
  · simp [apply_ite Mach.home, resPut]
  · rfl

@[simp] theorem callEnd_home (m : Mach) (e : Nat) (st : EngSt) (s : Option (Nat × Nat)) : (callEnd m e st s).home = m.home := by
  unfold callEnd
  dsimp only
  cases (engOf m e).call.bind (callOf m) with
  | none => rfl
  | some c => 
    cases s with
    | none => rfl
    | some x => exact resSend_home ..

@[simp] theorem sideLostCalls_home (m : Mach) (sd : Nat) : (sideLostCalls m sd).home = m.home := by
  unfold sideLostCalls
  extract_lets m1
  have h1 : m1.home = m.home := by
    refine foldl_same Mach.home (fun a i => ?_) _ m
    simp [apply_ite Mach.home]
  rw [← h1]
  refine foldl_same Mach.home (fun a c => ?_) _ m1
  simp [callFree]

@[simp] theorem marksBegin_home (p : Nat → Bool) (m : Mach) : (marksBegin p m).home = m.home := rfl

@[simp] theorem resetRegs_home (m : Mach) (p : Nat → Bool) : (resetRegs m p none).home = m.home := by
  unfold resetRegs
  exact marksBegin_home ..

@[simp] theorem gwPut_home (m : Mach) (sd s st : Nat) : (gwPut m sd s st).home = m.home := by
  unfold gwPut
  extract_lets m1 m2
  have h1 : m1.home = m.home := fset_home ..
  have h2 : m2.home = m1.home := by
    dsimp only [m2]
    split
    · rfl
    · exact fset_home ..
  rw [fset_home, h2, h1]

@[simp] theorem slicesState_home (m : Mach) (sd st : Nat) : (slicesState m sd st).home = m.home := forN_fset_home ..

@[simp] theorem clearHome_mirror (m : Mach) (sd : Nat) : (clearHome m sd).home.mirror = m.home.mirror := rfl
@[simp] theorem clearEngines_home (m : Mach) (sd : Nat) : (clearEngines m sd).home = m.home := rfl
@[simp] theorem clearStacks_home (m : Mach) (sd : Nat) : (clearStacks m sd).home = m.home := rfl
@[simp] theorem clearLoops_home (m : Mach) (sd : Nat) : (clearLoops m sd).home = m.home := rfl

theorem forN_gwPut_home (n sd st : Nat) (m : Mach) : (forN n (fun s m => gwPut m sd s st) m).home = m.home :=
  forN_same Mach.home (fun _ _ => gwPut_home ..) n m

@[simp] theorem domPut_home (m : Mach) (d st : Nat) : (domPut m d st).home = m.home := fset_home ..

theorem clearSide_mirror (m : Mach) (sd : Nat) : (clearSide m sd).home.mirror = m.home.mirror := by
  unfold clearSide
  extract_lets +onlyGivenNames m1 m2 m3 m4 sleds snps ports m5 m6 m7 m8 m9 net m10 m11
  have h5 : m5.home.mirror = m.home.mirror := by simp [m5, m4, m3, m2, m1]
  clear_value m5
  have h6 : m6.home = m5.home := by
    refine foldl_same Mach.home (fun a d => ?_) _ m5
    simp [apply_ite Mach.home]
  clear_value m6
  have h9 : m9.home = m6.home := by simp [m9, m8, m7]
  clear_value m9
  have h11 : m11.home = m9.home := forN_gwPut_home ..
  rw [fset_home, h11, h9, h6, h5]

/-! ## Grants, acknowledgments and replay -/

theorem applyGrant_mirror (t : Nat) (m : Mach) (g : Grant) : (applyGrant t m g).home.mirror = m.home.mirror := by
  unfold applyGrant
  extract_lets +onlyGivenNames half l h put tag st
  have hput (m : Mach) (w : Nat) (e : DirEnt) : (put m w e).home.mirror = m.home.mirror := rfl
  clear_value put
  split
  · split <;> exact hput ..
  · split
    · dsimp only
      rw [hput]
      split <;> simp
    · simp [hput]
    · rfl

@[simp] theorem noteUcc_home (m : Mach) (pln : Nat) : (noteUcc m pln).home = m.home := err_home ..

@[simp] theorem repairPoison_mirror (m : Mach) (pln : Nat) (w : Repair) : (repairPoison m pln w).home.mirror = m.home.mirror := by
  unfold repairPoison
  extract_lets +onlyGivenNames rec_
  have hrec (m : Mach) (e : Err) (act : Nat) : (rec_ m e act).home = m.home := err_home ..
  clear_value rec_
  cases w with
  | slot sd i => dsimp only; split <;> simp [apply_ite Mach.home, hrec]
  | way h set w => dsimp only; split <;> simp [apply_ite Mach.home, apply_ite Home.mirror, hrec]
  | victim h => simp [hrec]
  | tail sd => simp [hrec]

theorem repairsSingle_mirror (m : Mach) (t : Nat) : (repairsSingle m t).home.mirror = m.home.mirror := by
  unfold repairsSingle
  extract_lets +onlyGivenNames lost ms m1 ras twin m2 m3
  have hlost (m : Mach) (g : Target) : (lost m g).home = m.home := by
    dsimp only [lost]
    cases g <;> simp [apply_ite Mach.home]
  clear_value lost
  have h1 : m1.home = m.home := foldl_same Mach.home hlost _ m
  have h3 : m3.home.mirror = m2.home.mirror := by
    refine foldl_same (fun m : Mach => m.home.mirror) (fun a x => ?_) ms m2
    split
    · exact repairPoison_mirror ..
    · rfl
  exact h3.trans (congrArg Home.mirror h1)

@[simp] theorem ackDone_mirror (m : Mach) (h pln : Nat) (a : AckFor) : (ackDone m h pln a).home.mirror = m.home.mirror := by
  unfold ackDone
  split
  · rfl
  · rfl
  · split
    · rfl
    · split <;> simp

theorem ownAcks_mirror (m : Mach) (t : Nat) : (ownAcks m t).home.mirror = m.home.mirror := by
  unfold ownAcks
  extract_lets +onlyGivenNames m1 ms acks twin m2 m3
  have h1 : m1.home.mirror = m.home.mirror := repairsSingle_mirror ..
  have h3 : m3.home.mirror = m2.home.mirror :=
    foldl_same (fun m : Mach => m.home.mirror) (fun a x => ackDone_mirror ..) acks m2
  refine (foldl_same (fun m : Mach => m.home.mirror) (fun a x => ?_) ms m3).trans (h3.trans h1)
  split
  · exact ackDone_mirror ..
  · rfl

theorem replayPtt_home (m : Mach) (t : Ptt) : (replayPtt m t).home = m.home := by
  unfold replayPtt
  split
  · rfl
  · split <;> rfl

theorem replayUnit_mirror (m : Mach) (q : Req) : (replayUnit m q).home.mirror = m.home.mirror := by
  unfold replayUnit
  split <;> rfl

/-! ## The bridge and the mode -/

@[simp] theorem losePort_mirror (m : Mach) (p : Nat) : (losePort m p).home.mirror = m.home.mirror := by
  unfold losePort
  split
  · rfl
  · simp

@[simp] theorem cutOff_mirror (m : Mach) (t : Nat) : (cutOff m t).home.mirror = m.home.mirror := by
  unfold cutOff
  split
  · rfl
  · refine foldl_same (fun m : Mach => m.home.mirror) (fun a i => ?_) _ m
    split
    · exact losePort_mirror ..
    · rfl

theorem bridgeClose_mirror (m : Mach) (t : Nat) : (bridgeClose m t).home.mirror = m.home.mirror := by
  unfold bridgeClose
  extract_lets m1 m2
  refine (forN_same (fun m : Mach => m.home.mirror) (fun k a => cutOff_mirror a k) 4 m2).trans ?_
  simp [m2, m1]

@[simp] theorem modeEnd_home (m : Mach) (r : Nat) : (modeEnd m r).home = m.home := by
  simp [modeEnd, apply_ite Mach.home]

@[simp] theorem setMode_home (m : Mach) (mode up c : Nat) : (setMode m mode up c).home = m.home := by
  simp [setMode, apply_ite Mach.home]

end Sys2Proof.Machine
end

section
/-! SUPPORT. The register fields that a change of mode is read from, and what leaves them alone: reports, cache levels, lost ports and links
that go down (Tables 8-12 and 8-16). -/

namespace Sys2Proof.Machine

/-- Keys of MODE, SIDE_UP and CAUSE (AON_OPMODE), of BUSY and RESULT (AON_MODECTL), and of each side's TWN_LOG.STATE and BRG_STATUS.UP. -/
def modeKeys : List Nat :=
  [fkey aonBase R.AON_OPMODE_MODE, fkey aonBase R.AON_OPMODE_SIDE_UP, fkey aonBase R.AON_OPMODE_CAUSE,
   fkey aonBase R.AON_MODECTL_BUSY, fkey aonBase R.AON_MODECTL_RESULT,
   fkey (twnBase 0) R.TWN_LOG_STATE, fkey (twnBase 1) R.TWN_LOG_STATE, fkey (brgBase 0) R.BRG_STATUS_UP, fkey (brgBase 1) R.BRG_STATUS_UP]

/-- Does machine `m'` hold the mode fields of `m`? -/
structure SameMode (m m' : Mach) : Prop where
  mget_eq : ∀ k ∈ modeKeys, mget m'.regs k = mget m.regs k

theorem SameMode.refl (m : Mach) : SameMode m m := ⟨fun _ _ => rfl⟩

theorem SameMode.trans {a b c : Mach} (h : SameMode a b) (h' : SameMode b c) : SameMode a c :=
  ⟨fun k hk => (h'.mget_eq k hk).trans (h.mget_eq k hk)⟩

theorem SameMode.of_regs {m m' : Mach} (h : m'.regs = m.regs) : SameMode m m' := ⟨fun _ _ => by rw [h]⟩

theorem SameMode.fget {m m' : Mach} (h : SameMode m m') {b : Nat} {f : Fld} (hk : fkey b f ∈ modeKeys) : fget m' b f = fget m b f := by
  have hr := h.mget_eq _ hk
  unfold fkey at hr
  simp only [Machine.fget, sget, hr]

theorem SameMode.fset {m m' : Mach} (h : SameMode m m') {b : Nat} {f : Fld} (hk : fkey b f ∉ modeKeys) (v : Nat) :
    SameMode m (fset m' b f v) := by
  refine h.trans ⟨fun k hm => ?_⟩
  have hne : fkey b f ≠ k := fun e => hk (e ▸ hm)
  unfold fkey at hne
  unfold Machine.fset sset
  dsimp only
  split
  · rw [mget_mdel, if_neg hne]
  · rw [mget_mput, if_neg hne]

theorem SameMode.ite {m a b : Mach} {c : Prop} [Decidable c] (ha : SameMode m a) (hb : SameMode m b) : SameMode m (if c then a else b) := by
  split <;> assumption

theorem SameMode.foldl {γ : Type} {f : Mach → γ → Mach} (h : ∀ a x, SameMode a (f a x)) (l : List γ) {m m' : Mach} (hm : SameMode m m') :
    SameMode m (l.foldl f m') := by
  induction l generalizing m' with
  | nil => exact hm
  | cons x l ih => exact ih (hm.trans (h m' x))

theorem SameMode.forN {f : Nat → Mach → Mach} {n : Nat} (h : ∀ i < n, ∀ a, SameMode a (f i a)) {m m' : Mach} (hm : SameMode m m') :
    SameMode m (forN n f m') := by
  induction n with
  | zero => exact hm
  | succ n ih => exact (ih fun i hi => h i (by omega)).trans (h n (by omega) _)

/-- The mode fields lie in the first registers of the always-on block, and in the bridge ends and twin blocks. -/
theorem not_modeKey {k : Nat} (h : 600 ≤ k) (h' : k < 0x8000000 ∨ k / 8 % 0x800000 < 0xD0000 ∨ 0xF0000 ≤ k / 8 % 0x800000) : k ∉ modeKeys := by
  simp [modeKeys, fkey, aonBase, twnBase, brgBase, sideBase, R.AON_OPMODE_MODE, R.AON_OPMODE_SIDE_UP, R.AON_OPMODE_CAUSE, R.AON_MODECTL_BUSY,
    R.AON_MODECTL_RESULT, R.TWN_LOG_STATE, R.BRG_STATUS_UP]
  omega

theorem slice_not_modeKey (h : Nat) {f : Fld} (hf : f.off + f.lo / 8 < 0x1000) : fkey (hsBase h) f ∉ modeKeys := by
  refine not_modeKey ?_ (.inr (.inl ?_)) <;> unfold fkey hsBase sideBase <;> omega

theorem controller_not_modeKey (k : Nat) {f : Fld} (hf : f.off + f.lo / 8 < 0x1000) : fkey (rsvBase k) f ∉ modeKeys := by
  refine not_modeKey ?_ (.inr (.inl ?_)) <;> unfold fkey rsvBase sideBase <;> omega

theorem cctl_not_modeKey (sd : Nat) {f : Fld} (hf : f.off + f.lo / 8 < 0x1000) : fkey (cctlBase sd) f ∉ modeKeys := by
  refine not_modeKey ?_ (.inr (.inl ?_)) <;> unfold fkey cctlBase rgeBase sideBase <;> omega

theorem loops_not_modeKey (sd : Nat) {f : Fld} (hf : f.off + f.lo / 8 < 0x10000) : fkey (lvlBase sd) f ∉ modeKeys := by
  refine not_modeKey ?_ (.inr (.inr ?_)) <;> unfold fkey lvlBase sideBase <;> omega

theorem port_not_modeKey {p : Nat} (hp : p < 32) {f : Fld} (hf : f.off + f.lo / 8 < 0x4000) : fkey (ptBase p) f ∉ modeKeys := by
  refine not_modeKey ?_ (.inl ?_) <;> unfold fkey ptBase <;> omega

/-! ## Reports -/

theorem logRecord_sameMode (m : Mach) (w : Nat) (ws : List Nat) : SameMode m (logRecord m w ws) := by
  unfold logRecord
  extract_lets r next
  split
  · refine .of_regs ?_
    simp [next, logWrite, logFlush, apply_ite Mach.regs]
  · split
    · exact .of_regs rfl
    · exact (SameMode.refl m).fset (by decide) _

theorem errWrite_sameMode (m : Mach) (e : Err) (n : Nat) : SameMode m (errWrite m e n) := by
  unfold errWrite
  extract_lets +onlyGivenNames w0 w25 seq m1 ws m2 m3 cls det
  have h1 : SameMode m m1 := .of_regs (soakErr_regs ..)
  have h2 : SameMode m m2 := by
    dsimp only [m2]
    split
    · exact h1
    · refine h1.forN fun i hi a => (SameMode.refl a).fset (not_modeKey ?_ (.inl ?_)) _ <;> unfold fkey aonBase R.ERR_LAST_WORD <;> dsimp only <;> omega
  exact (h2.trans (logRecord_sameMode ..)).trans (.of_regs rfl)

theorem err_sameMode (m : Mach) (e : Err) : SameMode m (err m e) := by
  unfold err
  extract_lets +onlyGivenNames m1 key sec c0 c put
  have h1 : SameMode m m1 := by
    dsimp only [m1]
    split <;> exact (SameMode.refl m).fset (by decide) _
  have hput (m : Mach) (c : CeRate) : SameMode m (put m c) := .of_regs rfl
  clear_value put
  split
  · split
    · exact (h1.trans (hput ..)).trans (errWrite_sameMode ..)
    · exact h1.trans (hput ..)
  · exact h1.trans (errWrite_sameMode ..)

/-! ## Sled writes and cache levels -/

theorem slotStale_regs (m : Mach) (sd pln : Nat) (mask : Mask) : (slotStale m sd pln mask).regs = m.regs := by
  unfold slotStale
  split
  · rfl
  · split
    · split <;> rfl
    · rfl

theorem twTake_sameMode (m : Mach) (sd pln : Nat) (img : Img) (mask : Mask) (done : List TwDone) :
    SameMode m (twTake m sd pln img mask done) := by
  unfold twTake
  split
  · exact ((SameMode.of_regs (slotStale_regs ..)).trans (err_sameMode ..)).trans (.of_regs rfl)
  · split <;> exact .of_regs (count_regs ..)

theorem drainSlots_sameMode (m : Mach) (sd : Nat) : SameMode m (drainSlots m sd) := by
  refine .foldl (fun a c => ?_) _ (.refl m)
  dsimp only
  split
  · exact .of_regs (count_regs ..)
  · split
    · exact .refl a
    · exact (SameMode.of_regs (by simp [setSlot])).trans (twTake_sameMode ..)

theorem passWays_sameMode (m : Mach) (sd : Nat) (ws : List Nat) : SameMode m (passWays m sd ws) :=
  .foldl (fun a i => by
    dsimp only
    exact (SameMode.of_regs (by rfl)).fset (slice_not_modeKey _ (by decide)) _) _ (.refl m)

theorem clearWays_sameMode (m : Mach) (sd : Nat) (east : Bool) : SameMode m (clearWays m sd east) := .of_regs rfl

theorem slicesState_sameMode (m : Mach) (sd st : Nat) : SameMode m (slicesState m sd st) :=
  .forN (fun i _ a => (SameMode.refl a).fset (slice_not_modeKey _ (by decide)) _) (.refl m)

theorem ctlsState_sameMode (m : Mach) (sd st : Nat) : SameMode m (ctlsState m sd st) := by
  refine .forN (fun i _ a => ?_) (.refl m)
  have hset (f : Fld) (hf : f.off + f.lo / 8 < 0x1000) (m : Mach) (v : Nat) : SameMode m (fset m (rsvBase (4 * sd + i)) f v) :=
    (SameMode.refl m).fset (controller_not_modeKey _ hf) v
  dsimp only
  split
  · exact .refl a
  · exact (SameMode.ite (hset _ (by decide) a 0) (.refl a)).trans (hset _ (by decide) _ _)

theorem startSweep_sameMode (m : Mach) (sd : Nat) : SameMode m (startSweep m sd) :=
  ((SameMode.of_regs (by rfl)).fset (loops_not_modeKey sd (by decide)) _).trans (ctlsState_sameMode ..)

theorem levelFld_bound (l : Level) : (levelFld l).off + (levelFld l).lo / 8 < 0x1000 := by cases l <;> decide

theorem levelAct_sameMode (sd : Nat) (l : Level) (m : Mach) : SameMode m (levelAct sd l m) := by
  have hlevel (v : Nat) : SameMode m (fset m (cctlBase sd) (levelFld l) v) :=
    (SameMode.refl m).fset (cctl_not_modeKey sd (levelFld_bound l)) v
  unfold levelAct
  extract_lets off st m1 m2
  have h1 : SameMode m m1 := (hlevel 1).fset (cctl_not_modeKey sd (by decide)) _
  have h2 : SameMode m m2 := hlevel 3
  split
  · cases l with
    | headgate => exact h1.trans (passWays_sameMode ..)
    | reservoir => exact h1.trans (drainSlots_sameMode ..)
    | east => exact h1.trans (passWays_sameMode ..)
  · split
    · cases l with
      | headgate => exact (h2.trans (slicesState_sameMode ..)).trans (clearWays_sameMode ..)
      | reservoir => exact h2.trans (startSweep_sameMode ..)
      | east => exact h2.trans (clearWays_sameMode ..)
    · exact .refl m

theorem levelsAct_sameMode (m : Mach) (sd : Nat) : SameMode m (levelsAct m sd) := by
  unfold levelsAct
  split
  · exact .refl m
  · exact ((levelAct_sameMode ..).trans (levelAct_sameMode ..)).trans (levelAct_sameMode ..)

/-! ## Ports -/

theorem losePort_sameMode (m : Mach) (p : Nat) : SameMode m (losePort m p) := by
  unfold losePort
  extract_lets closed m1 keep ptt
  have h1 : SameMode m m1 := .forN (fun i _ a => (SameMode.refl a).fset (slice_not_modeKey _ (by decide)) _) (.refl m)
  split
  · exact .refl m
  · exact h1.trans (.of_regs rfl)

theorem cutOff_sameMode (m : Mach) (t : Nat) : SameMode m (cutOff m t) := by
  unfold cutOff
  split
  · exact .refl m
  · exact .foldl (fun a i => .ite (losePort_sameMode ..) (.refl a)) _ (.refl m)

/-- Cells whose key is kept read as before. -/
theorem mget_filter {α : Type} (l : List (Nat × α)) (q : Nat → Bool) {k : Nat} (h : q k = true) :
    mget (l.filter fun c => q c.1) k = mget l k := by
  induction l with
  | nil => rfl
  | cons c l ih =>
    obtain ⟨a, x⟩ := c
    rw [List.filter_cons]
    dsimp only
    split <;> simp only [mget, ih]
    split
    · simp_all
    · rfl

/-- A mode field lies in no port's registers. -/
theorem modeKey_not_port {k p : Nat} (hk : k ∈ modeKeys) (hp : p < 32) : ¬(ptBase p ≤ k / 64 * 8 ∧ k / 64 * 8 < ptBase p + 0x3000) := by
  intro ⟨h, h'⟩
  refine not_modeKey ?_ (.inl ?_) hk <;> unfold ptBase at h h' <;> omega

theorem portRegsReset_sameMode (m : Mach) {p : Nat} (hp : p < 32) : SameMode m (portRegsReset m p) := by
  refine ⟨fun k hk => ?_⟩
  have hout := modeKey_not_port hk hp
  unfold portRegsReset
  extract_lets offs hit b a m1
  refine mget_filter m1.regs (fun k => !(decide (b ≤ a k) && decide (a k < b + 0x3000) && hit (a k - b)) ||
    k == fkey b R.PT_LINK_PRESENT || k == fkey b R.PT_LINK_PERST) ?_
  have hab : (decide (b ≤ a k) && decide (a k < b + 0x3000)) = false := by simpa [b, a] using hout
  simp [hab]

theorem hostReset_sameMode (m : Mach) {p : Nat} (hp : p < 32) : SameMode m (hostReset m p) := by
  unfold hostReset
  exact (((losePort_sameMode m p).trans (.of_regs (by rfl))).trans (portRegsReset_sameMode (queuesDown (losePort m p) p) hp)).trans (.of_regs (by rfl))

theorem memSet_sameMode (m : Mach) {p : Nat} (hp : p < 32) (st : Nat) : SameMode m (memSet m p st) :=
  .ite (.refl m) (((SameMode.refl m).fset (port_not_modeKey hp (f := R.PT_MEMCTL_STATE) (by decide)) st).trans (.of_regs (by rfl)))

theorem memDown_sameMode (m : Mach) {p : Nat} (hp : p < 32) : SameMode m (memDown m p) := by
  unfold memDown
  extract_lets sleds ports m1
  have h1 : SameMode m m1 := .of_regs rfl
  exact .ite (h1.trans (SameMode.trans (.of_regs (by rfl)) (memSet_sameMode _ hp 1))) h1

theorem linkDown_sameMode (m : Mach) {p : Nat} (hp : p < 32) (st : Nat) : SameMode m (linkDown m p st) := by
  unfold linkDown
  extract_lets b m1 m2 m3 m4
  have h1 : SameMode m m1 := by
    dsimp only [m1]
    split
    · exact hostReset_sameMode m hp
    · exact memDown_sameMode m hp
    · exact .of_regs rfl
    · exact .refl m
  have hport {m' : Mach} (h : SameMode m m') (f : Fld) (hf : f.off + f.lo / 8 < 0x4000) (v : Nat) : SameMode m (fset m' b f v) :=
    h.fset (port_not_modeKey hp hf) v
  have h2 : SameMode m m2 := hport (hport h1 _ (by decide) _) _ (by decide) _
  have h3 : SameMode m m3 := hport (hport (hport (hport h2 _ (by decide) _) _ (by decide) _) _ (by decide) _) _ (by decide) _
  have h4 : SameMode m m4 := .ite h3 (hport h3 _ (by decide) _)
  exact (hport h4 _ (by decide) _).trans (err_sameMode ..)

theorem linksDown_sameMode (m : Mach) : SameMode m (linksDown m) :=
  .forN (fun p hp a => .ite (linkDown_sameMode a hp 0) (.ite (.refl a) ((SameMode.refl a).fset (port_not_modeKey hp (f := R.PT_LINK_STATE) (by decide)) 0))) (.refl m)

end Sys2Proof.Machine
end

section
/-! SUPPORT. What a change of mode and the end of a mode request write, and a takeover's outcome (R18, R206 to R212, R220). -/

namespace Sys2Proof.Machine

/-! ## The end of a request and the change of mode -/

theorem fget_of_regs {m m' : Mach} (h : m'.regs = m.regs) (b : Nat) (f : Fld) : fget m' b f = fget m b f := by
  unfold fget
  rw [h]

@[simp] theorem fget_count (m : Mach) (c e n b : Nat) (f : Fld) : fget (count m c e n) b f = fget m b f := fget_of_regs (count_regs ..) b f
@[simp] theorem fget_notice (m : Mach) (c i d b : Nat) (f : Fld) : fget (notice m c i d) b f = fget m b f := rfl
@[simp] theorem fget_send (m : Mach) (o : Out) (b : Nat) (f : Fld) : fget (send m o) b f = fget m b f := rfl
@[simp] theorem fget_draw (m : Mach) (b : Nat) (f : Fld) : fget (draw m) b f = fget m b f := rfl

/-- A mode request that was BUSY ends with its result. -/
theorem modeEnd_busy {m : Mach} (h : fget m aonBase R.AON_MODECTL_BUSY = 1) (r : Nat) :
    modeEnd m r = fset (fset m aonBase R.AON_MODECTL_BUSY 0) aonBase R.AON_MODECTL_RESULT r := by
  simp [modeEnd, fon, h]

theorem fget_modeEnd_other (m : Mach) (r : Nat) {b : Nat} {f : Fld} (h : fkey b f ≠ 580) (h' : fkey b f ≠ 581) :
    fget (modeEnd m r) b f = fget m b f := by
  unfold modeEnd
  split
  · rw [fget_fset_other _ _ _ _ _ _ (Ne.symm h'), fget_fset_other _ _ _ _ _ _ (Ne.symm h)]
  · rfl

@[simp] theorem modeEnd_twin (m : Mach) (r : Nat) : (modeEnd m r).twin = m.twin := by
  simp [modeEnd, apply_ite Mach.twin]

@[simp] theorem modeEnd_boot (m : Mach) (r : Nat) : (modeEnd m r).boot = m.boot := by
  simp [modeEnd, apply_ite Mach.boot]

/-- A change of mode sets AON_OPMODE's fields, and raises a notice unless one stands. -/
theorem fget_setMode (m : Mach) (mode up cause b : Nat) (f : Fld) :
    fget (setMode m mode up cause) b f =
      fget (fset (finc (fset (fset (fset m aonBase R.AON_OPMODE_MODE mode) aonBase R.AON_OPMODE_SIDE_UP up) aonBase R.AON_OPMODE_CAUSE cause)
        aonBase R.AON_OPMODE_CHANGES) aonBase R.AON_OPMODE_CHANGED 1) b f := by
  unfold setMode
  dsimp only
  split <;> rfl

theorem opMode_setMode (m : Mach) (mode up cause : Nat) : opMode (setMode m mode up cause) = mode % 8 := by
  simp (disch := decide) only [opMode, fget_setMode, finc, fget_fset_same, fget_fset_other]
  rfl

theorem sideUp_setMode (m : Mach) (mode up cause : Nat) : fget (setMode m mode up cause) aonBase R.AON_OPMODE_SIDE_UP = up % 4 := by
  simp (disch := decide) only [fget_setMode, finc, fget_fset_same, fget_fset_other]
  rfl

theorem cause_setMode (m : Mach) (mode up cause : Nat) : fget (setMode m mode up cause) aonBase R.AON_OPMODE_CAUSE = cause % 16 := by
  simp (disch := decide) only [fget_setMode, finc, fget_fset_same, fget_fset_other]
  rfl

theorem fget_setMode_other (m : Mach) (mode up cause : Nat) {b : Nat} {f : Fld} (h : fkey b f ∉ [512, 516, 520, 528, 544]) :
    fget (setMode m mode up cause) b f = fget m b f := by
  simp only [List.mem_cons, List.not_mem_nil, or_false, not_or] at h
  obtain ⟨h0, h4, h8, h16, h32⟩ := h
  rw [fget_setMode, fget_fset_other _ _ _ _ _ _ (Ne.symm h32), finc, fget_fset_other _ _ _ _ _ _ (Ne.symm h16),
    fget_fset_other _ _ _ _ _ _ (Ne.symm h8), fget_fset_other _ _ _ _ _ _ (Ne.symm h4), fget_fset_other _ _ _ _ _ _ (Ne.symm h0)]

@[simp] theorem setMode_twin (m : Mach) (mode up c : Nat) : (setMode m mode up c).twin = m.twin := by
  simp [setMode, apply_ite Mach.twin]

@[simp] theorem setMode_boot (m : Mach) (mode up c : Nat) : (setMode m mode up c).boot = m.boot := by
  simp [setMode, apply_ite Mach.boot]

/-! ## The messages that reached the survivor -/

@[simp] theorem recsFree_regs (m : Mach) (t pln : Nat) : (recsFree m t pln).regs = m.regs := by
  refine foldl_same Mach.regs (fun a c => ?_) _ m
  dsimp only
  split <;> rfl

/-- A message that Table 8-4 lists changes no register where it arrives. -/
theorem applyStream_regs (m : Mach) (h : Nat) (x : Stream) (hl : ∀ p w, x ≠ .lookup p w) (hs : ∀ g, x ≠ .search g) :
    (applyStream m h x).regs = m.regs := by
  cases x with
  | twinWrite pln img p a => simp [applyStream, stage]
  | release pln => simp [applyStream, copyFree, apply_ite Mach.regs]
  | mirror k e g => rfl
  | lookup p w => exact absurd rfl (hl p w)
  | search g => exact absurd rfl (hs g)
  | commit pln => rfl

theorem doTwinNotice_regs (m : Mach) : (doTwinNotice m).regs = m.regs := by
  unfold doTwinNotice
  split
  · rfl
  · split <;> rfl

/-! ## The takeover -/

/-- The bridge is down at the survivor's end once it is closed (R207). -/
theorem bridgeUp_bridgeClose (m : Mach) {t : Nat} (ht : t ≤ 1) : fget (bridgeClose m t) (brgBase t) R.BRG_STATUS_UP = 0 := by
  have hside : t = 0 ∨ t = 1 := by omega
  have hk : fkey (brgBase t) R.BRG_STATUS_UP ∈ modeKeys := by rcases hside with rfl | rfl <;> decide
  have hne : (nocBase t + R.NOC_STATUS_RECONF.off) * 8 + R.NOC_STATUS_RECONF.lo ≠ (brgBase t + R.BRG_STATUS_UP.off) * 8 + R.BRG_STATUS_UP.lo := by
    rcases hside with rfl | rfl <;> decide
  unfold bridgeClose
  extract_lets m1 m2
  have h2 : SameMode m2 (forN 4 (fun k m => cutOff m k) m2) := .forN (fun k _ a => cutOff_sameMode a k) (.refl m2)
  rw [h2.fget hk, fget_count, finc, fget_fset_other _ _ _ _ _ _ hne, fget_fset_same]
  rfl

/-- The end of a failover of side `sd` to the other: Single-side mode, and the record of the failover with `n` replayed accesses, of which
times are open (R206, R211). -/
def failoverEnd (m : Mach) (sd cause n : Nat) : Mach :=
  let m := setMode m 2 (2 ^ (1 - sd)) 1
  let times := fset (fset (fset (fset (fset (draw (draw (draw m))) aonBase R.AON_FOREC_SIDE sd) aonBase R.AON_FOREC_CAUSE cause)
    aonBase R.AON_FOREC_DET_US (drawn m)) aonBase R.AON_FOREC_FENCE_US (drawn (draw m))) aonBase R.AON_FOREC_TAKE_US (drawn (draw (draw m)))
  notice (fsat (fset times aonBase R.AON_FOREC_REPLAYED n) aonBase R.AON_FOREC_COUNT) 0x0A sd (cause * 2)

theorem foldl_applyStream_regs (m : Mach) (l : List (Nat × Stream)) (hl : ∀ x ∈ l, (∀ p w, x.2 ≠ .lookup p w) ∧ ∀ g, x.2 ≠ .search g) :
    (l.foldl (fun m x => applyStream m x.1 x.2) m).regs = m.regs := by
  induction l generalizing m with
  | nil => rfl
  | cons x l ih =>
    obtain ⟨h1, h2⟩ := hl x (List.mem_cons_self ..)
    exact (ih _ fun y hy => hl y (List.mem_cons_of_mem _ hy)).trans (applyStream_regs m x.1 x.2 h1 h2)

/-- A takeover in Normal mode with no reintegration under way ends as a failover, from a machine whose mirror is empty and whose bridge end is
down. -/
theorem takeover_normal (m : Mach) (sd cause kept : Nat) (hm : opMode m = 1) (hr : m.twin.returning = none) :
    ∃ (b : Mach) (n : Nat), takeover m sd cause kept = failoverEnd b sd cause n ∧ b.home.mirror = [] ∧
      fget b (brgBase (1 - sd)) R.BRG_STATUS_UP = 0 := by
  unfold takeover
  extract_lets +onlyGivenNames t back units opened ids mine toTwin m1 m2 own opened' grants held half mode spill dir mh m3 pq ports m4 logs m5 w m6
    m7 m8 m9 m10 m11 m12 m13 m14 m15 m16
  have hback : back = false := by simp [back, hr]
  have h1 : m1.regs = m.regs := by
    refine foldl_applyStream_regs m _ fun x hx => ?_
    obtain ⟨_, hx⟩ := List.mem_filter.mp hx
    refine ⟨fun p w e => ?_, fun g e => ?_⟩ <;> simp [toTwin, e] at hx
  have h2 : m2.regs = m1.regs := foldl_same Mach.regs (fun a _ => doTwinNotice_regs a) _ m1
  have hspill : spill = false := by
    have : mode = 1 := (fget_of_regs (h2.trans h1) _ _).trans hm
    simp [spill, this]
  clear_value back spill
  subst hback hspill
  refine ⟨m16, opened'.length + units.length, rfl, ?_, ?_⟩
  · have h3 : m3.home.mirror = [] := clearSide_mirror ..
    have h4 : m4.home = m3.home := by dsimp only [m4]
    have h5 : m5.home = m4.home := fset_home ..
    have h6 : m6.home = m5.home := by dsimp only [m6]
    have h7 : m7.home = m6.home := (fset_home ..).trans (fset_home ..)
    have h8 : m8.home.mirror = m7.home.mirror := foldl_same (fun m : Mach => m.home.mirror) (applyGrant_mirror t) grants m7
    have h10 : m10.home = m8.home := by simp only [m10, m9, fset_home]
    have h11 : m11.home.mirror = m10.home.mirror := ownAcks_mirror m10 t
    have h12 : m12.home = m11.home := foldl_same Mach.home complete_home held m11
    have h13 : m13.home = m12.home := foldl_same Mach.home replayPtt_home opened' m12
    have h14 : m14.home.mirror = m13.home.mirror := foldl_same (fun m : Mach => m.home.mirror) replayUnit_mirror units m13
    have h15 : m15.home.mirror = m14.home.mirror := bridgeClose_mirror m14 t
    have h16 : m16.home = m15.home := by simp only [m16, apply_ite Mach.home, modeEnd_home, ite_self]
    rw [h16, h15, h14, h13, h12, h11, h10, h8, h7, h6, h5, h4, h3]
  · have h15 : fget m15 (brgBase t) R.BRG_STATUS_UP = 0 := bridgeUp_bridgeClose m14 (Nat.sub_le 1 sd)
    have hne (k : Nat) (hk : k < 0x8000000) : fkey (brgBase t) R.BRG_STATUS_UP ≠ k := by unfold fkey brgBase sideBase; omega
    have hkeep (r : Nat) : fget (modeEnd m15 r) (brgBase t) R.BRG_STATUS_UP = 0 :=
      (fget_modeEnd_other m15 r (hne 580 (by decide)) (hne 581 (by decide))).trans h15
    dsimp only [m16]
    split
    · exact hkeep 0
    · split
      · exact h15
      · exact hkeep 3

/-- What a failover's end writes: the mode, the serving side, the cause, and the record. -/
theorem failoverEnd_fields (m : Mach) {sd : Nat} (hsd : sd < 2) (n : Nat) :
    opMode (failoverEnd m sd 5 n) = 2 ∧ fget (failoverEnd m sd 5 n) aonBase R.AON_OPMODE_SIDE_UP = 2 ^ (1 - sd) ∧
    fget (failoverEnd m sd 5 n) aonBase R.AON_OPMODE_CAUSE = 1 ∧ fget (failoverEnd m sd 5 n) aonBase R.AON_FOREC_SIDE = sd ∧
    fget (failoverEnd m sd 5 n) aonBase R.AON_FOREC_CAUSE = 5 := by
  have hmode := opMode_setMode m 2 (2 ^ (1 - sd)) 1
  have hup := sideUp_setMode m 2 (2 ^ (1 - sd)) 1
  have hcause := cause_setMode m 2 (2 ^ (1 - sd)) 1
  unfold opMode at hmode
  have hlt : 2 ^ (1 - sd) % 4 = 2 ^ (1 - sd) ∧ sd % 2 = sd := by
    have hside : sd = 0 ∨ sd = 1 := by omega
    rcases hside with rfl | rfl <;> decide
  simp (disch := decide) only [opMode, failoverEnd, fsat, fget_notice, fget_draw, fget_fset_same, fget_fset_other, hmode, hup, hcause]
  exact ⟨trivial, hlt.1, trivial, hlt.2, rfl⟩

theorem failoverEnd_home (m : Mach) (sd cause n : Nat) : (failoverEnd m sd cause n).home = m.home := by
  simp [failoverEnd]

theorem failoverEnd_bridge (m : Mach) (sd cause n t : Nat) :
    fget (failoverEnd m sd cause n) (brgBase t) R.BRG_STATUS_UP = fget m (brgBase t) R.BRG_STATUS_UP := by
  have hne {f : Fld} (hf : (aonBase + f.off) * 8 + f.lo < 0x8000000) :
      (aonBase + f.off) * 8 + f.lo ≠ (brgBase t + R.BRG_STATUS_UP.off) * 8 + R.BRG_STATUS_UP.lo := by
    unfold brgBase sideBase; omega
  have hset : fkey (brgBase t) R.BRG_STATUS_UP ∉ [512, 516, 520, 528, 544] := by
    simp only [List.mem_cons, List.not_mem_nil, or_false, fkey, brgBase, sideBase]; omega
  have hrec {f : Fld} (hf : (aonBase + f.off) * 8 + f.lo < 0x8000000) (m : Mach) (v : Nat) :
      fget (fset m aonBase f v) (brgBase t) R.BRG_STATUS_UP = fget m (brgBase t) R.BRG_STATUS_UP :=
    fget_fset_other _ _ _ _ _ _ (hne hf)
  simp (disch := decide) only [failoverEnd, fsat, fget_notice, fget_draw, hrec]
  exact fget_setMode_other _ _ _ _ hset

end Sys2Proof.Machine
end

section
/-! SUPPORT. Mode requests, stops and reintegration step by step (Tables 8-12 to 8-16). -/

namespace Sys2Proof.Machine

/-- A command whose effect is known leads to what the effect makes. -/
theorem leads_eq {i : Instr} {q : List Instr} {m m' : Mach} {f : Mach → Mach} (h : exec i ⟨q, m⟩ = act ⟨q, m⟩ f) (e : f m = m') :
    Leads i q m m' := e ▸ leads_act h

/-! ## The commands' effects -/

theorem exec_enterSpillway (s : State) : exec .enterSpillway s = act s doEnterSpillway := by rfl
theorem exec_leaveSpillway (s : State) : exec .leaveSpillway s = act s doLeaveSpillway := by rfl
theorem exec_stopSideA (s : State) : exec .stopSideA s = act s (stopSide 0) := by rfl
theorem exec_stopSideB (s : State) : exec .stopSideB s = act s (stopSide 1) := by rfl
theorem exec_stopDrainEnd (kept : Nat) (s : State) : exec (.stopDrainEnd kept) s = act s (doStopDrainEnd kept) := by rfl
theorem exec_reintegrateStoppedSide (b : Bool) (s : State) : exec (.reintegrateStoppedSide b) s = act s (doReintegrateStoppedSide b) := by rfl
theorem exec_reintegrationReplicationComplete (s : State) :
    exec .reintegrationReplicationComplete s = act s doReintegrationReplicationComplete := by rfl
theorem exec_soakEnd (s : State) : exec .soakEnd s = act s doSoakEnd := by rfl
theorem exec_slicePairHandback (s : State) : exec .slicePairHandback s = act s doSlicePairHandback := by rfl
theorem exec_handbackHoldExpiry (s : State) : exec .handbackHoldExpiry s = act s doHandbackHoldExpiry := by rfl
theorem exec_enterRecovery (s : State) : exec .enterRecovery s = act s doEnterRecovery := by rfl

/-! ## A request to AON_MODECTL (Table 8-16) -/

/-- A request that runs sets BUSY, with RESULT 0. -/
def requestBegun (m : Mach) : Mach := fset (fset m aonBase R.AON_MODECTL_BUSY 1) aonBase R.AON_MODECTL_RESULT 0

section
variable {m : Mach} {race : Bool} {ok : Mach → Option Nat} {go : Mach → Mach}

/-- A request whose condition is met runs. -/
theorem modeReq_runs (hb : fon m aonBase R.AON_MODECTL_BUSY = false) (hh : m.boot.holdUp = false) (hr : race = true → m.twin.returning = none)
    (hok : ok m = none) : modeReq race ok go m = go (requestBegun m) := by
  have hrace : (race && m.twin.returning.isSome) = false := by cases race <;> simp_all
  simp [modeReq, hb, hh, hrace, hok, requestBegun]

/-- A request whose condition is not met gives its result. -/
theorem modeReq_refused (hb : fon m aonBase R.AON_MODECTL_BUSY = false) (hh : m.boot.holdUp = false) (hr : race = true → m.twin.returning = none)
    {r : Nat} (hok : ok m = some r) : modeReq race ok go m = fset m aonBase R.AON_MODECTL_RESULT r := by
  have hrace : (race && m.twin.returning.isSome) = false := by cases race <;> simp_all
  simp [modeReq, hb, hh, hrace, hok]

/-- A request that a reintegration refuses gives RESULT 1, BUSY or not (log entry 92). -/
theorem modeReq_race (hh : m.boot.holdUp = false) {r : Nat} (hr : m.twin.returning = some r) :
    modeReq true ok go m = fset m aonBase R.AON_MODECTL_RESULT 1 := by
  simp [modeReq, hh, hr]

/-- A request while one is BUSY has no effect. -/
theorem modeReq_busy (hb : fon m aonBase R.AON_MODECTL_BUSY = true) (hr : m.twin.returning = none) : modeReq race ok go m = m := by
  simp [modeReq, hb, hr]

/-- A refusing condition gives RESULT 1 also during a reintegration. -/
theorem modeReq_one (hb : fon m aonBase R.AON_MODECTL_BUSY = false) (hh : m.boot.holdUp = false)
    (hok : m.twin.returning = none → ok m = some 1) : modeReq true ok go m = fset m aonBase R.AON_MODECTL_RESULT 1 := by
  cases hr : m.twin.returning with
  | none => exact modeReq_refused hb hh (fun _ => hr) (hok hr)
  | some r => exact modeReq_race hh hr

end

theorem requestBegun_fget_other (m : Mach) {b : Nat} {f : Fld} (h : fkey b f ≠ 580) (h' : fkey b f ≠ 581) :
    fget (requestBegun m) b f = fget m b f := by
  rw [requestBegun, fget_fset_other _ _ _ _ _ _ (Ne.symm h'), fget_fset_other _ _ _ _ _ _ (Ne.symm h)]

theorem requestBegun_opMode (m : Mach) : opMode (requestBegun m) = opMode m := requestBegun_fget_other m (by decide) (by decide)

theorem requestBegun_busy (m : Mach) : fget (requestBegun m) aonBase R.AON_MODECTL_BUSY = 1 := by
  simp (disch := decide) only [requestBegun, fget_fset_other, fget_fset_same]
  rfl

/-- The end of a request that was BUSY: its result stands, and BUSY is 0. -/
theorem modeEnd_result {m : Mach} (h : fget m aonBase R.AON_MODECTL_BUSY = 1) :
    fget (modeEnd m 0) aonBase R.AON_MODECTL_RESULT = 0 ∧ fget (modeEnd m 0) aonBase R.AON_MODECTL_BUSY = 0 := by
  rw [modeEnd_busy h]
  simp (disch := decide) only [fget_fset_other, fget_fset_same]
  exact ⟨rfl, rfl⟩

/-! ## Requests that stop a side or bring it back -/

theorem steady_returning {m : Mach} (h : steady m = true) : m.twin.returning = none := by
  simp_all [steady]

/-- A stop of a side in Normal mode holds the side (R216). -/
theorem stopSide_runs {m : Mach} (sd : Nat) (hb : fon m aonBase R.AON_MODECTL_BUSY = false) (hh : m.boot.holdUp = false) (hm : opMode m = 1)
    (hup : bothUp m = true) (hr : m.twin.returning = none) (hs : m.twin.stopping = none) (he : m.twin.entering = false) :
    stopSide sd m = (fun y : Mach => { y with twin := { y.twin with stopping := some sd } }) (requestBegun m) :=
  modeReq_runs hb hh (fun _ => hr) (by simp [hm, hup, hs, he])

theorem stopSide_refused {m : Mach} (sd : Nat) (hb : fon m aonBase R.AON_MODECTL_BUSY = false) (hh : m.boot.holdUp = false)
    (hup : bothUp m = false) : stopSide sd m = fset m aonBase R.AON_MODECTL_RESULT 1 :=
  modeReq_one hb hh fun _ => by simp [hup]

/-- The side that does not serve, of which R217 asks the reintegration. -/
def stoppedSide (m : Mach) : Nat := if sideUp m 0 then 1 else 0

/-- A reintegration starts at step 1 (Table 8-12). -/
def reintegrationBegun (m : Mach) (r : Nat) : Mach :=
  let m := { m with twin := { m.twin with returning := some r, replicated := false, handed := 0, holding := none, soakBad := false } }
  fset (fset m aonBase R.AON_OPMODE_REINTEG 1) (twnBase (1 - r)) R.TWN_REINT_STEP 1

/-- The condition of a reintegration of side `r`: RESULT 1 outside the modes that permit it, 2 where the side cannot come back (R217). -/
def reintegrationCheck (bridge : Bool) (r : Nat) (m : Mach) : Option Nat :=
  if !((opMode m == 2 || opMode m == 3) && !bothUp m && m.twin.returning.isNone && !(m.twin.entering && opMode m == 2)) then some 1
  else if !bridge || ((List.range 4).any fun i => stackRetired m (4 * r + i)) || fget m (twnBase (1 - r)) R.TWN_LOG_STATE != 0 then some 2
  else none

theorem doReintegrateStoppedSide_eq (bridge : Bool) (m : Mach) :
    doReintegrateStoppedSide bridge m =
      modeReq false (reintegrationCheck bridge (stoppedSide m)) (fun y => reintegrationBegun y (stoppedSide m)) m := by rfl

section
variable {m : Mach} (hb : fon m aonBase R.AON_MODECTL_BUSY = false) (hh : m.boot.holdUp = false) (hm : opMode m = 2) (hup : bothUp m = false)
  (hr : m.twin.returning = none) (he : m.twin.entering = false)
include hb hh hm hup hr he

theorem reintegrate_runs {r : Nat} (hst : stoppedSide m = r) (hret : ((List.range 4).any fun i => stackRetired m (4 * r + i)) = false)
    (hlog : fget m (twnBase (1 - r)) R.TWN_LOG_STATE = 0) :
    doReintegrateStoppedSide true m = reintegrationBegun (requestBegun m) r := by
  have hok : reintegrationCheck true r m = none := by
    rw [reintegrationCheck, if_neg (by simp [hm, hup, hr, he]), if_neg (by rw [hret, hlog]; decide)]
  rw [doReintegrateStoppedSide_eq, hst]
  exact modeReq_runs hb hh (fun h => absurd h (by decide)) hok

/-- A reintegration without a bridge gives RESULT 2. -/
theorem reintegrate_noBridge : doReintegrateStoppedSide false m = fset m aonBase R.AON_MODECTL_RESULT 2 := by
  have hok : reintegrationCheck false (stoppedSide m) m = some 2 := by
    rw [reintegrationCheck, if_neg (by simp [hm, hup, hr, he]), if_pos (by simp)]
  rw [doReintegrateStoppedSide_eq]
  exact modeReq_refused hb hh (fun h => absurd h (by decide)) hok

end

/-! ## Spillway mode -/

/-- A serving side goes back to write-back, with its twin log on when both sides serve (R219, R331). -/
def backInService (m : Mach) (s : Nat) : Mach :=
  let back (l : Level) : Bool := !bitOf (fget m (cctlBase s) R.RGE_CCTL_OFF) (levelBit l) && (levelOf m s l == 0 || levelOf m s l == 3)
  let m := if back .headgate then clearWays (slicesState m s 1) s false else m
  let m := if back .reservoir then startSweep m s else m
  fset m (twnBase s) R.TWN_LOG_STATE (b2n (bothUp m))

theorem backInService_eq (m : Mach) (s : Nat) :
    ∃ x, SameMode m x ∧ backInService m s = fset x (twnBase s) R.TWN_LOG_STATE (b2n (bothUp m)) := by
  unfold backInService
  extract_lets back m1 m2
  have h1 : SameMode m m1 := .ite ((slicesState_sameMode ..).trans (clearWays_sameMode ..)) (.refl m)
  have h2 : SameMode m m2 := .ite (h1.trans (startSweep_sameMode ..)) h1
  have hup : bothUp m2 = bothUp m := by unfold bothUp; rw [h2.fget (by decide)]
  exact ⟨m2, h2, by rw [hup]⟩

/-- What a request to leave Spillway mode does once it runs. -/
def spillwayLeft (m : Mach) : Mach :=
  let m := { m with twin := { m.twin with entering := false } }
  let m := (upSides m).foldl backInService m
  let m := setMode m (if bothUp m then 1 else 2) (fget m aonBase R.AON_OPMODE_SIDE_UP) 2
  modeEnd ((upSides m).foldl levelsAct m) 0

theorem doLeaveSpillway_eq : doLeaveSpillway = modeReq false (fun m => if opMode m == 3 then none else some 1) spillwayLeft := by rfl

theorem upSides_both {m : Mach} (h : fget m aonBase R.AON_OPMODE_SIDE_UP = 3) : upSides m = [0, 1] := by
  unfold upSides sideUp
  rw [h]
  decide

/-- Both sides back in service keep the mode's fields, but for their logs, which are on. -/
theorem bothBack_fields {m : Mach} (h : fget m aonBase R.AON_OPMODE_SIDE_UP = 3) :
    fget (backInService (backInService m 0) 1) aonBase R.AON_OPMODE_SIDE_UP = 3 ∧
    fget (backInService (backInService m 0) 1) aonBase R.AON_MODECTL_BUSY = fget m aonBase R.AON_MODECTL_BUSY ∧
    fget (backInService (backInService m 0) 1) (twnBase 0) R.TWN_LOG_STATE = 1 ∧
    fget (backInService (backInService m 0) 1) (twnBase 1) R.TWN_LOG_STATE = 1 := by
  obtain ⟨x, hx, ex⟩ := backInService_eq m 0
  obtain ⟨y, hy, ey⟩ := backInService_eq (backInService m 0) 1
  have hup : fget (backInService m 0) aonBase R.AON_OPMODE_SIDE_UP = 3 := by
    rw [ex, fget_fset_other _ _ _ _ _ _ (by decide), hx.fget (by decide), h]
  have hbusy : fget (backInService m 0) aonBase R.AON_MODECTL_BUSY = fget m aonBase R.AON_MODECTL_BUSY := by
    rw [ex, fget_fset_other _ _ _ _ _ _ (by decide), hx.fget (by decide)]
  have hlog : fget (backInService m 0) (twnBase 0) R.TWN_LOG_STATE = 1 := by
    rw [ex, fget_fset_same, bothUp, h]; rfl
  have hboth : bothUp (backInService m 0) = true := by rw [bothUp, hup]; rfl
  rw [ey, hboth]
  refine ⟨?_, ?_, ?_, ?_⟩
  · rw [fget_fset_other _ _ _ _ _ _ (by decide), hy.fget (by decide), hup]
  · rw [fget_fset_other _ _ _ _ _ _ (by decide), hy.fget (by decide), hbusy]
  · rw [fget_fset_other _ _ _ _ _ _ (by decide), hy.fget (by decide), hlog]
  · rw [fget_fset_same]; rfl

/-- Leaving Spillway mode with both sides up gives Normal mode, with the twin logs on and the request ended. -/
theorem spillwayLeft_fields {m : Mach} (hb : fget m aonBase R.AON_MODECTL_BUSY = 1) (hup : fget m aonBase R.AON_OPMODE_SIDE_UP = 3) :
    opMode (spillwayLeft m) = 1 ∧ fget (spillwayLeft m) aonBase R.AON_OPMODE_CAUSE = 2 ∧
    fget (spillwayLeft m) (twnBase 0) R.TWN_LOG_STATE = 1 ∧ fget (spillwayLeft m) (twnBase 1) R.TWN_LOG_STATE = 1 ∧
    fget (spillwayLeft m) aonBase R.AON_MODECTL_RESULT = 0 ∧ fget (spillwayLeft m) aonBase R.AON_MODECTL_BUSY = 0 := by
  unfold spillwayLeft
  extract_lets w m1 m2 m3
  have hup1 : fget m1 aonBase R.AON_OPMODE_SIDE_UP = 3 := hup
  have h2 : m2 = backInService (backInService m1 0) 1 := by dsimp only [m2]; rw [upSides_both hup1]; rfl
  obtain ⟨hup2, hbusy2, hlog0, hlog1⟩ := bothBack_fields hup1
  rw [← h2] at hup2 hbusy2 hlog0 hlog1
  have h3 : m3 = setMode m2 1 3 2 := by dsimp only [m3]; rw [bothUp, hup2]; rfl
  have hup3 : fget m3 aonBase R.AON_OPMODE_SIDE_UP = 3 := by rw [h3]; exact sideUp_setMode ..
  have h4 : SameMode m3 ((upSides m3).foldl levelsAct m3) := .foldl levelsAct_sameMode _ (.refl m3)
  have hbusy3 : fget m3 aonBase R.AON_MODECTL_BUSY = 1 := by
    rw [h3, fget_setMode_other _ _ _ _ (by decide), hbusy2]; exact hb
  have hbusy4 := (h4.fget (f := R.AON_MODECTL_BUSY) (by decide)).trans hbusy3
  refine ⟨?_, ?_, ?_, ?_, modeEnd_result hbusy4⟩
  · rw [opMode, fget_modeEnd_other _ _ (by decide) (by decide), h4.fget (by decide), h3]; exact opMode_setMode ..
  · rw [fget_modeEnd_other _ _ (by decide) (by decide), h4.fget (by decide), h3]; exact cause_setMode ..
  · rw [fget_modeEnd_other _ _ (by decide) (by decide), h4.fget (by decide), h3, fget_setMode_other _ _ _ _ (by decide), hlog0]
  · rw [fget_modeEnd_other _ _ (by decide) (by decide), h4.fget (by decide), h3, fget_setMode_other _ _ _ _ (by decide), hlog1]

/-! ## Recovery mode -/

theorem queuesDown_boot (m : Mach) (p : Nat) : (queuesDown m p).boot = m.boot := rfl

theorem losePort_boot (m : Mach) (p : Nat) : (losePort m p).boot = m.boot := by
  simp [losePort, apply_ite Mach.boot]

theorem portRegsReset_boot (m : Mach) (p : Nat) : (portRegsReset m p).boot = m.boot := rfl

theorem memSet_boot (m : Mach) (p st : Nat) : (memSet m p st).boot = m.boot := by
  simp [memSet, apply_ite Mach.boot]

theorem linkDown_boot (m : Mach) (p st : Nat) : (linkDown m p st).boot = m.boot := by
  unfold linkDown
  extract_lets b m1 m2 m3 m4
  have h1 : m1.boot = m.boot := by
    dsimp only [m1]
    split
    · simp [hostReset, portRegsReset_boot, queuesDown_boot, losePort_boot]
    · simp [memDown, apply_ite Mach.boot, memSet_boot]
    · rfl
    · rfl
  simp [m4, m3, m2, apply_ite Mach.boot, h1]

theorem linksDown_boot (m : Mach) : (linksDown m).boot = m.boot := by
  refine forN_same Mach.boot (fun p a => ?_) 32 m
  simp [apply_ite Mach.boot, linkDown_boot]

/-- A requested entry into Recovery mode ends its request, raises FAULT# and serves on no side (R220). -/
theorem enterRecovery_fields {m : Mach} (hb : fget m aonBase R.AON_MODECTL_BUSY = 1) :
    opMode (enterRecovery m 2) = 4 ∧ fget (enterRecovery m 2) aonBase R.AON_OPMODE_SIDE_UP = 0 ∧
    fget (enterRecovery m 2) aonBase R.AON_OPMODE_CAUSE = 2 ∧ fget (enterRecovery m 2) aonBase R.AON_MODECTL_RESULT = 0 ∧
    fget (enterRecovery m 2) aonBase R.AON_MODECTL_BUSY = 0 ∧ (enterRecovery m 2).boot.faultLow = true := by
  unfold enterRecovery
  extract_lets m1 w boot m2 m3
  obtain ⟨hres, hbusy⟩ := modeEnd_result hb
  have h1 : m1 = modeEnd m 0 := rfl
  have h2 : SameMode m1 m2 := .of_regs rfl
  have h3 : SameMode m1 (linksDown m2) := h2.trans (linksDown_sameMode m2)
  have hboot : (linksDown m2).boot.faultLow = true := by rw [linksDown_boot]
  have hres3 : fget m3 aonBase R.AON_MODECTL_RESULT = 0 := by
    rw [fget_send, fget_fset_other _ _ _ _ _ _ (by decide), h3.fget (by decide), h1, hres]
  have hbusy3 : fget m3 aonBase R.AON_MODECTL_BUSY = 0 := by
    rw [fget_send, fget_fset_other _ _ _ _ _ _ (by decide), h3.fget (by decide), h1, hbusy]
  refine ⟨by rw [opMode_setMode], by rw [sideUp_setMode], by rw [cause_setMode], ?_, ?_, ?_⟩
  · rw [fget_setMode_other _ _ _ _ (by decide), hres3]
  · rw [fget_setMode_other _ _ _ _ (by decide), hbusy3]
  · simp only [setMode_boot, m3, send_boot, fset_boot, hboot]

/-! ## Reintegration (Table 8-12) -/

/-- A field of a twin block is not changed by another field of a twin block. -/
theorem fget_fset_twn (m : Mach) (i j : Nat) {f g : Fld} (v : Nat) (hf : f.off * 8 + f.lo < 0x4000) (hg : g.off * 8 + g.lo < 0x4000)
    (h : f.off * 8 + f.lo ≠ g.off * 8 + g.lo) : fget (fset m (twnBase i) f v) (twnBase j) g = fget m (twnBase j) g :=
  fget_fset_other _ _ _ _ _ _ (by unfold twnBase sideBase; omega)

/-- Fields of the always-on block and of twin blocks do not change each other. -/
theorem fget_fset_aon_twn (m : Mach) (j : Nat) {f g : Fld} (v : Nat) (hf : f.off * 8 + f.lo < 0x80000) :
    fget (fset m aonBase f v) (twnBase j) g = fget m (twnBase j) g :=
  fget_fset_other _ _ _ _ _ _ (by unfold twnBase sideBase aonBase; omega)

theorem fget_fset_twn_aon (m : Mach) (i : Nat) {f g : Fld} (v : Nat) (hg : g.off * 8 + g.lo < 0x80000) :
    fget (fset m (twnBase i) f v) aonBase g = fget m aonBase g :=
  fget_fset_other _ _ _ _ _ _ (by unfold twnBase sideBase aonBase; omega)

theorem twn_not_setMode (i : Nat) (f : Fld) : fkey (twnBase i) f ∉ [512, 516, 520, 528, 544] := by
  simp only [List.mem_cons, List.not_mem_nil, or_false, fkey, twnBase, sideBase]; omega

theorem fget_modeEnd_twn (m : Mach) (r i : Nat) (f : Fld) : fget (modeEnd m r) (twnBase i) f = fget m (twnBase i) f :=
  fget_modeEnd_other m r (by unfold fkey twnBase sideBase; omega) (by unfold fkey twnBase sideBase; omega)

/-- The end of the twin scan (Table 8-12, step 5): the mirror is rebuilt, the dirty lines are twinned, and the count is that of the copies. -/
def scanEnd (r : Nat) (m : Mach) : Mach :=
  let b := twnBase (1 - r)
  let m := { m with home := { m.home with mirror := m.home.dir } }
  let m := (m.twin.untwinned.filter fun u => u.1 == 1 - r).foldl (replicate r) m
  let m := { m with twin := { m.twin with untwinned := [], replicated := true, soakBad := false } }
  let m := fset (fset m b R.TWN_GAUGE_UNTWINNED 0) b R.TWN_GAUGE_LINES (stagedOn m r + recsOn m r)
  fset (if opMode m == 3 then m else fset m (twnBase r) R.TWN_LOG_STATE 1) b R.TWN_REINT_STEP 6

theorem replStep_two (r : Nat) (m : Mach) : replStep r m 2 = fset m (twnBase (1 - r)) R.TWN_REINT_STEP 3 := rfl

theorem replStep_three (r : Nat) (m : Mach) : replStep r m 3 = fset (copyPlc m (1 - r) r) (twnBase (1 - r)) R.TWN_REINT_STEP 4 := rfl

theorem replStep_four (r : Nat) (m : Mach) : replStep r m 4 =
    scanBegin (fset { m with home := { m.home with mirror := m.home.dir } } (twnBase (1 - r)) R.TWN_REINT_STEP 5) r := rfl

/-- A scan that the budget does not hold back ends. -/
theorem replStep_five {r : Nat} {m : Mach}
    (h : fget m (twnBase (1 - r)) R.TWN_GAUGE_LINES < fget m (twnBase (1 - r)) R.TWN_HIMARK_MARK * 16384) : replStep r m 5 = scanEnd r m := by
  refine if_neg ?_
  simp [h]

section
variable {m : Mach} {r t : Nat} (hr : m.twin.returning = some r) (ht : t = 1 - r)
include hr ht

/-- The end of a replication step is that of the step which TWN_REINT shows. -/
theorem replicationComplete_at {s : Nat} (hs : fget m (twnBase t) R.TWN_REINT_STEP = s) :
    doReintegrationReplicationComplete m = replStep r m s := by
  subst ht hs
  simp [doReintegrationReplicationComplete, hr]

/-- Step 4 ends: the mirror is rebuilt and the returning side's log is Building (R218). -/
theorem directoryRebuilt_fields (hs : fget m (twnBase t) R.TWN_REINT_STEP = 4) (hm : opMode m = 2)
    (hl : fget m (twnBase t) R.TWN_GAUGE_LINES ≤ 201326080) :
    (doReintegrationReplicationComplete m).home.mirror = m.home.dir ∧
    fget (doReintegrationReplicationComplete m) (twnBase r) R.TWN_LOG_STATE = 3 ∧
    fget (doReintegrationReplicationComplete m) (twnBase t) R.TWN_REINT_STEP = 5 ∧ (doReintegrationReplicationComplete m).twin = m.twin := by
  rw [replicationComplete_at hr ht hs]
  subst ht
  rw [replStep_four]
  generalize hx : { m with home := { m.home with mirror := m.home.dir } } = x
  have hregs : x.regs = m.regs := by rw [← hx]
  have hmode : opMode (fset x (twnBase (1 - r)) R.TWN_REINT_STEP 5) = 2 := by
    rw [opMode, fget_fset_twn_aon _ _ _ (by decide), fget_of_regs hregs]; exact hm
  have hlines : fget (fset x (twnBase (1 - r)) R.TWN_REINT_STEP 5) (twnBase (1 - r)) R.TWN_GAUGE_LINES ≤ budget := by
    rw [fget_fset_twn _ _ _ _ (by decide) (by decide) (by decide), fget_of_regs hregs]; exact hl
  have hscan : scanBegin (fset x (twnBase (1 - r)) R.TWN_REINT_STEP 5) r =
      fset (fset x (twnBase (1 - r)) R.TWN_REINT_STEP 5) (twnBase r) R.TWN_LOG_STATE 3 := by
    simp [scanBegin, hmode, Nat.not_lt.mpr hlines]
  rw [hscan]
  refine ⟨?_, ?_, ?_, ?_⟩
  · rw [fset_home, fset_home, ← hx]
  · rw [fget_fset_same]; rfl
  · rw [fget_fset_twn _ _ _ _ (by decide) (by decide) (by decide), fget_fset_same]; rfl
  · rw [fset_twin, fset_twin, ← hx]

/-- Step 5 ends: with no dirty line left without a twin, the log of the returning side is On and the soak begins. -/
theorem dirtyTwinned_fields (hs : fget m (twnBase t) R.TWN_REINT_STEP = 5)
    (hl : fget m (twnBase t) R.TWN_GAUGE_LINES < fget m (twnBase t) R.TWN_HIMARK_MARK * 16384) (hu : m.twin.untwinned = []) (hm : opMode m = 2) :
    (doReintegrationReplicationComplete m).home.mirror = m.home.dir ∧ (doReintegrationReplicationComplete m).comp.plc = m.comp.plc ∧
    (doReintegrationReplicationComplete m).twin.replicated = true ∧
    fget (doReintegrationReplicationComplete m) (twnBase t) R.TWN_GAUGE_LINES = (stagedOn m r + recsOn m r) % 2 ^ 28 ∧
    fget (doReintegrationReplicationComplete m) (twnBase r) R.TWN_LOG_STATE = 1 ∧
    fget (doReintegrationReplicationComplete m) (twnBase t) R.TWN_REINT_STEP = 6 := by
  rw [replicationComplete_at hr ht hs]
  subst ht
  rw [replStep_five hl]
  unfold scanEnd
  extract_lets b x m1 m2 w m3 m4
  have h2 : m2 = m1 := by simp [m2, m1, hu]
  have hregs : m3.regs = m.regs := by dsimp only [m3]; rw [h2]
  have hmode : opMode m4 = 2 := by
    rw [opMode, fget_fset_twn_aon _ _ _ (by decide), fget_fset_twn_aon _ _ _ (by decide), fget_of_regs hregs]; exact hm
  have hcopies : stagedOn m3 r + recsOn m3 r = stagedOn m r + recsOn m r := by
    dsimp only [m3, w, stagedOn, recsOn]; rw [h2]
  rw [if_neg (by simp [hmode])]
  refine ⟨?_, ?_, ?_, ?_, ?_, ?_⟩
  · simp only [m4, fset_home, m3, h2, m1]
  · simp only [m4, fset_comp, m3, h2, m1]
  · simp only [m4, fset_twin, m3]
  · rw [fget_fset_twn _ _ _ _ (by decide) (by decide) (by decide), fget_fset_twn _ _ _ _ (by decide) (by decide) (by decide), fget_fset_same,
      hcopies]
    rfl
  · rw [fget_fset_twn _ _ _ _ (by decide) (by decide) (by decide), fget_fset_same]; rfl
  · rw [fget_fset_same]; rfl

/-- A soak with an error runs on for a further period (log entry 104). -/
theorem doSoakEnd_bad (hs : fget m (twnBase t) R.TWN_REINT_STEP = 6) (hbad : m.twin.soakBad = true) :
    doSoakEnd m = { m with twin := { m.twin with soakBad := false } } := by
  subst ht
  simp [doSoakEnd, hr, hs, hbad]

theorem doSoakEnd_good (hs : fget m (twnBase t) R.TWN_REINT_STEP = 6) (hgood : m.twin.soakBad = false) :
    doSoakEnd m = fset m (twnBase t) R.TWN_REINT_STEP 7 := by
  subst ht
  simp [doSoakEnd, hr, hs, hgood]

/-- The next slice pair is held. -/
theorem slicePair_held (hs : fget m (twnBase t) R.TWN_REINT_STEP = 7) (hh : m.twin.holding = none) :
    doSlicePairHandback m = { m with twin := { m.twin with holding := some m.twin.handed } } := by
  subst ht
  simp [doSlicePairHandback, hr, hs, hh]

/-- A held pair with nothing open is handed back. -/
theorem slicePair_handedBack (hs : fget m (twnBase t) R.TWN_REINT_STEP = 7) {k : Nat} (hh : m.twin.holding = some k)
    (hb : pairBusy m r m.twin.handed = false) (hn : m.twin.handed < 31) :
    doSlicePairHandback m =
      { m with home := { m.home with mirror := m.home.dir }, twin := { m.twin with holding := none, handed := m.twin.handed + 1 } } := by
  subst ht
  have hlt : m.twin.handed + 1 < 32 := by omega
  simp [doSlicePairHandback, hr, hs, hh, hb, hlt]

end

/-- The end of a reintegration: the last pair is handed back, the survivor's log is On outside Spillway mode, and both sides serve (R218). -/
def reintegrated (m : Mach) (t : Nat) : Mach :=
  let m := { m with home := { m.home with mirror := m.home.dir }, twin := { m.twin with holding := none, returning := none, replicated := false, handed := 0 } }
  let m := fset (fset m aonBase R.AON_OPMODE_REINTEG 0) (twnBase t) R.TWN_REINT_STEP 0
  modeEnd (setMode (if opMode m == 3 then m else fset m (twnBase t) R.TWN_LOG_STATE 1) (if opMode m == 3 then 3 else 1) 3 3) 0

theorem slicePair_last {m : Mach} {r t : Nat} (hr : m.twin.returning = some r) (ht : t = 1 - r) (hs : fget m (twnBase t) R.TWN_REINT_STEP = 7)
    {k : Nat} (hh : m.twin.holding = some k) (hb : pairBusy m r m.twin.handed = false) (hn : m.twin.handed = 31) :
    doSlicePairHandback m = reintegrated m t := by
  subst ht
  rw [hn] at hb
  simp [doSlicePairHandback, hr, hs, hh, hb, hn, reintegrated]

theorem reintegrated_fields {m : Mach} (t : Nat) (hm : opMode m = 2) :
    opMode (reintegrated m t) = 1 ∧ bothUp (reintegrated m t) = true ∧ fget (reintegrated m t) aonBase R.AON_OPMODE_REINTEG = 0 ∧
    fget (reintegrated m t) (twnBase t) R.TWN_REINT_STEP = 0 ∧ fget (reintegrated m t) (twnBase t) R.TWN_LOG_STATE = 1 ∧
    (reintegrated m t).twin.returning = none ∧ (reintegrated m t).home.mirror = m.home.dir := by
  unfold reintegrated
  extract_lets x w m1 m2
  have hmode : opMode m2 = 2 := by
    rw [opMode, fget_fset_twn_aon _ _ _ (by decide), fget_fset_other _ _ _ _ _ _ (by decide)]; exact hm
  have hne : ¬(opMode m2 == 3) = true := by simp [hmode]
  rw [if_neg hne, if_neg hne]
  refine ⟨?_, ?_, ?_, ?_, ?_, ?_, ?_⟩
  · rw [opMode, fget_modeEnd_other _ _ (by decide) (by decide)]; exact opMode_setMode ..
  · rw [bothUp, fget_modeEnd_other _ _ (by decide) (by decide), sideUp_setMode]; rfl
  · rw [fget_modeEnd_other _ _ (by decide) (by decide), fget_setMode_other _ _ _ _ (by decide), fget_fset_twn_aon _ _ _ (by decide),
      fget_fset_twn_aon _ _ _ (by decide), fget_fset_same]
    rfl
  · rw [fget_modeEnd_twn, fget_setMode_other _ _ _ _ (twn_not_setMode _ _), fget_fset_twn _ _ _ _ (by decide) (by decide) (by decide),
      fget_fset_same]
    rfl
  · rw [fget_modeEnd_twn, fget_setMode_other _ _ _ _ (twn_not_setMode _ _), fget_fset_same]
    rfl
  · simp only [modeEnd_twin, setMode_twin, fset_twin, m2, m1]
  · simp only [modeEnd_home, setMode_home, fset_home, m2, m1]

end Sys2Proof.Machine
end

section
/-! The settling of O45. -/

open Sys2Proof Sys2Proof.Machine

/-- Settles O45: each clause from the request's rule (`modeReq_runs` and its companions) or from the step's lemma above; the planned stop through
`takeover_normal`, whose replay leaves the emptied mirror empty. -/
theorem modeRequestsStopsAndReintegration : Obligations.ModeRequestsStopsAndReintegration := by
  unfold Obligations.ModeRequestsStopsAndReintegration
  refine ⟨?_, ?_, ?_, ?_, ?_, ?_, ?_, ?_, ?_, ?_, ?_, ?_, ?_, ?_, ?_, ?_, ?_, ?_, ?_, ?_, ?_, ?_, ?_, ?_, ?_, ?_, ?_, ?_, ?_⟩
  · intro q m hb hh hs he
    exact leads_eq (exec_enterSpillway _) (modeReq_runs hb hh (fun _ => steady_returning hs) (by simp [hs, he]))
  · intro q m hb hh hs
    exact leads_eq (exec_enterSpillway _) (modeReq_one hb hh fun _ => by simp [hs])
  · intro r q m hr hh
    exact leads_eq (exec_enterSpillway _) (modeReq_race hh hr)
  · intro q m hr hb
    exact leads_eq (exec_enterSpillway _) (modeReq_busy hb hr)
  · intro q m hb hh hm hup
    have hbegun : fget (requestBegun m) aonBase R.AON_OPMODE_SIDE_UP = 3 :=
      (requestBegun_fget_other m (by decide) (by decide)).trans (by simpa [bothUp] using hup)
    refine ⟨spillwayLeft (requestBegun m), leads_eq (exec_leaveSpillway _) ?_, spillwayLeft_fields (requestBegun_busy m) hbegun⟩
    rw [doLeaveSpillway_eq]
    exact modeReq_runs hb hh (fun h => absurd h (by decide)) (by simp [hm])
  · intro q m hb hh hm
    refine leads_eq (exec_leaveSpillway _) ?_
    rw [doLeaveSpillway_eq]
    exact modeReq_refused hb hh (fun h => absurd h (by decide)) (by simp [hm])
  · intro q m hb hh hm hup hr hs he
    exact leads_eq (exec_stopSideA _) (stopSide_runs 0 hb hh hm hup hr hs he)
  · intro q m hb hh hup
    exact leads_eq (exec_stopSideA _) (stopSide_refused 0 hb hh hup)
  · intro q m hb hh hm hup hr hs he
    exact leads_eq (exec_stopSideB _) (stopSide_runs 1 hb hh hm hup hr hs he)
  · intro q m hb hh hup
    exact leads_eq (exec_stopSideB _) (stopSide_refused 1 hb hh hup)
  · intro kept sd q m hs hsd hm hr
    obtain ⟨b, n, htake, hmirror, hbridge⟩ := takeover_normal m sd 5 kept hm hr
    obtain ⟨hmode, hup, hcause, hside, hrec⟩ := failoverEnd_fields b hsd n
    refine ⟨failoverEnd b sd 5 n, leads_eq (exec_stopDrainEnd kept _) ?_, hmode, hup, hcause, hside, hrec, ?_, ?_⟩
    · simp only [doStopDrainEnd, hs, htake]
    · rw [failoverEnd_bridge, hbridge]
    · rw [failoverEnd_home, hmirror]
  · intro kept q m hs
    exact leads_eq (exec_stopDrainEnd kept _) (by simp only [doStopDrainEnd, hs])
  · intro q m hb hh hm h0 _ hup hr he hret hlog
    exact leads_eq (exec_reintegrateStoppedSide true _) (reintegrate_runs hb hh hm hup hr he (r := 1) (by simp [stoppedSide, h0]) hret hlog)
  · intro q m hb hh hm h0 _ hup hr he hret hlog
    exact leads_eq (exec_reintegrateStoppedSide true _)
      (reintegrate_runs hb hh hm hup hr he (r := 0) (by simp [stoppedSide, h0]) (by simpa using hret) hlog)
  · intro q m hb hh hm hup hr he
    exact leads_eq (exec_reintegrateStoppedSide false _) (reintegrate_noBridge hb hh hm hup hr he)
  · intro r t q m hr ht _ hs hl hu hm
    exact ⟨_, leads_act (exec_reintegrationReplicationComplete _), dirtyTwinned_fields hr ht hs hl hu hm⟩
  · intro r t q m hr ht hs
    refine leads_eq (exec_reintegrationReplicationComplete _) ((replicationComplete_at hr ht hs).trans ?_)
    rw [replStep_three, ← ht]
  · intro r t q m hr ht hs
    refine leads_eq (exec_reintegrationReplicationComplete _) ((replicationComplete_at hr ht hs).trans ?_)
    rw [replStep_two, ← ht]
  · intro r t q m hr ht _ hs hm hl
    exact ⟨_, leads_act (exec_reintegrationReplicationComplete _), directoryRebuilt_fields hr ht hs hm hl⟩
  · intro q m hr
    exact leads_eq (exec_reintegrationReplicationComplete _) (by simp only [doReintegrationReplicationComplete, hr])
  · intro r t q m hr ht hs hbad
    exact leads_eq (exec_soakEnd _) (doSoakEnd_bad hr ht hs hbad)
  · intro r t q m hr ht hs hgood
    exact leads_eq (exec_soakEnd _) (doSoakEnd_good hr ht hs hgood)
  · intro r t q m hr ht hs hh
    exact leads_eq (exec_slicePairHandback _) (slicePair_held hr ht hs hh)
  · intro r t k q m hr ht hs hh hb hn
    exact leads_eq (exec_slicePairHandback _) (slicePair_handedBack hr ht hs hh hb hn)
  · intro r t k q m hr ht _ hs hh hb hn hm
    exact ⟨reintegrated m t, leads_eq (exec_slicePairHandback _) (slicePair_last hr ht hs hh hb hn), reintegrated_fields t hm⟩
  · intro q m
    exact leads_eq (exec_handbackHoldExpiry _) rfl
  · intro q m hb hh hm
    refine ⟨enterRecovery (requestBegun m) 2, leads_eq (exec_enterRecovery _) ?_, enterRecovery_fields (requestBegun_busy m)⟩
    refine (modeReq_runs hb hh (fun h => absurd h (by decide)) (by simp [hm])).trans ?_
    simp [requestBegun_opMode, hm]
  · intro q m hb hh hm
    refine leads_eq (exec_enterRecovery _) ((modeReq_runs hb hh (fun h => absurd h (by decide)) (by simp [hm])).trans ?_)
    rw [if_pos (by simp [requestBegun_opMode, hm])]
    rfl
  · intro q m hb hh hm
    exact leads_eq (exec_enterRecovery _) (modeReq_refused hb hh (fun h => absurd h (by decide)) (by simp [hm]))

end

section
/-! SUPPORT. Service instructions of a keeper call: what stands between the issue of an instruction and its first step (R250, R292, R293). -/

namespace Sys2Proof.Machine

/-! ## From the issue to the first step -/

theorem keeperOnly_keeper {m : Mach} {e : Nat} (h : (engOf m e).keeper = true) (k : Mach → Mach) : keeperOnly e k m = k m := if_pos h

/-- A keeper-only instruction of a keeper call goes on to its work. -/
theorem issue_keeper {m : Mach} {e w : Nat} (hw : atWord m e w = true) (hk : (engOf m e).keeper = true) (k : Mach → Mach) :
    issue e w (keeperOnly e k) m = k m := (issue_at hw _).trans (keeperOnly_keeper hk k)

/-- An aligned operand of `n` bytes in scratch memory passes the checks of R293. -/
theorem withScr_at {m : Mach} {e r n : Nat} (hs : (greg m e r).toNat / 2 ^ 62 = 1) (h8 : (greg m e r).toNat % 2 ^ 62 % 8 = 0)
    (hn : (greg m e r).toNat % 2 ^ 62 + n ≤ 65536) (k : Nat → Mach → Mach) :
    withScr e r n k m = k ((greg m e r).toNat % 2 ^ 62) m := by
  have h8' : (greg m e r).toNat % 8 = 0 := by omega
  simp only [withScr, h8', hs, Nat.not_lt.mpr hn]
  rfl

theorem afterStores_empty {m : Mach} {e : Nat} (h : (engOf m e).sb = []) (k : Mach → Mach) : afterStores e k m = k m := by
  simp [afterStores, h]

/-- A kind P instruction that starts with rd 0 begins at COUNT 0 and PHASE 0 (R292). -/
theorem kindP_first {m : Mach} {e rd : Nat} (hp : (engOf m e).p = none) (h0 : greg m e rd = 0) {valid : Nat → Nat → Bool}
    (hv : valid 0 0 = true) (k : Nat → Nat → Mach → Mach) : kindP e rd valid k m = k 0 0 m := by
  simp [kindP, hp, h0, hv, bitsOf, bitOf]

/-! ## Trackers and holds (R303) -/

section
variable {m : Mach} {e rd ra rb : Fin 32}

theorem plctrkArm_free (hw : atWord m e (encX 0x15 rd ra rb 1) = true) (hk : (engOf m e).keeper = true) (ht : (greg m e ra).toNat ≤ 15)
    (hp : (greg m e rb).toNat ≤ 0x7FFFFFF) (h0 : fon m (lvlBase 0 + 16 * (greg m e ra).toNat) R.PLC_MIGT_EN = false)
    (h1 : fon m (lvlBase 1 + 16 * (greg m e ra).toNat) R.PLC_MIGT_EN = false) :
    doPlctrkArm e rd ra rb m = retireRd e rd 0 (trackerSet 1 (greg m e ra).toNat (greg m e rb).toNat true
      (trackerSet 0 (greg m e ra).toNat (greg m e rb).toNat true m)) := by
  simp [doPlctrkArm, issue_keeper hw hk, Nat.not_lt.mpr ht, Nat.not_lt.mpr hp, h0, h1]

theorem plctrkArm_other (hw : atWord m e (encX 0x15 rd ra rb 1) = true) (hk : (engOf m e).keeper = true) (ht : (greg m e ra).toNat ≤ 15)
    (hp : (greg m e rb).toNat ≤ 0x7FFFFFF) (h0 : fon m (lvlBase 0 + 16 * (greg m e ra).toNat) R.PLC_MIGT_EN = true)
    (hne : fget m (lvlBase 0 + 16 * (greg m e ra).toNat) R.PLC_MIGT_PLOT ≠ (greg m e rb).toNat) :
    doPlctrkArm e rd ra rb m = retireRd e rd 12 m := by
  simp [doPlctrkArm, issue_keeper hw hk, Nat.not_lt.mpr ht, Nat.not_lt.mpr hp, h0, hne]

theorem plctrkFree_frees (hw : atWord m e (encX 0x15 rd ra rb 0) = true) (hk : (engOf m e).keeper = true) (ht : (greg m e ra).toNat ≤ 15) :
    doPlctrkFree e rd ra rb m = retireRd e rd 0 (pairFree (greg m e ra).toNat m) := by
  simp [doPlctrkFree, issue_keeper hw hk, Nat.not_lt.mpr ht]

/-- Both sides of a pair that has just been held show HOLD 1. -/
theorem pairHold_hold (m : Mach) (t : Nat) {sd : Nat} (hsd : sd < 2) : fon (pairHold t true m) (lvlBase sd + 16 * t) R.PLC_MIGT_HOLD = true := by
  have hside : sd = 0 ∨ sd = 1 := by omega
  rcases hside with rfl | rfl
  · have hne : (lvlBase 1 + 16 * t + R.PLC_MIGT_HOLD.off) * 8 + R.PLC_MIGT_HOLD.lo ≠
        (lvlBase 0 + 16 * t + R.PLC_MIGT_HOLD.off) * 8 + R.PLC_MIGT_HOLD.lo := by unfold lvlBase sideBase; omega
    simp only [fon, pairHold, fget_fset_other _ _ _ _ _ _ hne, fget_fset_same]
    rfl
  · simp only [fon, pairHold, fget_fset_same]
    rfl

/-- A write of HOLD leaves PLOT. -/
theorem pairHold_plot (m : Mach) (t sd : Nat) (h : Bool) :
    fget (pairHold t h m) (lvlBase sd + 16 * t) R.PLC_MIGT_PLOT = fget m (lvlBase sd + 16 * t) R.PLC_MIGT_PLOT := by
  have hne (i : Nat) : (lvlBase i + 16 * t + R.PLC_MIGT_HOLD.off) * 8 + R.PLC_MIGT_HOLD.lo ≠
      (lvlBase sd + 16 * t + R.PLC_MIGT_PLOT.off) * 8 + R.PLC_MIGT_PLOT.lo := by
    simp only [lvlBase, sideBase, R.PLC_MIGT_HOLD, R.PLC_MIGT_PLOT]; omega
  rw [pairHold, fget_fset_other _ _ _ _ _ _ (hne 1), fget_fset_other _ _ _ _ _ _ (hne 0)]

theorem plotQuiet_pairHold (m : Mach) (t : Nat) (h : Bool) (sd plot : Nat) : plotQuiet (pairHold t h m) sd plot = plotQuiet m sd plot := rfl

/-- A hold of a pair whose plots are quiet gives 1: the HOLD that it has just set has not expired. -/
theorem plcholdSet_quiet (hw : atWord m e (encX 0x16 rd ra 0 1) = true) (hk : (engOf m e).keeper = true) (hst : (engOf m e).st = .running)
    (ht : (greg m e ra).toNat ≤ 15) (h0 : plotQuiet m 0 (fget m (lvlBase 0 + 16 * (greg m e ra).toNat) R.PLC_MIGT_PLOT) = true)
    (h1 : plotQuiet m 1 (fget m (lvlBase 1 + 16 * (greg m e ra).toNat) R.PLC_MIGT_PLOT) = true) :
    doPlcholdSet e rd ra m = retireRd e rd 1 (pairHold (greg m e ra).toNat true m) := by
  have hwait : (engOf m e).st ≠ .waiting := by simp [hst]
  simp [doPlcholdSet, issue_keeper hw hk, Nat.not_lt.mpr ht, hwait, pairHold_hold, pairHold_plot, plotQuiet_pairHold, h0, h1]

theorem plcholdClear_clears (hw : atWord m e (encX 0x16 rd ra 0 0) = true) (hk : (engOf m e).keeper = true) (ht : (greg m e ra).toNat ≤ 15) :
    doPlcholdClear e rd ra m = retireRd e rd 1 (pairHold (greg m e ra).toNat false m) := by
  simp [doPlcholdClear, issue_keeper hw hk, Nat.not_lt.mpr ht]

/-! ## View extents (R304) -/

section
variable (hk : (engOf m e).keeper = true) (hsb : (engOf m e).sb = []) (hs : (greg m e rb).toNat / 2 ^ 62 = 1)
  (h8 : (greg m e rb).toNat % 2 ^ 62 % 8 = 0) (hn : (greg m e rb).toNat % 2 ^ 62 + 16 ≤ 65536) (hp : (engOf m e).p = none)
  (h0 : greg m e rd = 0) (hr : roleOf m (bitsOf (greg m e ra).toNat 0 5) = 1)
include hk hsb hs h8 hn hp h0 hr

/-- An image that passes its checks is installed and offered to the host. -/
theorem vextInstall_offers (hw : atWord m e (encX 0x17 rd ra rb 0) = true) {p x w0 w1 : Nat} (hport : p = bitsOf (greg m e ra).toNat 0 5)
    (hx : x = bitsOf (greg m e ra).toNat 8 6) (h0w : w0 = scrWord m e ((greg m e rb).toNat % 2 ^ 62))
    (h1w : w1 = scrWord m e ((greg m e rb).toNat % 2 ^ 62 + 8)) (hc : extCheck m (engSide e) p x w0 w1 = 0) :
    doVextInstall e rd ra rb m = pSave (dcEvent (fset (fset (fset (fset m (ptBase p + 16 * x) R.PT_VEXT_A_DPA_PLOT (bitsOf w0 0 27))
      (ptBase p + 16 * x) R.PT_VEXT_A_LENM1 (bitsOf w0 32 27)) (ptBase p + 16 * x) R.PT_VEXT_B_POOL_PLOT (bitsOf w1 0 27))
      (ptBase p + 16 * x) R.PT_VEXT_B_STATE 1) p 0 x) e rd 0 1 := by
  rw [← hport] at hr
  rw [doVextInstall, vext, issue_keeper hw hk, withScr_at hs h8 hn, afterStores_empty hsb]
  dsimp only
  rw [kindP_first hp h0 rfl, ← hport, ← hx, ← h0w, ← h1w]
  simp [hr, hc]

/-- The release of an Accepted extent asks the host for it. -/
theorem vextRelease_asks (hw : atWord m e (encX 0x17 rd ra rb 1) = true) {p x : Nat} (hport : p = bitsOf (greg m e ra).toNat 0 5)
    (hx : x = bitsOf (greg m e ra).toNat 8 6) (hst : extState m p x = 2) :
    doVextRelease e rd ra rb m = pSave (dcEvent (extSet m p x 3) p 1 x) e rd 0 1 := by
  subst hport hx
  rw [doVextRelease, vext, issue_keeper hw hk, withScr_at hs h8 hn, afterStores_empty hsb]
  dsimp only
  rw [kindP_first hp h0 rfl]
  simp [hr, hst]

/-- The forced release of an Accepted extent starts its release at once. -/
theorem vextForcedRelease_releases (hw : atWord m e (encX 0x17 rd ra rb 2) = true) {p x : Nat} (hport : p = bitsOf (greg m e ra).toNat 0 5)
    (hx : x = bitsOf (greg m e ra).toNat 8 6) (hst : extState m p x = 2) :
    doVextForcedRelease e rd ra rb m = pSave (extRelease (dcEvent (extSet m p x 3) p 2 x) p x false) e rd 0 1 := by
  subst hport hx
  rw [doVextForcedRelease, vext, issue_keeper hw hk, withScr_at hs h8 hn, afterStores_empty hsb]
  dsimp only
  rw [kindP_first hp h0 rfl]
  simp [hr, hst]

end

/-! ## Frame retirement (R305) -/

/-- An operation of an available controller that is not busy starts with the fields of rb. -/
theorem fret_starts {op : Nat} (hw : atWord m e (encX 0x20 rd ra rb op) = true) (hk : (engOf m e).keeper = true) (hp : (engOf m e).p = none)
    (h0 : greg m e rd = 0) {k frame pc : Nat} (hka : k = (greg m e ra).toNat) (h7 : k ≤ 7) (hup : sideUp m (k / 4) = true)
    (hb : fon m (rsvBase k) R.RSV_RETIRE_BUSY = false) (hf : frame = bitsOf (greg m e rb).toNat 0 19)
    (hpc : pc = bitsOf (greg m e rb).toNat 19 5) :
    fret e rd ra rb op m = pSave (startRetire (engSet (fset (fset (fset m (rsvBase k) R.RSV_RETIRE_FRAME frame) (rsvBase k)
      R.RSV_RETIRE_PC pc) (rsvBase k) R.RSV_RETIRE_OP op) e { engOf m e with fret := none }) k op pc frame (some e.val)) e rd 0 1 := by
  subst hka hf hpc
  rw [fret, issue_keeper hw hk]
  refine (if_neg (by simp [Nat.not_lt.mpr h7, hup])).trans ((kindP_first hp h0 rfl _).trans ?_)
  exact (if_pos rfl).trans (if_neg (by simp [hb]))

theorem fret_access {op : Nat} (hw : atWord m e (encX 0x20 rd ra rb op) = true) (hk : (engOf m e).keeper = true)
    (h7 : 7 < (greg m e ra).toNat) : fret e rd ra rb op m = trapNow m e .access 0 := by
  rw [fret, issue_keeper hw hk]
  exact if_pos (by simp [h7])

/-! ## The settings commit (R306, R425) -/

section
variable (hw : atWord m e (encX 0x21 rd 0 0 0) = true) (hk : (engOf m e).keeper = true) (hp : (engOf m e).p = none) (h0 : greg m e rd = 0)
  (hc : m.boot.commit = none) {size : BitVec 48}
include hw hk hp h0 hc

/-- With no commit in progress a snapshot is taken into the other slot. -/
theorem scommit_starts (hs : size.toNat ≤ 32 * 2 ^ 20) :
    doScommit e rd size m = pSave (fset (setimgPut
      { m with boot := { m.boot with commit := some ⟨commitSlot m, snapshot m (engSide e) size.toNat, e⟩ },
               flash := { m.flash with slots := mdel m.flash.slots (commitSlot m) } })
      (8 * commitSlot m) R.AON_SETIMG_WRITING 1) e rd 0 1 := by
  rw [doScommit, issueIf_at hw (by simp), keeperOnly_keeper hk, kindP_first hp h0 rfl]
  simp [hc, Nat.not_lt.mpr hs, -Nat.reducePow, -Nat.reduceMul]

theorem scommit_tooLarge (hs : 32 * 2 ^ 20 < size.toNat) : doScommit e rd size m = pFin m e rd 0 0 2 := by
  rw [doScommit, issueIf_at hw (by simp), keeperOnly_keeper hk, kindP_first hp h0 rfl]
  simp [hc, hs, -Nat.reducePow, -Nat.reduceMul]

end
end

/-! ## The commands' effects -/

theorem exec_plctrkArm (e rd ra rb : Fin 32) (s : State) : exec (.plctrkArm e rd ra rb) s = act s (doPlctrkArm e rd ra rb) := by rfl
theorem exec_plctrkFree (e rd ra rb : Fin 32) (s : State) : exec (.plctrkFree e rd ra rb) s = act s (doPlctrkFree e rd ra rb) := by rfl
theorem exec_plcholdSet (e rd ra : Fin 32) (s : State) : exec (.plcholdSet e rd ra) s = act s (doPlcholdSet e rd ra) := by rfl
theorem exec_plcholdClear (e rd ra : Fin 32) (s : State) : exec (.plcholdClear e rd ra) s = act s (doPlcholdClear e rd ra) := by rfl
theorem exec_vextInstall (e rd ra rb : Fin 32) (s : State) : exec (.vextInstall e rd ra rb) s = act s (doVextInstall e rd ra rb) := by rfl
theorem exec_vextRelease (e rd ra rb : Fin 32) (s : State) : exec (.vextRelease e rd ra rb) s = act s (doVextRelease e rd ra rb) := by rfl
theorem exec_vextForcedRelease (e rd ra rb : Fin 32) (s : State) :
    exec (.vextForcedRelease e rd ra rb) s = act s (doVextForcedRelease e rd ra rb) := by rfl
theorem exec_fretRemap (e rd ra rb : Fin 32) (s : State) : exec (.fretRemap e rd ra rb) s = act s (doFretRemap e rd ra rb) := by rfl
theorem exec_fretBarFrame (e rd ra rb : Fin 32) (s : State) : exec (.fretBarFrame e rd ra rb) s = act s (doFretBarFrame e rd ra rb) := by rfl
theorem exec_fretBarBank (e rd ra rb : Fin 32) (s : State) : exec (.fretBarBank e rd ra rb) s = act s (doFretBarBank e rd ra rb) := by rfl
theorem exec_scommit (e rd : Fin 32) (size : BitVec 48) (s : State) : exec (.scommit e rd size) s = act s (doScommit e rd size) := by rfl

end Sys2Proof.Machine
end

section
/-! The settling of O27. -/

open Sys2Proof Sys2Proof.Machine

/-- Settles O27: each clause is its command's effect in a keeper call, from the lemma of that instruction's first step. -/
theorem trackersExtentsAndRetirement : Obligations.TrackersExtentsAndRetirement := by
  unfold Obligations.TrackersExtentsAndRetirement
  refine ⟨?_, ?_, ?_, ?_, ?_, ?_, ?_, ?_, ?_, ?_, ?_, ?_, ?_, ?_⟩
  · rintro e rd ra rb _ _ q m hw hk rfl ht rfl hp h0 h1
    exact leads_eq (exec_plctrkArm ..) (plctrkArm_free hw hk ht hp h0 h1)
  · rintro e rd ra rb _ _ q m hw hk rfl ht rfl hp h0 hne
    exact leads_eq (exec_plctrkArm ..) (plctrkArm_other hw hk ht hp h0 hne)
  · rintro e rd ra rb _ q m hw hk rfl ht
    exact leads_eq (exec_plctrkFree ..) (plctrkFree_frees hw hk ht)
  · rintro e rd ra _ q m hw hk hst rfl ht h0 h1
    exact leads_eq (exec_plcholdSet ..) (plcholdSet_quiet hw hk hst ht h0 h1)
  · rintro e rd ra _ q m hw hk rfl ht
    exact leads_eq (exec_plcholdClear ..) (plcholdClear_clears hw hk ht)
  · rintro e rd ra rb _ p x w0 w1 q m hw hk hsb hs rfl h8 hn hp h0 hport hx hr h0w h1w hc
    exact leads_eq (exec_vextInstall ..) (vextInstall_offers hk hsb hs h8 hn hp h0 (hport ▸ hr) hw hport hx h0w h1w hc)
  · rintro e rd ra rb _ p x q m hw hk hsb hs rfl h8 hn hp h0 hport hx hr hst
    exact leads_eq (exec_vextRelease ..) (vextRelease_asks hk hsb hs h8 hn hp h0 (hport ▸ hr) hw hport hx hst)
  · rintro e rd ra rb _ p x q m hw hk hsb hs rfl h8 hn hp h0 hport hx hr hst
    exact leads_eq (exec_vextForcedRelease ..) (vextForcedRelease_releases hk hsb hs h8 hn hp h0 (hport ▸ hr) hw hport hx hst)
  · intro e rd ra rb k frame pc q m hw hk hp h0 hka h7 hup hb hf hpc
    exact leads_eq (exec_fretRemap ..) (fret_starts hw hk hp h0 hka h7 hup hb hf hpc)
  · intro e rd ra rb k frame pc q m hw hk hp h0 hka h7 hup hb hf hpc
    exact leads_eq (exec_fretBarFrame ..) (fret_starts hw hk hp h0 hka h7 hup hb hf hpc)
  · intro e rd ra rb k frame pc q m hw hk hp h0 hka h7 hup hb hf hpc
    exact leads_eq (exec_fretBarBank ..) (fret_starts hw hk hp h0 hka h7 hup hb hf hpc)
  · intro e rd ra rb q m hw hk h7
    exact leads_eq (exec_fretRemap ..) (fret_access hw hk h7)
  · rintro e rd size _ q m hw hk hp h0 hc hs rfl
    exact leads_eq (exec_scommit ..) (scommit_starts hw hk hp h0 hc hs)
  · intro e rd size q m hw hk hp h0 hc hs
    exact leads_eq (exec_scommit ..) (scommit_tooLarge hw hk hp h0 hc hs)

end

section
/-! A run of placement entries of which one is refused (R313, Table 11-10). -/

namespace Sys2Proof.Machine

/-- A keeper call of engine 0 at a PLCRUN of two entries from plot 0, which name sled plots 0 and 1 of MEM port 8, whose sled has the one plot 0. -/
def shortSledRun : Mach :=
  let m := engSet (fset Mach.reset (ptBase 8) R.PT_ROLE_ROLE 2) 0 { Eng.fresh with st := .running, keeper := true }
  { m with
    ports := { m.ports with sledCap := [(8, 1)] }
    eng := { m.eng with
      prog := [(progKey 0 0 0, encX 0x14 3 1 0 0)]
      greg := [(1, 0x4000000000000000)]
      scratch := [(4, 2), (11, 4), (12, 2)] } }

/-- The run starts with rd 0 from an operand at byte 0 of scratch memory and keeps the run-wide limits. -/
theorem shortSledRun_starts :
    atWord shortSledRun 0 (encX 0x14 3 1 0 0) = true ∧ (engOf shortSledRun 0).keeper = true ∧ (engOf shortSledRun 0).sb = [] ∧
    (greg shortSledRun 0 1).toNat / 2 ^ 62 = 1 ∧ 0 = (greg shortSledRun 0 1).toNat % 2 ^ 62 ∧ (engOf shortSledRun 0).p = none ∧
    greg shortSledRun 0 3 = 0 ∧ 0x200000000 = scrWord shortSledRun 0 0 ∧ 0x204000000 = scrWord shortSledRun 0 8 ∧
    0 = scrWord shortSledRun 0 16 ∧ runCheck shortSledRun 0x200000000 0x204000000 0 (scrWord shortSledRun 0 24) = 0 := by decide +kernel

/-- The first entry may be written; the second lies past the sled's capacity. -/
theorem shortSledRun_entries :
    plcCheck shortSledRun 0 (plcGet shortSledRun 0 0) (runEntry 0x204000000 0 0) = .write ∧
    plcCheck shortSledRun 1 (plcGet shortSledRun 0 1) (runEntry 0x204000000 0 1) = .status 1 := by decide +kernel

/-- The step ends the run with COUNT 0 and STATUS RANGE. -/
theorem shortSledRun_refused : greg (settle shortSledRun (doPlcrun 0 3 1 shortSledRun)) 0 3 = 0x8100000000000000 := by decide +kernel

/-- A run that had written both entries would end with COUNT 2 and STATUS 0. -/
theorem shortSledRun_written :
    greg (settle shortSledRun (pFin ((List.range 2).foldl (fun m i => plcSet m (bitsOf 0x200000000 0 27 + i) (runEntry 0x204000000 0 i))
      shortSledRun) 0 3 2 0 0)) 0 3 = 0x8000000000000002 := by decide +kernel

theorem exec_plcrun (e rd ra : Fin 32) (s : State) : exec (.plcrun e rd ra) s = act s (doPlcrun e rd ra) := by rfl

/-- A command leads to one machine. -/
theorem settle_eq_of_leads {i : Instr} {q : List Instr} {m m' : Mach} {f : Mach → Mach} (h : exec i ⟨q, m⟩ = act ⟨q, m⟩ f)
    (hl : Leads i q m m') : settle m (f m) = settle m m' := by
  have hn : act ⟨q, m⟩ f = .next ⟨q, settle m m'⟩ := h.symm.trans hl
  simpa [act] using hn

end Sys2Proof.Machine
end

section
/-! The settling of O26. -/

open Sys2Proof Sys2Proof.Machine

/-- Refutes O26: in its PLCRUN clause the conclusion lies inside the quantifier over the entries (`∀ i < n, plcCheck … = .write → Leads …`), so one
entry that passes would have the whole run written. In `shortSledRun` the first of two entries passes and the second is refused: the run ends with
STATUS RANGE and writes nothing, as R313 says. -/
theorem not_compositionInstructions : ¬ Obligations.CompositionInstructions := by
  unfold Obligations.CompositionInstructions
  rintro ⟨-, -, -, -, -, -, hrun, -⟩
  obtain ⟨hw, hk, hsb, hspace, ha, hp, h0, h0w, h1w, h2w, hc⟩ := shortSledRun_starts
  have hl := hrun 0 3 1 0 0x200000000 0x204000000 0 2 [] shortSledRun hw hk hsb hspace ha (by decide) (by decide) hp h0 h0w h1w h2w hc
    (by decide) (by decide) 0 (by decide) shortSledRun_entries.1
  have hrd := shortSledRun_refused.symm.trans
    ((congrArg (greg · 0 3) (settle_eq_of_leads (exec_plcrun 0 3 1 _) hl)).trans shortSledRun_written)
  exact absurd hrd (by decide)

end

section
/-! SUPPORT. What decoding reads: counts change none of it (R41, R44, R50, R52). -/

namespace Sys2Proof.Machine

variable (m : Mach) (b c n : Nat)

@[simp] theorem hostReach_count (p hpa : Nat) (w : Bool) : hostReach (count m b c n) p hpa w = hostReach m p hpa w :=
  count_same (hostReach · p hpa w) (fun _ _ _ _ => rfl) m b c n

end Sys2Proof.Machine
end

section
/-! SUPPORT. What a host's memory request meets at its tile (R50, R61, R149, Table 3-8). -/

namespace Sys2Proof.Machine

/-! ## Decoding -/

section
variable {m : Mach} {p hpa k pln : Nat}

theorem hostReach_line (h : hostDecode m p hpa = .line pln) (w : Bool) : hostReach m p hpa w = .line pln := by
  simp [hostReach, h]

/-- A read that its decoding refuses is refused. -/
theorem hostReach_read_viol (h : hostDecode m p hpa = .viol k) : hostReach m p hpa false = .viol k := by
  unfold hostReach
  rw [h]
  cases hostLine m p hpa <;> simp

/-- A write that is the data of an open snoop is taken although the region does not permit it. -/
theorem hostReach_snoopData (h : hostDecode m p hpa = .viol k) (hl : hostLine m p hpa = .line pln) (hs : snoopOpen m p pln = true) :
    hostReach m p hpa true = .line pln := by
  simp [hostReach, h, hl, hs]

end

/-! ## Classes (Table 6-6) -/

theorem rdCls_isWrite (mv : Sys2Proof.Meta) : (Meta.rdCls mv).isWrite = false := by cases mv <;> rfl
theorem invCls_isWrite (mv : Sys2Proof.Meta) : (Meta.invCls mv).isWrite = false := by cases mv <;> rfl
theorem wrCls_isWrite (mv : Sys2Proof.Meta) : (Meta.wrCls mv).isWrite = true := by cases mv <;> rfl
theorem rdCls_wantsData (mv : Sys2Proof.Meta) : (Meta.rdCls mv).wantsData = true := by cases mv <;> rfl
theorem invCls_wantsData (mv : Sys2Proof.Meta) : (Meta.invCls mv).wantsData = false := by cases mv <;> rfl
theorem wrCls_wantsData (mv : Sys2Proof.Meta) : (Meta.wrCls mv).wantsData = false := by cases mv <;> rfl

/-! ## The request -/

section
variable {m : Mach} {p tag hpa k pln : Nat} {c : HostCls} {data : Line} {mask : Mask} {poison : Bool}

/-- A request that reaches a line is counted, enters the transaction table and goes to its home as soon as it may. -/
theorem hostReq_taken {w : Bool} (hc : c.isWrite = w) (ht : takesMem m p = true) (hr : hostReach m p hpa w = .line pln) :
    hostReq p tag hpa c data mask poison m = sendHeld (pttTake (count m (ptBase p) (if w then 2 else 1)) p tag (.host c) false pln
      data mask poison false false false 0 0 64 (hpa * 64)) := by
  simp [hostReq, ht, hc, hr]

/-- A refused request is counted and recorded, and answered with what Table 3-8 gives its class. -/
theorem hostReq_refused {w d : Bool} (hc : c.isWrite = w) (hd : c.wantsData = d) (ht : takesMem m p = true)
    (hr : hostReach m p hpa w = .viol k) :
    hostReq p tag hpa c data mask poison m =
      sendNothing (viol (count m (ptBase p) (if w then 2 else 1)) p k (hpa * 64)) p tag d := by
  simp [hostReq, ht, hc, hd, hr]

end

/-! ## The commands' effects -/

theorem exec_memRd (p : Fin 32) (tag : BitVec 16) (hpa : BitVec 46) (mv : Sys2Proof.Meta) (s : State) :
    exec (.memRd p tag hpa mv) s = act s (doMemRd p tag hpa mv) := by rfl
theorem exec_memInv (p : Fin 32) (tag : BitVec 16) (hpa : BitVec 46) (mv : Sys2Proof.Meta) (s : State) :
    exec (.memInv p tag hpa mv) s = act s (doMemInv p tag hpa mv) := by rfl
theorem exec_memInvNt (p : Fin 32) (tag : BitVec 16) (hpa : BitVec 46) (mv : Sys2Proof.Meta) (s : State) :
    exec (.memInvNt p tag hpa mv) s = act s (doMemInvNt p tag hpa mv) := by rfl
theorem exec_memSpecRd (p : Fin 32) (tag : BitVec 16) (hpa : BitVec 46) (s : State) :
    exec (.memSpecRd p tag hpa) s = act s (doMemSpecRd p tag hpa) := by rfl
theorem exec_memWr (p : Fin 32) (tag : BitVec 16) (hpa : BitVec 46) (mv : Sys2Proof.Meta) (data : Line) (poison : Bool) (s : State) :
    exec (.memWr p tag hpa mv data poison) s = act s (doMemWr p tag hpa mv data poison) := by rfl
theorem exec_memWrPtl (p : Fin 32) (tag : BitVec 16) (hpa : BitVec 46) (mv : Sys2Proof.Meta) (data : Line) (mask : Mask) (poison : Bool)
    (s : State) : exec (.memWrPtl p tag hpa mv data mask poison) s = act s (doMemWrPtl p tag hpa mv data mask poison) := by rfl

end Sys2Proof.Machine
end

section
/-! The settling of O28. -/

open Sys2Proof Sys2Proof.Machine

/-- Settles O28: every request is a `hostReq` of the class that Table 6-6 gives it, taken where its tile reaches a line and refused otherwise. -/
theorem hostMemoryRequests : Obligations.HostMemoryRequests := by
  unfold Obligations.HostMemoryRequests
  refine ⟨?_, ?_, ?_, ?_, ?_, ?_, ?_, ?_, ?_, ?_, ?_, ?_⟩
  · intro p tag hpa mv pln q m ht h
    exact leads_eq (exec_memRd ..) (hostReq_taken (w := false) (rdCls_isWrite mv) ht (hostReach_line h _))
  · intro p tag hpa mv k q m ht h
    exact leads_eq (exec_memRd ..) (hostReq_refused (w := false) (rdCls_isWrite mv) (rdCls_wantsData mv) ht (hostReach_read_viol h))
  · intro p tag hpa mv pln q m ht h
    exact leads_eq (exec_memInv ..) (hostReq_taken (w := false) (invCls_isWrite mv) ht (hostReach_line h _))
  · intro p tag hpa mv pln q m ht h
    exact leads_eq (exec_memInvNt ..) (hostReq_taken (w := false) (invCls_isWrite mv) ht (hostReach_line h _))
  · intro p tag hpa mv k q m ht h
    exact leads_eq (exec_memInv ..) (hostReq_refused (w := false) (invCls_isWrite mv) (invCls_wantsData mv) ht (hostReach_read_viol h))
  · intro p tag hpa mv data poison pln q m ht h
    exact leads_eq (exec_memWr ..) (hostReq_taken (w := true) (wrCls_isWrite mv) ht (hostReach_line h _))
  · intro p tag hpa mv data mask poison pln q m ht h
    exact leads_eq (exec_memWrPtl ..) (hostReq_taken (w := true) (wrCls_isWrite mv) ht (hostReach_line h _))
  · intro p tag hpa mv data poison k q m ht _ hr
    exact leads_eq (exec_memWr ..) (hostReq_refused (w := true) (wrCls_isWrite mv) (wrCls_wantsData mv) ht hr)
  · intro p tag hpa data poison k pln q m ht h hl hs
    exact leads_eq (exec_memWr ..) (hostReq_taken (w := true) (wrCls_isWrite .i) ht (hostReach_snoopData h hl hs))
  · intro p tag hpa mv k q m ht h
    exact leads_eq (exec_memInvNt ..) (hostReq_refused (w := false) (invCls_isWrite mv) (invCls_wantsData mv) ht (hostReach_read_viol h))
  · intro p tag hpa mv data mask poison k q m ht _ hr
    exact leads_eq (exec_memWrPtl ..) (hostReq_refused (w := true) (wrCls_isWrite mv) (wrCls_wantsData mv) ht hr)
  · intro p tag hpa q m
    exact leads_eq (exec_memSpecRd ..) rfl

end

section
/-! A mailbox answer is named by its command (R363, Table 14-4). -/

namespace Sys2Proof.Machine

/-- Port 0 is a HOST port whose link is Up; it has no extents. -/
def hostPortUp : Mach := fset (fset Mach.reset (ptBase 0) R.PT_ROLE_ROLE 1) (ptBase 0) R.PT_LINK_STATE 3

/-- The step answers a request for the extent list under the name of Table 14-4. -/
theorem hostPortUp_extentList :
    (settle hostPortUp (doGetDynamicCapacityExtentList 0 hostPortUp)).outbox =
      [.mailbox 0 "Get Dynamic Capacity Extent List" .success []] := by decide +kernel

theorem exec_getDynamicCapacityExtentList (p : Fin 32) (s : State) :
    exec (.getDynamicCapacityExtentList p) s = act s (doGetDynamicCapacityExtentList p) := by rfl

end Sys2Proof.Machine
end

section
/-! The settling of O32. -/

open Sys2Proof Sys2Proof.Machine

/-- Refutes O32: in its clause about GET_DYNAMIC_CAPACITY_EXTENT_LIST the name of the answer is a string literal broken over two lines, which holds the
line break and five blanks. On `hostPortUp` the module answers under the name without them. -/
theorem not_dynamicCapacityAndQueues : ¬ Obligations.DynamicCapacityAndQueues := by
  unfold Obligations.DynamicCapacityAndQueues
  rintro ⟨-, hlist, -⟩
  have hl := hlist 0 [] hostPortUp (by decide +kernel)
  have hout := congrArg Mach.outbox (settle_eq_of_leads (exec_getDynamicCapacityExtentList 0 _) hl)
  exact absurd (hostPortUp_extentList.symm.trans hout) (by decide +kernel)

end

section
/-! SUPPORT. What an IO port does with a device's requests (R44, R50, R154, R175 to R179, R368, Table 3-8). -/

namespace Sys2Proof.Machine

/-! ## A count changes nothing that the checks of a request read -/

section
variable (m : Mach) (b c n : Nat)

@[simp] theorem fon_count (d : Nat) (f : Fld) : fon (count m b c n) d f = fon m d f := by
  simp [fon]

/-- The windows and their rights read registers alone. -/
theorem ioDecode_count (p a k : Nat) (rights : Nat → Bool) : ioDecode (count m b c n) p a k rights = ioDecode m p a k rights :=
  count_same (ioDecode · p a k rights) (fun _ _ _ _ => rfl) m b c n

theorem piecesCheck_count (p : Nat) (ls : List (Nat × Nat × Nat)) : piecesCheck (count m b c n) p ls = piecesCheck m p ls :=
  count_same (piecesCheck · p ls) (fun _ _ _ _ => rfl) m b c n

theorem idoOn_count (p rid : Nat) (ido : Bool) : idoOn (count m b c n) p rid ido = idoOn m p rid ido :=
  count_same (idoOn · p rid ido) (fun _ _ _ _ => rfl) m b c n

end

/-! ## Reads -/

section
variable {m : Mach} {p : Fin 32} {tag : BitVec 14} {a : BitVec 64} {n : Fin 4097} {ido : Bool} {rid : BitVec 16} {x k : Nat} {g : Bool}

/-- A permitted read enters the transaction table line by line. -/
theorem ioDmaRead_taken (hup : npUp m p = true) (hn : n.val ≠ 0)
    (hd : ioDecode m p a.toNat n (fun b => fon m b R.PT_IOWINA_R) = .addr x) (hc : piecesCheck m p (pieces x n) = none)
    (hg : g = idoOn m p rid.toNat ido) :
    doIoDmaRead p tag a n ido rid m = sendHeld ((pieces x n).foldl (fun m l => pttTake m p tag.toNat .ioRead true l.1 0 0 false false
      false g rid.toNat l.2.1 l.2.2 a.toNat) (count m (ptBase p) 0x01)) := by
  simp only [doIoDmaRead, hup, fon_count, ioDecode_count, piecesCheck_count, idoOn_count, hd, hc, ← hg]
  refine if_neg ?_
  simp [hn]

/-- A read that no window permits is recorded and completes with UR. -/
theorem ioDmaRead_window (hup : npUp m p = true) (hn : n.val ≠ 0)
    (hd : ioDecode m p a.toNat n (fun b => fon m b R.PT_IOWINA_R) = .viol k) :
    doIoDmaRead p tag a n ido rid m = ioRefuse (count m (ptBase p) 0x01) p tag.toNat k a.toNat := by
  simp [doIoDmaRead, hup, hn, ioDecode_count, hd]

/-- A read that a region does not permit is recorded and completes with UR. -/
theorem ioDmaRead_region (hup : npUp m p = true) (hn : n.val ≠ 0)
    (hd : ioDecode m p a.toNat n (fun b => fon m b R.PT_IOWINA_R) = .addr x) (hc : piecesCheck m p (pieces x n) = some k) :
    doIoDmaRead p tag a n ido rid m = ioRefuse (count m (ptBase p) 0x01) p tag.toNat k a.toNat := by
  simp [doIoDmaRead, hup, hn, ioDecode_count, piecesCheck_count, hd, hc]

end

/-! ## Posted writes -/

/-- Two folds whose steps agree wherever an invariant of the steps holds agree from where it holds. -/
theorem foldl_congr_of_inv {α γ : Type} {inv : α → Prop} {f g : α → γ → α} (hinv : ∀ a x, inv a → inv (f a x))
    (h : ∀ a x, inv a → f a x = g a x) (l : List γ) {a : α} (ha : inv a) : l.foldl f a = l.foldl g a := by
  induction l generalizing a with
  | nil => rfl
  | cons x l ih => rw [List.foldl_cons, List.foldl_cons, ← h a x ha]; exact ih (hinv a x ha)

section
variable {m : Mach} {p : Fin 32} {a : BitVec 64} {n : Fin 257} {data : BitVec 2048} {en : BitVec 256} {poison ro ido : Bool} {rid : BitVec 16}
  {x k : Nat} {g : Bool} (hup : ioUp m p = true) (hn : n.val ≠ 0)
  (hw : prepHeld m p + (pieces a.toNat n).length ≤ fget m (ptBase p) R.PT_IOORD_WINDOW)
include hup hn hw

/-- A permitted write within the issue window enters the transaction table line by line. Entering an entry writes no register, so RO_EN reads alike at
every line. -/
theorem ioPostedWrite_taken (hd : ioDecode m p a.toNat n (fun b => fon m b R.PT_IOWINA_W) = .addr x)
    (hc : piecesCheck m p (pieces x n) = none)
    (hg : g = idoOn m p rid.toNat ido) :
    doIoPostedWrite p a n data en poison ro ido rid m = sendHeld ((pieces x n).foldl (fun m l => pttTake m p 0 .ioWrite true l.1
      (BitVec.ofNat 512 (data.toNat * 2 ^ (8 * (x % 64)) / 2 ^ (512 * (l.1 - x / 64))))
      (BitVec.ofNat 64 (en.toNat % 2 ^ n.val * 2 ^ (x % 64) / 2 ^ (64 * (l.1 - x / 64)))) poison true
      (ro && fon m (ptBase p) R.PT_IOORD_RO_EN) g rid.toNat l.2.1 l.2.2 a.toNat) (count m (ptBase p) 0x02)) := by
  simp only [doIoPostedWrite, hup, fon_count, ioDecode_count, piecesCheck_count, idoOn_count, hd, hc, ← hg]
  refine (if_neg ?_).trans (congrArg sendHeld (foldl_congr_of_inv (inv := fun s : Mach => s.regs = m.regs) ?_ ?_ _ (count_regs ..)))
  · simp [hn, hw]
  · exact fun _ _ hs => hs
  · intro s l hs
    have hro : fon s (ptBase p) R.PT_IOORD_RO_EN = fon m (ptBase p) R.PT_IOORD_RO_EN := by rw [fon, fon, fget_of_regs hs]
    rw [hro]

/-- A write that no window permits is recorded. -/
theorem ioPostedWrite_window (hd : ioDecode m p a.toNat n (fun b => fon m b R.PT_IOWINA_W) = .viol k) :
    doIoPostedWrite p a n data en poison ro ido rid m = urRecord (viol (count m (ptBase p) 0x02) p k a.toNat) p a.toNat := by
  simp [doIoPostedWrite, hup, hn, Nat.not_lt.mpr hw, ioDecode_count, hd]

/-- A write that a region does not permit is recorded. -/
theorem ioPostedWrite_region (hd : ioDecode m p a.toNat n (fun b => fon m b R.PT_IOWINA_W) = .addr x)
    (hc : piecesCheck m p (pieces x n) = some k) :
    doIoPostedWrite p a n data en poison ro ido rid m = urRecord (viol (count m (ptBase p) 0x02) p k a.toNat) p a.toNat := by
  simp [doIoPostedWrite, hup, hn, Nat.not_lt.mpr hw, ioDecode_count, piecesCheck_count, hd, hc]

end

/-! ## Atomics -/

section
variable {m : Mach} {p : Fin 32} {tag : BitVec 14} {a : BitVec 64} {n : Nat} {op : Amo} {v cmp : Nat} {ido : Bool} {rid : BitVec 16} {x k : Nat}
  {g : Bool} (hup : npUp m p = true)
include hup

/-- An aligned atomic that its window and region permit enters the transaction table. -/
theorem ioAtomic_taken (ha : a.toNat % n = 0)
    (hd : ioDecode m p a.toNat n (fun b => fon m b R.PT_IOWINA_ATOM && fon m b R.PT_IOWINA_R && fon m b R.PT_IOWINA_W) = .addr x)
    (hc : piecesCheck m p (pieces x n) = none)
    (hg : g = idoOn m p rid.toNat ido) :
    ioAtomic p tag a n op v cmp ido rid m = sendHeld (pttTake (count m (ptBase p) 0x02) p tag.toNat (.atomic op (x % 64) n v cmp) true
      (x / 64) 0 0 false false false g rid.toNat 0 n a.toNat) := by
  simp only [ioAtomic, hup, ha, fon_count, ioDecode_count, piecesCheck_count, idoOn_count, hd, hc, ← hg]
  rfl

/-- An aligned atomic that no window permits is recorded and completes with UR. -/
theorem ioAtomic_window (ha : a.toNat % n = 0)
    (hd : ioDecode m p a.toNat n (fun b => fon m b R.PT_IOWINA_ATOM && fon m b R.PT_IOWINA_R && fon m b R.PT_IOWINA_W) = .viol k) :
    ioAtomic p tag a n op v cmp ido rid m = ioRefuse (count m (ptBase p) 0x02) p tag.toNat k a.toNat := by
  simp [ioAtomic, hup, ha, ioDecode_count, hd]

/-- A misaligned atomic completes with UR. -/
theorem ioAtomic_misaligned (ha : a.toNat % n ≠ 0) :
    ioAtomic p tag a n op v cmp ido rid m = send (urRecord (count m (ptBase p) 0x02) p a.toNat) (.ioCpl p tag.toNat .ur 0 0 0 false) := by
  simp [ioAtomic, hup, ha]

omit hup in
/-- A CAS of 4 or 8 bytes is an atomic of that size. -/
theorem ioCas_atomic {size : Fin 3} (hs : size.val < 2) (c s : Word) :
    doIoCas p tag a size c s ido rid m = ioAtomic p tag a (if size.val = 1 then 8 else 4) .cas s.toNat c.toNat ido rid m := by
  simp [doIoCas, Nat.ne_of_lt hs]

/-- A CAS of 16 bytes completes with UR. -/
theorem ioCas_wide (c s : Word) :
    doIoCas p tag a 2 c s ido rid m = send (urRecord m p a.toNat) (.ioCpl p tag.toNat .ur 0 0 0 false) := by
  simp [doIoCas, hup]

theorem ioUnsupportedRequest_ur :
    doIoUnsupportedRequest p tag m = send (urRecord m p (2 ^ 64 - 1)) (.ioCpl p tag.toNat .ur 0 0 0 false) := if_pos hup

end

/-! ## The commands' effects -/

theorem exec_ioDmaRead (p : Fin 32) (tag : BitVec 14) (a : BitVec 64) (n : Fin 4097) (ido : Bool) (rid : BitVec 16) (s : State) :
    exec (.ioDmaRead p tag a n ido rid) s = act s (doIoDmaRead p tag a n ido rid) := by rfl
theorem exec_ioPostedWrite (p : Fin 32) (a : BitVec 64) (n : Fin 257) (data : BitVec 2048) (en : BitVec 256) (poison ro ido : Bool)
    (rid : BitVec 16) (s : State) :
    exec (.ioPostedWrite p a n data en poison ro ido rid) s = act s (doIoPostedWrite p a n data en poison ro ido rid) := by rfl
theorem exec_ioFetchAdd (p : Fin 32) (tag : BitVec 14) (a : BitVec 64) (wide : Bool) (v : Word) (ido : Bool) (rid : BitVec 16) (s : State) :
    exec (.ioFetchAdd p tag a wide v ido rid) s = act s (doIoFetchAdd p tag a wide v ido rid) := by rfl
theorem exec_ioSwap (p : Fin 32) (tag : BitVec 14) (a : BitVec 64) (wide : Bool) (v : Word) (ido : Bool) (rid : BitVec 16) (s : State) :
    exec (.ioSwap p tag a wide v ido rid) s = act s (doIoSwap p tag a wide v ido rid) := by rfl
theorem exec_ioCas (p : Fin 32) (tag : BitVec 14) (a : BitVec 64) (size : Fin 3) (cmp swap : Word) (ido : Bool) (rid : BitVec 16) (s : State) :
    exec (.ioCas p tag a size cmp swap ido rid) s = act s (doIoCas p tag a size cmp swap ido rid) := by rfl
theorem exec_ioUnsupportedRequest (p : Fin 32) (tag : BitVec 14) (s : State) :
    exec (.ioUnsupportedRequest p tag) s = act s (doIoUnsupportedRequest p tag) := by rfl

end Sys2Proof.Machine
end

section
/-! The settling of O33. -/

open Sys2Proof Sys2Proof.Machine

/-- Settles O33: each clause is the effect of a read, a posted write or an atomic, whose checks read what the count of the request leaves as it was. -/
theorem ioRequests : Obligations.IoRequests := by
  unfold Obligations.IoRequests
  refine ⟨?_, ?_, ?_, ?_, ?_, ?_, ?_, ?_, ?_, ?_, ?_, ?_, ?_, ?_, ?_, ?_⟩
  · intro p tag a n ido rid x g q m hup hn hd hc hg
    exact leads_eq (exec_ioDmaRead ..) (ioDmaRead_taken hup hn hd hc hg)
  · intro p tag a n ido rid k q m hup hn hd
    exact leads_eq (exec_ioDmaRead ..) (ioDmaRead_window hup hn hd)
  · intro p tag a n ido rid x k q m hup hn hd hc
    exact leads_eq (exec_ioDmaRead ..) (ioDmaRead_region hup hn hd hc)
  · intro p a n data en poison ro ido rid x g q m hup hn hw hd hc hg
    exact leads_eq (exec_ioPostedWrite ..) (ioPostedWrite_taken hup hn hw hd hc hg)
  · intro p a n data en poison ro ido rid k q m hup hn hw hd
    exact leads_eq (exec_ioPostedWrite ..) (ioPostedWrite_window hup hn hw hd)
  · intro p a n data en poison ro ido rid x k q m hup hn hw hd hc
    exact leads_eq (exec_ioPostedWrite ..) (ioPostedWrite_region hup hn hw hd hc)
  · rintro p tag a wide v ido rid _ x g q m hup rfl ha hd hc hg
    exact leads_eq (exec_ioFetchAdd ..) (ioAtomic_taken hup ha hd hc hg)
  · rintro p tag a wide v ido rid _ k q m hup rfl ha hd
    exact leads_eq (exec_ioFetchAdd ..) (ioAtomic_window hup ha hd)
  · intro p tag a wide v ido rid q m hup ha
    exact leads_eq (exec_ioFetchAdd ..) (ioAtomic_misaligned hup ha)
  · rintro p tag a wide v ido rid _ x g q m hup rfl ha hd hc hg
    exact leads_eq (exec_ioSwap ..) (ioAtomic_taken hup ha hd hc hg)
  · rintro p tag a wide v ido rid _ k q m hup rfl ha hd
    exact leads_eq (exec_ioSwap ..) (ioAtomic_window hup ha hd)
  · intro p tag a wide v ido rid q m hup ha
    exact leads_eq (exec_ioSwap ..) (ioAtomic_misaligned hup ha)
  · rintro p tag a size cmp swap ido rid _ x g q m hup hs rfl ha hd hc hg
    exact leads_eq (exec_ioCas ..) ((ioCas_atomic hs cmp swap).trans (ioAtomic_taken hup ha hd hc hg))
  · intro p tag a size cmp swap ido rid q m hup hs ha
    exact leads_eq (exec_ioCas ..) ((ioCas_atomic hs cmp swap).trans (ioAtomic_misaligned hup ha))
  · intro p tag a cmp swap ido rid q m hup
    exact leads_eq (exec_ioCas ..) (ioCas_wide hup cmp swap)
  · intro p tag q m hup
    exact leads_eq (exec_ioUnsupportedRequest ..) (ioUnsupportedRequest_ur hup)

end

section
/-! SUPPORT. What a sled's answers, the upkeep of a link and the state of a MEM port do (R55 to R58, R188, R365 to R376, R380). -/

namespace Sys2Proof.Machine

/-! ## Sled answers -/

/-- The module once request `s` of port `p` has been answered: it is no longer open, and the answer is counted. -/
def sledAnswered (m : Mach) (p : Nat) (s : SledReq) : Mach :=
  count { m with ports := { m.ports with sleds := dropFirst (fun x => x == s) m.ports.sleds } } (ptBase p) 0x0E

section
variable (m : Mach) (p : Nat) (s : SledReq)

theorem count_eq_sledAnswered :
    count { m with ports := { m.ports with sleds := dropFirst (fun x => x == s) m.ports.sleds } } (ptBase p) 0x0E = sledAnswered m p s := rfl

@[simp] theorem mshrOf_sledAnswered (h pln : Nat) : mshrOf (sledAnswered m p s) h pln = mshrOf m h pln :=
  count_same (mshrOf · h pln) (fun _ _ _ _ => rfl) ..

@[simp] theorem plcGet_sledAnswered (sd plot : Nat) : plcGet (sledAnswered m p s) sd plot = plcGet m sd plot :=
  count_same (plcGet · sd plot) (fun _ _ _ _ => rfl) ..

@[simp] theorem memState_sledAnswered (o : Nat) : memState (sledAnswered m p s) o = memState m o := fget_count ..

end

section
variable {m : Mach} {p : Fin 32} {id : Nat} {data : Line} {s : SledReq}
  (hs : (m.ports.sleds.find? fun s => s.id == id && s.port == p.val && s.sent) = some s)
include hs

/-- The data of a flume read completes its step. -/
theorem sledRead_flume {bad : Bool} {c k : Nat} (hw : s.what = .flumeRead c k) (hf : s.fenced = false) :
    doSledReadResponse p id data bad m = complete (sledAnswered m p s) ⟨.flume c k, 0, some ⟨data, bad⟩, none, 0, .ok, none⟩ := by
  simp only [doSledReadResponse, hs, hw, hf]
  rfl

/-- An answer to a request that a failed side had sent is discarded. -/
theorem sledRead_fenced {bad : Bool} {c k : Nat} (hw : s.what = .flumeRead c k) (hf : s.fenced = true) :
    doSledReadResponse p id data bad m = sledAnswered m p s := by
  simp only [doSledReadResponse, hs, hw, hf]
  rfl

section
variable {h pln : Nat} {second : Bool} {r : Mshr} (hf : s.fenced = false) (hr : mshrOf m h pln = some r)
include hf hr

/-- Sound data of a first read fills the miss register that waits for it. -/
theorem sledRead_fills (hw : s.what = .fill h pln false) :
    doSledReadResponse p id data false m = fillPut (sledAnswered m p s) r ⟨data, false⟩ false true := by
  simp only [doSledReadResponse, hs, hw, count_eq_sledAnswered]
  simp [hf, hr]

/-- Bad data with no other copy left to read fills the register poisoned, with a UCC record. -/
theorem sledRead_poisons (hw : s.what = .fill h pln second)
    (ho : second = true ∨ plcM2 (plcGet m s.sd (plotOf pln)) = false ∨ memState m (plcLoc2 (plcGet m s.sd (plotOf pln))).1 = 2) :
    doSledReadResponse p id data true m = fillPut (noteUcc (sledAnswered m p s) pln) r ⟨data, true⟩ false true := by
  simp only [doSledReadResponse, hs, hw, count_eq_sledAnswered]
  rcases ho with ho | ho | ho <;> simp [hf, hr, ho]

/-- A bad first copy of a mirrored plot is read again from the other. -/
theorem sledRead_rereads (hw : s.what = .fill h pln false) (hm : plcM2 (plcGet m s.sd (plotOf pln)) = true) {x : Nat × Nat}
    (hx : x = plcLoc2 (plcGet m s.sd (plotOf pln))) (ho : memState m x.1 ≠ 2) :
    doSledReadResponse p id data true m =
      sledReadReq (sampleDue (sledAnswered m p s) s.sd (plotOf pln)) s.sd x.1 (.fill h pln true) (sledAddr x.2 pln) := by
  subst hx
  simp only [doSledReadResponse, hs, hw, count_eq_sledAnswered]
  simp [hf, hr, hm, ho]

end
end

section
variable {m : Mach} {p : Fin 32}

/-! ## The upkeep of a link -/

/-- An unanswered request is logged, and the link goes down and trains again. -/
theorem sledRequestTimeout_down (hr : roleOf m p = 2) (hl : linkUp m p = true)
    (hs : (m.ports.sleds.any fun s => s.port == p.val && s.sent) = true) :
    doSledRequestTimeout p m = trainStart (linkDown (err m (errOf 1 0x13 0x03 p)) p 1) p :=
    if_pos (by simp [hr, hl, hs])

theorem sledPoll_up (hr : roleOf m p = 2) (hs : memState m p = 0) (recs : List (BitVec 256)) :
    doSledPoll p recs m = recs.foldl (fun m r => eventRecord m 6 0 0x03 p 0 ((List.range 4).map fun i => bitsOf r.toNat (64 * i) 64))
      (send (send m (.sledCmd p "Get Health Info")) (.sledCmd p "Get Event Records")) :=
    if_pos (by simp [hr, hs])

theorem ideIntegrityFailure_down (hl : linkUp m p = true) (hi : fon m (ptBase p) R.PT_LINK_IDE = true) :
    doIdeIntegrityFailure p m = fset (trainStart (linkDown (fsat (fset m (ptBase p) R.PT_IDE_STATE 3) (ptBase p) R.PT_IDE_FAILS) p 1) p)
      (ptBase p) R.PT_LEV_IDEFAIL 1 :=
    if_pos (by simp [hl, hi])

/-- A write of another register of the port leaves its role. -/
theorem roleOf_fset (m : Mach) (p : Nat) {f : Fld} (hf : f.off * 8 + f.lo ≠ R.PT_ROLE_ROLE.off * 8 + R.PT_ROLE_ROLE.lo) (v : Nat) :
    roleOf (fset m (ptBase p) f v) p = roleOf m p := fget_fset_other _ _ _ _ _ _ (by omega)

@[simp] theorem roleOf_count (m : Mach) (b c n q : Nat) : roleOf (count m b c n) q = roleOf m q := fget_count ..

/-- What a passage through Recovery leaves: it and the replayed flits are counted. -/
def recovered (m : Mach) (p flits : Nat) : Mach :=
  fsat (count (recovery m p) (ptBase p) 0x0B flits) (ptBase p) R.PT_ERR_REPLAY flits

theorem roleOf_recovered (m : Mach) (p flits : Nat) : roleOf (recovered m p flits) p = roleOf m p := by
  simp (disch := decide) only [recovered, recovery, fsat, roleOf_fset, roleOf_count]

theorem linkRecovery_eq (flits : BitVec 16) (hl : linkUp m p = true) :
    doLinkRecovery p flits m =
      if roleOf m p = 1 ∧ flits ≠ 0 then
        cfgSet (recovered m p flits.toNat) p { cfgOf (recovered m p flits.toNat) p with aerCor := true }
      else recovered m p flits.toNat := by
  have hrole := roleOf_recovered m p flits.toNat
  unfold recovered at hrole ⊢
  simp [doLinkRecovery, hl, hrole]

/-- What an adaptation step leaves: its count, the worst lane's margin and the corrected flits. -/
def adapted (m : Mach) (p margin lane fec : Nat) : Mach :=
  fsat (count (fset (fset (finc (count m (ptBase p) 0x0F) (ptBase p) R.PT_EQ_ADAPT) (ptBase p) R.PT_EQ_MARGIN margin) (ptBase p)
    R.PT_EQ_LANE lane) (ptBase p) 0x0A fec) (ptBase p) R.PT_ERR_FECCOR fec

theorem roleOf_adapted (m : Mach) (p margin lane fec : Nat) : roleOf (adapted m p margin lane fec) p = roleOf m p := by
  simp (disch := decide) only [adapted, finc, fsat, roleOf_fset, roleOf_count]

theorem adaptationStep_eq (margin : BitVec 8) (lane : Fin 16) (fec : BitVec 16) (hl : linkUp m p = true) :
    doAdaptationStep p margin lane fec m =
      if roleOf m p = 1 ∧ fec ≠ 0 then
        cfgSet (adapted m p margin.toNat lane fec.toNat) p { cfgOf (adapted m p margin.toNat lane fec.toNat) p with aerCor := true }
      else adapted m p margin.toNat lane fec.toNat := by
  have hrole := roleOf_adapted m p margin.toNat lane fec.toNat
  unfold adapted at hrole ⊢
  simp [doAdaptationStep, hl, hrole]

/-- A low margin sets EQLOW, and with EQREDO redoes equalization through Recovery. -/
theorem equalizationMarginLow_eq (hl : linkUp m p = true) (hq : fget m (ptBase p) R.PT_EQ_MARGIN < fget m (ptBase p) R.PT_LCTL_EQMIN) :
    doEqualizationMarginLow p m =
      if fon m (ptBase p) R.PT_LCTL_EQREDO then recovery (fsat (fset m (ptBase p) R.PT_LEV_EQLOW 1) (ptBase p) R.PT_EQ_REDOS) p
      else fset m (ptBase p) R.PT_LEV_EQLOW 1 := by
  have hredo : fon (fset m (ptBase p) R.PT_LEV_EQLOW 1) (ptBase p) R.PT_LCTL_EQREDO = fon m (ptBase p) R.PT_LCTL_EQREDO := by
    rw [fon, fget_fset_other _ _ _ _ _ _ (by simp only [R.PT_LEV_EQLOW, R.PT_LCTL_EQREDO]; omega), fon]
  simp [doEqualizationMarginLow, hl, hq, hredo]

/-! ## The state of a MEM port and its link encryption -/

section
variable (hr : roleOf m p = 2)
include hr

theorem lossWaitExpiry_lost (hs : memState m p = 1) (hw : m.ports.lossWait.contains p.val = true) : doLossWaitExpiry p m = memLose m p :=
    if_pos (by simp only [hr, hs, hw]; rfl)

theorem startwaitExpiry_lost (hs : memState m p = 1) (hw : m.ports.lossWait.contains p.val = false)
    (hp : m.ports.pulses.contains p.val = false) : doStartwaitExpiry p m = memLose m p :=
    if_pos (by simp only [hr, hs, hw, hp]; rfl)

theorem declare_lost : doDeclare p m = memLose m p := by
  simp [doDeclare, hr]

/-- A Lost port without plots whose link is Up, and which needs no encryption, is Up. -/
theorem readmit_up (hs : memState m p = 2) (hp : plotsOf m p = 0) (hl : linkUp m p = true) (hi : fon m (ptBase p) R.PT_IDE_REQ = false) :
    doReadmit p m = memSet (sledStart m p) p 0 := by
  simp [doReadmit, hr, hs, hp, hl, hi]

theorem memIdeKeyRefresh_counts (hl : linkUp m p = true) (hi : fon m (ptBase p) R.PT_LINK_IDE = true) :
    doMemIdeKeyRefresh p m = finc (draw m) (ptBase p) R.PT_IDE_REFRESH := by
  simp [doMemIdeKeyRefresh, hr, hl, hi]

/-- The end of the key exchange makes link encryption active, in containment mode. -/
theorem cxlMemIdeActive_ready (hl : linkUp m p = true) (hq : fon m (ptBase p) R.PT_IDE_REQ = true)
    (hi : fon m (ptBase p) R.PT_LINK_IDE = false) :
    doCxlMemIdeActive p m = memReady (fset (fset (fset (draw m) (ptBase p) R.PT_IDE_STATE 2) (ptBase p) R.PT_IDE_MODE 1) (ptBase p)
      R.PT_LINK_IDE 1) p := by
  simp [doCxlMemIdeActive, hr, hl, hq, hi]

end
end

/-! ## The commands' effects -/

theorem exec_sledReadResponse (p : Fin 32) (id : Nat) (data : Line) (bad : Bool) (s : State) :
    exec (.sledReadResponse p id data bad) s = act s (doSledReadResponse p id data bad) := by rfl
theorem exec_sledRequestTimeout (p : Fin 32) (s : State) : exec (.sledRequestTimeout p) s = act s (doSledRequestTimeout p) := by rfl
theorem exec_sledPoll (p : Fin 32) (recs : List (BitVec 256)) (s : State) : exec (.sledPoll p recs) s = act s (doSledPoll p recs) := by rfl
theorem exec_ideIntegrityFailure (p : Fin 32) (s : State) : exec (.ideIntegrityFailure p) s = act s (doIdeIntegrityFailure p) := by rfl
theorem exec_linkRecovery (p : Fin 32) (flits : BitVec 16) (s : State) :
    exec (.linkRecovery p flits) s = act s (doLinkRecovery p flits) := by rfl
theorem exec_adaptationStep (p : Fin 32) (margin : BitVec 8) (lane : Fin 16) (fec : BitVec 16) (s : State) :
    exec (.adaptationStep p margin lane fec) s = act s (doAdaptationStep p margin lane fec) := by rfl
theorem exec_equalizationMarginLow (p : Fin 32) (s : State) : exec (.equalizationMarginLow p) s = act s (doEqualizationMarginLow p) := by rfl
theorem exec_lossWaitExpiry (p : Fin 32) (s : State) : exec (.lossWaitExpiry p) s = act s (doLossWaitExpiry p) := by rfl
theorem exec_startwaitExpiry (p : Fin 32) (s : State) : exec (.startwaitExpiry p) s = act s (doStartwaitExpiry p) := by rfl
theorem exec_declare (p : Fin 32) (s : State) :
    exec (.declare p) s = act s (gatedReg (ptBase p + 0x110) (fun _ => [(R.PT_MEMCTL_DECLARE, 1)]) (doDeclare p)) := by rfl
theorem exec_readmit (p : Fin 32) (s : State) :
    exec (.readmit p) s = act s (gatedReg (ptBase p + 0x110) (fun _ => [(R.PT_MEMCTL_READMIT, 1)]) (doReadmit p)) := by rfl
theorem exec_memIdeKeyRefresh (p : Fin 32) (s : State) : exec (.memIdeKeyRefresh p) s = act s (doMemIdeKeyRefresh p) := by rfl
theorem exec_cxlMemIdeActive (p : Fin 32) (s : State) : exec (.cxlMemIdeActive p) s = act s (doCxlMemIdeActive p) := by rfl

end Sys2Proof.Machine
end

section
/-! The settling of O36. -/

open Sys2Proof Sys2Proof.Machine

/-- Settles O36: sled answers by what their request was for, Recovery and adaptation by what they count (`recovered`, `adapted`), the rest by the state
of the port; DECLARE and READMIT are writes of a register whose domain answers. -/
theorem sledsAndLinkQuality : Obligations.SledsAndLinkQuality := by
  unfold Obligations.SledsAndLinkQuality
  refine ⟨?_, ?_, ?_, ?_, ?_, ?_, ?_, ?_, ?_, ?_, ?_, ?_, ?_, ?_, ?_, ?_, ?_, ?_, ?_, ?_⟩
  · intro p id data bad s c k q m hs hw hf
    exact leads_eq (exec_sledReadResponse ..) (sledRead_flume hs hw hf)
  · intro p id data s r h pln q m hs hw hf hr
    exact leads_eq (exec_sledReadResponse ..) (sledRead_fills hs hf hr hw)
  · intro p id data bad s c k q m hs hf hw
    exact leads_eq (exec_sledReadResponse ..) (sledRead_fenced hs hw hf)
  · intro p id data s r h pln second q m hs hw hf hr ho
    exact leads_eq (exec_sledReadResponse ..) (sledRead_poisons hs hf hr hw ho)
  · intro p id data s r h pln x q m hs hw hf hr hm hx ho
    exact leads_eq (exec_sledReadResponse ..) (sledRead_rereads hs hf hr hw hm hx ho)
  · intro p q m hr hl hs
    exact leads_eq (exec_sledRequestTimeout ..) (sledRequestTimeout_down hr hl hs)
  · intro p recs q m hr hs
    exact leads_eq (exec_sledPoll ..) (sledPoll_up hr hs recs)
  · intro p q m hl hi
    exact leads_eq (exec_ideIntegrityFailure ..) (ideIntegrityFailure_down hl hi)
  · intro p flits q m hl hn
    exact leads_eq (exec_linkRecovery ..) ((linkRecovery_eq flits hl).trans (if_neg fun ⟨hrole, hsome⟩ => hn.elim (absurd hrole) hsome))
  · intro p flits q m hl hr hn
    exact leads_eq (exec_linkRecovery ..) ((linkRecovery_eq flits hl).trans (if_pos ⟨hr, hn⟩))
  · intro p margin lane fec q m hl hn
    exact leads_eq (exec_adaptationStep ..) ((adaptationStep_eq margin lane fec hl).trans (if_neg fun ⟨hrole, hsome⟩ => hn.elim (absurd hrole) hsome))
  · intro p margin lane fec q m hl hr hn
    exact leads_eq (exec_adaptationStep ..) ((adaptationStep_eq margin lane fec hl).trans (if_pos ⟨hr, hn⟩))
  · intro p q m hl hq he
    exact leads_eq (exec_equalizationMarginLow ..) ((equalizationMarginLow_eq hl hq).trans (if_pos he))
  · intro p q m hl hq he
    exact leads_eq (exec_equalizationMarginLow ..) ((equalizationMarginLow_eq hl hq).trans (if_neg (by simp [he])))
  · intro p q m hr hs hw
    exact leads_eq (exec_lossWaitExpiry ..) (lossWaitExpiry_lost hr hs hw)
  · intro p q m hr hs hw hp
    exact leads_eq (exec_startwaitExpiry ..) (startwaitExpiry_lost hr hs hw hp)
  · intro p q m ha hr
    exact leads_eq (exec_declare ..) ((gatedReg_open ha _ _).trans (declare_lost hr))
  · intro p q m ha hr hs hp hl hi
    exact leads_eq (exec_readmit ..) ((gatedReg_open ha _ _).trans (readmit_up hr hs hp hl hi))
  · intro p q m hr hl hi
    exact leads_eq (exec_memIdeKeyRefresh ..) (memIdeKeyRefresh_counts hr hl hi)
  · intro p q m hr hl hq hi
    exact leads_eq (exec_cxlMemIdeActive ..) (cxlMemIdeActive_ready hr hl hq hi)

end

section
/-! SUPPORT. How a home slice accepts requests, prefetches and fills, and tries held work again (R66, R70 to R88, R145, R161). -/

namespace Sys2Proof.Machine

/-! ## Requests and prefetches (R70, R76, R79, R88) -/

/-- A miss register with one more request at the end (R76). -/
def Mshr.merge (r : Mshr) (x : Req) : Mshr :=
  { r with reqs := r.reqs ++ [x], pf := r.pf && !x.demand, demand := r.demand || x.demand, alloc := r.alloc || x.allocs }

/-- The register that a prefetch opens: its line is to be looked up (R88). -/
def prefetchMshr (h pln : Nat) : Mshr :=
  { freshMshr h { op := .prefetch, src := .none, pln := pln, data := 0, mask := 0, poison := false } with
    phase := .lookup, coh := true, pf := true }

@[simp] theorem mshrOf_count (m : Mach) (b c n h pln : Nat) : mshrOf (count m b c n) h pln = mshrOf m h pln := by
  simp [mshrOf]

section
variable {m : Mach} {x : Req} {r : Mshr}

/-- At Decide a load whose line has a miss register with room merges into it, unless it must wait behind others. -/
theorem decideReq_merges {h : Nat} {retry : Bool} (hq : (!retry && m.home.mwq.any fun y => y.1 == h && y.2.pln == x.pln) = false)
    (hc : (m.home.recalls.any fun y => y.h == h && y.pln == x.pln) = false) (ho : x.op = .load) (hm : mshrOf m h x.pln = some r)
    (hr : r.reqs.length < 8) :
    decideReq m h x retry = some (pumpAll (mshrPut (count m (hsBase h) 0x06) (r.merge x)) h x.pln) := by
  simp [decideReq, hq, hc, ho, hm, hr, Mshr.merge]

variable {h : Fin 64} {rest : List (Nat × Req)}

theorem newRequestAccept_merges {e : Nat} (hp : popReq m h m.home.reqQ = some (x, rest)) (hs : creditsShut m h = false)
    (hc : (m.home.recalls.any fun y => y.h == h.val && y.pln == x.pln) = false) (ho : x.op = .load) (hx : x.src = .load e)
    (hm : mshrOf m h x.pln = some r) (hr : r.reqs.length < 8)
    (hq : (m.home.mwq.any fun y => y.1 == h.val && y.2.pln == x.pln) = false) :
    doNewRequestAccept h m =
      (fun y : Mach => sampleCount { y with home := { y.home with reqQ := rest ++ y.home.reqQ.drop m.home.reqQ.length } } 0 h none)
        (pumpAll (mshrPut (count (count m (hsBase h) 0x01) (hsBase h) 0x06) (r.merge x)) h x.pln) := by
  have hd := decideReq_merges (m := count m (hsBase h) 0x01) (retry := false) (by simpa using hq) (by simpa using hc) ho
    (by simpa using hm) hr
  simp only [doNewRequestAccept, hp, hs, hd, hx, Bool.false_eq_true, ↓reduceIte]

theorem missWaitRetry_merges (hp : popReq m h m.home.mwq = some (x, rest))
    (hc : (m.home.recalls.any fun y => y.h == h.val && y.pln == x.pln) = false) (ho : x.op = .load) (hm : mshrOf m h x.pln = some r)
    (hr : r.reqs.length < 8) :
    doMissWaitRetry h m =
      pumpAll (mshrPut (count { m with home := { m.home with mwq := rest } } (hsBase h) 0x06) (r.merge x)) h x.pln := by
  have hd := decideReq_merges (m := { m with home := { m.home with mwq := rest } }) (h := h) (retry := true) rfl hc ho hm hr
  simp only [doMissWaitRetry, hp, hd]

end

/-- A prefetch is counted; then it is dropped, counted again, or opens a register. -/
theorem prefetchRequest_eq {m y : Mach} {h : Fin 64} {l : Nat} {rest : List (Nat × Nat)} (hp : popFor h.val m.home.pfQ = some (l, rest))
    (hy : y = count { m with home := { m.home with pfQ := rest } } (hsBase h) 0x01) :
    doPrefetchRequest h m = if pfDrops y h l || repairHeld y l then count y (hsBase h) 0x0F
      else { y with home := { y.home with mshrs := y.home.mshrs ++ [prefetchMshr h l] } } := by
  simp only [doPrefetchRequest, hp, hy, prefetchMshr]

/-! ## Fills, held installs and waits (R74, R77, R145, R161) -/

section
variable {m : Mach} {h : Fin 64} {r : Mshr}

/-- A sound fill makes its register whole. -/
theorem fillReturn_whole {f : Fill} (hf : (m.home.fillQ.find? fun f => f.h == h.val) = some f) (hm : mshrOf m h f.pln = some r) :
    doFillReturn h false m = pumpAll (mshrPut
      { m with home := { m.home with fillQ := dropFirst (fun f => f.h == h.val) m.home.fillQ } }
      { r with phase := .full, buf := some f.img, dirty := r.dirty || f.dirty, take := f.take, fromSled := f.fromSled }) h f.pln := by
  have hm' : mshrOf { m with home := { m.home with fillQ := dropFirst (fun f => f.h == h.val) m.home.fillQ } } h f.pln = some r := hm
  simp [doFillReturn, hf, hm']

theorem installRetry_one (hr : (m.home.mshrs.filter fun r => r.h == h.val && r.phase == .full) = [r]) :
    doInstallRetry h m = pumpAll m h r.pln := by
  simp [doInstallRetry, hr]

/-- The only waiting request tries again with no other before it, and is done when its register has closed. -/
theorem dirRetry_done {h l : Nat} (hq : m.home.dwq = [(h, l)]) (hm : mshrOf m h l = some r)
    (hd : mshrOf (pumpAll (mshrPut { m with home := { m.home with dwq := [] } } { r with phase := .full }) h l) h l = none) :
    dirRetry m (h, l) = some (pumpAll (mshrPut { m with home := { m.home with dwq := [] } } { r with phase := .full }) h l) := by
  have holder : (m.home.dwq.takeWhile fun x => x != (h, l)) = [] := by simp [hq]
  have hrest : m.home.dwq.drop (([] : List (Nat × Nat)).length + 1) = [] := by simp [hq]
  simp only [dirRetry, hm, holder, hrest, hd, Bool.false_eq_true, ↓reduceIte, List.append_nil]

theorem directoryWaitRetry_goesOn {l : Nat} (hq : m.home.dwq = [(h.val, l)]) (hm : mshrOf m h l = some r)
    (hd : mshrOf (pumpAll (mshrPut { m with home := { m.home with dwq := [] } } { r with phase := .full }) h l) h l = none) :
    doDirectoryWaitRetry h m = pumpAll (mshrPut { m with home := { m.home with dwq := [] } } { r with phase := .full }) h l := by
  simp only [doDirectoryWaitRetry, hq, List.filter_cons, BEq.rfl, ↓reduceIte, List.filter_nil, List.findSome?_cons, dirRetry_done hq hm hd,
    Option.getD_some]

theorem dirArrive_fills {m' : Mach} (hf : dcFill m r.h (halfOf m r.pln) (dirSet (lineL r.pln)) = some m') :
    dirArrive m r =
      some (pumpAll (mshrPut m' { r with phase := .full, seen := if r.seen == .no then .missed else r.seen }) r.h r.pln) := by
  simp [dirArrive, hf]

theorem dirArrive_waits (hf : dcFill m r.h (halfOf m r.pln) (dirSet (lineL r.pln)) = none) (hw : dwqFull m r.h = false) :
    dirArrive m r =
      some (mshrPut { m with home := { m.home with dwq := m.home.dwq ++ [(r.h, r.pln)] } } { r with phase := .dirWait }) := by
  simp [dirArrive, hf, hw]

/-- A set that the directory cache holds needs no fill. -/
theorem dcFill_held {h half set : Nat} (hc : dcHas m h half set = true) : dcFill m h half set = some m := by
  simp [dcFill, hc]

/-- With one register that waits for its set, the command is that set's arrival. -/
theorem directoryCacheFill_one {m' : Mach} (hr : (m.home.mshrs.filter fun r => r.h == h.val && r.phase == .dirFill) = [r])
    (ha : dirArrive m r = some m') : doDirectoryCacheFill h m = m' := by
  simp [doDirectoryCacheFill, hr, ha]

/-! ## The write buffer and the tag entry (R66, R83) -/

theorem writeBufferArrayWrite_held {e : WbEnt} {w : Nat} {x : HgLine} (he : (m.home.wb.find? fun e => e.h == h.val) = some e)
    (hf : hgFind m h e.pln = some (w, x)) :
    doWriteBufferArrayWrite h m =
      { m with home := { m.home with wb := dropFirst (fun e => e.h == h.val) m.home.wb
                                     hg := mput m.home.hg (hgKey h (hgSet (lineL e.pln)) w) { x with img := e.img } } } := by
  simp only [doWriteBufferArrayWrite, he, hf]

end

/-- The number of ones is that of the low bits and the bit above them. -/
theorem popc_succ_top (w n : Nat) (b : Bool) (h : n < 2 ^ w) : popc (w + 1) (n + b2n b * 2 ^ w) = popc w n + b2n b := by
  induction w generalizing n with
  | zero => cases b <;> simp_all [popc, b2n]
  | succ w ih =>
    have htop : b2n b * 2 ^ (w + 1) = 2 * (b2n b * 2 ^ w) := by rw [Nat.pow_succ, ← Nat.mul_assoc, Nat.mul_comm]
    have hmod : (n + b2n b * 2 ^ (w + 1)) % 2 = n % 2 := by omega
    have hdiv : (n + b2n b * 2 ^ (w + 1)) / 2 = n / 2 + b2n b * 2 ^ w := by omega
    rw [popc, hmod, hdiv, ih _ (by omega), popc]
    omega

/-- A parity bit above a word makes the number of ones even. -/
theorem parity_closed (w n : Nat) (h : n < 2 ^ w) : parity (w + 1) (n + b2n (parity w n) * 2 ^ w) = false := by
  have hsum := popc_succ_top w n (parity w n) h
  unfold parity at *
  rw [hsum]
  by_cases ho : popc w n % 2 = 1
  · simp only [ho, b2n, decide_true, ↓reduceIte, decide_eq_false_iff_not]
    omega
  · simp [ho, b2n]

theorem b2n_le_one (b : Bool) : b2n b ≤ 1 := by cases b <;> simp [b2n]

theorem HgLine.low_lt (x : HgLine) : x.low < 2 ^ 35 := by
  have hd := b2n_le_one x.d
  have hp := b2n_le_one x.img.poison
  have hf := b2n_le_one x.pf
  unfold HgLine.low
  omega

/-- The fields of a valid way's tag entry, and its even parity (R66). -/
theorem tagEntry_fields (x : HgLine) :
    tagEntry (some x) % 2 ^ 31 = x.tag % 2 ^ 31 ∧
      tagEntry (some x) / 2 ^ 31 % 16 = 1 + 2 * b2n x.d + 4 * b2n x.img.poison + 8 * b2n x.pf ∧ parity 36 (tagEntry (some x)) = false := by
  have hd := b2n_le_one x.d
  have hp := b2n_le_one x.img.poison
  have hf := b2n_le_one x.pf
  refine ⟨?_, ?_, parity_closed 35 x.low x.low_lt⟩
  · simp only [tagEntry, HgLine.low]
    omega
  · simp only [tagEntry, HgLine.low]
    omega

/-! ## The commands' effects -/

theorem exec_newRequestAccept (h : Fin 64) (s : State) : exec (.newRequestAccept h) s = act s (doNewRequestAccept h) := by rfl
theorem exec_prefetchRequest (h : Fin 64) (s : State) : exec (.prefetchRequest h) s = act s (doPrefetchRequest h) := by rfl
theorem exec_fillReturn (h : Fin 64) (ue : Bool) (s : State) : exec (.fillReturn h ue) s = act s (doFillReturn h ue) := by rfl
theorem exec_installRetry (h : Fin 64) (s : State) : exec (.installRetry h) s = act s (doInstallRetry h) := by rfl
theorem exec_missWaitRetry (h : Fin 64) (s : State) : exec (.missWaitRetry h) s = act s (doMissWaitRetry h) := by rfl
theorem exec_directoryWaitRetry (h : Fin 64) (s : State) : exec (.directoryWaitRetry h) s = act s (doDirectoryWaitRetry h) := by rfl
theorem exec_writeBufferArrayWrite (h : Fin 64) (s : State) :
    exec (.writeBufferArrayWrite h) s = act s (doWriteBufferArrayWrite h) := by rfl
theorem exec_directoryCacheFill (h : Fin 64) (s : State) : exec (.directoryCacheFill h) s = act s (doDirectoryCacheFill h) := by rfl

end Sys2Proof.Machine
end

section
/-! The settling of O37. -/

open Sys2Proof Sys2Proof.Machine

/-- Settles O37: a load merges at Decide (`decideReq_merges`), a prefetch drops or opens a register, and each held piece of work is the one that its
queue names. -/
theorem homeRequestsAndFills : Obligations.HomeRequestsAndFills := by
  unfold Obligations.HomeRequestsAndFills
  refine ⟨?_, ?_, ?_, ?_, ?_, ?_, ?_, ?_, ?_, ?_, ?_, tagEntry_fields⟩
  · intro h x rest r e q m hp hs hc ho hx hm hr hq
    exact leads_eq (exec_newRequestAccept ..) (newRequestAccept_merges hp hs hc ho hx hm hr hq)
  · intro h q m hp
    exact leads_eq (exec_newRequestAccept ..) (by simp only [doNewRequestAccept, hp])
  · intro h x rest r q m hp hc ho hm hr
    exact leads_eq (exec_missWaitRetry ..) (missWaitRetry_merges hp hc ho hm hr)
  · intro h l rest q m hp hd
    exact leads_eq (exec_prefetchRequest ..) ((prefetchRequest_eq hp rfl).trans (if_pos (by rw [hd]; rfl)))
  · intro h l rest y q m hp hy hd hr
    exact leads_eq (exec_prefetchRequest ..) ((prefetchRequest_eq hp hy).trans (if_neg (by simp [hd, hr])))
  · intro h f r q m hf hm
    exact leads_eq (exec_fillReturn ..) (fillReturn_whole hf hm)
  · intro h r q m hr
    exact leads_eq (exec_installRetry ..) (installRetry_one hr)
  · intro h l r q m hq hm hd
    exact leads_eq (exec_directoryWaitRetry ..) (directoryWaitRetry_goesOn hq hm hd)
  · intro h r q m hr hf hw
    exact leads_eq (exec_directoryCacheFill ..) (directoryCacheFill_one hr (dirArrive_waits hf hw))
  · intro h r q m hr hc
    exact leads_eq (exec_directoryCacheFill ..) (directoryCacheFill_one hr (dirArrive_fills (dcFill_held hc)))
  · intro h e w x q m he hf
    exact leads_eq (exec_writeBufferArrayWrite ..) (writeBufferArrayWrite_held he hf)

end

section
/-! SUPPORT. Snoop answers and data, lost ports, directory queries and the ways of a Headgate (R95, R142, R143, R155 to R167, R339). -/

namespace Sys2Proof.Machine

@[simp] theorem count_zero (m : Mach) (b c : Nat) : count m b c 0 = m := by simp [count]

/-- A counted loop whose rounds below `n` each leave the start as it is leaves it as it is. -/
theorem forN_fixed {α : Type} {f : Nat → α → α} {a : α} (n : Nat) (h : ∀ i < n, f i a = a) : forN n f a = a := by
  induction n with
  | zero => rfl
  | succ n ih => rw [forN, ih fun i hi => h i (by omega), h n (by omega)]

/-- A counted loop of which only the last round does anything. -/
theorem forN_last {α : Type} {f : Nat → α → α} {a : α} (n : Nat) (h : ∀ i < n, f i a = a) : forN (n + 1) f a = f n a :=
  congrArg (f n) (forN_fixed n h)

/-! ## Snoop answers (Table 6-9, R155, R339) -/

section
variable {m : Mach} {a : SnpRsp} {rc : Recall}

theorem snoopWaits_recall (hr : (m.home.recalls.find? fun x => x.h == a.h && x.pln == a.pln) = some rc)
    (hl : rc.left.contains a.port = true) : snoopWaits m a = true := by
  simp only [snoopWaits, hr, hl]

/-- The three queues that hold writes, written back as they are. -/
theorem home_writeQueues_self {l l' k : List (Nat × Req)} (hq : m.home.mwq = l) (hr : m.home.reqQ = l') (hs : m.home.snpData = k) :
    { m with home := { m.home with mwq := l, reqQ := l', snpData := k } } = m := by
  subst hq hr hs
  rfl

/-- With no register, no queued request and no write on its way, an answer takes nothing before it. -/
theorem takeParked_none (hm : m.home.mshrs = []) (hq : m.home.mwq = []) (hr : m.home.reqQ = []) (hs : m.home.snpData = []) :
    takeParked m a = m := by
  have hnone : mshrOf m a.h a.pln = none := by simp [mshrOf, hm]
  unfold takeParked
  split
  · rfl
  · simp only [hnone, hq, hr, hs, List.filter_nil, List.append_nil, List.map_nil, List.length_nil, List.foldl_nil, count_zero]
    exact home_writeQueues_self hq hr hs

/-- A write of the answering port that is on its way, with no other held, is what an answer takes before it. -/
theorem takeParked_onWay {x : Req} (hw : snoopWaits m a = true) (hm : m.home.mshrs = []) (hq : m.home.mwq = []) (hr : m.home.reqQ = [])
    (hs : m.home.snpData = [(a.h, x)]) (hx : ownWrite a x = true) :
    takeParked m a = takeSnpData a.h { m with home := { m.home with snpData := [] } } x := by
  have hnone : mshrOf m a.h a.pln = none := by simp [mshrOf, hm]
  have hall : [(a.h, x)].filter (fun y => y.1 == a.h && ownWrite a y.2) = [(a.h, x)] := by simp [hx]
  have hleft : [(a.h, x)].filter (fun y => !(y.1 == a.h && ownWrite a y.2)) = [] := by simp [hx]
  unfold takeParked
  simp only [hw, hnone, hq, hr, hs, hall, hleft, Bool.not_true, Bool.false_eq_true, ↓reduceIte, List.filter_nil, List.nil_append,
    List.map_cons, List.map_nil, List.length_nil, List.foldl_cons, List.foldl_nil, count_zero]

/-- The count of an answer that came neither with a state nor after data (BIRspI). -/
def rspICounted (m : Mach) (a : SnpRsp) (rc : Recall) : Mach :=
  if a.st.isNone && !rc.gave.contains a.port then count m (hsBase a.h) 0x3A else m

/-- An answer to a recall is counted if it is a BIRspI; the last one frees the entry and ends the recall, an earlier one leaves its port. -/
theorem answerSnoop_recall (hr : (m.home.recalls.find? fun x => x.h == a.h && x.pln == a.pln) = some rc)
    (hl : rc.left.contains a.port = true) (hn : bitOf (lostMask m a.h) a.port = false) :
    answerSnoop m a =
      if (rc.left.filter fun p => p != a.port).isEmpty then
        (fun m : Mach => recallDone (freeEnt
          { m with home := { m.home with recalls := dropFirst (fun x => x.h == a.h && x.pln == a.pln) m.home.recalls } } a.h a.pln)
          a.h rc.cause) (rspICounted m a rc)
      else (fun m : Mach =>
        { m with home := { m.home with
          recalls := mapFirst (fun x => x.h == a.h && x.pln == a.pln) (fun x => { x with left := rc.left.filter fun p => p != a.port })
            m.home.recalls } }) (rspICounted m a rc) := by
  simp only [answerSnoop, hn, hr, hl, Bool.false_and, Bool.and_true, Bool.false_eq_true, ↓reduceIte]
  rfl

/-- The machine once the oldest answer on its way to slice `h` is taken from its queue. -/
def rspTaken (m : Mach) (h : Nat) : Mach := { m with home := { m.home with rspQ := dropFirst (fun a => a.h == h) m.home.rspQ } }

theorem snoopResponse_eq {h : Fin 64} (ha : (m.home.rspQ.find? fun a => a.h == h.val) = some a) :
    doSnoopResponse h m = answerSnoop (takeParked (rspTaken m h) a) a := by
  simp only [doSnoopResponse, ha, rspTaken]

/-- An answer to a recall of a slice that holds no write is applied at once. -/
theorem snoopResponse_recall {h : Fin 64} (ha : (m.home.rspQ.find? fun a => a.h == h.val) = some a)
    (hr : (m.home.recalls.find? fun x => x.h == a.h && x.pln == a.pln) = some rc) (hl : rc.left.contains a.port = true)
    (hn : bitOf (lostMask m a.h) a.port = false) (hm : m.home.mshrs = []) (hq : m.home.mwq = []) (hreq : m.home.reqQ = [])
    (hs : m.home.snpData = []) :
    doSnoopResponse h m =
      if (rc.left.filter fun p => p != a.port).isEmpty then
        (fun m : Mach => recallDone (freeEnt
          { m with home := { m.home with recalls := dropFirst (fun x => x.h == a.h && x.pln == a.pln) m.home.recalls } } a.h a.pln)
          a.h rc.cause) (rspICounted (rspTaken m h) a rc)
      else (fun m : Mach =>
        { m with home := { m.home with
          recalls := mapFirst (fun x => x.h == a.h && x.pln == a.pln) (fun x => { x with left := rc.left.filter fun p => p != a.port })
            m.home.recalls } }) (rspICounted (rspTaken m h) a rc) := by
  rw [snoopResponse_eq ha, takeParked_none (m := rspTaken m h) hm hq hreq hs]
  exact answerSnoop_recall (m := rspTaken m h) hr hl hn

/-- A write of the answering port that is on its way alone is taken before its answer. -/
theorem snoopResponse_onWay {h : Fin 64} {x : Req} (ha : (m.home.rspQ.find? fun a => a.h == h.val) = some a)
    (hr : (m.home.recalls.find? fun x => x.h == a.h && x.pln == a.pln) = some rc) (hl : rc.left.contains a.port = true)
    (hs : m.home.snpData = [(a.h, x)]) (hx : ownWrite a x = true) (hm : m.home.mshrs = []) (hq : m.home.mwq = [])
    (hreq : m.home.reqQ = []) :
    doSnoopResponse h m = answerSnoop (takeSnpData a.h
      { m with home := { m.home with rspQ := dropFirst (fun a => a.h == h.val) m.home.rspQ, snpData := [] } } x) a := by
  rw [snoopResponse_eq ha, takeParked_onWay (m := rspTaken m h) (snoopWaits_recall hr hl) hm hq hreq hs hx]
  rfl

end

/-! ## Snoop data and lost ports (R156, R158, R163 to R165) -/

section
variable {m : Mach}

/-- With no recall open, snoop data merges into the register that is snooping its line. -/
theorem takeSnpData_snooping {h k i : Nat} {x : Req} {r : Mshr} (hc : m.home.recalls = []) (hm : mshrOf m h x.pln = some r)
    (hp : r.phase.snooping = true) (hx : x.src = .host k i) :
    takeSnpData h m x =
      pumpAll (mshrPut (count m (hsBase h) 0x3B) { r with late := r.late ++ [x], gave := r.gave ++ [k] }) h x.pln := by
  have hhome (y : Mach) (hy : y.home.recalls = []) : { y with home := { y.home with recalls := [] } } = y := by rw [← hy]
  have hcount : (count m (hsBase h) 0x3B).home.recalls = [] := by simpa using hc
  have hm' : mshrOf (count m (hsBase h) 0x3B) h x.pln = some r := by simpa using hm
  simp only [takeSnpData, hcount, mapFirst, hhome _ hcount, hm', hp, Req.hostPort, hx, ↓reduceIte]

theorem snoopDataWrite_snooping {h : Fin 64} {k i : Nat} {x : Req} {rest : List (Nat × Req)} {r : Mshr}
    (hd : popFor h.val m.home.snpData = some (x, rest)) (hc : m.home.recalls = []) (hm : mshrOf m h x.pln = some r)
    (hp : r.phase.snooping = true) (hx : x.src = .host k i) :
    doSnoopDataWrite h m = pumpAll (mshrPut (count { m with home := { m.home with snpData := rest } } (hsBase h) 0x3B)
      { r with late := r.late ++ [x], gave := r.gave ++ [k] }) h x.pln := by
  have htake := takeSnpData_snooping (m := { m with home := { m.home with snpData := rest } }) (h := h) hc hm hp hx
  simp only [doSnoopDataWrite, hd, htake]

/-- The sweep of a lost port over an empty directory changes no entry. -/
theorem lostPortSweepEnd_empty {p : Fin 32} (hp : m.home.lostSweeps.contains p.val = true) (hd : m.home.dir = []) :
    doLostPortSweepEnd p m =
      (fun y : Mach => notice { y with home := { y.home with lostSweeps := y.home.lostSweeps.filter fun x => x != p.val } } 0x04 p 0)
        (forN 64 (fun k m => fset m (hsBase k) R.DIR_LOST_MASK (setBit (lostMask m k) p false)) m) := by
  simp only [doLostPortSweepEnd, hp, hd, List.foldl_nil, ↓reduceIte]

/-! ## Directory queries (R167) -/

variable {h : Fin 64}

theorem dirQuery_homed {line : BitVec 41} (hb : fon m (hsBase h) R.DIR_QUERY_BUSY = false) (hu : bothUp m = true)
    (hl : sliceIn m line.toNat = h.val % 32) :
    doDirQuery h line m = fset (fset m (hsBase h) R.DIR_QUERY_LINE line.toNat) (hsBase h) R.DIR_QRES_PAYLOAD
      (dirPayload m h (plnOf m (h.val / 32) line.toNat)) := by
  simp only [doDirQuery, hb, hu, hl, Bool.true_or, bne_self_eq_false, Bool.false_eq_true, ↓reduceIte]

theorem dirQuery_rejected {line : BitVec 41} (hb : fon m (hsBase h) R.DIR_QUERY_BUSY = false) (hl : sliceIn m line.toNat ≠ h.val % 32) :
    doDirQuery h line m = reject m (hsBase h) 2 0x320 := by
  simp only [doDirQuery, hb, bne_iff_ne.mpr hl, Bool.false_eq_true, ↓reduceIte]

/-! ## Ways (R95) -/

/-- The way fields of a slice stand under different keys. -/
theorem fget_fset_way (m : Mach) (h : Nat) {f g : Fld} (v : Nat) (hk : f.off * 8 + f.lo ≠ g.off * 8 + g.lo) :
    fget (fset m (hsBase h) f v) (hsBase h) g = fget m (hsBase h) g := fget_fset_other _ _ _ _ _ _ (by omega)

theorem headgateWayenWrite_rejected {en : BitVec 16} (he : en.toNat % 256 = 0) :
    doHeadgateWayenWrite h en m = reject m (hsBase h) 2 0x50 := by
  simp only [doHeadgateWayenWrite, he, BEq.rfl, ↓reduceIte]

/-- What a change of EN from `old` to `new` does to way `w`. -/
def wayenRound (h old new w : Nat) (m : Mach) : Mach :=
  let b := hsBase h
  if bitOf old w == bitOf new w then m
  else if bitOf new w then
    if m.home.ways.any fun x => x.h == h && x.way == w then
      { m with home := { m.home with ways := mapFirst (fun x => x.h == h && x.way == w) (fun x => { x with again := true }) m.home.ways } }
    else
      let m := fset m b R.HS_WAYEN_BUSY (setBit (fget m b R.HS_WAYEN_BUSY) w true)
      { m with home := { m.home with ways := m.home.ways ++ [⟨h, w, true, false⟩] } }
  else if m.home.ways.any fun x => x.h == h && x.way == w then
    { m with home := { m.home with
      ways := mapFirst (fun x => x.h == h && x.way == w) (fun x => { x with clear := false, again := false }) m.home.ways } }
  else
    let m := fset m b R.HS_WAYEN_BUSY (setBit (fget m b R.HS_WAYEN_BUSY) w true)
    { m with home := { m.home with ways := m.home.ways ++ [⟨h, w, false, false⟩] } }

/-- A write that leaves a west way is written to EN, and then each way follows its bit. -/
theorem headgateWayenWrite_eq {en : BitVec 16} (he : en.toNat % 256 ≠ 0) :
    doHeadgateWayenWrite h en m =
      forN 16 (wayenRound h (fget m (hsBase h) R.HS_WAYEN_EN) en.toNat) (fset m (hsBase h) R.HS_WAYEN_EN en.toNat) := by
  unfold doHeadgateWayenWrite
  simp only [beq_eq_false_iff_ne.mpr he, Bool.false_eq_true, ↓reduceIte]
  rfl

theorem wayenRound_same {h old new w : Nat} (hb : bitOf old w = bitOf new w) : wayenRound h old new w m = m := by
  simp only [wayenRound, hb, BEq.rfl, ↓reduceIte]

/-- A way that is cleared and has no pass gets one. -/
theorem wayenRound_clears {h old new w : Nat} (ho : bitOf old w = true) (hn : bitOf new w = false)
    (hw : (m.home.ways.any fun x => x.h == h && x.way == w) = false) :
    wayenRound h old new w m =
      (fun y : Mach => { y with home := { y.home with ways := y.home.ways ++ [⟨h, w, false, false⟩] } })
        (fset m (hsBase h) R.HS_WAYEN_BUSY (setBit (fget m (hsBase h) R.HS_WAYEN_BUSY) w true)) := by
  simp only [wayenRound, ho, hn, hw, beq_false, Bool.not_true, Bool.false_eq_true, ↓reduceIte]

theorem headgateWayenWrite_same {en : BitVec 16} (he : en.toNat % 256 ≠ 0) (hs : fget m (hsBase h) R.HS_WAYEN_EN = en.toNat) :
    doHeadgateWayenWrite h en m = fset m (hsBase h) R.HS_WAYEN_EN en.toNat := by
  rw [headgateWayenWrite_eq he, hs]
  exact forN_fixed 16 fun i _ => wayenRound_same rfl

/-- Of 0xFFFF and 0x7FFF only bit 15 differs. -/
theorem bitOf_lowWays : ∀ i < 15, bitOf 0xFFFF i = bitOf 0x7FFF i := by decide

/-- Clearing way 15 alone starts its pass. -/
theorem headgateWayenWrite_way15 (hs : fget m (hsBase h) R.HS_WAYEN_EN = 0xFFFF)
    (hw : (m.home.ways.any fun x => x.h == h.val && x.way == 15) = false) :
    doHeadgateWayenWrite h 0x7FFF m =
      (fun y : Mach => { y with home := { y.home with ways := y.home.ways ++ [⟨h.val, 15, false, false⟩] } })
        (fset (fset m (hsBase h) R.HS_WAYEN_EN 0x7FFF) (hsBase h) R.HS_WAYEN_BUSY
          (setBit (fget m (hsBase h) R.HS_WAYEN_BUSY) 15 true)) := by
  have hbusy : fget (fset m (hsBase h) R.HS_WAYEN_EN 0x7FFF) (hsBase h) R.HS_WAYEN_BUSY = fget m (hsBase h) R.HS_WAYEN_BUSY :=
    fget_fset_way m h _ (by decide)
  have hlow (i : Nat) (hi : i < 15) (a : Mach) : wayenRound h 0xFFFF 0x7FFF i a = a := wayenRound_same (bitOf_lowWays i hi)
  rw [headgateWayenWrite_eq (by decide), hs, ← hbusy]
  exact (forN_last 15 fun i hi => hlow i hi _).trans (wayenRound_clears (by decide) (by decide) hw)

/-- A pass over a way with one line that nothing holds makes it a victim. -/
theorem wayCleanLine_evicts {x : WayPass} {k : Nat} {l : HgLine} (hx : (m.home.ways.find? fun x => x.h == h.val && !x.clear) = some x)
    (hk : wayLines m h x.way = [k]) (hl : mget m.home.hg k = some l)
    (ho : lineOpen m h (plnOf m (h.val / 32) (hgLineOf (k / 16 % 3072) l.tag)) = false)
    (hw : wbOf m h (plnOf m (h.val / 32) (hgLineOf (k / 16 % 3072) l.tag)) = none) (hv : vbUsed m h < 16) :
    doWayCleanLine h m =
      evict (if hgDrains m h || (8 ≤ x.way && fget m (rgeBase (4 * (h.val / 32))) R.RGE_CSTAT_EAST == 1) then
        count m (rgeBase (4 * (h.val / 32))) 6 else m) h (k / 16 % 3072) (k % 16) := by
  simp only [doWayCleanLine, hx, hk, List.find?_cons, hl, ho, hw, Option.isNone_none, Bool.not_false, Bool.and_true,
    Nat.not_le.mpr hv, ↓reduceIte]

@[simp] theorem untrackWay_regs (m : Mach) (h w : Nat) : (untrackWay m h w).regs = m.regs := rfl

/-- The pass of a way that is empty and stays disabled ends with BUSY 0 and OFF 1. -/
theorem wayCleanComplete_off {x : WayPass}
    (hx : (m.home.ways.find? fun x => x.h == h.val && (x.clear || (wayLines m h x.way).isEmpty)) = some x) (hc : x.clear = false)
    (hn : x.again = false) :
    doWayCleanComplete h m =
      (fun y : Mach => fset (fset y (hsBase h) R.HS_WAYEN_BUSY (setBit (fget m (hsBase h) R.HS_WAYEN_BUSY) x.way false)) (hsBase h)
        R.HS_WAYEN_OFF (setBit (fget m (hsBase h) R.HS_WAYEN_OFF) x.way true))
        (untrackWay { m with home := { m.home with ways := dropFirst (fun y => y == x) m.home.ways } } h x.way) := by
  have hkeys : R.HS_WAYEN_BUSY.off * 8 + R.HS_WAYEN_BUSY.lo ≠ R.HS_WAYEN_OFF.off * 8 + R.HS_WAYEN_OFF.lo := by decide
  have hsame (f : Fld) : fget (untrackWay { m with home := { m.home with ways := dropFirst (fun y => y == x) m.home.ways } } h x.way)
      (hsBase h) f = fget m (hsBase h) f := fget_of_regs (untrackWay_regs ..) _ f
  simp only [doWayCleanComplete, hx, hc, hn, fget_fset_way _ _ _ hkeys, hsame, Bool.false_eq_true, ↓reduceIte]

end

/-! ## The directory's layout (R142, R143) -/

/-- The fields of a held entry's payload. -/
theorem dirWord_fields (e : DirEnt) :
    dirWord (some e) % 2 ^ 15 = e.tag % 2 ^ 15 ∧ 1 ≤ dirWord (some e) / 2 ^ 15 % 8 ∧ dirWord (some e) / 2 ^ 15 % 8 ≤ 4 ∧
      dirWord (some e) / 2 ^ 18 = e.pres % 2 ^ 32 := by
  cases hst : e.st <;> simp only [dirWord, hst] <;> omega

/-- A set's pseudo-channel, stack and place give back the set, and the place fits its area. -/
theorem dirPlace_inj {set : Nat} (h : set < 2 ^ 26) :
    (dirPlace set).1 + 32 * (dirPlace set).2.1 + 128 * (dirPlace set).2.2 = set ∧ (dirPlace set).2.2 < 524288 := by
  dsimp only [dirPlace]
  omega

/-! ## The commands' effects -/

theorem exec_snoopResponse (h : Fin 64) (s : State) : exec (.snoopResponse h) s = act s (doSnoopResponse h) := by rfl
theorem exec_snoopDataWrite (h : Fin 64) (s : State) : exec (.snoopDataWrite h) s = act s (doSnoopDataWrite h) := by rfl
theorem exec_bisnpTimeout (p : Fin 32) (s : State) : exec (.bisnpTimeout p) s = act s (doBisnpTimeout p) := by rfl
theorem exec_lostPortSweepEnd (p : Fin 32) (s : State) : exec (.lostPortSweepEnd p) s = act s (doLostPortSweepEnd p) := by rfl
theorem exec_dirQuery (h : Fin 64) (line : BitVec 41) (s : State) :
    exec (.dirQuery h line) s =
      act s (gatedReg (hsBase h + 0x320) (fun _ => [(R.DIR_QUERY_LINE, line.toNat), (R.DIR_QUERY_GO, 1)]) (doDirQuery h line)) := by rfl
theorem exec_headgateWayenWrite (h : Fin 64) (en : BitVec 16) (s : State) :
    exec (.headgateWayenWrite h en) s =
      act s (gatedReg (hsBase h + 0x50) (fun _ => [(R.HS_WAYEN_EN, en.toNat)]) (doHeadgateWayenWrite h en)) := by rfl
theorem exec_wayCleanLine (h : Fin 64) (s : State) : exec (.wayCleanLine h) s = act s (doWayCleanLine h) := by rfl
theorem exec_wayCleanComplete (h : Fin 64) (s : State) : exec (.wayCleanComplete h) s = act s (doWayCleanComplete h) := by rfl

end Sys2Proof.Machine
end

section
/-! The settling of O38. -/

open Sys2Proof Sys2Proof.Machine

/-- Settles O38: an answer to a recall by the ports that are left (`answerSnoop_recall`), after what it takes first (`takeParked`); queries and way
writes are writes of a register whose domain answers; the layouts are arithmetic. -/
theorem homeSnoopsQueriesAndWays : Obligations.HomeSnoopsQueriesAndWays := by
  unfold Obligations.HomeSnoopsQueriesAndWays
  refine ⟨?_, ?_, ?_, ?_, ?_, ?_, ?_, ?_, ?_, ?_, ?_, ?_, ?_, ?_, ?_, dirWord_fields, fun _ h => dirPlace_inj h⟩
  · intro h a rc q m ha hr hl hlast hn hm hq hreq hs
    exact leads_eq (exec_snoopResponse ..)
      ((snoopResponse_recall ha hr hl hn hm hq hreq hs).trans (if_pos (by rw [hlast]; rfl)))
  · rintro h a rc _ q m ha hr hl rfl hne hn hm hq hreq hs
    exact leads_eq (exec_snoopResponse ..)
      ((snoopResponse_recall ha hr hl hn hm hq hreq hs).trans (if_neg (by simpa only [List.isEmpty_iff] using hne)))
  · intro h a rc x q m ha hr hl hs hx _ hm hq hreq
    exact leads_eq (exec_snoopResponse ..) (snoopResponse_onWay ha hr hl hs hx hm hq hreq)
  · intro h x rest r k i q m hd hc hm hp hx
    exact leads_eq (exec_snoopDataWrite ..) (snoopDataWrite_snooping hd hc hm hp hx)
  · intro p s q m hs
    exact leads_eq (exec_bisnpTimeout ..) (by simp only [doBisnpTimeout, hs])
  · intro p q m hs
    exact leads_eq (exec_bisnpTimeout ..) (by simp only [doBisnpTimeout, hs])
  · intro p q m hp hd
    exact leads_eq (exec_lostPortSweepEnd ..) (lostPortSweepEnd_empty hp hd)
  · intro h line q m ha hb hu hl
    exact leads_eq (exec_dirQuery ..) ((gatedReg_open ha _ _).trans (dirQuery_homed hb hu hl))
  · intro h line q m ha hb hl
    exact leads_eq (exec_dirQuery ..) ((gatedReg_open ha _ _).trans (dirQuery_rejected hb hl))
  · intro h en q m ha he
    exact leads_eq (exec_headgateWayenWrite ..) ((gatedReg_open ha _ _).trans (headgateWayenWrite_rejected he))
  · intro h en q m ha he hs
    exact leads_eq (exec_headgateWayenWrite ..) ((gatedReg_open ha _ _).trans (headgateWayenWrite_same he hs))
  · intro h q m ha hs hw
    exact leads_eq (exec_headgateWayenWrite ..) ((gatedReg_open ha _ _).trans (headgateWayenWrite_way15 hs hw))
  · intro h q m hx
    exact leads_eq (exec_wayCleanLine ..) (by simp only [doWayCleanLine, hx])
  · intro h x k l q m hx hk hl ho hw hv
    exact leads_eq (exec_wayCleanLine ..) (wayCleanLine_evicts hx hk hl ho hw hv)
  · intro h x q m hx hc hn
    exact leads_eq (exec_wayCleanComplete ..) (wayCleanComplete_off hx hc hn)

end

section
/-! SUPPORT. How a lookup meets a Reservoir slot, and what takes, offers, predictor windows and clean writes do (R106 to R117, R120, Table 5-8). -/

namespace Sys2Proof.Machine

@[simp] theorem count_rsv (m : Mach) (b c n : Nat) : (count m b c n).rsv = m.rsv := count_same Mach.rsv cntPut_rsv m b c n
@[simp] theorem count_ras (m : Mach) (b c n : Nat) : (count m b c n).ras = m.ras := count_same Mach.ras cntPut_ras m b c n

/-! ## What a lookup counts -/

/-- What a controller keeps reads as written. -/
theorem ctlGet_ctlSet (m : Mach) (k j : Nat) (c : Ctl) : ctlGet (ctlSet m k c) j = if k = j then c else ctlGet m j := sget_sset ..

/-- Module `m'` differs from `m` in no part that finds a slot or a line: what a lookup counts, in its counters, predictors and windows, changes none
of them. -/
structure Tallied (m m' : Mach) : Prop where
  regs : m'.regs = m.regs
  home : m'.home = m.home
  ras : m'.ras = m.ras
  slots : m'.rsv.slots = m.rsv.slots
  keys : m'.rsv.keys = m.rsv.keys
  remap : m'.rsv.remap = m.rsv.remap
  move (k : Nat) : (ctlGet m' k).move = (ctlGet m k).move

namespace Tallied

variable {m m' m'' : Mach}

theorem trans (h : Tallied m m') (h' : Tallied m' m'') : Tallied m m'' :=
  ⟨h'.regs.trans h.regs, h'.home.trans h.home, h'.ras.trans h.ras, h'.slots.trans h.slots, h'.keys.trans h.keys, h'.remap.trans h.remap,
    fun k => (h'.move k).trans (h.move k)⟩

theorem count (m : Mach) (b c n : Nat) : Tallied m (count m b c n) :=
  ⟨count_regs .., count_home .., count_ras .., by rw [count_rsv], by rw [count_rsv], by rw [count_rsv],
    fun _ => by rw [ctlGet, count_rsv, ctlGet]⟩

theorem slotCmds (m : Mach) (sd i n : Nat) : Tallied m (slotCmds m sd i n) := ⟨rfl, rfl, rfl, rfl, rfl, rfl, fun _ => rfl⟩

theorem predHit (m : Mach) (sd k l : Nat) : Tallied m (predHit m sd k l) := ⟨rfl, rfl, rfl, rfl, rfl, rfl, fun _ => rfl⟩

theorem ctlSet {k : Nat} {c : Ctl} (h : c.move = (ctlGet m k).move) : Tallied m (ctlSet m k c) := by
  refine ⟨rfl, rfl, rfl, rfl, rfl, rfl, fun j => ?_⟩
  rw [ctlGet_ctlSet]
  split
  next hj => rw [h, hj]
  next => rfl

theorem ite {c : Prop} [Decidable c] (h : Tallied m m') (h' : Tallied m m'') : Tallied m (if c then m' else m'') := by
  split
  · exact h
  · exact h'

theorem foldl {α : Type} {f : Mach → α → Mach} (hf : ∀ m x, Tallied m (f m x)) (l : List α) (h : Tallied m m') :
    Tallied m (l.foldl f m') := by
  induction l generalizing m' with
  | nil => exact h
  | cons x l ih => exact ih (h.trans (hf m' x))

theorem usable (h : Tallied m m') : usable m' = usable m := by
  funext sd i
  simp only [Machine.usable, rsvState, bankBarred, moving, fget_of_regs h.regs, h.remap, h.move]

theorem slotIdx (h : Tallied m m') : slotIdx m' = slotIdx m := by
  funext sd ep l
  simp only [Machine.slotIdx, slotKeys, h.keys]

theorem slotHits (h : Tallied m m') : slotHits m' = slotHits m := by
  funext sd ep l
  unfold Machine.slotHits slotHolds slotAt
  rw [h.usable, h.slotIdx, h.slots]

theorem swept (h : Tallied m m') : swept m' = swept m := by
  funext sd l
  unfold Machine.swept epochOf
  rw [h.slotIdx, fget_of_regs h.regs, fget_of_regs h.regs]

theorem findSlot (h : Tallied m m') (sd l : Nat) : findSlot m' sd l = findSlot m sd l := by
  unfold Machine.findSlot rekeying epochOf
  rw [h.swept, h.slotHits, fget_of_regs h.regs, fget_of_regs h.regs]

end Tallied

/-- What a lookup counts moves nothing that finds a slot. -/
theorem tallied_lookupCounted (m : Mach) (sd l : Nat) : Tallied m (lookupCounted m sd l) := by
  unfold lookupCounted
  extract_lets i k c m0 m1 m2 m3
  have h1 : Tallied m m1 := (Tallied.count m _ 0x01 1).trans (.ctlSet (by rw [ctlGet, count_rsv]; rfl))
  have h2 : Tallied m m2 := .ite (h1.trans (.count ..)) h1
  have h3 : Tallied m m3 := .ite (h2.trans (.count ..)) h2
  exact .foldl (fun _ _ => .slotCmds ..) _ h3

/-- The machine after a lookup of L that hit slot `s` at index `j`: the hit is counted at the controller of L's place, and in its predictor. -/
def hitCounted (m : Mach) (sd l j : Nat) (s : Slot) : Mach :=
  let k := ctlOf sd (installAt m sd l).1
  let m := count (lookupCounted m sd l) (rsvBase k) (if s.st == .clean then 0x02 else 0x03)
  let c := ctlGet m k
  predHit (ctlSet m k { c with hits := c.hits + 1 }) sd (ctlOf sd j) l

theorem tallied_hitCounted (m : Mach) (sd l j : Nat) (s : Slot) : Tallied m (hitCounted m sd l j s) := by
  unfold hitCounted
  extract_lets k m1 c
  have h1 : Tallied m m1 := (tallied_lookupCounted m sd l).trans (.count ..)
  have h2 : Tallied m (ctlSet m1 k { c with hits := c.hits + 1 }) := h1.trans (.ctlSet rfl)
  exact h2.trans (.predHit ..)

/-! ## Slot lookups (R107, R120) -/

@[simp] theorem fillPut_fillQ (m : Mach) (r : Mshr) (img : Img) (t f : Bool) :
    (fillPut m r img t f).home.fillQ = m.home.fillQ ++ [⟨r.h, r.pln, img, false, t, f⟩] := rfl

@[simp] theorem fillPut_rsv (m : Mach) (r : Mshr) (img : Img) (t f : Bool) : (fillPut m r img t f).rsv = m.rsv := rfl

/-- Where no error is injected the checker's report stands. -/
theorem injected_none {m : Mach} (h : m.ras.injected = []) (st inst key : Nat) (ck : Check) : injected m st inst key ck = ck := by
  simp only [injected, h, List.find?_nil]

section
variable {m : Mach} {h : Fin 64} {r : Mshr} (hm : m.home.mshrs = [r]) (hh : r.h = h.val) (hp : r.phase = .lookup)
  (hw : lookupWaits m (h.val / 32) r = false)
include hm hh hp hw

/-- The only register of a slice, which need not wait, is the one that looks up. -/
theorem lookup_register :
    (m.home.mshrs.find? fun r => r.h == h.val && r.phase == .lookup && !lookupWaits m (h.val / 32) r) = some r := by
  simp [hm, hh, hp, hw]

/-- A line of which the tailwater buffer holds a whole image is answered from its newest entry. -/
theorem slotLookup_tailwater {e : TwEnt} (he : twNewest m (h.val / 32) r.pln = some e) :
    doSlotLookup h .good m = fillPut (count m (rsvBase (4 * (h.val / 32))) 0x20) r e.img false false := by
  simp only [doSlotLookup, lookup_register hm hh hp hw, he]

/-- A hit on a sound slot answers a demand with the slot's data, and takes it from a slot that is not Clean. -/
theorem slotLookup_hit {j : Nat} {s : Slot} (hpf : r.pf = false) (ht : taken m r.pln = false) (hi : m.ras.injected = [])
    (hr : (slotProbes m (h.val / 32) (lineL r.pln)).isEmpty = false) (hf : findSlot m (h.val / 32) (lineL r.pln) = some (j, s))
    (he : twNewest m (h.val / 32) r.pln = none) :
    doSlotLookup h .good m =
      fillPut (hitCounted m (h.val / 32) (lineL r.pln) j s) r ⟨s.data, s.st == .poisoned⟩ (s.st != .clean) false := by
  have hf' := ((tallied_lookupCounted m (h.val / 32) (lineL r.pln)).findSlot _ _).trans hf
  have hck (st inst key : Nat) : injected (lookupCounted m (h.val / 32) (lineL r.pln)) st inst key .good = .good :=
    injected_none ((congrArg Ras.injected (tallied_lookupCounted ..).ras).trans hi) ..
  have hbad : (Check.good == .bad) = false := rfl
  have hunread : (Check.good == .unreadable) = false := rfl
  simp only [doSlotLookup, lookup_register hm hh hp hw, he, ht, hr, Check.ofSlot, hck, hbad, hunread, hf', hpf, Bool.not_false,
    Bool.not_true, Bool.false_and, Bool.false_eq_true, ↓reduceIte]
  rfl

end

/-! ## Takes (R108) -/

/-- The only taken line is taken by the controller of its slot, which becomes Invalid. -/
theorem take_only {m : Mach} {k : Fin 8} {sd l i : Nat} {s : Slot} (ht : m.rsv.takes = [(sd, l)]) (hs : slotAny m sd (lineL l) = some (i, s))
    (hk : ctlOf sd i = k.val) :
    doTake k m = setSlot (count (slotCmds { m with rsv := { m.rsv with takes := [] } } sd i 1) (rsvBase k) 0x0E) sd i none := by
  have hs' : slotAny { m with rsv := { m.rsv with takes := [] } } sd (lineL l) = some (i, s) := hs
  simp only [doTake, ht, List.find?_cons, hs, hk, BEq.rfl, dropFirst, ↓reduceIte, takeLine, hs']

/-! ## Offers (R112 to R114, R124) -/

@[simp] theorem plnOf_slotCmds (m : Mach) (sd i n half l : Nat) : plnOf (slotCmds m sd i n) half l = plnOf m half l := rfl
@[simp] theorem slotLine_slotCmds (m : Mach) (sd i n d j : Nat) (s : Slot) : slotLine (slotCmds m sd i n) d j s = slotLine m d j s := rfl

section
variable {m : Mach} {sd pln i tag ep : Nat} {img : Img} {pf : Bool} (hi : installAt m sd (lineL pln) = (i, tag, ep))
include hi

/-- A dirty line goes into its usable slot when that is empty. -/
theorem offerLine_fillsEmpty (hu : usable m sd i = true) (hs : slotAt m sd i = none) :
    offerLine m sd pln img true pf = .done (setSlot (count (slotCmds m sd i 2) (rsvBase (ctlOf sd i)) 0x0B) sd i
      (some ⟨tag, if img.poison then .poisoned else .dirty, ep, img.data⟩)) true := by
  simp [offerLine, hi, hu, hs, stateOf]

/-- A clean line without a usable slot is declined. -/
theorem offerLine_declines (hu : usable m sd i = false) :
    offerLine m sd pln img false pf = .done (count (offerCounted m (ctlOf sd i)) (rsvBase (ctlOf sd i)) 0x09) false := by
  simp [offerLine, hi, hu]

/-- A dirty line waits while the dirty line that it displaces has no room in the tailwater buffer. -/
theorem offerLine_waits {s : Slot} (hu : usable m sd i = true) (hs : slotAt m sd i = some s) (hc : s.st ≠ .clean) (htag : s.tag ≠ tag)
    (ht : takePending m sd (plnOf m sd (slotLine m sd i s)) = false) (hw : twMustWait m sd (plnOf m sd (slotLine m sd i s)) = true) :
    offerLine m sd pln img true pf = .wait := by
  simp [offerLine, hi, hu, hs, hc, htag, ht, hw]

end

section
variable {m : Mach} {k : Fin 8} {o : Offer} (ho : m.rsv.offers = [o]) (hk : ctlOf o.sd (installAt m o.sd (lineL o.pln)).1 = k.val)
  (hr : repairHeld m o.pln = false) (ht : takePending m o.sd o.pln = false)
include ho hk hr ht

/-- The only offer, which no repair and no take holds, is the one that its controller meets. -/
theorem offer_met :
    (m.rsv.offers.find? fun o => ctlOf o.sd (installAt m o.sd (lineL o.pln)).1 == k.val && !repairHeld m o.pln && !takePending m o.sd o.pln) =
      some o := by
  simp [ho, hk, hr, ht]

theorem offer_waits (hl : offerLine m o.sd o.pln o.img o.dirty o.pf = .wait) : doOffer k false m = m := by
  simp only [doOffer, offer_met ho hk hr ht, hl, Bool.false_and, Bool.false_eq_true, ↓reduceIte]

/-- An offer of a fill that is taken or declined leaves the offers. -/
theorem offer_done {m' : Mach} {kept : Bool} (hl : offerLine m o.sd o.pln o.img o.dirty o.pf = .done m' kept) (hf : o.from_ = .fill)
    (ho' : m'.rsv.offers = [o]) :
    doOffer k false m = (fun y : Mach => { y with rsv := { y.rsv with offers := [] } }) m' := by
  have hvictim : (OfferFrom.fill == .victim) = false := rfl
  simp only [doOffer, offer_met ho hk hr ht, hl, hf, hvictim, ho', dropFirst, BEq.rfl, Bool.false_and, Bool.false_eq_true, ↓reduceIte]

end

/-! ## Predictor windows and clean writes (R116, R117) -/

theorem predictorWindowEnd_before {m : Mach} {k : Fin 8} (h : (ctlGet m k).offers < 2 ^ fget m (rsvBase k) R.RSV_CTL_WINLOG) :
    doPredictorWindowEnd k m = m := if_pos h

/-- The first window has no rate to compare with: THRESH goes on upwards. -/
theorem predictorWindowEnd_firstUp {m : Mach} {k : Fin 8} (h : 2 ^ fget m (rsvBase k) R.RSV_CTL_WINLOG ≤ (ctlGet m k).offers)
    (hf : (ctlGet m k).first = true) (hu : (ctlGet m k).dirUp = true) (he : fon m (rsvBase k) R.RSV_CTL_PREDEN = true) :
    doPredictorWindowEnd k m =
      fset (ctlSet m k ⟨true, false, 0, 0, 0, (ctlGet m k).hits, (ctlGet m k).lookups, (ctlGet m k).move⟩) (rsvBase k) R.RSV_STATUS_THRESH
        (max (fget m (rsvBase k) R.RSV_CTL_THR_MIN) (min (fget m (rsvBase k) R.RSV_CTL_THR_MAX) (fget m (rsvBase k) R.RSV_STATUS_THRESH + 1))) := by
  simp only [doPredictorWindowEnd, Nat.not_lt.mpr h, hf, hu, he, Bool.not_true, Bool.false_and, Bool.false_eq_true, ↓reduceIte]

/-- A write of sound bytes to a Clean slot merges them there. -/
theorem slotCleanWrite_merges {m : Mach} {sd pln i : Nat} {img : Img} {mask : Mask} {s : Slot} (hf : findSlot m sd (lineL pln) = some (i, s))
    (hs : s.st = .clean) (hp : img.poison = false) :
    slotCleanWrite m sd pln img mask = setSlot (count (slotCmds m sd i 2) (rsvBase (ctlOf sd i)) 0x0D) sd i
      (some { s with st := .clean, data := mergeLine s.data img.data mask }) := by
  simp only [slotCleanWrite, hf, hs, hp, bne_self_eq_false, Bool.false_eq_true, ↓reduceIte]

theorem cleanSlotWrite_due {m : Mach} {sd : Fin 2} {c : CleanWr} (hc : (m.rsv.cleanWr.find? fun c => c.sd == sd.val) = some c) :
    doCleanSlotWrite sd m =
      twFinish (slotCleanWrite { m with rsv := { m.rsv with cleanWr := dropFirst (fun c => c.sd == sd.val) m.rsv.cleanWr } } sd c.pln c.img c.mask)
        sd c.pln c.done := by
  simp only [doCleanSlotWrite, hc]

/-! ## The slot's layout (R100, R101, R103) -/

/-- A codeword has 80 bits, whatever its check bits: its word in bits 63:0 and its metadata bits in bits 65:64. -/
theorem codeword_fields (word meta2 : Nat) :
    codeword word meta2 < 2 ^ 80 ∧ codeword word meta2 % 2 ^ 64 = word % 2 ^ 64 ∧ codeword word meta2 / 2 ^ 64 % 4 = meta2 % 4 := by
  have hcheck := (Config.bch (BitVec.ofNat 66 (word % 2 ^ 64 + meta2 % 4 * 2 ^ 64))).isLt
  dsimp only [codeword]
  omega

/-- The two beats of a codeword make the codeword, which holds its word and its metadata bits. -/
theorem burst_beats (data : Line) (bits j : Nat) :
    burstBeat data bits (2 * j) + burstBeat data bits (2 * j + 1) * 2 ^ 40 = burstCode data bits j ∧
      burstCode data bits j % 2 ^ 64 = data.toNat / 2 ^ (64 * j) % 2 ^ 64 ∧ burstCode data bits j / 2 ^ 64 % 4 = bits / 4 ^ j % 4 := by
  obtain ⟨hlt, hword, hmeta⟩ := codeword_fields (data.toNat / 2 ^ (64 * j)) (bits / 4 ^ j)
  refine ⟨?_, hword, hmeta⟩
  have heven : 2 * j / 2 = j ∧ 2 * j % 2 = 0 := by omega
  have hodd : (2 * j + 1) / 2 = j ∧ (2 * j + 1) % 2 = 1 := by omega
  rw [burstBeat, burstBeat, heven.1, heven.2, hodd.1, hodd.2, burstCode]
  omega

theorem slotState_code (st : SlotSt) : slotState st.code = some (some st) := by cases st <;> rfl

/-- The fields of a held slot's metadata. -/
theorem slotMeta_fields (s : Slot) :
    slotMeta (some s) % 2 ^ 10 = s.tag % 2 ^ 10 ∧ slotState (slotMeta (some s) / 2 ^ 10 % 8) = some (some s.st) ∧
      slotMeta (some s) / 2 ^ 13 = s.epoch % 2 := by
  have hcode : s.st.code < 8 := by cases s.st <;> decide
  have hstate : slotMeta (some s) / 2 ^ 10 % 8 = s.st.code := by
    dsimp only [slotMeta]
    omega
  refine ⟨?_, by rw [hstate, slotState_code], ?_⟩
  all_goals
    dsimp only [slotMeta]
    omega

/-- The reserved encodings of STATE mean nothing. -/
theorem slotState_reserved : ∀ n : Nat, 4 ≤ n → slotState n = none
  | _ + 4, _ => rfl

/-! ## The commands' effects -/

theorem exec_slotLookup (h : Fin 64) (ck : Check) (s : State) : exec (.slotLookup h ck) s = act s (doSlotLookup h ck) := by rfl
theorem exec_take (k : Fin 8) (s : State) : exec (.take k) s = act s (doTake k) := by rfl
theorem exec_offer (k : Fin 8) (ue : Bool) (s : State) : exec (.offer k ue) s = act s (doOffer k ue) := by rfl
theorem exec_predictorWindowEnd (k : Fin 8) (s : State) : exec (.predictorWindowEnd k) s = act s (doPredictorWindowEnd k) := by rfl
theorem exec_cleanSlotWrite (sd : Fin 2) (s : State) : exec (.cleanSlotWrite sd) s = act s (doCleanSlotWrite sd) := by rfl

end Sys2Proof.Machine
end

section
/-! The settling of O39. -/

open Sys2Proof Sys2Proof.Machine

/-- Settles O39: what a lookup counts finds the same slots (`Tallied`), so the hit's slot answers; an offer is what `offerLine` says of its line; the
layouts are arithmetic. -/
theorem reservoirLookupsTakesAndOffers : Obligations.ReservoirLookupsTakesAndOffers := by
  unfold Obligations.ReservoirLookupsTakesAndOffers
  refine ⟨?_, ?_, ?_, ?_, ?_, ?_, ?_, ?_, ?_, fun data bits j _ => burst_beats data bits j, slotMeta_fields, slotState_reserved⟩
  · rintro h r _ j s q m hm hh hp hpf rfl hw ht hi hr hf he
    have htally := tallied_hitCounted m (h.val / 32) (lineL r.pln) j s
    refine ⟨_, leads_eq (exec_slotLookup ..) (slotLookup_hit hm hh hp hw hpf ht hi hr hf he), ?_, ?_⟩
    · rw [fillPut_fillQ, htally.home]
    · rw [fillPut_rsv, htally.slots]
  · rintro h r _ e q m hm hh hp _ rfl hw he
    exact leads_eq (exec_slotLookup ..) (slotLookup_tailwater hm hh hp hw he)
  · intro k sd l i s q m ht hs hk
    exact leads_eq (exec_take ..) (take_only ht hs hk)
  · intro k o i tag ep q m ho hf hi hk hr ht hd hu hs
    rw [← hk]
    refine leads_eq (exec_offer ..) (offer_done (kept := true) ho (by rw [← hi, hk]) hr ht ?_ hf (by simpa [setSlot, slotCmds] using ho))
    rw [hd, offerLine_fillsEmpty hi.symm hu hs]
  · intro k o i tag ep q m ho hf hi hk hr ht hd hu
    rw [← hk]
    refine leads_eq (exec_offer ..) (offer_done (kept := false) ho (by rw [← hi, hk]) hr ht ?_ hf (by simpa [offerCounted, ctlSet] using ho))
    rw [hd, offerLine_declines hi.symm hu]
  · intro k o i tag ep s q m ho hf hi hk hr ht hd hu hs hc htag hpend hw
    refine leads_eq (exec_offer ..) (offer_waits ho (by rw [← hi, hk]) hr ht ?_)
    rw [hd, offerLine_waits hi.symm hu hs hc htag hpend hw]
  · intro sd c i s q m hc hf hs hp
    exact leads_eq (exec_cleanSlotWrite ..) ((cleanSlotWrite_due hc).trans (congrArg (twFinish · sd c.pln c.done) (slotCleanWrite_merges hf hs hp)))
  · intro k q m h
    exact leads_eq (exec_predictorWindowEnd ..) (predictorWindowEnd_before h)
  · rintro k _ q m rfl h hf hu he
    exact leads_eq (exec_predictorWindowEnd ..) (predictorWindowEnd_firstUp h hf hu he)

end

section
/-! SUPPORT. Sweeps, refresh steps and the retirement of frames and banks (R127 to R132, Tables 5-13, 5-14 and 5-18). -/

namespace Sys2Proof.Machine

/-- Fields of a controller stand under different keys. -/
theorem fget_fset_rsv (m : Mach) (k : Nat) {f g : Fld} (v : Nat) (hk : f.off * 8 + f.lo ≠ g.off * 8 + g.lo) :
    fget (fset m (rsvBase k) f v) (rsvBase k) g = fget m (rsvBase k) g := fget_fset_other _ _ _ _ _ _ (by omega)

/-! ## Sweeps (R127) -/

section
variable {m : Mach} {k : Fin 8}

theorem sweepFrame_more (hs : rsvState m k = 1) (hp : fget m (rsvBase k) R.RSV_STATUS_SWEEP_PTR + 1 < 0x80000) :
    doSweepFrame k m = fset (clearFrame m k (fget m (rsvBase k) R.RSV_STATUS_SWEEP_PTR)) (rsvBase k) R.RSV_STATUS_SWEEP_PTR
      (fget m (rsvBase k) R.RSV_STATUS_SWEEP_PTR + 1) := by
  simp only [doSweepFrame, hs, bne_self_eq_false, beq_eq_false_iff_ne.mpr (Nat.ne_of_lt hp), Bool.false_eq_true, ↓reduceIte]

theorem sweepFrame_last (hs : rsvState m k = 1) (hp : fget m (rsvBase k) R.RSV_STATUS_SWEEP_PTR = 0x7FFFF) :
    doSweepFrame k m =
      fset (fset (clearFrame m k 0x7FFFF) (rsvBase k) R.RSV_STATUS_SWEEP_PTR 0x80000) (rsvBase k) R.RSV_STATUS_STATE 2 := by
  simp only [doSweepFrame, hs, hp, bne_self_eq_false, Nat.reduceAdd, BEq.rfl, Bool.false_eq_true, ↓reduceIte]

theorem sweepFrame_idle (hs : rsvState m k ≠ 1) : doSweepFrame k m = m := if_pos (bne_iff_ne.mpr hs)

/-! ## Refresh (R129) -/

theorem refreshCommand_counts (hs : rsvState m k ≠ 0) : doRefreshCommand k m = count m (rsvBase k) 0x0F := if_neg (by simpa using hs)

/-- A sample writes TEMP, and a step that moves is written and counted. -/
theorem stackTemperatureSample_eq (temp : BitVec 8) (hs : rsvState m k ≠ 0) :
    doStackTemperatureSample k temp m =
      if refNext (fget m (rsvBase k) R.RSV_STATUS_REFSTEP) temp.toNat = fget m (rsvBase k) R.RSV_STATUS_REFSTEP then
        fset m (rsvBase k) R.RSV_REFRESH_TEMP temp.toNat
      else finc (fset (fset m (rsvBase k) R.RSV_REFRESH_TEMP temp.toNat) (rsvBase k) R.RSV_STATUS_REFSTEP
        (refNext (fget m (rsvBase k) R.RSV_STATUS_REFSTEP) temp.toNat)) (rsvBase k) R.RSV_REFRESH_CHANGES := by
  have hstep : fget (fset m (rsvBase k) R.RSV_REFRESH_TEMP temp.toNat) (rsvBase k) R.RSV_STATUS_REFSTEP =
      fget m (rsvBase k) R.RSV_STATUS_REFSTEP := fget_fset_rsv m k _ (by decide)
  simp only [doStackTemperatureSample, beq_eq_false_iff_ne.mpr hs, hstep, beq_iff_eq, Bool.false_eq_true, ↓reduceIte]

/-- From step 0 a hot stack goes straight to step 3, and a cool one stays. -/
theorem refNext_hot {t : Nat} (ht : 95 ≤ t) : refNext 0 t = 3 := by simp [refNext, ht]
theorem refNext_cool {t : Nat} (ht : t < 50) : refNext 0 t = 0 := by
  have h85 : ¬ 85 ≤ t := by omega
  have h95 : ¬ 95 ≤ t := by omega
  simp [refNext, h85, h95, Nat.not_le.mpr ht]

end

/-! ## Starting a retirement (R131, R132, Table 5-18) -/

/-- The machine with FRAME, PC and OP of RSV_RETIRE as a write leaves them. -/
def retireWritten (m : Mach) (k op pc frame : Nat) : Mach :=
  fset (fset (fset m (rsvBase k) R.RSV_RETIRE_FRAME frame) (rsvBase k) R.RSV_RETIRE_PC pc) (rsvBase k) R.RSV_RETIRE_OP op

/-- The write of RSV_RETIRE leaves every field outside FRAME, PC and OP, of the controller and of its bank bars. -/
theorem fget_retireWritten (m : Mach) (k op pc frame d : Nat) {g : Fld}
    (hk : 0x58 * 8 + 24 < (d + g.off) * 8 + g.lo ∨ (d + g.off) * 8 + g.lo < 0x58 * 8) :
    fget (retireWritten m k op pc frame) (rsvBase k + d) g = fget m (rsvBase k + d) g := by
  unfold retireWritten
  rw [fget_fset_other, fget_fset_other, fget_fset_other]
  all_goals
    simp only [R.RSV_RETIRE_FRAME, R.RSV_RETIRE_PC, R.RSV_RETIRE_OP]
    omega

@[simp] theorem rsvState_retireWritten (m : Mach) (k op pc frame : Nat) : rsvState (retireWritten m k op pc frame) k = rsvState m k :=
  fget_retireWritten m k op pc frame 0 (by decide)

@[simp] theorem bankBarred_retireWritten (m : Mach) (k op pc frame p b : Nat) :
    bankBarred (retireWritten m k op pc frame) k p b = bankBarred m k p b := by
  unfold bankBarred
  rw [fget_retireWritten]
  simp only [R.RSV_BANKBAR_BARS]
  omega

/-- A write with GO of a controller that is not busy starts the operation. -/
theorem retireGo_idle {m : Mach} {k : Fin 8} (op : Nat) (pc : Fin 32) (frame : BitVec 19) (hb : fon m (rsvBase k) R.RSV_RETIRE_BUSY = false) :
    retireGo k op pc frame m = startRetire (retireWritten m k op pc frame.toNat) k op pc frame.toNat none := by
  simp only [retireGo, hb, Bool.false_eq_true, ↓reduceIte]
  rfl

section
variable {m : Mach} {k op pc frame : Nat}

/-- At a controller that does not serve, RESULT is 4. -/
theorem startRetire_notServing (hs : rsvState m k ≠ 2) : startRetire m k op pc frame none = fset m (rsvBase k) R.RSV_RETIRE_RESULT 4 :=
  if_pos (bne_iff_ne.mpr hs)

/-- At a Serving controller, in a bank that is not barred, a bank bar starts; so does a frame operation on a frame that is not remapped while the
remap memory has room and, for a remap, a spare frame is left. -/
theorem startRetire_starts (hs : rsvState m k = 2) (hb : bankBarred m k pc (frame % 16) = false)
    (hop : op = 3 ∨ (sget 1 m.rsv.remap (frameKey k pc frame) = 1 ∧ remapUsed m k < 4096 ∧ (op = 1 → sparesUsed m k pc < 13312))) :
    startRetire m k op pc frame none =
      fset (ctlSet m k { ctlGet m k with move := some ⟨op, pc, frame, none⟩ }) (rsvBase k) R.RSV_RETIRE_BUSY 1 := by
  rcases hop with rfl | ⟨hfree, hroom, hspare⟩
  · simp [startRetire, hs, hb]
  · have hleft : ¬ (op = 1 ∧ 13312 ≤ sparesUsed m k pc) := fun ⟨h, hmany⟩ => Nat.not_lt.mpr hmany (hspare h)
    simp [startRetire, hs, hb, hfree, Nat.not_le.mpr hroom, hleft]

end

/-- A retirement that a write starts: its fields, BUSY, and the move that it records. -/
theorem retireGo_starts {m : Mach} {k : Fin 8} {op : Nat} {pc : Fin 32} {frame : BitVec 19} (hbusy : fon m (rsvBase k) R.RSV_RETIRE_BUSY = false)
    (hs : rsvState m k = 2) (hb : bankBarred m k pc (frame.toNat % 16) = false)
    (hop : op = 3 ∨ (sget 1 m.rsv.remap (frameKey k pc frame.toNat) = 1 ∧ remapUsed m k < 4096 ∧ (op = 1 → sparesUsed m k pc < 13312))) :
    retireGo k op pc frame m = fset (ctlSet (retireWritten m k op pc frame.toNat) k
      { ctlGet m k with move := some ⟨op, pc, frame.toNat, none⟩ }) (rsvBase k) R.RSV_RETIRE_BUSY 1 := by
  rw [retireGo_idle op pc frame hbusy]
  exact startRetire_starts (by rw [rsvState_retireWritten, hs]) (by rw [bankBarred_retireWritten, hb]) hop

theorem retireGo_notServing {m : Mach} {k : Fin 8} {op : Nat} {pc : Fin 32} {frame : BitVec 19}
    (hbusy : fon m (rsvBase k) R.RSV_RETIRE_BUSY = false) (hs : rsvState m k ≠ 2) :
    retireGo k op pc frame m = fset (retireWritten m k op pc frame.toNat) (rsvBase k) R.RSV_RETIRE_RESULT 4 := by
  rw [retireGo_idle op pc frame hbusy]
  exact startRetire_notServing (by rwa [rsvState_retireWritten])

/-! ## The end of a remap (R131) -/

/-- The machine in which frame `v.frame` has the next spare frame of its pseudo-channel. -/
def spareTaken (m : Mach) (k : Nat) (v : FrameMove) : Mach :=
  { m with rsv := { m.rsv with remap := sset 1 m.rsv.remap (frameKey k v.pc v.frame) (sparesUsed m k v.pc + 2)
                               spares := sset 0 m.rsv.spares (k * 32 + v.pc) (sparesUsed m k v.pc + 1) } }

/-- Controller `k` with REMAP_USED as its remap memory stands, no move, RESULT 0 and BUSY 0. -/
def retireClosed (m : Mach) (k : Nat) : Mach :=
  let m := fset m (rsvBase k) R.RSV_STATUS_REMAP_USED (remapUsed m k)
  fset (fset (ctlSet m k { ctlGet m k with move := none }) (rsvBase k) R.RSV_RETIRE_RESULT 0) (rsvBase k) R.RSV_RETIRE_BUSY 0

/-- The machine after retirement `v` has ended: its controller is closed, and the page of the retirement list is due. -/
def retireEnded (m : Mach) (k : Nat) (v : FrameMove) : Mach := { retireClosed m k with retireQ := m.retireQ ++ [(k, v)] }

section
variable (m : Mach) (k : Nat) (v : FrameMove)

theorem retireEnded_remap : (retireEnded m k v).rsv.remap = m.rsv.remap := rfl
theorem retireEnded_spares : (retireEnded m k v).rsv.spares = m.rsv.spares := rfl
theorem retireEnded_retireQ : (retireEnded m k v).retireQ = m.retireQ ++ [(k, v)] := rfl

theorem retireEnded_move : (ctlGet (retireEnded m k v) k).move = none :=
  congrArg Ctl.move ((ctlGet_ctlSet (fset m (rsvBase k) R.RSV_STATUS_REMAP_USED (remapUsed m k)) k k _).trans (if_pos rfl))

theorem fget_retireEnded (b : Nat) (f : Fld) : fget (retireEnded m k v) b f = fget (retireClosed m k) b f := rfl

theorem retireEnded_busy : fget (retireEnded m k v) (rsvBase k) R.RSV_RETIRE_BUSY = 0 := by
  rw [fget_retireEnded, retireClosed, fget_fset_same]
  rfl

theorem retireEnded_result : fget (retireEnded m k v) (rsvBase k) R.RSV_RETIRE_RESULT = 0 := by
  rw [fget_retireEnded, retireClosed, fget_fset_rsv _ _ _ (by decide), fget_fset_same]
  rfl

end

section
variable {m : Mach} {k : Fin 8} {bad : List (BitVec 31 × Fin 8)}

theorem frameMoveComplete_none (hv : (ctlGet m k).move = none) : doFrameMoveComplete k bad m = m := by
  simp only [doFrameMoveComplete, hv]

/-- A remap of a frame that holds no line ends with a spare frame in its place. -/
theorem frameMoveComplete_remaps {v : FrameMove} (hv : (ctlGet m k).move = some v) (hm : movedSlots m k v = []) (ho : v.op = 1)
    (he : v.eng = none) : doFrameMoveComplete k bad m = retireEnded (spareTaken m k v) k v := by
  simp only [doFrameMoveComplete, hv, hm, List.foldl_nil, ho, he]
  rfl

end

/-! ## The commands' effects -/

theorem exec_sweepFrame (k : Fin 8) (s : State) : exec (.sweepFrame k) s = act s (doSweepFrame k) := by rfl
theorem exec_refreshCommand (k : Fin 8) (s : State) : exec (.refreshCommand k) s = act s (doRefreshCommand k) := by rfl
theorem exec_stackTemperatureSample (k : Fin 8) (temp : BitVec 8) (s : State) :
    exec (.stackTemperatureSample k temp) s = act s (doStackTemperatureSample k temp) := by rfl
theorem exec_frameRemap (k : Fin 8) (pc : Fin 32) (frame : BitVec 19) (s : State) :
    exec (.frameRemap k pc frame) s = act s (gatedReg (rsvBase k + 0x58) (fun _ => [(R.RSV_RETIRE_FRAME, frame.toNat), (R.RSV_RETIRE_PC, pc),
      (R.RSV_RETIRE_OP, 1), (R.RSV_RETIRE_GO, 1)]) (retireGo k 1 pc frame)) := by rfl
theorem exec_frameBar (k : Fin 8) (pc : Fin 32) (frame : BitVec 19) (s : State) :
    exec (.frameBar k pc frame) s = act s (gatedReg (rsvBase k + 0x58) (fun _ => [(R.RSV_RETIRE_FRAME, frame.toNat), (R.RSV_RETIRE_PC, pc),
      (R.RSV_RETIRE_OP, 2), (R.RSV_RETIRE_GO, 1)]) (retireGo k 2 pc frame)) := by rfl
theorem exec_bankBar (k : Fin 8) (pc : Fin 32) (frame : BitVec 19) (s : State) :
    exec (.bankBar k pc frame) s = act s (gatedReg (rsvBase k + 0x58) (fun _ => [(R.RSV_RETIRE_FRAME, frame.toNat), (R.RSV_RETIRE_PC, pc),
      (R.RSV_RETIRE_OP, 3), (R.RSV_RETIRE_GO, 1)]) (retireGo k 3 pc frame)) := by rfl
theorem exec_frameMoveComplete (e : MoveEnd) (s : State) : exec (.frameMoveComplete e) s = act s (doFrameMoveComplete e.k e.bad) := by rfl

end Sys2Proof.Machine
end

section
/-! The settling of O40. -/

open Sys2Proof Sys2Proof.Machine

/-- Settles O40: a retirement is a write of RSV_RETIRE whose domain answers, and starts by the state that the write leaves (`retireGo_starts`); a remap
ends in `retireEnded`. -/
theorem reservoirUpkeep : Obligations.ReservoirUpkeep := by
  unfold Obligations.ReservoirUpkeep
  refine ⟨?_, ?_, ?_, ?_, ?_, ?_, ?_, ?_, ?_, ?_, ?_, ?_⟩
  · rintro k _ q m hs rfl hp
    exact leads_eq (exec_sweepFrame ..) (sweepFrame_more hs hp)
  · intro k q m hs hp
    exact leads_eq (exec_sweepFrame ..) (sweepFrame_last hs hp)
  · intro k q m hs
    exact leads_eq (exec_sweepFrame ..) (sweepFrame_idle hs)
  · intro k q m hs
    exact leads_eq (exec_refreshCommand ..) (refreshCommand_counts hs)
  · intro k temp q m hs hr ht
    exact leads_eq (exec_stackTemperatureSample ..) ((stackTemperatureSample_eq temp hs).trans (by rw [hr, refNext_hot ht]; rfl))
  · intro k temp q m hs hr ht
    exact leads_eq (exec_stackTemperatureSample ..) ((stackTemperatureSample_eq temp hs).trans (if_pos (by rw [hr, refNext_cool ht])))
  · intro k pc frame q m ha hbusy hs hb hroom hspare hfree
    exact leads_eq (exec_frameRemap ..)
      ((gatedReg_open ha _ _).trans (retireGo_starts hbusy hs hb (.inr ⟨hfree, hroom, fun _ => hspare⟩)))
  · intro k pc frame q m ha hbusy hs hb hroom hfree
    exact leads_eq (exec_frameBar ..)
      ((gatedReg_open ha _ _).trans (retireGo_starts hbusy hs hb (.inr ⟨hfree, hroom, fun h => absurd h (by decide)⟩)))
  · intro k pc frame q m ha hbusy hs hb
    exact leads_eq (exec_bankBar ..) ((gatedReg_open ha _ _).trans (retireGo_starts hbusy hs hb (.inl rfl)))
  · intro k pc frame q m ha hbusy hs
    exact leads_eq (exec_frameRemap ..) ((gatedReg_open ha _ _).trans (retireGo_notServing hbusy (by rw [hs]; decide)))
  · intro k bad v q m hv hm ho he
    exact ⟨_, leads_eq (exec_frameMoveComplete ..) (frameMoveComplete_remaps hv hm ho he), retireEnded_remap .., retireEnded_spares ..,
      retireEnded_result .., retireEnded_busy .., retireEnded_move .., retireEnded_retireQ ..⟩
  · intro k bad q m hv
    exact leads_eq (exec_frameMoveComplete ..) (frameMoveComplete_none hv)

end

section
/-! SUPPORT. How a sled write enters the tailwater buffer, is issued, and is freed by its acknowledgments (R118 to R124, R240, Table 5-11). -/

namespace Sys2Proof.Machine

@[simp] theorem count_tw (m : Mach) (b c n : Nat) : (count m b c n).tw = m.tw := count_same Mach.tw cntPut_tw m b c n
@[simp] theorem count_nextId (m : Mach) (b c n : Nat) : (count m b c n).nextId = m.nextId := count_same Mach.nextId cntPut_nextId m b c n

/-! ## Entry (R122, R124) -/

/-- A line without an entry has none to merge into. -/
theorem twMerges_none {m : Mach} {sd pln : Nat} (h : m.tw.any (fun x => x.sd == sd && x.pln == pln) = false) : twMerges m sd pln = false := by
  simp only [twMerges, List.any_eq_false, Bool.and_eq_true, not_and] at h ⊢
  exact fun x hx hline => absurd hline.2 (h x hx hline.1)

/-- A write of a stored plot, of a line that has no entry, becomes a Waiting entry at the locations of its plot. -/
theorem twTake_enters {m : Mach} {sd pln : Nat} {img : Img} {mask : Mask} {done : List TwDone} (hl : twLost m sd pln = false)
    (he : m.tw.any (fun x => x.sd == sd && x.pln == pln) = false) :
    twTake m sd pln img mask done = (fun y : Mach =>
      { y with nextId := m.nextId + 1
               tw := m.tw ++ [⟨sd, pln, img, mask, writeLocs m (plcGet m sd (plotOf pln)), [], .waiting, done, m.nextId⟩] })
      (count m (rsvBase (4 * sd)) 0x21) := by
  simp only [twTake, hl, twMerges_none he, he, count_tw, count_nextId, Bool.false_eq_true, ↓reduceIte]

section
variable {m : Mach} {sd : Fin 2} {e : TwIn} (hi : m.twIn = [e])
include hi

/-- The only write to place, of this side and with room, enters the buffer. -/
theorem tailwaterWrite_only (hs : e.sd = sd.val) (ho : e.origin = .other) (hf : twFull m sd e.pln = false) :
    doTailwaterWrite sd m = twTake { m with twIn := [] } sd e.pln e.img e.mask e.done := by
  have hpick : (e.sd != sd.val || ([] : List Nat).contains e.pln) = false := by simp [hs]
  simp only [doTailwaterWrite, hi, List.foldl_cons, List.foldl_nil, hpick, hf, ho, dropFirst, BEq.rfl, Bool.false_eq_true, ↓reduceIte]

/-- A write without room waits. -/
theorem tailwaterWrite_waits (hf : twFull m sd e.pln = true) : doTailwaterWrite sd m = m := by
  cases hskip : (e.sd != sd.val || ([] : List Nat).contains e.pln)
  all_goals simp only [doTailwaterWrite, hi, List.foldl_cons, List.foldl_nil, hskip, hf, Bool.false_eq_true, ↓reduceIte]

end

/-! ## Issue (R122, R123, R207) -/

/-- The only entry, Waiting for an Up port with one location, is issued to it. -/
theorem tailwaterIssue_only {m : Mach} {sd : Fin 2} {p : Fin 32} {e : TwEnt} {a : Nat} (ht : m.tw = [e]) (hs : e.sd = sd.val)
    (hw : e.st = .waiting) (hl : e.locs = [(p.val, a)]) (hh : plotHeld m sd (plotOf e.pln) = false) (hr : repairHeld m e.pln = false)
    (hu : memState m p = 0) (hn : m.ports.sleds = []) :
    doTailwaterIssue sd p false m = sledWriteReq (sampleDue (count { m with tw := [{ e with st := .issued, left := [p.val] }] }
      (rsvBase (4 * sd.val)) 0x23) sd (plotOf e.pln)) sd p (.tail sd e.pln) (sledAddr a e.pln) e.img e.mask := by
  have hissued : twIssuedTo m sd p = 0 := by simp [twIssuedTo, ht, hw]
  simp [doTailwaterIssue, ht, hs, hw, hl, hh, hr, hu, hn, hissued, mapFirst]

/-! ## Acknowledgment (R122, R240) -/

@[simp] theorem sledAnswered_tw (m : Mach) (p : Nat) (s : SledReq) : (sledAnswered m p s).tw = m.tw := count_tw ..

section
variable {m : Mach} {p : Fin 32} {id : Nat} {s : SledReq}
  (hs : (m.ports.sleds.find? fun s => s.id == id && s.port == p.val && s.sent) = some s) (hf : s.fenced = false)
include hs hf

/-- The last acknowledgment of an entry marks its step and frees it. -/
theorem sledWriteAck_last {sd pln : Nat} {e : TwEnt} (hw : s.what = .tail sd pln)
    (he : (m.tw.find? fun e => e.sd == sd && e.pln == pln && e.st == .issued) = some e) (hl : (e.left.filter fun x => x != p.val) = []) :
    doSledWriteAck p id m = twFree ((fun y : Mach => { y with tw := mapFirst (fun x => x == e) (fun _ => { e with left := [] }) y.tw })
      (trackWrite (sledAnswered m p s) sd pln)) { e with left := [] } := by
  simp only [doSledWriteAck, hs, hw, hf, count_eq_sledAnswered, sledAnswered_tw, he, hl, List.isEmpty_nil, Bool.false_eq_true, ↓reduceIte]

/-- The acknowledgment of a flume write ends that write. -/
theorem sledWriteAck_flume {c k : Nat} (hw : s.what = .flumeWrite c k) :
    doSledWriteAck p id m = complete (sledAnswered m p s) ⟨.flume c k, 0, none, none, 0, .ok, none⟩ := by
  simp only [doSledWriteAck, hs, hw, hf, count_eq_sledAnswered, Bool.false_eq_true, ↓reduceIte]

end

/-! ## The commands' effects -/

theorem exec_tailwaterWrite (sd : Fin 2) (s : State) : exec (.tailwaterWrite sd) s = act s (doTailwaterWrite sd) := by rfl
theorem exec_tailwaterIssue (sd : Fin 2) (p : Fin 32) (ue : Bool) (s : State) :
    exec (.tailwaterIssue sd p ue) s = act s (doTailwaterIssue sd p ue) := by rfl
theorem exec_sledWriteAcknowledgment (p : Fin 32) (id : Nat) (s : State) :
    exec (.sledWriteAcknowledgment p id) s = act s (doSledWriteAck p id) := by rfl

end Sys2Proof.Machine
end

section
/-! The settling of O41. -/

open Sys2Proof Sys2Proof.Machine

/-- Settles O41: a write that is placed enters as `twTake_enters` says, the only Waiting entry is the head of its queue, and the last acknowledgment
frees the entry that it finds Issued. -/
theorem tailwaterBuffer : Obligations.TailwaterBuffer := by
  unfold Obligations.TailwaterBuffer
  refine ⟨?_, ?_, ?_, ?_, ?_⟩
  · intro sd e q m hi hs ho hl hf he
    exact leads_eq (exec_tailwaterWrite ..) ((tailwaterWrite_only hi hs ho hf).trans (twTake_enters hl (hs ▸ he)))
  · intro sd e q m hi hf
    exact leads_eq (exec_tailwaterWrite ..) (tailwaterWrite_waits hi hf)
  · intro sd p e a q m ht hs hw hl hh hr hu hn
    exact leads_eq (exec_tailwaterIssue ..) (tailwaterIssue_only ht hs hw hl hh hr hu hn)
  · intro p id s sd l e q m hs hw hf he hl
    exact leads_eq (exec_sledWriteAcknowledgment ..) (sledWriteAck_last hs hf hw he hl)
  · intro p id s c k q m hs hw hf
    exact leads_eq (exec_sledWriteAcknowledgment ..) (sledWriteAck_flume hs hf hw)

end

section
/-! SUPPORT. What the tile of a HOST port does with a host's snoop responses and conflicts (R155, R157, R166, R379, R508, Table 6-17). -/

namespace Sys2Proof.Machine

@[simp] theorem count_ports (m : Mach) (b c n : Nat) : (count m b c n).ports = m.ports := count_same Mach.ports cntPut_ports m b c n

/-! ## Which responses a snoop accepts (Table 6-17) -/

theorem permits_invalid (k : Snp) : permits k none = true := by cases k <;> rfl

theorem permits_shared {k : Snp} (h : k = .cur ∨ k = .data) : permits k (some .s) = true := by
  rcases h with rfl | rfl <;> rfl

theorem permits_exclusive {k : Snp} (h : k = .cur) : permits k (some .e) = true := h ▸ rfl

theorem not_permits_exclusive {k : Snp} (h : k ≠ .cur) : permits k (some .e) = false := by
  cases k
  case cur => exact absurd rfl h
  all_goals rfl

section
variable {m : Mach} {p : Fin 32} (hl : hostLink m p = true)
include hl

/-! ## Responses that name a line -/

section
variable {pln : Nat} {s : OpenSnp} {st : Option DirSt} (hs : (m.ports.snps.find? fun s => s.port == p.val && s.pln == pln && s.sent) = some s)
include hs

theorem biRsp_closes (hf : s.fenced = false) (hk : permits s.kind st = true) : biRsp p pln st m = snpClose m s st := by
  simp only [biRsp, hl, hs, hf, hk, Bool.not_true, Bool.false_eq_true, ↓reduceIte]

theorem biRsp_losesPort (hf : s.fenced = false) (hk : permits s.kind st = false) : biRsp p pln st m = badRsp m p pln := by
  simp only [biRsp, hl, hs, hf, hk, Bool.not_true, Bool.false_eq_true, ↓reduceIte]

/-- A response to a snoop that a failed side sent closes it, and no home hears of it. -/
theorem biRsp_discarded (hf : s.fenced = true) :
    biRsp p pln st m = { m with ports := { m.ports with snps := dropFirst (fun x => x == s) m.ports.snps } } := by
  simp only [biRsp, hl, hs, hf, Bool.not_true, Bool.false_eq_true, ↓reduceIte]

end

/-! ## Responses that name a group of four lines -/

section
variable {grp : BitVec 40} (ho : (blkOpen m p grp.toNat false).isEmpty = false)
include ho

/-- Where every line that the response names is open in a BISnpInvBlk, those snoops close. -/
theorem biRspIBlk_closes {lines : BitVec 4} {op : List OpenSnp}
    (hold : ((blkOpen m p grp.toNat true).filter fun s => s.kind == .invBlk && (blkLines grp.toNat lines).contains s.pln).isEmpty = true)
    (hn : blkLines grp.toNat lines ≠ [])
    (hop : op = (blkOpen m p grp.toNat false).filter fun s => s.kind == .invBlk && (blkLines grp.toNat lines).contains s.pln)
    (hlen : op.length = (blkLines grp.toNat lines).length) :
    doBiRspIBlk p grp lines m = op.foldl (fun m s => snpClose m s none) m := by
  have hnamed : ((blkLines grp.toNat lines).isEmpty || op.length != (blkLines grp.toNat lines).length) = false := by
    rw [List.isEmpty_eq_false_iff.mpr hn, hlen, bne_self_eq_false, Bool.or_self]
  simp only [doBiRspIBlk, hl, hold, ho, ← hop, hnamed, Bool.not_true, Bool.false_eq_true, ↓reduceIte]

theorem biRspIBlk_unnamed (hold : (blkOpen m p grp.toNat true).isEmpty = true) : doBiRspIBlk p grp 0 m = badRsp m p (grp.toNat * 4) := by
  have hnamed : blkLines grp.toNat 0 = [] := rfl
  simp only [doBiRspIBlk, hl, List.isEmpty_iff.mp hold, List.filter_nil, List.isEmpty_nil, ho, hnamed, Bool.true_or, Bool.not_true,
    Bool.false_eq_true, ↓reduceIte]

theorem badBlk_losesPort (hold : (blkOpen m p grp.toNat true).isEmpty = true) : badBlk p grp m = badRsp m p (grp.toNat * 4) := by
  simp only [badBlk, hl, hold, ho, Bool.not_true, Bool.not_false, Bool.false_eq_true, ↓reduceIte]

end

theorem badBlk_protocolError {grp : BitVec 40} (ho : (blkOpen m p grp.toNat false).isEmpty = true)
    (hold : (blkOpen m p grp.toNat true).isEmpty = true) : badBlk p grp m = rasProto m p := by
  simp only [badBlk, hl, hold, ho, Bool.not_true, Bool.false_eq_true, ↓reduceIte]

/-! ## Conflicts (R157, R379) -/

section
variable {pln : BitVec 42}

/-- A conflict is acknowledged, and counted at the slice of the snoop that it meets. -/
theorem biConflict_acknowledged {s : OpenSnp}
    (hs : (m.ports.snps.find? fun s => s.port == p.val && s.pln == pln.toNat && s.sent) = some s) (hf : s.fenced = false) :
    doBiConflict p pln m = sendNdr (count (count m (ptBase p) 0x05) (hsBase s.h) 0x3C) p .biConflictAck pln.toNat := by
  simp only [doBiConflict, hl, count_ports, hs, hf, Bool.not_true, Bool.false_eq_true, ↓reduceIte]

theorem biConflict_protocolError (hs : (m.ports.snps.find? fun s => s.port == p.val && s.pln == pln.toNat && s.sent) = none) :
    doBiConflict p pln m = rasProto (count m (ptBase p) 0x05) p := by
  simp only [doBiConflict, hl, count_ports, hs, Bool.not_true, Bool.false_eq_true, ↓reduceIte]

end
end

/-! ## The commands' effects -/

theorem exec_biConflict (p : Fin 32) (pln : BitVec 42) (s : State) : exec (.biConflict p pln) s = act s (doBiConflict p pln) := by rfl
theorem exec_biRspI (p : Fin 32) (pln : BitVec 42) (s : State) : exec (.biRspI p pln) s = act s (biRsp p pln.toNat none) := by rfl
theorem exec_biRspS (p : Fin 32) (pln : BitVec 42) (s : State) : exec (.biRspS p pln) s = act s (biRsp p pln.toNat (some .s)) := by rfl
theorem exec_biRspE (p : Fin 32) (pln : BitVec 42) (s : State) : exec (.biRspE p pln) s = act s (biRsp p pln.toNat (some .e)) := by rfl
theorem exec_biRspIBlk (p : Fin 32) (grp : BitVec 40) (lines : BitVec 4) (s : State) :
    exec (.biRspIBlk p grp lines) s = act s (doBiRspIBlk p grp lines) := by rfl
theorem exec_biRspSBlk (p : Fin 32) (grp : BitVec 40) (s : State) : exec (.biRspSBlk p grp) s = act s (badBlk p grp) := by rfl
theorem exec_biRspEBlk (p : Fin 32) (grp : BitVec 40) (s : State) : exec (.biRspEBlk p grp) s = act s (badBlk p grp) := by rfl

end Sys2Proof.Machine
end

section
/-! The settling of O29. -/

open Sys2Proof Sys2Proof.Machine

/-- Settles O29: a response that its snoop accepts closes it (`biRsp_closes`, `biRspIBlk_closes`), and another one is a `badRsp`, or with no snoop open
a `rasProto`. -/
theorem snoopResponses : Obligations.SnoopResponses := by
  unfold Obligations.SnoopResponses
  refine ⟨?_, ?_, ?_, ?_, ?_, ?_, ?_, ?_, ?_, ?_, ?_, ?_, ?_⟩
  · intro p pln s q m hl hs hf
    exact leads_eq (exec_biConflict ..) (biConflict_acknowledged hl hs hf)
  · intro p pln q m hl hs
    exact leads_eq (exec_biConflict ..) (biConflict_protocolError hl hs)
  · intro p pln s q m hl hs hf
    exact leads_eq (exec_biRspI ..) (biRsp_closes hl hs hf (permits_invalid _))
  · intro p pln s q m hl hs hf hk
    exact leads_eq (exec_biRspS ..) (biRsp_closes hl hs hf (permits_shared hk))
  · intro p pln s q m hl hs hf hk
    exact leads_eq (exec_biRspE ..) (biRsp_closes hl hs hf (permits_exclusive hk))
  · intro p pln s q m hl hs hf hk
    exact leads_eq (exec_biRspE ..) (biRsp_losesPort hl hs hf (not_permits_exclusive hk))
  · intro p pln s q m hl hs hf
    exact leads_eq (exec_biRspI ..) (biRsp_discarded hl hs hf)
  · rintro p grp lines _ op q m hl hold ho rfl hn hop hlen
    exact leads_eq (exec_biRspIBlk ..) (biRspIBlk_closes hl ho hold hn hop hlen)
  · rintro p grp _ q m hl hold ho rfl
    exact leads_eq (exec_biRspIBlk ..) (biRspIBlk_unnamed hl ho hold)
  · intro p grp q m hl hold ho
    exact leads_eq (exec_biRspSBlk ..) (badBlk_losesPort hl ho hold)
  · intro p grp q m hl ho hold
    exact leads_eq (exec_biRspSBlk ..) (badBlk_protocolError hl ho hold)
  · intro p grp q m hl hold ho
    exact leads_eq (exec_biRspEBlk ..) (badBlk_losesPort hl ho hold)
  · intro p grp q m hl ho hold
    exact leads_eq (exec_biRspEBlk ..) (badBlk_protocolError hl ho hold)

end

section
/-! SUPPORT. The messages of a slice's stream, the twin copies that they stage, free and commit, and their acknowledgments (R147, R148, R193 to R200,
Table 8-3). -/

namespace Sys2Proof.Machine

@[simp] theorem bridgeMsg_twin (m : Mach) (sd : Nat) : (bridgeMsg m sd).twin = m.twin := (count_twin ..).trans (count_twin ..)
@[simp] theorem fget_bridgeMsg (m : Mach) (sd b : Nat) (f : Fld) : fget (bridgeMsg m sd) b f = fget m b f := (fget_count ..).trans (fget_count ..)

/-! ## The head of a stream -/

/-- The machine with `rest` in place of all streams. -/
def streamLeft (m : Mach) (rest : List (Nat × Stream)) : Mach := { m with twin := { m.twin with stream := rest } }

@[simp] theorem streamLeft_stream (m : Mach) (rest : List (Nat × Stream)) : (streamLeft m rest).twin.stream = rest := rfl

section
variable {m : Mach} {h : Nat} {x : Stream} {rest : List (Nat × Stream)} (hs : m.twin.stream = (h, x) :: rest)
include hs

theorem streamHead_cons : streamHead m h = some x := by
  simp only [streamHead, hs, List.find?_cons, BEq.rfl, Option.map_some]

theorem streamPop_cons : streamPop m h = bridgeMsg (streamLeft m rest) (h / 32) := by
  simp only [streamPop, streamLeft, hs, dropFirst, BEq.rfl, ↓reduceIte]

theorem streamDrop_cons : streamDrop m h = streamLeft m rest := by
  simp only [streamDrop, streamLeft, hs, dropFirst, BEq.rfl, ↓reduceIte]

end

/-! ## Mirror updates and the records of their grants (R147, R148) -/

theorem mirrorUpdate_head {m : Mach} {h : Fin 64} {k : Nat} {e : Option DirEnt} {g : Option (Nat × Nat)} {rest : List (Nat × Stream)}
    (hs : m.twin.stream = (h.val, .mirror k e g) :: rest) :
    doMirrorUpdate h m = applyStream (bridgeMsg (streamLeft m rest) (h.val / 32)) h (.mirror k e g) := by
  simp only [doMirrorUpdate, streamHead_cons hs, streamPop_cons hs]

section
variable {m : Mach} {p : Fin 32} {l : Nat} {rest : List (Nat × Nat)} (hs : m.twin.mirAcks = (p.val, l) :: rest)
include hs

theorem grantRecordRelease_noneHeld (hh : m.ports.heldRsp = []) :
    doGrantRecordRelease p m = { m with
      twin := { m.twin with mirAcks := rest }
      ports := { m.ports with grants := dropFirst (fun g => g.port == p.val && g.pln == l) m.ports.grants } } := by
  simp only [doGrantRecordRelease, hs, hh, List.find?_cons, List.find?_nil, dropFirst, BEq.rfl, ↓reduceIte]

/-- The freed record's place goes to the response of the port that was held for one. -/
theorem grantRecordRelease_held {d : Done} {ds : List Done} {id : Nat} (hh : m.ports.heldRsp = d :: ds) (hd : d.src = .host p id) :
    doGrantRecordRelease p m = complete { m with
      twin := { m.twin with mirAcks := rest }
      ports := { m.ports with grants := dropFirst (fun g => g.port == p.val && g.pln == l) m.ports.grants, heldRsp := ds } } d := by
  simp only [doGrantRecordRelease, hs, hh, hd, List.find?_cons, dropFirst, BEq.rfl, ↓reduceIte]

end

/-! ## Twin writes (R193, R196, R199) -/

theorem hasTwin_empty {m : Mach} (hs : m.twin.staged = []) (hr : m.twin.recs = []) (l : Nat) : hasTwin m l = false := by
  simp only [hasTwin, hs, hr, List.any_nil, Bool.or_false]

theorem hasTwin_staged {m : Mach} {t l : Nat} {img : Img} {pd : Bool} {more : List Staged} (hs : m.twin.staged = ⟨t, l, img, pd⟩ :: more) :
    hasTwin m l = true := by
  simp only [hasTwin, hs, List.any_cons, BEq.rfl, Bool.true_or]

theorem stage_empty {m : Mach} (t l : Nat) (img : Img) (pend : Bool) (hs : m.twin.staged = []) :
    (stage m t l img pend).twin = { m.twin with staged := [⟨t, l, img, pend⟩] } := by
  simp only [stage, hs, List.find?_nil, dropFirst, Bool.or_false, List.nil_append]

/-- An image over the copy that stands least recently written goes to the other end, and keeps its pending flag. -/
theorem stage_over {m : Mach} {t l : Nat} {old : Img} {pd : Bool} {more : List Staged} (img : Img) (pend : Bool)
    (hs : m.twin.staged = ⟨t, l, old, pd⟩ :: more) :
    (stage m t l img pend).twin = { m.twin with staged := more ++ [⟨t, l, img, pend || pd⟩] } := by
  simp only [stage, hs, List.find?_cons, dropFirst, BEq.rfl, Bool.and_self, ↓reduceIte]

/-- A twin write stages its image, is acknowledged, and is noticed at its writer. -/
theorem applyStream_twinWrite_twin (m : Mach) (h l : Nat) (img : Img) (pend : Bool) (ack : AckFor) :
    (applyStream m h (.twinWrite l img pend ack)).twin = { (stage m (1 - h / 32) l img pend).twin with
      acks := m.twin.acks ++ [⟨h, l, !hasTwin m l, ack⟩]
      notices := m.twin.notices ++ (ack.notice.filter fun s => s.1 != .none).toList } := by
  simp only [applyStream, stage, count_twin]

section
variable {m : Mach} {h : Fin 64} {l : Nat} {img : Img} {pend : Bool} {ack : AckFor} {rest : List (Nat × Stream)}
  (hs : m.twin.stream = (h.val, .twinWrite l img pend ack) :: rest)
include hs

theorem creditWait_head : creditWait m h = (decide (32768 ≤ stagedOn m (1 - h.val / 32)) &&
    !(m.twin.staged.any fun s => s.sd == 1 - h.val / 32 && s.pln == l)) := by
  simp only [creditWait, streamHead_cons hs]

theorem twinWrite_credited (hc : creditWait m h = false) :
    doTwinWrite h m = applyStream (bridgeMsg (streamLeft m rest) (h.val / 32)) h (.twinWrite l img pend ack) := by
  simp only [doTwinWrite, streamHead_cons hs, hc, streamPop_cons hs, Bool.false_eq_true, ↓reduceIte]

theorem twinWrite_waits (hfull : 32768 ≤ stagedOn m (1 - h.val / 32))
    (hnew : (m.twin.staged.any fun s => s.sd == (1 - h.val / 32) && s.pln == l) = false) : doTwinWrite h m = m := by
  have hc : creditWait m h = true := by simp only [creditWait_head hs, hfull, hnew, decide_true, Bool.not_false, Bool.and_self]
  simp only [doTwinWrite, streamHead_cons hs, hc, ↓reduceIte]

/-- A twin write to an empty log makes its only copy, a new one. -/
theorem twinWrite_first (hst : m.twin.staged = []) (hr : m.twin.recs = []) : (doTwinWrite h m).twin = { m.twin with
      stream := rest
      staged := [⟨1 - h.val / 32, l, img, pend⟩]
      acks := m.twin.acks ++ [⟨h, l, true, ack⟩]
      notices := m.twin.notices ++ (ack.notice.filter fun s => s.1 != .none).toList } := by
  have hc : creditWait m h = false := by
    have hroom : ¬ 32768 ≤ stagedOn m (1 - h.val / 32) := by
      simp only [stagedOn, hst, List.filter_nil, List.length_nil]
      omega
    simp only [creditWait_head hs, hroom, decide_false, Bool.false_and]
  have htwin := bridgeMsg_twin (streamLeft m rest) (h.val / 32)
  rw [twinWrite_credited hs hc, applyStream_twinWrite_twin, stage_empty _ _ _ _ (htwin ▸ hst), hasTwin_empty (htwin ▸ hst) (htwin ▸ hr), htwin]
  rfl

/-- A twin write over a staged copy makes no new one. -/
theorem twinWrite_again {old : Img} {pd : Bool} {more : List Staged} (hst : m.twin.staged = ⟨1 - h.val / 32, l, old, pd⟩ :: more) :
    (doTwinWrite h m).twin = { m.twin with
      stream := rest
      staged := more ++ [⟨1 - h.val / 32, l, img, pend || pd⟩]
      acks := m.twin.acks ++ [⟨h, l, false, ack⟩]
      notices := m.twin.notices ++ (ack.notice.filter fun s => s.1 != .none).toList } := by
  have hc : creditWait m h = false := by
    simp only [creditWait_head hs, hst, List.any_cons, BEq.rfl, Bool.and_self, Bool.true_or, Bool.not_true, Bool.and_false]
  have htwin := bridgeMsg_twin (streamLeft m rest) (h.val / 32)
  have hst' : (bridgeMsg (streamLeft m rest) (h.val / 32)).twin.staged = ⟨1 - h.val / 32, l, old, pd⟩ :: more := htwin ▸ hst
  rw [twinWrite_credited hs hc, applyStream_twinWrite_twin, stage_over _ _ hst', hasTwin_staged hst', htwin]
  rfl

end

/-! ## Acknowledgments and notices (R193) -/

section
variable {m : Mach} {h : Fin 64} {a : TwinAck} {rest : List TwinAck} {r : Req} {res : Nat} (hs : m.twin.acks = a :: rest) (ha : a.h = h.val)
  (hw : a.ack = .write r res)
include hs ha hw

theorem twinAck_new (hn : a.isNew = true) :
    doTwinAck h m = fin (forcedCheck (finc (bridgeMsg { m with twin := { m.twin with acks := rest } } (1 - h.val / 32)) (twnBase (h.val / 32))
      R.TWN_GAUGE_LINES) (h.val / 32)) r none none res := by
  simp only [doTwinAck, hs, ha, hw, hn, List.find?_cons, dropFirst, BEq.rfl, ↓reduceIte, ackDone]

theorem twinAck_over (hn : a.isNew = false) :
    doTwinAck h m = fin (forcedCheck (bridgeMsg { m with twin := { m.twin with acks := rest } } (1 - h.val / 32)) (h.val / 32)) r none none res := by
  simp only [doTwinAck, hs, ha, hw, hn, List.find?_cons, dropFirst, BEq.rfl, Bool.false_eq_true, ↓reduceIte, ackDone]

end

section
variable {m : Mach} {res : Nat} {rest : List (Src × Nat)}

/-- The notice of a host's write is kept in its transaction at the port tile. -/
theorem twinNotice_host {p id : Nat} (hs : m.twin.notices = (.host p id, res) :: rest) :
    doTwinNotice m = { m with
      twin := { m.twin with notices := rest }
      ports := { m.ports with ptt := mapFirst (fun t => t.id == id) (fun t => { t with notice := some res }) m.ports.ptt } } := by
  simp only [doTwinNotice, hs]

theorem twinNotice_amo {e : Nat} (hs : m.twin.notices = (.amo e, res) :: rest) :
    doTwinNotice m = { m with twin := { m.twin with notices := rest, unitNotices := m.twin.unitNotices ++ [(.amo e, res)] } } := by
  simp only [doTwinNotice, hs]

end

/-! ## Evictions from the staging buffer (R194, R196) -/

theorem stagingEviction_below {m : Mach} {t : Fin 2} (hn : stagedOn m t ≤ 30720) : doStagingEviction t m = m := if_pos hn

/-- In an empty array of records the entry takes the first place of its primary bucket. -/
theorem stagingEviction_stores {m : Mach} {t : Fin 2} {s : Staged} (hn : 30720 < stagedOn m t)
    (hs : (m.twin.staged.find? fun x => x.sd == t.val && !x.pending) = some s) (hr : m.twin.recs = []) :
    doStagingEviction t m = count { m with twin := { m.twin with
      staged := dropFirst (fun x => x == s) m.twin.staged
      recs := mput [] (recKey t (buckets m t (lineL s.pln)).1 0) ⟨s.pln, s.img, false⟩ } } (twnBase t) 0x03 := by
  have hfree (k : Nat) : mget ([] : List (Nat × Rec)) k = none := rfl
  have hnone : ((List.range 10).find? fun _ => false) = none := rfl
  have hfirst : ((List.range 10).find? fun _ => true) = some 0 := rfl
  simp only [doStagingEviction, Nat.not_le.mpr hn, hs, hr, hfree, hnone, hfirst, Option.isNone_none, ↓reduceIte]

/-! ## Releases and commits (R198, R200) -/

/-- A message that crosses the bridge and is counted changes no twin copy. -/
theorem hasTwin_crossed (m : Mach) (rest : List (Nat × Stream)) (sd b c n l : Nat) :
    hasTwin (count (bridgeMsg (streamLeft m rest) sd) b c n) l = hasTwin m l := by
  simp only [hasTwin, count_twin, bridgeMsg_twin, streamLeft]

section
variable {m : Mach} {h : Fin 64} {l : Nat} {rest : List (Nat × Stream)} (hs : m.twin.stream = (h.val, .release l) :: rest)
include hs

theorem release_head : doRelease h m = applyStream (bridgeMsg (streamLeft m rest) (h.val / 32)) h (.release l) := by
  simp only [doRelease, streamHead_cons hs, streamPop_cons hs]

theorem release_frees (ht : hasTwin m l = true) :
    doRelease h m = (fun z : Mach => { z with twin := { z.twin with relAcks := z.twin.relAcks ++ [(h.val, l)] } })
      (copyFree (count (bridgeMsg (streamLeft m rest) (h.val / 32)) (twnBase (1 - h.val / 32)) 0x06) (1 - h.val / 32) l) := by
  simp only [release_head hs, applyStream, hasTwin_crossed, ht, Bool.not_true, Bool.false_eq_true, ↓reduceIte]

/-- A release of a line without a copy is counted, and not acknowledged. -/
theorem release_noCopy (ht : hasTwin m l = false) :
    doRelease h m = count (bridgeMsg (streamLeft m rest) (h.val / 32)) (twnBase (1 - h.val / 32)) 0x06 := by
  simp only [release_head hs, applyStream, hasTwin_crossed, ht, Bool.not_false, ↓reduceIte]

end

theorem releaseAck_head {m : Mach} {h : Fin 64} {l : Nat} {rest : List (Nat × Nat)} (hs : m.twin.relAcks = (h.val, l) :: rest) :
    doReleaseAck h m = forcedCheck (fset (bridgeMsg { m with twin := { m.twin with relAcks := rest } } (1 - h.val / 32)) (twnBase (h.val / 32))
      R.TWN_GAUGE_LINES (fget m (twnBase (h.val / 32)) R.TWN_GAUGE_LINES - 1)) (h.val / 32) := by
  simp only [doReleaseAck, hs, List.find?_cons, dropFirst, BEq.rfl, ↓reduceIte, fget_bridgeMsg]
  rfl

theorem commit_head {m : Mach} {h : Fin 64} {l : Nat} {rest : List (Nat × Stream)} (hs : m.twin.stream = (h.val, .commit l) :: rest) :
    doCommit h m = applyStream (bridgeMsg (streamLeft m rest) (h.val / 32)) h (.commit l) := by
  simp only [doCommit, streamHead_cons hs, streamPop_cons hs]

theorem commit_empty {m : Mach} (h : Fin 64) (hs : m.twin.stream = []) : doCommit h m = m := by
  simp only [doCommit, streamHead, hs, List.find?_nil, Option.map_none]

/-! ## The commands' effects -/

theorem exec_mirrorUpdate (h : Fin 64) (s : State) : exec (.mirrorUpdate h) s = act s (doMirrorUpdate h) := by rfl
theorem exec_grantRecordRelease (p : Fin 32) (s : State) : exec (.grantRecordRelease p) s = act s (doGrantRecordRelease p) := by rfl
theorem exec_twinWrite (h : Fin 64) (s : State) : exec (.twinWrite h) s = act s (doTwinWrite h) := by rfl
theorem exec_twinAck (h : Fin 64) (s : State) : exec (.twinAck h) s = act s (doTwinAck h) := by rfl
theorem exec_twinNotice (s : State) : exec .twinNotice s = act s doTwinNotice := by rfl
theorem exec_stagingEviction (t : Fin 2) (s : State) : exec (.stagingEviction t) s = act s (doStagingEviction t) := by rfl
theorem exec_release (h : Fin 64) (s : State) : exec (.release h) s = act s (doRelease h) := by rfl
theorem exec_releaseAck (h : Fin 64) (s : State) : exec (.releaseAck h) s = act s (doReleaseAck h) := by rfl
theorem exec_commit (h : Fin 64) (s : State) : exec (.commit h) s = act s (doCommit h) := by rfl

end Sys2Proof.Machine
end

section
/-! The settling of O42. -/

open Sys2Proof Sys2Proof.Machine

/-- Settles O42: the message that stands first in a slice's stream is taken from it (`streamPop_cons`) and applied at the twin side. -/
theorem twinWritesAndMirrors : Obligations.TwinWritesAndMirrors := by
  unfold Obligations.TwinWritesAndMirrors
  refine ⟨?_, ?_, ?_, ?_, ?_, ?_, ?_, ?_, ?_, ?_, ?_, ?_, ?_, ?_, ?_, ?_, ?_⟩
  · intro h k e g rest q m hs
    exact leads_eq (exec_mirrorUpdate ..) (mirrorUpdate_head hs)
  · intro p l rest q m hs hh
    exact leads_eq (exec_grantRecordRelease ..) (grantRecordRelease_noneHeld hs hh)
  · intro p l rest d ds id q m hs hh hd
    exact leads_eq (exec_grantRecordRelease ..) (grantRecordRelease_held hs hh hd)
  · intro h l img pend ack rest q m hs hst hr
    refine ⟨doTwinWrite h m, leads_act (exec_twinWrite ..), ?_⟩
    simp only [twinWrite_first hs hst hr, and_self]
  · intro h l img old pend pd ack more rest q m hs hst
    refine ⟨doTwinWrite h m, leads_act (exec_twinWrite ..), ?_⟩
    simp only [twinWrite_again hs hst, and_self]
  · intro h l img pend ack rest q m hs hfull hnew
    exact leads_eq (exec_twinWrite ..) (twinWrite_waits hs hfull hnew)
  · rintro h a rest r res _ q m hs ha hn hw rfl
    exact leads_eq (exec_twinAck ..) (twinAck_new hs ha hw hn)
  · intro h a rest r res q m hs ha hn hw
    exact leads_eq (exec_twinAck ..) (twinAck_over hs ha hw hn)
  · intro p id res rest q m hs
    exact leads_eq (exec_twinNotice ..) (twinNotice_host hs)
  · intro e res rest q m hs
    exact leads_eq (exec_twinNotice ..) (twinNotice_amo hs)
  · intro t q m hn
    exact leads_eq (exec_stagingEviction ..) (stagingEviction_below hn)
  · intro t s q m hn hs hr
    exact leads_eq (exec_stagingEviction ..) (stagingEviction_stores hn hs hr)
  · intro h l rest q m hs ht
    exact leads_eq (exec_release ..) (release_frees hs ht)
  · intro h l rest q m hs ht
    exact leads_eq (exec_release ..) (release_noCopy hs ht)
  · rintro h l rest _ q m hs rfl
    exact leads_eq (exec_releaseAck ..) (releaseAck_head hs)
  · intro h l rest q m hs
    exact leads_eq (exec_commit ..) (commit_head hs)
  · intro h q m hs
    exact leads_eq (exec_commit ..) (commit_empty h hs)

end

section
/-! SUPPORT. Clean requests, release checks, the cleaner, the twin drain, twin lookups and twin searches (R139, R196, R197, R202, R211, R393, R394). -/

namespace Sys2Proof.Machine

/-! ## The count of spills and what finds a line (R196) -/

/-- The machine after a spill of side `sd` is counted. -/
def spillCounted (m : Mach) (sd : Nat) : Mach := fsat m (twnBase sd) R.TWN_GAUGE_SPILLS

/-- The count of spills stands in a twin block. -/
theorem fget_spillCounted (m : Mach) (sd : Nat) {b : Nat} {f : Fld} (h : fkey b f / 8 % 0x800000 < 0xE0000 ∨ 0xF0000 ≤ fkey b f / 8 % 0x800000) :
    fget (spillCounted m sd) b f = fget m b f := by
  refine fget_fset_other _ _ _ _ _ _ ?_
  unfold fkey at h
  simp only [twnBase, sideBase, R.TWN_GAUGE_SPILLS]
  omega

section
variable (m : Mach) (sd : Nat)

theorem taken_spillCounted (l : Nat) : taken (spillCounted m sd) l = taken m l := by
  have hup (s : Nat) : sideUp (spillCounted m sd) s = sideUp m s := by
    unfold sideUp
    rw [fget_spillCounted m sd (.inl (by decide))]
  have hhalf : halfOf (spillCounted m sd) l = halfOf m l := rfl
  have htwin : (spillCounted m sd).twin = m.twin := rfl
  have hslice : sliceIn (spillCounted m sd) (lineL l) = sliceIn m (lineL l) := rfl
  simp only [taken, servingSide, hup, hhalf, htwin, hslice]

theorem cached_spillCounted (h l : Nat) : cached (spillCounted m sd) h l = cached m h l := by
  have hstate : fget (spillCounted m sd) (hsBase h) R.HS_STATUS_STATE = fget m (hsBase h) R.HS_STATUS_STATE :=
    fget_spillCounted m sd (.inl (by simp only [fkey, hsBase, sideBase, R.HS_STATUS_STATE]; omega))
  simp only [cached, hstate, taken_spillCounted]

theorem hgFind_spillCounted (h l : Nat) : hgFind (spillCounted m sd) h l = hgFind m h l := by
  unfold hgFind
  rw [cached_spillCounted]
  rfl

theorem heldImg_spillCounted (h l : Nat) : heldImg (spillCounted m sd) h l = heldImg m h l := by
  have hwb : wbOf (spillCounted m sd) h l = wbOf m h l := rfl
  simp only [heldImg, hgFind_spillCounted, hwb]

theorem usable_spillCounted (s i : Nat) : usable (spillCounted m sd) s i = usable m s i := by
  have hctl {k : Nat} {f : Fld} (hf : f.off + f.lo / 8 < 0x1000) : fget (spillCounted m sd) (rsvBase k) f = fget m (rsvBase k) f :=
    fget_spillCounted m sd (.inl (by simp only [fkey, rsvBase, sideBase]; omega))
  have hrange : fget (spillCounted m sd) (rgeBase (4 * s)) R.RGE_CSTAT_RS = fget m (rgeBase (4 * s)) R.RGE_CSTAT_RS :=
    fget_spillCounted m sd (.inl (by simp only [fkey, rgeBase, sideBase, R.RGE_CSTAT_RS]; omega))
  have hbars (k b : Nat) : bankBarred (spillCounted m sd) k (idxPc i) b = bankBarred m k (idxPc i) b := by
    have hpc : idxPc i < 32 := Nat.mod_lt _ (by decide)
    unfold bankBarred
    rw [fget_spillCounted m sd (.inl (by simp only [fkey, rsvBase, sideBase, R.RSV_BANKBAR_BARS]; omega))]
  have hmove (k pc frame : Nat) : moving (spillCounted m sd) k pc frame = moving m k pc frame := rfl
  have hrsv : (spillCounted m sd).rsv = m.rsv := rfl
  simp only [usable, rsvState, hctl (f := R.RSV_STATUS_STATE) (by decide), hctl (f := R.RSV_STATUS_SWEEP_PTR) (by decide), hrange, hbars, hmove, hrsv]

theorem fget_loop_spillCounted (s : Nat) {f : Fld} (hf : f.off + f.lo / 8 < 0x10000) :
    fget (spillCounted m sd) (lvlBase s) f = fget m (lvlBase s) f :=
  fget_spillCounted m sd (.inr (by simp only [fkey, lvlBase, sideBase]; omega))

theorem epochOf_spillCounted (s : Nat) : epochOf (spillCounted m sd) s = epochOf m s := fget_loop_spillCounted m sd s (by decide)

theorem rekeying_spillCounted (s : Nat) : rekeying (spillCounted m sd) s = rekeying m s := by
  unfold rekeying
  rw [fget_loop_spillCounted m sd s (by decide)]

theorem swept_spillCounted (s l : Nat) : swept (spillCounted m sd) s l = swept m s l := by
  unfold swept
  rw [epochOf_spillCounted, fget_loop_spillCounted m sd s (by decide)]
  rfl

theorem slotHits_spillCounted (s ep l : Nat) : slotHits (spillCounted m sd) s ep l = slotHits m s ep l := by
  have hholds : slotHolds (spillCounted m sd) s ep l = slotHolds m s ep l := rfl
  simp only [slotHits, usable_spillCounted, hholds]

theorem findSlot_spillCounted (s l : Nat) : findSlot (spillCounted m sd) s l = findSlot m s l := by
  simp only [findSlot, epochOf_spillCounted, rekeying_spillCounted, swept_spillCounted, slotHits_spillCounted]

theorem dirtyImg_spillCounted (r : Mshr) : dirtyImg (spillCounted m sd) r = dirtyImg m r := by
  have htwin : (spillCounted m sd).twin = m.twin := rfl
  simp only [dirtyImg, hgFind_spillCounted, heldImg_spillCounted, taken_spillCounted, findSlot_spillCounted, htwin]

end

/-! ## Notes between homes (R139, R196, R197) -/

/-- The machine with `rest` in place of the homes' notes. -/
def notesLeft (m : Mach) (rest : List HomeNote) : Mach := { m with home := { m.home with notes := rest } }

theorem popNote_cons {m : Mach} {h l : Nat} {sel : HomeNote → Option (Nat × Nat)} {n : HomeNote} {rest : List HomeNote}
    (hs : m.home.notes = n :: rest) (hn : sel n = some (h, l)) : popNote h sel m = some (l, notesLeft m rest) := by
  simp only [popNote, notesLeft, hs, hn, List.find?_cons, dropFirst, BEq.rfl, ↓reduceIte]

theorem dirtyImg_notesLeft (m : Mach) (rest : List HomeNote) (r : Mshr) : dirtyImg (notesLeft m rest) r = dirtyImg m r := by rfl

/-- A clean request for a dirty line queues its image for the sled, and counts the spill. -/
theorem cleanRequest_dirty {m : Mach} {h : Fin 64} {l : Nat} {rest : List HomeNote} {img : Img} (hs : m.home.notes = .cleanReq h l :: rest)
    (hd : dirtyImg m (freshMshr h { op := .maint .clean none, src := .none, pln := l, data := 0, mask := 0, poison := false }) = some img) :
    doCleanRequest h m = twQueue (spillCounted (notesLeft m rest) (h.val / 32)) (h.val / 32) l img fullMask [.cleanWay h img] .other := by
  have himg := ((dirtyImg_spillCounted (notesLeft m rest) (h.val / 32) _).trans (dirtyImg_notesLeft ..)).trans hd
  unfold spillCounted at himg
  simp only [doCleanRequest]
  rw [popNote_cons hs rfl]
  simp only [himg, spillCounted]

/-! ## Release checks (R139, R197) -/

theorem twinned_count (m : Mach) (b c n l : Nat) : twinned (count m b c n) l = twinned m l := count_same (twinned · l) (fun _ _ _ _ => rfl) m b c n

theorem twinned_dcTouch (m : Mach) (h half set : Nat) (d : Bool) (l : Nat) : twinned (dcTouch m h half set d) l = twinned m l := by
  unfold dcTouch
  extract_lets
  split <;> rfl

/-- A directory entry that changes decides nothing about twin writes. -/
theorem twinned_dirPut (m : Mach) (h pln w : Nat) (e : Option DirEnt) (g : Option (Nat × Nat)) (l : Nat) :
    twinned (dirPut m h pln w e g) l = twinned m l := by
  unfold dirPut
  extract_lets half key home m1 m2
  have h2 : twinned m2 l = twinned m l := twinned_dcTouch ..
  split
  · exact h2
  · exact h2

theorem dirtyAtHome_notesLeft (m : Mach) (rest : List HomeNote) (h l : Nat) : dirtyAtHome (notesLeft m rest) h l = dirtyAtHome m h l := by rfl

theorem noDirtyCopy_notesLeft {m : Mach} {h l : Nat} (rest : List HomeNote) (hd : dirtyAtHome m h l = false) (ht : m.tw = []) :
    (dirtyAtHome (notesLeft m rest) h l || (notesLeft m rest).tw.any fun e => e.pln == l) = false := by
  have htw : (notesLeft m rest).tw = [] := ht
  rw [dirtyAtHome_notesLeft, hd, htw]
  rfl

section
variable {m : Mach} {h : Fin 64} {l : Nat} {rest : List HomeNote} (hs : m.home.notes = .relCheck h l :: rest)
include hs

/-- A check that finds a dirty copy only counts: the line may still be written from it. -/
theorem releaseCheck_dirty (hd : dirtyAtHome m h l = true) :
    doReleaseCheck h m = count (notesLeft m rest) (twnBase (h.val / 32)) 0x07 := by
  simp only [doReleaseCheck]
  rw [popNote_cons hs rfl]
  simp only [dirtyAtHome_notesLeft, hd, Bool.true_or, ↓reduceIte]

section
variable (hd : dirtyAtHome m h l = false) (ht : m.tw = []) (htw : twinned m l = true)
include hd ht htw

theorem releaseCheck_noEntry (he : dirFind m (halfOf m l) (lineL l) = none) :
    doReleaseCheck h m = streamPut (notesLeft m rest) h (.release l) := by
  have he' : dirFind (notesLeft m rest) (halfOf (notesLeft m rest) l) (lineL l) = none := he
  have htw' : twinned (notesLeft m rest) l = true := htw
  simp only [doReleaseCheck]
  rw [popNote_cons hs rfl]
  simp only [noDirtyCopy_notesLeft rest hd ht, he', htw', Bool.false_eq_true, ↓reduceIte]

theorem releaseCheck_owned {w : Nat} {e : DirEnt} (he : dirFind m (halfOf m l) (lineL l) = some (w, e)) (ho : e.st = .o) :
    doReleaseCheck h m =
      streamPut (count (dirPut (notesLeft m rest) h l w (some { e with st := .s }) none) (hsBase h) 0x3F) h (.release l) := by
  have he' : dirFind (notesLeft m rest) (halfOf (notesLeft m rest) l) (lineL l) = some (w, e) := he
  have htw' : twinned (notesLeft m rest) l = true := htw
  simp only [doReleaseCheck]
  rw [popNote_cons hs rfl]
  simp only [noDirtyCopy_notesLeft rest hd ht, he', ho, twinned_count, twinned_dirPut, htw', BEq.rfl, Bool.false_eq_true, ↓reduceIte]

end
end

/-! ## The cleaner (R202) -/

theorem cleanerSlot_off {m : Mach} {sd : Fin 2} (hc : fon m (twnBase sd) R.TWN_GAUGE_CLEANING = false)
    (hf : fon m (twnBase sd) R.TWN_GAUGE_FORCED = false) (he : m.twin.entering = false) : doCleanerSlot sd m = m := by
  simp only [doCleanerSlot, hc, hf, he, Bool.not_false, Bool.and_self, ↓reduceIte]

/-- The machine with the cleaner of side `sd` past slot `i`. -/
def cleanerPast (m : Mach) (sd i : Nat) : Mach :=
  { m with rsv := { m.rsv with cleanPtr := sset 0 m.rsv.cleanPtr sd ((i + 1) % 2 ^ 31) } }

/-- A Dirty slot whose line the tailwater buffer can take goes to the sled, and stays Clean. -/
theorem cleanerSlot_dirty {m y : Mach} {sd : Fin 2} {i l : Nat} {s : Slot} (hc : fon m (twnBase sd) R.TWN_GAUGE_CLEANING = true)
    (hi : i = sget 0 m.rsv.cleanPtr sd) (hy : y = cleanerPast m sd i) (hu : usable y sd i = true) (hs : slotAt y sd i = some s) (hst : s.st = .dirty)
    (hl : l = plnOf y sd (slotLine y sd i s)) (ht : takePending y sd l = false) (hr : repairHeld y l = false) (hw : twMustWait y sd l = false) :
    doCleanerSlot sd m = setSlot (twTake (count (slotCmds y sd i 2) (twnBase sd) 0x08) sd l ⟨s.data, false⟩ fullMask []) sd i
      (some { s with st := .clean }) := by
  have hclean : (s.st == .clean) = false := by rw [hst]; rfl
  have hpois : (s.st == .poisoned) = false := by rw [hst]; rfl
  have hdirty : (s.st == .dirty) = true := by rw [hst]; rfl
  unfold cleanerPast at hy
  simp only [doCleanerSlot, hc, ← hi, ← hy, hu, hs, ← hl, ht, hr, hw, hclean, hpois, hdirty, Bool.not_true, Bool.false_and, Bool.or_self,
    Bool.false_eq_true, ↓reduceIte]

/-! ## The twin drain (R211) -/

section
variable {m : Mach} {sd : Fin 2}

theorem twinDrainWrite_notDraining (h : fget m (twnBase sd) R.TWN_LOG_STATE ≠ 2) : doTwinDrainWrite sd m = m := if_pos (bne_iff_ne.mpr h)

/-- A staged copy of which no write is under way is written to its sled. -/
theorem twinDrainWrite_staged {s : Staged} {rest : List Staged} (h : fget m (twnBase sd) R.TWN_LOG_STATE = 2) (ht : m.tw = []) (hi : m.twIn = [])
    (hm : m.home.mshrs = []) (hst : m.twin.staged = s :: rest) (hs : s.sd = sd.val) (hp : s.pending = false) :
    doTwinDrainWrite sd m = twQueue (count m (twnBase sd) 0x0B) sd s.pln s.img fullMask [.drain sd] .other := by
  simp only [doTwinDrainWrite, h, ht, hi, hm, hst, hs, hp, List.filter_cons, List.any_nil, Bool.or_self, BEq.rfl, bne_self_eq_false, Bool.not_false,
    Bool.and_self, Bool.false_eq_true, ↓reduceIte]

theorem twinDrainWrite_empty (h : fget m (twnBase sd) R.TWN_LOG_STATE = 2) (hst : m.twin.staged = []) (hr : m.twin.recs = []) :
    doTwinDrainWrite sd m = fset m (twnBase sd) R.TWN_LOG_STATE 0 := by
  simp only [doTwinDrainWrite, h, hst, hr, stagedOn, recsOn, List.filter_nil, List.find?_nil, List.length_nil, Nat.add_zero, BEq.rfl, bne_self_eq_false,
    Bool.false_eq_true, ↓reduceIte]

end

/-! ## Twin lookups (R393, Table 15-4) -/

theorem twinLookup_head {m : Mach} {h : Fin 64} {l : Nat} {w : Repair} {rest : List (Nat × Stream)}
    (hs : m.twin.stream = (h.val, .lookup l w) :: rest) : doTwinLookup h m = repairApply (streamLeft m rest) l w := by
  simp only [doTwinLookup, streamHead_cons hs, streamDrop_cons hs]
  rfl

section
variable {m : Mach} {l sd i : Nat} {s : Slot} (hs : slotAt m sd i = some s) (hst : s.st = .dirty) (hl : plnOf m sd (slotLine m sd i s) = l)
include hs hst hl

/-- A Dirty slot that still holds the line is mended with the image of the twin copy. -/
theorem repairApply_slot {g : Img} (hg : repairImg m l = some g) :
    repairApply m l (.slot sd i) = err (setSlot m sd i (some { s with data := g.data, st := stateOf true g.poison }))
      { slotErr 0 sd i l with repaired := true, action := 2 } := by
  simp only [repairApply, hg, hs, hst, hl, BEq.rfl, Bool.and_self, ↓reduceIte]
  rfl

/-- Without a twin copy the line goes to its sled poisoned, and its slot is freed. -/
theorem repairApply_slot_noCopy (hg : repairImg m l = none) :
    repairApply m l (.slot sd i) = err (twQueue (setSlot m sd i none) sd l ⟨s.data, true⟩ fullMask [] .other)
      { slotErr 1 sd i l with poisoned := true, action := 3 } := by
  simp only [repairApply, repairPoison, hg, hs, hst, hl, BEq.rfl, Bool.and_self, ↓reduceIte]
  rfl

end

/-- What mends a place reads nothing of the streams. -/
theorem repair_reads_streamLeft (m : Mach) (rest : List (Nat × Stream)) (l sd i : Nat) (s : Slot) :
    repairImg (streamLeft m rest) l = repairImg m l ∧ slotAt (streamLeft m rest) sd i = slotAt m sd i ∧
      plnOf (streamLeft m rest) sd (slotLine (streamLeft m rest) sd i s) = plnOf m sd (slotLine m sd i s) := ⟨rfl, rfl, rfl⟩

section
variable {m : Mach} {h : Fin 64} {l sd i : Nat} {s : Slot} {rest : List (Nat × Stream)}
  (hs : m.twin.stream = (h.val, .lookup l (.slot sd i)) :: rest) (hat : slotAt m sd i = some s) (hst : s.st = .dirty)
  (hl : plnOf m sd (slotLine m sd i s) = l)
include hs hat hst hl

theorem twinLookup_mends {g : Img} (hg : repairImg m l = some g) :
    doTwinLookup h m = err (setSlot (streamLeft m rest) sd i (some { s with data := g.data, st := stateOf true g.poison }))
      { slotErr 0 sd i l with repaired := true, action := 2 } := by
  obtain ⟨himg, hslot, hline⟩ := repair_reads_streamLeft m rest l sd i s
  exact (twinLookup_head hs).trans (repairApply_slot (hslot.trans hat) hst (hline.trans hl) (himg.trans hg))

theorem twinLookup_poisons (hg : repairImg m l = none) :
    doTwinLookup h m = err (twQueue (setSlot (streamLeft m rest) sd i none) sd l ⟨s.data, true⟩ fullMask [] .other)
      { slotErr 1 sd i l with poisoned := true, action := 3 } := by
  obtain ⟨himg, hslot, hline⟩ := repair_reads_streamLeft m rest l sd i s
  exact (twinLookup_head hs).trans (repairApply_slot_noCopy (hslot.trans hat) hst (hline.trans hl) (himg.trans hg))

end

/-! ## Twin searches (R394) -/

theorem twinSearch_head {m : Mach} {h : Fin 64} {g : Target} {rest : List (Nat × Stream)} (hs : m.twin.stream = (h.val, .search g) :: rest) :
    doTwinSearch h m = searchJoin (streamLeft m rest) h g := by
  simp only [doTwinSearch, streamHead_cons hs, streamDrop_cons hs]
  rfl

/-- With fewer than 16 targets in all, no side has 16. -/
theorem searchJoin_room {m : Mach} (h : Nat) (t : Target) (hn : m.ras.targets.length < 16) :
    searchJoin m h t = { m with ras := { m.ras with targets := m.ras.targets ++ [t] } } :=
  if_pos (Nat.lt_of_le_of_lt (List.length_filter_le ..) hn)

/-- A target beyond the 16 of its side forces the failover of that side. -/
theorem searchJoin_full {m : Mach} {h : Nat} (t : Target) (ht : m.ras.targets = (List.range 16).map (Target.slot (h / 32))) :
    searchJoin m h t = failLater (err (fsat m aonBase R.ERR_SUM_SRCHFULL) { errOf 2 0x07 0x17 (h / 32) with action := 31 }) (h / 32) 2 := by
  unfold searchJoin
  extract_lets sd on
  have hall : m.ras.targets.filter on = m.ras.targets := by
    refine List.filter_eq_self.mpr fun x hx => ?_
    rw [ht] at hx
    obtain ⟨i, -, rfl⟩ := List.mem_map.mp hx
    exact beq_self_eq_true sd
  have hfull : ¬ (m.ras.targets.filter on).length < 16 := by
    rw [hall, ht, List.length_map, List.length_range]
    decide
  exact if_neg hfull

/-! ## The commands' effects -/

theorem exec_cleanRequest (h : Fin 64) (s : State) : exec (.cleanRequest h) s = act s (doCleanRequest h) := by rfl
theorem exec_releaseCheck (h : Fin 64) (s : State) : exec (.releaseCheck h) s = act s (doReleaseCheck h) := by rfl
theorem exec_cleanerSlot (sd : Fin 2) (s : State) : exec (.cleanerSlot sd) s = act s (doCleanerSlot sd) := by rfl
theorem exec_twinDrainWrite (sd : Fin 2) (s : State) : exec (.twinDrainWrite sd) s = act s (doTwinDrainWrite sd) := by rfl
theorem exec_twinLookup (h : Fin 64) (s : State) : exec (.twinLookup h) s = act s (doTwinLookup h) := by rfl
theorem exec_twinSearch (h : Fin 64) (s : State) : exec (.twinSearch h) s = act s (doTwinSearch h) := by rfl

end Sys2Proof.Machine
end

section
/-! The settling of O43. -/

open Sys2Proof Sys2Proof.Machine

/-- Settles O43: the count of spills changes nothing that finds the dirty line (`dirtyImg_spillCounted`), and the directory entry that a release check
changes decides nothing about the release (`twinned_dirPut`). -/
theorem twinCleaningDrainAndRepair : Obligations.TwinCleaningDrainAndRepair := by
  unfold Obligations.TwinCleaningDrainAndRepair
  refine ⟨?_, ?_, ?_, ?_, ?_, ?_, ?_, ?_, ?_, ?_, ?_, ?_, ?_⟩
  · rintro h l rest img _ q m hs hd rfl
    exact leads_eq (exec_cleanRequest ..) (cleanRequest_dirty hs hd)
  · intro h l rest q m hs hd
    exact leads_eq (exec_releaseCheck ..) (releaseCheck_dirty hs hd)
  · intro h l rest q m hs hd ht he htw
    exact leads_eq (exec_releaseCheck ..) (releaseCheck_noEntry hs hd ht htw he)
  · intro h l rest w e q m hs hd ht he ho htw
    exact leads_eq (exec_releaseCheck ..) (releaseCheck_owned hs hd ht htw he ho)
  · intro sd q m hc hf he
    exact leads_eq (exec_cleanerSlot ..) (cleanerSlot_off hc hf he)
  · intro sd i s y l q m hc hi hy hu hs hst hl ht hr hw
    exact leads_eq (exec_cleanerSlot ..) (cleanerSlot_dirty hc hi hy hu hs hst hl ht hr hw)
  · intro sd q m h
    exact leads_eq (exec_twinDrainWrite ..) (twinDrainWrite_notDraining h)
  · intro sd s rest q m h ht hi hm hst hs hp
    exact leads_eq (exec_twinDrainWrite ..) (twinDrainWrite_staged h ht hi hm hst hs hp)
  · intro sd q m h hst hr
    exact leads_eq (exec_twinDrainWrite ..) (twinDrainWrite_empty h hst hr)
  · intro h l sd i g s rest q m hs hg hat hst hl
    exact leads_eq (exec_twinLookup ..) (twinLookup_mends hs hat hst hl hg)
  · intro h l sd i s rest q m hs hg hat hst hl
    exact leads_eq (exec_twinLookup ..) (twinLookup_poisons hs hat hst hl hg)
  · intro h i rest q m hs hn
    exact leads_eq (exec_twinSearch ..) ((twinSearch_head hs).trans (searchJoin_room _ _ hn))
  · rintro h i _ rest q m hs ht rfl
    exact leads_eq (exec_twinSearch ..) ((twinSearch_head hs).trans (searchJoin_full _ ht))

end

section
/-! SUPPORT. Reports and control reads leave the engines as they are (R30, R267, R404). -/

namespace Sys2Proof.Machine

@[simp] theorem fsat_eng (m : Mach) (b : Nat) (f : Fld) (n : Nat) : (fsat m b f n).eng = m.eng := fset_eng ..

@[simp] theorem count_eng (m : Mach) (b c n : Nat) : (count m b c n).eng = m.eng := count_same Mach.eng cntPut_eng m b c n

@[simp] theorem forN_fset_eng (n : Nat) (b : Nat → Nat) (f : Fld) (v : Nat → Mach → Nat) (m : Mach) :
    (forN n (fun i m => fset m (b i) f (v i m)) m).eng = m.eng := forN_same Mach.eng (fun _ _ => fset_eng ..) n m

@[simp] theorem soakErr_eng (m : Mach) (e : Err) : (soakErr m e).eng = m.eng := by
  rcases soakErr_eq m e with h | h <;> rw [h]

@[simp] theorem logRecord_eng (m : Mach) (w : Nat) (ws : List Nat) : (logRecord m w ws).eng = m.eng := by
  simp [logRecord, logWrite, logFlush, apply_ite Mach.eng]

@[simp] theorem errWrite_eng (m : Mach) (e : Err) (n : Nat) : (errWrite m e n).eng = m.eng := by
  simp [errWrite, apply_ite Mach.eng]

@[simp] theorem err_eng (m : Mach) (e : Err) : (err m e).eng = m.eng := by
  simp [err, apply_ite Mach.eng]

@[simp] theorem resultPop_eng (m : Mach) (q : Nat) : (resultPop m q).eng = m.eng := by
  unfold resultPop
  split <;> rfl

@[simp] theorem rcClear_eng (b : Nat) (m : Mach) (fs : List Fld) : (rcClear b m fs).eng = m.eng := by
  induction fs generalizing m with
  | nil => rfl
  | cons f fs ih => rw [rcClear, ih]; split <;> rfl

/-- A control read changes fields, result queues and the count of open values, and nothing of an engine. -/
theorem ctlRead_eng (a : Nat) (m : Mach) : (ctlRead a m).2.eng = m.eng := by
  unfold ctlRead
  split
  case h_1 => rfl
  split
  case h_1 => rfl
  dsimp only
  split
  case isTrue => rfl
  split
  case isTrue => rfl
  split
  case h_1 => rfl
  split
  case isTrue => rfl
  simp [apply_ite Mach.eng]

theorem greg_eq_of_eng {m m' : Mach} (h : m'.eng = m.eng) (e r : Nat) : greg m' e r = greg m e r := by
  simp [greg, h]

theorem scrGet_eq_of_eng {m m' : Mach} (h : m'.eng = m.eng) (e n a : Nat) : scrGet m' e n a = scrGet m e n a := by
  induction n generalizing a with
  | zero => rfl
  | succ n ih => rw [scrGet, scrGet, h, ih]

@[simp] theorem scrGet_fsat (m : Mach) (b : Nat) (f : Fld) (k e n a : Nat) : scrGet (fsat m b f k) e n a = scrGet m e n a :=
  scrGet_eq_of_eng (fsat_eng ..) e n a

@[simp] theorem scrGet_err (m : Mach) (x : Err) (e n a : Nat) : scrGet (err m x) e n a = scrGet m e n a := scrGet_eq_of_eng (err_eng ..) e n a

@[simp] theorem greg_ctlRead (a : Nat) (m : Mach) (e r : Nat) : greg (ctlRead a m).2 e r = greg m e r := greg_eq_of_eng (ctlRead_eng a m) e r

end Sys2Proof.Machine
end

section
/-! SUPPORT. POST, RDCW and HALT at an engine that stands at their word (R268, R307 to R309). -/

namespace Sys2Proof.Machine

section
variable {m : Mach} {e rd ra rb n : Fin 32}

theorem postable_iff {s : Nat} : postable s = true ↔ s ≤ 5 ∨ 0x40 ≤ s ∧ s ≤ 0x7E := by
  simp [postable]

/-- The first result of a call has its reservation, so it does not wait for room. -/
theorem post_first (hw : atWord m e (encX 0x30 0 ra rb 0) = true) {id : Nat} {c : Call} (hsb : (engOf m e).sb = []) (hc : (engOf m e).call = some id)
    (hcall : callOf m id = some c) (hf : c.first = true) (hs : postable ((greg m e rb).toNat % 128) = true) :
    doPost e ra rb m = retire (resSend (callPut m { c with first := false, posted := true }) c (c.notify && !c.posted)
      ((greg m e rb).toNat % 128) ((greg m e ra).toNat % 2 ^ 40)) e := by
  simp [doPost, issue_at hw, hs, hsb, hc, hcall, hf]

theorem post_unlisted (hw : atWord m e (encX 0x30 0 ra rb 0) = true) (hs : ¬ postable ((greg m e rb).toNat % 128) = true) :
    doPost e ra rb m = trapNow m e .illegal 0 := by
  simp [doPost, issue_at hw, hs]

theorem rdcw_open (hw : atWord m e (encX 0x31 rd n 0 0) = true) (hn : n.val = 0 ∨ n.val = 7) :
    doRdcw e rd n m = retireRd e rd (BitVec.ofNat 64 (drawn m)) (draw m) := by
  refine (issue_at hw _).trans ?_
  rcases hn with hn | hn <;> simp only [hn]

theorem rdcw_noLimit (hw : atWord m e (encX 0x31 rd 5 0 0) = true) (hl : (engOf m e).limit = none) :
    doRdcw e rd 5 m = retireRd e rd (BitVec.allOnes 64) m := by
  refine (issue_at hw _).trans ?_
  simp only [hl]
  rfl

theorem rdcw_limit (hw : atWord m e (encX 0x31 rd 5 0 0) = true) {l : Nat} (hl : (engOf m e).limit = some l) :
    doRdcw e rd 5 m = retireRd e rd (BitVec.ofNat 64 ((engOf m e).start + l - m.timeUs)) m := by
  refine (issue_at hw _).trans ?_
  simp only [hl]
  rfl

/-- With an empty store buffer and no handle nothing holds HALT back. -/
theorem halt_ends (hw : atWord m e (encA 0x3F 0 0 0 5) = true) {id : Nat} {c : Call} (hsb : (engOf m e).sb = []) (hh : (engOf m e).handles = [])
    (hc : (engOf m e).call = some id) (hcall : callOf m id = some c) :
    doHalt e m = callEnd (count (sampleCount (count m (seBase (engSide e)) 3) 1 e (if (engOf m e).queue == 0 then some (engOf m e).port else none))
      (seBase (engSide e)) 5) e .idle (if c.posted then none else some (0, 0)) := by
  simp [doHalt, issue_at hw, hsb, hh, hc, hcall]

end

/-! ## The commands' effects -/

theorem exec_post (e ra rb : Fin 32) (s : State) : exec (.post e ra rb) s = act s (doPost e ra rb) := by rfl
theorem exec_rdcw (e rd n : Fin 32) (s : State) : exec (.rdcw e rd n) s = act s (doRdcw e rd n) := by rfl
theorem exec_fenceSl (e : Fin 32) (s : State) : exec (.fenceSl e) s = act s (doFenceSl e) := by rfl
theorem exec_trap (e : Fin 32) (s : State) : exec (.trap e) s = act s (doTrap e) := by rfl
theorem exec_yield (e : Fin 32) (s : State) : exec (.yield_ e) s = act s (doYield e) := by rfl
theorem exec_halt (e : Fin 32) (s : State) : exec (.halt e) s = act s (doHalt e) := by rfl
theorem exec_illegalOpcode (e : Fin 32) (s : State) : exec (.illegalOpcode e) s = act s (doIllegalOpcode e) := by rfl

end Sys2Proof.Machine
end

section
/-! The settling of O16. -/

open Sys2Proof Sys2Proof.Machine

/-- Settles O16: each instruction is issued at its word (`issue_at`); the first POST of a call waits for no room (`post_first`), and a word that the
tables do not list is no other instruction's. -/
theorem serviceAndSystem : Obligations.ServiceAndSystem := by
  unfold Obligations.ServiceAndSystem
  refine ⟨?_, ?_, ?_, ?_, ?_, ?_, ?_, ?_, ?_, ?_, ?_, ?_, ?_, ?_, ?_, ?_⟩
  · rintro e ra rb id c _ q m hw hsb hc hcall hf rfl hs
    exact leads_eq (exec_post ..) (post_first hw hsb hc hcall hf (postable_iff.mpr hs))
  · rintro e ra rb _ q m hw rfl hs
    exact leads_eq (exec_post ..) (post_unlisted hw (mt postable_iff.mp (by omega)))
  · exact fun e rd q m hw => leads_eq (exec_rdcw ..) (issue_at hw _)
  · exact fun e rd q m hw => leads_eq (exec_rdcw ..) (issue_at hw _)
  · exact fun e rd q m hw => leads_eq (exec_rdcw ..) (issue_at hw _)
  · exact fun e rd q m hw => leads_eq (exec_rdcw ..) (issue_at hw _)
  · exact fun e rd q m hw => leads_eq (exec_rdcw ..) (issue_at hw _)
  · exact fun e rd q m hw => leads_eq (exec_rdcw ..) (issue_at hw _)
  · exact fun e rd n q m hw hn => leads_eq (exec_rdcw ..) (rdcw_open hw hn)
  · exact fun e rd q m hw hl => leads_eq (exec_rdcw ..) (rdcw_noLimit hw hl)
  · exact fun e rd l q m hw hl => leads_eq (exec_rdcw ..) (rdcw_limit hw hl)
  · exact fun e q m hw => leads_eq (exec_fenceSl ..) (issue_at hw _)
  · exact fun e q m hw => leads_eq (exec_trap ..) (issue_at hw _)
  · exact fun e q m hw => leads_eq (exec_yield ..) (issue_at hw _)
  · exact fun e id c q m hw hsb hh hc hcall => leads_eq (exec_halt ..) (halt_ends hw hsb hh hc hcall)
  · exact fun e w q m hw hl => leads_eq (exec_illegalOpcode ..) (issueIf_at hw (by simp [hl]) _)

end

section
/-! SUPPORT. Loads, stores and their buffer, and atomics at an engine that stands at their word (R181 to R187, R282, R283, R287 to R289, R511). -/

namespace Sys2Proof.Machine

/-! ## The checks of an access -/

section
variable {m : Mach} {e a n : Nat} {k : Mach → Mach}

/-- A pool access of a keeper call inside an online pool passes its checks. -/
theorem poolChecked_keeper (hr : a + n ≤ 2 ^ 48) (h0 : opMode m ≠ 0) (h4 : opMode m ≠ 4) (hk : (engOf m e).keeper = true) :
    poolChecked e a n k m = k m := by
  simp [poolChecked, poolOff, tenantViol, Nat.not_lt.mpr hr, h0, h4, hk, -Nat.reducePow]

theorem pathTrap_keeper_mapped {x : Eng} {sd v : Nat} {write : Bool} (hk : x.keeper = true) (hm : mapped a = true) :
    pathTrap m sd (pathOf x) a n write v = none := by
  simp [pathTrap, pathOf, hk, hm]

theorem pathTrap_keeper_unmapped {x : Eng} {sd v : Nat} {write : Bool} (hk : x.keeper = true) (hm : mapped a = false) :
    pathTrap m sd (pathOf x) a n write v = some .access := by
  simp [pathTrap, pathOf, hk, hm]

/-- The path of a keeper call traps no access PRIV. -/
theorem pathTrap_keeper_ne_priv {x : Eng} {sd v : Nat} {write : Bool} (hk : x.keeper = true) :
    pathTrap m sd (pathOf x) a n write v ≠ some .priv := by
  cases hm : mapped a <;> simp [pathTrap, pathOf, hk, hm]

theorem ctlLoad_open {k : Nat → Mach → Mach} (hk : (engOf m e).keeper = true) (hm : mapped a = true) (hsb : (engOf m e).sb = [])
    (ho : reach m a = .open_) : ctlLoad e a k m = k (ctlRead a m).1 (ctlRead a m).2 := by
  simp only [ctlLoad, pathTrap_keeper_mapped hk hm, afterStores_empty hsb, reached, ho]

end

/-! ## What a load takes (R183) -/

section
variable {m : Mach} {e a n : Nat} {sp : Space} {take : Nat → Mach → Mach} {read : Mach → Mach}

theorem forwarded_none (h : sbHit (engOf m e) sp a n = none) : forwarded e sp a n take read m = read m := by
  simp only [forwarded, h]

theorem forwarded_covers {s : SbEnt} (h : sbHit (engOf m e) sp a n = some s) (hlo : s.addr ≤ a) (hhi : a + n ≤ s.addr + s.size) :
    forwarded e sp a n take read m = take (s.data / 2 ^ (8 * (a - s.addr)) % 2 ^ (8 * n)) m := by
  simp only [forwarded, h]
  exact if_pos (by simp [hlo, hhi])

theorem scratchTake_good : scratchTake e a n .good take m = take (scrGet m e n a) m := rfl

/-- A correction counts and is recorded before the bytes are read, and changes none of them. -/
theorem scratchTake_corrected (cw : Fin 8) (again : Bool) :
    scratchTake e a n (.corrected cw again) take m = take (scrGet m e n a)
      (err (fsat m (seBase (engSide e) + e % 16 * 256) R.SE_ENG_CE) { errOf 0 0x0E 0x12 (engSide e) with loc := a }) := by
  simp [scratchTake, Check.isBad]

end

/-! ## Loads by the space of their address -/

section
variable {m : Mach} {e rd n ea a : Nat} {signed : Bool} {ck : Check}

theorem loadAt_scratch (hs : ea / 2 ^ 62 = 1) (ha : a = ea % 2 ^ 62) (hr : a + n ≤ 65536) (hit : sbHit (engOf m e) .scratch a n = none) :
    loadAt e rd n signed ck ea m = scratchTake e a n ck (fun v m => retireRd e rd (extended n signed v) m) m := by
  subst ha
  simp only [loadAt, hs, Nat.not_lt.mpr hr, if_false, forwarded_none hit]

theorem loadAt_scratch_past (hs : ea / 2 ^ 62 = 1) (ha : a = ea % 2 ^ 62) (hr : 65536 < a + n) :
    loadAt e rd n signed ck ea m = trapNow m e .access (a % 2 ^ 16) := by
  subst ha
  simp only [loadAt, hs, hr, if_true]

section
variable (hs : ea / 2 ^ 62 = 0) (ha : a = ea) (hr : a + n ≤ 2 ^ 48) (h0 : opMode m ≠ 0) (h4 : opMode m ≠ 4) (hk : (engOf m e).keeper = true)
  (hf : (engOf m e).slFence = false)
include hs ha hr h0 h4 hk hf

theorem loadAt_pool :
    loadAt e rd n signed ck ea m = forwarded e .pool a n (fun v m => retireRd e rd (extended n signed v) m)
      (fun m => engReq (engSet m e { engOf m e with wait := .load rd n signed a none }) (loadReq e (a / 64))) m := by
  have hea : ea % 2 ^ 62 = a := by omega
  simp only [loadAt, hs, hea, poolChecked_keeper hr h0 h4 hk, hf, Bool.false_and, Bool.false_eq_true, if_false]

theorem loadAt_pool_read (hit : sbHit (engOf m e) .pool a n = none) :
    loadAt e rd n signed ck ea m = engReq (engSet m e { engOf m e with wait := .load rd n signed a none }) (loadReq e (a / 64)) :=
  (loadAt_pool hs ha hr h0 h4 hk hf).trans (forwarded_none hit)

theorem loadAt_pool_forwarded {s : SbEnt} (hit : sbHit (engOf m e) .pool a n = some s) (hlo : s.addr ≤ a) (hhi : a + n ≤ s.addr + s.size) :
    loadAt e rd n signed ck ea m = retireRd e rd (extended n signed (s.data / 2 ^ (8 * (a - s.addr)) % 2 ^ (8 * n))) m :=
  (loadAt_pool hs ha hr h0 h4 hk hf).trans (forwarded_covers hit hlo hhi)

end

section
variable (hs : ea / 2 ^ 62 = 2) (ha : a = ea % 2 ^ 62) (hr : a < 2 ^ 32) (hk : (engOf m e).keeper = true)
include hs ha hr hk

theorem loadAt_control_misaligned (h8 : a % 8 ≠ 0) : loadAt e rd n signed ck ea m = trapNow m e .align a := by
  simp only [loadAt, hs, ← ha, Nat.not_le.mpr hr, if_false]
  split
  case h_1 hp => exact absurd hp (pathTrap_keeper_ne_priv hk)
  case h_2 => exact if_pos (by simp [h8])

theorem loadAt_control (h8 : a % 8 = 0) (hm : mapped a = true) (hsb : (engOf m e).sb = []) (ho : reach m a = .open_) :
    loadAt e rd 8 false ck ea m = retireRd e rd (BitVec.ofNat 64 (ctlRead a m).1) (ctlRead a m).2 := by
  simp only [loadAt, hs, ← ha, Nat.not_le.mpr hr, if_false, pathTrap_keeper_mapped hk hm]
  exact (if_neg (by simp [h8])).trans (ctlLoad_open hk hm hsb ho)

end

theorem loadAt_tag3 (hs : ea / 2 ^ 62 = 3) : loadAt e rd n signed ck ea m = trapNow m e .access ea := by
  simp only [loadAt, hs, eaAddr]

end

/-! ## Load instructions -/

theorem load_at {m : Mach} {e op rd ra n : Nat} {signed : Bool} {ck : Check} {imm : BitVec 16} (hw : atWord m e (encI op rd ra imm.toNat) = true) :
    load e op rd ra n signed ck imm m = loadAt e rd n signed ck (greg m e ra + imm.signExtend 64).toNat m := issue_at hw _

theorem ldx_at {m : Mach} {e rd ra rb : Fin 32} {ck : Check} (hw : atWord m e (encA 0x17 rd ra rb 0) = true) :
    doLdx e rd ra rb ck m = loadAt e rd 8 false ck (greg m e ra + greg m e rb).toNat m := issue_at hw _

/-! ## Stores (R181, R187) -/

/-- The entry of a store whose bytes lie in one line. -/
def newEnt (x : Eng) (sp : Space) (a n v : Nat) : SbEnt := ⟨sp, a, n, v, x.pc, false, false, false⟩

section
variable {m : Mach} {e a n v : Nat} {sp : Space}

theorem sbPut_one (hn : sp = .pool → a % 64 + n ≤ 64) (hroom : (engOf m e).sb.length < 16) :
    sbPut e sp a n (v % 2 ^ (8 * n)) m = retire (engSet m e
      { engOf m e with sb := (engOf m e).sb ++ [newEnt (engOf m e) sp a n (v % 2 ^ (8 * n))] }) e := by
  have hk : (if sp == .pool then inFirst a n else n) = n := by
    by_cases h : sp = .pool
    · have := hn h
      simp only [h, beq_self_eq_true, if_true, inFirst]
      omega
    · simp [h]
  have hfit : ¬ 16 < (engOf m e).sb.length + 1 := by omega
  simp only [sbPut, hk, Nat.lt_irrefl, if_false, List.length_nil, Nat.add_zero, hfit, Nat.mod_mod]
  rfl

end

section
variable {m : Mach} {e op rs ra n a : Nat} {imm : BitVec 16} (hw : atWord m e (encI op rs ra imm.toNat) = true)
include hw

theorem store_scratch (hs : (greg m e ra + imm.signExtend 64).toNat / 2 ^ 62 = 1) (ha : a = (greg m e ra + imm.signExtend 64).toNat % 2 ^ 62)
    (hr : a + n ≤ 65536) (hroom : (engOf m e).sb.length < 16) :
    store e op rs ra n imm m = retire (engSet m e
      { engOf m e with sb := (engOf m e).sb ++ [newEnt (engOf m e) .scratch a n ((greg m e rs).toNat % 2 ^ (8 * n))] }) e := by
  subst ha
  refine (issue_at hw _).trans ?_
  simp only [eaOf, hs, Nat.not_lt.mpr hr, if_false]
  exact sbPut_one (by simp) hroom

theorem store_pool (hs : (greg m e ra + imm.signExtend 64).toNat / 2 ^ 62 = 0) (ha : a = (greg m e ra + imm.signExtend 64).toNat)
    (hr : a + n ≤ 2 ^ 48) (h0 : opMode m ≠ 0) (h4 : opMode m ≠ 4) (hk : (engOf m e).keeper = true) (hline : a % 64 + n ≤ 64)
    (hroom : (engOf m e).sb.length < 16) :
    store e op rs ra n imm m = retire (engSet m e
      { engOf m e with sb := (engOf m e).sb ++ [newEnt (engOf m e) .pool a n ((greg m e rs).toNat % 2 ^ (8 * n))] }) e := by
  have hea : (greg m e ra + imm.signExtend 64).toNat % 2 ^ 62 = a := by omega
  refine (issue_at hw _).trans ?_
  simp only [eaOf, hs, hea, poolChecked_keeper hr h0 h4 hk]
  exact sbPut_one (fun _ => hline) hroom

theorem store_control (hn : n = 8) (hs : (greg m e ra + imm.signExtend 64).toNat / 2 ^ 62 = 2)
    (ha : a = (greg m e ra + imm.signExtend 64).toNat % 2 ^ 62) (hr : a < 2 ^ 32) (h8 : a % 8 = 0) (hroom : (engOf m e).sb.length < 16) :
    store e op rs ra n imm m = retire (engSet m e
      { engOf m e with sb := (engOf m e).sb ++ [newEnt (engOf m e) .control a n ((greg m e rs).toNat % 2 ^ (8 * n))] }) e := by
  subst ha hn
  refine (issue_at hw _).trans ?_
  simp only [eaOf, hs, h8, Nat.not_le.mpr hr, if_false]
  exact sbPut_one (by simp) hroom

end

/-! ## The head of a store buffer (R181, R438, R511) -/

section
variable {m : Mach} {e : Fin 32} {s : SbEnt} {rest : List SbEnt} (h : (engOf m e).sb = s :: rest)
include h

theorem sbHead_cons : sbHead m e = some s := by
  simp [sbHead, h]

theorem storeBufferSend_good (hs : s.sent = false) : doStoreBufferSend e .good m = storeGo m e s s.data false := by
  simp [doStoreBufferSend, sbHead_cons h, hs]

theorem storeBufferSend_poolBad (hs : s.sent = false) (hp : s.space = .pool) {ck : Check} (hck : ck.isBad = true) :
    doStoreBufferSend e ck m = storeGo (storeBad m e s) e s s.data true := by
  cases ck <;> simp_all [doStoreBufferSend, sbHead_cons h, Check.isBad]

theorem sbHeadPut_cons (t : SbEnt) : sbHeadPut m e t = engSet m e { engOf m e with sb := t :: rest } := by
  simp [sbHeadPut, h]

theorem sbPop_cons : sbPop m e = engSet m e { engOf m e with sb := rest, slFence := (engOf m e).slFence && !rest.isEmpty } := by
  simp [sbPop, h]

theorem storeComplete_frees (hs : s.sent = true) (ha : s.ack = true) (hp : holdPends m s = false) :
    doStoreComplete e m = engSet m e { engOf m e with sb := rest, slFence := (engOf m e).slFence && !rest.isEmpty } := by
  simp [doStoreComplete, sbHead_cons h, hs, ha, hp, sbPop_cons h]

theorem storeComplete_pends (hp : holdPends m s = true) : doStoreComplete e m = m := by
  simp [doStoreComplete, sbHead_cons h, hp]

theorem storeComplete_unacked (ha : s.ack = false) : doStoreComplete e m = m := by
  simp [doStoreComplete, sbHead_cons h, ha]

end

/-! ## Where a store goes -/

section
variable {m : Mach} {e v : Nat} {s : SbEnt} {poison : Bool}

theorem storeGo_scratch (hp : s.space = .scratch) : storeGo m e s v poison = scrPut e s.size s.addr v (sbPop m e) := by
  simp only [storeGo, hp]

theorem storeGo_pool (hp : s.space = .pool) :
    storeGo m e s v poison = engReq (sbHeadPut m e { s with sent := true })
      { op := .store, src := .store e, pln := s.addr / 64, data := lineAt (s.addr % 64) s.size v
        mask := maskAt (s.addr % 64) s.size, poison := poison } := by
  simp only [storeGo, hp]

theorem storeGo_control (hp : s.space = .control) (hk : (engOf m e).keeper = true) (hm : mapped s.addr = true) (ho : reach m s.addr = .open_)
    (hb : bankShut m s.addr = false) :
    storeGo m e s v poison = ctlWrite false s.addr v (sbHeadPut m e { s with sent := true, ack := true }) := by
  simp [storeGo, hp, pathTrap_keeper_mapped hk hm, ho, hb]

theorem storeGo_unmapped (hp : s.space = .control) (hk : (engOf m e).keeper = true) (hm : mapped s.addr = false) :
    storeGo m e s v poison = engSet m e { engOf m e with sb := [], slFence := false, trap := some ⟨.access, s.pc, s.addr⟩ } := by
  simp [storeGo, hp, pathTrap_keeper_unmapped hk hm, storeRefuse]

end

/-! ## Atomics (R289) -/

section
variable {m : Mach} {e rd ra rb code : Nat} {wide : Bool} {op : Amo}
  (hw : atWord m e (encA 0x1C rd ra rb (code + (if wide then 3 else 2) * 16)) = true)
include hw

theorem amo_sends {ea n : Nat} (hea : ea = (greg m e ra).toNat) (hn : n = if wide then 8 else 4) (hal : ea % n = 0) (hr : ea + n ≤ 2 ^ 48)
    (h0 : opMode m ≠ 0) (h4 : opMode m ≠ 4) (hk : (engOf m e).keeper = true) (hsb : (engOf m e).sb = []) :
    amo e rd ra rb wide code op m = engReq (engSet m e { engOf m e with wait := .amo rd n (ea % 64) ea })
      { op := .atomic op (ea % 64) n (greg m e rb).toNat (greg m e rd).toNat, src := .amo e, pln := ea / 64, data := 0
        mask := maskAt (ea % 64) n, poison := false } := by
  have htag : ea / 2 ^ 62 = 0 := by omega
  refine (issue_at hw _).trans ?_
  simp only [← hea, ← hn, hal, htag, poolChecked_keeper hr h0 h4 hk, afterStores_empty hsb]
  rfl

theorem amo_misaligned (hal : (greg m e ra).toNat % (if wide then 8 else 4) ≠ 0) :
    amo e rd ra rb wide code op m = trapNow m e .align (eaAddr (greg m e ra).toNat) :=
  (issue_at hw _).trans (if_pos (bne_iff_ne.mpr hal))

theorem amo_outside (hal : (greg m e ra).toNat % (if wide then 8 else 4) = 0) (htag : (greg m e ra).toNat / 2 ^ 62 ≠ 0) :
    amo e rd ra rb wide code op m = trapNow m e .access (eaAddr (greg m e ra).toNat) :=
  (issue_at hw _).trans ((if_neg (by simpa using hal)).trans (if_pos (bne_iff_ne.mpr htag)))

end

/-! ## The commands' effects -/

theorem exec_storeBufferSend (e : Fin 32) (ck : Check) (s : State) : exec (.storeBufferSend e ck) s = act s (doStoreBufferSend e ck) := by rfl
theorem exec_storeComplete (e : Fin 32) (s : State) : exec (.storeComplete e) s = act s (doStoreComplete e) := by rfl
theorem exec_lb (e rd ra : Fin 32) (imm : BitVec 16) (ck : Check) (s : State) : exec (.lb e rd ra imm ck) s = act s (doLb e rd ra imm ck) := by rfl
theorem exec_lbu (e rd ra : Fin 32) (imm : BitVec 16) (ck : Check) (s : State) : exec (.lbu e rd ra imm ck) s = act s (doLbu e rd ra imm ck) := by rfl
theorem exec_lh (e rd ra : Fin 32) (imm : BitVec 16) (ck : Check) (s : State) : exec (.lh e rd ra imm ck) s = act s (doLh e rd ra imm ck) := by rfl
theorem exec_lhu (e rd ra : Fin 32) (imm : BitVec 16) (ck : Check) (s : State) : exec (.lhu e rd ra imm ck) s = act s (doLhu e rd ra imm ck) := by rfl
theorem exec_lw (e rd ra : Fin 32) (imm : BitVec 16) (ck : Check) (s : State) : exec (.lw e rd ra imm ck) s = act s (doLw e rd ra imm ck) := by rfl
theorem exec_lwu (e rd ra : Fin 32) (imm : BitVec 16) (ck : Check) (s : State) : exec (.lwu e rd ra imm ck) s = act s (doLwu e rd ra imm ck) := by rfl
theorem exec_ld (e rd ra : Fin 32) (imm : BitVec 16) (ck : Check) (s : State) : exec (.ld e rd ra imm ck) s = act s (doLd e rd ra imm ck) := by rfl
theorem exec_ldx (e rd ra rb : Fin 32) (ck : Check) (s : State) : exec (.ldx e rd ra rb ck) s = act s (doLdx e rd ra rb ck) := by rfl
theorem exec_sb (e rs ra : Fin 32) (imm : BitVec 16) (s : State) : exec (.sb e rs ra imm) s = act s (doSb e rs ra imm) := by rfl
theorem exec_sh (e rs ra : Fin 32) (imm : BitVec 16) (s : State) : exec (.sh e rs ra imm) s = act s (doSh e rs ra imm) := by rfl
theorem exec_sw (e rs ra : Fin 32) (imm : BitVec 16) (s : State) : exec (.sw e rs ra imm) s = act s (doSw e rs ra imm) := by rfl
theorem exec_sd (e rs ra : Fin 32) (imm : BitVec 16) (s : State) : exec (.sd e rs ra imm) s = act s (doSd e rs ra imm) := by rfl
theorem exec_amoAdd (e rd ra rb : Fin 32) (wide : Bool) (s : State) : exec (.amoAdd e rd ra rb wide) s = act s (doAmoAdd e rd ra rb wide) := by rfl
theorem exec_amoAnd (e rd ra rb : Fin 32) (wide : Bool) (s : State) : exec (.amoAnd e rd ra rb wide) s = act s (doAmoAnd e rd ra rb wide) := by rfl
theorem exec_amoOr (e rd ra rb : Fin 32) (wide : Bool) (s : State) : exec (.amoOr e rd ra rb wide) s = act s (doAmoOr e rd ra rb wide) := by rfl
theorem exec_amoXor (e rd ra rb : Fin 32) (wide : Bool) (s : State) : exec (.amoXor e rd ra rb wide) s = act s (doAmoXor e rd ra rb wide) := by rfl
theorem exec_amoSwap (e rd ra rb : Fin 32) (wide : Bool) (s : State) : exec (.amoSwap e rd ra rb wide) s = act s (doAmoSwap e rd ra rb wide) := by rfl
theorem exec_amoCas (e rd ra rb : Fin 32) (wide : Bool) (s : State) : exec (.amoCas e rd ra rb wide) s = act s (doAmoCas e rd ra rb wide) := by rfl
theorem exec_amoMinu (e rd ra rb : Fin 32) (wide : Bool) (s : State) : exec (.amoMinu e rd ra rb wide) s = act s (doAmoMinu e rd ra rb wide) := by rfl
theorem exec_amoMaxu (e rd ra rb : Fin 32) (wide : Bool) (s : State) : exec (.amoMaxu e rd ra rb wide) s = act s (doAmoMaxu e rd ra rb wide) := by rfl

end Sys2Proof.Machine
end

section
/-! The settling of O20. -/

open Sys2Proof Sys2Proof.Machine

/-- Settles O20: a load of tag 1 that no buffered store overlaps takes its scratch word as the check leaves it (`loadAt_scratch`, `scratchTake`). -/
theorem scratchLoads : Obligations.ScratchLoads := by
  unfold Obligations.ScratchLoads
  refine ⟨?_, ?_, ?_, ?_, ?_, ?_, ?_, ?_, ?_, ?_, ?_⟩
  · exact fun e rd ra imm a q m hw hs ha hr hit => leads_eq (exec_lb ..) ((load_at hw).trans ((loadAt_scratch hs ha hr hit).trans scratchTake_good))
  · exact fun e rd ra imm a q m hw hs ha hr hit => leads_eq (exec_lbu ..) ((load_at hw).trans ((loadAt_scratch hs ha hr hit).trans scratchTake_good))
  · exact fun e rd ra imm a q m hw hs ha hr hit => leads_eq (exec_lh ..) ((load_at hw).trans ((loadAt_scratch hs ha hr hit).trans scratchTake_good))
  · exact fun e rd ra imm a q m hw hs ha hr hit => leads_eq (exec_lhu ..) ((load_at hw).trans ((loadAt_scratch hs ha hr hit).trans scratchTake_good))
  · exact fun e rd ra imm a q m hw hs ha hr hit => leads_eq (exec_lw ..) ((load_at hw).trans ((loadAt_scratch hs ha hr hit).trans scratchTake_good))
  · exact fun e rd ra imm a q m hw hs ha hr hit => leads_eq (exec_lwu ..) ((load_at hw).trans ((loadAt_scratch hs ha hr hit).trans scratchTake_good))
  · exact fun e rd ra imm a q m hw hs ha hr hit => leads_eq (exec_ld ..) ((load_at hw).trans ((loadAt_scratch hs ha hr hit).trans scratchTake_good))
  · exact fun e rd ra rb a q m hw hs ha hr hit => leads_eq (exec_ldx ..) ((ldx_at hw).trans ((loadAt_scratch hs ha hr hit).trans scratchTake_good))
  · exact fun e rd ra imm ck a q m hw hs ha hr hit hck =>
      leads_eq (exec_ld ..) ((load_at hw).trans ((loadAt_scratch hs ha hr hit).trans (if_pos hck)))
  · exact fun e rd ra imm cw again a q m hw hs ha hr hit =>
      leads_eq (exec_ld ..) ((load_at hw).trans ((loadAt_scratch hs ha hr hit).trans (scratchTake_corrected cw again)))
  · exact fun e rd ra imm ck a q m hw hs ha hr => leads_eq (exec_ld ..) ((load_at hw).trans (loadAt_scratch_past hs ha hr))

end

section
/-! The settling of O21. -/

open Sys2Proof Sys2Proof.Machine

/-- Settles O21: each clause is the load at an address of its space. -/
theorem poolAndControlLoads : Obligations.PoolAndControlLoads := by
  unfold Obligations.PoolAndControlLoads
  refine ⟨?_, ?_, ?_, ?_, ?_⟩
  · exact fun e rd ra imm ck a q m hw hs ha hr h0 h4 hk hf hit =>
      leads_eq (exec_ld ..) ((load_at hw).trans (loadAt_pool_read hs ha hr h0 h4 hk hf hit))
  · exact fun e rd ra imm ck a s q m hw hs ha hr h0 h4 hk hf hit hlo hhi =>
      leads_eq (exec_ld ..) ((load_at hw).trans (loadAt_pool_forwarded hs ha hr h0 h4 hk hf hit hlo hhi))
  · exact fun e rd ra imm ck a q m hw hs ha hr h8 hk hm hsb ho =>
      leads_eq (exec_ld ..) ((load_at hw).trans (loadAt_control hs ha hr hk h8 hm hsb ho))
  · exact fun e rd ra imm ck a q m hw hs ha hr h8 hk => leads_eq (exec_ld ..) ((load_at hw).trans (loadAt_control_misaligned hs ha hr hk h8))
  · exact fun e rd ra imm ck q m hw hs => leads_eq (exec_ld ..) ((load_at hw).trans (loadAt_tag3 hs))

end

section
/-! The settling of O22. -/

open Sys2Proof Sys2Proof.Machine

/-- Settles O22: a store that crosses no line enters as one entry (`sbPut_one`); the head of the buffer goes where its space says (`storeGo`). -/
theorem storesAndTheirBuffer : Obligations.StoresAndTheirBuffer := by
  unfold Obligations.StoresAndTheirBuffer
  refine ⟨?_, ?_, ?_, ?_, ?_, ?_, ?_, ?_, ?_, ?_, ?_, ?_, ?_, ?_⟩
  · exact fun e rs ra imm a q m hw hs ha hr hroom => leads_eq (exec_sb ..) (store_scratch hw hs ha hr hroom)
  · exact fun e rs ra imm a q m hw hs ha hr hroom => leads_eq (exec_sh ..) (store_scratch hw hs ha hr hroom)
  · exact fun e rs ra imm a q m hw hs ha hr hroom => leads_eq (exec_sw ..) (store_scratch hw hs ha hr hroom)
  · exact fun e rs ra imm a q m hw hs ha hr hroom => leads_eq (exec_sd ..) (store_scratch hw hs ha hr hroom)
  · exact fun e rs ra imm a q m hw hs ha hr h0 h4 hk hline hroom =>
      leads_eq (exec_sd ..) (store_pool hw hs ha hr h0 h4 hk (by omega) hroom)
  · exact fun e rs ra imm a q m hw hs ha hr h8 hroom => leads_eq (exec_sd ..) (store_control hw rfl hs ha hr h8 hroom)
  · exact fun e s rest q m h hs hp => leads_eq (exec_storeBufferSend ..) ((storeBufferSend_good h hs).trans (storeGo_scratch hp))
  · intro e s rest q m h hs hp
    rw [← sbHeadPut_cons h]
    exact leads_eq (exec_storeBufferSend ..) ((storeBufferSend_good h hs).trans (storeGo_pool hp))
  · intro e s rest q m h hs hp hk hm ho hb
    rw [← sbHeadPut_cons h]
    exact leads_eq (exec_storeBufferSend ..) ((storeBufferSend_good h hs).trans (storeGo_control hp hk hm ho hb))
  · exact fun e s rest q m h hs hp hk hm => leads_eq (exec_storeBufferSend ..) ((storeBufferSend_good h hs).trans (storeGo_unmapped hp hk hm))
  · exact fun e s rest q m h hs ha hp => leads_eq (exec_storeComplete ..) (storeComplete_frees h hs ha hp)
  · exact fun e s rest q m h hp => leads_eq (exec_storeComplete ..) (storeComplete_pends h hp)
  · exact fun e ck s rest q m h hs hp hck => leads_eq (exec_storeBufferSend ..) ((storeBufferSend_poolBad h hs hp hck).trans (storeGo_pool hp))
  · exact fun e s rest q m h ha => leads_eq (exec_storeComplete ..) (storeComplete_unacked h ha)

end

section
/-! The settling of O23. -/

open Sys2Proof Sys2Proof.Machine

/-- Settles O23: the eight operations share one path to the home (`amo_sends`) and its two traps. -/
theorem atomics : Obligations.Atomics := by
  unfold Obligations.Atomics
  refine ⟨?_, ?_, ?_, ?_, ?_, ?_, ?_, ?_, ?_, ?_⟩
  · exact fun e rd ra rb wide ea n q m hw hea hn hal hr h0 h4 hk hsb => leads_eq (exec_amoAdd ..) (amo_sends hw hea hn hal hr h0 h4 hk hsb)
  · exact fun e rd ra rb wide ea n q m hw hea hn hal hr h0 h4 hk hsb => leads_eq (exec_amoAnd ..) (amo_sends hw hea hn hal hr h0 h4 hk hsb)
  · exact fun e rd ra rb wide ea n q m hw hea hn hal hr h0 h4 hk hsb => leads_eq (exec_amoOr ..) (amo_sends hw hea hn hal hr h0 h4 hk hsb)
  · exact fun e rd ra rb wide ea n q m hw hea hn hal hr h0 h4 hk hsb => leads_eq (exec_amoXor ..) (amo_sends hw hea hn hal hr h0 h4 hk hsb)
  · exact fun e rd ra rb wide ea n q m hw hea hn hal hr h0 h4 hk hsb => leads_eq (exec_amoSwap ..) (amo_sends hw hea hn hal hr h0 h4 hk hsb)
  · exact fun e rd ra rb wide ea n q m hw hea hn hal hr h0 h4 hk hsb => leads_eq (exec_amoCas ..) (amo_sends hw hea hn hal hr h0 h4 hk hsb)
  · exact fun e rd ra rb wide ea n q m hw hea hn hal hr h0 h4 hk hsb => leads_eq (exec_amoMinu ..) (amo_sends hw hea hn hal hr h0 h4 hk hsb)
  · exact fun e rd ra rb wide ea n q m hw hea hn hal hr h0 h4 hk hsb => leads_eq (exec_amoMaxu ..) (amo_sends hw hea hn hal hr h0 h4 hk hsb)
  · exact fun e rd ra rb wide q m hw hal => leads_eq (exec_amoCas ..) (amo_misaligned hw hal)
  · exact fun e rd ra rb wide q m hw hal htag => leads_eq (exec_amoCas ..) (amo_outside hw hal htag)

end

section
/-! SUPPORT. The reads of WAITEV (R184, R310). -/

namespace Sys2Proof.Machine

/-! ## The fields of an instruction word (Table 11-1) -/

section
variable {op rd ra rb fn : Nat}

theorem bitsOf_eq (n lo w : Nat) : bitsOf n lo w = n / 2 ^ lo % 2 ^ w := by
  rw [bitsOf, Nat.shiftRight_eq_div_pow]

theorem encA_op (hd : rd < 32) (ha : ra < 32) (hb : rb < 32) (hf : fn < 2048) : encA op rd ra rb fn / 2 ^ 26 = op := by
  unfold encA; omega

theorem encA_rd (hd : rd < 32) (ha : ra < 32) (hb : rb < 32) (hf : fn < 2048) : bitsOf (encA op rd ra rb fn) 21 5 = rd := by
  rw [bitsOf_eq]; unfold encA; omega

theorem encA_ra (ha : ra < 32) (hb : rb < 32) (hf : fn < 2048) : bitsOf (encA op rd ra rb fn) 16 5 = ra := by
  rw [bitsOf_eq]; unfold encA; omega

theorem encA_rb (hb : rb < 32) (hf : fn < 2048) : bitsOf (encA op rd ra rb fn) 11 5 = rb := by
  rw [bitsOf_eq]; unfold encA; omega

theorem encA_fn (hf : fn < 2048) : encA op rd ra rb fn % 2048 = fn := by
  unfold encA; omega

/-- The condition of a WAITEV word stands in fn[10:8], above its selector 4. -/
theorem waitevWord_cond {cond : Nat} (hc : cond < 8) : bitsOf (encA op rd ra rb (4 + cond * 256)) 8 3 = cond := by
  have hfn := encA_fn (op := op) (rd := rd) (ra := ra) (rb := rb) (fn := 4 + cond * 256) (by omega)
  rw [bitsOf_eq]
  omega

theorem isWaitev_word {cond : Nat} (hd : rd < 32) (ha : ra < 32) (hb : rb < 32) (hc : cond ≤ 2) :
    isWaitev (encA 0x3F rd ra rb (4 + cond * 256)) = true := by
  have hsel : encA 0x3F rd ra rb (4 + cond * 256) % 256 = 4 := by
    unfold encA; omega
  simp only [isWaitev, encA_op hd ha hb (show 4 + cond * 256 < 2048 by omega), hsel, waitevWord_cond (show cond < 8 by omega)]
  simpa using hc

end

/-! ## One read (R310) -/

section
variable {m : Mach} {e rd ra rb cond ea a : Nat} {v : Word} (hea : ea = (greg m e ra).toNat) (hs : ea / 2 ^ 62 = 2) (ha : a = ea % 2 ^ 62)
  (hr : a < 2 ^ 32) (h8 : a % 8 = 0) (hk : (engOf m e).keeper = true) (hm : mapped a = true) (hsb : (engOf m e).sb = []) (ho : reach m a = .open_)
  (hv : v = BitVec.ofNat 64 (ctlRead a m).1)
include hea hs ha hr h8 hk hm hsb ho hv

/-- A read that its checks let through tests the condition on the registers as they stand: the read changes none of them. -/
theorem waitRead_reads :
    waitRead e rd ra rb cond m =
      if waitHolds cond v (greg m e rb) (greg m e rd) then retireRd e rd v (ctlRead a m).2 else engWaits (ctlRead a m).2 e := by
  have h8' : ea % 8 = 0 := by omega
  simp only [waitRead, ← hea, ← ha, hs, h8', Nat.not_le.mpr hr, pathTrap_keeper_mapped hk hm, ctlLoad_open hk hm hsb ho, greg_ctlRead, ← hv]
  simp

theorem waitRead_ends (h : waitHolds cond v (greg m e rb) (greg m e rd) = true) :
    waitRead e rd ra rb cond m = retireRd e rd v (ctlRead a m).2 :=
  (waitRead_reads hea hs ha hr h8 hk hm hsb ho hv).trans (if_pos h)

theorem waitRead_waits (h : ¬ waitHolds cond v (greg m e rb) (greg m e rd) = true) :
    waitRead e rd ra rb cond m = engWaits (ctlRead a m).2 e :=
  (waitRead_reads hea hs ha hr h8 hk hm hsb ho hv).trans (if_neg h)

end

/-! ## WAITEV and its later reads -/

section
variable {m : Mach} {e rd ra rb : Fin 32} {cond : Fin 3}

theorem waitev_at (hw : atWord m e (encA 0x3F rd ra rb (4 + cond.val * 256)) = true) (hst : (engOf m e).st = .running) :
    doWaitev e rd ra rb cond m = waitRead e rd ra rb cond m :=
  (if_neg (by simp [hst])).trans (issue_at hw _)

/-- A poll finds the operands of the WAITEV that waits in its word. -/
theorem waitevPoll_at (hw : atWord m e (encA 0x3F rd ra rb (4 + cond.val * 256)) = true) (hst : (engOf m e).st = .waiting) :
    doWaitevPoll e m = waitRead e rd ra rb cond m := by
  have hword : progWord m (engSide e) (engOf m e).bank (engOf m e).pc = encA 0x3F rd ra rb (4 + cond.val * 256) := by
    simp only [atWord, Bool.and_eq_true, beq_iff_eq] at hw
    obtain ⟨⟨-, hword⟩, -⟩ := hw
    exact hword
  have hfn : 4 + cond.val * 256 < 2048 := by omega
  refine (if_neg (by simp [hst])).trans ?_
  rw [hword, issueIf_at hw (isWaitev_word rd.isLt ra.isLt rb.isLt (by omega)), encA_rd rd.isLt ra.isLt rb.isLt hfn, encA_ra ra.isLt rb.isLt hfn,
    encA_rb rb.isLt hfn, waitevWord_cond (by omega)]

theorem waitevPoll_notWaiting (hst : (engOf m e).st = .running) : doWaitevPoll e m = m := if_pos (by simp [hst])

end

/-! ## The commands' effects -/

theorem exec_waitev (e rd ra rb : Fin 32) (cond : Fin 3) (s : State) : exec (.waitev e rd ra rb cond) s = act s (doWaitev e rd ra rb cond) := by rfl
theorem exec_waitevPoll (e : Fin 32) (s : State) : exec (.waitevPoll e) s = act s (doWaitevPoll e) := by rfl

end Sys2Proof.Machine
end

section
/-! The settling of O24. -/

open Sys2Proof Sys2Proof.Machine

/-- Settles O24: the first read and each later one are the same read (`waitev_at`, `waitevPoll_at`), which ends or waits by its condition. -/
theorem waitForARegister : Obligations.WaitForARegister := by
  unfold Obligations.WaitForARegister
  refine ⟨?_, ?_, ?_, ?_, ?_, ?_⟩
  · exact fun e rd ra rb ea a v q m hw hst hea hs ha hr h8 hk hm hsb ho hv h =>
      leads_eq (exec_waitev ..) ((waitev_at (cond := 0) hw hst).trans (waitRead_ends hea hs ha hr h8 hk hm hsb ho hv (bne_iff_ne.mpr h)))
  · exact fun e rd ra rb ea a v q m hw hst hea hs ha hr h8 hk hm hsb ho hv h =>
      leads_eq (exec_waitev ..) ((waitev_at (cond := 1) hw hst).trans (waitRead_ends hea hs ha hr h8 hk hm hsb ho hv (beq_iff_eq.mpr h)))
  · exact fun e rd ra rb ea a v q m hw hst hea hs ha hr h8 hk hm hsb ho hv h =>
      leads_eq (exec_waitev ..) ((waitev_at (cond := 1) hw hst).trans (waitRead_waits hea hs ha hr h8 hk hm hsb ho hv (mt beq_iff_eq.mp h)))
  · exact fun e rd ra rb ea a v q m hw hst hea hs ha hr h8 hk hm hsb ho hv h =>
      leads_eq (exec_waitev ..) ((waitev_at (cond := 2) hw hst).trans (waitRead_ends hea hs ha hr h8 hk hm hsb ho hv (beq_iff_eq.mpr h)))
  · exact fun e rd ra rb ea a v q m hw hst hea hs ha hr h8 hk hm hsb ho hv h =>
      leads_eq (exec_waitevPoll ..) ((waitevPoll_at (cond := 1) hw hst).trans (waitRead_ends hea hs ha hr h8 hk hm hsb ho hv (beq_iff_eq.mpr h)))
  · exact fun e q m hst => leads_eq (exec_waitevPoll ..) (waitevPoll_notWaiting hst)

end

section
/-! SUPPORT. The failure of a side in Normal mode, and the pulses, heartbeats and faults that declare it (R199, R204 to R208, R215, Table 8-5). -/

namespace Sys2Proof.Machine

/-! ## Side `sd` fails in Normal mode -/

/-- Both sides serve in Normal mode, and no reintegration is under way. -/
structure TwinnedNormal (m : Mach) : Prop where
  mode : opMode m = 1
  up : bothUp m = true
  idle : m.twin.returning = none

theorem TwinnedNormal.of_sameMode {m m' : Mach} (h : TwinnedNormal m) (hs : SameMode m m') (hr : m'.twin.returning = m.twin.returning) :
    TwinnedNormal m' where
  mode := (hs.fget (by decide)).trans h.mode
  up := by rw [bothUp, hs.fget (by decide)]; exact h.up
  idle := hr.trans h.idle

theorem TwinnedNormal.sideUp {m : Mach} (h : TwinnedNormal m) {sd : Nat} (hsd : sd < 2) : sideUp m sd = true := by
  have hup : fget m aonBase R.AON_OPMODE_SIDE_UP = 3 := beq_iff_eq.mp h.up
  rw [Machine.sideUp, hup]
  have hside : sd = 0 ∨ sd = 1 := by omega
  rcases hside with rfl | rfl <;> decide

/-- Machine `m` stands after the takeover that a failure of side `sd` with cause `cause` ends in: the survivor serves alone, the record names side and
cause, its end of the bridge is down, and what was its mirror is its directory (R206 to R208). -/
def TakenOver (m : Mach) (sd cause : Nat) : Prop :=
  opMode m = 2 ∧ fget m aonBase R.AON_OPMODE_SIDE_UP = 2 ^ (1 - sd) ∧ fget m aonBase R.AON_OPMODE_CAUSE = 1 ∧
  fget m aonBase R.AON_FOREC_SIDE = sd ∧ fget m aonBase R.AON_FOREC_CAUSE = cause ∧ fget m (brgBase (1 - sd)) R.BRG_STATUS_UP = 0 ∧
  m.home.mirror = []

/-- A failover's end leaves the takeover of any cause that the record can hold. -/
theorem failoverEnd_takenOver {m : Mach} {sd cause : Nat} (hsd : sd < 2) (hc : cause < 8) (n : Nat)
    (hb : fget m (brgBase (1 - sd)) R.BRG_STATUS_UP = 0) (hm : m.home.mirror = []) : TakenOver (failoverEnd m sd cause n) sd cause := by
  have hmode := opMode_setMode m 2 (2 ^ (1 - sd)) 1
  have hup := sideUp_setMode m 2 (2 ^ (1 - sd)) 1
  have hcause := cause_setMode m 2 (2 ^ (1 - sd)) 1
  unfold opMode at hmode
  have hupLt : 2 ^ (1 - sd) < 4 := Nat.pow_lt_pow_right (n := 2) (by decide) (by omega)
  refine ⟨?_, ?_, ?_, ?_, ?_, (failoverEnd_bridge ..).trans hb, by rw [failoverEnd_home, hm]⟩ <;>
    simp (disch := decide) only [opMode, failoverEnd, fsat, fget_notice, fget_draw, fget_fset_same, fget_fset_other, hmode, hup, hcause]
  · exact Nat.mod_eq_of_lt hupLt
  · exact Nat.mod_eq_of_lt hsd
  · exact Nat.mod_eq_of_lt hc

/-- The failure of a side in Normal mode makes the other side take over, which serves as well. -/
theorem failSide_takenOver {m : Mach} {sd cause : Nat} (kept : Nat) (h : TwinnedNormal m) (hsd : sd < 2) (hc : cause < 8) :
    TakenOver (failSide m sd cause kept) sd cause := by
  have hfail : failSide m sd cause kept = takeover m sd cause kept := by
    simp only [failSide, h.mode, h.sideUp hsd, h.sideUp (sd := 1 - sd) (by omega), Bool.true_or, ↓reduceIte]
  obtain ⟨b, n, htake, hmirror, hbridge⟩ := takeover_normal m sd cause kept h.mode h.idle
  rw [hfail, htake]
  exact failoverEnd_takenOver hsd hc n hbridge hmirror

theorem notPreferred_lt (m : Mach) : notPreferred m < 2 := by unfold notPreferred; omega

/-! ## An error's record leaves a reintegration as it is -/

@[simp] theorem fsat_twin (m : Mach) (b : Nat) (f : Fld) (n : Nat) : (fsat m b f n).twin = m.twin := fset_twin ..

@[simp] theorem forN_fset_twin (n : Nat) (b : Nat → Nat) (f : Fld) (v : Nat → Mach → Nat) (m : Mach) :
    (forN n (fun i m => fset m (b i) f (v i m)) m).twin = m.twin := forN_same Mach.twin (fun _ _ => fset_twin ..) n m

@[simp] theorem logRecord_twin (m : Mach) (w : Nat) (ws : List Nat) : (logRecord m w ws).twin = m.twin := by
  simp [logRecord, logWrite, logFlush, apply_ite Mach.twin]

@[simp] theorem soakErr_returning (m : Mach) (e : Err) : (soakErr m e).twin.returning = m.twin.returning := by
  rcases soakErr_eq m e with h | h <;> rw [h]

@[simp] theorem errWrite_returning (m : Mach) (e : Err) (n : Nat) : (errWrite m e n).twin.returning = m.twin.returning := by
  simp [errWrite, apply_ite Mach.twin]

@[simp] theorem err_returning (m : Mach) (e : Err) : (err m e).twin.returning = m.twin.returning := by
  simp [err, apply_ite Mach.twin, apply_ite Twin.returning]

/-! ## Health pulses -/

/-- The arbiter's bit for the health line of side `sd`. -/
def healthBit (sd : Fin 2) : Fld := if sd == 0 then R.AON_ARB_A_OK else R.AON_ARB_B_OK

theorem healthBit_not_modeKey (sd : Fin 2) : fkey aonBase (healthBit sd) ∉ modeKeys := by revert sd; decide

section
variable {sd : Fin 2} {m : Mach} (hs : sideRuns m sd = true)
include hs

theorem healthPulse_running :
    doHealthPulse sd m = fset { m with twin := { m.twin with hpRun := mdel m.twin.hpRun sd } } aonBase (healthBit sd) 1 :=
  if_pos hs

/-- Up to two missed pulses in a row only count. -/
theorem healthPulseMissed_counts (kept : Nat) (hn : sget 0 m.twin.hpRun sd < 2) :
    doHealthPulseMissed sd kept m = { m with twin := { m.twin with hpRun := sset 0 m.twin.hpRun sd (sget 0 m.twin.hpRun sd + 1) } } :=
  (if_neg (by simp [hs])).trans (if_pos (by omega))

/-- The third missed pulse in a row declares the side failed with cause 1. -/
theorem healthPulseMissed_third (kept : Nat) (hn : sget 0 m.twin.hpRun sd = 2) :
    doHealthPulseMissed sd kept m =
      failSide (fset { m with twin := { m.twin with hpRun := mdel m.twin.hpRun sd } } aonBase (healthBit sd) 0) sd 1 kept :=
  (if_neg (by simp [hs])).trans (if_neg (by omega))

theorem healthPulseMissed_takenOver (kept : Nat) (hn : sget 0 m.twin.hpRun sd = 2) (h : TwinnedNormal m) :
    TakenOver (doHealthPulseMissed sd kept m) sd 1 := by
  rw [healthPulseMissed_third hs kept hn]
  have hsame : SameMode m { m with twin := { m.twin with hpRun := mdel m.twin.hpRun sd } } := .of_regs rfl
  exact failSide_takenOver kept (h.of_sameMode (hsame.fset (healthBit_not_modeKey sd) 0) rfl) sd.isLt (by decide)

end

/-! ## Heartbeats -/

/-- A missed heartbeat counts at its bridge end. -/
def heartbeatMissCounted (m : Mach) (b : Nat) : Mach := fsat (fsat (count m b 0x04) b R.BRG_STATUS_HB_RUN) b R.BRG_STATUS_HB_TOTAL

section
variable (m : Mach) (sd : Fin 2)

theorem heartbeatMissCounted_twin : (heartbeatMissCounted m (brgBase sd)).twin = m.twin := by simp [heartbeatMissCounted]

theorem heartbeatMissCounted_sameMode : SameMode m (heartbeatMissCounted m (brgBase sd)) := by
  have hrun : fkey (brgBase sd) R.BRG_STATUS_HB_RUN ∉ modeKeys := by revert sd; decide
  have htotal : fkey (brgBase sd) R.BRG_STATUS_HB_TOTAL ∉ modeKeys := by revert sd; decide
  exact SameMode.fset (SameMode.fset (.of_regs (count_regs ..)) hrun _) htotal _

theorem fget_heartbeatMissCounted_aon {f : Fld} (hf : fkey aonBase f < 0x8000000) :
    fget (heartbeatMissCounted m (brgBase sd)) aonBase f = fget m aonBase f := by
  have hne (g : Fld) : (brgBase sd + g.off) * 8 + g.lo ≠ (aonBase + f.off) * 8 + f.lo := by
    unfold fkey at hf; unfold brgBase sideBase; omega
  rw [heartbeatMissCounted, fsat, fget_fset_other _ _ _ _ _ _ (hne _), fsat, fget_fset_other _ _ _ _ _ _ (hne _), fget_count]

theorem heartbeatMissCounted_run :
    fget (heartbeatMissCounted m (brgBase sd)) (brgBase sd) R.BRG_STATUS_HB_RUN = min 255 (fget m (brgBase sd) R.BRG_STATUS_HB_RUN + 1) := by
  have hne : (brgBase sd + R.BRG_STATUS_HB_TOTAL.off) * 8 + R.BRG_STATUS_HB_TOTAL.lo ≠
      (brgBase sd + R.BRG_STATUS_HB_RUN.off) * 8 + R.BRG_STATUS_HB_RUN.lo := by revert sd; decide
  rw [heartbeatMissCounted, fsat, fget_fset_other _ _ _ _ _ _ hne, fsat, fget_fset_same, fget_count]
  exact Nat.mod_eq_of_lt (Nat.lt_succ_of_le (Nat.min_le_left ..))

end

section
variable {sd : Fin 2} {m : Mach}

theorem heartbeat_up (hup : fon m (brgBase sd) R.BRG_STATUS_UP = true) :
    doHeartbeat sd m = fset (bridgeMsg m (1 - sd)) (brgBase sd) R.BRG_STATUS_HB_RUN 0 := if_pos hup

theorem heartbeat_down (hup : fon m (brgBase sd) R.BRG_STATUS_UP = false) : doHeartbeat sd m = m := if_neg (by simp [hup])

/-- At an end that is up, the arbiter decides on the machine `c` that has counted the miss. -/
theorem doHeartbeatMissed_eq (retrain : Bool) (kept : Nat) (hup : fon m (brgBase sd) R.BRG_STATUS_UP = true) {c : Mach}
    (hc : c = heartbeatMissCounted m (brgBase sd)) :
    doHeartbeatMissed sd retrain kept m =
      if fon c aonBase R.AON_ARB_A_OK && fon c aonBase R.AON_ARB_B_OK && (retrain || 3 ≤ fget c (brgBase sd) R.BRG_STATUS_HB_RUN) then
        failSide c (notPreferred c) 3 kept
      else c := by
  subst hc
  exact if_neg (by simp [hup])

/-- A missed heartbeat counts; the third in a row, or a bridge that does not retrain, fences the side not preferred while both health lines pulse
(R204, R205). -/
theorem heartbeatMissed_up (retrain : Bool) (kept : Nat) (hup : fon m (brgBase sd) R.BRG_STATUS_UP = true) :
    doHeartbeatMissed sd retrain kept m =
      if (fon m aonBase R.AON_ARB_A_OK = true ∧ fon m aonBase R.AON_ARB_B_OK = true) ∧
        (retrain = true ∨ 2 ≤ fget m (brgBase sd) R.BRG_STATUS_HB_RUN) then
        failSide (heartbeatMissCounted m (brgBase sd)) (notPreferred m) 3 kept
      else heartbeatMissCounted m (brgBase sd) := by
  have hpref : notPreferred (heartbeatMissCounted m (brgBase sd)) = notPreferred m :=
    congrArg (1 - ·) (fget_heartbeatMissCounted_aon m sd (by decide))
  have hok {f : Fld} (hf : fkey aonBase f < 0x8000000) : fon (heartbeatMissCounted m (brgBase sd)) aonBase f = fon m aonBase f :=
    congrArg (· == 1) (fget_heartbeatMissCounted_aon m sd hf)
  have hthird : 3 ≤ min 255 (fget m (brgBase sd) R.BRG_STATUS_HB_RUN + 1) ↔ 2 ≤ fget m (brgBase sd) R.BRG_STATUS_HB_RUN := by omega
  rw [doHeartbeatMissed_eq retrain kept hup rfl, hok (by decide), hok (by decide), hpref, heartbeatMissCounted_run]
  simp only [hthird, Bool.and_eq_true, Bool.or_eq_true, decide_eq_true_eq]

theorem heartbeatMissed_takenOver (retrain : Bool) (kept : Nat) (hup : fon m (brgBase sd) R.BRG_STATUS_UP = true)
    (hn : fget m (brgBase sd) R.BRG_STATUS_HB_RUN = 2) (h : TwinnedNormal m) (ha : fon m aonBase R.AON_ARB_A_OK = true)
    (hb : fon m aonBase R.AON_ARB_B_OK = true) : TakenOver (doHeartbeatMissed sd retrain kept m) (notPreferred m) 3 := by
  rw [heartbeatMissed_up retrain kept hup, if_pos ⟨⟨ha, hb⟩, .inr (Nat.le_of_eq hn.symm)⟩]
  have hsame := h.of_sameMode (heartbeatMissCounted_sameMode m sd) (by rw [heartbeatMissCounted_twin])
  exact failSide_takenOver kept hsame (notPreferred_lt m) (by decide)

/-! ## Fault signals and credit timeouts -/

theorem faultSignal_takenOver (st bt inst : BitVec 8) (kept : Nat) (hs : sideRuns m sd = true) (h : TwinnedNormal m) :
    TakenOver (doFaultSignal sd st bt inst kept m) sd 2 := by
  rw [doFaultSignal, if_pos hs]
  exact failSide_takenOver kept (h.of_sameMode (err_sameMode ..) (err_returning ..)) sd.isLt (by decide)

theorem faultSignal_notRunning (st bt inst : BitVec 8) (kept : Nat) (hs : sideRuns m sd = false) : doFaultSignal sd st bt inst kept m = m :=
  if_neg (by simp [hs])

/-- A twin write of the side that waits for credit at a bridge end that is up fences the side not preferred (R205). -/
theorem bridgeCreditTimeout_takenOver (kept : Nat) {h l : Nat} {img : Img} {o : Bool} {a : AckFor} {rest : List (Nat × Stream)}
    (hs : m.twin.stream = (h, .twinWrite l img o a) :: rest) (hh : h / 32 = sd.val) (hup : fon m (brgBase sd) R.BRG_STATUS_UP = true)
    (hn : TwinnedNormal m) : TakenOver (doBridgeCreditTimeout sd kept m) (notPreferred m) 4 := by
  have hfail : doBridgeCreditTimeout sd kept m = failSide m (notPreferred m) 4 kept := by
    simp [doBridgeCreditTimeout, hs, hh, hup]
  rw [hfail]
  exact failSide_takenOver kept hn (notPreferred_lt m) (by decide)

theorem bridgeCreditTimeout_release (kept : Nat) {h l : Nat} (hs : m.twin.stream = [(h, .release l)]) : doBridgeCreditTimeout sd kept m = m := by
  simp [doBridgeCreditTimeout, hs]

theorem bridgeCreditTimeout_noStream (kept : Nat) (hs : m.twin.stream = []) : doBridgeCreditTimeout sd kept m = m := by
  simp [doBridgeCreditTimeout, hs]

/-! ## Bridge lanes -/

/-- A spare takes the place of a failed lane of the bridge end at `b` (R215). -/
def spareLane (m : Mach) (b : Nat) : Mach := fsat (count m b 0x05) b R.BRG_STATUS_SPARES

theorem fon_spareLane_up (m : Mach) : fon (spareLane m (brgBase 0)) (brgBase 1) R.BRG_STATUS_UP = fon m (brgBase 1) R.BRG_STATUS_UP := by
  rw [fon, spareLane, fsat, fget_fset_other _ _ _ _ _ _ (by decide), fget_count, fon]

theorem doBridgeLaneFail_eq (m : Mach) :
    doBridgeLaneFail m = forN 2 (fun s m => if fon m (brgBase s) R.BRG_STATUS_UP then spareLane m (brgBase s) else m) m := by rfl

theorem bridgeLaneFail_bothUp (h0 : fon m (brgBase 0) R.BRG_STATUS_UP = true) (h1 : fon m (brgBase 1) R.BRG_STATUS_UP = true) :
    doBridgeLaneFail m = spareLane (spareLane m (brgBase 0)) (brgBase 1) := by
  simp only [doBridgeLaneFail_eq, forN, h0, ↓reduceIte, fon_spareLane_up, h1]

theorem bridgeLaneFail_oneUp (h0 : fon m (brgBase 0) R.BRG_STATUS_UP = false) (h1 : fon m (brgBase 1) R.BRG_STATUS_UP = true) :
    doBridgeLaneFail m = spareLane m (brgBase 1) := by
  simp only [doBridgeLaneFail_eq, forN, h0, Bool.false_eq_true, ↓reduceIte, h1]

end

/-! ## The commands' effects -/

theorem exec_healthPulse (sd : Fin 2) (s : State) : exec (.healthPulse sd) s = act s (doHealthPulse sd) := by rfl
theorem exec_healthPulseMissed (sd : Fin 2) (kept : Nat) (s : State) :
    exec (.healthPulseMissed sd kept) s = act s (doHealthPulseMissed sd kept) := by rfl
theorem exec_heartbeat (sd : Fin 2) (s : State) : exec (.heartbeat sd) s = act s (doHeartbeat sd) := by rfl
theorem exec_heartbeatMissed (sd : Fin 2) (retrain : Bool) (kept : Nat) (s : State) :
    exec (.heartbeatMissed sd retrain kept) s = act s (doHeartbeatMissed sd retrain kept) := by rfl
theorem exec_faultSignal (sd : Fin 2) (st bt inst : BitVec 8) (kept : Nat) (s : State) :
    exec (.faultSignal sd st bt inst kept) s = act s (doFaultSignal sd st bt inst kept) := by rfl
theorem exec_bridgeCreditTimeout (sd : Fin 2) (kept : Nat) (s : State) :
    exec (.bridgeCreditTimeout sd kept) s = act s (doBridgeCreditTimeout sd kept) := by rfl
theorem exec_bridgeLaneFail (s : State) : exec .bridgeLaneFail s = act s doBridgeLaneFail := by rfl
theorem exec_arbiterCopyFault (copy : Fin 2) (s : State) : exec (.arbiterCopyFault copy) s = act s (doArbiterCopyFault copy) := by rfl

end Sys2Proof.Machine
end

section
/-! The settling of O44. -/

open Sys2Proof Sys2Proof.Machine

/-- Settles O44: each cause counts or clears what it finds, or ends in `failSide` from a machine in Normal mode, where the other side takes over
(`failSide_takenOver`). -/
theorem sideFaultsAndTakeover : Obligations.SideFaultsAndTakeover := by
  unfold Obligations.SideFaultsAndTakeover
  refine ⟨?_, ?_, ?_, ?_, ?_, ?_, ?_, ?_, ?_, ?_, ?_, ?_, ?_, ?_, ?_, ?_, ?_⟩
  · rintro _ q m rfl hs
    exact leads_eq (exec_healthPulse ..) (healthPulse_running (sd := 0) hs)
  · rintro _ q m rfl hs
    exact leads_eq (exec_healthPulse ..) (healthPulse_running (sd := 1) hs)
  · intro sd kept q m hs hn
    exact leads_eq (exec_healthPulseMissed ..) (healthPulseMissed_counts hs kept hn)
  · intro sd kept q m hs hn hm hup hr
    exact ⟨_, leads_act (exec_healthPulseMissed ..), healthPulseMissed_takenOver hs kept hn ⟨hm, hup, hr⟩⟩
  · intro sd q m hup
    exact leads_eq (exec_heartbeat ..) (heartbeat_up hup)
  · intro sd q m hup
    exact leads_eq (exec_heartbeat ..) (heartbeat_down hup)
  · intro sd kept q m hup hn
    refine leads_eq (exec_heartbeatMissed ..) ((heartbeatMissed_up false kept hup).trans (if_neg ?_))
    rintro ⟨-, h | h⟩
    · exact absurd h (by decide)
    · omega
  · intro sd retrain kept q m hup hn hm hboth hr ha hb
    exact ⟨_, leads_act (exec_heartbeatMissed ..), heartbeatMissed_takenOver retrain kept hup hn ⟨hm, hboth, hr⟩ ha hb⟩
  · intro sd retrain kept q m hup hpulse
    refine leads_eq (exec_heartbeatMissed ..) ((heartbeatMissed_up retrain kept hup).trans (if_neg ?_))
    rintro ⟨⟨ha, hb⟩, -⟩
    rcases hpulse with h | h
    · exact absurd (ha.symm.trans h) (by decide)
    · exact absurd (hb.symm.trans h) (by decide)
  · intro sd st bt inst kept q m hs hm hup hr
    exact ⟨_, leads_act (exec_faultSignal ..), faultSignal_takenOver st bt inst kept hs ⟨hm, hup, hr⟩⟩
  · intro sd st bt inst kept q m hs
    exact leads_eq (exec_faultSignal ..) (faultSignal_notRunning st bt inst kept hs)
  · intro sd kept h l img o a rest q m hs hh hup hm hboth hr
    exact ⟨_, leads_act (exec_bridgeCreditTimeout ..), bridgeCreditTimeout_takenOver kept hs hh hup ⟨hm, hboth, hr⟩⟩
  · intro sd kept h l q m hs
    exact leads_eq (exec_bridgeCreditTimeout ..) (bridgeCreditTimeout_release kept hs)
  · intro sd kept q m hs
    exact leads_eq (exec_bridgeCreditTimeout ..) (bridgeCreditTimeout_noStream kept hs)
  · intro q m h0 h1
    exact leads_eq (exec_bridgeLaneFail _) (bridgeLaneFail_bothUp h0 h1)
  · intro q m h0 h1
    exact leads_eq (exec_bridgeLaneFail _) (bridgeLaneFail_oneUp h0 h1)
  · exact fun copy q m => leads_eq (exec_arbiterCopyFault copy _) rfl

end

section
/-! SUPPORT. The end of an instruction: what it reads after and what it leaves (R279, R280). -/

namespace Sys2Proof.Machine

/-- Two conditions that say the same choose the same. -/
theorem ite_congr_iff {α : Sort _} {p q : Prop} [Decidable p] [Decidable q] {x y : α} (h : p ↔ q) :
    (if p then x else y) = if q then x else y :=
  ite_congr (propext h) (fun _ => rfl) fun _ => rfl

/-! ## Registers and engines after a write -/

theorem engOf_engSet (m : Mach) (e e' : Nat) (x : Eng) : engOf (engSet m e x) e' = if e = e' then x else engOf m e' := sget_sset ..

@[simp] theorem engOf_engSet_same (m : Mach) (e : Nat) (x : Eng) : engOf (engSet m e x) e = x := (engOf_engSet ..).trans (if_pos rfl)

theorem engOf_engSet_other (m : Mach) {e e' : Nat} (h : e ≠ e') (x : Eng) : engOf (engSet m e x) e' = engOf m e' :=
  (engOf_engSet ..).trans (if_neg h)

theorem engOf_eq_of_eng {m m' : Mach} (h : m'.eng = m.eng) (e : Nat) : engOf m' e = engOf m e := by
  simp only [engOf, h]

/-- A write of a register is read from it alone, and g0 reads 0 whatever is written. -/
theorem greg_gput (m : Mach) (e e' : Nat) (rd r : Fin 32) (v : Word) :
    greg (gput m e rd v) e' r = if r = 0 then 0 else if e' = e ∧ r = rd then v else greg m e' r := by
  unfold greg gput
  by_cases hr : r = 0
  · simp [hr]
  have hr' : r.val ≠ 0 := mt Fin.val_eq_zero_iff.mp hr
  rw [if_neg hr', if_neg hr, if_neg hr']
  by_cases hrd : rd.val = 0
  · have hne : r ≠ rd := fun h => hr' (h ▸ hrd)
    simp [hrd, hne]
  rw [if_neg hrd]
  refine (sget_sset ..).trans (ite_congr_iff ?_)
  rw [Fin.ext_iff]
  omega

@[simp] theorem engOf_gput (m : Mach) (e r e' : Nat) (v : Word) : engOf (gput m e r v) e' = engOf m e' := by
  unfold gput; split <;> rfl

@[simp] theorem gput_scratch (m : Mach) (e r : Nat) (v : Word) : (gput m e r v).eng.scratch = m.eng.scratch := by
  unfold gput; split <;> rfl

@[simp] theorem gput_prog (m : Mach) (e r : Nat) (v : Word) : (gput m e r v).eng.prog = m.eng.prog := by
  unfold gput; split <;> rfl

/-! ## The boundary after an instruction -/

/-- The counts of samples are the collector's, and nothing else takes part in them. -/
theorem sampleCount_same {β : Type} (p : Mach → β) (hp : ∀ m c, p { m with col := c } = p m) (m : Mach) (k i : Nat) (port : Option Nat) :
    p (sampleCount m k i port) = p m := by
  refine forN_same p (fun j a => ?_) 16 m
  dsimp only
  split
  · rfl
  split
  · rfl
  split
  · rfl
  split <;> exact hp ..

@[simp] theorem sampleCount_eng (m : Mach) (k i : Nat) (port : Option Nat) : (sampleCount m k i port).eng = m.eng :=
  sampleCount_same Mach.eng (fun _ _ => rfl) m k i port

/-- An engine with no trap to take and its time limit not reached passes its boundary. -/
theorem boundary_clear {m : Mach} {e : Nat} (ht : (engOf m e).trap = none) (hl : (engOf m e).late = false) : boundary m e = m := by
  simp [boundary, ht, hl]

theorem boundary_same {β : Type} (p : Mach → β) {e : Nat} (hp : ∀ m x, p (engSet m e x) = p m) (m : Mach) : p (boundary m e) = p m := by
  simp only [boundary, trapNow, apply_ite p, hp, ite_self]

/-- What a boundary writes of its engine is its state, its waits and its trap. -/
theorem boundary_engOf_same {β : Type} (p : Eng → β)
    (hp : ∀ x st w pr t, p { x with st := st, wait := w, p := pr, trap := t } = p x) (m : Mach) (e : Nat) :
    p (engOf (boundary m e) e) = p (engOf m e) := by
  simp only [boundary]
  split
  · exact (congrArg p (engOf_engSet_same ..)).trans (hp ..)
  split
  · exact (congrArg p (engOf_engSet_same ..)).trans (hp ..)
  · rfl

/-! ## Retirement -/

/-- Retirement counts, counts samples and writes its engine. -/
theorem retireTo_same {β : Type} (p : Mach → β) {e : Nat} (hcnt : ∀ m b k c, p (cntPut m b k c) = p m)
    (hcol : ∀ m c, p { m with col := c } = p m) (heng : ∀ m x, p (engSet m e x) = p m) (m : Mach) (pc : Nat) : p (retireTo m e pc) = p m := by
  rw [retireTo, boundary_same p heng, sampleCount_same p hcol, count_same p hcnt, heng]

/-- The engine as its retirement leaves it for the boundary. -/
theorem retireTo_eq (m : Mach) (e pc : Nat) : ∃ m', retireTo m e pc = boundary m' e ∧
    engOf m' e = { engOf m e with st := .running, pc := pc % 2 ^ 18, wait := .none, p := none, instret := (engOf m e).instret + 1 } := by
  unfold retireTo
  exact ⟨_, rfl, (engOf_eq_of_eng ((sampleCount_eng ..).trans (count_eng ..)) e).trans (engOf_engSet_same ..)⟩

theorem retireTo_pc (m : Mach) (e pc : Nat) : (engOf (retireTo m e pc) e).pc = pc % 2 ^ 18 := by
  obtain ⟨m', hm, he⟩ := retireTo_eq m e pc
  rw [hm, boundary_engOf_same Eng.pc (fun _ _ _ _ _ => rfl), he]

theorem retireTo_instret (m : Mach) (e pc : Nat) : (engOf (retireTo m e pc) e).instret = (engOf m e).instret + 1 := by
  obtain ⟨m', hm, he⟩ := retireTo_eq m e pc
  rw [hm, boundary_engOf_same Eng.instret (fun _ _ _ _ _ => rfl), he]

theorem retireTo_running {m : Mach} {e : Nat} (ht : (engOf m e).trap = none) (hl : (engOf m e).late = false) (pc : Nat) :
    (engOf (retireTo m e pc) e).st = .running := by
  obtain ⟨m', hm, he⟩ := retireTo_eq m e pc
  rw [hm, boundary_clear (by rw [he]; exact ht) (by rw [he]; exact hl), he]

theorem retireRd_eq (e rd : Nat) (v : Word) (m : Mach) : retireRd e rd v m = retireTo (gput m e rd v) e ((engOf m e).pc + 1) := by
  rw [retireRd, retire, engOf_gput]

/-- What neither counts nor collector nor an engine's record hold is after a retirement as the write of rd leaves it. -/
theorem retireRd_same {β : Type} (p : Mach → β) {e rd : Nat} {v : Word} {m : Mach}
    (hcnt : ∀ m b k c, p (cntPut m b k c) = p m := by intros; rfl) (hcol : ∀ m c, p { m with col := c } = p m := by intros; rfl)
    (heng : ∀ m x, p (engSet m e x) = p m := by intros; rfl) : p (retireRd e rd v m) = p (gput m e rd v) := by
  rw [retireRd_eq, retireTo_same p hcnt hcol heng]

end Sys2Proof.Machine
end

section
/-! The settling of O15. -/

open Sys2Proof Sys2Proof.Machine

/-- Settles O15: a retirement counts, counts samples and writes its own engine (`retireRd_same`), so all else is as the write of rd leaves it, and
the engine is what `retireTo` makes of it. -/
theorem retireWritesRd : Obligations.RetireWritesRd := by
  unfold Obligations.RetireWritesRd
  intro e rd v m
  refine ⟨?_, ?_, ?_, ?_, ?_, ?_, ?_, ?_, ?_, ?_, ?_, ?_, ?_, ?_⟩
  · exact fun e' r => (retireRd_same (greg · e' r)).trans
      ((greg_gput ..).trans (by simp only [Fin.ext_iff]))
  · exact fun e' h => (retireRd_same (engOf · e') (heng := fun _ => engOf_engSet_other _ (Fin.val_ne_of_ne h.symm))).trans (engOf_gput ..)
  · rw [retireRd_eq, retireTo_pc]
  · rw [retireRd_eq, retireTo_instret, engOf_gput]
  · intro ht hl
    rw [retireRd_eq, retireTo_running] <;> rwa [engOf_gput]
  · exact (retireRd_same (·.eng.scratch)).trans (gput_scratch ..)
  · exact (retireRd_same (·.eng.prog)).trans (gput_prog ..)
  · exact (retireRd_same Mach.regs).trans (gput_regs ..)
  · exact (retireRd_same Mach.home).trans (gput_home ..)
  · exact (retireRd_same Mach.rsv).trans (gput_rsv ..)
  · exact (retireRd_same Mach.tw).trans (gput_tw ..)
  · exact (retireRd_same Mach.twin).trans (gput_twin ..)
  · exact (retireRd_same Mach.ports).trans (gput_ports ..)
  · exact (retireRd_same Mach.comp).trans (gput_comp ..)

end

section
/-! SUPPORT. The values of the ALU, the immediate forms and the bit fields (Tables 11-4 and 11-5). -/

namespace Sys2Proof.Machine

/-! ## Truth values -/

theorem flag_eq {b : Bool} {p : Prop} [Decidable p] (h : b = true ↔ p) : flag b = if p then 1 else 0 := ite_congr_iff h

theorem flag_not_eq {b : Bool} {p : Prop} [Decidable p] (h : b = true ↔ ¬ p) : flag b = if p then 0 else 1 :=
  (flag_eq h).trans (ite_not ..)

theorem not_slt_iff {a b : Word} : (!a.slt b) = true ↔ b.toInt ≤ a.toInt := by
  rw [← BitVec.sle_eq_not_slt, BitVec.sle_iff_toInt_le]

theorem not_ult_iff {a b : Word} : (!a.ult b) = true ↔ b.toNat ≤ a.toNat := by
  rw [← BitVec.ule_eq_not_ult, BitVec.ule_iff_toNat_le]

/-! ## Counts of bits -/

theorem bitOf_eq_testBit (n i : Nat) : bitOf n i = n.testBit i := by
  rw [bitOf, Nat.testBit_eq_decide_div_mod_eq, Nat.shiftRight_eq_div_pow]

/-- The recursion takes the lowest bit off, and the list of bit numbers its head. -/
theorem popc_eq_length (w n : Nat) : popc w n = ((List.range w).filter n.testBit).length := by
  induction w generalizing n with
  | zero => rfl
  | succ w ih =>
    have htail : n.testBit ∘ Nat.succ = (n / 2).testBit := funext fun k => Nat.testBit_succ ..
    rw [popc, ih, List.range_succ_eq_map, List.filter_cons, List.filter_map, htail, Nat.testBit_zero]
    rcases Nat.mod_two_eq_zero_or_one n with h | h <;> simp [h, Nat.add_comm]

theorem popc_word (a : Word) : popc 64 a.toNat = ((List.range 64).filter fun k => a.getLsbD k).length := popc_eq_length ..

theorem flag_parity (a : Word) : flag (parity 64 a.toNat) = BitVec.ofNat 64 (popc 64 a.toNat % 2) := by
  rw [flag, parity]
  rcases Nat.mod_two_eq_zero_or_one (popc 64 a.toNat) with h | h <;> rw [h] <;> rfl

theorem clz_zero : clz 0 = 64 := rfl

theorem clz_of_ne_zero {n : Nat} (h : n ≠ 0) : clz n = 63 - n.log2 := if_neg (by simpa using h)

theorem log2_word_lt {a : Word} (h : a.toNat ≠ 0) : a.toNat.log2 < 64 := (Nat.log2_lt h).mpr a.isLt

theorem clz_le (a : Word) : clz a.toNat ≤ 64 := by
  by_cases h : a.toNat = 0
  · exact Nat.le_of_eq (h ▸ clz_zero)
  · rw [clz_of_ne_zero h]; omega

/-- Above the highest one, at `log2`, every bit is 0. -/
theorem getMsbD_below_clz (a : Word) {k : Nat} (hk : k < clz a.toNat) : a.getMsbD k = false := by
  have hlt : k < 64 := Nat.lt_of_lt_of_le hk (clz_le a)
  rw [BitVec.getMsbD_eq_getLsbD, ← BitVec.testBit_toNat]
  by_cases h : a.toNat = 0
  · simp [h]
  · rw [clz_of_ne_zero h] at hk
    have hpow : a.toNat < 2 ^ (64 - 1 - k) := (Nat.log2_lt h).mp (by omega)
    rw [Nat.testBit_lt_two_pow hpow, Bool.and_false]

theorem getMsbD_clz (a : Word) (hv : clz a.toNat < 64) : a.getMsbD (clz a.toNat) = true := by
  have h : a.toNat ≠ 0 := fun h => by rw [h, clz_zero] at hv; omega
  have hlog := log2_word_lt h
  have hpos : 64 - 1 - (63 - a.toNat.log2) = a.toNat.log2 := by omega
  rw [BitVec.getMsbD_eq_getLsbD, ← BitVec.testBit_toNat, decide_eq_true hv, clz_of_ne_zero h, hpos, Nat.testBit_log2 h, Bool.and_self]

/-- The trailing zeros end at the first one that the search finds, or fill the word. -/
theorem ctz_spec (a : Word) :
    ctz a.toNat ≤ 64 ∧ (∀ k < ctz a.toNat, a.getLsbD k = false) ∧ (ctz a.toNat < 64 → a.getLsbD (ctz a.toNat) = true) := by
  simp only [← BitVec.testBit_toNat, ← bitOf_eq_testBit]
  unfold ctz lowest?
  cases h : (List.range 64).find? fun i => bitOf a.toNat i with
  | none =>
    rw [List.find?_eq_none] at h
    exact ⟨Nat.le_refl _, fun k hk => eq_false_of_ne_true (h k (List.mem_range.mpr hk)), fun hv => absurd hv (Nat.lt_irrefl _)⟩
  | some i =>
    obtain ⟨hone, hi, hzero⟩ := List.find?_range_eq_some.mp h
    exact ⟨Nat.le_of_lt (List.mem_range.mp hi), fun k hk => Bool.not_eq_true' _ ▸ hzero k hk, fun _ => hone⟩

/-! ## Bit fields -/

theorem ext_value (a : Word) (lo : Nat) {w : Nat} (hw : w ≤ 64) :
    BitVec.ofNat 64 (bitsOf a.toNat lo w) = (a >>> lo) &&& BitVec.ofNat 64 (2 ^ w - 1) := by
  have hmask : 2 ^ w - 1 < 2 ^ 64 := Nat.lt_of_lt_of_le (Nat.sub_lt (Nat.two_pow_pos w) Nat.one_pos) (Nat.pow_le_pow_right (by decide) hw)
  apply BitVec.eq_of_toNat_eq
  rw [BitVec.toNat_and, BitVec.toNat_ofNat, BitVec.toNat_ofNat, Nat.mod_eq_of_lt hmask, Nat.and_two_pow_sub_one_eq_mod, BitVec.toNat_ushiftRight,
    bitsOf]
  exact Nat.mod_eq_of_lt (Nat.lt_of_le_of_lt (Nat.mod_le _ _) (Nat.lt_of_le_of_lt (Nat.shiftRight_le ..) a.isLt))

/-- A number with a field replaced: what lies above the field, the field and what lies below it. -/
theorem setBits_eq (n lo w v : Nat) : setBits n lo w v = 2 ^ lo * (2 ^ w * (n / 2 ^ lo / 2 ^ w) + v % 2 ^ w) + n % 2 ^ lo := by
  have hhigh := Nat.div_add_mod (n / 2 ^ lo) (2 ^ w)
  have hlow := Nat.div_add_mod n (2 ^ lo)
  rw [setBits, bitsOf_eq]
  generalize n / 2 ^ lo / 2 ^ w = h, n / 2 ^ lo % 2 ^ w = f, n % 2 ^ lo = l at *
  have hsplit : n = (2 ^ lo * (2 ^ w * h) + l) + f * 2 ^ lo := by
    rw [← hlow, ← hhigh, Nat.mul_add, Nat.mul_comm f, Nat.add_right_comm]
  rw [hsplit, Nat.add_sub_cancel, Nat.mul_add, Nat.mul_comm (v % 2 ^ w), Nat.add_right_comm]

theorem testBit_setBits (n lo w v k : Nat) :
    (setBits n lo w v).testBit k = if lo ≤ k ∧ k < lo + w then v.testBit (k - lo) else n.testBit k := by
  rw [setBits_eq, Nat.testBit_two_pow_mul_add _ (Nat.mod_lt _ (Nat.two_pow_pos lo)),
    Nat.testBit_two_pow_mul_add _ (Nat.mod_lt _ (Nat.two_pow_pos w))]
  rcases Nat.lt_or_ge k lo with hk | hk
  · simp [hk, Nat.not_le.mpr hk]
  rcases Nat.lt_or_ge (k - lo) w with hw | hw
  · rw [if_neg (by omega), if_pos hw, if_pos (by omega)]
    simp [hw]
  · rw [if_neg (by omega), if_neg (by omega), if_neg (by omega), Nat.testBit_div_two_pow, Nat.testBit_div_two_pow]
    congr 1
    omega

theorem ins_value_bits (d a : Word) (lo wm1 : Nat) {k : Nat} (hk : k < 64) :
    (BitVec.ofNat 64 (setBits d.toNat lo (wm1 + 1) a.toNat)).getLsbD k =
      if lo ≤ k ∧ k ≤ lo + wm1 then a.getLsbD (k - lo) else d.getLsbD k := by
  simp only [BitVec.getLsbD_ofNat, hk, decide_true, Bool.true_and, testBit_setBits, BitVec.testBit_toNat, ← Nat.add_assoc, Nat.lt_succ_iff]

/-! ## Signed offsets -/

/-- The sum of 18 bits is the sum of the integers modulo 2^18, the offset being its signed value. -/
theorem pcPlus_eq {w : Nat} (pc : Nat) (off : BitVec w) : pcPlus pc off = ((pc + off.toInt) % 2 ^ 18).toNat := by
  rw [pcPlus, ← BitVec.ofInt_natCast, BitVec.signExtend, ← BitVec.ofInt_add, BitVec.toNat_ofInt]
  rfl

end Sys2Proof.Machine
end

section
/-! SUPPORT. The shared paths of the ALU, the immediate forms, the bit fields, the branches and the jumps (R285, R286, R290). -/

namespace Sys2Proof.Machine

section
variable {i : Instr} {q : List Instr} {m : Mach} {e op rd ra rb fn : Nat} {v : Word}

/-- In these rules `h` is the dispatch of the command, true by unfolding, and `hv` or `hp` reads the model's value as the table states it. -/
theorem alu_leads {f : Word → Word → Word} (h : exec i ⟨q, m⟩ = act ⟨q, m⟩ (alu e rd ra rb fn f))
    (hw : atWord m e (encA 0 rd ra rb fn) = true) (hv : f (greg m e ra) (greg m e rb) = v) : Leads i q m (retireRd e rd v m) :=
  leads_eq h ((issue_at hw _).trans (by rw [hv]))

theorem alui_leads {imm : BitVec 16} {f : Word → BitVec 16 → Word} (h : exec i ⟨q, m⟩ = act ⟨q, m⟩ (alui e op rd ra imm f))
    (hw : atWord m e (encI op rd ra imm.toNat) = true) (hv : f (greg m e ra) imm = v) : Leads i q m (retireRd e rd v m) :=
  leads_eq h ((issue_at hw _).trans (by rw [hv]))

theorem ofNat_shift_toNat (sh : Fin 64) : (BitVec.ofNat 16 sh).toNat = sh :=
  (BitVec.toNat_ofNat ..).trans (Nat.mod_eq_of_lt (Nat.lt_trans sh.isLt (by decide)))

/-- A shift by an immediate has the shift amount as its immediate (imm[15:6] is 0). -/
theorem shifti_leads {sh : Fin 64} {f : Word → Nat → Word}
    (h : exec i ⟨q, m⟩ = act ⟨q, m⟩ (alui e op rd ra (BitVec.ofNat 16 sh) fun a k => f a k.toNat))
    (hw : atWord m e (encI op rd ra sh) = true) : Leads i q m (retireRd e rd (f (greg m e ra) sh) m) :=
  alui_leads h (by rwa [ofNat_shift_toNat]) (by rw [ofNat_shift_toNat])

theorem extIns_leads {lo wm1 : Nat} {f : Word → Word → Word} (h : exec i ⟨q, m⟩ = act ⟨q, m⟩ (extIns e op rd ra lo wm1 f))
    (hw : atWord m e (encI op rd ra (lo + wm1 * 64)) = true) (hr : lo + wm1 + 1 ≤ 64) (hv : f (greg m e rd) (greg m e ra) = v) :
    Leads i q m (retireRd e rd v m) :=
  leads_eq h ((issue_at hw _).trans ((if_neg (Nat.not_lt.mpr hr)).trans (by rw [hv])))

theorem extIns_traps {lo wm1 : Nat} {f : Word → Word → Word} (h : exec i ⟨q, m⟩ = act ⟨q, m⟩ (extIns e op rd ra lo wm1 f))
    (hw : atWord m e (encI op rd ra (lo + wm1 * 64)) = true) (hr : 64 < lo + wm1 + 1) : Leads i q m (trapNow m e .illegal 0) :=
  leads_eq h ((issue_at hw _).trans (if_pos hr))

theorem branch_leads {off : BitVec 16} {c : Word → Word → Bool} {p : Prop} [Decidable p]
    (h : exec i ⟨q, m⟩ = act ⟨q, m⟩ (branch e op ra rb off c)) (hw : atWord m e (encI op ra rb off.toNat) = true)
    (hp : c (greg m e ra) (greg m e rb) = true ↔ p) :
    Leads i q m (if p then retireTo m e (((engOf m e).pc + off.toInt) % 2 ^ 18).toNat else retire m e) :=
  leads_eq h ((issue_at hw _).trans ((ite_congr_iff hp).trans (by rw [pcPlus_eq])))

/-- The fetch beyond the program store passes no FENCE and traps ACCESS. -/
theorem issue_outside {w : Nat} (hst : (engOf m e).st = .running) (hwait : (engOf m e).wait = .none) (ht : (engOf m e).trap = none)
    (hl : (engOf m e).late = false) (hpc : 0x3FC00 ≤ (engOf m e).pc) (k : Mach → Mach) : issue e w k m = trapNow m e .access 0 := by
  have hstay (n : Nat) : passFences n e m = m := by
    cases n with
    | zero => rfl
    | succ n => simp [passFences, Nat.not_lt.mpr hpc]
  simp [issue, issueIf, hstay, hst, hwait, ht, hl, hpc]

theorem branch_outside {off : BitVec 16} {c : Word → Word → Bool} (h : exec i ⟨q, m⟩ = act ⟨q, m⟩ (branch e op ra rb off c))
    (hst : (engOf m e).st = .running) (hwait : (engOf m e).wait = .none) (ht : (engOf m e).trap = none) (hl : (engOf m e).late = false)
    (hpc : 0x3FC00 ≤ (engOf m e).pc) : Leads i q m (trapNow m e .access 0) :=
  leads_eq h (issue_outside hst hwait ht hl hpc _)

theorem jal_at {e rd : Fin 32} {off : BitVec 21} (hw : atWord m e (encJ rd off.toNat) = true) :
    doJal e rd off m =
      retireTo (gput m e rd (BitVec.ofNat 64 (((engOf m e).pc + 1) % 2 ^ 18))) e (((engOf m e).pc + off.toInt) % 2 ^ 18).toNat := by
  rw [doJal, issue_at hw, ← pcPlus_eq]

end

end Sys2Proof.Machine
end

section
/-! The settling of O9, O10 and O11. -/

open Sys2Proof Sys2Proof.Machine

/-- Settles O9: every form is an `alu` whose value is the table's own. -/
theorem aluArithmetic : Obligations.AluArithmetic := by
  unfold Obligations.AluArithmetic
  refine ⟨?_, ?_, ?_, ?_, ?_, ?_, ?_, ?_, ?_, ?_, ?_, ?_, ?_, ?_⟩ <;> exact fun e rd ra rb q m hw => alu_leads rfl hw rfl

/-- Settles O10: every form is an `alu` whose comparison is the table's (`flag_eq`). -/
theorem aluComparisons : Obligations.AluComparisons := by
  unfold Obligations.AluComparisons
  refine ⟨?_, ?_, ?_, ?_, ?_, ?_, ?_, ?_⟩
  · exact fun e rd ra rb q m hw => alu_leads rfl hw (flag_eq beq_iff_eq)
  · exact fun e rd ra rb q m hw => alu_leads rfl hw (flag_not_eq bne_iff_ne)
  · exact fun e rd ra rb q m hw => alu_leads rfl hw (flag_eq BitVec.slt_iff_toInt_lt)
  · exact fun e rd ra rb q m hw => alu_leads rfl hw (flag_eq BitVec.ult_iff_lt)
  · exact fun e rd ra rb q m hw => alu_leads rfl hw (ite_congr_iff BitVec.slt_iff_toInt_lt)
  · exact fun e rd ra rb q m hw => alu_leads rfl hw (ite_congr_iff BitVec.slt_iff_toInt_lt)
  · exact fun e rd ra rb q m hw => alu_leads rfl hw (ite_congr_iff BitVec.ult_iff_lt)
  · exact fun e rd ra rb q m hw => alu_leads rfl hw (ite_congr_iff BitVec.ult_iff_lt)

/-- Settles O11: the counts of ones are those of the list of ones (`popc_word`), the counts of zeros end at the first one. -/
theorem aluCounts : Obligations.AluCounts := by
  unfold Obligations.AluCounts
  refine ⟨?_, ?_, ?_, ?_⟩
  · exact fun e rd ra q m hw => ⟨_, popc_word _, alu_leads rfl hw rfl⟩
  · exact fun e rd ra q m hw => ⟨_, clz_le _, fun k hk => getMsbD_below_clz _ hk, getMsbD_clz _, alu_leads rfl hw rfl⟩
  · intro e rd ra q m hw
    obtain ⟨hle, hzero, hone⟩ := ctz_spec (greg m e ra)
    exact ⟨_, hle, hzero, hone, alu_leads rfl hw rfl⟩
  · exact fun e rd ra q m hw => ⟨_, congrArg (· % 2) (popc_word _), alu_leads rfl hw (flag_parity _)⟩

end

section
/-! The settling of O12 and O13. -/

open Sys2Proof Sys2Proof.Machine

/-- Settles O12: every form is an `alui`; the order of SLTI is that of the immediate's signed value. -/
theorem immediateResults : Obligations.ImmediateResults := by
  unfold Obligations.ImmediateResults
  refine ⟨?_, ?_, ?_, ?_, ?_, ?_, ?_, ?_, ?_, ?_, ?_, ?_, ?_⟩
  · exact fun e rd ra imm q m hw => alui_leads rfl hw rfl
  · exact fun e rd ra imm q m hw => alui_leads rfl hw rfl
  · exact fun e rd ra imm q m hw => alui_leads rfl hw rfl
  · exact fun e rd ra imm q m hw => alui_leads rfl hw rfl
  · exact fun e rd ra sh q m hw => shifti_leads rfl hw
  · exact fun e rd ra sh q m hw => shifti_leads rfl hw
  · exact fun e rd ra sh q m hw => shifti_leads rfl hw
  · exact fun e rd imm q m hw => alui_leads rfl hw rfl
  · exact fun e rd ra imm q m hw => alui_leads rfl hw rfl
  · exact fun e rd ra imm q m hw => alui_leads rfl hw
      (flag_eq (BitVec.slt_iff_toInt_lt.trans (by rw [BitVec.toInt_signExtend_of_le (by decide)])))
  · exact fun e rd ra imm q m hw => alui_leads rfl hw (flag_eq BitVec.ult_iff_lt)
  · exact fun e rd ra imm q m hw => alui_leads rfl hw (flag_eq beq_iff_eq)
  · exact fun e rd ra imm q m hw => alui_leads rfl hw rfl

/-- Settles O13: EXT takes its field by a shift and a mask (`ext_value`), and the bits that INS leaves are those of `ins_value_bits`. -/
theorem bitFields : Obligations.BitFields := by
  unfold Obligations.BitFields
  refine ⟨?_, ?_, ?_, ?_⟩
  · exact fun e rd ra lo wm1 q m hw hr => extIns_leads rfl hw hr (ext_value _ _ (by omega))
  · exact fun e rd ra lo wm1 q m hw hr => ⟨_, fun k hk => ins_value_bits _ _ _ _ hk, extIns_leads rfl hw hr rfl⟩
  · exact fun e rd ra lo wm1 q m hw hr => extIns_traps rfl hw hr
  · exact fun e rd ra lo wm1 q m hw hr => extIns_traps rfl hw hr

end

section
/-! The settling of O14. -/

open Sys2Proof Sys2Proof.Machine

/-- Settles O14: every branch is a `branch`, whose target is the sum modulo 2^18 (`pcPlus_eq`); no word is fetched beyond the program store. -/
theorem branchesAndJumps : Obligations.BranchesAndJumps := by
  unfold Obligations.BranchesAndJumps
  refine ⟨?_, ?_, ?_, ?_, ?_, ?_, ?_, ?_, ?_⟩
  · exact fun e ra rb off q m hw => branch_leads rfl hw beq_iff_eq
  · exact fun e ra rb off q m hw => branch_leads rfl hw bne_iff_ne
  · exact fun e ra rb off q m hw => branch_leads rfl hw BitVec.slt_iff_toInt_lt
  · exact fun e ra rb off q m hw => branch_leads rfl hw not_slt_iff
  · exact fun e ra rb off q m hw => branch_leads rfl hw BitVec.ult_iff_lt
  · exact fun e ra rb off q m hw => branch_leads rfl hw not_ult_iff
  · exact fun e rd off q m hw => leads_eq rfl (jal_at hw)
  · exact fun e rd ra imm q m hw => leads_eq rfl (issue_at hw _)
  · exact fun e ra rb off q m hst hwait ht hl hpc => branch_outside rfl hst hwait ht hl hpc

end

section
/-! SUPPORT. The one form of every command's meaning. -/

namespace Sys2Proof.Machine

theorem exec_is_act (i : Instr) (s : State) : ∃ f : Mach → Mach, exec i s = act s f := by
  cases i <;> exact ⟨_, rfl⟩

end Sys2Proof.Machine
end

section
/-! The settling of O1 and O2. -/

open Sys2Proof Sys2Proof.Machine

/-- Settles O1: both branches of `step` are its definition. -/
theorem aStepPerformsTheFrontCommand : Obligations.AStepPerformsTheFrontCommand :=
  ⟨fun _ _ _ => rfl, fun _ => rfl⟩

/-- Settles O2: every command's meaning is an `act` (`exec_is_act`), which answers a next state and keeps the queue. -/
theorem everyCommandCompletes : Obligations.EveryCommandCompletes := by
  intro i q m
  obtain ⟨f, hf⟩ := exec_is_act i ⟨q, m⟩
  exact ⟨settle m (f m), hf⟩

end

section
/-! SUPPORT. Which register fields an update leaves alone, and what an error record writes (R403, R404). -/

namespace Sys2Proof.Machine

/-- A field of the same block at another place reads as before. -/
theorem fget_fset_at (m : Mach) (b : Nat) (f g : Fld) (v : Nat) (h : f.off * 8 + f.lo ≠ g.off * 8 + g.lo) :
    fget (fset m b f v) b g = fget m b g := fget_fset_other _ _ _ _ _ _ (by omega)

/-- Only the register cells that `p` allows differ. -/
structure RegsBut (p : Nat → Prop) (m m' : Mach) : Prop where
  cell : ∀ k, ¬ p k → mget m'.regs k = mget m.regs k

section
variable {p : Nat → Prop} {a b c m m' : Mach}

theorem RegsBut.refl (m : Mach) : RegsBut p m m := ⟨fun _ _ => rfl⟩

theorem RegsBut.trans (h : RegsBut p a b) (h' : RegsBut p b c) : RegsBut p a c :=
  ⟨fun k hk => (h'.cell k hk).trans (h.cell k hk)⟩

theorem RegsBut.of_regs (h : m'.regs = m.regs) : RegsBut p m m' := ⟨fun _ _ => by rw [h]⟩

theorem RegsBut.fset (h : RegsBut p m m') {b : Nat} {f : Fld} (hp : p (fkey b f)) (v : Nat) : RegsBut p m (fset m' b f v) := by
  refine ⟨fun k hk => ?_⟩
  have hne : fkey b f ≠ k := fun e => hk (e ▸ hp)
  rw [← h.cell k hk]
  unfold Machine.fset sset
  dsimp only
  split
  · rw [mget_mdel, if_neg (by exact hne)]
  · rw [mget_mput, if_neg (by exact hne)]

theorem RegsBut.ite {q : Prop} [Decidable q] (ha : RegsBut p m a) (hb : RegsBut p m b) : RegsBut p m (if q then a else b) := by
  split <;> assumption

theorem RegsBut.forN {f : Nat → Mach → Mach} {n : Nat} (h : ∀ i < n, ∀ a, RegsBut p a (f i a)) (hm : RegsBut p m m') :
    RegsBut p m (forN n f m') := by
  induction n with
  | zero => exact hm
  | succ n ih => exact (ih fun i hi => h i (by omega)).trans (h n (by omega) _)

theorem RegsBut.foldl {γ : Type} {f : Mach → γ → Mach} {l : List γ} (h : ∀ a, ∀ x ∈ l, RegsBut p a (f a x)) (hm : RegsBut p m m') :
    RegsBut p m (l.foldl f m') := by
  induction l generalizing m' with
  | nil => exact hm
  | cons x l ih => exact ih (fun a y hy => h a y (List.mem_cons_of_mem _ hy)) (hm.trans (h m' x (List.mem_cons_self ..)))

theorem RegsBut.mono {q : Nat → Prop} (hpq : ∀ k, p k → q k) (h : RegsBut p m m') : RegsBut q m m' :=
  ⟨fun k hk => h.cell k (mt (hpq k) hk)⟩

theorem RegsBut.fget (h : RegsBut p m m') {b : Nat} {f : Fld} (hp : ¬ p (fkey b f)) : fget m' b f = fget m b f := by
  unfold Machine.fget sget
  rw [show mget m'.regs ((b + f.off) * 8 + f.lo) = _ from h.cell _ hp]

end

/-! ## Records -/

/-- The count of records that no list had room for (R463). -/
def dropKey : Nat := fkey mgtBase R.MGT_LOGSTAT_DROPS

/-- A cell that an error record writes: in ERR_SUM and ERR_LAST, or the count of dropped records. -/
def errKey (k : Nat) : Prop := (0x2000 ≤ k / 8 ∧ k / 8 < 0x2080) ∨ k = dropKey

theorem logRecord_regsBut (m : Mach) (w : Nat) (ws : List Nat) : RegsBut (· = dropKey) m (logRecord m w ws) := by
  unfold logRecord
  extract_lets r next
  split
  · refine .of_regs ?_
    simp [next, logWrite, logFlush, apply_ite Mach.regs]
  · split
    · exact .of_regs rfl
    · exact RegsBut.fset (p := (· = dropKey)) (.refl m) rfl _

theorem errWrite_regsBut (m : Mach) (e : Err) (n : Nat) : RegsBut errKey m (errWrite m e n) := by
  unfold errWrite
  extract_lets +onlyGivenNames w0 w25 seq m1 ws m2 m3 cls det
  have h1 : RegsBut errKey m m1 := .of_regs (soakErr_regs ..)
  have h2 : RegsBut errKey m m2 := by
    dsimp only [m2]
    split
    · exact h1
    · refine h1.forN fun i hi a => (RegsBut.refl a).fset (.inl ?_) _
      unfold fkey aonBase R.ERR_LAST_WORD
      dsimp only
      omega
  exact (h2.trans ((logRecord_regsBut ..).mono fun _ hk => .inr hk)).trans (.of_regs rfl)

theorem err_regsBut (m : Mach) (e : Err) : RegsBut errKey m (err m e) := by
  unfold err
  extract_lets +onlyGivenNames m1 key sec c0 c put
  have h1 : RegsBut errKey m m1 := by
    dsimp only [m1]
    split <;> exact (RegsBut.refl m).fset (.inl (by decide)) _
  have hput (m : Mach) (c : CeRate) : RegsBut errKey m (put m c) := .of_regs rfl
  clear_value put
  split
  · split
    · exact (h1.trans (hput ..)).trans (errWrite_regsBut ..)
    · exact h1.trans (hput ..)
  · exact h1.trans (errWrite_regsBut ..)

/-! ## Parts that no report touches -/

/-- `m'` is `m` but for registers, counters, the log, the note of a soak's error, and notices. -/
def ReportOnly (m m' : Mach) : Prop :=
  ∃ r c l b v, m' = { m with regs := r, cnts := c, log := l, twin := { m.twin with soakBad := b }, events := v }

section
variable {a b c m m' : Mach}

theorem ReportOnly.refl (m : Mach) : ReportOnly m m := ⟨_, _, _, _, _, rfl⟩

theorem ReportOnly.trans (h : ReportOnly a b) (h' : ReportOnly b c) : ReportOnly a c := by
  obtain ⟨_, _, _, _, _, rfl⟩ := h
  obtain ⟨_, _, _, _, _, rfl⟩ := h'
  exact ⟨_, _, _, _, _, rfl⟩

theorem ReportOnly.ite {q : Prop} [Decidable q] (ha : ReportOnly m a) (hb : ReportOnly m b) : ReportOnly m (if q then a else b) := by
  split <;> assumption

theorem ReportOnly.forN {f : Nat → Mach → Mach} (h : ∀ i a, ReportOnly a (f i a)) (n : Nat) (m : Mach) : ReportOnly m (forN n f m) := by
  induction n with
  | zero => exact .refl m
  | succ n ih => exact ih.trans (h n _)

theorem fset_reportOnly (m : Mach) (b : Nat) (f : Fld) (v : Nat) : ReportOnly m (fset m b f v) := ⟨_, _, _, _, _, rfl⟩

theorem count_reportOnly (m : Mach) (b c n : Nat) : ReportOnly m (count m b c n) := by
  unfold count
  exact .ite (.refl m) (.forN (fun i a => .ite ⟨_, _, _, _, _, rfl⟩ (.refl a)) 8 m)

theorem log_reportOnly (m : Mach) (l : Log) : ReportOnly m { m with log := l } := ⟨_, _, _, _, _, rfl⟩

theorem logFlush_reportOnly (m : Mach) : ReportOnly m (logFlush m) := (log_reportOnly m _).trans (count_reportOnly ..)

theorem logWrite_reportOnly (m : Mach) (r : LogRec) : ReportOnly m (logWrite m r) := by
  have h : ReportOnly m (count m mgtBase 0x02) := count_reportOnly ..
  unfold logWrite
  extract_lets +onlyGivenNames m1 ring l1 m2 l2 m3
  have h2 : ReportOnly m m2 := h.trans (log_reportOnly ..)
  have h3 : ReportOnly m m3 := h2.trans (log_reportOnly ..)
  exact .ite h2 (.ite (h3.trans (logFlush_reportOnly _)) h3)

theorem logRecord_reportOnly (m : Mach) (w : Nat) (ws : List Nat) : ReportOnly m (logRecord m w ws) := by
  unfold logRecord
  extract_lets r next
  exact .ite ((logWrite_reportOnly ..).trans (log_reportOnly ..)) (.ite (log_reportOnly ..) (fset_reportOnly ..))

theorem soakErr_reportOnly (m : Mach) (e : Err) : ReportOnly m (soakErr m e) := by
  rcases soakErr_eq m e with h | h <;> rw [h]
  · exact .refl m
  · exact ⟨_, _, _, _, _, rfl⟩

theorem errWrite_reportOnly (m : Mach) (e : Err) (n : Nat) : ReportOnly m (errWrite m e n) := by
  unfold errWrite
  extract_lets +onlyGivenNames w0 w25 seq m1 ws m2 m3 cls det
  have h1 : ReportOnly m m1 := soakErr_reportOnly ..
  have h2 : ReportOnly m m2 := .ite h1 (h1.trans (.forN (fun _ _ => fset_reportOnly ..) 8 _))
  exact (h2.trans (logRecord_reportOnly ..)).trans ⟨_, _, _, _, _, rfl⟩

theorem err_reportOnly (m : Mach) (e : Err) : ReportOnly m (err m e) := by
  unfold err
  extract_lets +onlyGivenNames m1 key sec c0 c put
  have h1 : ReportOnly m m1 := fset_reportOnly ..
  have hput (m : Mach) (c : CeRate) : ReportOnly m (put m c) := log_reportOnly ..
  clear_value put m1
  exact .ite (.ite ((h1.trans (hput ..)).trans (errWrite_reportOnly ..)) (h1.trans (hput ..))) (h1.trans (errWrite_reportOnly ..))

theorem ReportOnly.home (h : ReportOnly m m') : m'.home = m.home := by obtain ⟨_, _, _, _, _, rfl⟩ := h; rfl
theorem ReportOnly.ras (h : ReportOnly m m') : m'.ras = m.ras := by obtain ⟨_, _, _, _, _, rfl⟩ := h; rfl

end
end Sys2Proof.Machine
end

section
/-! SUPPORT. Scrub windows and scrub reads (R399 to R401, Table 15-4). -/

namespace Sys2Proof.Machine

/-! ## Windows (R400) -/

/-- Where a window with `n` corrected errors takes the logarithm `g` of the multiplier, before the bound MULTMAX. -/
def scrubMoved (hi lo n g : Nat) : Nat := if hi < n then g + 1 else if n < lo then g - 1 else g

section
variable (m : Mach) (sd : Fin 2)

theorem scrubWindowEnd_mlog : fget (doScrubWindowEnd sd m) (32 * sd) R.ERR_SCRSTAT_MLOG =
    min (scrubMoved (fget m (32 * sd) R.ERR_SCRUB_CEHI) (fget m (32 * sd) R.ERR_SCRUB_CELO) (sget 0 m.ras.ceWin sd)
      (fget m (32 * sd) R.ERR_SCRSTAT_MLOG)) (fget m (32 * sd) R.ERR_SCRUB_MULTMAX) := by
  have hlt : fget m (32 * sd) R.ERR_SCRUB_MULTMAX < 2 ^ 3 := fget_lt ..
  unfold doScrubWindowEnd
  extract_lets b n g g' m1
  rw [fget_fset_at _ _ _ _ _ (by decide)]
  refine (fget_fset_same ..).trans (Nat.mod_eq_of_lt ?_)
  exact lt_of_le_of_lt (Nat.min_le_right ..) hlt

theorem scrubWindowEnd_celast : fget (doScrubWindowEnd sd m) (32 * sd) R.ERR_SCRSTAT_CELAST = min (sget 0 m.ras.ceWin sd) 65535 := by
  refine (fget_fset_same ..).trans (Nat.mod_eq_of_lt ?_)
  exact lt_of_le_of_lt (Nat.min_le_right ..) (by decide)

theorem scrubWindowEnd_ceWin : sget 0 (doScrubWindowEnd sd m).ras.ceWin sd = 0 := by
  simp [doScrubWindowEnd, sget_sset]

theorem scrubWindowEnd_events : (doScrubWindowEnd sd m).events = m.events := rfl

end

/-! ## Reads (R399) -/

section
variable {m : Mach} {l : Loc} {ck : Check} {pct : Fin 101}

/-- A read on a side that is down does nothing. -/
theorem scrubRead_down (h : sideUp m (locName m l).1 = false) : doScrubRead l ck pct m = m := by
  simp only [doScrubRead, h, Bool.not_false, Bool.true_or, if_true]

section
variable (hup : sideUp m (locName m l).1 = true) (hen : fon m (32 * (locName m l).1) R.ERR_SCRUB_EN = true)
include hup hen

/-- The scrubber of a running side acts on what it reads; in a stack the progress follows. -/
theorem scrubRead_stack (hs : locStack l = true) (hp : pct ≠ 100) :
    doScrubRead l ck pct m = fset (locRead m l ck 1) (32 * (locName m l).1) R.ERR_SCRSTAT_PCT pct := by
  have hp' : (pct.val == 100) = false := beq_eq_false_iff_ne.mpr fun e => hp (Fin.ext e)
  simp only [doScrubRead, hup, hen, hs, hp', Bool.not_true, Bool.or_self, Bool.false_and, Bool.false_eq_true, if_false]

theorem scrubRead_sram (hs : locStack l = false) : doScrubRead l ck pct m = locRead m l ck 1 := by
  simp only [doScrubRead, hup, hen, hs, Bool.not_true, Bool.not_false, Bool.or_self, Bool.false_eq_true, if_false, if_true]

end

section
variable (hi : m.ras.injected = [])
include hi

theorem slotRead_good {sd : Fin 2} {i : BitVec 31} : locRead m (.slot sd i) .good 1 = m := by
  simp only [locRead, injected_none hi, Check.ofSlot]

theorem slotRead_bad {sd : Fin 2} {i : BitVec 31} : locRead m (.slot sd i) .bad 1 = slotBad m sd i.toNat 1 := by
  simp only [locRead, injected_none hi, Check.ofSlot, locBad, Bool.false_eq_true, if_false]

theorem tagRead_bad {h : Fin 64} {s : Fin 3072} {w : Fin 16} :
    locRead m (.hgTag h s w) .bad 1 = locBad m (.hgTag h s w) { errOf 0 0x02 0x10 h with loc := sramLoc s w 0, found := 1 } false := by
  simp only [locRead, locName, locPlace, injected_none hi]

theorem wordRead_corrected {h : Fin 64} {s : Fin 3072} {w : Fin 16} {cw : Fin 8} :
    locRead m (.hgWord h s w) (.corrected cw false) 1 =
      corrected m (h / 32) { errOf 0 0x01 0x10 h with loc := sramLoc s w cw, found := 1 } (hgKey h s w * 8 + cw) 16 false := by
  simp only [locRead, locName, locPlace, locCap, injected_none hi]
  rfl

end

section
variable {s : Slot} {sd i f pln : Nat} (hs : slotAt m sd i = some s) (hl : pln = plnOf m sd (slotLine m sd i s))
include hs hl

/-- A Clean slot is made Invalid (Table 15-4, row 1). -/
theorem slotBad_clean (hc : s.st = .clean) :
    slotBad m sd i f = err (setSlot m sd i none) { slotErr 0 sd i pln with repaired := true, action := 1, found := f } := by
  simp only [slotBad, hs, hc, ← hl]

/-- A Dirty slot that its twin holds asks the twin for the image (row 2). -/
theorem slotBad_twinned (hd : s.st = .dirty) (hh : repairHeld m pln = false) (ht : twinned m pln = true) :
    slotBad m sd i f = streamPut m (homeSlice m pln) (.lookup pln (.slot sd i)) := by
  simp only [slotBad, hs, hd, ← hl, hh, ht, Bool.false_eq_true, if_false, if_true]

end

/-- A target that nothing searches for yet is searched for at the twin side. -/
theorem searchFor_twin {sd h a b : Nat} {t : Target} {e : Err} (ht : twinSide m sd = true) (ho : (openTargets m).contains t = false) :
    searchFor m sd h t e a b = err (streamPut m h (.search t)) { e with repaired := true, action := a } := by
  simp only [searchFor, ht, ho, Bool.false_eq_true, if_false, if_true]

end

/-! ## Hard-fault tracking (R401) -/

/-- The first corrected read of a structure with room for `cap` locations, REPEAT being above 1, counts 1 against its location. -/
theorem corrected_first {m : Mach} {sd key cap : Nat} {e : Err} {again : Bool} (ht : m.ras.track = []) (hh : m.ras.hard = []) (hc : 0 < cap)
    (hr : 1 < fget m (32 * sd) R.ERR_SCRUB_REPEAT) (hsd : sd < 2) :
    (corrected m sd e key cap again).ras = { m.ras with
      ceWin := sset 0 m.ras.ceWin sd (sget 0 m.ras.ceWin sd + 1), track := [(e.struct_, e.inst, key, 1)] } ∧
    (corrected m sd e key cap again).home = m.home := by
  have hrep (e' : Err) : fget (err (draw m) e') (32 * sd) R.ERR_SCRUB_REPEAT = fget m (32 * sd) R.ERR_SCRUB_REPEAT := by
    refine (err_regsBut (draw m) e').fget ?_
    simp only [errKey, dropKey, fkey, mgtBase, R.ERR_SCRUB_REPEAT, R.MGT_LOGSTAT_DROPS]
    omega
  have hras (e' : Err) : (err (draw m) e').ras = m.ras := (err_reportOnly ..).ras
  have hhome (e' : Err) : (err (draw m) e').home = m.home := (err_reportOnly ..).home
  have hc' : (cap == 0) = false := by simp [Nat.pos_iff_ne_zero.mp hc]
  unfold corrected
  extract_lets +onlyGivenNames bits m1 r1 m2 mine group old all full out rest r2 m3 put
  have hall : all = [] := by simp [all, m2, r1, m1, hras, ht]
  have hold : old = 0 := by simp [old, m2, r1, m1, hras, ht]
  have hm3 : m3.ras.hard = [] := by simp [m3, m2, r1, m1, hras, hh]
  have hrest : rest = [] := by simp [rest, hall, dropFirst]
  have hlt : 0 + 1 < fget m3 (32 * sd) R.ERR_SCRUB_REPEAT := lt_of_lt_of_eq hr (hrep _).symm
  rw [hc', hm3]
  simp only [Bool.false_eq_true, if_false, List.contains_nil, hlt, if_true, hrest, hold, put]
  refine ⟨?_, hhome _⟩
  simp [m3, r2, m2, r1, m1, hras, hh]

end Sys2Proof.Machine
end

section
/-! SUPPORT. Twin searches and refreshes, and sweeps of lost sets (R394 to R397). -/

namespace Sys2Proof.Machine

/-! ## Lost sets (R396) -/

section
variable {m : Mach} {half : Fin 2} {set : BitVec 26}

/-- A set that is not listed is listed where its home is up and no twin holds its lines. -/
theorem lostSetSweep_lists (h : m.home.lostSets = []) (hup : sideUp m (servingSide m (plnOf m half set.toNat)) = true)
    (ht : twinned m (plnOf m half set.toNat) = false) : doLostSetSweep half set m = lostSetPut m half set.toNat 0 := by
  simp only [doLostSetSweep, h, List.find?_nil, hup, ht, Bool.not_false, Bool.and_self, if_true]

section
variable {n l : Nat} (h : m.home.lostSets = [⟨half, set.toNat, n⟩])
include h

/-- The only listed set of the machine is found by its half and number. -/
theorem lostSet_found : (m.home.lostSets.find? fun s => s.half == half.val && s.set == set.toNat) = some ⟨half, set.toNat, n⟩ := by
  simp [h]

theorem lostSetSweep_done (hn : 32768 ≤ n) : doLostSetSweep half set m = m := by
  simp only [doLostSetSweep, lostSet_found h, hn, if_true]

section
variable (hn : n < 32768) (hl : l = plnOf m half (n * 2 ^ 26 + set.toNat))
include hn hl

/-- A line that no host shares needs no snoop. -/
theorem lostSetSweep_passes (hp : (attrOf m l).priv = true) :
    doLostSetSweep half set m = { m with home := { m.home with lostSets := [⟨half, set.toNat, n + 1⟩] } } := by
  simp only [doLostSetSweep, lostSet_found h, Nat.not_le.mpr hn, ← hl, hp, Bool.or_true, Bool.true_or, if_false, if_true]
  simp [h, mapFirst]

/-- A shared line is recalled from every host that may hold it. -/
theorem lostSetSweep_snoops {ps : List Nat} (hp : (attrOf m l).priv = false) (hc : (attrOf m l).covered = true) (hne : ps.isEmpty = false)
    (hps : ((List.range 32).filter fun p => bitOf (attrOf m l).ports p && roleOf m p == 1 && !bitOf (lostMask m (homeSlice m l)) p) = ps)
    (ho : lineOpen m (homeSlice m l) l = false) (hr : m.home.recalls = []) :
    doLostSetSweep half set m = snoopAll { m with home := { m.home with
      recalls := [⟨homeSlice m l, dirKey half set.toNat 0, l, ps, [], l⟩], lostSets := [⟨half, set.toNat, n + 1⟩] } } (homeSlice m l) l .inv ps := by
  simp only [doLostSetSweep, lostSet_found h, Nat.not_le.mpr hn, ← hl, hps, hp, hc, hne, ho, hr, Bool.not_true, Bool.or_self, Bool.false_eq_true,
    if_false, List.filter_nil, List.length_nil, Nat.not_le.mpr (by decide : 0 < 16), decide_false, List.nil_append]
  simp [h, mapFirst]

end

/-- With no line left and no recall open the slot frees. -/
theorem lostSetSweepEnd_frees (hr : m.home.recalls = []) (hn : 32768 ≤ n) :
    doLostSetSweepEnd half set m = { m with home := { m.home with lostSets := [] } } := by
  simp [doLostSetSweepEnd, h, hr, hn]

end
end

/-! ## Searches (R394) -/

section
variable {m : Mach} {sd : Fin 2} {rest : List Target}

/-- A scan that meets no copy of the side's lines ends its oldest target. -/
theorem twinSearch_empty {i : Nat} (ht : m.ras.targets = .slot sd i :: rest) (hl : twinLines m sd = []) :
    doTwinSearchComplete sd m = { m with ras := { m.ras with targets := rest } } := by
  simp [doTwinSearchComplete, ht, hl, dropFirst]

/-- The staged copy of one line is the only copy that the twin side holds. -/
theorem twinLines_staged {l : Nat} {img : Img} {b : Bool} (hs : m.twin.staged = [⟨1 - sd, l, img, b⟩]) (hr : m.twin.recs = []) :
    twinLines m sd = [l] := by
  simp [twinLines, hs, hr]

/-- A staged copy of a line that the target lost is put back in the first free way, dirty. -/
theorem twinSearch_reinstalls {h k l w : Nat} {img : Img} (ht : m.ras.targets = .hgSet h k :: rest) (hh : h / 32 = sd.val)
    (hs : m.twin.staged = [⟨1 - sd, l, img, false⟩]) (hr : m.twin.recs = []) (hin : inTarget m l (.hgSet h k) = true)
    (hd : dirtyAtHome m (homeSlice m l) l = false) (htw : m.tw = [])
    (hw : ((List.range 16).find? fun w => (mget m.home.hg (hgKey h k w)).isNone && wayEligible m h k w) = some w) :
    doTwinSearchComplete sd m = { m with home := { m.home with hg := mput m.home.hg (hgKey h k w) ⟨hgTag (lineL l), true, false, img⟩ },
                                         ras := { m.ras with targets := rest } } := by
  have himg : repairImg m l = some img := by simp [repairImg, hs]
  have hmine : (h / 32 == sd.val) = true := beq_iff_eq.mpr hh
  simp only [doTwinSearchComplete, ht, List.find?_cons, hmine, twinLines_staged hs hr, List.foldl_cons, List.foldl_nil, hin, hd, htw, List.any_nil,
    Bool.not_true, Bool.or_self, Bool.false_eq_true, if_false, himg, reinstall, hw, dropFirst, if_true]

end

/-! ## Refreshes (R395, R397) -/

section
variable {m : Mach} {sd : Fin 2} {l : Nat} {img : Img}

/-- The refresh of a side with one dirty line sends that line's twin write. -/
theorem twinRefresh_one (hr : m.twin.refresh = [sd.val]) (hl : dirtyLines m sd = [l]) (hi : newestDirty m (homeSlice m l) l = some img)
    (ht : twinned m l = true) :
    doTwinRefresh sd m = (fun y : Mach => { y with twin := { y.twin with refresh := [sd.val + 2] } })
      (streamPut m (homeSlice m l) (.twinWrite l img false .none)) := by
  simp [doTwinRefresh, hr, hl, hi, ht, streamPut]

theorem twinRefresh_none (hr : m.twin.refresh = []) : doTwinRefresh sd m = m := by
  simp [doTwinRefresh, hr]

/-- With no twin write, release or acknowledgment on its way the gauge takes the count of copies. -/
theorem twinRefreshComplete_counts (hr : m.twin.refresh = [sd.val + 2]) (hs : m.twin.stream = []) (ha : m.twin.acks = []) (hb : m.twin.relAcks = []) :
    doTwinRefreshComplete sd m = forcedCheck (fset { m with twin := { m.twin with refresh := [] } } (twnBase sd) R.TWN_GAUGE_LINES
      (twinLines m sd).length) sd := by
  simp only [doTwinRefreshComplete, hr, hs, ha, hb]
  simp [twinLines]

end

section
variable {m : Mach} {h : Fin 64} {l : Nat} {rest : List HomeNote} {img : Img} (hn : m.home.notes = .retwin h l :: rest) (ht : twinned m l = true)
include hn ht

theorem retwinRequest_twins (hi : newestDirty m h l = some img) :
    doRetwinRequest h m = streamPut { m with home := { m.home with notes := rest } } h (.twinWrite l img false .none) := by
  have ht' : twinned { m with home := { m.home with notes := rest } } l = true := ht
  have hi' : newestDirty { m with home := { m.home with notes := rest } } h l = some img := hi
  simp [doRetwinRequest, popNote, hn, dropFirst, ht', hi']

theorem retwinRequest_releases (hi : newestDirty m h l = none) (htw : m.tw = []) :
    doRetwinRequest h m = streamPut { m with home := { m.home with notes := rest } } h (.release l) := by
  have ht' : twinned { m with home := { m.home with notes := rest } } l = true := ht
  have hi' : newestDirty { m with home := { m.home with notes := rest } } h l = none := hi
  have htw' : (m.tw.any fun e => e.pln == l) = false := by simp [htw]
  simp [doRetwinRequest, popNote, hn, dropFirst, ht', hi', htw']

end

end Sys2Proof.Machine
end

section
/-! The settling of O8 and O53. -/

open Sys2Proof Sys2Proof.Machine

/-- Settles O8: the multiplier's logarithm after a window is what `scrubMoved` gives, within MULTMAX. -/
theorem theScrubMultiplierFollowsItsWindow : Obligations.TheScrubMultiplierFollowsItsWindow := by
  unfold Obligations.TheScrubMultiplierFollowsItsWindow
  intro sd q m
  refine ⟨_, leads_eq rfl rfl, scrubWindowEnd_events m sd, ?_, ?_, ?_, ?_⟩
  · rw [scrubWindowEnd_mlog]
    exact Nat.min_le_right ..
  · intro hhi
    rw [scrubWindowEnd_mlog, scrubMoved, if_pos hhi]
  · intro hlo hhi
    rw [scrubWindowEnd_mlog, scrubMoved, if_neg (Nat.not_lt.mpr hhi), if_pos hlo]
  · intro hlo hhi
    rw [scrubWindowEnd_mlog, scrubMoved, if_neg (Nat.not_lt.mpr hhi), if_neg (Nat.not_lt.mpr hlo)]

/-- Settles O53: a scrub read acts on what `locRead` finds at its location (`scrubRead_stack`, `scrubRead_sram`); searches, refreshes and sweeps by
the lemma of each. -/
theorem scrubbingSearchesAndLostSets : Obligations.ScrubbingSearchesAndLostSets := by
  unfold Obligations.ScrubbingSearchesAndLostSets
  refine ⟨?_, ?_, ?_, ?_, ?_, ?_, ?_, ?_, ?_, ?_, ?_, ?_, ?_, ?_, ?_, ?_, ?_, ?_, ?_, ?_⟩
  · intro ck pct sd i q m hup
    exact leads_eq rfl (scrubRead_down (l := .slot sd i) hup)
  · intro pct sd i q m hup hen hi hp
    exact leads_eq rfl ((scrubRead_stack (l := .slot sd i) hup hen rfl hp).trans (congrArg (fset · _ _ _) (slotRead_good hi)))
  · intro pct sd i s l q m hup hen hi hp hs hc hl
    exact leads_eq rfl ((scrubRead_stack (l := .slot sd i) hup hen rfl hp).trans (congrArg (fset · _ _ _) ((slotRead_bad hi).trans (slotBad_clean hs hl hc))))
  · intro pct sd i s l q m hup hen hi hp hs hd hl hh ht
    exact leads_eq rfl ((scrubRead_stack (l := .slot sd i) hup hen rfl hp).trans
      (congrArg (fset · _ _ _) ((slotRead_bad hi).trans (slotBad_twinned hs hl hd hh ht))))
  · intro pct h s w q m hup hen hi ht ho
    exact leads_eq rfl ((scrubRead_sram (l := .hgTag h s w) hup hen rfl).trans ((tagRead_bad hi).trans (searchFor_twin ht ho)))
  · intro pct h s w cw q m hup hen hi ht hh hr
    have heq := (scrubRead_sram (l := .hgWord h s w) (pct := pct) hup hen rfl).trans (wordRead_corrected (h := h) (s := s) (w := w) (cw := cw) hi)
    obtain ⟨hras, hhome⟩ := corrected_first (e := { errOf 0 0x01 0x10 h with loc := sramLoc s w cw, found := 1 }) (key := hgKey h s w * 8 + cw)
      (cap := 16) (again := false) ht hh (by decide) hr (Nat.div_lt_of_lt_mul h.isLt)
    exact ⟨_, leads_eq rfl heq, congrArg Ras.track hras, congrArg Ras.ceWin hras, hhome⟩
  · rintro sd _ q m rfl hhi
    refine ⟨_, leads_eq rfl rfl, ?_, scrubWindowEnd_celast m sd, scrubWindowEnd_ceWin m sd⟩
    rw [scrubWindowEnd_mlog, scrubMoved, if_pos hhi]
  · rintro sd _ q m rfl hlo hhi
    refine ⟨_, leads_eq rfl rfl, ?_, scrubWindowEnd_celast m sd⟩
    rw [scrubWindowEnd_mlog, scrubMoved, if_neg (Nat.not_lt.mpr hhi), if_pos hlo]
  · intro half set q m h hup ht
    exact leads_eq rfl (lostSetSweep_lists h hup ht)
  · intro half set n l q m h hn hl hp
    exact leads_eq rfl (lostSetSweep_passes h hn hl hp)
  · intro half set n l p ps q m h hn hl hp hc hps ho hr
    exact leads_eq rfl (lostSetSweep_snoops h hn hl hp hc rfl hps ho hr)
  · intro half set q m h
    exact leads_eq rfl (lostSetSweep_done h (Nat.le_refl _))
  · intro half set q m hr h
    exact leads_eq rfl (lostSetSweepEnd_frees h hr (Nat.le_refl _))
  · intro sd i rest q m ht hl
    exact leads_eq rfl (twinSearch_empty ht hl)
  · intro sd h k rest l img w q m ht hh hs hr hin hd htw hw
    exact leads_eq rfl (twinSearch_reinstalls ht hh hs hr hin hd htw hw)
  · intro sd l img q m hr hl hi ht
    exact leads_eq rfl (twinRefresh_one hr hl hi ht)
  · intro sd q m hr
    exact leads_eq rfl (twinRefresh_none hr)
  · intro sd q m hr hs ha hb
    exact leads_eq rfl (twinRefreshComplete_counts hr hs ha hb)
  · intro h l rest img q m hn ht hi
    exact leads_eq rfl (retwinRequest_twins hn ht hi)
  · intro h l rest q m hn ht hi htw
    exact leads_eq rfl (retwinRequest_releases hn ht hi htw)

end

section
/-! Answers are named by their commands (R363, Tables 14-4, 18-6, 18-8). -/

namespace Sys2Proof.Machine

theorem hostPortUp_supportedLogs :
    (settle hostPortUp (doGetSupportedLogs 0 hostPortUp)).outbox = [.mailbox 0 "Get Supported Logs" .success [1]] := by decide +kernel

/-- The Ditchrider runs its firmware. -/
def ditchriderUp : Mach := fset Mach.reset mgtBase R.MGT_STATUS_STATE 1

theorem ditchriderUp_noSensor :
    (settle ditchriderUp (doGetPdr 0 139 ditchriderUp)).outbox = [.mgmt "GetPDR invalid" []] := by decide +kernel

theorem ditchriderUp_background :
    (settle ditchriderUp (doFmBackgroundOperationStatus 0 ditchriderUp)).outbox = [.mgmt "FM Background Operation Status" [0, 0]] := by
  decide +kernel

end Sys2Proof.Machine
end

section
/-! The settling of O31, O57 and O59. -/

open Sys2Proof Sys2Proof.Machine

/-- Refutes O31: in its clause about GET_SUPPORTED_LOGS the name of the answer is a string literal broken over two lines, which holds the line break
and five blanks. On `hostPortUp` the module answers under the name without them. -/
theorem not_mailboxCommands : ¬ Obligations.MailboxCommands := by
  unfold Obligations.MailboxCommands
  rintro ⟨-, -, hlogs, -⟩
  have hl := hlogs 0 [] hostPortUp (by decide +kernel)
  have hout := congrArg Mach.outbox (settle_eq_of_leads (f := doGetSupportedLogs 0) rfl hl)
  exact absurd (hostPortUp_supportedLogs.symm.trans hout) (by decide +kernel)

/-- Refutes O57: the answer to GetPDR beyond the last sensor is named by a string literal broken over two lines. On `ditchriderUp` the module answers
under the name without the line break. -/
theorem not_pldmBaseAndMonitoring : ¬ Obligations.PldmBaseAndMonitoring := by
  unfold Obligations.PldmBaseAndMonitoring
  rintro ⟨-, -, -, -, -, -, -, -, hpdr, -⟩
  have hl := hpdr 0 139 [] ditchriderUp (Nat.le_refl _)
  have hout := congrArg Mach.outbox (settle_eq_of_leads (f := doGetPdr 0 139) rfl hl)
  exact absurd (ditchriderUp_noSensor.symm.trans hout) (by decide +kernel)

/-- Refutes O59: the answer to FM Background Operation Status is named by a string literal broken over two lines. On `ditchriderUp` the module answers
under the name without the line break. -/
theorem not_fabricManagementAndCalls : ¬ Obligations.FabricManagementAndCalls := by
  unfold Obligations.FabricManagementAndCalls
  rintro ⟨-, hstatus, -⟩
  have hl := hstatus 0 [] ditchriderUp
  have hout := congrArg Mach.outbox (settle_eq_of_leads (f := doFmBackgroundOperationStatus 0) rfl hl)
  exact absurd (ditchriderUp_background.symm.trans hout) (by decide +kernel)

end

section
/-! SUPPORT. Area remaps, spare pages, stack retirement, trim records and learned presets (R406 to R409, R427). -/

namespace Sys2Proof.Machine

/-! ## Area remaps (R406) -/

/-- ERR_AREMAP after a write of its fields. -/
def areaWritten (m : Mach) (k : Fin 8) (pc : Fin 32) (bank : Fin 16) (row : BitVec 16) : Mach :=
  fset (fset (fset (fset m aonBase R.ERR_AREMAP_CTL k) aonBase R.ERR_AREMAP_PC pc) aonBase R.ERR_AREMAP_BANK bank) aonBase R.ERR_AREMAP_ROW row.toNat

section
variable {m : Mach} {k : Fin 8} {pc : Fin 32} {bank : Fin 16} {row : BitVec 16}

theorem areaWritten_busy : fon (areaWritten m k pc bank row) aonBase R.ERR_AREMAP_BUSY = fon m aonBase R.ERR_AREMAP_BUSY := by
  simp (disch := decide) only [fon, areaWritten, fget_fset_other]

theorem areaWritten_sideUp (sd : Nat) : sideUp (areaWritten m k pc bank row) sd = sideUp m sd := by
  simp (disch := decide) only [sideUp, areaWritten, fget_fset_other]

/-- While a remap runs a write only takes the fields. -/
theorem areaRemap_busy (hb : fon m aonBase R.ERR_AREMAP_BUSY = true) : doAreaRemap k pc bank row m = areaWritten m k pc bank row :=
  if_pos (areaWritten_busy.trans hb)

section
variable (hb : fon m aonBase R.ERR_AREMAP_BUSY = false)
include hb

theorem areaRemap_sideDown (hup : sideUp m (k / 4) = false) : doAreaRemap k pc bank row m = areaEnd (areaWritten m k pc bank row) 5 := by
  refine (if_neg (Bool.not_eq_true _ ▸ areaWritten_busy.trans hb)).trans (if_pos ?_)
  rw [Bool.not_eq_true', ← hup]
  exact areaWritten_sideUp _

variable (hup : sideUp m (k / 4) = true)
include hup

/-- On a side that is up the row decides. -/
theorem areaRemap_sideUp : doAreaRemap k pc bank row m =
    if row.toNat < 32768 then areaEnd (areaWritten m k pc bank row) 4
    else if m.ras.area.contains ⟨k, pc, bank, row.toNat⟩ then areaEnd (areaWritten m k pc bank row) 3
    else if 64 ≤ (m.ras.area.filter fun x => x.k == k.val).length then areaEnd (areaWritten m k pc bank row) 1
    else if 13312 ≤ sparesUsed m k pc then areaEnd (areaWritten m k pc bank row) 2
    else fset ((fun y : Mach => { y with ras := { y.ras with areaRun := some ⟨k, pc, bank, row.toNat⟩ } }) (areaWritten m k pc bank row))
      aonBase R.ERR_AREMAP_BUSY 1 := by
  refine (if_neg (Bool.not_eq_true _ ▸ areaWritten_busy.trans hb)).trans (if_neg ?_)
  rw [Bool.not_eq_true', Bool.not_eq_false, ← hup]
  exact areaWritten_sideUp _

theorem areaRemap_cacheRow (hr : row.toNat < 32768) : doAreaRemap k pc bank row m = areaEnd (areaWritten m k pc bank row) 4 :=
  (areaRemap_sideUp hb hup).trans (if_pos hr)

theorem areaRemap_inUse (hr : 32768 ≤ row.toNat) (ha : m.ras.area = [⟨k, pc, bank, row.toNat⟩]) :
    doAreaRemap k pc bank row m = areaEnd (areaWritten m k pc bank row) 3 :=
  (areaRemap_sideUp hb hup).trans ((if_neg (Nat.not_lt.mpr hr)).trans (if_pos (by simp [ha])))

theorem areaRemap_runs (hr : 32768 ≤ row.toNat) (ha : m.ras.area = []) (hs : sparesUsed m k pc < 13312) :
    doAreaRemap k pc bank row m = fset ((fun y : Mach => { y with ras := { y.ras with areaRun := some ⟨k, pc, bank, row.toNat⟩ } })
      (areaWritten m k pc bank row)) aonBase R.ERR_AREMAP_BUSY 1 := by
  rw [areaRemap_sideUp hb hup, if_neg (Nat.not_lt.mpr hr), ha, if_neg (by simp), if_neg (by simp), if_neg (Nat.not_le.mpr hs)]

end
end

/-- A copy in which everything could be corrected installs the entry, counts the spare row and leaves a trim record. -/
theorem areaRemapComplete_installs {m : Mach} {r : Row} (h : m.ras.areaRun = some r) (hup : sideUp m (r.k / 4) = true) :
    doAreaRemapComplete [] m = areaEnd { m with
      ras := { m.ras with area := m.ras.area ++ [r], pend := m.ras.pend ++ [.area r] },
      rsv := { m.rsv with spares := sset 0 m.rsv.spares (r.k * 32 + r.pc) (sparesUsed m r.k r.pc + 1) } } 0 := by
  simp only [doAreaRemapComplete, h, hup, Bool.not_true, Bool.false_eq_true, if_false, List.foldl_nil, sparesUsed]

theorem areaRemapComplete_none {m : Mach} (h : m.ras.areaRun = none) (bad : List (Loc × Bool)) : doAreaRemapComplete bad m = m := by
  simp only [doAreaRemapComplete, h]

/-! ## Stacks (R408) -/

section
variable {m : Mach} {k : Fin 8}

theorem stackWritten_retired : stackRetired (fset m aonBase R.ERR_STKRET_STACK k) k = stackRetired m k := by
  rw [stackRetired, fget_fset_at _ _ _ _ _ (by decide), stackRetired]

theorem stackRetire_again (h : stackRetired m k = true) :
    doStackRetire k m = fset (fset m aonBase R.ERR_STKRET_STACK k) aonBase R.ERR_STKRET_RESULT 2 := by
  simp only [doStackRetire, stackWritten_retired, h, if_true]

theorem stackRetire_serving (h : stackRetired m k = false) (hup : sideUp m (k / 4) = true) :
    doStackRetire k m = fset (fset m aonBase R.ERR_STKRET_STACK k) aonBase R.ERR_STKRET_RESULT 1 := by
  have hup' : sideUp (fset m aonBase R.ERR_STKRET_STACK k) (k / 4) = true := by
    rw [← hup, sideUp, fget_fset_at _ _ _ _ _ (by decide), sideUp]
  simp only [doStackRetire, stackWritten_retired, h, hup', Bool.false_eq_true, if_false, Bool.or_true, Bool.true_or, if_true]

/-- The module with stack `k` retired. -/
def stackGone (m : Mach) (k : Fin 8) : Mach :=
  let m := fset m aonBase R.ERR_STKRET_STACK k
  let m := fset m aonBase R.ERR_STKRET_RETIRED (setBit (fget m aonBase R.ERR_STKRET_RETIRED) k true)
  let m := fset (domPut m (18 + k.val) 0) (rsvBase k) R.RSV_STATUS_STATE 0
  fset { m with ras := { m.ras with pend := m.ras.pend ++ [TrimRec.stack k] } } aonBase R.ERR_STKRET_RESULT 0

theorem stackRetire_retires (h : stackRetired m k = false) (hm : opMode m = 2) (hup : sideUp m (k / 4) = false) (hr : m.twin.returning = none) :
    doStackRetire k m = stackGone m k := by
  have hup' : sideUp (fset m aonBase R.ERR_STKRET_STACK k) (k / 4) = false := by
    rw [← hup, sideUp, fget_fset_at _ _ _ _ _ (by decide), sideUp]
  have hm' : opMode (fset m aonBase R.ERR_STKRET_STACK k) = 2 := by
    rw [← hm, opMode, fget_fset_at _ _ _ _ _ (by decide), opMode]
  have hr' : ((fset m aonBase R.ERR_STKRET_STACK k).twin.returning == some (k.val / 4)) = false := by rw [fset_twin, hr]; rfl
  simp only [doStackRetire, stackWritten_retired, h, hup', hm', hr', Bool.false_eq_true, if_false, beq_self_eq_true, Bool.true_or, Bool.not_true,
    Bool.or_self, stackGone]

theorem bitOf_setBit_eight : ∀ n < 256, ∀ k < 8, bitOf (setBit n k true % 2 ^ 8) k = true := by decide +kernel

/-- The controllers' registers lie beyond those of the always-on block. -/
theorem rsvBase_ge (k : Nat) : 0x1040000 ≤ rsvBase k := by
  unfold rsvBase sideBase
  omega

/-- The registers of a retirement are those of five writes. -/
theorem fget_stackGone (b : Nat) (f : Fld) : fget (stackGone m k) b f =
    fget (fset (fset (domPut (fset (fset m aonBase R.ERR_STKRET_STACK k) aonBase R.ERR_STKRET_RETIRED
      (setBit (fget (fset m aonBase R.ERR_STKRET_STACK k) aonBase R.ERR_STKRET_RETIRED) k true)) (18 + k.val) 0) (rsvBase k) R.RSV_STATUS_STATE 0)
      aonBase R.ERR_STKRET_RESULT 0) b f := fget_of_regs rfl b f

theorem stackGone_retired : stackRetired (stackGone m k) k = true := by
  have hk := rsvBase_ge k
  rw [stackRetired, fget_stackGone, fget_fset_at _ _ _ _ _ (by decide), fget_fset_other, domPut, fget_fset_other, fget_fset_same]
  · exact bitOf_setBit_eight _ (fget_lt ..) k k.isLt
  · simp only [R.PWR_DOM_STATE, R.ERR_STKRET_RETIRED, aonBase]
    omega
  · simp only [R.RSV_STATUS_STATE, R.ERR_STKRET_RETIRED, aonBase]
    omega

theorem stackGone_off : domSt (stackGone m k) (18 + k) = 0 := by
  have hk := rsvBase_ge k
  have hlt := k.isLt
  rw [domSt, fget_stackGone, fget_fset_other, fget_fset_other, domPut, fget_fset_same]
  · rfl
  · simp only [R.RSV_STATUS_STATE, R.PWR_DOM_STATE]
    omega
  · simp only [R.ERR_STKRET_RESULT, R.PWR_DOM_STATE, aonBase]
    omega

theorem stackGone_controller : rsvState (stackGone m k) k = 0 := by
  have hk := rsvBase_ge k
  rw [rsvState, fget_stackGone, fget_fset_other, fget_fset_same]
  · rfl
  · simp only [R.ERR_STKRET_RESULT, R.RSV_STATUS_STATE, aonBase]
    omega

theorem stackGone_result : fget (stackGone m k) aonBase R.ERR_STKRET_RESULT = 0 := fget_fset_same ..

end

/-! ## Trim records and presets (R409, R427) -/

section
variable {m : Mach}

theorem trimRecordAppend_writes {r : TrimRec} {rest : List TrimRec} (h : m.ras.pend = r :: rest) (hr : ditchRuns m = true) :
    doTrimRecordAppend m = count { m with ras := { m.ras with pend := rest },
                                          flash := { m.flash with trim := m.flash.trim ++ [⟨r, true, true⟩] } } mgtBase 3 := by
  simp only [doTrimRecordAppend, h, hr, Bool.not_true, Bool.false_eq_true, if_false]

theorem trimRecordAppend_none (h : m.ras.pend = []) : doTrimRecordAppend m = m := by
  simp only [doTrimRecordAppend, h]

variable {p : Fin 32} {v : BitVec 128} (ht : m.flash.trim = [])
include ht

/-- Presets of a port that has none stored are recorded. -/
theorem learnedPresetCapture_first (hl : linkUp m p = true) (hr : fget m (ptBase p) R.PT_LINK_RATE = 6) (hp : m.ras.pend = []) :
    doLearnedPresetCapture p v m = { m with ras := { m.ras with pend := [.presets p v.toNat] } } := by
  simp [doLearnedPresetCapture, hl, hr, ht, hp]

theorem learnedPresetCapture_stored (hp : m.ras.pend = [.presets p v.toNat]) : doLearnedPresetCapture p v m = m := by
  simp [doLearnedPresetCapture, ht, hp]

end

/-! ## Spare pages (R407) -/

theorem errPsmapWrite_closed {m : Mach} {sd b : Fin 2} (h : progOpen m sd b = false) (i : Fin 8) (page : BitVec 8) (v : Bool) :
    doErrPsmapWrite sd b i page v m = m := by
  simp only [doErrPsmapWrite, h, Bool.not_false, if_true]

theorem errPsmapWrite_maps {m : Mach} {sd b : Fin 2} (h : progOpen m sd b = true) (i : Fin 8) (page : BitVec 8) (v : Bool) :
    doErrPsmapWrite sd b i page v m = (fun y : Mach =>
        { y with eng := { y.eng with prog := mdrop y.eng.prog fun x => x / 1024 == 8 * (2 * sd.val + b) + i + 1024 } })
      (fset (fset m (0x80 * sd + 0x40 * b + 8 * i) R.ERR_PSMAP_PAGE page.toNat) (0x80 * sd + 0x40 * b + 8 * i) R.ERR_PSMAP_V (b2n v)) := by
  simp only [doErrPsmapWrite, h, Bool.not_true, Bool.false_eq_true, if_false]

end Sys2Proof.Machine
end

section
/-! The settling of O54. -/

open Sys2Proof Sys2Proof.Machine

/-- Settles O54: each clause is the branch of its command that the hypotheses name; a write of ERR_AREMAP reads the module as it was but for the fields
that it takes (`areaWritten`). -/
theorem retirementTrimAndInjection : Obligations.RetirementTrimAndInjection := by
  unfold Obligations.RetirementTrimAndInjection
  refine ⟨?_, ?_, ?_, ?_, ?_, ?_, ?_, ?_, ?_, ?_, ?_, ?_, ?_, ?_, ?_, ?_, ?_⟩
  · intro k pc bank row q m hb
    exact leads_eq rfl (areaRemap_busy hb)
  · intro k pc bank row q m hb hup
    exact leads_eq rfl (areaRemap_sideDown hb hup)
  · intro k pc bank row q m hb hup hr
    exact leads_eq rfl (areaRemap_cacheRow hb hup hr)
  · intro k pc bank row q m hb hup hr ha
    exact leads_eq rfl (areaRemap_inUse hb hup hr ha)
  · intro k pc bank row q m hb hup hr ha hs
    exact leads_eq rfl (areaRemap_runs hb hup hr ha hs)
  · intro r q m h hup
    exact leads_eq rfl (areaRemapComplete_installs h hup)
  · intro bad q m h
    exact leads_eq rfl (areaRemapComplete_none h bad)
  · intro sd b i page v q m h
    exact leads_eq rfl (errPsmapWrite_maps h i page v)
  · intro sd b i page v q m h
    exact leads_eq rfl (errPsmapWrite_closed h i page v)
  · intro k q m h
    exact leads_eq rfl (stackRetire_again h)
  · intro k q m h hup
    exact leads_eq rfl (stackRetire_serving h hup)
  · intro k q m h hm hup hr
    exact ⟨_, leads_eq rfl (stackRetire_retires h hm hup hr), stackGone_retired, stackGone_off, stackGone_controller, stackGone_result, rfl⟩
  · intro r rest q m h hr
    exact leads_eq rfl (trimRecordAppend_writes h hr)
  · intro q m h
    exact leads_eq rfl (trimRecordAppend_none h)
  · intro p v q m hl hr ht hp
    exact leads_eq rfl (learnedPresetCapture_first ht hl hr hp)
  · intro p v q m ht hp
    exact leads_eq rfl (learnedPresetCapture_stored ht hp)
  · intro q m
    exact leads_eq rfl rfl

end

section
/-! SUPPORT. Range quanta, the lines of a range at their homes, aborts and block snoops (R315 to R319). -/

namespace Sys2Proof.Machine

/-! ## Quanta and aborts (R315, R316) -/

section
variable {n : Fin 8} {r : RangeOp} {m : Mach}

theorem rangeOf_only (hr : m.eng.ranges = [r]) (hn : r.n = n.val) : rangeOf m n = some r := by
  simp [rangeOf, hr, hn]

/-- Writing the only operation replaces the list. -/
theorem rangePut_only {r' : RangeOp} (hr : m.eng.ranges = [r]) (hn : r'.n = r.n) :
    rangePut m r' = { m with eng := { m.eng with ranges := [r'] } } := by
  simp only [rangePut, hr, mapFirst, hn, beq_self_eq_true, if_true]

theorem rangeQuantumStart_next (hr : m.eng.ranges = [r]) (hn : r.n = n.val) (he : r.ended = false) (ht : r.toSend = []) (ho : r.open_ = [])
    (hs : r.stop = false) (hb : r.begun < r.lines) {k : Nat} {ls : List Nat} (hk : k = min 64 (r.lines - r.begun))
    (hls : ls = (List.range k).map fun i => r.first + r.begun + i) :
    doRangeQuantumStart n m = count { fset m (rgeBase n) R.RGE_CUR_NEXT (r.first + r.begun + k) with
      eng := { m.eng with ranges := [{ r with begun := r.begun + k, toSend := ls, open_ := ls }] } } (rgeBase n) 1 := by
  subst hk hls
  simp only [doRangeQuantumStart, rangeOf_only hr hn, he, ht, ho, hs, List.isEmpty_nil, Bool.not_true, Bool.or_self, Bool.false_eq_true, if_false,
    if_neg (Nat.not_le.mpr hb)]
  exact congrArg (count · (rgeBase n) 1) (rangePut_only (r := r) (by rw [fset_eng, hr]) rfl)

theorem rangeQuantumStart_stopped (hr : m.eng.ranges = [r]) (hn : r.n = n.val) (he : r.ended = false) (ht : r.toSend = []) (ho : r.open_ = [])
    (hs : r.stop = true) : doRangeQuantumStart n m = rangeEnd m r 1 := by
  simp only [doRangeQuantumStart, rangeOf_only hr hn, he, ht, ho, hs, List.isEmpty_nil, Bool.not_true, Bool.or_self, Bool.false_eq_true, if_false,
    if_true]

theorem rangeAbort_stops (hr : m.eng.ranges = [r]) (hn : r.n = n.val) (he : r.ended = false) :
    doRangeAbort n m = { m with eng := { m.eng with ranges := [{ r with stop := true }] } } := by
  simp only [doRangeAbort, rangeOf_only hr hn, he, Bool.false_eq_true, if_false]
  exact rangePut_only hr rfl

/-! ## A line reaches its home (R316, R317) -/

/-- The group of an operation below 1 is never snooped as one block. -/
theorem groupOf_clean (hop : r.op = 0) (h pln : Nat) : groupOf m r h pln = none := by
  simp [groupOf, hop]

section
variable {i : Fin 64} {l : Nat} (hr : m.eng.ranges = [r]) (hn : r.n = n.val) (hi : r.toSend[i.val]? = some l)
include hr hn hi

theorem rangeLineRequest_unplaced (hv : plcV (plcGet m (homeSlice m l / 32) (plotOf l)) = false) :
    doRangeLineRequest n i m = { m with
      eng := { m.eng with ranges := [{ r with toSend := r.toSend.eraseIdx i }], rangeQ := m.eng.rangeQ ++ [⟨n, l, 4⟩] } } := by
  simp only [doRangeLineRequest, rangeOf_only hr hn, hi, hv, Bool.not_false, if_true]
  have hp : rangePut m { r with toSend := r.toSend.eraseIdx i } = { m with eng := { m.eng with ranges := [{ r with toSend := r.toSend.eraseIdx i }] } } :=
    rangePut_only hr rfl
  rw [hp]

end

/-- A request for a line that nothing holds at its home takes a fresh miss register; one that is done at once needs no more. -/
theorem decideReq_atOnce {q : Req} {h l : Nat} {m0 m' : Mach} (hq : q.pln = l) (hh : m.home = m0.home) (hw : m0.home.mwq = [])
    (hm : m0.home.mshrs = []) (hc : m0.home.recalls = []) (hv : m0.home.vb = []) (hp : pumpAll { m with home := { m.home with mshrs := [freshMshr h q] } } h l = m')
    (hd : mshrOf m' h l = none) : decideReq m h q false = some m' := by
  subst hq hp
  rw [← hh] at hw hm hc hv
  have h1 : mshrOf m h q.pln = none := by simp only [mshrOf, hm, List.find?_nil]
  have h2 : vbOf m h q.pln = none := by simp only [vbOf, hv, List.find?_nil]
  have h3 : m.home.mwq.any (fun x => x.1 == h && x.2.pln == q.pln) = false := by rw [hw, List.any_nil]
  have h4 : m.home.recalls.any (fun x => x.h == h && x.pln == q.pln) = false := by rw [hc, List.any_nil]
  have h5 : m.home.mshrs ++ [freshMshr h q] = [freshMshr h q] := by rw [hm, List.nil_append]
  simp only [decideReq, h1, h2, h3, h4, h5, Bool.and_false, Bool.or_self, Bool.false_eq_true, if_false, Option.isSome_none, Bool.false_and, hd]

section
variable {i : Fin 64} {l : Nat} (hr : m.eng.ranges = [r]) (hn : r.n = n.val) (hi : r.toSend[i.val]? = some l)
include hr hn hi

/-- The request of a line that its home does at once leaves no waiter that the engine would count. -/
theorem rangeLineRequest_atOnce {h : Nat} {q : Req} {m' : Mach} (hh : h = homeSlice m l) (hv : plcV (plcGet m (h / 32) (plotOf l)) = true)
    (hq : q = ⟨.maint (maintOf r.op) (groupOf m r h l), .range n l, l, 0, 0, false, none, some (attrOf m l)⟩)
    (hd : decideReq (count { m with eng := { m.eng with ranges := [{ r with toSend := r.toSend.eraseIdx i }] } } (hsBase h) 1) h q false = some m')
    (hno : mshrOf m' h l = none) : doRangeLineRequest n i m = m' := by
  have hp : rangePut m { r with toSend := r.toSend.eraseIdx i } = { m with eng := { m.eng with ranges := [{ r with toSend := r.toSend.eraseIdx i }] } } :=
    rangePut_only hr rfl
  subst hq
  rw [← hp] at hd
  simp only [doRangeLineRequest, rangeOf_only hr hn, hi, ← hh, hv, Bool.not_true, Bool.false_eq_true, if_false]
  split
  case h_1 h => cases hd.symm.trans h
  case h_2 h =>
    cases hd.symm.trans h
    split
    case h_1 h => cases hno.symm.trans h
    case h_2 => rfl

end

/-! ## A line comes back to the engine (R319) -/

/-- The operation with the line `d` counted. -/
def rangeCounted (r : RangeOp) (d : RangeDone) (os : List Nat) : RangeOp :=
  { r with open_ := os, finished := r.finished + 1, status := statusMin r.status d.status }

/-- The module with the operation as counted and its registers. -/
def rangeLineShown (m : Mach) (n : Nat) (r : RangeOp) : Mach :=
  fset (fset (rangePut m r) (rgeBase n) R.RGE_LEFT_LEFT (r.lines - r.finished)) (rgeBase n) R.RGE_STATUS_STATUS r.status

/-- That, with the engine's counters. -/
def rangeLineCounted (m : Mach) (n : Nat) (d : RangeDone) (r : RangeOp) : Mach :=
  count (if d.status == 4 then count (rangeLineShown m n r) (rgeBase n) 5 else rangeLineShown m n r) (rgeBase n) 2

section
variable {d : RangeDone} {rest : List RangeDone} {os : List Nat} (hq : m.eng.rangeQ = d :: rest) (hd : d.n = n.val) (hr : m.eng.ranges = [r])
  (hn : r.n = n.val) (ho : r.open_ = d.pln :: os)
include hq hd hr hn ho

theorem rangeLineComplete_eq : doRangeLineComplete n m =
    if r.finished + 1 == r.lines then
      rangeEnd (rangeLineCounted { m with eng := { m.eng with rangeQ := rest } } n d (rangeCounted r d os)) (rangeCounted r d os) 0
    else rangeLineCounted { m with eng := { m.eng with rangeQ := rest } } n d (rangeCounted r d os) := by
  have hf : (d :: rest).find? (fun d => d.n == n.val) = some d := by simp [hd]
  have hg : rangeOf { m with eng := { m.eng with rangeQ := rest } } n = some r := rangeOf_only hr hn
  have hc : (d.pln :: os).contains d.pln = true := by simp
  simp only [doRangeLineComplete, hq, hf, dropFirst, beq_self_eq_true, if_true, hg, ho, hc, Bool.not_true, Bool.false_eq_true, if_false,
    rangeLineCounted, rangeLineShown, rangeCounted]

theorem rangeLineComplete_more (hl : r.finished + 1 < r.lines) : doRangeLineComplete n m =
    rangeLineCounted { m with eng := { m.eng with rangeQ := rest } } n d (rangeCounted r d os) :=
  (rangeLineComplete_eq hq hd hr hn ho).trans (if_neg (by simp; omega))

theorem rangeLineComplete_last (hl : r.finished + 1 = r.lines) : doRangeLineComplete n m =
    rangeEnd (rangeLineCounted { m with eng := { m.eng with rangeQ := rest } } n d (rangeCounted r d os)) (rangeCounted r d os) 0 :=
  (rangeLineComplete_eq hq hd hr hn ho).trans (if_pos (by simpa using hl))

end

section
variable {r' : RangeOp} {d : RangeDone}

theorem rangeLineShown_only (hr : m.eng.ranges = [r]) (hn : r'.n = r.n) : rangeLineShown m n r' = fset (fset
    { m with eng := { m.eng with ranges := [r'] } } (rgeBase n) R.RGE_LEFT_LEFT (r'.lines - r'.finished)) (rgeBase n) R.RGE_STATUS_STATUS r'.status := by
  rw [rangeLineShown, rangePut_only hr hn]

theorem statusMin_none (a : Nat) : statusMin a 0 = a := by
  unfold statusMin
  split <;> simp_all

/-- A line that was done is counted, and its operation's status stays. -/
theorem rangeLineCounted_done {os : List Nat} (h0 : d.status = 0) (hs : r.status = 0) (hr : m.eng.ranges = [r]) :
    rangeLineCounted m n d (rangeCounted r d os) = count (fset (fset
      { m with eng := { m.eng with ranges := [{ r with open_ := os, finished := r.finished + 1 }] } } (rgeBase n) R.RGE_LEFT_LEFT
      (r.lines - (r.finished + 1))) (rgeBase n) R.RGE_STATUS_STATUS 0) (rgeBase n) 2 := by
  have hc : rangeCounted r d os = { r with open_ := os, finished := r.finished + 1 } := by rw [rangeCounted, h0, statusMin_none]
  rw [rangeLineCounted, h0, rangeLineShown_only hr (r' := rangeCounted r d os) rfl, hc, hs]
  rfl

@[simp] theorem rangeLineCounted_eng : (rangeLineCounted m n d r').eng = (rangePut m r').eng := by
  simp [rangeLineCounted, rangeLineShown, apply_ite Mach.eng]

theorem rangeLineCounted_ranges (hr : m.eng.ranges = [r]) (hn : r'.n = r.n) : (rangeLineCounted m n d r').eng.ranges = [r'] := by
  rw [rangeLineCounted_eng, rangePut_only hr hn]

theorem fget_rangeLineCounted (b : Nat) (f : Fld) : fget (rangeLineCounted m n d r') b f = fget (rangeLineShown m n r') b f := by
  refine fget_of_regs ?_ b f
  simp [rangeLineCounted, apply_ite Mach.regs]

theorem left_rangeLineCounted : fget (rangeLineCounted m n d r') (rgeBase n) R.RGE_LEFT_LEFT = (r'.lines - r'.finished) % 2 ^ 43 := by
  rw [fget_rangeLineCounted, rangeLineShown, fget_fset_at _ _ _ _ _ (by decide), fget_fset_same]
  rfl

/-! ### The end of an operation -/

theorem fget_rangeEnd (m : Mach) (r : RangeOp) (st b : Nat) (f : Fld) :
    fget (rangeEnd m r st) b f = fget (fset m (rgeBase r.n) R.RGE_STATUS_STATUS (statusMin r.status st)) b f := fget_of_regs rfl b f

@[simp] theorem rangeEnd_rangeQ (m : Mach) (r : RangeOp) (st : Nat) : (rangeEnd m r st).eng.rangeQ = m.eng.rangeQ := rfl

/-- The only operation, ended, is kept as such until its handle is gone. -/
theorem rangeEnd_ranges {st : Nat} (hr : m.eng.ranges = [r]) (hn : r'.n = r.n) {x : RangeOp} (hx : x ∈ (rangeEnd m r' st).eng.ranges) :
    x = { r' with status := statusMin r'.status st, ended := true } := by
  have hp := rangePut_only (m := fset m (rgeBase r'.n) R.RGE_STATUS_STATUS (statusMin r'.status st)) (r := r)
    (r' := { r' with status := statusMin r'.status st, ended := true }) hr hn
  rw [rangeEnd, unitsFree, hp] at hx
  exact List.mem_singleton.mp (List.mem_filter.mp hx).1

end

theorem rangeEnd_counted {rest : List RangeDone} {os : List Nat} {st : Nat} (hr : m.eng.ranges = [r]) {x : RangeOp}
    (hx : x ∈ (rangeEnd (rangeLineCounted { m with eng := { m.eng with rangeQ := rest } } n d (rangeCounted r d os)) (rangeCounted r d os) st).eng.ranges) :
    x = { rangeCounted r d os with status := statusMin (rangeCounted r d os).status st, ended := true } :=
  rangeEnd_ranges (rangeLineCounted_ranges (m := { m with eng := { m.eng with rangeQ := rest } }) (r' := rangeCounted r d os) hr rfl) rfl hx

end

/-! ## Block snoops (R318) -/

/-- A count leaves the place where another part of the state is written free. -/
theorem count_comm (g : Mach → Mach) (hr : ∀ m, (g m).regs = m.regs) (hc : ∀ m, (g m).cnts = m.cnts)
    (hp : ∀ m b k c, cntPut (g m) b k c = g (cntPut m b k c)) (m : Mach) (b c n : Nat) : count (g m) b c n = g (count m b c n) := by
  have hd : domSt (g m) (domOf b) = domSt m (domOf b) := fget_of_regs (hr m) _ _
  have hs : ∀ k x, cntOf (g x) b k = cntOf x b k := fun k x => by rw [cntOf, cntOf, hc]
  have hl : ∀ (k : Nat), forN k (fun k m => if (cntOf m b k).en && (cntOf m b k).event == c then cntPut m b k ((cntOf m b k).add n) else m) (g m) =
      g (forN k (fun k m => if (cntOf m b k).en && (cntOf m b k).event == c then cntPut m b k ((cntOf m b k).add n) else m) m) := by
    intro k
    induction k with
    | zero => rfl
    | succ k ih => rw [forN, ih, hs, hp, forN, apply_ite g]
  unfold count
  rw [hc, hd, apply_ite g]
  exact congrArg _ (hl 8)

/-- The module with other needs and open snoops at its tiles. -/
def withSnoops (blk : List BlkNeed) (snps : List OpenSnp) (m : Mach) : Mach := { m with ports := { m.ports with blk := blk, snps := snps } }

theorem count_withSnoops (blk : List BlkNeed) (snps : List OpenSnp) (m : Mach) (b c n : Nat) :
    count (withSnoops blk snps m) b c n = withSnoops blk snps (count m b c n) :=
  count_comm (withSnoops blk snps) (fun _ => rfl) (fun _ => rfl) (fun _ _ _ _ => rfl) m b c n

section
variable {p : Fin 32} {grp : BitVec 40} {m : Mach} {g h : Nat} (hg : g = grp.toNat)
include hg

/-- Four needs of a group become one block snoop. -/
theorem blockSnoop_four {expired : Bool}
    (hb : m.ports.blk = [⟨g, p.val, 4 * g, h, true⟩, ⟨g, p.val, 4 * g + 1, h, true⟩, ⟨g, p.val, 4 * g + 2, h, true⟩, ⟨g, p.val, 4 * g + 3, h, true⟩])
    (hn : snpsOut m p + 4 ≤ 1024) :
    doBlockSnoopAssembly p grp expired m = send (withSnoops [] (m.ports.snps ++
      [⟨p, 4 * g, .invBlk, h, false, true⟩, ⟨p, 4 * g + 1, .invBlk, h, false, true⟩, ⟨p, 4 * g + 2, .invBlk, h, false, true⟩,
        ⟨p, 4 * g + 3, .invBlk, h, false, true⟩])
      (count (count (count (count m (hsBase h) 0x37) (hsBase h) 0x37) (hsBase h) 0x37) (hsBase h) 0x37)) (.bisnp p .invBlk (4 * g)) := by
  have hw : ({ m with ports := { m.ports with blk := [] } } : Mach) = withSnoops [] m.ports.snps m := rfl
  simp only [doBlockSnoopAssembly, ← hg, hb, List.filter_cons, beq_self_eq_true, Bool.and_self, if_true, List.filter_nil, Bool.not_true,
    Bool.false_eq_true, if_false, List.length_cons, List.length_nil, hn, decide_true, List.foldl_cons, List.foldl_nil, List.map_cons, List.map_nil, hw,
    count_withSnoops]
  rfl

variable {l : Nat} (hb : m.ports.blk = [⟨g, p.val, l, h, true⟩])
include hb

/-- A need whose group did not fill in 2 µs becomes a line snoop. -/
theorem blockSnoop_expired : doBlockSnoopAssembly p grp true m = snoop { m with ports := { m.ports with blk := [] } } h l .inv p := by
  simp [doBlockSnoopAssembly, ← hg, hb]

theorem blockSnoop_waits : doBlockSnoopAssembly p grp false m = m := by
  simp [doBlockSnoopAssembly, ← hg, hb]

end

end Sys2Proof.Machine
end

section
/-! The settling of O47. -/

open Sys2Proof Sys2Proof.Machine

/-- Settles O47: a returned line is counted before its operation can end (`rangeLineComplete_eq`), and a count commutes with the write of the tile's
snoop table (`count_withSnoops`). -/
theorem rangeOperations : Obligations.RangeOperations := by
  unfold Obligations.RangeOperations
  refine ⟨?_, ?_, ?_, ?_, ?_, ?_, ?_, ?_, ?_, ?_⟩
  · exact fun n r k ls q m hr hn he ht ho hs hb hk hl => leads_eq rfl (rangeQuantumStart_next hr hn he ht ho hs hb hk hl)
  · exact fun n r q m hr hn he ht ho hs => leads_eq rfl (rangeQuantumStart_stopped hr hn he ht ho hs)
  · exact fun n i r l q m hr hn hi hv => leads_eq rfl (rangeLineRequest_unplaced hr hn hi hv)
  · intro n i r l h q m hr hn hi hop hh hv hw hm hc hb hno
    refine leads_eq rfl (rangeLineRequest_atOnce (q := ⟨.maint .clean none, .range n l, l, 0, 0, false, none, some (attrOf m l)⟩) hr hn hi hh hv
      (by rw [groupOf_clean hop, hop]; rfl) ?_ hno)
    have hh := count_home { m with eng := { m.eng with ranges := [{ r with toSend := r.toSend.eraseIdx i }] } } (hsBase h) 1 1
    generalize count { m with eng := { m.eng with ranges := [{ r with toSend := r.toSend.eraseIdx i }] } } (hsBase h) 1 = y at *
    exact decideReq_atOnce rfl hh hw hm hc hb rfl hno
  · intro n d rest r os f q m hq hd hr hn ho h0 h0' hf hl
    subst hf
    exact leads_eq rfl ((rangeLineComplete_more hq hd hr hn ho hl).trans (rangeLineCounted_done h0 h0' hr))
  · intro n d rest r q m hq hd hr hn ho h4 h0 hl
    have hs : statusMin (rangeCounted r d []).status 0 = 4 := by simp [rangeCounted, h0, h4, statusMin]
    have hb : rgeBase (rangeCounted r d []).n = rgeBase n := congrArg rgeBase hn
    refine ⟨_, leads_eq rfl (rangeLineComplete_last hq hd hr hn ho hl), ?_, ?_, ?_, ?_⟩
    · rw [fget_rangeEnd, hs, hb, fget_fset_same]
      rfl
    · rw [fget_rangeEnd, hb, fget_fset_at _ _ _ _ _ (by decide), left_rangeLineCounted]
      simp [rangeCounted, ← hl]
    · rw [rangeEnd_rangeQ, rangeLineCounted_eng]
      rfl
    · intro x hx hxn
      rw [rangeEnd_counted hr hx]
      exact ⟨rfl, hs⟩
  · exact fun n r q m ho hr hn he => leads_eq rfl ((gatedReg_open ho _ _).trans (rangeAbort_stops hr hn he))
  · exact fun p grp x g h q m hg hb hn => leads_eq rfl (blockSnoop_four hg hb hn)
  · exact fun p grp g l h q m hg hb => leads_eq rfl (blockSnoop_expired hg hb)
  · exact fun p grp g l h q m hg hb => leads_eq rfl (blockSnoop_waits hg hb)

end

section
/-! SUPPORT. Packets at gateways, probes and the trace, uplinks and route markers (R342, R347 to R352). -/

namespace Sys2Proof.Machine

/-! ## Passages and probes (R351, Table 13-11) -/

section
variable {m m' : Mach} {hops : List Hop}

theorem passCount_same {β : Type} (p : Mach → β) (hp : ∀ m b c n, p (count m b c n) = p m) (m : Mach) (hops : List Hop) :
    p (passCount m hops) = p m := by
  refine foldl_same p (fun a x => ?_) _ m
  simp only [apply_ite p, hp, ite_self]

@[simp] theorem passCount_regs (m : Mach) (hops : List Hop) : (passCount m hops).regs = m.regs :=
  passCount_same Mach.regs (fun _ _ _ _ => count_regs ..) m hops

@[simp] theorem count_net (m : Mach) (b c n : Nat) : (count m b c n).net = m.net := count_same Mach.net (fun _ _ _ _ => rfl) m b c n

@[simp] theorem passCount_net (m : Mach) (hops : List Hop) : (passCount m hops).net = m.net :=
  passCount_same Mach.net (fun _ _ _ _ => count_net ..) m hops

theorem gwState_of_regs (h : m'.regs = m.regs) (sd site : Nat) : gwState m' sd site = gwState m sd site := fget_of_regs h _ _

theorem fon_of_regs (h : m'.regs = m.regs) (b : Nat) (f : Fld) : fon m' b f = fon m b f := by rw [fon, fon, fget_of_regs h]

theorem probeSees_of_regs (h : m'.regs = m.regs) (sd k net hdr : Nat) (hops : List Hop) :
    probeSees m' sd k net hdr hops = probeSees m sd k net hdr hops := by
  simp only [probeSees, fon_of_regs h, fget_of_regs h]

theorem probeSees_off {sd k : Nat} (h : fon m (nocBase sd + 0x20 * k) R.NOC_PRBCTL_EN = false) (net hdr : Nat) (hops : List Hop) :
    probeSees m sd k net hdr hops = false := by
  simp only [probeSees, h, Bool.false_and]

/-- What a probe that sees a packet does. -/
def probed (m : Mach) (sd k net hdr d0 : Nat) : Mach :=
  if fon (count m (nocBase sd) (0x10 + k)) (nocBase sd + 0x20 * k) R.NOC_PRBCTL_TRACE then
    traceCapture (count m (nocBase sd) (0x10 + k)) sd k net hdr d0
  else count m (nocBase sd) (0x10 + k)

/-- A packet passes one probe. -/
def probeStep (sd net hdr d0 : Nat) (hops : List Hop) (m : Mach) (k : Nat) : Mach :=
  if probeSees m sd k net hdr hops then probed m sd k net hdr d0 else m

theorem probes_eq (m : Mach) (sd net hdr d0 : Nat) (hops : List Hop) :
    probes m sd net hdr d0 hops = (List.range 8).foldl (probeStep sd net hdr d0 hops) m := rfl

theorem probeStep_unseen {sd k net hdr : Nat} (d0 : Nat) (h : probeSees m sd k net hdr hops = false) : probeStep sd net hdr d0 hops m k = m := by
  rw [probeStep, h]
  rfl

theorem probeStep_seen {sd k net hdr : Nat} (d0 : Nat) (h : probeSees m sd k net hdr hops = true) :
    probeStep sd net hdr d0 hops m k = probed m sd k net hdr d0 := if_pos h

/-- A fold whose steps all leave alone where it starts does too. -/
theorem foldl_unmoved {α β : Type} {f : α → β → α} {a : α} {l : List β} (h : ∀ j ∈ l, f a j = a) : l.foldl f a = a := by
  induction l with
  | nil => rfl
  | cons x l ih => rw [List.foldl_cons, h x (List.mem_cons_self ..), ih fun j hj => h j (List.mem_cons_of_mem _ hj)]

/-- A fold whose steps but one leave alone both where it starts and what that step gives, is that step. -/
theorem foldl_once {α β : Type} {f : α → β → α} {a : α} {k : β} {l : List β} (hn : l.Nodup) (hk : k ∈ l) (h0 : ∀ j ∈ l, j ≠ k → f a j = a)
    (h1 : ∀ j ∈ l, j ≠ k → f (f a k) j = f a k) : l.foldl f a = f a k := by
  obtain ⟨l1, l2, rfl⟩ := List.append_of_mem hk
  have hne : ∀ j, j ∈ l1 ∨ j ∈ l2 → j ≠ k := by
    rintro j hj rfl
    obtain ⟨h1, h2⟩ := List.nodup_middle.mp hn |> List.nodup_cons.mp
    exact h1 (List.mem_append.mpr hj)
  rw [List.foldl_append, List.foldl_cons, foldl_unmoved fun j hj => h0 j (by simp [hj]) (hne j (.inl hj)),
    foldl_unmoved fun j hj => h1 j (by simp [hj]) (hne j (.inr hj))]

theorem probes_none {sd net hdr d0 : Nat} (h : ∀ k < 8, probeSees m sd k net hdr hops = false) : probes m sd net hdr d0 hops = m :=
  foldl_unmoved fun k hk => probeStep_unseen d0 (h k (List.mem_range.mp hk))

theorem probes_one {sd net hdr d0 k : Nat} (hk : k < 8) (h : ∀ j < 8, probeSees m sd j net hdr hops = decide (j = k))
    (hr : (probed m sd k net hdr d0).regs = m.regs) : probes m sd net hdr d0 hops = probed m sd k net hdr d0 := by
  have hf : probeStep sd net hdr d0 hops m k = probed m sd k net hdr d0 := probeStep_seen d0 ((h k hk).trans (by simp))
  have hother (j : Nat) (hj : j ∈ List.range 8) (hne : j ≠ k) : probeSees m sd j net hdr hops = false :=
    (h j (List.mem_range.mp hj)).trans (by simp [hne])
  refine (foldl_once List.nodup_range (List.mem_range.mpr hk) (fun j hj hne => probeStep_unseen d0 (hother j hj hne)) fun j hj hne => ?_).trans hf
  rw [hf]
  exact probeStep_unseen d0 ((probeSees_of_regs hr ..).trans (hother j hj hne))

/-- A packet's passage of the network: it is counted and passes the probes of both sides. -/
def passed (m : Mach) (net hdr d0 : Nat) (hops : List Hop) : Mach :=
  probes (probes (passCount m hops) 0 net hdr d0 hops) 1 net hdr d0 hops

theorem passed_unseen {net hdr d0 : Nat} (h : ∀ s : Fin 2, ∀ j : Fin 8, fon m (nocBase s + 0x20 * j) R.NOC_PRBCTL_EN = false) :
    passed m net hdr d0 hops = passCount m hops := by
  have hs (s : Fin 2) : probes (passCount m hops) s net hdr d0 hops = passCount m hops :=
    probes_none fun k hk => (probeSees_of_regs (passCount_regs ..) ..).trans (probeSees_off (h s ⟨k, hk⟩) ..)
  exact (congrArg (probes · 1 net hdr d0 hops) (hs 0)).trans (hs 1)

theorem passed_one {net hdr d0 : Nat} {sd : Fin 2} {k : Fin 8} (h : ∀ s : Fin 2, ∀ j : Fin 8, probeSees m s j net hdr hops = decide (s = sd ∧ j = k))
    (hr : (probed (passCount m hops) sd k net hdr d0).regs = m.regs) :
    passed m net hdr d0 hops = probed (passCount m hops) sd k net hdr d0 := by
  have hone (x : Mach) (hx : x.regs = m.regs) (hp : (probed x sd k net hdr d0).regs = x.regs) :
      probes x sd net hdr d0 hops = probed x sd k net hdr d0 := by
    refine probes_one k.isLt (fun j hj => ?_) hp
    rw [probeSees_of_regs hx, h sd ⟨j, hj⟩]
    simp [Fin.ext_iff]
  have hnone (x : Mach) (hx : x.regs = m.regs) (s : Fin 2) (hne : s ≠ sd) : probes x s net hdr d0 hops = x := by
    refine probes_none fun j hj => ?_
    rw [probeSees_of_regs hx, h s ⟨j, hj⟩]
    simp [hne]
  have hp0 := passCount_regs m hops
  rcases (by omega : sd = 0 ∨ sd = 1) with rfl | rfl
  · exact (congrArg (probes · 1 net hdr d0 hops) (hone _ hp0 (hr.trans hp0.symm))).trans (hnone _ hr 1 (by decide))
  · exact (congrArg (probes · 1 net hdr d0 hops) (hnone _ hp0 0 (by decide))).trans (hone _ hp0 (hr.trans hp0.symm))

end

/-! ## The trace (R352) -/

section
variable {m : Mach} {sd k net hdr d0 : Nat}

theorem probed_counts (ht : fon m (nocBase sd + 0x20 * k) R.NOC_PRBCTL_TRACE = false) :
    probed m sd k net hdr d0 = count m (nocBase sd) (0x10 + k) := by
  rw [probed, fon_count, ht]
  rfl

/-- The trace with a record of a header alone. -/
def traced (m : Mach) (sd k hdr : Nat) : Mach :=
  { draw (count m (nocBase sd) 0x0E) with
    net := { m.net with
      trace := m.net.trace ++ [(sd, [hdr % 2 ^ 64, hdr / 2 ^ 64 % 2 ^ 64, drawn m % 2 ^ 40 + k * 2 ^ 40 + sget 0 m.net.tseq sd * 2 ^ 43 + 2 ^ 63, 0])]
      tseq := sset 0 m.net.tseq sd ((sget 0 m.net.tseq sd + 1) % 65536) } }

theorem traceCapture_header (he : fon m (nocBase sd) R.NOC_TRCTL_EN = true) (hd : fon m (nocBase sd) R.NOC_TRCTL_DATA = false)
    (ht : m.net.trace = []) : traceCapture m sd k net hdr d0 = traced m sd k hdr := by
  have hf : (1024 ≤ (traceOf m sd).length) = False := by simp [traceOf, ht]
  simp only [traceCapture, he, hf, hd, Bool.not_true, decide_false, Bool.false_and, Bool.false_eq_true, if_false, traced, draw, count_net]

theorem probed_traces (hp : fon m (nocBase sd + 0x20 * k) R.NOC_PRBCTL_TRACE = true) (he : fon m (nocBase sd) R.NOC_TRCTL_EN = true)
    (hd : fon m (nocBase sd) R.NOC_TRCTL_DATA = false) (ht : m.net.trace = []) :
    probed m sd k net hdr d0 = traced (count m (nocBase sd) (0x10 + k)) sd k hdr := by
  rw [probed, fon_count, hp, if_pos rfl]
  exact traceCapture_header ((fon_count ..).trans he) ((fon_count ..).trans hd) ((congrArg Net.trace (count_net ..)).trans ht)

/-- The record takes the whole header; when it was captured is open. -/
theorem traced_trace {m0 : Mach} (hn : m.net = m0.net) (ht : m0.net.trace = []) (hh : hdr < 2 ^ 128) : (traced m sd k hdr).net.trace =
    [(sd, [hdr % 2 ^ 64, hdr / 2 ^ 64, drawn m % 2 ^ 40 + k * 2 ^ 40 + sget 0 m0.net.tseq sd * 2 ^ 43 + 2 ^ 63, 0])] := by
  have hd : hdr / 2 ^ 64 % 2 ^ 64 = hdr / 2 ^ 64 := Nat.mod_eq_of_lt (by omega)
  rw [traced, hn, ht, hd]
  rfl

@[simp] theorem traced_regs : (traced m sd k hdr).regs = m.regs := count_regs ..

end

/-! ## A packet at a gateway (R347, Table 13-5) -/

theorem cluster_domain (sd : Fin 2) : (10 + 6 * sd.val == 10 || 10 + 6 * sd.val == 16) = true := by
  revert sd
  decide

theorem siteDom_cluster (sd : Fin 2) : siteDom sd 52 = some (10 + 6 * sd.val) := by
  revert sd
  decide

section
variable {m m1 : Mach} {sd : Fin 2} {site : Fin 64} {net : Fin 4} {hdr : BitVec 128} {d0 : Word}
  (h : passed m net hdr.toNat d0.toNat (route sd site hdr.toNat) = m1)
include h

theorem gwArrive_open (hg : gwState m1 sd site = 0) : gwArrive sd site net hdr d0 m = m1 := by
  rw [passed] at h
  unfold gwArrive
  dsimp only
  rw [h, hg]
  rfl

theorem gwArrive_powering (hg : gwState m1 sd site = 3) :
    gwArrive sd site net hdr d0 m = gwHold m1 ⟨sd, site, net, hdr.toNat, d0.toNat⟩ := by
  rw [passed] at h
  unfold gwArrive
  dsimp only
  rw [h, hg]
  rfl

theorem gwArrive_draining (hg : gwState m1 sd site = 1) (hw : hdrWake hdr.toNat = true) {d : Nat} (hd : siteDom sd site = some d) :
    gwArrive sd site net hdr d0 m = fset (fset (gwHold m1 ⟨sd, site, net, hdr.toNat, d0.toNat⟩) (gwBase sd site) R.NOC_GW_ABORT 1)
      (8 * d) R.PWR_DOM_ABORT 1 := by
  rw [passed] at h
  unfold gwArrive
  dsimp only
  rw [h, hg, hw, hd]
  exact if_pos rfl

theorem gwArrive_offControl (hg : gwState m1 sd site = 2) (hn : net = 0) (hv : hdrVn hdr.toNat = 2) :
    gwArrive sd site net hdr d0 m = noAnswer m1 (bitsOf hdr.toNat 64 32) := by
  rw [passed] at h
  unfold gwArrive
  dsimp only
  rw [h, hg]
  exact if_pos (by rw [hn, hv]; rfl)

section
variable (hn : net ≠ 0)
include hn

theorem gwArrive_off (hg : gwState m1 sd site = 2) (hw : hdrWake hdr.toNat = false) :
    gwArrive sd site net hdr d0 m = gwDiscard m1 ⟨sd, site, net, hdr.toNat, d0.toNat⟩ true := by
  have hc : (net.val == 0) = false := beq_false_of_ne fun e => hn (Fin.ext e)
  rw [passed] at h
  unfold gwArrive
  dsimp only
  rw [h, hg]
  refine (if_neg (by rw [hc, Bool.false_and]; decide)).trans ?_
  split
  · exact if_neg (by rw [hw, Bool.false_and, Bool.false_and]; decide)
  · rfl

theorem gwArrive_wakes (hs : site = 52) (hg : gwState m1 sd site = 2) (hw : hdrWake hdr.toNat = true) (hd : domSt m1 (10 + 6 * sd) = 4) :
    gwArrive sd site net hdr d0 m = gwHold (finc (count (gwPut (domPut m1 (10 + 6 * sd) 1) sd 52 3) (nocBase sd) 0x05) (gwBase sd 52)
      R.NOC_GW_WAKES) ⟨sd, 52, net, hdr.toNat, d0.toNat⟩ := by
  subst hs
  have hc : (net.val == 0) = false := beq_false_of_ne fun e => hn (Fin.ext e)
  have hs : siteDom sd (52 : Fin 64).val = some (10 + 6 * sd.val) := siteDom_cluster sd
  have h10 : (10 + 6 * sd.val == 10 || 10 + 6 * sd.val == 16) = true := cluster_domain sd
  rw [passed] at h
  unfold gwArrive
  dsimp only
  rw [h, hg]
  refine (if_neg (by rw [hc, Bool.false_and]; decide)).trans ?_
  rw [hs]
  exact if_pos (by rw [hw, h10, hd]; rfl)

theorem gwArrive_fenced (hg : gwState m1 sd site = 4) :
    gwArrive sd site net hdr d0 m = gwDiscard m1 ⟨sd, site, net, hdr.toNat, d0.toNat⟩ false := by
  have hc : (net.val == 0) = false := beq_false_of_ne fun e => hn (Fin.ext e)
  rw [passed] at h
  unfold gwArrive
  dsimp only
  rw [h, hg]
  exact if_neg (by rw [hc, Bool.false_and]; decide)

end
end

section
variable (sd : Fin 2) (site : Fin 64) (net : Fin 4) (hdr : BitVec 128) (d0 : Word) (m : Mach)

/-- A packet whose header is good goes on to its gateway. -/
theorem gatewayPacket_arrives {ck : NetCheck} (h : ck ≠ .header) (hw : ck = .word → net.val = 3) :
    doGatewayPacket sd site net hdr d0 ck m = gwArrive sd site net hdr d0 (netCheck m sd net (hdrAddr hdr.toNat) ck) := by
  refine if_neg ?_
  rw [Bool.or_eq_true, Bool.and_eq_true, beq_iff_eq, beq_iff_eq, bne_iff_ne]
  rintro (e | ⟨e, hn⟩)
  · exact h e
  · exact hn (Fin.ext (hw e))

theorem gatewayPacket_good : doGatewayPacket sd site net hdr d0 .good m = gwArrive sd site net hdr d0 m :=
  gatewayPacket_arrives sd site net hdr d0 m NetCheck.noConfusion NetCheck.noConfusion

/-- An uncorrectable header, or word of a network without data, fails the side, and the packet is lost. -/
theorem gatewayPacket_lost {ck : NetCheck} (h : ck = .header ∨ ck = .word ∧ net ≠ 3) :
    doGatewayPacket sd site net hdr d0 ck m = failLater (err m { errOf 2 0x10 0x15 sd with action := 31 }) sd 2 := by
  have hl : doGatewayPacket sd site net hdr d0 ck m = netCheck m sd net (hdrAddr hdr.toNat) ck := by
    refine if_pos ?_
    rw [Bool.or_eq_true, Bool.and_eq_true, beq_iff_eq, beq_iff_eq, bne_iff_ne]
    exact h
  rw [hl]
  rcases h with rfl | ⟨rfl, hn⟩
  · rfl
  · exact if_neg fun e => hn (Fin.ext (beq_iff_eq.mp e))

/-- An uncorrectable word of the data network is poisoned and goes on. -/
theorem gatewayPacket_poisoned : doGatewayPacket sd site 3 hdr d0 .word m =
    gwArrive sd site 3 hdr d0 (err m { errOf 1 0x11 0x15 sd with poisoned := true, action := 13, addr := hdrAddr hdr.toNat }) :=
  have h : netCheck m sd (3 : Fin 4).val (hdrAddr hdr.toNat) .word =
      err m { errOf 1 0x11 0x15 sd with poisoned := true, action := 13, addr := hdrAddr hdr.toNat } := by
    unfold netCheck
    exact if_pos rfl
  (gatewayPacket_arrives sd site 3 hdr d0 m NetCheck.noConfusion fun _ => rfl).trans (congrArg (gwArrive sd site 3 hdr d0) h)

end

/-- An error record writes none of the network's registers. -/
theorem fget_err_noc (m : Mach) (e : Err) (sd o : Nat) (f : Fld) : fget (err m e) (nocBase sd + o) f = fget m (nocBase sd + o) f := by
  refine (err_regsBut m e).fget ?_
  simp only [errKey, dropKey, fkey, nocBase, sideBase, mgtBase, R.MGT_LOGSTAT_DROPS]
  omega

theorem gwState_err (m : Mach) (e : Err) (sd site : Nat) : gwState (err m e) sd site = gwState m sd site := by
  rw [gwState, gwState, gwBase, fget_err_noc]

theorem prbctlEn_err (m : Mach) (e : Err) (sd j : Nat) :
    fon (err m e) (nocBase sd + 0x20 * j) R.NOC_PRBCTL_EN = fon m (nocBase sd + 0x20 * j) R.NOC_PRBCTL_EN := by
  rw [fon, fon, fget_err_noc]

theorem ReportOnly.net {m m' : Mach} (h : ReportOnly m m') : m'.net = m.net := by obtain ⟨_, _, _, _, _, rfl⟩ := h; rfl
theorem ReportOnly.ports {m m' : Mach} (h : ReportOnly m m') : m'.ports = m.ports := by obtain ⟨_, _, _, _, _, rfl⟩ := h; rfl

/-! ## Uplinks and route markers (R348 to R350) -/

theorem bitOf_setBit_four : ∀ b : Bool, ∀ n < 16, ∀ k < 4, bitOf (setBit n k b % 2 ^ 4) k = b := by decide +kernel

section
variable (m : Mach) (sd : Fin 2) (t : Fin 4) (on : Bool)

/-- The tile's own status stands in another block than the network's. -/
theorem fget_uplinkPut (b : Nat) (f : Fld) (h : nocBase 0 ≤ b) :
    fget (uplinkPut m sd t on) b f =
      fget (fset m (nocBase sd) R.NOC_STATUS_UPLINK (setBit (fget m (nocBase sd) R.NOC_STATUS_UPLINK) t on)) b f := by
  refine fget_fset_other _ _ _ _ _ _ ?_
  have ht := t.isLt
  have hb : 0x10C0000 ≤ b := h
  have hf : ∀ c : Bool, ((if c then R.TL_STATUS_UPA else R.TL_STATUS_UPB).off = 0x40) ∧ (if c then R.TL_STATUS_UPA else R.TL_STATUS_UPB).lo ≤ 1 := by
    decide
  obtain ⟨ho, hl⟩ := hf (sd.val == 0)
  rw [ho, tlBase]
  omega

theorem uplink_uplinkPut : uplink (uplinkPut m sd t on) sd t = on := by
  have h : nocBase 0 ≤ nocBase sd := by simp only [nocBase, sideBase]; omega
  rw [uplink, fget_uplinkPut _ _ _ _ _ _ h, fget_fset_same]
  exact bitOf_setBit_four on _ (fget_lt ..) t t.isLt

theorem detour_uplinkPut : fget (uplinkPut m sd t on) (nocBase sd) R.NOC_STATUS_DETOUR = fget m (nocBase sd) R.NOC_STATUS_DETOUR := by
  have h : nocBase 0 ≤ nocBase sd := by simp only [nocBase, sideBase]; omega
  rw [fget_uplinkPut _ _ _ _ _ _ h, fget_fset_at _ _ _ _ _ (by decide)]

end

section
variable {m : Mach} {sd : Fin 2} {t : Fin 4}

section
variable (hu : uplink m sd t = false) (hr : sideRuns m sd = true)
include hu hr

theorem uplinkReturn_detoured (hd : bitOf (fget m (nocBase sd) R.NOC_STATUS_DETOUR) t = true) :
    doUplinkReturn sd t m = (fun y : Mach => { y with net := { y.net with markers := y.net.markers ++ (List.range 15).map (fun v => (sd.val, t.val, v)) } })
      (uplinkPut m sd t true) := by
  simp only [doUplinkReturn, hu, hr, Bool.not_true, Bool.or_self, Bool.false_eq_true, if_false, detour_uplinkPut, hd, if_true, allVns]

theorem uplinkReturn_direct (hd : bitOf (fget m (nocBase sd) R.NOC_STATUS_DETOUR) t = false) : doUplinkReturn sd t m = uplinkPut m sd t true := by
  simp only [doUplinkReturn, hu, hr, Bool.not_true, Bool.or_self, Bool.false_eq_true, if_false, detour_uplinkPut, hd]

end

theorem uplinkFail_down (hu : uplink m sd t = false) (bounced again : BitVec 8) : doUplinkFail sd t bounced again m = m := by
  simp only [doUplinkFail, hu, Bool.not_false, if_true]

/-- A failed uplink: the tile detours, and the markers that came by it are no longer awaited. -/
def uplinkLost (m : Mach) (sd t : Nat) : Mach :=
  { detourPut (uplinkPut m sd t false) sd t true with
    net := { m.net with markers := m.net.markers.filter fun x => !(x.1 == sd && x.2.1 == t) } }

/-- What the packets that come back count and record, with the route change. -/
def bouncesCounted (m : Mach) (sd bounced again : Nat) : Mach :=
  let m := fsat (count m (nocBase sd) 0x08 bounced) (nocBase sd) R.NOC_STATUS_BOUNCES bounced
  let m := fsat (count m (nocBase sd) 0x09 again) (nocBase sd) R.NOC_STATUS_BDISC again
  count (finc (forN again (fun _ m => err m (errOf 1 0 0x15 sd)) m) (nocBase sd) R.NOC_STATUS_RECONF) (nocBase sd) 0x0A

/-- A cell that these write: in the records of errors, or below the bits of the uplinks. -/
def bounceKey (sd k : Nat) : Prop := errKey k ∨ ∃ o < 40, k = (nocBase sd + 0x48) * 8 + o

theorem bouncesCounted_regsBut (m : Mach) (sd bounced again : Nat) : RegsBut (bounceKey sd) m (bouncesCounted m sd bounced again) := by
  have hc (m : Mach) (c n : Nat) : RegsBut (bounceKey sd) m (count m (nocBase sd) c n) := .of_regs (count_regs ..)
  have hf (f : Fld) (ho : f.off = 0x48) (hl : f.lo < 40) : bounceKey sd (fkey (nocBase sd) f) := .inr ⟨f.lo, hl, by rw [fkey, ho]⟩
  have hs (f : Fld) (ho : f.off = 0x48) (hl : f.lo < 40) (x : Mach) (n : Nat) : RegsBut (bounceKey sd) x (fsat x (nocBase sd) f n) :=
    (RegsBut.refl x).fset (hf f ho hl) _
  have he (x : Mach) : RegsBut (bounceKey sd) x (forN again (fun _ m => err m (errOf 1 0 0x15 sd)) x) :=
    .forN (fun _ _ a => (err_regsBut a _).mono fun _ hk => .inl hk) (.refl x)
  have h12 := ((hc m 0x08 bounced).trans (hs R.NOC_STATUS_BOUNCES rfl (by decide) _ bounced)).trans
    ((hc _ 0x09 again).trans (hs R.NOC_STATUS_BDISC rfl (by decide) _ again))
  exact ((h12.trans (he _)).fset (hf R.NOC_STATUS_RECONF rfl (by decide)) _).trans (hc _ _ _)

theorem bouncesCounted_reportOnly (m : Mach) (sd bounced again : Nat) : ReportOnly m (bouncesCounted m sd bounced again) := by
  have hs (x : Mach) (c n : Nat) (f : Fld) : ReportOnly x (fsat (count x (nocBase sd) c n) (nocBase sd) f n) :=
    (count_reportOnly ..).trans (fset_reportOnly ..)
  have he (x : Mach) : ReportOnly x (forN again (fun _ m => err m (errOf 1 0 0x15 sd)) x) := .forN (fun _ a => err_reportOnly a _) again x
  exact ((((hs m 0x08 bounced R.NOC_STATUS_BOUNCES).trans (hs _ 0x09 again R.NOC_STATUS_BDISC)).trans (he _)).trans (fset_reportOnly ..)).trans
    (count_reportOnly ..)

/-- Neither the routes of a side nor its power stand where bounces are counted. -/
theorem fget_bouncesCounted {b : Nat} {f : Fld} (hn : ¬ bounceKey sd (fkey b f)) (m : Mach) (bounced again : Nat) :
    fget (bouncesCounted m sd bounced again) b f = fget m b f := (bouncesCounted_regsBut ..).fget hn

theorem uplinkFail_eq (hu : uplink m sd t = true) (bounced again : BitVec 8) :
    doUplinkFail sd t bounced again m = cutOff (bouncesCounted (uplinkLost m sd t) sd bounced.toNat again.toNat) t := by
  refine if_neg ?_
  rw [hu]
  decide

/-- A tile that still reaches a running side loses no port. -/
theorem cutOff_reached {s : Fin 2} (hu : uplink m s t = true) (hr : sideRuns m s = true) : cutOff m t = m := by
  refine if_pos ?_
  rcases (by omega : s = 0 ∨ s = 1) with rfl | rfl
  · exact Bool.or_eq_true_iff.mpr (.inl (Bool.and_eq_true_iff.mpr ⟨hu, hr⟩))
  · exact Bool.or_eq_true_iff.mpr (.inr (Bool.and_eq_true_iff.mpr ⟨hu, hr⟩))

/-- The fields of a side's routes, in its network block above those of the bounces. -/
theorem not_bounceKey_route (sd s : Nat) {f : Fld} (ho : f.off = 0x48) (hl : 40 ≤ f.lo) (hl' : f.lo < 64) : ¬ bounceKey sd (fkey (nocBase s) f) := by
  simp only [bounceKey, errKey, dropKey, fkey, nocBase, sideBase, mgtBase, R.MGT_LOGSTAT_DROPS, ho]
  omega

theorem not_bounceKey_power (sd d : Nat) (hd : d < 26) : ¬ bounceKey sd (fkey (8 * d) R.PWR_DOM_STATE) := by
  simp only [bounceKey, errKey, dropKey, fkey, nocBase, sideBase, mgtBase, R.MGT_LOGSTAT_DROPS, R.PWR_DOM_STATE]
  omega

theorem fget_uplinkLost (m : Mach) (sd t b : Nat) (f : Fld) :
    fget (uplinkLost m sd t) b f = fget (detourPut (uplinkPut m sd t false) sd t true) b f := fget_of_regs rfl b f

theorem uplink_uplinkLost : uplink (uplinkLost m sd t) sd t = false := by
  rw [uplink, fget_uplinkLost, detourPut, fget_fset_at _ _ _ _ _ (by decide)]
  exact uplink_uplinkPut m sd t false

theorem detour_uplinkLost : bitOf (fget (uplinkLost m sd t) (nocBase sd) R.NOC_STATUS_DETOUR) t = true := by
  rw [fget_uplinkLost, detourPut, fget_fset_same]
  exact bitOf_setBit_four true _ (fget_lt ..) t t.isLt

/-- Fields of the same register of two network blocks are apart. -/
theorem nocBase_apart {s sd : Nat} (h : s ≠ sd) (l l' : Fin 64) :
    (nocBase sd + 0x48) * 8 + l.val ≠ (nocBase s + 0x48) * 8 + l'.val := by
  simp only [nocBase, sideBase]
  omega

theorem uplink_uplinkLost_other {s : Fin 2} (h : s ≠ sd) : uplink (uplinkLost m sd t) s t = uplink m s t := by
  have hs : s.val ≠ sd.val := fun e => h (Fin.ext e)
  have h0 : nocBase 0 ≤ nocBase s := by simp only [nocBase, sideBase]; omega
  rw [uplink, uplink, fget_uplinkLost, detourPut, fget_fset_other _ _ _ _ _ _ (nocBase_apart hs 48 44), fget_uplinkPut _ _ _ _ _ _ h0,
    fget_fset_other _ _ _ _ _ _ (nocBase_apart hs 44 44)]

theorem sideRuns_uplinkLost (s : Fin 2) : sideRuns (uplinkLost m sd t) s = sideRuns m s := by
  have hs := s.isLt
  rw [sideRuns, domSt, fget_uplinkLost, detourPut, uplinkPut]
  rw [fget_fset_other, fget_fset_other, fget_fset_other]
  · rfl
  · simp only [nocBase, sideBase, R.NOC_STATUS_UPLINK, R.PWR_DOM_STATE]
    omega
  · simp only [tlBase, R.PWR_DOM_STATE]
    omega
  · simp only [nocBase, sideBase, R.NOC_STATUS_DETOUR, R.PWR_DOM_STATE]
    omega

section
variable {bounced again : BitVec 8}

/-- With the other side reached the tile only detours. -/
theorem uplinkFail_detours (hu : uplink m sd t = true) {s : Fin 2} (hs : s ≠ sd) (hu' : uplink m s t = true) (hr : sideRuns m s = true) :
    doUplinkFail sd t bounced again m = bouncesCounted (uplinkLost m sd t) sd bounced.toNat again.toNat := by
  refine (uplinkFail_eq hu bounced again).trans (cutOff_reached (s := s) ?_ ?_)
  · rw [uplink, fget_bouncesCounted (not_bounceKey_route _ _ rfl (by decide) (by decide))]
    exact (uplink_uplinkLost_other hs).trans hu'
  · rw [sideRuns, domSt, fget_bouncesCounted (not_bounceKey_power _ _ (by omega))]
    exact (sideRuns_uplinkLost s).trans hr

end


variable {vn : Fin 15}

/-- The acknowledgment on the last VN ends the detour. -/
theorem routeMarkerAck_last (hm : m.net.markers = [(sd.val, t.val, vn.val)]) :
    doRouteMarkerAck sd t vn m = count (finc (detourPut { m with net := { m.net with markers := [] } } sd t false) (nocBase sd)
     R.NOC_STATUS_RECONF) (nocBase sd) 0x0A := by
  simp [doRouteMarkerAck, hm]

theorem routeMarkerAck_more {w : Nat} (hm : m.net.markers = [(sd.val, t.val, vn.val), (sd.val, t.val, w)]) (hw : w ≠ vn.val) :
    doRouteMarkerAck sd t vn m = { m with net := { m.net with markers := [(sd.val, t.val, w)] } } := by
  simp [doRouteMarkerAck, hm, hw]

theorem routeMarkerAck_none (hm : m.net.markers = []) : doRouteMarkerAck sd t vn m = m := by
  simp [doRouteMarkerAck, hm]

theorem nocTradv_drops {r : List Nat} {rest : List (Nat × List Nat)} (ho : reach m (nocBase sd + 0x930) = .open_)
    (ht : m.net.trace = (sd.val, r) :: rest) : doNocTradv sd m = { m with net := { m.net with trace := rest } } := by
  rw [doNocTradv, gated_open ho, ht]
  simp [dropFirst]

end

end Sys2Proof.Machine
end

section
/-! The settling of O49. -/

open Sys2Proof Sys2Proof.Machine

/-- Settles O49: a passage changes no register, so the gateway that the packet meets stands as before (`passed_unseen`, `passed_one`), and what a failed
uplink records stands apart from the routes (`fget_bouncesCounted`). -/
theorem networkGatewaysProbesAndRoutes : Obligations.NetworkGatewaysProbesAndRoutes := by
  unfold Obligations.NetworkGatewaysProbesAndRoutes
  have hgood {sd site net hdr d0 m m'} (h : gwArrive sd site net hdr d0 m = m') := (gatewayPacket_good sd site net hdr d0 m).trans h
  have hgw (m : Mach) (hops : List Hop) (sd site : Nat) := gwState_of_regs (passCount_regs m hops) sd site
  refine ⟨?_, ?_, ?_, ?_, ?_, ?_, ?_, ?_, ?_, ?_, ?_, ?_, ?_, ?_, ?_, ?_, ?_, ?_, ?_⟩
  · exact fun sd site net hdr d0 q m h hg => leads_eq rfl (hgood (gwArrive_open (passed_unseen h) ((hgw ..).trans hg)))
  · exact fun sd site net hdr d0 q m h hg => leads_eq rfl (hgood (gwArrive_powering (passed_unseen h) ((hgw ..).trans hg)))
  · exact fun sd site net hdr d0 d q m h hg hw hd => leads_eq rfl (hgood (gwArrive_draining (passed_unseen h) ((hgw ..).trans hg) hw hd))
  · exact fun sd site hdr d0 q m h hg hv => leads_eq rfl (hgood (gwArrive_offControl (passed_unseen h) ((hgw ..).trans hg) rfl hv))
  · exact fun sd site net hdr d0 q m h hg hn hw => leads_eq rfl (hgood (gwArrive_off (passed_unseen h) hn ((hgw ..).trans hg) hw))
  · exact fun sd net hdr d0 q m h hg hn hw hd => leads_eq rfl (hgood (gwArrive_wakes (passed_unseen h) hn rfl ((hgw ..).trans hg) hw
      ((fget_of_regs (passCount_regs ..) _ _).trans hd)))
  · exact fun sd site net hdr d0 q m h hg hn => leads_eq rfl (hgood (gwArrive_fenced (passed_unseen h) hn ((hgw ..).trans hg)))
  · intro sd site net hdr d0 k q m h ht hg
    have hc : probed (passCount m (route sd site hdr.toNat)) sd k net hdr.toNat d0.toNat =
        count (passCount m (route sd site hdr.toNat)) (nocBase sd) (0x10 + k) := probed_counts ((fon_of_regs (passCount_regs ..) _ _).trans ht)
    have hr := (congrArg Mach.regs hc).trans ((count_regs ..).trans (passCount_regs ..))
    exact leads_eq rfl (hgood (gwArrive_open ((passed_one h hr).trans hc) ((gwState_of_regs (hc ▸ hr) _ _).trans hg)))
  · intro sd site net hdr d0 k q m h ht hg he hd htr
    have hp := passCount_regs m (route sd site hdr.toNat)
    have hc : probed (passCount m (route sd site hdr.toNat)) sd k net hdr.toNat d0.toNat =
        traced (count (passCount m (route sd site hdr.toNat)) (nocBase sd) (0x10 + k)) sd k hdr.toNat :=
      probed_traces ((fon_of_regs hp _ _).trans ht) ((fon_of_regs hp _ _).trans he) ((fon_of_regs hp _ _).trans hd)
        ((congrArg Net.trace (passCount_net ..)).trans htr)
    have hr := (congrArg Mach.regs hc).trans (traced_regs.trans ((count_regs ..).trans hp))
    refine ⟨_, leads_eq rfl (hgood (gwArrive_open ((passed_one h hr).trans hc) ((gwState_of_regs (hc ▸ hr) _ _).trans hg))), _,
      Nat.mod_lt (drawn (count (passCount m (route sd site hdr.toNat)) (nocBase sd) (0x10 + k))) (by decide), ?_⟩
    exact traced_trace ((count_net ..).trans (passCount_net ..)) htr hdr.isLt
  · exact fun sd site net hdr d0 ck q m h => leads_eq rfl (gatewayPacket_lost sd site net hdr d0 m h)
  · intro sd site hdr d0 q m h hg
    exact leads_eq rfl ((gatewayPacket_poisoned sd site hdr d0 m).trans (gwArrive_open
      (passed_unseen fun s j => (prbctlEn_err ..).trans (h s j)) ((hgw ..).trans ((gwState_err ..).trans hg))))
  · exact fun sd t b a q m hu => leads_eq rfl (uplinkFail_down hu b a)
  · intro sd t b a q m hu hu' hr
    obtain ⟨s, hs, hv⟩ : ∃ s : Fin 2, s ≠ sd ∧ s.val = 1 - sd.val := ⟨⟨1 - sd.val, by omega⟩, fun e => by have h : 1 - sd.val = sd.val := congrArg Fin.val e; omega, rfl⟩
    rw [← hv] at hu' hr
    refine ⟨_, leads_eq rfl (uplinkFail_detours hu hs hu' hr), ?_, ?_, ?_, ?_⟩
    · rw [uplink, fget_bouncesCounted (not_bounceKey_route _ _ rfl (by decide) (by decide))]
      exact uplink_uplinkLost
    · rw [fget_bouncesCounted (not_bounceKey_route _ _ rfl (by decide) (by decide))]
      exact detour_uplinkLost
    · rw [(bouncesCounted_reportOnly ..).net]
      rfl
    · rw [(bouncesCounted_reportOnly ..).ports]
      rfl
  · exact fun sd t q m hu hr hd => leads_eq rfl (uplinkReturn_detoured hu hr hd)
  · exact fun sd t q m hu hr hd => leads_eq rfl (uplinkReturn_direct hu hr hd)
  · exact fun sd t vn q m hm => leads_eq rfl (routeMarkerAck_last hm)
  · exact fun sd t vn w q m hm hw => leads_eq rfl (routeMarkerAck_more hm hw)
  · exact fun sd t vn q m hm => leads_eq rfl (routeMarkerAck_none hm)
  · exact fun sd r rest q m ho ht => leads_eq rfl (nocTradv_drops ho ht)

end

section
/-! SUPPORT. Power domains and their gateways, and clocks (R435 to R448, Tables 13-5, 17-2). -/

namespace Sys2Proof.Machine

/-! ## The gateways of a domain -/

section
variable {m : Mach} {sd site s st : Nat}

theorem gwPut_regs_low {b : Nat} {f : Fld} (h : (b + f.off) * 8 + f.lo < 0x8000000) : fget (gwPut m sd s st) b f = fget m b f := by
  have hne (o : Nat) : (gwBase sd s + 0x400) * 8 + o ≠ (b + f.off) * 8 + f.lo := by simp only [gwBase, nocBase, sideBase]; omega
  rw [gwPut, fget_fset_other _ _ _ _ _ _ (hne 8)]
  split
  · exact fget_fset_other _ _ _ _ _ _ (hne 0)
  · rw [fget_fset_other _ _ _ _ _ _ (hne 3), fget_fset_other _ _ _ _ _ _ (hne 0)]

@[simp] theorem gwPut_net (m : Mach) (sd s st : Nat) : (gwPut m sd s st).net = m.net := by
  have hf (m : Mach) (b : Nat) (f : Fld) (v : Nat) : (fset m b f v).net = m.net := rfl
  simp only [gwPut, hf, apply_ite Mach.net, ite_self]

theorem gwState_gwPut_same (hst : st < 8) : gwState (gwPut m sd site st) sd site = st := by
  rw [gwState, gwPut, fget_fset_at _ _ _ _ _ (by decide)]
  split
  · rw [fget_fset_same]
    exact Nat.mod_eq_of_lt hst
  · rw [fget_fset_at _ _ _ _ _ (by decide), fget_fset_same]
    exact Nat.mod_eq_of_lt hst

theorem gwBase_aligned (sd site : Nat) : gwBase sd site % 8 = 0 := by
  simp only [gwBase, nocBase, sideBase]
  omega

theorem gwState_gwPut_other {sd' : Nat} (h : gwBase sd' s ≠ gwBase sd site) : gwState (gwPut m sd' s st) sd site = gwState m sd site := by
  have hne (f : Fld) (ho : f.off = 0x400) (hl : f.lo < 64) :
      (gwBase sd' s + f.off) * 8 + f.lo ≠ (gwBase sd site + R.NOC_GW_STATE.off) * 8 + R.NOC_GW_STATE.lo := by
    rw [ho]
    have h1 := gwBase_aligned sd' s
    have h2 := gwBase_aligned sd site
    simp only [R.NOC_GW_STATE]
    omega
  rw [gwState, gwState, gwPut, fget_fset_other _ _ _ _ _ _ (hne _ rfl (by decide))]
  split
  · exact fget_fset_other _ _ _ _ _ _ (hne _ rfl (by decide))
  · rw [fget_fset_other _ _ _ _ _ _ (hne _ rfl (by decide)), fget_fset_other _ _ _ _ _ _ (hne _ rfl (by decide))]

/-- A gateway that has the state keeps it while others take it. -/
theorem gwState_foldl_kept (hst : st < 8) (l : List Nat) {m : Mach} {sd' : Nat} (h : gwState m sd site = st) :
    gwState (l.foldl (fun m s => gwPut m sd' s st) m) sd site = st := by
  induction l generalizing m with
  | nil => exact h
  | cons s l ih =>
    rw [List.foldl_cons]
    refine ih ?_
    by_cases hb : gwBase sd' s = gwBase sd site
    · rw [gwState, ← hb]
      exact gwState_gwPut_same hst
    · exact (gwState_gwPut_other hb).trans h

theorem gwState_foldl_taken (hst : st < 8) {l : List Nat} (m : Mach) (hs : site ∈ l) :
    gwState (l.foldl (fun m s => gwPut m sd s st) m) sd site = st := by
  induction l generalizing m with
  | nil => cases hs
  | cons s l ih =>
    rw [List.foldl_cons]
    rcases List.mem_cons.mp hs with h | h
    · rw [← h]
      exact gwState_foldl_kept hst l (gwState_gwPut_same (m := m) hst)
    · exact ih _ h

end

section
variable {d st : Nat} (m : Mach)

theorem gwState_gwsPut_a {site : Nat} (hst : st < 8) (hs : site ∈ sitesOf 0 d) : gwState (gwsPut m d st) 0 site = st :=
  gwState_foldl_kept hst _ (gwState_foldl_taken hst m hs)

theorem gwState_gwsPut_b {site : Nat} (hst : st < 8) (hs : site ∈ sitesOf 1 d) : gwState (gwsPut m d st) 1 site = st :=
  gwState_foldl_taken hst _ hs

theorem fget_gwsPut {b : Nat} {f : Fld} (h : (b + f.off) * 8 + f.lo < 0x8000000) : fget (gwsPut m d st) b f = fget m b f :=
  (foldl_same (fun m => fget m b f) (fun _ _ => gwPut_regs_low h) _ _).trans (foldl_same (fun m => fget m b f) (fun _ _ => gwPut_regs_low h) _ m)

theorem gwsPut_net : (gwsPut m d st).net = m.net :=
  (foldl_same Mach.net (fun _ _ => gwPut_net ..) _ _).trans (foldl_same Mach.net (fun _ _ => gwPut_net ..) _ m)

theorem fget_gwsRelease (b : Nat) (f : Fld) : fget (gwsRelease m d) b f = fget m b f := fget_of_regs rfl b f

end

/-! ## Drains and wakes (R435, R437, Table 17-2) -/

section
variable {m : Mach} {d : Fin 26}

/-- A drained domain as it goes Off. -/
def offRegs (m : Mach) (d : Nat) : Mach := domPut (fset m (8 * d) R.PWR_DOM_MV 0) d 0

/-- A drained cluster as it goes to sleep; its rail voltage is open. -/
def asleepRegs (m : Mach) (d : Nat) : Mach :=
  domPut (finc (fset (draw m) (8 * d) R.PWR_DOM_MV (drawn m)) (8 * domSide d) R.PWR_SLEEP_SLEEPS) d 4

/-- A domain whose drain is aborted: it and its gateways count the abort. -/
def abortedRegs (m : Mach) (d : Nat) : Mach :=
  [0, 1].foldl (fun m sd => (sitesOf sd d).foldl (fun m s => fsat m (gwBase sd s) R.NOC_GW_ABORTS) m)
    (fsat (fset (domPut m d 2) (8 * d) R.PWR_DOM_ABORT 0) (8 * d) R.PWR_DOM_ABORTS)

theorem domainDrainEnd_notDraining (hs : domSt m d ≠ 3) : doDomainDrainEnd d m = m := if_pos (by simp [hs])

theorem domainDrainEnd_aborts (hs : domSt m d = 3) (ha : fon m (8 * d) R.PWR_DOM_ABORT = true) :
    doDomainDrainEnd d m = gwsPut (gwsRelease (count (abortedRegs m d) (nocBase (domSide d)) 0x06) d) d 0 :=
  (if_neg (by simp [hs])).trans (if_pos ha)

section
variable (hs : domSt m d = 3) (ha : fon m (8 * d) R.PWR_DOM_ABORT = false) (hh : m.net.held = [])
include hs ha hh

theorem domainDrainEnd_off (hd : d ≠ 10 ∧ d ≠ 16) : doDomainDrainEnd d m = gwsPut (gwsRelease (offRegs m d) d) d 2 := by
  have hne : ¬ (domSt m d != 3) = true := by simp [hs]
  have hc : (d == 10 || d == 16) = false := by simp [hd]
  have hf : ((fset m (8 * d) R.PWR_DOM_MV 0).net.held.filter fun p => heldIn d p) = [] := by
    show (m.net.held.filter _) = []
    rw [hh, List.filter_nil]
  simp only [doDomainDrainEnd, if_neg hne, ha, Bool.false_eq_true, if_false, hc, hf, List.foldl_nil, offRegs]

theorem domainDrainEnd_asleep (hd : d = 10 ∨ d = 16) : doDomainDrainEnd d m = gwsPut (gwsRelease (asleepRegs m d) d) d 2 := by
  have hne : ¬ (domSt m d != 3) = true := by simp [hs]
  have hc : (d == 10 || d == 16) = true := by simpa using hd
  have hf : ((finc (fset (draw m) (8 * d) R.PWR_DOM_MV (drawn m)) (8 * domSide d) R.PWR_SLEEP_SLEEPS).net.held.filter fun p => heldIn d p) = [] := by
    show (m.net.held.filter _) = []
    rw [hh, List.filter_nil]
  simp only [doDomainDrainEnd, if_neg hne, ha, Bool.false_eq_true, if_false, hc, if_true, hf, List.foldl_nil, asleepRegs]

end

theorem domainReady_powering (hs : domSt m d = 1) : doDomainReady d m = gwsPut (gwsRelease (domOn m d) d) d 0 := if_pos (by simp [hs])

theorem domainReady_not (hs : domSt m d ≠ 1) : doDomainReady d m = m := if_neg (by simp [hs])

/-- What a register of the domain reads after its gateways have moved. -/
theorem fget_gatewaysMoved (m : Mach) (d : Fin 26) (st : Nat) (f : Fld) (ho : f.off = 0x3000) (hl : f.lo < 64) :
    fget (gwsPut (gwsRelease m d) d st) (8 * d) f = fget m (8 * d) f := by
  have hd := d.isLt
  rw [fget_gwsPut _ (by rw [ho]; omega), fget_gwsRelease]

theorem domSide_lt (d : Nat) : domSide d < 2 := by
  unfold domSide
  split
  · decide
  · split
    · decide
    · split <;> decide

theorem sleeps_gatewaysMoved (m : Mach) (d st : Nat) :
    fget (gwsPut (gwsRelease m d) d st) (8 * domSide d) R.PWR_SLEEP_SLEEPS = fget m (8 * domSide d) R.PWR_SLEEP_SLEEPS := by
  have hd := domSide_lt d
  rw [fget_gwsPut _ (by simp only [R.PWR_SLEEP_SLEEPS]; omega), fget_gwsRelease]

theorem heldIn_gatewaysMoved (m : Mach) (d st : Nat) {p : Packet} (hp : p ∈ (gwsPut (gwsRelease m d) d st).net.held) : heldIn d p = false := by
  rw [gwsPut_net] at hp
  simpa using (List.mem_filter.mp hp).2

/-! ### The registers of a domain -/

theorem offRegs_state (m : Mach) (d : Nat) : domSt (offRegs m d) d = 0 := by
  rw [offRegs, domSt, domPut, fget_fset_same]
  rfl

theorem offRegs_mv (m : Mach) (d : Nat) : fget (offRegs m d) (8 * d) R.PWR_DOM_MV = 0 := by
  rw [offRegs, domPut, fget_fset_at _ _ _ _ _ (by decide), fget_fset_same]
  rfl

theorem asleepRegs_state (m : Mach) (d : Nat) : domSt (asleepRegs m d) d = 4 := by
  rw [asleepRegs, domSt, domPut, fget_fset_same]
  rfl

theorem asleepRegs_sleeps (m : Mach) (d : Fin 26) : fget (asleepRegs m d) (8 * domSide d) R.PWR_SLEEP_SLEEPS =
    (fget m (8 * domSide d) R.PWR_SLEEP_SLEEPS + 1) % 65536 := by
  have hd := d.isLt
  have hs := domSide_lt d
  have hne (f : Fld) (ho : f.off = 0x3000) (hl : f.lo < 64) :
      (8 * d.val + f.off) * 8 + f.lo ≠ (8 * domSide d + R.PWR_SLEEP_SLEEPS.off) * 8 + R.PWR_SLEEP_SLEEPS.lo := by
    simp only [ho, R.PWR_SLEEP_SLEEPS]
    omega
  rw [asleepRegs, domPut, fget_fset_other _ _ _ _ _ _ (hne _ rfl (by decide)), finc, fget_fset_same,
    fget_fset_other _ _ _ _ _ _ (hne _ rfl (by decide)), fget_of_regs (m := m) (m' := draw m) rfl]
  rfl

/-- The gateways' counts of aborts stand above the registers of the domains. -/
theorem fget_abortedRegs (m : Mach) (d : Fin 26) (f : Fld) (ho : f.off = 0x3000) (hl : f.lo < 64) : fget (abortedRegs m d) (8 * d) f =
    fget (fsat (fset (domPut m d 2) (8 * d) R.PWR_DOM_ABORT 0) (8 * d) R.PWR_DOM_ABORTS) (8 * d) f := by
  have hd := d.isLt
  refine foldl_same (fun m => fget m (8 * d) f) (fun a sd => foldl_same (fun m => fget m (8 * d) f) (fun a s => ?_) _ a) _ _
  refine fget_fset_other _ _ _ _ _ _ ?_
  simp only [gwBase, nocBase, sideBase, ho]
  omega

theorem abortedRegs_state (m : Mach) (d : Fin 26) : domSt (abortedRegs m d) d = 2 := by
  rw [domSt, fget_abortedRegs _ _ _ rfl (by decide), fsat, fget_fset_at _ _ _ _ _ (by decide), fget_fset_at _ _ _ _ _ (by decide), domPut,
    fget_fset_same]
  rfl

theorem abortedRegs_abort (m : Mach) (d : Fin 26) : fget (abortedRegs m d) (8 * d) R.PWR_DOM_ABORT = 0 := by
  rw [fget_abortedRegs _ _ _ rfl (by decide), fsat, fget_fset_at _ _ _ _ _ (by decide), fget_fset_same]
  rfl

theorem abortedRegs_aborts (m : Mach) (d : Fin 26) :
    fget (abortedRegs m d) (8 * d) R.PWR_DOM_ABORTS = min 65535 (fget m (8 * d) R.PWR_DOM_ABORTS + 1) := by
  rw [fget_abortedRegs _ _ _ rfl (by decide), fsat, fget_fset_same, fget_fset_at _ _ _ _ _ (by decide), domPut, fget_fset_at _ _ _ _ _ (by decide)]
  exact Nat.mod_eq_of_lt (Nat.lt_succ_of_le (Nat.min_le_left ..))

theorem domOn_state (m : Mach) (d : Nat) : domSt (domOn m d) d = 2 := by
  rw [domSt, domOn, finc, fget_fset_at _ _ _ _ _ (by decide), fget_fset_at _ _ _ _ _ (by decide), fget_fset_at _ _ _ _ _ (by decide), domPut,
    fget_fset_same]
  rfl

theorem domOn_ups (m : Mach) (d : Nat) : fget (domOn m d) (8 * d) R.PWR_DOM_UPS = (fget m (8 * d) R.PWR_DOM_UPS + 1) % 65536 := by
  rw [domOn, finc, fget_fset_same, fget_fset_at _ _ _ _ _ (by decide), fget_fset_at _ _ _ _ _ (by decide), domPut,
    fget_fset_at _ _ _ _ _ (by decide), fget_of_regs (m := m) (m' := draw m) rfl]
  rfl

/-! ### Sleep, HOLD and the east halves (R332, R437, R438) -/

section
variable {sd : Fin 2}

theorem clusterIdleSleep_drains (he : fon m (8 * sd) R.PWR_SLEEP_EN = true) (hh : fon m (8 * sd) R.PWR_SLEEP_HOLD = false)
    (hi : clusterIdle m sd = true) (hs : domSt m (10 + 6 * sd) = 2) : doClusterIdleSleep sd m = domDrain m (10 + 6 * sd) :=
  if_pos (by simp [he, hh, hi, hs])

theorem clusterIdleSleep_held (hh : fon m (8 * sd) R.PWR_SLEEP_HOLD = true) : doClusterIdleSleep sd m = m :=
  if_neg (by simp [hh])

theorem domSt_held (sd : Fin 2) (m : Mach) (d : Nat) : domSt (fset m (8 * sd) R.PWR_SLEEP_HOLD 1) d = domSt m d := by
  have h := sd.isLt
  refine fget_fset_other _ _ _ _ _ _ ?_
  simp only [R.PWR_SLEEP_HOLD, R.PWR_DOM_STATE]
  omega

theorem hold_wakes (hs : domSt m (10 + 6 * sd) = 4) : doHold sd m = domWake (fset m (8 * sd) R.PWR_SLEEP_HOLD 1) (10 + 6 * sd) := by
  simp only [doHold, clusterWake, domSt_held, hs]

theorem hold_awake (hs : domSt m (10 + 6 * sd) = 2) : doHold sd m = fset m (8 * sd) R.PWR_SLEEP_HOLD 1 := by
  simp only [doHold, clusterWake, domSt_held, hs]

end

section
variable (hd : d = 8 ∨ d = 14)
include hd

theorem powerDownRequest_eastHalf (hs : domSt m d = 2) (hl : levelOf m (domSide d) .east = 1) (he : eastDrained m (domSide d) = true) :
    doPowerDownRequest d m = domDrain m d := by
  have hc : (d == 8 || d == 14) = true := by simpa using hd
  exact if_pos (by simp [hc, hs, hl, he])

theorem powerUpRequest_eastHalf (hs : domSt m d = 0) (hl : levelOf m (domSide d) .east = 3) : doPowerUpRequest d m = domWake m d := by
  have hc : (d == 8 || d == 14) = true := by simpa using hd
  exact if_pos (by simp [hc, hs, hl])

end

theorem powerDownRequest_other (h8 : d ≠ 8) (h14 : d ≠ 14) : doPowerDownRequest d m = m := by
  have hc : (d == 8 || d == 14) = false := by simp [h8, h14]
  exact if_neg (by simp [hc])

theorem powerUpRequest_notOff (h0 : domSt m d ≠ 0) (h4 : domSt m d ≠ 4) : doPowerUpRequest d m = m :=
  (if_neg (by simp [h0])).trans (if_neg (by simp [h4]))

end

/-! ## Oscillators (R445) -/

section
variable {m : Mach}

theorem oscillatorFail_selected (h0 : fon m aonBase R.CLK_OSC_OK0 = true) (hs : fget m aonBase R.CLK_OSC_SEL = 0)
    (h1 : fon m aonBase R.CLK_OSC_OK1 = true) : doOscillatorFail 0 m = fsat (fset (fset (fset m aonBase R.CLK_OSC_OK0 0) aonBase R.CLK_OSC_FAILED 1)
     aonBase R.CLK_OSC_SEL 1) aonBase R.CLK_OSC_SWITCHES := by
  refine (if_neg (by simp [h0])).trans (if_pos ?_)
  simp (disch := decide) only [fon, fget_fset_other, hs] at h1 ⊢
  simpa using h1

theorem oscillatorFail_other (h1 : fon m aonBase R.CLK_OSC_OK1 = true) (hs : fget m aonBase R.CLK_OSC_SEL = 0) :
    doOscillatorFail 1 m = fset (fset m aonBase R.CLK_OSC_OK1 0) aonBase R.CLK_OSC_FAILED 1 := by
  refine (if_neg (by simp [h1])).trans (if_neg ?_)
  simp (disch := decide) only [fon, fget_fset_other, hs]
  simp

end

/-! ## The voltage and frequency loop (R447, R448) -/

/-- The loop's evaluations in a row with spare slack. -/
def withRun (m : Mach) (sd n : Nat) : Mach := { m with pwr := { m.pwr with run := sset 0 m.pwr.run sd n } }

@[simp] theorem fget_withRun (m : Mach) (sd n b : Nat) (f : Fld) : fget (withRun m sd n) b f = fget m b f := fget_of_regs rfl b f

theorem run_withRun (m : Mach) (sd n : Nat) : sget 0 (withRun m sd n).pwr.run sd = n := by
  rw [withRun, sget_sset, if_pos rfl]

/-- What an evaluation shows before it steps. -/
def vfMeasured (m : Mach) (sd slack : Nat) : Mach :=
  fset (fset m (16 * sd) R.CLK_FABSTAT_SLACK slack) (16 * sd) R.CLK_FAB_FCAP (fcapOf m sd)

/-- The frequency takes one step. -/
def vfStepped (m : Mach) (sd n : Nat) : Mach := finc (fset m (16 * sd) R.CLK_FAB_FNOW n) (16 * sd) R.CLK_FABSTAT_STEPS

/-- What an evaluation shows after it has stepped. -/
def vfMarked (m : Mach) (sd fcap : Nat) : Mach :=
  fset (fset m (16 * sd) R.CLK_FABSTAT_ATVMAX (b2n (fget m (16 * sd) R.CLK_FAB_VNOW == 900))) (16 * sd) R.CLK_FABSTAT_CAPPED
    (b2n (decide (fcap < fget (fset m (16 * sd) R.CLK_FABSTAT_ATVMAX (b2n (fget m (16 * sd) R.CLK_FAB_VNOW == 900))) (16 * sd) R.CLK_FAB_FTARGET)))

section
variable (m : Mach) (sd : Nat)

theorem fget_vfMarked (fcap : Nat) {f : Fld} (ha : R.CLK_FABSTAT_ATVMAX.off * 8 + R.CLK_FABSTAT_ATVMAX.lo ≠ f.off * 8 + f.lo)
    (hc : R.CLK_FABSTAT_CAPPED.off * 8 + R.CLK_FABSTAT_CAPPED.lo ≠ f.off * 8 + f.lo) :
    fget (vfMarked m sd fcap) (16 * sd) f = fget m (16 * sd) f := by
  rw [vfMarked, fget_fset_at _ _ _ _ _ hc, fget_fset_at _ _ _ _ _ ha]

theorem run_vfMarked (fcap n : Nat) : sget 0 (vfMarked (withRun m sd n) sd fcap).pwr.run sd = n := run_withRun m sd n

theorem fget_vfStepped (n : Nat) {f : Fld} (hn : R.CLK_FAB_FNOW.off * 8 + R.CLK_FAB_FNOW.lo ≠ f.off * 8 + f.lo)
    (hs : R.CLK_FABSTAT_STEPS.off * 8 + R.CLK_FABSTAT_STEPS.lo ≠ f.off * 8 + f.lo) :
    fget (vfStepped m sd n) (16 * sd) f = fget m (16 * sd) f := by
  rw [vfStepped, finc, fget_fset_at _ _ _ _ _ hs, fget_fset_at _ _ _ _ _ hn]

theorem fnow_vfStepped (n : Nat) : fget (vfStepped m sd n) (16 * sd) R.CLK_FAB_FNOW = n % 64 := by
  rw [vfStepped, finc, fget_fset_at _ _ _ _ _ (by decide), fget_fset_same]
  rfl

theorem steps_vfStepped (n : Nat) :
    fget (vfStepped m sd n) (16 * sd) R.CLK_FABSTAT_STEPS = (fget m (16 * sd) R.CLK_FABSTAT_STEPS + 1) % 2 ^ 32 := by
  rw [vfStepped, finc, fget_fset_same, fget_fset_at _ _ _ _ _ (by decide)]
  rfl

theorem fget_vfMeasured (slack : Nat) {f : Fld} (hs : R.CLK_FABSTAT_SLACK.off * 8 + R.CLK_FABSTAT_SLACK.lo ≠ f.off * 8 + f.lo)
    (hc : R.CLK_FAB_FCAP.off * 8 + R.CLK_FAB_FCAP.lo ≠ f.off * 8 + f.lo) :
    fget (vfMeasured m sd slack) (16 * sd) f = fget m (16 * sd) f := by
  rw [vfMeasured, fget_fset_at _ _ _ _ _ hc, fget_fset_at _ _ _ _ _ hs]

theorem fcapOf_lt : fcapOf m sd < 64 := by
  refine Nat.lt_of_le_of_lt (Nat.min_le_right ..) ?_
  split <;> decide

theorem fcap_vfMeasured (slack : Nat) : fget (vfMeasured m sd slack) (16 * sd) R.CLK_FAB_FCAP = fcapOf m sd := by
  rw [vfMeasured, fget_fset_same]
  exact Nat.mod_eq_of_lt (fcapOf_lt m sd)

theorem slack_vfMeasured {slack : Nat} (h : slack < 256) : fget (vfMeasured m sd slack) (16 * sd) R.CLK_FABSTAT_SLACK = slack := by
  rw [vfMeasured, fget_fset_at _ _ _ _ _ (by decide), fget_fset_same]
  exact Nat.mod_eq_of_lt h

end

section
variable {m : Mach} {sd : Fin 2}

theorem vfEvaluate_notRunning (h : sideRuns m sd = false) (slack : Option (BitVec 8)) : doVfEvaluate sd slack m = m := if_pos (by simp [h])

section
variable (hr : sideRuns m sd = true)
include hr

/-- An evaluation that finds the frequency above its cap steps it down. -/
theorem vfEvaluate_capped (hf : fcapOf m sd < fget m (16 * sd) R.CLK_FAB_FNOW) (slack : Option (BitVec 8)) :
    ∃ m0 s, m0.regs = m.regs ∧ doVfEvaluate sd slack m =
      vfMarked (vfStepped (fset (fset m0 (16 * sd) R.CLK_FABSTAT_SLACK s) (16 * sd) R.CLK_FAB_FCAP (fcapOf m sd)) sd
        (fget m (16 * sd) R.CLK_FAB_FNOW - 1)) sd (fcapOf m sd) := by
  refine ⟨if slack.isNone then draw m else m, (slack.map fun x => x.toNat).getD (drawn m), ?_, ?_⟩
  · split <;> rfl
  · simp only [doVfEvaluate, hr, hf, Bool.not_true, Bool.false_eq_true, if_false, if_true, vfMarked, vfStepped]
    rfl

section
variable {x : BitVec 8}

/-- One with too little slack raises the voltage. -/
theorem vfEvaluate_low (hf : fget m (16 * sd) R.CLK_FAB_FNOW ≤ fcapOf m sd) (hx : x.toNat < fget m (16 * sd) R.CLK_FAB_SLO)
    (hv : fget m (16 * sd) R.CLK_FAB_VNOW < 900) : doVfEvaluate sd (some x) m =
      vfMarked (withRun (fset (vfMeasured m sd x.toNat) (16 * sd) R.CLK_FAB_VNOW (fget m (16 * sd) R.CLK_FAB_VNOW + 5)) sd 0) sd (fcapOf m sd) := by
  have hlo := (fget_vfMeasured m sd x.toNat (f := R.CLK_FAB_SLO) (by decide) (by decide))
  rw [vfMeasured] at hlo
  simp only [doVfEvaluate, hr, Nat.not_lt.mpr hf, hlo, hx, hv, Bool.not_true, Bool.false_eq_true, if_false, if_true, Option.isNone_some, Option.map_some,
    Option.getD_some, decide_true, vfMarked, vfMeasured, withRun]
  rfl

/-- The tenth in a row with spare slack steps the frequency up. -/
theorem vfEvaluate_spare (hf : fget m (16 * sd) R.CLK_FAB_FNOW < fcapOf m sd) (hlo : fget m (16 * sd) R.CLK_FAB_SLO ≤ x.toNat)
    (hhi : fget m (16 * sd) R.CLK_FAB_SHI < x.toNat) (hn : sget 0 m.pwr.run sd = 9) : doVfEvaluate sd (some x) m =
      vfMarked (withRun (vfStepped (vfMeasured m sd x.toNat) sd (fget m (16 * sd) R.CLK_FAB_FNOW + 1)) sd 0) sd (fcapOf m sd) := by
  have h1 := (fget_vfMeasured m sd x.toNat (f := R.CLK_FAB_SLO) (by decide) (by decide))
  have h2 := (fget_vfMeasured m sd x.toNat (f := R.CLK_FAB_SHI) (by decide) (by decide))
  have hp : (vfMeasured m sd x.toNat).pwr = m.pwr := rfl
  rw [vfMeasured] at h1 h2 hp
  simp only [doVfEvaluate, hr, Nat.not_lt.mpr (Nat.le_of_lt hf), hf, h1, h2, Nat.not_lt.mpr hlo, hhi, hp, hn, Bool.not_true, Bool.false_eq_true, if_false,
    if_true, Option.isNone_some, Option.map_some, Option.getD_some, decide_true, decide_false, Nat.reduceAdd, Nat.lt_irrefl, vfMarked, vfMeasured,
    vfStepped, withRun]
  rfl

end
end
end

section
variable {m : Mach} {sd : Fin 2}

theorem negativeSlack_running (h : sideRuns m sd = true) : doNegativeSlack sd m = fsat m (16 * sd) R.CLK_FABSTAT_STRETCH := if_pos h

theorem negativeSlack_notRunning (h : sideRuns m sd = false) : doNegativeSlack sd m = m := if_neg (by simp [h])

theorem stretchFault_faster (kept : Nat) (h : fget m (16 * sd) R.CLK_FAB_FNOW ≠ 28) : doStretchFault sd kept m = m := if_neg (by simp [h])

/-- A stretcher at the lowest frequency and the highest voltage fails its side. -/
theorem stretchFault_takenOver (kept : Nat) (hs : sideRuns m sd = true) (hf : fget m (16 * sd) R.CLK_FAB_FNOW = 28)
    (hv : fget m (16 * sd) R.CLK_FAB_VNOW = 900) (h : TwinnedNormal m) : TakenOver (doStretchFault sd kept m) sd 2 := by
  rw [doStretchFault, if_pos (by simp [hs, hf, hv])]
  exact failSide_takenOver kept (h.of_sameMode (err_sameMode ..) (err_returning ..)) sd.isLt (by decide)

end

end Sys2Proof.Machine
end

section
/-! SUPPORT. Thermal samples and the steps that they move (R450, R451). -/

namespace Sys2Proof.Machine

/-! ## Temperatures -/

/-- Do all eighty sensors read `t`? -/
def AllAt (t : Nat) (m : Mach) : Prop := ∀ i < 80, tempOf m i = t

theorem foldl_max_const {t : Nat} {l : List Nat} (hl : ∀ x ∈ l, x = t) (hn : l ≠ []) : l.foldl max 0 = t := by
  have hb (l : List Nat) (h : ∀ x ∈ l, x = t) : l.foldl max t = t := by
    induction l with
    | nil => rfl
    | cons x l ih => rw [List.foldl_cons, h x (List.mem_cons_self ..), Nat.max_self, ih fun y hy => h y (List.mem_cons_of_mem _ hy)]
  cases l with
  | nil => exact absurd rfl hn
  | cons x l => rw [List.foldl_cons, Nat.zero_max, hl x (List.mem_cons_self ..), hb l fun y hy => hl y (List.mem_cons_of_mem _ hy)]

theorem AllAt.hottest {t : Nat} {m : Mach} (h : AllAt t m) {i n : Nat} (hn : 0 < n) (hi : i + n ≤ 80) : hottest m i n = t := by
  refine foldl_max_const (fun x hx => ?_) ?_
  · obtain ⟨j, hj, rfl⟩ := List.mem_map.mp hx
    exact h _ (by have := List.mem_range.mp hj; omega)
  · intro he
    rw [List.map_eq_nil_iff, List.range_eq_nil] at he
    omega

/-- Eight equal bytes in a word. -/
theorem byte_of_word : ∀ t < 256, ∀ j < 8, bitsOf (((List.range 8).map fun j => t * 2 ^ (8 * j)).sum % 2 ^ 64) (8 * j) 8 = t := by decide +kernel

/-- The module with the sensors read. -/
def sensed (x : Sample) (m : Mach) : Mach :=
  forN 10 (fun i m => fset m (8 * i) R.PWR_TEMP_TEMPS
    (((List.range 8).map fun j => ((x.temps[8 * i + j]?).map fun b => b.toNat).getD 0 * 2 ^ (8 * j)).sum)) m

/-- And the feeds and the input power. -/
def sampledRegs (x : Sample) (m : Mach) : Mach :=
  fset (fset (fset (fset (fset (sensed x m) 0 R.PWR_FEED_VIN x.vin.1.toNat) 8 R.PWR_FEED_VIN x.vin.2.toNat) 0 R.PWR_FEED_IIN x.iin.1.toNat)
    8 R.PWR_FEED_IIN x.iin.2.toNat) aonBase R.PWR_INPUT_WATTS x.watts.toNat

/-- And with what else a sample reads. -/
def sampled (x : Sample) (m : Mach) : Mach :=
  { sampledRegs x m with
    pwr := { (sampledRegs x m).pwr with volts := x.volts.map fun v => (v.1.toNat, v.2.val), rails := x.rails.map fun r => r.toNat } }

theorem fget_sampled (x : Sample) (m : Mach) (b : Nat) (f : Fld) : fget (sampled x m) b f = fget (sampledRegs x m) b f :=
  fget_of_regs (m := sampledRegs x m) (m' := sampled x m) rfl b f

theorem fget_forN_words {f : Fld} (hf : f.lo = 0) (v : Nat → Nat) {n k : Nat} (hk : k < n) (m : Mach) :
    fget (forN n (fun i m => fset m (8 * i) f (v i)) m) (8 * k) f = v k % 2 ^ f.w := by
  induction n with
  | zero => omega
  | succ n ih =>
    rw [forN]
    by_cases h : k = n
    · rw [h, fget_fset_same]
    · rw [fget_fset_other _ _ _ _ _ _ (by rw [hf]; omega), ih (by omega)]

section
variable {x : Sample} {m : Mach}

/-- A register of the always-on block before the readings is not one of them. -/
theorem fget_sampled_below {f : Fld} (hf : (aonBase + f.off) * 8 + f.lo < 0x3840 * 8) (hl : 0x3120 * 8 + 12 ≤ (aonBase + f.off) * 8 + f.lo) :
    fget (sampled x m) aonBase f = fget m aonBase f := by
  have hs : fget (sensed x m) aonBase f = fget m aonBase f := by
    refine forN_same (fun m => fget m aonBase f) (fun i a => fget_fset_other _ _ _ _ _ _ ?_) 10 m
    simp only [R.PWR_TEMP_TEMPS]
    omega
  have hne (b : Nat) (g : Fld) (hg : (b + g.off) * 8 + g.lo < 0x3120 * 8 + 12) : (b + g.off) * 8 + g.lo ≠ (aonBase + f.off) * 8 + f.lo := by omega
  rw [← hs, fget_sampled, sampledRegs, fget_fset_other _ _ _ _ _ _ (hne _ _ (by decide)), fget_fset_other _ _ _ _ _ _ (hne _ _ (by decide)),
    fget_fset_other _ _ _ _ _ _ (hne _ _ (by decide)), fget_fset_other _ _ _ _ _ _ (hne _ _ (by decide)),
    fget_fset_other _ _ _ _ _ _ (hne _ _ (by decide))]

theorem temps_sampled (i : Nat) : fget (sampled x m) (8 * i) R.PWR_TEMP_TEMPS = fget (sensed x m) (8 * i) R.PWR_TEMP_TEMPS := by
  have hne (b : Nat) (g : Fld) (hg : (b + g.off) * 8 + g.lo < 0x3840 * 8) :
      (b + g.off) * 8 + g.lo ≠ (8 * i + R.PWR_TEMP_TEMPS.off) * 8 + R.PWR_TEMP_TEMPS.lo := by
    simp only [R.PWR_TEMP_TEMPS]
    omega
  rw [fget_sampled, sampledRegs, fget_fset_other _ _ _ _ _ _ (hne _ _ (by decide)), fget_fset_other _ _ _ _ _ _ (hne _ _ (by decide)),
    fget_fset_other _ _ _ _ _ _ (hne _ _ (by decide)), fget_fset_other _ _ _ _ _ _ (hne _ _ (by decide)),
    fget_fset_other _ _ _ _ _ _ (hne _ _ (by decide))]

theorem sampled_allAt {t : BitVec 8} (ht : x.temps = List.replicate 80 t) : AllAt t.toNat (sampled x m) := by
  intro i hi
  have hj (j : Nat) (hj : j < 8) : ((x.temps[8 * (i / 8) + j]?).map fun b => b.toNat).getD 0 = t.toNat := by
    rw [ht, List.getElem?_replicate_of_lt (by omega)]
    rfl
  have hw : ((List.range 8).map fun j => ((x.temps[8 * (i / 8) + j]?).map fun b => b.toNat).getD 0 * 2 ^ (8 * j)).sum =
      ((List.range 8).map fun j => t.toNat * 2 ^ (8 * j)).sum :=
    congrArg List.sum (List.map_congr_left fun j hm => by rw [hj j (List.mem_range.mp hm)])
  have hv := fget_forN_words (f := R.PWR_TEMP_TEMPS) rfl
    (fun i => ((List.range 8).map fun j => ((x.temps[8 * i + j]?).map fun b => b.toNat).getD 0 * 2 ^ (8 * j)).sum)
    (n := 10) (k := i / 8) (by omega) m
  rw [hw] at hv
  rw [tempOf, temps_sampled, sensed, hv]
  exact byte_of_word _ t.isLt _ (Nat.mod_lt _ (by decide))

theorem watts_sampled : fget (sampled x m) aonBase R.PWR_INPUT_WATTS = x.watts.toNat := by
  rw [fget_sampled, sampledRegs, fget_fset_same]
  exact Nat.mod_eq_of_lt x.watts.isLt

theorem sideStepOf_sampled (sd : Nat) : sideStepOf (sampled x m) sd = sideStepOf m sd := by
  unfold sideStepOf
  split <;> exact fget_sampled_below (by decide) (by decide)

end

/-! ## Steps of the parts -/

/-- A cell of PWR_TSTAT, or one that an error record writes. -/
def tstatKey (k : Nat) : Prop := k / 64 = 0x3800 / 8 ∨ errKey k

/-- The cells of one field of PWR_TSTAT and of its count of changes. -/
def stepKey (f : Fld) (k : Nat) : Prop := k = fkey aonBase f ∨ k = fkey aonBase R.PWR_TSTAT_CHANGES

section
variable {m m' : Mach} {t : Nat}

/-- Sensors are not read where a step is shown. -/
theorem AllAt.of_regsBut (h : AllAt t m) (hr : RegsBut tstatKey m m') : AllAt t m' := by
  intro i hi
  rw [← h i hi, tempOf, tempOf, hr.fget]
  simp only [tstatKey, errKey, dropKey, fkey, mgtBase, R.MGT_LOGSTAT_DROPS, R.PWR_TEMP_TEMPS]
  omega

theorem RegsBut.tstat {f : Fld} (ho : f.off = 0x3800) (hl : f.lo < 64) (h : RegsBut (stepKey f) m m') : RegsBut tstatKey m m' := by
  refine h.mono ?_
  rintro k (rfl | rfl)
  · refine .inl ?_
    simp only [fkey, ho, aonBase]
    omega
  · exact .inl (by decide)

/-- The change of a step is posted and counted. -/
theorem thermEvent_regsBut (m : Mach) (part inst step t : Nat) : RegsBut (· = fkey aonBase R.PWR_TSTAT_CHANGES) m (thermEvent m part inst step t) :=
  ((RegsBut.fset (p := (· = fkey aonBase R.PWR_TSTAT_CHANGES)) (.refl m) rfl _).trans (.of_regs (count_regs ..))).trans (.of_regs rfl)

theorem thermEvent_reportOnly (m : Mach) (part inst step t : Nat) : ReportOnly m (thermEvent m part inst step t) :=
  ((fset_reportOnly ..).trans (count_reportOnly ..)).trans ⟨_, _, _, _, _, rfl⟩

theorem fget_thermEvent {f : Fld} (h : R.PWR_TSTAT_CHANGES.off * 8 + R.PWR_TSTAT_CHANGES.lo ≠ f.off * 8 + f.lo) (part inst step t : Nat) :
    fget (thermEvent m part inst step t) aonBase f = fget m aonBase f :=
  (thermEvent_regsBut ..).fget fun e => h (by unfold fkey at e; omega)

theorem ReportOnly.pwr (h : ReportOnly m m') : m'.pwr = m.pwr := by obtain ⟨_, _, _, _, _, rfl⟩ := h; rfl
theorem ReportOnly.fails (h : ReportOnly m m') : m'.fails = m.fails := by obtain ⟨_, _, _, _, _, rfl⟩ := h; rfl

/-- A step is shown and posted. -/
theorem stepShown_regsBut (m : Mach) (f : Fld) (v part inst step t : Nat) :
    RegsBut (stepKey f) m (thermEvent (fset m aonBase f v) part inst step t) :=
  (RegsBut.fset (p := stepKey f) (.refl m) (.inl rfl) v).trans ((thermEvent_regsBut ..).mono fun _ h => .inr h)

theorem stepShown_reportOnly (m : Mach) (f : Fld) (v part inst step t : Nat) : ReportOnly m (thermEvent (fset m aonBase f v) part inst step t) :=
  (fset_reportOnly ..).trans (thermEvent_reportOnly ..)

theorem stepShown (m : Mach) {f : Fld} (h : R.PWR_TSTAT_CHANGES.off * 8 + R.PWR_TSTAT_CHANGES.lo ≠ f.off * 8 + f.lo) (v part inst step t : Nat) :
    fget (thermEvent (fset m aonBase f v) part inst step t) aonBase f = v % 2 ^ f.w := by
  rw [fget_thermEvent h, fget_fset_same]

theorem not_stepKey {f g : Fld} (h : f.off * 8 + f.lo ≠ g.off * 8 + g.lo)
    (hc : R.PWR_TSTAT_CHANGES.off * 8 + R.PWR_TSTAT_CHANGES.lo ≠ g.off * 8 + g.lo) : ¬ stepKey f (fkey aonBase g) := by
  rintro (e | e)
  · exact h (by unfold fkey at e; omega)
  · exact hc (by unfold fkey at e; omega)

/-! ### Sides -/

section
variable {sd n : Nat} (ht : hottest m (24 * sd) 24 = t) (hc : sideStepOf m sd = 0)
include ht hc

theorem thermSide_same (hp : tripNow m sd t 115 = false) (hn : thermStep [95, 100, 105] 0 t = 0) : thermSide sd m = m := by
  simp only [thermSide, ht, hc, hp, hn, Nat.reduceBEq, Bool.false_eq_true, if_false, if_true]

theorem thermSide_steps (hp : tripNow m sd t 115 = false) (hn : thermStep [95, 100, 105] 0 t = n) (h0 : n ≠ 0) :
    thermSide sd m = thermEvent (sideStepPut m sd n) 0 sd n t := by
  have hne : (n == 0) = false := by simpa using h0
  simp only [thermSide, ht, hc, hp, hn, hne, Nat.reduceBEq, Bool.false_eq_true, if_false]

theorem thermSide_trips (hp : tripNow m sd t 115 = true) :
    thermSide sd m = failLater (thermEvent (err (sideStepPut m sd 7) (errOf 2 0 0x10 (32 * sd))) 0 sd 7 t) sd 2 := by
  simp only [thermSide, ht, hc, hp, Nat.reduceBEq, Bool.false_eq_true, if_false, if_true]

end

/-! ### Tiles -/

/-- The field of the tiles' steps, or of the stacks', with step 1 in the first `k`. -/
def onesAt : Nat → Nat
  | 0 => 0
  | k + 1 => onesAt k + 4 ^ k

theorem setBits_onesAt : ∀ k < 8, setBits (onesAt k) (2 * k) 2 1 = onesAt (k + 1) := by decide

theorem bitsOf_onesAt_below : ∀ k < 9, ∀ i < k, bitsOf (onesAt k) (2 * i) 2 = 1 := by decide

theorem bitsOf_onesAt_above : ∀ k < 8, bitsOf (onesAt k) (2 * k) 2 = 0 := by decide

theorem onesAt_tile : ∀ k < 5, onesAt k % 2 ^ 8 = onesAt k := by decide

theorem onesAt_stack : ∀ k < 9, onesAt k % 2 ^ 16 = onesAt k := by decide

section
variable {i n : Nat} (ht : hottest m (48 + 4 * i) 4 = t) (hc : tileStepOf m i = 0) (hp : tripNow m (2 + i) t 120 = false)
include ht hc hp

theorem thermTile_same (hn : thermStep [100] 0 t = 0) : thermTile i m = m := by
  simp only [thermTile, ht, hc, hp, hn, Nat.reduceBEq, Bool.false_eq_true, if_false, if_true]

theorem thermTile_steps (hn : thermStep [100] 0 t = 1) : thermTile i m = thermEvent (tileStepPut m i 1) 1 i 1 t := by
  simp only [thermTile, ht, hc, hp, hn, Nat.reduceBEq, Bool.false_eq_true, if_false]

end

/-! ### Stacks -/

section
variable {k : Nat} (ht : hottest m (64 + 2 * k) 2 = t) (hc : stackStepOf m k = 0) (hp : tripNow m (6 + k) t 105 = false)
include ht hc hp

theorem thermStack_same (hn : thermStep [95] 0 t = 0) : thermStack k m = m := by
  simp only [thermStack, ht, hc, hp, hn, Nat.reduceBEq, Bool.false_eq_true, if_false, if_true]

theorem thermStack_steps (hn : thermStep [95] 0 t = 1) : thermStack k m = thermEvent (stackStepPut m k 1) 2 k 1 t := by
  simp only [thermStack, ht, hc, hp, hn, Nat.reduceBEq, Bool.false_eq_true, if_false]

end
end

/-! ### All tiles and all stacks -/

/-- Where a part is not at its second sample of its trip temperature. -/
theorem tripNow_false {m : Mach} {part t trip : Nat} (h : t < trip ∨ part ∉ m.pwr.hot) : tripNow m part t trip = false := by
  rcases h with h | h
  · simp [tripNow, Nat.not_le.mpr h]
  · simp [tripNow, h]

section
variable {m : Mach} {t : Nat} (ha : AllAt t m) 
include ha

/-- From step 0 every tile at 100 °C or more goes to step 1. -/
theorem tiles_step (h0 : fget m aonBase R.PWR_TSTAT_TILE = 0) (hp : ∀ i < 4, t < 120 ∨ 2 + i ∉ m.pwr.hot) (hn : thermStep [100] 0 t = 1) {k : Nat}
    (hk : k ≤ 4) : ReportOnly m (forN k thermTile m) ∧ RegsBut (stepKey R.PWR_TSTAT_TILE) m (forN k thermTile m) ∧
      fget (forN k thermTile m) aonBase R.PWR_TSTAT_TILE = onesAt k := by
  induction k with
  | zero => exact ⟨.refl m, .refl m, h0⟩
  | succ k ih =>
    obtain ⟨hro, hrb, hv⟩ := ih (by omega)
    have ha' := ha.of_regsBut (hrb.tstat rfl (by decide))
    have hs : thermTile k (forN k thermTile m) = thermEvent (tileStepPut (forN k thermTile m) k 1) 1 k 1 t :=
      thermTile_steps (ha'.hottest (by decide) (by omega)) (by rw [tileStepOf, hv, bitsOf_onesAt_above k (by omega)])
        (tripNow_false (hro.pwr ▸ hp k (by omega))) hn
    rw [forN, hs, tileStepPut]
    refine ⟨hro.trans (stepShown_reportOnly ..), hrb.trans (stepShown_regsBut ..), ?_⟩
    rw [stepShown _ (by decide), hv, setBits_onesAt k (by omega)]
    exact onesAt_tile _ (by omega)

/-- From step 0 every stack at 95 °C or more goes to step 1. -/
theorem stacks_step (h0 : fget m aonBase R.PWR_TSTAT_STACK = 0) (hp : ∀ k < 8, t < 105 ∨ 6 + k ∉ m.pwr.hot) (hn : thermStep [95] 0 t = 1) {k : Nat}
    (hk : k ≤ 8) : ReportOnly m (forN k thermStack m) ∧ RegsBut (stepKey R.PWR_TSTAT_STACK) m (forN k thermStack m) ∧
      fget (forN k thermStack m) aonBase R.PWR_TSTAT_STACK = onesAt k := by
  induction k with
  | zero => exact ⟨.refl m, .refl m, h0⟩
  | succ k ih =>
    obtain ⟨hro, hrb, hv⟩ := ih (by omega)
    have ha' := ha.of_regsBut (hrb.tstat rfl (by decide))
    have hs : thermStack k (forN k thermStack m) = thermEvent (stackStepPut (forN k thermStack m) k 1) 2 k 1 t :=
      thermStack_steps (ha'.hottest (by decide) (by omega)) (by rw [stackStepOf, hv, bitsOf_onesAt_above k (by omega)])
        (tripNow_false (hro.pwr ▸ hp k (by omega))) hn
    rw [forN, hs, stackStepPut]
    refine ⟨hro.trans (stepShown_reportOnly ..), hrb.trans (stepShown_regsBut ..), ?_⟩
    rw [stepShown _ (by decide), hv, setBits_onesAt k (by omega)]
    exact onesAt_stack _ (by omega)

end

/-! ## A whole sample -/

/-- The parts that a sample finds at their trip temperatures. -/
def hotParts (m : Mach) : List Nat :=
  let now (part t trip : Nat) : List Nat := if trip ≤ t then [part] else []
  (List.range 2).flatMap (fun s => now s (hottest m (24 * s) 24) 115) ++ (List.range 4).flatMap (fun i => now (2 + i) (hottest m (48 + 4 * i) 4) 120) ++
    (List.range 8).flatMap (fun k => now (6 + k) (hottest m (64 + 2 * k) 2) 105)

/-- Every part with its step moved. -/
def partsStepped (m : Mach) : Mach := forN 8 thermStack (forN 4 thermTile (thermSide 1 (thermSide 0 m)))

/-- A sample notes the hot parts for the next one. -/
def withHot (m : Mach) : Mach := { m with pwr := { m.pwr with hot := hotParts m } }

theorem thermalSample_eq (x : Sample) (m : Mach) : doThermalSample x m = withHot (partsStepped (sampled x m)) := by
  unfold doThermalSample
  extract_lets at_ m1 m2 m3 m4 pwr m5 m6 m7 m8 now hot
  have h4 : m4 = sampledRegs x m := rfl
  clear_value m4
  subst h4
  have h5 : m5 = sampled x m := rfl
  have h8 : m8 = partsStepped m5 := rfl
  clear_value m5
  rw [← h5, ← h8]
  clear_value m8
  rfl

theorem withHot_regs (m : Mach) : (withHot m).regs = m.regs := by
  rw [withHot]

@[simp] theorem fget_withHot (m : Mach) (b : Nat) (f : Fld) : fget (withHot m) b f = fget m b f := fget_of_regs (withHot_regs m) b f

section
variable {m : Mach} {t : Nat} (ha : AllAt t m)
include ha

theorem hotParts_cool (ht : t < 105) : hotParts m = [] := by
  have h115 : ¬ 115 ≤ t := by omega
  have h120 : ¬ 120 ≤ t := by omega
  have h105 : ¬ 105 ≤ t := by omega
  simp [hotParts, List.range_succ, ha.hottest, h115, h120, h105]

theorem hotParts_hot (ht : 120 ≤ t) : hotParts m = List.range 14 := by
  have h115 : 115 ≤ t := by omega
  have h105 : 105 ≤ t := by omega
  simp [hotParts, List.range_succ, ha.hottest, h115, ht, h105]

/-- Below every bound nothing moves. -/
theorem partsStepped_cool (ht : t < 95) (h0 : sideStepOf m 0 = 0) (h1 : sideStepOf m 1 = 0) (hT : fget m aonBase R.PWR_TSTAT_TILE = 0)
    (hS : fget m aonBase R.PWR_TSTAT_STACK = 0) : partsStepped m = m := by
  have hstep (l : List Nat) (hl : ∀ b ∈ l, 95 ≤ b) : thermStep l 0 t = 0 := by
    have hf : l.filter (fun b => b ≤ t) = [] := List.filter_eq_nil_iff.mpr fun b hb => by have := hl b hb; simp; omega
    simp [thermStep, hf]
  have hs0 : thermSide 0 m = m := thermSide_same (ha.hottest (by decide) (by decide)) h0 (tripNow_false (.inl (by omega))) (hstep _ (by decide))
  have hs1 : thermSide 1 m = m := thermSide_same (ha.hottest (by decide) (by decide)) h1 (tripNow_false (.inl (by omega))) (hstep _ (by decide))
  have hzero : ∀ k < 8, bitsOf 0 (2 * k) 2 = 0 := by decide
  have ht4 : forN 4 thermTile m = m := forN_fixed 4 fun i hi => thermTile_same (ha.hottest (by decide) (by omega))
    (by rw [tileStepOf, hT]; exact hzero i (by omega)) (tripNow_false (.inl (by omega))) (hstep _ (by decide))
  have hk8 : forN 8 thermStack m = m := forN_fixed 8 fun k hk => thermStack_same (ha.hottest (by decide) (by omega))
    (by rw [stackStepOf, hS]; exact hzero k hk) (tripNow_false (.inl (by omega))) (hstep _ (by decide))
  rw [partsStepped, hs0, hs1, ht4, hk8]

/-- At 100 °C or more every tile and every stack takes its step 1, and no side is touched. -/
theorem tilesStacks_step (ht : 100 ≤ t) (hp : ∀ p ∈ m.pwr.hot, p < 2 ∨ t < 105) (hT : fget m aonBase R.PWR_TSTAT_TILE = 0)
    (hS : fget m aonBase R.PWR_TSTAT_STACK = 0) :
    ReportOnly m (forN 8 thermStack (forN 4 thermTile m)) ∧ RegsBut tstatKey m (forN 8 thermStack (forN 4 thermTile m)) ∧
      (∀ sd, sideStepOf (forN 8 thermStack (forN 4 thermTile m)) sd = sideStepOf m sd) ∧
      fget (forN 8 thermStack (forN 4 thermTile m)) aonBase R.PWR_TSTAT_TILE = onesAt 4 ∧
      fget (forN 8 thermStack (forN 4 thermTile m)) aonBase R.PWR_TSTAT_STACK = onesAt 8 := by
  have hup (l : List Nat) (b : Nat) (hl : l = [b]) (hb : b ≤ t) : thermStep l 0 t = 1 := by simp [thermStep, hl, hb]
  have hcold (n p : Nat) (hn : 105 ≤ n) (h2 : 2 ≤ p) : t < n ∨ p ∉ m.pwr.hot := by
    by_cases h : p ∈ m.pwr.hot
    · exact .inl (by rcases hp p h with h | h <;> omega)
    · exact .inr h
  obtain ⟨hro, hrb, hv⟩ := tiles_step ha hT (fun i _ => hcold 120 _ (by decide) (by omega)) (hup _ 100 rfl ht) (k := 4) (by decide)
  have hS' : fget (forN 4 thermTile m) aonBase R.PWR_TSTAT_STACK = 0 := (hrb.fget (not_stepKey (by decide) (by decide))).trans hS
  obtain ⟨hro', hrb', hv'⟩ := stacks_step (ha.of_regsBut (hrb.tstat rfl (by decide))) hS'
    (fun k _ => by rw [hro.pwr]; exact hcold 105 _ (by decide) (by omega)) (hup _ 95 rfl (by omega)) (k := 8) (by decide)
  refine ⟨hro.trans hro', (hrb.tstat rfl (by decide)).trans (hrb'.tstat rfl (by decide)), fun sd => ?_, ?_, hv'⟩
  · unfold sideStepOf
    split
    · exact (hrb'.fget (not_stepKey (by decide) (by decide))).trans (hrb.fget (not_stepKey (by decide) (by decide)))
    · exact (hrb'.fget (not_stepKey (by decide) (by decide))).trans (hrb.fget (not_stepKey (by decide) (by decide)))
  · exact (hrb'.fget (not_stepKey (by decide) (by decide))).trans hv

/-! ### Samples of equal temperatures -/

section
variable (h0 : sideStepOf m 0 = 0) (h1 : sideStepOf m 1 = 0)
include h0 h1

/-- From step 0 both sides between 100 and 105 °C go to step 2. -/
theorem sides_warm (ht : 100 ≤ t) (ht' : t < 105) :
    ReportOnly m (thermSide 1 (thermSide 0 m)) ∧ RegsBut (fun k => stepKey R.PWR_TSTAT_SIDEA k ∨ stepKey R.PWR_TSTAT_SIDEB k) m
      (thermSide 1 (thermSide 0 m)) ∧ sideStepOf (thermSide 1 (thermSide 0 m)) 0 = 2 ∧ sideStepOf (thermSide 1 (thermSide 0 m)) 1 = 2 := by
  have hn : thermStep [95, 100, 105] 0 t = 2 := by
    have h95 : 95 ≤ t := by omega
    have h105 : ¬ 105 ≤ t := by omega
    simp [thermStep, h95, ht, h105]
  have hs0 : thermSide 0 m = thermEvent (fset m aonBase R.PWR_TSTAT_SIDEA 2) 0 0 2 t :=
    thermSide_steps (ha.hottest (by decide) (by decide)) h0 (tripNow_false (.inl (by omega))) hn (by decide)
  have hro := stepShown_reportOnly m R.PWR_TSTAT_SIDEA 2 0 0 2 t
  have hrb := stepShown_regsBut m R.PWR_TSTAT_SIDEA 2 0 0 2 t
  have hv := stepShown m (f := R.PWR_TSTAT_SIDEA) (by decide) 2 0 0 2 t
  rw [← hs0] at hro hrb hv
  have hs1 : thermSide 1 (thermSide 0 m) = thermEvent (fset (thermSide 0 m) aonBase R.PWR_TSTAT_SIDEB 2) 0 1 2 t :=
    thermSide_steps ((ha.of_regsBut (hrb.tstat rfl (by decide))).hottest (by decide) (by decide))
      ((hrb.fget (f := R.PWR_TSTAT_SIDEB) (not_stepKey (by decide) (by decide))).trans h1) (tripNow_false (.inl (by omega))) hn (by decide)
  rw [hs1]
  refine ⟨hro.trans (stepShown_reportOnly ..), (hrb.mono fun _ => .inl).trans ((stepShown_regsBut ..).mono fun _ => .inr), ?_,
    stepShown _ (f := R.PWR_TSTAT_SIDEB) (by decide) ..⟩
  exact ((stepShown_regsBut ..).fget (f := R.PWR_TSTAT_SIDEA) (not_stepKey (by decide) (by decide))).trans hv

end

end

/-- Cells of the sides' steps, of their count of changes, or of an error record. -/
def sideTripKey (k : Nat) : Prop := stepKey R.PWR_TSTAT_SIDEA k ∨ stepKey R.PWR_TSTAT_SIDEB k ∨ errKey k

theorem not_sideTripKey {f : Fld} (ho : f.off = 0x3800) (hl : 6 ≤ f.lo) (hc : f.lo < 32) : ¬ sideTripKey (fkey aonBase f) := by
  simp only [sideTripKey, stepKey, errKey, dropKey, fkey, aonBase, mgtBase, R.MGT_LOGSTAT_DROPS, R.PWR_TSTAT_SIDEA, R.PWR_TSTAT_SIDEB,
    R.PWR_TSTAT_CHANGES, ho]
  omega

theorem RegsBut.tstat_sides {m m' : Mach} (h : RegsBut sideTripKey m m') : RegsBut tstatKey m m' := by
  refine h.mono ?_
  rintro k ((rfl | rfl) | (rfl | rfl) | h)
  · exact .inl (by decide)
  · exact .inl (by decide)
  · exact .inl (by decide)
  · exact .inl (by decide)
  · exact .inr h

theorem failLater_regsBut (p : Nat → Prop) (m : Mach) (sd c : Nat) : RegsBut p m (failLater m sd c) := .of_regs rfl

theorem fget_failLater (m : Mach) (sd c b : Nat) (f : Fld) : fget (failLater m sd c) b f = fget m b f := fget_of_regs rfl b f

/-- Side 0 as its trip is shown, recorded and posted. -/
def tripShown (m : Mach) (t : Nat) : Mach := thermEvent (err (fset m aonBase R.PWR_TSTAT_SIDEA 7) (errOf 2 0 0x10 (32 * 0))) 0 0 7 t

section
variable (m : Mach) (t : Nat)

theorem tripShown_reportOnly : ReportOnly m (tripShown m t) :=
  ((fset_reportOnly ..).trans (err_reportOnly ..)).trans (thermEvent_reportOnly ..)

theorem tripShown_regsBut : RegsBut (fun k => stepKey R.PWR_TSTAT_SIDEA k ∨ errKey k) m (tripShown m t) := by
  have hset : RegsBut (fun k => stepKey R.PWR_TSTAT_SIDEA k ∨ errKey k) m (fset m aonBase R.PWR_TSTAT_SIDEA 7) :=
    (RegsBut.refl m).fset (.inl (.inl rfl)) 7
  exact (hset.trans ((err_regsBut ..).mono fun _ h => .inr h)).trans ((thermEvent_regsBut ..).mono fun _ h => .inl (.inr h))

theorem not_errKey_tstat {f : Fld} (ho : f.off = 0x3800) (hl : f.lo < 64) : ¬ errKey (fkey aonBase f) := by
  simp only [errKey, dropKey, fkey, aonBase, mgtBase, R.MGT_LOGSTAT_DROPS, ho]
  omega

theorem sideA_tripShown : fget (tripShown m t) aonBase R.PWR_TSTAT_SIDEA = 7 := by
  rw [tripShown, fget_thermEvent (by decide), (err_regsBut ..).fget (not_errKey_tstat rfl (by decide)), fget_fset_same]
  rfl

theorem trippedSide_regsBut : RegsBut sideTripKey m (failLater (tripShown m t) 0 2) :=
  ((tripShown_regsBut m t).mono fun _ h => h.imp_right .inr).trans (failLater_regsBut ..)

theorem sideB_tripShown : fget (tripShown m t) aonBase R.PWR_TSTAT_SIDEB = fget m aonBase R.PWR_TSTAT_SIDEB := by
  refine (tripShown_regsBut m t).fget ?_
  rintro (h | h)
  · exact not_stepKey (by decide) (by decide) h
  · exact not_errKey_tstat rfl (by decide) h

end

section
variable {m : Mach} {t : Nat} (ha : AllAt t m) (ht : 120 ≤ t) (hh : m.pwr.hot = [0]) (h0 : sideStepOf m 0 = 0) (h1 : sideStepOf m 1 = 0)
include ha ht hh h0

/-- At its second sample of the trip temperature side 0 trips. -/
theorem side0_trips : thermSide 0 m = failLater (tripShown m t) 0 2 :=
  thermSide_trips (ha.hottest (by decide) (by decide)) h0 (by simp [tripNow, hh]; omega)

include h1

omit h0 in
/-- Side 1 has not reached it before, and steps. -/
theorem side1_steps : thermSide 1 (failLater (tripShown m t) 0 2) =
    thermEvent (fset (failLater (tripShown m t) 0 2) aonBase R.PWR_TSTAT_SIDEB 3) 0 1 3 t := by
  have hn : thermStep [95, 100, 105] 0 t = 3 := by
    have h95 : 95 ≤ t := by omega
    have h100 : 100 ≤ t := by omega
    have h105 : 105 ≤ t := by omega
    simp [thermStep, h95, h100, h105]
  have hrb := (trippedSide_regsBut m t).tstat_sides
  have hp : (failLater (tripShown m t) 0 2).pwr = m.pwr := (tripShown_reportOnly m t).pwr
  have hB : sideStepOf (failLater (tripShown m t) 0 2) 1 = 0 := (fget_failLater ..).trans ((sideB_tripShown m t).trans h1)
  exact thermSide_steps ((ha.of_regsBut hrb).hottest (by decide) (by decide)) hB
    (tripNow_false (.inr (by rw [hp, hh]; decide))) hn (by decide)

theorem sides_trip : RegsBut sideTripKey m (thermSide 1 (thermSide 0 m)) ∧ (thermSide 1 (thermSide 0 m)).pwr = m.pwr ∧
    (thermSide 1 (thermSide 0 m)).fails = m.fails ++ [(0, 2)] ∧ sideStepOf (thermSide 1 (thermSide 0 m)) 0 = 7 ∧
    sideStepOf (thermSide 1 (thermSide 0 m)) 1 = 3 := by
  rw [side0_trips ha ht hh h0, side1_steps ha ht hh h1]
  have hro := tripShown_reportOnly m t
  have hro1 := stepShown_reportOnly (failLater (tripShown m t) 0 2) R.PWR_TSTAT_SIDEB 3 0 1 3 t
  have hrb1 := stepShown_regsBut (failLater (tripShown m t) 0 2) R.PWR_TSTAT_SIDEB 3 0 1 3 t
  have hrb := trippedSide_regsBut m t
  have hf : (failLater (tripShown m t) 0 2).fails = m.fails ++ [(0, 2)] := congrArg (· ++ [(0, 2)]) hro.fails
  refine ⟨hrb.trans (hrb1.mono fun _ h => .inr (.inl h)), hro1.pwr.trans hro.pwr, hro1.fails.trans hf, ?_,
    stepShown _ (f := R.PWR_TSTAT_SIDEB) (by decide) ..⟩
  exact (hrb1.fget (f := R.PWR_TSTAT_SIDEA) (not_stepKey (by decide) (by decide))).trans ((fget_failLater ..).trans (sideA_tripShown m t))

end

/-! ### What a sample of equal temperatures leaves -/

theorem sideStepOf_withHot (m : Mach) (sd : Nat) : sideStepOf (withHot m) sd = sideStepOf m sd := fget_withHot ..

theorem sampledRegs_same {β : Type} (p : Mach → β) (hp : ∀ m b f v, p (fset m b f v) = p m) (x : Sample) (m : Mach) :
    p (sampledRegs x m) = p m := by
  rw [sampledRegs, hp, hp, hp, hp, hp]
  exact forN_same p (fun _ _ => hp ..) 10 m

theorem sampled_hot (x : Sample) (m : Mach) : (sampled x m).pwr.hot = m.pwr.hot := by
  unfold sampled
  exact sampledRegs_same (·.pwr.hot) (fun _ _ _ _ => rfl) x m

theorem sampled_fails (x : Sample) (m : Mach) : (sampled x m).fails = m.fails := by
  have h : (sampled x m).fails = (sampledRegs x m).fails := by rw [sampled]
  exact h.trans (sampledRegs_same (fun m => m.fails) (fun _ _ _ _ => rfl) x m)

theorem sampled_events (x : Sample) (m : Mach) : (sampled x m).events = m.events := by
  have h : (sampled x m).events = (sampledRegs x m).events := by rw [sampled]
  exact h.trans (sampledRegs_same (fun m => m.events) (fun _ _ _ _ => rfl) x m)

theorem sampled_volts (x : Sample) (m : Mach) : (sampled x m).pwr.volts = x.volts.map fun v => (v.1.toNat, v.2.val) := by
  rw [sampled]

theorem sampled_rails (x : Sample) (m : Mach) : (sampled x m).pwr.rails = x.rails.map fun r => r.toNat := by
  rw [sampled]

theorem withHot_events (m : Mach) : (withHot m).events = m.events := by rw [withHot]
theorem withHot_fails (m : Mach) : (withHot m).fails = m.fails := by rw [withHot]
theorem withHot_hot (m : Mach) : (withHot m).pwr.hot = hotParts m := by rw [withHot]
theorem withHot_volts (m : Mach) : (withHot m).pwr.volts = m.pwr.volts := by rw [withHot]
theorem withHot_rails (m : Mach) : (withHot m).pwr.rails = m.pwr.rails := by rw [withHot]

section
variable {x : Sample} {t : BitVec 8} {m : Mach} (hx : x.temps = List.replicate 80 t) (h0 : sideStepOf m 0 = 0) (h1 : sideStepOf m 1 = 0)
  (hT : fget m aonBase R.PWR_TSTAT_TILE = 0) (hS : fget m aonBase R.PWR_TSTAT_STACK = 0)
include hx h0 h1 hT hS

theorem thermalSample_cool (ht : t.toNat < 95) : doThermalSample x m = withHot (sampled x m) := by
  rw [thermalSample_eq, partsStepped_cool (sampled_allAt hx) ht ((sideStepOf_sampled 0).trans h0) ((sideStepOf_sampled 1).trans h1)
    ((fget_sampled_below (by decide) (by decide)).trans hT) ((fget_sampled_below (by decide) (by decide)).trans hS)]

/-- Between 100 and 105 °C sides are in step 2, tiles and stacks in step 1, and nothing is hot. -/
theorem thermalSample_warm (ht : 100 ≤ t.toNat) (ht' : t.toNat < 105) :
    sideStepOf (doThermalSample x m) 0 = 2 ∧ sideStepOf (doThermalSample x m) 1 = 2 ∧
      fget (doThermalSample x m) aonBase R.PWR_TSTAT_TILE = onesAt 4 ∧ fget (doThermalSample x m) aonBase R.PWR_TSTAT_STACK = onesAt 8 ∧
      (doThermalSample x m).pwr.hot = [] := by
  have ha := sampled_allAt (m := m) hx
  obtain ⟨-, hrb, hA, hB⟩ := sides_warm ha ((sideStepOf_sampled 0).trans h0) ((sideStepOf_sampled 1).trans h1) ht ht'
  have hrb' : RegsBut sideTripKey (sampled x m) (thermSide 1 (thermSide 0 (sampled x m))) := hrb.mono fun _ h => h.imp_right .inl
  have ha' := ha.of_regsBut hrb'.tstat_sides
  obtain ⟨-, hr, hs, hv, hw⟩ := tilesStacks_step ha' ht (fun _ _ => .inr ht')
    ((hrb'.fget (not_sideTripKey rfl (by decide) (by decide))).trans ((fget_sampled_below (by decide) (by decide)).trans hT))
    ((hrb'.fget (not_sideTripKey rfl (by decide) (by decide))).trans ((fget_sampled_below (by decide) (by decide)).trans hS))
  rw [thermalSample_eq]
  exact ⟨(sideStepOf_withHot ..).trans ((hs 0).trans hA), (sideStepOf_withHot ..).trans ((hs 1).trans hB), (fget_withHot ..).trans hv,
    (fget_withHot ..).trans hw, (withHot_hot _).trans (hotParts_cool (ha'.of_regsBut hr) ht')⟩

/-- At the second sample of 120 °C or more side 0 trips. -/
theorem thermalSample_trip (ht : 120 ≤ t.toNat) (hh : m.pwr.hot = [0]) :
    sideStepOf (doThermalSample x m) 0 = 7 ∧ sideStepOf (doThermalSample x m) 1 = 3 ∧ (doThermalSample x m).fails = m.fails ++ [(0, 2)] ∧
      (doThermalSample x m).pwr.hot = List.range 14 := by
  have ha := sampled_allAt (m := m) hx
  have hh' : (sampled x m).pwr.hot = [0] := (sampled_hot x m).trans hh
  obtain ⟨hrb, hp, hf, hA, hB⟩ := sides_trip ha ht hh' ((sideStepOf_sampled 0).trans h0) ((sideStepOf_sampled 1).trans h1)
  have ha' := ha.of_regsBut hrb.tstat_sides
  obtain ⟨hro, hr, hs, -, -⟩ := tilesStacks_step ha' (by omega) (fun p hm => .inl (by rw [hp, hh'] at hm; simp at hm; omega))
    ((hrb.fget (not_sideTripKey rfl (by decide) (by decide))).trans ((fget_sampled_below (by decide) (by decide)).trans hT))
    ((hrb.fget (not_sideTripKey rfl (by decide) (by decide))).trans ((fget_sampled_below (by decide) (by decide)).trans hS))
  rw [thermalSample_eq]
  exact ⟨(sideStepOf_withHot ..).trans ((hs 0).trans hA), (sideStepOf_withHot ..).trans ((hs 1).trans hB),
    (withHot_fails _).trans ((hro.fails.trans hf).trans (congrArg (· ++ [(0, 2)]) (sampled_fails x m))),
    (withHot_hot _).trans (hotParts_hot (ha'.of_regsBut hr) ht)⟩

end

end Sys2Proof.Machine
end

section
/-! The settling of O50. -/

open Sys2Proof Sys2Proof.Machine

/-- Settles O50: the gateways of a domain stand apart from its registers (`fget_gwsPut`), and a part whose step is shown leaves the sensors and the other
parts as they are (`stepShown_regsBut`), so that each part meets the temperature that was read. -/
theorem powerClocksAndThermalControl : Obligations.PowerClocksAndThermalControl := by
  unfold Obligations.PowerClocksAndThermalControl
  refine ⟨?_, ?_, ?_, ?_, ?_, ?_, ?_, ?_, ?_, ?_, ?_, ?_, ?_, ?_, ?_, ?_, ?_, ?_, ?_, ?_, ?_, ?_, ?_, ?_, ?_, ?_, ?_, ?_⟩
  · exact fun d q m h => leads_eq rfl (domainDrainEnd_notDraining h)
  · intro d q m hs ha hd hh
    refine ⟨_, leads_eq rfl (domainDrainEnd_off hs ha hh hd), ?_, ?_, fun s => gwState_gwsPut_a _ (by decide), fun s => gwState_gwsPut_b _ (by decide)⟩
    · exact (fget_gatewaysMoved _ d 2 _ rfl (by decide)).trans (offRegs_state m d)
    · exact (fget_gatewaysMoved _ d 2 _ rfl (by decide)).trans (offRegs_mv m d)
  · intro d q m hs ha hd hh
    refine ⟨_, leads_eq rfl (domainDrainEnd_asleep hs ha hh hd), ?_, ?_, fun s => gwState_gwsPut_a _ (by decide),
      fun s => gwState_gwsPut_b _ (by decide)⟩
    · exact (fget_gatewaysMoved _ d 2 _ rfl (by decide)).trans (asleepRegs_state m d)
    · exact (sleeps_gatewaysMoved ..).trans (asleepRegs_sleeps m d)
  · intro d q m hs ha
    have hc (f : Fld) : fget (count (abortedRegs m d) (nocBase (domSide d)) 0x06) (8 * d) f = fget (abortedRegs m d) (8 * d) f := fget_count ..
    refine ⟨_, leads_eq rfl (domainDrainEnd_aborts hs ha), ?_, ?_, ?_, fun s => gwState_gwsPut_a _ (by decide), fun s => gwState_gwsPut_b _ (by decide)⟩
    · exact (fget_gatewaysMoved _ d 0 _ rfl (by decide)).trans ((hc _).trans (abortedRegs_state m d))
    · exact (fget_gatewaysMoved _ d 0 _ rfl (by decide)).trans ((hc _).trans (abortedRegs_abort m d))
    · exact (fget_gatewaysMoved _ d 0 _ rfl (by decide)).trans ((hc _).trans (abortedRegs_aborts m d))
  · intro d q m hs
    refine ⟨_, leads_eq rfl (domainReady_powering hs), ?_, ?_, fun p hp => heldIn_gatewaysMoved _ _ _ hp, fun s => gwState_gwsPut_a _ (by decide),
      fun s => gwState_gwsPut_b _ (by decide)⟩
    · exact (fget_gatewaysMoved _ d 0 _ rfl (by decide)).trans (domOn_state m d)
    · exact (fget_gatewaysMoved _ d 0 _ rfl (by decide)).trans (domOn_ups m d)
  · exact fun d q m h => leads_eq rfl (domainReady_not h)
  · exact fun sd q m he hh hi hs => leads_eq rfl (clusterIdleSleep_drains he hh hi hs)
  · exact fun sd q m hh => leads_eq rfl (clusterIdleSleep_held hh)
  · exact fun sd q m hs => leads_eq rfl (hold_wakes hs)
  · exact fun sd q m hs => leads_eq rfl (hold_awake hs)
  · exact fun d q m hd hs hl he => leads_eq rfl (powerDownRequest_eastHalf hd hs hl he)
  · exact fun d q m h8 h14 => leads_eq rfl (powerDownRequest_other h8 h14)
  · exact fun d q m hd hs hl => leads_eq rfl (powerUpRequest_eastHalf hd hs hl)
  · exact fun d q m h0 h4 => leads_eq rfl (powerUpRequest_notOff h0 h4)
  · exact fun q m => leads_eq (f := doPhaseFail) rfl rfl
  · exact fun q m h0 hs h1 => leads_eq rfl (oscillatorFail_selected h0 hs h1)
  · exact fun q m h1 hs => leads_eq rfl (oscillatorFail_other h1 hs)
  · intro sd x q m hr hf hx hv
    refine ⟨_, leads_eq rfl (vfEvaluate_low hr hf hx hv), ?_, ?_, ?_, ?_, run_vfMarked ..⟩
    · rw [fget_vfMarked _ _ _ (by decide) (by decide), fget_withRun, fget_fset_same]
      exact Nat.mod_eq_of_lt (Nat.lt_of_lt_of_le (Nat.add_lt_add_right hv 5) (by decide))
    · rw [fget_vfMarked _ _ _ (by decide) (by decide), fget_withRun, fget_fset_at _ _ _ _ _ (by decide), fget_vfMeasured _ _ _ (by decide) (by decide)]
    · rw [fget_vfMarked _ _ _ (by decide) (by decide), fget_withRun, fget_fset_at _ _ _ _ _ (by decide), fcap_vfMeasured]
    · rw [fget_vfMarked _ _ _ (by decide) (by decide), fget_withRun, fget_fset_at _ _ _ _ _ (by decide), slack_vfMeasured _ _ x.isLt]
  · intro sd slack q m hr hf
    obtain ⟨m0, s, h0, he⟩ := vfEvaluate_capped hr hf slack
    refine ⟨_, leads_eq rfl he, ?_, ?_, ?_⟩
    · rw [fget_vfMarked _ _ _ (by decide) (by decide), fnow_vfStepped]
      exact Nat.mod_eq_of_lt (Nat.lt_of_le_of_lt (Nat.sub_le ..) (fget_lt ..))
    · rw [fget_vfMarked _ _ _ (by decide) (by decide), fget_vfStepped _ _ _ (by decide) (by decide), fget_fset_at _ _ _ _ _ (by decide),
        fget_fset_at _ _ _ _ _ (by decide), fget_of_regs h0]
    · rw [fget_vfMarked _ _ _ (by decide) (by decide), steps_vfStepped, fget_fset_at _ _ _ _ _ (by decide), fget_fset_at _ _ _ _ _ (by decide),
        fget_of_regs h0]
  · intro sd x q m hr hf hlo hhi hn
    refine ⟨_, leads_eq rfl (vfEvaluate_spare hr hf hlo hhi hn), ?_, ?_, run_vfMarked ..⟩
    · rw [fget_vfMarked _ _ _ (by decide) (by decide), fget_withRun, fnow_vfStepped]
      exact Nat.mod_eq_of_lt (Nat.lt_of_le_of_lt hf (fcapOf_lt m sd))
    · rw [fget_vfMarked _ _ _ (by decide) (by decide), fget_withRun, fget_vfStepped _ _ _ (by decide) (by decide),
        fget_vfMeasured _ _ _ (by decide) (by decide)]
  · exact fun sd s q m h => leads_eq rfl (vfEvaluate_notRunning h s)
  · exact fun sd q m h => leads_eq rfl (negativeSlack_running h)
  · exact fun sd q m h => leads_eq rfl (negativeSlack_notRunning h)
  · exact fun sd k q m h => leads_eq rfl (stretchFault_faster k h)
  · intro sd kept q m hs hf hv hm hu hr
    obtain ⟨hmode, hup, -, hside, hcause, -⟩ := stretchFault_takenOver kept hs hf hv ⟨hm, hu, hr⟩
    exact ⟨_, leads_act rfl, hmode, hup, hside, hcause⟩
  · intro x t q m hx ht h0 h1 hT hS
    refine ⟨_, leads_eq rfl (thermalSample_cool hx h0 h1 hT hS ht), ?_, ?_, (withHot_events _).trans (sampled_events x m),
      (withHot_hot _).trans (hotParts_cool (sampled_allAt hx) (by omega)), (withHot_volts _).trans (sampled_volts x m),
      (withHot_rails _).trans (sampled_rails x m), ?_⟩
    · exact (sideStepOf_withHot ..).trans ((sideStepOf_sampled 0).trans h0)
    · exact (sideStepOf_withHot ..).trans ((sideStepOf_sampled 1).trans h1)
    · exact (fget_withHot ..).trans watts_sampled
  · intro x t q m hx ht ht' h0 h1 hT hS
    obtain ⟨hA, hB, hv, hw, hh⟩ := thermalSample_warm hx h0 h1 hT hS ht ht'
    refine ⟨_, leads_act rfl, hA, hB, fun i => ?_, fun k => ?_, hh⟩
    · rw [tileStepOf, hv]
      exact bitsOf_onesAt_below 4 (by decide) i i.isLt
    · rw [stackStepOf, hw]
      exact bitsOf_onesAt_below 8 (by decide) k k.isLt
  · intro x t q m hx ht hh h0 h1 hT hS
    obtain ⟨hA, hB, hf, hhot⟩ := thermalSample_trip hx h0 h1 hT hS ht hh
    exact ⟨_, leads_act rfl, hA, hB, hf, hhot⟩

end

section
/-! SUPPORT. What the loss of a side and of a module's domains leaves alone: the flash store, the time and the placement copies
(Table 16-1, R207, R413). -/

namespace Sys2Proof.Machine

/-- What no loss of a side touches: the flash store, the time and the placement copies. -/
def lasting (m : Mach) : Flash × Nat × List (Nat × Nat) := (m.flash, m.timeUs, m.comp.plc)

variable (m : Mach)

@[simp] theorem lasting_fset (b : Nat) (f : Fld) (v : Nat) : lasting (fset m b f v) = lasting m := rfl
@[simp] theorem lasting_fsat (b : Nat) (f : Fld) (n : Nat) : lasting (fsat m b f n) = lasting m := rfl
@[simp] theorem lasting_finc (b : Nat) (f : Fld) (n : Nat) : lasting (finc m b f n) = lasting m := rfl

@[simp] theorem lasting_count (b c n : Nat) : lasting (count m b c n) = lasting m := count_same lasting (fun _ _ _ _ => rfl) m b c n

@[simp] theorem lasting_msix (p v : Nat) : lasting (msix m p v) = lasting m := by
  unfold msix
  dsimp only
  split <;> rfl

@[simp] theorem lasting_callFree (id : Nat) : lasting (callFree m id) = lasting m := rfl

@[simp] theorem lasting_resSend (c : Call) (n : Bool) (st v : Nat) : lasting (resSend m c n st v) = lasting m := by
  unfold resSend
  split
  · split
    · rfl
    · dsimp only
      split
      · exact lasting_msix ..
      · rfl
  · rfl

@[simp] theorem lasting_callEnd (e : Nat) (st : EngSt) (s : Option (Nat × Nat)) : lasting (callEnd m e st s) = lasting m := by
  unfold callEnd
  dsimp only
  cases (engOf m e).call.bind (callOf m) with
  | none => rfl
  | some c =>
    cases s with
    | none => rfl
    | some x => exact lasting_resSend ..

@[simp] theorem lasting_sideLostCalls (sd : Nat) : lasting (sideLostCalls m sd) = lasting m := by
  unfold sideLostCalls
  extract_lets m1
  have h1 : lasting m1 = lasting m := by
    refine foldl_same lasting (fun a i => ?_) _ m
    simp [apply_ite lasting]
  rw [← h1]
  refine foldl_same lasting (fun a c => ?_) _ m1
  rw [lasting_resSend, lasting_callFree]

@[simp] theorem lasting_gwPut (sd s st : Nat) : lasting (gwPut m sd s st) = lasting m := by
  unfold gwPut
  extract_lets m1 m2
  have h1 : lasting m1 = lasting m := lasting_fset ..
  have h2 : lasting m2 = lasting m1 := by
    dsimp only [m2]
    split
    · rfl
    · exact lasting_fset ..
  rw [lasting_fset, h2, h1]

theorem lasting_forN_gwPut (n sd st : Nat) : lasting (forN n (fun s m => gwPut m sd s st) m) = lasting m :=
  forN_same lasting (fun _ _ => lasting_gwPut ..) n m

@[simp] theorem lasting_slicesState (sd st : Nat) : lasting (slicesState m sd st) = lasting m :=
  forN_same lasting (fun _ _ => lasting_fset ..) 32 m

@[simp] theorem lasting_resetRegs (p : Nat → Bool) (img : Option Image) : lasting (resetRegs m p img) = lasting m := by
  unfold resetRegs
  cases img with
  | none => rfl
  | some i =>
    refine (foldl_same lasting (fun a c => ?_) i.rs _).trans rfl
    split <;> rfl

@[simp] theorem lasting_clearEngines (sd : Nat) : lasting (clearEngines m sd) = lasting m := rfl
@[simp] theorem lasting_clearHome (sd : Nat) : lasting (clearHome m sd) = lasting m := rfl
@[simp] theorem lasting_clearStacks (sd : Nat) : lasting (clearStacks m sd) = lasting m := rfl
@[simp] theorem lasting_clearLoops (sd : Nat) : lasting (clearLoops m sd) = lasting m := rfl

@[simp] theorem lasting_net (n : Net) : lasting { m with net := n } = lasting m := rfl

@[simp] theorem lasting_domPut (d st : Nat) : lasting (domPut m d st) = lasting m := lasting_fset ..

theorem lasting_clearSide (sd : Nat) : lasting (clearSide m sd) = lasting m := by
  unfold clearSide
  extract_lets +onlyGivenNames m1 m2 m3 m4 sleds snps ports m5 m6 m7 m8 m9 net m10 m11
  have h1 : lasting m1 = lasting m := lasting_sideLostCalls ..
  clear_value m1
  have h2 : lasting m2 = lasting m1 := by simp [m2]
  clear_value m2
  have h3 : lasting m3 = lasting m2 := lasting_resetRegs ..
  clear_value m3
  have h5 : lasting m5 = lasting m3 := rfl
  clear_value m5
  have h6 : lasting m6 = lasting m5 := by
    refine foldl_same lasting (fun a d => ?_) _ m5
    simp [apply_ite lasting]
  clear_value m6
  have h7 : lasting m7 = lasting m6 := lasting_slicesState ..
  clear_value m7
  have h8 : lasting m8 = lasting m7 := forN_same lasting (fun _ _ => lasting_fset ..) 4 m7
  clear_value m8
  have h9 : lasting m9 = lasting m8 := forN_same lasting (fun _ _ => lasting_fset ..) 4 m8
  clear_value m9
  have h10 : lasting m10 = lasting m9 := lasting_net ..
  clear_value m10
  have h11 : lasting m11 = lasting m10 := lasting_forN_gwPut ..
  rw [lasting_fset, h11, h10, h9, h8, h7, h6, h5, h3, h2, h1]

end Sys2Proof.Machine
end

section
/-! SUPPORT. What a module warm reset and the loss of PD0 and PD1 clear and keep (R413, R416, Table 16-1). -/

namespace Sys2Proof.Machine

variable (m : Mach)

/-! ## Updates of registers alone -/

/-- Only registers differ. -/
def RegsOnly (m m' : Mach) : Prop := ∃ r, m' = { m with regs := r }

section
variable {m a b c : Mach}

theorem RegsOnly.refl (m : Mach) : RegsOnly m m := ⟨_, rfl⟩

theorem RegsOnly.trans (h : RegsOnly a b) (h' : RegsOnly b c) : RegsOnly a c := by
  obtain ⟨_, rfl⟩ := h
  obtain ⟨r, rfl⟩ := h'
  exact ⟨r, rfl⟩

theorem RegsOnly.ite {q : Prop} [Decidable q] (ha : RegsOnly m a) (hb : RegsOnly m b) : RegsOnly m (if q then a else b) := by
  split <;> assumption

theorem RegsOnly.forN {f : Nat → Mach → Mach} (h : ∀ i a, RegsOnly a (f i a)) (n : Nat) (m : Mach) : RegsOnly m (forN n f m) := by
  induction n with
  | zero => exact .refl m
  | succ n ih => exact ih.trans (h n _)

end

theorem fset_regsOnly (b : Nat) (f : Fld) (v : Nat) : RegsOnly m (fset m b f v) := ⟨_, rfl⟩

theorem gwPut_regsOnly (sd s st : Nat) : RegsOnly m (gwPut m sd s st) := by
  unfold gwPut
  dsimp only
  exact (fset_regsOnly ..).trans (.trans (.ite (.refl _) (fset_regsOnly ..)) (fset_regsOnly ..))

/-- The last steps of `loseDomains`: the domains are off and their gateways too. -/
def domainsOff (m : Mach) : Mach :=
  let m := forN 24 (fun d m => fset (domPut m (d + 2) 0) (8 * (d + 2)) R.PWR_DOM_MV 0) m
  forN 60 (fun s m => if s == 57 then m else gwPut (gwPut m 0 s 2) 1 s 2) m

theorem domainsOff_regsOnly : RegsOnly m (domainsOff m) := by
  unfold domainsOff
  refine .trans (.forN (fun _ _ => (fset_regsOnly ..).trans (fset_regsOnly ..)) 24 m) (.forN (fun s a => ?_) 60 _)
  exact .ite (.refl _) ((gwPut_regsOnly ..).trans (gwPut_regsOnly ..))

/-! ## A module warm reset -/

@[simp] theorem lasting_perstSet (p : Nat) (low : Bool) : lasting (perstSet m p low) = lasting m := by
  unfold perstSet
  dsimp only
  split
  · rfl
  · split <;> rfl

/-- Everything that a module warm reset empties is empty, and the flash store and the time are those of `m`. -/
structure Emptied (m m' : Mach) : Prop where
  home : m'.home = Home.reset
  rsv : m'.rsv = Rsv.reset
  tw : m'.tw = []
  twIn : m'.twIn = []
  twin : m'.twin = Twin.reset
  comp : m'.comp = Compose.reset
  eng : m'.eng = Engines.reset
  loops : m'.loops = Loops.reset
  net : m'.net = Net.reset
  flash : m'.flash = m.flash
  timeUs : m'.timeUs = m.timeUs

variable {m} in
theorem Emptied.regsOnly {a b : Mach} (h : Emptied m a) (hr : RegsOnly a b) : Emptied m b := by
  obtain ⟨r, rfl⟩ := hr
  exact ⟨h.home, h.rsv, h.tw, h.twIn, h.twin, h.comp, h.eng, h.loops, h.net, h.flash, h.timeUs⟩

theorem loseDomains_emptied : Emptied m (loseDomains m) := by
  unfold loseDomains
  extract_lets +onlyGivenNames m1 m2 m3
  have h1 : lasting m1 = lasting m := (lasting_clearSide ..).trans (lasting_clearSide ..)
  clear_value m1
  have h2 : lasting m2 = lasting m1 := by
    refine forN_same lasting (fun p a => ?_) 32 m1
    simp [apply_ite lasting]
  clear_value m2
  have h3 : lasting m3 = lasting m := (lasting_resetRegs ..).trans (h2.trans h1)
  clear_value m3
  obtain ⟨hf, ht, -⟩ : m3.flash = m.flash ∧ m3.timeUs = m.timeUs ∧ m3.comp.plc = m.comp.plc := by simpa [lasting] using h3
  refine .regsOnly ?_ (domainsOff_regsOnly _)
  exact ⟨rfl, rfl, rfl, rfl, rfl, rfl, rfl, rfl, rfl, hf, ht⟩

/-! ## The registers of a reset domain -/

/-- A cell that a filter drops reads as its default. -/
theorem mget_filter_dropped {α : Type} (l : List (Nat × α)) (q : Nat → Bool) {k : Nat} (h : q k = false) :
    mget (l.filter fun c => q c.1) k = none := by
  induction l with
  | nil => rfl
  | cons c l ih =>
    obtain ⟨a, x⟩ := c
    rw [List.filter_cons]
    dsimp only
    split
    · rename_i hq
      rw [mget, if_neg fun e => by simp [e, h] at hq, ih]
    · exact ih

theorem opMode_dropped {m : Mach} (h : mget m.regs (fkey aonBase R.AON_OPMODE_MODE) = none) : opMode m = 0 := by
  unfold opMode fget sget
  rw [show mget m.regs ((aonBase + R.AON_OPMODE_MODE.off) * 8 + R.AON_OPMODE_MODE.lo) = none from h]
  decide

theorem opMode_resetRegs (p : Nat → Bool) (h : p (keyAddr (fkey aonBase R.AON_OPMODE_MODE)) = true) : opMode (resetRegs m p none) = 0 :=
  opMode_dropped (mget_filter_dropped m.regs (fun k => !p (keyAddr k)) (by rw [h]; rfl))

/-! ## FAULT# -/

@[simp] theorem faultPin_regs (low : Bool) : (faultPin m low).regs = m.regs := by
  unfold faultPin
  split <;> rfl

@[simp] theorem faultPin_flash (low : Bool) : (faultPin m low).flash = m.flash := by
  unfold faultPin
  split <;> rfl

@[simp] theorem faultPin_log (low : Bool) : (faultPin m low).log = m.log := by
  unfold faultPin
  split <;> rfl

variable {m} in
theorem Emptied.faultPin {a : Mach} (h : Emptied m a) (low : Bool) : Emptied m (faultPin a low) := by
  unfold Machine.faultPin
  split
  · exact h
  · exact ⟨h.home, h.rsv, h.tw, h.twIn, h.twin, h.comp, h.eng, h.loops, h.net, h.flash, h.timeUs⟩

variable {m} in
theorem Emptied.resetRegs {a : Mach} (h : Emptied m a) (p : Nat → Bool) : Emptied m (resetRegs a p none) :=
  ⟨h.home, h.rsv, h.tw, h.twIn, h.twin, h.comp, h.eng, h.loops, h.net, h.flash, h.timeUs⟩

theorem warmClear_emptied : Emptied m (warmClear m) := ((loseDomains_emptied m).resetRegs _).faultPin false

theorem opMode_warmClear : opMode (warmClear m) = 0 := by
  have h : opMode (resetRegs (loseDomains m) (inDom .modwarm) none) = 0 := opMode_resetRegs _ _ (by decide)
  rw [← h]
  unfold opMode warmClear
  exact fget_of_regs (faultPin_regs ..) ..

/-! ## The loss of PD0 and PD1 -/

theorem coldClear_regs : (coldClear m).regs = m.regs.filter fun c => inDom .never (keyAddr c.1) := by
  rw [← faultPin_regs m false]
  rfl

theorem coldClear_flash : (coldClear m).flash = m.flash := faultPin_flash m false

theorem coldClear_log : (coldClear m).log = { Log.reset with pers := m.log.pers } := by
  rw [← faultPin_log m false]
  rfl

/-- A register that no reset changes keeps its value. -/
theorem fget_coldClear (b : Nat) (f : Fld) (h : inDom .never (keyAddr (fkey b f)) = true) : fget (coldClear m) b f = fget m b f := by
  unfold fget sget
  rw [coldClear_regs]
  rw [show mget (m.regs.filter fun c => inDom .never (keyAddr c.1)) ((b + f.off) * 8 + f.lo) = mget m.regs ((b + f.off) * 8 + f.lo) from
    mget_filter m.regs (fun k => inDom .never (keyAddr k)) h]

theorem opMode_coldClear : opMode (coldClear m) = 0 := by
  refine opMode_dropped ?_
  rw [coldClear_regs]
  exact mget_filter_dropped m.regs (fun k => inDom .never (keyAddr k)) (by decide)

/-! ## The recorded cause -/

theorem fget_eventRecord (k c b i d : Nat) (data : List Nat) (base : Nat) (f : Fld) (h : fkey base f ≠ dropKey) :
    fget (eventRecord m k c b i d data) base f = fget m base f := (logRecord_regsBut ..).fget h

theorem resetCause_cause (c : Nat) (cold : Bool) : fget (resetCause m c cold) aonBase R.AON_RST_CAUSE_CAUSE = c % 16 := by
  unfold resetCause
  dsimp only
  rw [fget_eventRecord _ _ _ _ _ _ _ _ _ (by decide), fget_fset_at _ _ _ _ _ (by decide), fget_fset_at _ _ _ _ _ (by decide), fget_fset_same]
  rfl

theorem resetCause_cold (c : Nat) (cold : Bool) : fget (resetCause m c cold) aonBase R.AON_RST_CAUSE_COLD = b2n cold := by
  unfold resetCause
  dsimp only
  rw [fget_eventRecord _ _ _ _ _ _ _ _ _ (by decide), fget_fset_at _ _ _ _ _ (by decide), fget_fset_same]
  cases cold <;> rfl

end Sys2Proof.Machine
end

section
/-! The settling of O52. -/

open Sys2Proof Sys2Proof.Machine

/-- Settles O52: what `loseDomains` empties stays empty through the resets of registers and the pin, and the register filters of both
clears are read at the address of OPMODE and of the start record. -/
theorem whatResetsLeave : Obligations.WhatResetsLeave := by
  unfold Obligations.WhatResetsLeave
  refine ⟨fun m => ?_, fun m => ?_, fun m c cold => ⟨resetCause_cause m c cold, resetCause_cold m c cold⟩⟩
  · have h := warmClear_emptied m
    exact ⟨h.home, h.rsv, h.tw, h.twIn, h.twin, h.comp, h.eng, h.loops, h.net, h.flash, h.timeUs, opMode_warmClear m⟩
  · exact ⟨rfl, rfl, rfl, rfl, rfl, rfl, coldClear_flash m, coldClear_log m, fget_coldClear m _ _ (by decide), opMode_coldClear m⟩
end

section
/-! SUPPORT. How the Ditchrider's core starts, and what an event record leaves alone (R457, R458, R461). -/

namespace Sys2Proof.Machine

/-! ## Event records -/

section
variable {m m' : Mach}

theorem ReportOnly.flash (h : ReportOnly m m') : m'.flash = m.flash := by obtain ⟨_, _, _, _, _, rfl⟩ := h; rfl
theorem ReportOnly.mgmt (h : ReportOnly m m') : m'.mgmt = m.mgmt := by obtain ⟨_, _, _, _, _, rfl⟩ := h; rfl
theorem ReportOnly.boot (h : ReportOnly m m') : m'.boot = m.boot := by obtain ⟨_, _, _, _, _, rfl⟩ := h; rfl
theorem ReportOnly.outbox (h : ReportOnly m m') : m'.outbox = m.outbox := by obtain ⟨_, _, _, _, _, rfl⟩ := h; rfl

end

variable (m : Mach)

theorem eventRecord_reportOnly (k c b i d : Nat) (data : List Nat) : ReportOnly m (eventRecord m k c b i d data) := logRecord_reportOnly ..

theorem count_events (b c n : Nat) : (count m b c n).events = m.events := count_same Mach.events (fun _ _ _ _ => rfl) m b c n

theorem logWrite_events (r : LogRec) : (logWrite m r).events = m.events := by
  unfold logWrite logFlush
  simp [apply_ite Mach.events, count_events]

theorem eventRecord_events (k c b i d : Nat) (data : List Nat) : (eventRecord m k c b i d data).events = m.events := by
  unfold eventRecord logRecord
  simp [apply_ite Mach.events, logWrite_events, fsat]

/-! ## A firmware slot runs -/

/-- A cell that the start of the core writes: in MGT_STATUS or MGT_SEC, or the count of dropped records. -/
@[reducible] def bootKey (k : Nat) : Prop := k / 64 = (mgtBase + 0x40) / 8 ∨ k / 64 = (mgtBase + 0x48) / 8 ∨ k = dropKey

theorem runFw_regsBut (s : Nat) (p : Package) : RegsBut bootKey m (runFw m s p) := by
  unfold runFw
  refine .fset (.fset (.fset (.fset (.fset (.fset (.refl m) ?_ _) ?_ _) ?_ _) ?_ _) ?_ _) ?_ _ <;> decide

theorem runFw_state (s : Nat) (p : Package) : fget (runFw m s p) mgtBase R.MGT_STATUS_STATE = 1 := by
  unfold runFw
  dsimp only
  rw [fget_fset_at _ _ _ _ _ (by decide), fget_fset_at _ _ _ _ _ (by decide), fget_fset_at _ _ _ _ _ (by decide),
    fget_fset_at _ _ _ _ _ (by decide), fget_fset_at _ _ _ _ _ (by decide), fget_fset_same]
  rfl

theorem runFw_slot (s : Nat) (p : Package) : fget (runFw m s p) mgtBase R.MGT_STATUS_SLOT = s % 4 := by
  unfold runFw
  dsimp only
  rw [fget_fset_at _ _ _ _ _ (by decide), fget_fset_at _ _ _ _ _ (by decide), fget_fset_at _ _ _ _ _ (by decide),
    fget_fset_at _ _ _ _ _ (by decide), fget_fset_same]
  rfl

theorem runFw_version (s : Nat) (p : Package) : fget (runFw m s p) mgtBase R.MGT_STATUS_VERSION = p.version.toNat := by
  unfold runFw
  dsimp only
  rw [fget_fset_at _ _ _ _ _ (by decide), fget_fset_at _ _ _ _ _ (by decide), fget_fset_same]
  exact Nat.mod_eq_of_lt p.version.isLt

/-! ## The core restarts from a list of slots -/

/-- The core runs package `p` of slot `s` in `m'`, and nothing else differs from `m` but what a record touches. -/
structure Runs (m : Mach) (s : Nat) (p : Package) (m' : Mach) : Prop where
  state : fget m' mgtBase R.MGT_STATUS_STATE = 1
  slot : fget m' mgtBase R.MGT_STATUS_SLOT = s % 4
  version : fget m' mgtBase R.MGT_STATUS_VERSION = p.version.toNat
  regs : RegsBut bootKey m m'
  rest : ReportOnly m m'
  events : m'.events = m.events

variable {m}

theorem slotValid_of_flash {m' : Mach} (h : m'.flash = m.flash) (s : Nat) : slotValid m' s = slotValid m s := by
  unfold slotValid pkgValid
  rw [h]

theorem slotOrder_of_flash {m' : Mach} (h : m'.flash = m.flash) (mode : Nat) : slotOrder m' mode = slotOrder m mode := by
  unfold slotOrder slotsAB
  simp only [slotValid_of_flash h]

theorem runFw_runs (s : Nat) (p : Package) : Runs m s p (runFw m s p) where
  state := runFw_state m s p
  slot := runFw_slot m s p
  version := runFw_version m s p
  regs := runFw_regsBut m s p
  rest := ⟨_, _, _, _, _, rfl⟩
  events := rfl

theorem Runs.eventRecord {s : Nat} {p : Package} {a : Mach} (h : Runs m s p a) (k c b i d : Nat) (data : List Nat) :
    Runs m s p (eventRecord a k c b i d data) where
  state := (fget_eventRecord _ _ _ _ _ _ _ _ _ (by decide)).trans h.state
  slot := (fget_eventRecord _ _ _ _ _ _ _ _ _ (by decide)).trans h.slot
  version := (fget_eventRecord _ _ _ _ _ _ _ _ _ (by decide)).trans h.version
  regs := h.regs.trans ((logRecord_regsBut ..).mono fun _ hk => .inr (.inr hk))
  rest := h.rest.trans (eventRecord_reportOnly ..)
  events := (eventRecord_events ..).trans h.events

/-- The core runs the first slot of the list, if it is valid, whether or not a slot was skipped (R457). -/
theorem bootFrom_runs {s : Nat} {p : Package} (h : slotValid m s = some p) (ss : List Nat) (skip : Option Nat) :
    Runs m s p (bootFrom m (s :: ss) skip) := by
  unfold bootFrom
  simp only [List.head?_cons, h, List.isEmpty_cons, Bool.false_eq_true, if_false]
  cases skip with
  | none => exact runFw_runs s p
  | some k => exact (runFw_runs s p).eventRecord ..

/-- With no valid slot the recovery loader runs, and drives FAULT# (R458). -/
theorem bootFrom_nil (skip : Option Nat) : bootFrom m [] skip = faultPin (fset m mgtBase R.MGT_STATUS_STATE 4) true := by
  unfold bootFrom
  cases skip <;> rfl

theorem faultPin_low (m : Mach) (low : Bool) : (faultPin m low).boot.faultLow = low := by
  unfold faultPin
  split
  · rename_i h
    simpa using h
  · rfl

@[simp] theorem faultPin_mgmt (m : Mach) (low : Bool) : (faultPin m low).mgmt = m.mgmt := by
  unfold faultPin
  split <;> rfl

theorem bootFrom_nil_state (skip : Option Nat) : fget (bootFrom m [] skip) mgtBase R.MGT_STATUS_STATE = 4 := by
  rw [bootFrom_nil, fget_of_regs (faultPin_regs (fset m mgtBase R.MGT_STATUS_STATE 4) true), fget_fset_same]
  rfl

/-! ## The order of the slots -/

theorem slotsAB_none (h0 : slotValid m 0 = none) (h1 : slotValid m 1 = none) : slotsAB m = [] := by
  rw [slotsAB, h0, h1]

/-- In boot modes 0 and 3, slots A and B come before the factory slot. -/
theorem slotOrder_three : slotOrder m 3 =
    (slotsAB m ++ (if (slotValid m 2).isSome then [2] else []), if (slotsAB m).isEmpty then some 0 else none) := rfl

end Sys2Proof.Machine
end

section
/-! SUPPORT. The commands of a firmware update, each in and out of its phase (Table 18-7, R456, R460, R461, R470, R471). -/

namespace Sys2Proof.Machine

variable {m : Mach} {i : Nat} {u : Update} {p : Package} {name : String} {ok : Update → Bool} {go : Update → Mach → Mach}

/-! ## The phase of an update command -/

theorem updCmd_outside (hu : m.mgmt.upd = none) :
    updCmd name ok go i m = if updOn m i = true then send m (.mgmt (name ++ " not in update mode") []) else m := by
  unfold updCmd
  rw [hu]
  cases updOn m i <;> rfl

theorem updCmd_wrong (hu : m.mgmt.upd = some u) (hok : ok u = false) :
    updCmd name ok go i m = if updOn m i = true then send m (.mgmt (name ++ " invalid state") []) else m := by
  unfold updCmd
  simp only [hu, hok]
  cases updOn m i <;> rfl

theorem updCmd_go (hon : updOn m i = true) (hu : m.mgmt.upd = some u) (hok : ok u = true) : updCmd name ok go i m = go u m := by
  unfold updCmd
  simp only [hon, hu, hok]
  rfl

/-! ## The record of a result -/

theorem updRecord_reportOnly (m : Mach) (c r : Nat) : ReportOnly m (updRecord m c r) := (fset_reportOnly ..).trans (eventRecord_reportOnly ..)

theorem updRecord_regsBut (m : Mach) (c r : Nat) : RegsBut (fun k => k = fkey mgtBase R.MGT_UPD_RESULT ∨ k = dropKey) m (updRecord m c r) :=
  ((RegsBut.refl m).fset (.inl rfl) r).trans ((logRecord_regsBut ..).mono fun _ hk => .inr hk)

theorem updRecord_result (m : Mach) (c : Nat) {r : Nat} (hr : r < 8) : fget (updRecord m c r) mgtBase R.MGT_UPD_RESULT = r := by
  unfold updRecord
  rw [fget_eventRecord _ _ _ _ _ _ _ _ _ (by decide), fget_fset_same]
  exact Nat.mod_eq_of_lt hr

/-- The state and the result of an update whose record is written, answered and shown in MGT_UPD. -/
theorem updShown_state (m : Mach) (c r : Nat) (v : List Nat) {st : Nat} (hs : st < 8) :
    fget (updAnswer name v (updState (updRecord m c r) st)) mgtBase R.MGT_UPD_STATE = st := by
  refine (fget_fset_same (updRecord m c r) mgtBase R.MGT_UPD_STATE st).trans ?_
  exact Nat.mod_eq_of_lt hs

theorem updShown_result (m : Mach) (c st : Nat) (v : List Nat) {r : Nat} (hr : r < 8) :
    fget (updAnswer name v (updState (updRecord m c r) st)) mgtBase R.MGT_UPD_RESULT = r :=
  (fget_fset_at (updRecord m c r) mgtBase R.MGT_UPD_STATE R.MGT_UPD_RESULT st (by decide)).trans (updRecord_result m c hr)

theorem updShown_flash (m : Mach) (c r st : Nat) (v : List Nat) : (updAnswer name v (updState (updRecord m c r) st)).flash = m.flash :=
  (updRecord_reportOnly m c r).flash

theorem updShown_mgmt (m : Mach) (c r st : Nat) (v : List Nat) : (updAnswer name v (updState (updRecord m c r) st)).mgmt = m.mgmt :=
  (updRecord_reportOnly m c r).mgmt

/-! ## The transfer of a component -/

theorem updateComponent_unsupported {c : BitVec 16} {j : Fin 2} (hon : updOn m j = true) (hu : m.mgmt.upd = some u) (hp : u.phase = 1)
    (hc : c.toNat = 0 ∨ 3 < c.toNat) : doUpdateComponent j c m = send m (.mgmt "UpdateComponent unsupported" []) := by
  have hout : (decide (1 ≤ c.toNat) && decide (c.toNat ≤ 3)) = false := by
    rw [Bool.and_eq_false_iff, decide_eq_false_iff_not, decide_eq_false_iff_not]
    omega
  refine (updCmd_go hon hu (by simp [hp])).trans ?_
  simp only [hout]
  rfl

theorem updateComponent_of {c : BitVec 16} {j : Fin 2} {k : Nat} (hon : updOn m j = true) (hu : m.mgmt.upd = some u) (hp : u.phase = 1)
    (hc : c.toNat = k) (hk : k = 2 ∨ k = 3) :
    doUpdateComponent j c m = updAnswer "UpdateComponent" [] (updState (updErase
      (updPut m { u with comp := k, phase := 2, bytes := 0, pkg := none }) { u with comp := k, phase := 2, bytes := 0, pkg := none }) 1) := by
  refine (updCmd_go hon hu (by simp [hp])).trans ?_
  simp only [hc]
  rcases hk with rfl | rfl <;> rfl

theorem updateComponent_one {c : BitVec 16} {j : Fin 2} (hon : updOn m j = true) (hu : m.mgmt.upd = some u) (hp : u.phase = 1) (hc : c.toNat = 1) :
    doUpdateComponent j c m = updAnswer "UpdateComponent" [] (updState (updErase
      (updPut m { u with comp := 1, phase := 2, bytes := 0, pkg := none, slot := updSlot m, ready := false })
      { u with comp := 1, phase := 2, bytes := 0, pkg := none, slot := updSlot m, ready := false }) 1) := by
  refine (updCmd_go hon hu (by simp [hp])).trans ?_
  simp only [hc]
  rfl

theorem requestFirmwareData_go {n : Nat} {j : Fin 2} (hon : updOn m j = true) (hu : m.mgmt.upd = some u) (hp : u.phase = 2) :
    doRequestFirmwareData j n m =
      if n ≤ (if j = 0 then 256 else 1024) then updAnswer "RequestFirmwareData" [u.bytes + n] (updPut m { u with bytes := u.bytes + n })
      else updAnswer "RequestFirmwareData invalid" [] m := by
  refine (updCmd_go hon hu (by simp [hp])).trans ?_
  match j with
  | 0 => rfl
  | 1 => rfl

/-! ## Verification -/

theorem verifyComplete_fails {j : Fin 2} (hon : updOn m j = true) (hu : m.mgmt.upd = some u) (hp : u.phase = 3) (hpkg : u.pkg = some p)
    (hr : pkgResult m u.comp p ≠ 0) : doVerifyComplete j m =
      updAnswer "VerifyComplete" [pkgResult m u.comp p] (updRecord (if p.formatOk then m else draw m) u.comp (pkgResult m u.comp p)) := by
  refine (updCmd_go hon hu (by simp [hp])).trans ?_
  simp only [hpkg]
  exact if_pos (bne_iff_ne.mpr hr)

/-- The flash store with a verified package in the slot of its component. -/
def pkgStored (m : Mach) (u : Update) (p : Package) : Mach := match compSlot u with
  | some s => { m with flash := { m.flash with fw := mput m.flash.fw s ⟨p, true⟩ } }
  | none => m

theorem verifyComplete_passes {j : Fin 2} (hon : updOn m j = true) (hu : m.mgmt.upd = some u) (hp : u.phase = 3) (hpkg : u.pkg = some p)
    (hf : p.formatOk = true) (hr : pkgResult m u.comp p = 0) : doVerifyComplete j m =
      updAnswer "VerifyComplete" [0] (updPut (fset (pkgStored m u p) mgtBase R.MGT_UPD_RESULT 0) { u with phase := 4 }) := by
  refine (updCmd_go hon hu (by simp [hp])).trans ?_
  simp only [hpkg, hf, hr]
  rfl

/-- What a failed verification leaves: the result in MGT_UPD, and everything else in its phase. -/
theorem verifyFailed (m : Mach) (c : Nat) (p : Package) {r : Nat} (hr : r < 8) :
    let m' := updAnswer "VerifyComplete" [r] (updRecord (if p.formatOk then m else draw m) c r)
    fget m' mgtBase R.MGT_UPD_RESULT = r ∧ m'.flash = m.flash ∧ m'.mgmt.upd = m.mgmt.upd ∧
      m'.outbox = m.outbox ++ [.mgmt "VerifyComplete" [r]] := by
  intro m'
  have hrep := updRecord_reportOnly (if p.formatOk then m else draw m) c r
  refine ⟨updRecord_result _ c hr, hrep.flash.trans ?_, (congrArg Mgmt.upd hrep.mgmt).trans ?_,
    (congrArg (· ++ [Out.mgmt "VerifyComplete" [r]]) hrep.outbox).trans ?_⟩ <;>
    split <;> rfl

/-! ## The check of a package (R456, R460) -/

/-- The key of a package may sign for its component: it is known and not revoked, and a revocation package revokes another one. -/
def keyGood (m : Mach) (comp : Nat) (p : Package) : Bool := match p.key with
  | some k => !bitOf m.flash.revoked k.val && (comp != 3 || match p.revokes with
    | some r => r != k
    | none => false)
  | none => false

theorem pkgResult_eq (m : Mach) (comp : Nat) (p : Package) : pkgResult m comp p =
    if !p.formatOk then 1 + drawn m % 4 else if !keyGood m comp p then 2 else if !p.sigOk then 1
    else if comp != 3 && (p.svn.toNat < m.flash.svnFuse || 64 < p.svn.toNat) then 3 else 0 := rfl

variable {comp : Nat} {k r : Fin 4}

theorem pkgResult_unformatted (hf : p.formatOk = false) : pkgResult m comp p = 1 + drawn m % 4 := by
  rw [pkgResult_eq, hf]
  rfl

theorem pkgResult_badKey (hf : p.formatOk = true) (hk : keyGood m comp p = false) : pkgResult m comp p = 2 := by
  rw [pkgResult_eq, hf, hk]
  rfl

theorem pkgResult_badSig (hf : p.formatOk = true) (hk : keyGood m comp p = true) (hs : p.sigOk = false) : pkgResult m comp p = 1 := by
  rw [pkgResult_eq, hf, hk, hs]
  rfl

theorem pkgResult_badSvn (hf : p.formatOk = true) (hk : keyGood m comp p = true) (hs : p.sigOk = true) (hc : comp ≠ 3)
    (hv : p.svn.toNat < m.flash.svnFuse ∨ 64 < p.svn.toNat) : pkgResult m comp p = 3 := by
  rw [pkgResult_eq, hf, hk, hs]
  have hbad : (comp != 3 && (decide (p.svn.toNat < m.flash.svnFuse) || decide (64 < p.svn.toNat))) = true := by simpa [hc] using hv
  simp only [hbad]
  rfl

theorem pkgResult_good (hf : p.formatOk = true) (hk : keyGood m comp p = true) (hs : p.sigOk = true)
    (hv : comp = 3 ∨ m.flash.svnFuse ≤ p.svn.toNat ∧ p.svn.toNat ≤ 64) : pkgResult m comp p = 0 := by
  rw [pkgResult_eq, hf, hk, hs]
  have hgood : (comp != 3 && (decide (p.svn.toNat < m.flash.svnFuse) || decide (64 < p.svn.toNat))) = false := by
    rw [Bool.and_eq_false_iff, Bool.or_eq_false_iff, decide_eq_false_iff_not, decide_eq_false_iff_not, bne_eq_false_iff_eq]
    omega
  simp only [hgood]
  rfl

theorem keyGood_image (hk : p.key = some k) (hr : bitOf m.flash.revoked k = false) (hc : comp ≠ 3) : keyGood m comp p = true := by
  simp [keyGood, hk, hr, hc]

theorem keyGood_revocation (hk : p.key = some k) (hr : bitOf m.flash.revoked k = false) (hv : p.revokes = some r) (hne : r ≠ k) :
    keyGood m comp p = true := by
  simp [keyGood, hk, hr, hv, hne]

theorem keyGood_unknown (hk : p.key = none) : keyGood m comp p = false := by rw [keyGood, hk]

theorem keyGood_revoked (hk : p.key = some k) (hr : bitOf m.flash.revoked k = true) : keyGood m comp p = false := by
  simp [keyGood, hk, hr]

theorem keyGood_own (hk : p.key = some k) (hc : comp = 3) (hv : p.revokes = none ∨ p.revokes = some k) : keyGood m comp p = false := by
  rcases hv with hv | hv <;> simp [keyGood, hk, hv, hc]

/-! ## Application -/

/-- What application of a component does to the flash store and the factory version (R460). -/
def applied (m : Mach) (u : Update) : Mach :=
  let m := if u.comp == 3 then match u.pkg.bind fun p => p.revokes with
      | some r => { m with flash := { m.flash with revoked := setBit m.flash.revoked r.val true } }
      | none => m
    else m
  if u.comp == 2 then fset m mgtBase R.MGT_SEC_FACTSVN (((slotValid m 2).map fun f => f.svn.toNat).getD 0) else m

theorem applyComplete_go {j : Fin 2} (hon : updOn m j = true) (hu : m.mgmt.upd = some u) (hp : u.phase = 4) : doApplyComplete j m =
    updAnswer "ApplyComplete" [] (updState (updRecord (updPut (applied m u) { u with phase := 1, ready := u.ready || u.comp == 1 }) u.comp 0)
      (if u.ready || u.comp == 1 then 3 else 1)) :=
  updCmd_go hon hu (by simp [hp])

theorem applied_one (hc : u.comp = 1) : applied m u = m := by
  unfold applied
  rw [hc]
  rfl

theorem applied_two (hc : u.comp = 2) (hv : slotValid m 2 = some p) : applied m u = fset m mgtBase R.MGT_SEC_FACTSVN p.svn.toNat := by
  simp [applied, hc, hv]

theorem applied_three (hc : u.comp = 3) (hpkg : u.pkg = some p) (hr : p.revokes = some r) :
    applied m u = { m with flash := { m.flash with revoked := setBit m.flash.revoked r.val true } } := by
  unfold applied
  simp only [hc, hpkg, Option.bind_some, hr]
  rfl

/-! ## Activation -/

/-- Update mode is left, and the command answered. -/
def leftUpdate (m : Mach) : Mach := updState (updAnswer "ActivateFirmware" [] { m with mgmt := { m.mgmt with upd := none } }) 0

theorem leftUpdate_flash (m : Mach) : (leftUpdate m).flash = m.flash := rfl

@[simp] theorem svnBlow_regs (m : Mach) : (svnBlow m).regs = m.regs := by
  unfold svnBlow
  split <;> rfl

@[simp] theorem svnBlow_mgmt (m : Mach) : (svnBlow m).mgmt = m.mgmt := by
  unfold svnBlow
  split <;> rfl

/-- The watchdog is suspended, every tile has PHY firmware to swap, and the program image is staged. -/
def imageStaged (m : Mach) (image : Nat) : Mach :=
  fset { m with mgmt := { m.mgmt with suspended := true, phy := [0, 1, 2, 3], staged := some image } } mgtBase R.MGT_UPD_PROGPEND 1

/-- The restart that an activation begins, from update mode left. -/
def activated (m : Mach) (slot old : Nat) : Mach := match slotValid m slot with
  | none => bootFrom m ((if (slotValid m old).isSome then [old] else []) ++ (slotOrder m 3).1) (some slot)
  | some p =>
    let m := imageStaged (bootFrom m [slot] none) p.image
    if fon m mgtBase R.MGT_SEC_SVNAUTO && 1 ≤ opMode m && opMode m ≤ 3 then svnBlow m else m

theorem fget_leftUpdate (m : Mach) (f : Fld) (h : R.MGT_UPD_STATE.off * 8 + R.MGT_UPD_STATE.lo ≠ f.off * 8 + f.lo) :
    fget (leftUpdate m) mgtBase f = fget m mgtBase f :=
  fget_fset_at (updAnswer "ActivateFirmware" [] { m with mgmt := { m.mgmt with upd := none } }) mgtBase _ f 0 h

theorem ditchRuns_leftUpdate (m : Mach) : ditchRuns (leftUpdate m) = ditchRuns m := by
  rw [ditchRuns, fget_leftUpdate m _ (by decide)]
  rfl

theorem activateFirmware_stays {j : Fin 2} (hon : updOn m j = true) (hu : m.mgmt.upd = some u) (hp : u.phase = 1)
    (hr : u.ready = false ∨ ditchRuns m = false) : doActivateFirmware j m = leftUpdate m := by
  have hstop : (!u.ready || !ditchRuns (leftUpdate m)) = true := by
    rw [ditchRuns_leftUpdate]
    rcases hr with h | h <;> simp [h]
  exact (updCmd_go hon hu (by simp [hp])).trans (if_pos hstop)

theorem activateFirmware_go {j : Fin 2} (hon : updOn m j = true) (hu : m.mgmt.upd = some u) (hp : u.phase = 1) (hr : u.ready = true)
    (hd : ditchRuns m = true) : doActivateFirmware j m = activated (leftUpdate m) u.slot (fget m mgtBase R.MGT_STATUS_SLOT) := by
  have hgo : ¬ (!u.ready || !ditchRuns (leftUpdate m)) = true := by simp [ditchRuns_leftUpdate, hr, hd]
  rw [← fget_leftUpdate m _ (by decide)]
  exact (updCmd_go hon hu (by simp [hp])).trans (if_neg hgo)

theorem activated_old {slot old : Nat} (h : slotValid m slot = none) :
    activated m slot old = bootFrom m ((if (slotValid m old).isSome then [old] else []) ++ (slotOrder m 3).1) (some slot) := by
  rw [activated, h]

/-- The new slot runs, with its image staged, whether or not fuses are blown. -/
theorem activated_new {slot old : Nat} (h : slotValid m slot = some p) :
    let m' := activated m slot old
    fget m' mgtBase R.MGT_STATUS_STATE = 1 ∧ fget m' mgtBase R.MGT_STATUS_VERSION = p.version.toNat ∧
    m'.mgmt = { m.mgmt with suspended := true, phy := [0, 1, 2, 3], staged := some p.image } ∧ fget m' mgtBase R.MGT_UPD_PROGPEND = 1 := by
  intro m'
  have hb := bootFrom_runs h [] none
  obtain ⟨hr, hm⟩ : m'.regs = (imageStaged (bootFrom m [slot] none) p.image).regs ∧
      m'.mgmt = (imageStaged (bootFrom m [slot] none) p.image).mgmt := by
    simp only [m', activated, h]
    split
    · exact ⟨svnBlow_regs _, svnBlow_mgmt _⟩
    · exact ⟨rfl, rfl⟩
  clear_value m'
  generalize bootFrom m [slot] none = b at hb hr hm
  rw [hm, fget_of_regs hr, fget_of_regs hr, fget_of_regs hr]
  unfold imageStaged
  rw [fget_fset_at _ _ _ _ _ (by decide), fget_fset_at _ _ _ _ _ (by decide), fget_fset_same]
  refine ⟨hb.state, hb.version, ?_, rfl⟩
  rw [← hb.rest.mgmt]
  rfl

/-! ## Cancellation -/

theorem updErase_fw (m : Mach) (u : Update) : (updErase m u).flash.fw =
    if u.comp = 1 then mdel m.flash.fw u.slot else if u.comp = 2 then mdel m.flash.fw 2 else m.flash.fw := by
  unfold updErase compSlot
  by_cases h1 : u.comp = 1
  · simp [h1]
  · by_cases h2 : u.comp = 2 <;> simp [h1, h2]

theorem cancelled_fw (m : Mach) (u : Update) : (if 2 ≤ u.phase then updErase m u else m).flash.fw =
    if 2 ≤ u.phase ∧ u.comp = 1 then mdel m.flash.fw u.slot else if 2 ≤ u.phase ∧ u.comp = 2 then mdel m.flash.fw 2 else m.flash.fw := by
  by_cases hp : 2 ≤ u.phase
  · simp only [hp, if_true, true_and]
    exact updErase_fw m u
  · simp [hp]

/-! ## Requests that need no phase -/

theorem firmwareParameters_none {j : Fin 2} (h0 : slotValid m 0 = none) (h1 : slotValid m 1 = none) (h2 : slotValid m 2 = none) :
    doGetFirmwareParameters j m = if updOn m j = true then
      send m (.mgmt "GetFirmwareParameters" [fget m mgtBase R.MGT_STATUS_VERSION, 0, 0, 0]) else m := by
  unfold doGetFirmwareParameters
  simp only [h0, h1, h2]
  rfl

theorem firmwareParameters_all {j : Fin 2} {a b c : Package} (h0 : slotValid m 0 = some a) (h1 : slotValid m 1 = some b)
    (h2 : slotValid m 2 = some c) : doGetFirmwareParameters j m = if updOn m j = true then
      send m (.mgmt "GetFirmwareParameters" [fget m mgtBase R.MGT_STATUS_VERSION, a.version.toNat, b.version.toNat, c.version.toNat]) else m := by
  unfold doGetFirmwareParameters
  simp only [h0, h1, h2]
  rfl

theorem requestUpdate_first {j : Fin 2} {ep : BitVec 8} (hu : m.mgmt.upd = none) : doRequestUpdate j ep m = if updOn m j = true then
    updAnswer "RequestUpdate" [] (updState (updPut m ⟨ep.toNat + 256 * j.val, 0, 0, 0, 0, none, false⟩) 1) else m := by
  unfold doRequestUpdate
  rw [hu]
  cases updOn m j <;> rfl

theorem requestUpdate_second {j : Fin 2} {ep : BitVec 8} (hu : m.mgmt.upd = some u) : doRequestUpdate j ep m = if updOn m j = true then
    updAnswer "RequestUpdate ALREADY_IN_UPDATE_MODE" [] m else m := by
  unfold doRequestUpdate
  rw [hu]
  cases updOn m j <;> rfl

/-! ## Forms of the results -/

/-- A verified image of component 1 or 2 stands in its slot. -/
theorem imageVerified (hc : u.comp = 1 ∨ u.comp = 2) :
    updAnswer "VerifyComplete" [0] (updPut (fset (pkgStored m u p) mgtBase R.MGT_UPD_RESULT 0) { u with phase := 4 }) =
    send (fset { m with mgmt := { m.mgmt with upd := some { u with phase := 4 } }
                        flash := { m.flash with fw := mput m.flash.fw (if u.comp = 1 then u.slot else 2) ⟨p, true⟩ } } mgtBase R.MGT_UPD_RESULT 0)
      (.mgmt "VerifyComplete" [0]) := by
  have hst : pkgStored m u p = { m with flash := { m.flash with fw := mput m.flash.fw (if u.comp = 1 then u.slot else 2) ⟨p, true⟩ } } := by
    rcases hc with hc | hc <;> simp [pkgStored, compSlot, hc]
  rw [hst]
  rfl

theorem revocationVerified (hc : u.comp = 3) :
    updAnswer "VerifyComplete" [0] (updPut (fset (pkgStored m u p) mgtBase R.MGT_UPD_RESULT 0) { u with phase := 4 }) =
    send (fset { m with mgmt := { m.mgmt with upd := some { u with phase := 4 } } } mgtBase R.MGT_UPD_RESULT 0) (.mgmt "VerifyComplete" [0]) := by
  have hst : pkgStored m u p = m := by simp [pkgStored, compSlot, hc]
  rw [hst]
  rfl

theorem verify_fails_as {j : Fin 2} {q : List Instr} {res : Nat} (hon : updOn m j = true) (hu : m.mgmt.upd = some u) (hp : u.phase = 3)
    (hpkg : u.pkg = some p) (hr : pkgResult m u.comp p = res) (h0 : res ≠ 0) (h8 : res < 8) :
    ∃ m', Leads (.verifyComplete j) q m m' ∧ fget m' mgtBase R.MGT_UPD_RESULT = res ∧ m'.flash = m.flash ∧ m'.mgmt.upd = m.mgmt.upd ∧
      m'.outbox = m.outbox ++ [.mgmt "VerifyComplete" [res]] := by
  have h := verifyComplete_fails hon hu hp hpkg (hr ▸ h0)
  rw [hr] at h
  exact ⟨_, leads_eq rfl h, verifyFailed m u.comp p h8⟩

/-- The update and MGT_UPD after an application. -/
theorem applyComplete_leads {j : Fin 2} {q : List Instr} (hon : updOn m j = true) (hu : m.mgmt.upd = some u) (hp : u.phase = 4) :
    ∃ m', Leads (.applyComplete j) q m m' ∧ m'.mgmt.upd = some { u with phase := 1, ready := u.ready || u.comp == 1 } ∧
      fget m' mgtBase R.MGT_UPD_STATE = (if u.ready || u.comp == 1 then 3 else 1) ∧ fget m' mgtBase R.MGT_UPD_RESULT = 0 ∧
      m'.flash = (applied m u).flash ∧ fget m' mgtBase R.MGT_SEC_FACTSVN = fget (applied m u) mgtBase R.MGT_SEC_FACTSVN := by
  refine ⟨_, leads_eq rfl (applyComplete_go hon hu hp), congrArg Mgmt.upd (updShown_mgmt ..), updShown_state _ _ _ _ (by split <;> decide),
    updShown_result _ _ _ _ (by decide), updShown_flash .., ?_⟩
  exact (fget_fset_at (updRecord _ _ 0) mgtBase R.MGT_UPD_STATE R.MGT_SEC_FACTSVN _ (by decide)).trans ((updRecord_regsBut ..).fget (by decide))

/-- A package that a check accepts has a security version that FACTSVN can hold. -/
theorem slotValid_svn {s : Nat} (h : slotValid m s = some p) : p.svn.toNat ≤ 64 := by
  unfold slotValid at h
  obtain ⟨f, hf, rfl⟩ := Option.map_eq_some_iff.mp h
  obtain ⟨-, hv⟩ := Option.filter_eq_some_iff.mp hf
  simp only [pkgValid, Bool.and_eq_true, decide_eq_true_eq] at hv
  obtain ⟨-, ⟨-, hle⟩, -⟩ := hv
  exact hle

/-- The core restarts from the old slot, the factory slot or the recovery loader when the new slot is not valid any more. -/
theorem activateFirmware_fallback {j : Fin 2} (hon : updOn m j = true) (hu : m.mgmt.upd = some u) (hp : u.phase = 1) (hr : u.ready = true)
    (hd : ditchRuns m = true) (hs : slotValid m u.slot = none) : doActivateFirmware j m = bootFrom (leftUpdate m)
      ((if (slotValid m (fget m mgtBase R.MGT_STATUS_SLOT)).isSome then [fget m mgtBase R.MGT_STATUS_SLOT] else []) ++ (slotOrder m 3).1)
      (some u.slot) := by
  rw [activateFirmware_go hon hu hp hr hd, activated_old (by rwa [slotValid_of_flash (leftUpdate_flash m)]),
    slotValid_of_flash (leftUpdate_flash m), slotOrder_of_flash (leftUpdate_flash m)]

end Sys2Proof.Machine
end

section
/-! The settling of O58. -/

open Sys2Proof Sys2Proof.Machine

/-- Settles O58: outside its phase a command is answered so by `updCmd`; in it, each effect is one lemma about the command. -/
theorem pldmFirmwareUpdate : Obligations.PldmFirmwareUpdate := by
  unfold Obligations.PldmFirmwareUpdate
  refine ⟨?_, ?_, ?_, ?_, ?_, ?_, ?_, ?_, ?_, ?_, ?_, ?_, ?_, ?_, ?_, ?_, ?_, ?_, ?_, ?_, ?_, ?_, ?_, ?_, ?_, ?_, ?_, ?_, ?_, ?_, ?_, ?_, ?_, ?_,
    ?_, ?_, ?_, ?_, ?_, ?_, ?_, ?_, ?_, ?_, ?_, ?_, ?_, ?_⟩
  · exact fun i q m hu => leads_eq rfl (updCmd_outside hu)
  · exact fun i u q m hu hp => leads_eq rfl (updCmd_wrong hu (by simp [hp]))
  · exact fun i c q m hu => leads_eq rfl (updCmd_outside hu)
  · exact fun i c u q m hu hp => leads_eq rfl (updCmd_wrong hu (by simp [hp]))
  · exact fun i n q m hu => leads_eq rfl (updCmd_outside hu)
  · exact fun i n u q m hu hp => leads_eq rfl (updCmd_wrong hu (by simp [hp]))
  · exact fun i p q m hu => leads_eq rfl (updCmd_outside hu)
  · exact fun i p u q m hu hp => leads_eq rfl (updCmd_wrong hu (by simp [hp]))
  · exact fun i q m hu => leads_eq rfl (updCmd_outside hu)
  · exact fun i u q m hu hp => leads_eq rfl (updCmd_wrong hu (by simp [hp]))
  · exact fun i q m hu => leads_eq rfl (updCmd_outside hu)
  · exact fun i u q m hu hp => leads_eq rfl (updCmd_wrong hu (by simp [hp]))
  · exact fun i q m hu => leads_eq rfl (updCmd_outside hu)
  · exact fun i u q m hu hp => leads_eq rfl (updCmd_wrong hu (by simp [hp]))
  · exact fun i q m hu => leads_eq rfl (updCmd_outside hu)
  · exact fun i u q m hu hp => leads_eq rfl (updCmd_wrong hu (by simpa using hp))
  · exact fun i q m hu => leads_eq rfl (updCmd_outside hu)
  · exact fun i q m => leads_eq (f := doQueryDeviceIdentifiers i) rfl rfl
  · exact fun i q m h0 h1 h2 => leads_eq rfl (firmwareParameters_none h0 h1 h2)
  · exact fun i a b c q m h0 h1 h2 => leads_eq rfl (firmwareParameters_all h0 h1 h2)
  · exact fun i ep q m hu => leads_eq rfl (requestUpdate_first hu)
  · exact fun i ep u q m hu => leads_eq rfl (requestUpdate_second hu)
  · exact fun i u q m hon hu hp => leads_eq rfl (updCmd_go hon hu (by simp [hp]))
  · intro i c u s q m hon hu hp hc hs
    have hslot : updSlot m = s := by simp [updSlot, hs]
    exact leads_eq rfl ((updateComponent_one hon hu hp hc).trans (hslot ▸ rfl))
  · exact fun i c u q m hon hu hp hc => leads_eq rfl ((updateComponent_of hon hu hp hc (.inl rfl)).trans rfl)
  · exact fun i c u q m hon hu hp hc => leads_eq rfl ((updateComponent_of hon hu hp hc (.inr rfl)).trans rfl)
  · exact fun i c u q m hon hu hp hc => leads_eq rfl (updateComponent_unsupported hon hu hp hc)
  · exact fun i n u q m hon hu hp hn => leads_eq rfl ((requestFirmwareData_go hon hu hp).trans (if_pos hn))
  · exact fun i n u q m hon hu hp hn => leads_eq rfl ((requestFirmwareData_go hon hu hp).trans (if_neg (by omega)))
  · exact fun i p u q m hon hu hp => leads_eq rfl (updCmd_go hon hu (by simp [hp]))
  · intro i u p k q m hon hu hp hc hpkg hf hk hr hs hv hv'
    have hg := keyGood_image (comp := u.comp) hk hr (by omega)
    exact leads_eq rfl ((verifyComplete_passes hon hu hp hpkg hf (pkgResult_good hf hg hs (.inr ⟨hv, hv'⟩))).trans (imageVerified hc))
  · intro i u p k r q m hon hu hp hc hpkg hf hk hr hv hne hs
    have hg := keyGood_revocation (comp := u.comp) hk hr hv hne
    exact leads_eq rfl ((verifyComplete_passes hon hu hp hpkg hf (pkgResult_good hf hg hs (.inl hc))).trans (revocationVerified hc))
  · intro i u p q m hon hu hp hpkg hf
    have hr : pkgResult m u.comp p = 1 + drawn m % 4 := pkgResult_unformatted hf
    exact ⟨_, _, leads_eq rfl (verifyComplete_fails hon hu hp hpkg (by omega)), by omega, by omega, verifyFailed m u.comp p (by omega)⟩
  · intro i u p k q m hon hu hp hpkg hf hbad
    have hg : keyGood m u.comp p = false := by
      rcases hbad with hk | ⟨hk, hr⟩ | ⟨hk, hc, hv⟩
      · exact keyGood_unknown hk
      · exact keyGood_revoked hk hr
      · exact keyGood_own hk hc hv
    exact verify_fails_as hon hu hp hpkg (pkgResult_badKey hf hg) (by decide) (by decide)
  · intro i u p k q m hon hu hp hc hpkg hf hk hr hs
    exact verify_fails_as hon hu hp hpkg (pkgResult_badSig hf (keyGood_image hk hr (by omega)) hs) (by decide) (by decide)
  · intro i u p k r q m hon hu hp hc hpkg hf hk hr hv hne hs
    exact verify_fails_as hon hu hp hpkg (pkgResult_badSig hf (keyGood_revocation hk hr hv hne) hs) (by decide) (by decide)
  · intro i u p k q m hon hu hp hc hpkg hf hk hr hs hv
    have hc3 : u.comp ≠ 3 := by omega
    exact verify_fails_as hon hu hp hpkg (pkgResult_badSvn hf (keyGood_image hk hr hc3) hs hc3 hv) (by decide) (by decide)
  · intro i u q m hon hu hp hc
    obtain ⟨m', hl, hupd, hst, hres, hfl, -⟩ := applyComplete_leads (q := q) hon hu hp
    rw [applied_one hc] at hfl
    exact ⟨m', hl, by simp [hupd, hc], by simp [hst, hc], hres, hfl⟩
  · intro i u p q m hon hu hp hc hv
    obtain ⟨m', hl, hupd, -, hres, hfl, hsvn⟩ := applyComplete_leads (q := q) hon hu hp
    rw [applied_two hc hv] at hfl hsvn
    refine ⟨m', hl, by simp [hupd, hc], hsvn.trans ((fget_fset_same ..).trans (Nat.mod_eq_of_lt ?_)), hres, hfl⟩
    exact Nat.lt_of_le_of_lt (slotValid_svn hv) (by decide)
  · intro i u p r q m hon hu hp hc hpkg hr
    obtain ⟨m', hl, hupd, -, -, hfl, -⟩ := applyComplete_leads (q := q) hon hu hp
    rw [applied_three hc hpkg hr] at hfl
    exact ⟨m', hl, by simp [hupd, hc], congrArg Flash.revoked hfl⟩
  · exact fun i u q m hon hu hp hr => leads_eq rfl (activateFirmware_stays hon hu hp hr)
  · intro i u p q m hon hu hp hr hd hv
    have hv' : slotValid (leftUpdate m) u.slot = some p := (slotValid_of_flash (leftUpdate_flash m) _).trans hv
    obtain ⟨hst, hver, hm, hpend⟩ := activated_new (old := fget m mgtBase R.MGT_STATUS_SLOT) hv'
    refine ⟨_, leads_eq rfl (activateFirmware_go hon hu hp hr hd), hst, hver, ?_, ?_, ?_, ?_, hpend⟩ <;> rw [hm]
    rfl
  · intro i u p q m hon hu hp hr hd hs hold
    have hb := bootFrom_runs ((slotValid_of_flash (leftUpdate_flash m) _).trans hold) (slotOrder m 3).1 (some u.slot)
    refine ⟨_, leads_eq rfl ((activateFirmware_fallback hon hu hp hr hd hs).trans (by rw [hold]; rfl)), hb.state, ?_, hb.version, ?_⟩
    · exact hb.slot.trans (Nat.mod_eq_of_lt (fget_lt ..))
    · exact (congrArg Mgmt.staged hb.rest.mgmt).trans rfl
  · intro i u p q m hon hu hp hr hd hs hold h0 h1 h2
    have hb := bootFrom_runs ((slotValid_of_flash (leftUpdate_flash m) _).trans h2) [] (some u.slot)
    refine ⟨_, leads_eq rfl ((activateFirmware_fallback hon hu hp hr hd hs).trans ?_), hb.state, hb.slot, hb.version, ?_⟩
    · rw [slotOrder_three, slotsAB_none h0 h1, hold, h2]
      rfl
    · exact (congrArg Mgmt.staged hb.rest.mgmt).trans rfl
  · intro i u q m hon hu hp hr hd hs hold h0 h1 h2
    refine ⟨_, leads_eq rfl ((activateFirmware_fallback hon hu hp hr hd hs).trans ?_), bootFrom_nil_state (m := leftUpdate m) (some u.slot), ?_⟩
    · rw [slotOrder_three, slotsAB_none h0 h1, hold, h2]
      rfl
    · rw [bootFrom_nil, faultPin_mgmt]
      rfl
  · exact fun i q m => leads_eq (f := doGetStatus i) rfl rfl
  · intro i u q m hon hu hp
    refine ⟨_, leads_eq rfl (updCmd_go hon hu (by simpa using hp)), congrArg Mgmt.upd (updShown_mgmt ..), updShown_result _ _ _ _ (by decide),
      updShown_state _ _ _ _ (by split <;> decide), (congrArg Flash.fw (updShown_flash ..)).trans (updErase_fw m u)⟩
  · intro i u q m hon hu
    refine ⟨_, leads_eq rfl (updCmd_go hon hu rfl), congrArg Mgmt.upd (updShown_mgmt ..), updShown_result _ _ _ _ (by decide),
      updShown_state _ _ _ _ (by decide), (congrArg Flash.fw (updShown_flash ..)).trans (cancelled_fw m u)⟩
end

section
/-! SUPPORT. The Ditchrider's log, program activation, recovery loader and watchdog (R456 to R463, R470, R472, Table 18-13). -/

namespace Sys2Proof.Machine

variable {m : Mach} {p : Package}

/-! ## The recovery loader -/

/-- The loader has written a package to slot A. -/
def loaderWrote (m : Mach) (pkg : Package) : Mach :=
  { m with flash := { m.flash with fw := mput m.flash.fw 0 ⟨pkg, true⟩ }, mgmt := { m.mgmt with upd := none } }

theorem loaderWrote_slot (m : Mach) (pkg : Package) : slotValid (loaderWrote m pkg) 0 = if pkgValid m pkg then some pkg else none := by
  have hv : pkgValid (loaderWrote m pkg) pkg = pkgValid m pkg := rfl
  unfold slotValid
  rw [show mget (loaderWrote m pkg).flash.fw 0 = some ⟨pkg, true⟩ from (mget_mput ..).trans (if_pos rfl)]
  simp only [Option.filter_some, hv, Bool.true_and]
  split <;> rfl

/-- What follows the write: the result of a package that is not valid, or the package runs and the start goes on. -/
def loaderGoes (m : Mach) (pkg : Package) (env : StartEnv) : Mach := match slotValid m 0 with
  | none => updRecord m 1 (pkgResult m 1 pkg)
  | some p =>
    let m := runFw m 0 p
    let m := if opMode m == 4 then m else faultPin m false
    if fon m aonBase R.AON_LOAD_DONE || !m.boot.power then m
    else startBody { m with boot := { m.boot with timing := opMode m == 0 } } env (fon m aonBase R.AON_RST_CAUSE_COLD)

theorem loader_idle {pkg : Package} {env : StartEnv} (hs : fget m mgtBase R.MGT_STATUS_STATE ≠ 4) : doRecoveryLoaderPackage pkg env m = m :=
  if_pos (bne_iff_ne.mpr hs)

theorem loader_goes {pkg : Package} {env : StartEnv} (hs : fget m mgtBase R.MGT_STATUS_STATE = 4) :
    doRecoveryLoaderPackage pkg env m = loaderGoes (loaderWrote m pkg) pkg env := if_neg (by simp [hs])

theorem loaderGoes_invalid {pkg : Package} {env : StartEnv} (h : slotValid m 0 = none) :
    loaderGoes m pkg env = updRecord m 1 (pkgResult m 1 pkg) := by
  rw [loaderGoes, h]

/-- The mode, the flag of a complete start and the kind of reset are not the core's. -/
theorem loaderRan_fget (m : Mach) (p : Package) {b : Nat} {f : Fld} (h : ¬ bootKey (fkey b f)) :
    fget (faultPin (runFw m 0 p) false) b f = fget m b f :=
  (fget_of_regs (faultPin_regs (runFw m 0 p) false) ..).trans ((runFw_regsBut m 0 p).fget h)

theorem loaderGoes_valid {pkg : Package} {env : StartEnv} (h : slotValid m 0 = some p) (hmode : opMode m ≠ 4) : loaderGoes m pkg env =
    let m' := faultPin (runFw m 0 p) false
    if fon m aonBase R.AON_LOAD_DONE || !m.boot.power then m'
    else startBody { m' with boot := { m'.boot with timing := opMode m == 0 } } env (fon m aonBase R.AON_RST_CAUSE_COLD) := by
  have hran : opMode (runFw m 0 p) = opMode m := (runFw_regsBut m 0 p).fget (by decide)
  have hpin : opMode (faultPin (runFw m 0 p) false) = opMode m := loaderRan_fget m p (by decide)
  have hdone : fon (faultPin (runFw m 0 p) false) aonBase R.AON_LOAD_DONE = fon m aonBase R.AON_LOAD_DONE := by
    rw [fon, loaderRan_fget m p (by decide)]
    rfl
  have hcold : fon (faultPin (runFw m 0 p) false) aonBase R.AON_RST_CAUSE_COLD = fon m aonBase R.AON_RST_CAUSE_COLD := by
    rw [fon, loaderRan_fget m p (by decide)]
    rfl
  have hpow : (faultPin (runFw m 0 p) false).boot.power = m.boot.power := by
    unfold faultPin
    split <;> rfl
  have hne : (opMode m == 4) = false := beq_eq_false_iff_ne.mpr hmode
  unfold loaderGoes
  rw [h]
  simp only [hran, hne, Bool.false_eq_true, if_false, hpin, hdone, hcold, hpow]

theorem keyGood_one (m : Mach) (p : Package) : keyGood m 1 p = match p.key with
    | some k => !bitOf m.flash.revoked k.val
    | none => false := by
  unfold keyGood
  cases p.key with
  | none => rfl
  | some k => exact Bool.and_true _

theorem pkgResult_lt (m : Mach) (c : Nat) (p : Package) : pkgResult m c p < 8 := by
  rw [pkgResult_eq]
  repeat' split
  all_goals omega

/-- A package that a check refuses has a result. -/
theorem pkgResult_refused (hv : pkgValid m p = false) : 1 ≤ pkgResult m 1 p := by
  refine Nat.pos_of_ne_zero fun h0 => ?_
  rw [pkgResult_eq] at h0
  split at h0
  · omega
  rename_i hf
  split at h0
  · omega
  rename_i hk
  split at h0
  · omega
  rename_i hs
  split at h0
  · omega
  rename_i hn
  simp only [Bool.not_eq_true, Bool.not_eq_false', bne_iff_ne, Bool.and_eq_true, Bool.or_eq_true, decide_eq_true_eq, not_and, not_or,
    Nat.not_lt] at hf hk hs hn
  obtain ⟨hlo, hhi⟩ := hn (by decide)
  rw [keyGood_one] at hk
  refine absurd hv ?_
  unfold pkgValid
  cases hkey : p.key with
  | none => simp [hkey] at hk
  | some k => simp_all

/-! ## Reads of the log -/

/-- The operands of a read in MGT_LOGRD. -/
def logAsked (m : Mach) (seq : BitVec 32) (boot : BitVec 16) (pers : Bool) : Mach :=
  fset (fset (fset m mgtBase R.MGT_LOGRD_SEQ seq.toNat) mgtBase R.MGT_LOGRD_BOOT boot.toNat) mgtBase R.MGT_LOGRD_RING (b2n pers)

/-- The record that a read finds. -/
def logHit (m : Mach) (seq : BitVec 32) (boot : BitVec 16) (pers : Bool) : Option LogRec :=
  (ringOf m pers).find? fun r => recSeq r == seq.toNat && (!pers || r.boot == boot.toNat)

/-- Is the record that a read names still to come? -/
def logLater (m : Mach) (seq : BitVec 32) (boot : BitVec 16) (pers : Bool) : Bool :=
  let now := fget m mgtBase R.MGT_LOGSTAT_BOOT
  let waits := (m.log.held.any fun r => recSeq r == seq.toNat) || (pers && m.log.pend.any fun r => recSeq r == seq.toNat)
  if pers then now < boot.toNat || (now == boot.toNat && (m.log.seq ≤ seq.toNat || waits)) else m.log.seq ≤ seq.toNat || waits

theorem logHit_ring {seq : BitVec 32} {boot : BitVec 16} (h : (m.log.ring.any fun r => recSeq r == seq.toNat) = false) :
    logHit m seq boot false = none := by
  refine List.find?_eq_none.mpr fun r hr => ?_
  simpa using List.any_eq_false.mp h r hr

theorem logHit_pers {seq : BitVec 32} {boot : BitVec 16} (h : (m.log.pers.any fun r => recSeq r == seq.toNat && r.boot == boot.toNat) = false) :
    logHit m seq boot true = none := List.find?_eq_none.mpr fun r hr => List.any_eq_false.mp h r hr

/-- The words that a read shows. -/
def wordsShown (m : Mach) (n : Nat) (ws : List Nat) : Mach := forN n (fun w m => fset m (mgtBase + 8 * w) R.MGT_LOGDAT_WORD (ws.getD w 0)) m

theorem wordsShown_log (m : Mach) (n : Nat) (ws : List Nat) : (wordsShown m n ws).log = m.log := by
  unfold wordsShown
  exact forN_same Mach.log (fun _ _ => fset_log ..) n m

theorem fget_wordsShown (m : Mach) (ws : List Nat) {n w : Nat} (hw : w < n) :
    fget (wordsShown m n ws) (mgtBase + 8 * w) R.MGT_LOGDAT_WORD = ws.getD w 0 % 2 ^ 64 := by
  induction n with
  | zero => omega
  | succ n ih =>
    rw [wordsShown, forN]
    by_cases h : w = n
    · rw [h]
      exact fget_fset_same ..
    · exact (fget_fset_other _ _ _ _ _ _ (by omega)).trans (ih (by omega))

section
variable {seq : BitVec 32} {boot : BitVec 16} {pers : Bool}

/-- A read shows the words of the record that it finds, and where the record stands. -/
theorem logRead_eq : doLogRead seq boot pers m = fset (wordsShown (logAsked m seq boot pers) 8 (((logHit m seq boot pers).map ringWords).getD []))
    mgtBase R.MGT_LOGRD_STATUS (if (logHit m seq boot pers).isSome then 0 else if logLater m seq boot pers then 2 else 1) := by
  have hb : fget (logAsked m seq boot pers) mgtBase R.MGT_LOGSTAT_BOOT = fget m mgtBase R.MGT_LOGSTAT_BOOT := by
    unfold logAsked
    rw [fget_fset_at _ _ _ _ _ (by decide), fget_fset_at _ _ _ _ _ (by decide), fget_fset_at _ _ _ _ _ (by decide)]
  unfold logLater
  rw [← hb]
  rfl

theorem logRead_status : fget (doLogRead seq boot pers m) mgtBase R.MGT_LOGRD_STATUS =
    if (logHit m seq boot pers).isSome then 0 else if logLater m seq boot pers then 2 else 1 := by
  rw [logRead_eq, fget_fset_same]
  refine Nat.mod_eq_of_lt ?_
  repeat' split
  all_goals decide

theorem logRead_word {w : Nat} (hw : w < 8) : fget (doLogRead seq boot pers m) (mgtBase + 8 * w) R.MGT_LOGDAT_WORD =
    (((logHit m seq boot pers).map ringWords).getD []).getD w 0 % 2 ^ 64 := by
  have hne : (mgtBase + R.MGT_LOGRD_STATUS.off) * 8 + R.MGT_LOGRD_STATUS.lo ≠
      (mgtBase + 8 * w + R.MGT_LOGDAT_WORD.off) * 8 + R.MGT_LOGDAT_WORD.lo := by
    change (mgtBase + 0x78) * 8 + 51 ≠ (mgtBase + 8 * w + 0x80) * 8 + 0
    omega
  rw [logRead_eq, fget_fset_other _ _ _ _ _ _ hne]
  exact fget_wordsShown _ _ hw

/-- A read that finds no record, and the record is still to come or gone. -/
theorem logRead_missed (h : logHit m seq boot pers = none) :
    fget (doLogRead seq boot pers m) mgtBase R.MGT_LOGRD_STATUS = (if logLater m seq boot pers then 2 else 1) ∧
      ∀ w ∈ List.range 8, fget (doLogRead seq boot pers m) (mgtBase + 8 * w) R.MGT_LOGDAT_WORD = 0 := by
  refine ⟨logRead_status.trans (by rw [h]; rfl), fun w hw => (logRead_word (List.mem_range.mp hw)).trans ?_⟩
  rw [h]
  rfl

theorem logRead_log : (doLogRead seq boot pers m).log = m.log := by
  rw [logRead_eq, fset_log, wordsShown_log]
  rfl

end

/-! ## Program activation -/

theorem oldBusy_of {m m' : Mach} {sd : Nat} (he : m'.eng.eng = m.eng.eng) (hp : m'.ports = m.ports)
    (ha : fget m' (seBase sd) R.SE_PSCTL_ACTIVE = fget m (seBase sd) R.SE_PSCTL_ACTIVE) : oldBusy m' sd = oldBusy m sd := by
  unfold oldBusy engOf readyOf
  rw [he, hp, ha]

/-- PROGACT has been begun on both sides, whose clusters are held On. -/
def progBegun (m : Mach) : Mach :=
  fset (fset (fset { m with mgmt := { m.mgmt with progact := [0, 1] } } 0 R.PWR_SLEEP_HOLD 1) 8 R.PWR_SLEEP_HOLD 1) mgtBase R.MGT_UPD_PROGBUSY 1

/-- A cell that the beginning of PROGACT does not write. -/
theorem fget_progBegun (m : Mach) {b : Nat} {f : Fld} (h0 : fkey 0 R.PWR_SLEEP_HOLD ≠ fkey b f) (h1 : fkey 8 R.PWR_SLEEP_HOLD ≠ fkey b f)
    (h2 : fkey mgtBase R.MGT_UPD_PROGBUSY ≠ fkey b f) : fget (progBegun m) b f = fget m b f := by
  unfold progBegun
  rw [fget_fset_other _ _ _ _ _ _ h2, fget_fset_other _ _ _ _ _ _ h1, fget_fset_other _ _ _ _ _ _ h0]
  rfl

theorem progBegun_active (m : Mach) (sd : Fin 2) :
    fget (progBegun m) (seBase sd) R.SE_PSCTL_ACTIVE = fget m (seBase sd) R.SE_PSCTL_ACTIVE := by
  match sd with
  | 0 => exact fget_progBegun m (by decide) (by decide) (by decide)
  | 1 => exact fget_progBegun m (by decide) (by decide) (by decide)

theorem progBegun_oldBusy (m : Mach) (sd : Fin 2) : oldBusy (progBegun m) sd = oldBusy m sd := oldBusy_of rfl rfl (progBegun_active m sd)

theorem progBegun_busy (m : Mach) : fget (progBegun m) mgtBase R.MGT_UPD_PROGBUSY = 1 := by
  rw [progBegun, fget_fset_same]
  rfl

/-- The hypotheses of a PROGACT that begins: a staged image, both sides up, and their clusters On. -/
structure ProgReady (m : Mach) (image : Nat) : Prop where
  runs : ditchRuns m = true
  idle : fon m mgtBase R.MGT_UPD_PROGBUSY = false
  staged : m.mgmt.staged = some image
  up (sd : Fin 2) : sideUp m sd = true
  on (sd : Fin 2) : domSt m (10 + 6 * sd) = 2

/-- The cluster of a side that is up is held awake. -/
def heldUp (sd : Fin 2) (m : Mach) : Mach := if sideUp m sd then doHold sd m else m

theorem heldUp_awake {sd : Fin 2} (hu : sideUp m sd = true) (hs : domSt m (10 + 6 * sd) = 2) :
    heldUp sd m = fset m (8 * sd) R.PWR_SLEEP_HOLD 1 := (if_pos hu).trans (hold_awake hs)

/-- PROGACT is marked on both sides. -/
def progMarked (m : Mach) : Mach := { m with mgmt := { m.mgmt with progact := [0, 1] } }

theorem progact_begins {image : Nat} (h : ProgReady m image) : doProgact m = progGo (progBegun m) := by
  have hgo : ¬ (m.mgmt.staged.isNone || fon m mgtBase R.MGT_UPD_PROGBUSY || !ditchRuns m) = true := by simp [h.staged, h.idle, h.runs]
  have hs : [0, 1].filter (fun s => sideUp m s) = [0, 1] := by
    have hu0 : sideUp m 0 = true := h.up 0
    have hu1 : sideUp m 1 = true := h.up 1
    simp [hu0, hu1]
  have e0 : heldUp 0 (progMarked m) = fset (progMarked m) 0 R.PWR_SLEEP_HOLD 1 := heldUp_awake (h.up 0) (h.on 0)
  have hu1 : sideUp (fset (progMarked m) 0 R.PWR_SLEEP_HOLD 1) 1 = true := by
    rw [sideUp, fget_fset_other _ _ _ _ _ _ (by decide)]
    exact h.up 1
  have hd1 : domSt (fset (progMarked m) 0 R.PWR_SLEEP_HOLD 1) 16 = 2 := (fget_fset_other _ _ _ _ _ _ (by decide)).trans (h.on 1)
  have e1 := heldUp_awake (sd := 1) hu1 hd1
  unfold doProgact
  rw [if_neg hgo, hs]
  change progGo (fset (heldUp 1 (heldUp 0 (progMarked m))) mgtBase R.MGT_UPD_PROGBUSY 1) = _
  rw [e0, e1]
  rfl

/-- A side whose old program still runs calls waits. -/
theorem progStep_waits {sd : Nat} (h : oldBusy m sd ≠ 0) (hu : sideUp m sd = true) : progStep sd m = m := by
  unfold progStep
  split
  · split
    · rfl
    · rw [if_neg (by simp [hu]), if_pos (by simp [h])]
  · rfl

theorem progStep_other {sd s : Nat} {rest : List Nat} (hp : m.mgmt.progact = s :: rest) (hne : s ≠ sd) : progStep sd m = m := by
  unfold progStep
  split
  · rename_i s' rest' image hp' hs
    rw [hp] at hp'
    obtain ⟨rfl, -⟩ := List.cons.inj hp'
    exact if_pos (bne_iff_ne.mpr hne)
  · rfl

/-- A side is written and swapped, and leaves the list. -/
def progWritten (m : Mach) (sd image : Nat) (rest : List Nat) : Mach :=
  { progSwapTo m sd image with mgmt := { (progSwapTo m sd image).mgmt with progact := rest } }

theorem progStep_swaps {sd image : Nat} {rest : List Nat} (hp : m.mgmt.progact = sd :: rest) (hs : m.mgmt.staged = some image)
    (hu : sideUp m sd = true) (hd : domSt m (10 + 6 * sd) = 2) (ho : oldBusy m sd = 0) : progStep sd m = progWritten m sd image rest := by
  unfold progStep
  rw [hp, hs]
  simp only [bne_self_eq_false, Bool.false_eq_true, if_false, hu, hd, ho]
  rfl

/-- The program banks of a side have been swapped, and nothing else but its programs and their generation differs. -/
structure Swapped (sd : Fin 2) (m m' : Mach) : Prop where
  regs : RegsBut (fun k => k = fkey (seBase sd) R.SE_PSCTL_ACTIVE ∨ k = fkey (seBase sd) R.SE_PSCTL_ACTGEN) m m'
  active : fget m' (seBase sd) R.SE_PSCTL_ACTIVE = 1 - fget m (seBase sd) R.SE_PSCTL_ACTIVE
  engs : m'.eng.eng = m.eng.eng
  ports : m'.ports = m.ports
  staged : m'.mgmt.staged = m.mgmt.staged

theorem bankLoad_regs (m : Mach) (sd b base : Nat) (ws : List (Nat × Nat)) : (bankLoad m sd b base ws).regs = m.regs := rfl

theorem bankLoad_engs (m : Mach) (sd b base : Nat) (ws : List (Nat × Nat)) : (bankLoad m sd b base ws).eng.eng = m.eng.eng := rfl
theorem bankLoad_ports (m : Mach) (sd b base : Nat) (ws : List (Nat × Nat)) : (bankLoad m sd b base ws).ports = m.ports := rfl
theorem bankLoad_mgmt (m : Mach) (sd b base : Nat) (ws : List (Nat × Nat)) : (bankLoad m sd b base ws).mgmt = m.mgmt := rfl

theorem sePsctlSwap_swapped {sd : Fin 2} (ho : oldBusy m sd = 0) : Swapped sd m (doSePsctlSwap sd m) := by
  have he : doSePsctlSwap sd m = fset (fset m (seBase sd) R.SE_PSCTL_ACTIVE (1 - fget m (seBase sd) R.SE_PSCTL_ACTIVE)) (seBase sd)
      R.SE_PSCTL_ACTGEN (fget m (seBase sd) R.SE_PSCTL_NEXTGEN) := if_neg (by simp [ho])
  rw [he]
  refine ⟨.fset (.fset (.refl m) (.inl rfl) _) (.inr rfl) _, ?_, rfl, rfl, rfl⟩
  rw [fget_fset_at _ _ _ _ _ (by decide), fget_fset_same]
  exact Nat.mod_eq_of_lt (Nat.lt_of_le_of_lt (Nat.sub_le 1 _) (by decide))

theorem progWritten_swapped {sd : Fin 2} {image : Nat} (rest : List Nat) (ho : oldBusy m sd = 0) : Swapped sd m (progWritten m sd image rest) := by
  have hj : (BitVec.ofNat 1 sd.val).toFin = sd := by
    match sd with
    | 0 => rfl
    | 1 => rfl
  have hsw : Swapped sd m (progSwapTo m sd image) := by
    unfold progSwapTo
    rw [hj]
    have hr := bankLoad_regs m sd (1 - fget m (seBase sd) R.SE_PSCTL_ACTIVE) (image + 1) []
    have he := bankLoad_engs m sd (1 - fget m (seBase sd) R.SE_PSCTL_ACTIVE) (image + 1) []
    have hp := bankLoad_ports m sd (1 - fget m (seBase sd) R.SE_PSCTL_ACTIVE) (image + 1) []
    have hm := bankLoad_mgmt m sd (1 - fget m (seBase sd) R.SE_PSCTL_ACTIVE) (image + 1) []
    generalize bankLoad m sd (1 - fget m (seBase sd) R.SE_PSCTL_ACTIVE) (image + 1) [] = b at hr he hp hm
    have hact : fget b (seBase sd) R.SE_PSCTL_ACTIVE = fget m (seBase sd) R.SE_PSCTL_ACTIVE := fget_of_regs hr ..
    have h := sePsctlSwap_swapped ((oldBusy_of he hp hact).trans ho)
    exact ⟨(RegsBut.of_regs hr).trans h.regs, h.active.trans (by rw [hact]), h.engs.trans he, h.ports.trans hp, h.staged.trans (by rw [hm])⟩
  unfold progWritten
  generalize progSwapTo m sd image = b at hsw
  exact ⟨hsw.regs.trans (.of_regs rfl), hsw.active, hsw.engs, hsw.ports, hsw.staged⟩

theorem progWritten_progact (m : Mach) (sd image : Nat) (rest : List Nat) : (progWritten m sd image rest).mgmt.progact = rest := rfl

/-- A cell of another block keeps its value. -/
theorem Swapped.fget_other {sd : Fin 2} {m' : Mach} (h : Swapped sd m m') {b : Nat} {f : Fld} (h1 : fkey b f ≠ fkey (seBase sd) R.SE_PSCTL_ACTIVE)
    (h2 : fkey b f ≠ fkey (seBase sd) R.SE_PSCTL_ACTGEN) : fget m' b f = fget m b f := h.regs.fget (by simp [h1, h2])

theorem progBegun_progact (m : Mach) : (progBegun m).mgmt.progact = [0, 1] := rfl

theorem progBegun_up (m : Mach) (sd : Nat) : sideUp (progBegun m) sd = sideUp m sd := by
  rw [sideUp, fget_progBegun m (by decide) (by decide) (by decide)]
  rfl

theorem progBegun_runs (m : Mach) : ditchRuns (progBegun m) = ditchRuns m := by
  rw [ditchRuns, fget_progBegun m (by decide) (by decide) (by decide)]
  rfl

theorem progBegun_on (m : Mach) (sd : Fin 2) : domSt (progBegun m) (10 + 6 * sd) = domSt m (10 + 6 * sd) := by
  match sd with
  | 0 => exact fget_progBegun m (by decide) (by decide) (by decide)
  | 1 => exact fget_progBegun m (by decide) (by decide) (by decide)

/-- What a running PROGACT does at the sides, and the end when both are written. -/
theorem progGo_running {a : Mach} (hb : fget a mgtBase R.MGT_UPD_PROGBUSY = 1) (hr : ditchRuns a = true) : progGo a =
    if (progStep 1 (progStep 0 a)).mgmt.progact.isEmpty then
      fset { progStep 1 (progStep 0 a) with mgmt := { (progStep 1 (progStep 0 a)).mgmt with staged := none } } mgtBase R.MGT_UPD_PROGBUSY 0
    else progStep 1 (progStep 0 a) := if_neg (by simp [fon, hb, hr])

theorem progact_waits {image : Nat} (h : ProgReady m image) (ho : ∀ sd < 2, oldBusy m sd ≠ 0) : doProgact m = progBegun m := by
  have h0 : progStep 0 (progBegun m) = progBegun m :=
    progStep_waits ((progBegun_oldBusy m 0).trans_ne (ho 0 (by decide))) ((progBegun_up m 0).trans (h.up 0))
  have h1 : progStep 1 (progBegun m) = progBegun m := progStep_other (progBegun_progact m) (by decide)
  rw [progact_begins h, progGo_running (progBegun_busy m) ((progBegun_runs m).trans h.runs), h0, h1]
  rfl

/-- PROGACT has written and swapped Side A. -/
def progHalf (m : Mach) (image : Nat) : Mach := progWritten (progBegun m) 0 image [1]

/-- PROGACT has written and swapped both sides. -/
def progDone (m : Mach) (image : Nat) : Mach := progWritten (progHalf m image) 1 image []

theorem progDone_progact (m : Mach) (image : Nat) : (progDone m image).mgmt.progact = [] := by
  rw [progDone]
  exact progWritten_progact (progHalf m image) 1 image []

/-- PROGACT has ended, in a state where both sides are written. -/
def progEnded (m : Mach) : Mach := fset { m with mgmt := { m.mgmt with staged := none } } mgtBase R.MGT_UPD_PROGBUSY 0

theorem progEnded_mgmt (m : Mach) : (progEnded m).mgmt = { m.mgmt with staged := none } := by rw [progEnded, fset_mgmt]

theorem progEnded_busy (m : Mach) : fget (progEnded m) mgtBase R.MGT_UPD_PROGBUSY = 0 := by
  rw [progEnded, fget_fset_same]
  rfl

theorem progEnded_active (m : Mach) (sd : Fin 2) : fget (progEnded m) (seBase sd) R.SE_PSCTL_ACTIVE = fget m (seBase sd) R.SE_PSCTL_ACTIVE := by
  match sd with
  | 0 => exact fget_fset_other _ _ _ _ _ _ (by decide)
  | 1 => exact fget_fset_other _ _ _ _ _ _ (by decide)

section
variable {image : Nat} (h : ProgReady m image) (ho : ∀ sd < 2, oldBusy m sd = 0)
include ho

theorem progHalf_swapped : Swapped 0 (progBegun m) (progHalf m image) :=
  progWritten_swapped [1] ((progBegun_oldBusy m 0).trans (ho 0 (by decide)))

theorem progHalf_active : fget (progHalf m image) (seBase 1) R.SE_PSCTL_ACTIVE = fget m (seBase 1) R.SE_PSCTL_ACTIVE :=
  ((progHalf_swapped ho).fget_other (by decide) (by decide)).trans (progBegun_active m 1)

theorem progHalf_oldBusy : oldBusy (progHalf m image) 1 = 0 :=
  (oldBusy_of (progHalf_swapped ho).engs (progHalf_swapped ho).ports ((progHalf_swapped ho).fget_other (by decide) (by decide))).trans
    ((progBegun_oldBusy m 1).trans (ho 1 (by decide)))

theorem progDone_swapped : Swapped 1 (progHalf m image) (progDone m image) := progWritten_swapped [] (progHalf_oldBusy ho)

include h

theorem progStep_first : progStep 0 (progBegun m) = progHalf m image :=
  progStep_swaps (progBegun_progact m) h.staged ((progBegun_up m 0).trans (h.up 0)) ((progBegun_on m 0).trans (h.on 0))
    ((progBegun_oldBusy m 0).trans (ho 0 (by decide)))

theorem progStep_second : progStep 1 (progHalf m image) = progDone m image := by
  have hs := progHalf_swapped (image := image) ho
  have hup : sideUp (progHalf m image) 1 = true := by
    rw [sideUp, hs.fget_other (by decide) (by decide)]
    exact (progBegun_up m 1).trans (h.up 1)
  have hon : domSt (progHalf m image) 16 = 2 := (hs.fget_other (by decide) (by decide)).trans ((progBegun_on m 1).trans (h.on 1))
  exact progStep_swaps (progWritten_progact ..) (hs.staged.trans h.staged) hup hon (progHalf_oldBusy ho)

/-- PROGACT ends at once where no call runs on the old program. -/
theorem progact_swaps : doProgact m = progEnded (progDone m image) := by
  rw [progact_begins h, progGo_running (progBegun_busy m) ((progBegun_runs m).trans h.runs), progStep_first h ho, progStep_second h ho]
  rfl

end

/-- The swapped banks in the state that ends PROGACT. -/
theorem progDone_active (image : Nat) (ho : ∀ sd < 2, oldBusy m sd = 0) (sd : Fin 2) :
    fget (progDone m image) (seBase sd) R.SE_PSCTL_ACTIVE = 1 - fget m (seBase sd) R.SE_PSCTL_ACTIVE := by
  have h0 := progHalf_swapped (image := image) ho
  have h1 := progDone_swapped (image := image) ho
  match sd with
  | 0 => exact (h1.fget_other (by decide) (by decide)).trans (h0.active.trans (congrArg (1 - ·) (progBegun_active m 0)))
  | 1 => exact h1.active.trans (congrArg (1 - ·) (progHalf_active ho))

/-! ## The persistent ring -/

theorem logFlush_short (h : m.log.pers.length + m.log.pend.length ≤ 1048576) : logFlush m =
    count { m with log := { m.log with pers := m.log.pers ++ m.log.pend, pend := [] } } mgtBase 0x03 (b2n (!m.log.pend.isEmpty)) := by
  have hn : ¬ persMax < (m.log.pers ++ m.log.pend).length := by
    rw [List.length_append, persMax]
    omega
  simp only [logFlush, if_neg hn]

theorem logFlush_wraps (h : 1048576 < m.log.pers.length + m.log.pend.length) : logFlush m =
    count { m with log := { m.log with pers := (m.log.pers ++ m.log.pend).drop 1024, pend := [] } } mgtBase 0x03 (b2n (!m.log.pend.isEmpty)) := by
  have hn : persMax < (m.log.pers ++ m.log.pend).length := by rwa [List.length_append, persMax]
  simp only [logFlush, if_pos hn]

theorem count_log (m : Mach) (b c n : Nat) : (count m b c n).log = m.log := count_same Mach.log (fun _ _ _ _ => rfl) m b c n

/-- A record joins both rings with room in each. -/
theorem logWrite_joins {r : LogRec} (hce : r.ceOnly = false) (hring : m.log.ring.length < 65536) (hpend : m.log.pend.length < 127) : logWrite m r =
    { count m mgtBase 0x02 with log := { (count m mgtBase 0x02).log with ring := m.log.ring ++ [r], pend := m.log.pend ++ [r] } } := by
  have hl := count_log m mgtBase 0x02 1
  have hr : ¬ 65536 < (m.log.ring ++ [r]).length := by simp; omega
  have hp : ¬ 128 ≤ (m.log.pend ++ [r]).length := by simp; omega
  unfold logWrite
  simp only [hl, hce, if_neg hr, if_neg hp, Bool.false_eq_true, if_false]

/-! ## Security versions -/

theorem svnBlow_both {p f : Package} (hp : fwOf m = some p) (hf : slotValid m 2 = some f) :
    svnBlow m = { m with flash := { m.flash with svnFuse := max m.flash.svnFuse (min p.svn.toNat f.svn.toNat) } } := by
  rw [svnBlow, hp, hf]

theorem svnBlow_none (h : fwOf m = none ∨ slotValid m 2 = none) : svnBlow m = m := by
  unfold svnBlow
  split
  · simp_all
  · rfl

theorem keeperMsg_off {name : String} {i : Nat} {go : Mach → Mach} (h : mgmtOn m i = false) : keeperMsg name i go m = m := by
  simp [keeperMsg, h]

theorem keeperMsg_denied {name : String} {i : Nat} {go : Mach → Mach} (h : mgmtOn m i = true)
    (hk : bitOf (fget m mgtBase R.MGT_IFCTL_KEEPER) i = false) : keeperMsg name i go m = send m (.mgmt (name ++ " DENIED") []) := by
  simp [keeperMsg, h, hk]

theorem keeperMsg_go {name : String} {i : Nat} {go : Mach → Mach} (h : mgmtOn m i = true)
    (hk : bitOf (fget m mgtBase R.MGT_IFCTL_KEEPER) i = true) : keeperMsg name i go m = go m := by
  simp [keeperMsg, h, hk]

/-! ## The watchdog -/

/-- An expiry has been counted. -/
def wdCounted (m : Mach) : Mach := fsat m mgtBase R.MGT_WD_EXPIRIES

/-- The record and the notice of an expiry, with the level that it leaves. -/
def wdReport (m : Mach) : Mach :=
  notice (eventRecord m 8 0 0 0 (fget m mgtBase R.MGT_WD_LEVEL) []) 0x10 0 (fget m mgtBase R.MGT_WD_LEVEL)

/-- The slot, in a list, if it is valid. -/
def slotIf (m : Mach) (s : Nat) : List Nat := if (slotValid m s).isSome then [s] else []

theorem slotIf_some {s : Nat} (h : slotValid m s = some p) : slotIf m s = [s] := by rw [slotIf, h]; rfl
theorem slotIf_none {s : Nat} (h : slotValid m s = none) : slotIf m s = [] := by rw [slotIf, h]; rfl

/-- The core restarts after an expiry, at a level. -/
def wdRestarted (m : Mach) (ss : List Nat) (l : Nat) : Mach := wdReport (fset (bootFrom (wdCounted m) ss none) mgtBase R.MGT_WD_LEVEL l)

section
variable {env : StartEnv}

theorem watchdog_idle (h : ditchRuns m = false ∨ m.mgmt.suspended = true) : doWatchdogExpiry env m = m := by
  refine if_pos ?_
  rcases h with h | h <;> simp [h]

variable (hd : ditchRuns m = true) (hs : m.mgmt.suspended = false)
include hd hs

theorem watchdog_zero (hl : fget m mgtBase R.MGT_WD_LEVEL = 0) : doWatchdogExpiry env m =
    wdRestarted m (slotIf m (fget m mgtBase R.MGT_STATUS_SLOT) ++ (slotOrder m 3).1) 1 := by
  have hgo : ¬ (!ditchRuns m || m.mgmt.suspended) = true := by simp [hd, hs]
  unfold doWatchdogExpiry
  rw [if_neg hgo, hl]
  rfl

theorem watchdog_one (hl : fget m mgtBase R.MGT_WD_LEVEL = 1) : doWatchdogExpiry env m =
    wdRestarted m ((if fget m mgtBase R.MGT_STATUS_SLOT < 2 then slotIf m (1 - fget m mgtBase R.MGT_STATUS_SLOT) else slotsAB m) ++ slotIf m 2 ++
      slotIf m (fget m mgtBase R.MGT_STATUS_SLOT)) 2 := by
  have hgo : ¬ (!ditchRuns m || m.mgmt.suspended) = true := by simp [hd, hs]
  unfold doWatchdogExpiry
  rw [if_neg hgo, hl]
  rfl

theorem watchdog_two (hl : fget m mgtBase R.MGT_WD_LEVEL = 2) : doWatchdogExpiry env m =
    if fon m mgtBase R.MGT_WD_WARM then warmReset (wdReport (fset (wdCounted m) mgtBase R.MGT_WD_LEVEL 0)) env 7
    else wdReport (fset (fset (wdCounted m) mgtBase R.MGT_STATUS_STATE 3) mgtBase R.MGT_WD_LEVEL 3) := by
  have hgo : ¬ (!ditchRuns m || m.mgmt.suspended) = true := by simp [hd, hs]
  have hw : fon (wdCounted m) mgtBase R.MGT_WD_WARM = fon m mgtBase R.MGT_WD_WARM := congrArg (· == 1) (fget_fset_at _ _ _ _ _ (by decide))
  unfold doWatchdogExpiry
  rw [if_neg hgo, hl, ← hw]
  rfl

end

theorem fget_wdReport (m : Mach) {b : Nat} {f : Fld} (h : fkey b f ≠ dropKey) : fget (wdReport m) b f = fget m b f :=
  fget_eventRecord m _ _ _ _ _ _ b f h

theorem wdReport_events (m : Mach) : (wdReport m).events =
    m.events ++ [⟨0x10, 0x10 + fget m mgtBase R.MGT_WD_LEVEL % 2 ^ 24 * 65536, false⟩] :=
  congrArg (· ++ [(⟨0x10, 0x10 + fget m mgtBase R.MGT_WD_LEVEL % 2 ^ 24 * 65536, false⟩ : Event)]) (eventRecord_events m ..)

theorem wdReport_boot (m : Mach) : (wdReport m).boot = m.boot := (eventRecord_reportOnly m ..).boot

section
variable {ss : List Nat} {l : Nat}

theorem wdRestarted_level (hl : l < 4) : fget (wdRestarted m ss l) mgtBase R.MGT_WD_LEVEL = l := by
  rw [wdRestarted, fget_wdReport _ (by decide), fget_fset_same]
  exact Nat.mod_eq_of_lt hl

/-- The registers of the core after a restart at a level. -/
theorem fget_wdRestarted {f : Fld} (h : fkey mgtBase f ≠ dropKey) (hf : R.MGT_WD_LEVEL.off * 8 + R.MGT_WD_LEVEL.lo ≠ f.off * 8 + f.lo) :
    fget (wdRestarted m ss l) mgtBase f = fget (bootFrom (wdCounted m) ss none) mgtBase f := by
  rw [wdRestarted, fget_wdReport _ h, fget_fset_at _ _ _ _ _ hf]

theorem wdRestarted_runs {s : Nat} (h : slotValid m s = some p) (hl : l < 4) :
    let m' := wdRestarted m (s :: ss) l
    fget m' mgtBase R.MGT_WD_LEVEL = l ∧ fget m' mgtBase R.MGT_STATUS_STATE = 1 ∧ fget m' mgtBase R.MGT_STATUS_SLOT = s % 4 ∧
      fget m' mgtBase R.MGT_STATUS_VERSION = p.version.toNat ∧ m'.events = m.events ++ [⟨0x10, 0x10 + l * 65536, false⟩] := by
  have hb : Runs (wdCounted m) s p (bootFrom (wdCounted m) (s :: ss) none) :=
    bootFrom_runs (m := wdCounted m) h ss none
  refine ⟨wdRestarted_level hl, (fget_wdRestarted (by decide) (by decide)).trans hb.state, (fget_wdRestarted (by decide) (by decide)).trans hb.slot,
    (fget_wdRestarted (by decide) (by decide)).trans hb.version, ?_⟩
  rw [wdRestarted, wdReport_events, fget_fset_same, fset_events, hb.events, show l % 2 ^ R.MGT_WD_LEVEL.w = l from Nat.mod_eq_of_lt hl,
    Nat.mod_eq_of_lt (by omega : l < 2 ^ 24)]
  rfl

theorem wdRestarted_loader (hl : l < 4) : fget (wdRestarted m [] l) mgtBase R.MGT_WD_LEVEL = l ∧
    fget (wdRestarted m [] l) mgtBase R.MGT_STATUS_STATE = 4 ∧ (wdRestarted m [] l).boot.faultLow = true := by
  refine ⟨wdRestarted_level hl, (fget_wdRestarted (by decide) (by decide)).trans (bootFrom_nil_state none), ?_⟩
  rw [wdRestarted, wdReport_boot, fset_boot, bootFrom_nil]
  exact faultPin_low _ true

end

/-! ## A held core restarts -/

theorem heldRestart_go (h : fget m mgtBase R.MGT_STATUS_STATE = 3) : doWatchdogHeldRestart m =
    fset (bootFrom m (slotOrder m 3).1 (slotOrder m 3).2) mgtBase R.MGT_WD_LEVEL 1 := if_neg (by simp [h])

/-- A held core runs the first slot of the order. -/
theorem heldRestart_runs {s : Nat} {ss : List Nat} (h : fget m mgtBase R.MGT_STATUS_STATE = 3) (ho : (slotOrder m 3).1 = s :: ss)
    (hv : slotValid m s = some p) :
    let m' := doWatchdogHeldRestart m
    fget m' mgtBase R.MGT_STATUS_STATE = 1 ∧ fget m' mgtBase R.MGT_STATUS_SLOT = s % 4 ∧ fget m' mgtBase R.MGT_STATUS_VERSION = p.version.toNat ∧
      fget m' mgtBase R.MGT_WD_LEVEL = 1 := by
  intro m'
  have hb := bootFrom_runs hv ss (slotOrder m 3).2
  simp only [m', heldRestart_go h, ho]
  rw [fget_fset_at _ _ _ _ _ (by decide), fget_fset_at _ _ _ _ _ (by decide), fget_fset_at _ _ _ _ _ (by decide), fget_fset_same]
  exact ⟨hb.state, hb.slot, hb.version, rfl⟩

theorem slotsAB_both {a b : Package} (ha : slotValid m 0 = some a) (hb : slotValid m 1 = some b) :
    slotsAB m = if a.version.toNat < b.version.toNat then [1, 0] else [0, 1] := by rw [slotsAB, ha, hb]

theorem slotsAB_single {s : Fin 2} (hs : slotValid m s = some p) (ho : slotValid m (1 - s.val) = none) : slotsAB m = [s.val] := by
  match s with
  | 0 =>
    rw [slotsAB, show slotValid m 0 = some p from hs, show slotValid m 1 = none from ho]
    rfl
  | 1 =>
    rw [slotsAB, show slotValid m 1 = some p from hs, show slotValid m 0 = none from ho]
    rfl

end Sys2Proof.Machine
end

section
/-! The settling of O60. -/

open Sys2Proof Sys2Proof.Machine

/-- Settles O60: the starts of the core rest on `bootFrom_runs`, a log read on what it finds, and PROGACT on one step of each side. -/
theorem ditchriderLogUpdatesAndWatchdog : Obligations.DitchriderLogUpdatesAndWatchdog := by
  unfold Obligations.DitchriderLogUpdatesAndWatchdog
  refine ⟨?_, ?_, ?_, ?_, ?_, ?_, ?_, ?_, ?_, ?_, ?_, ?_, ?_, ?_, ?_, ?_, ?_, ?_, ?_, ?_, ?_, ?_, ?_, ?_, ?_, ?_, ?_, ?_, ?_, ?_, ?_, ?_, ?_, ?_, ?_,
    ?_, ?_, ?_, ?_, ?_⟩
  · exact fun pkg env q m hs => leads_eq rfl (loader_idle hs)
  · intro pkg env k q m hs hdone hf hsig hk hrev hlo hhi hmode hlow
    have hv : pkgValid m pkg = true := by simp [pkgValid, hf, hsig, hk, hrev, hlo, hhi]
    have hslot : slotValid (loaderWrote m pkg) 0 = some pkg := by rw [loaderWrote_slot, hv]; rfl
    have hgo := loaderGoes_valid (pkg := pkg) (env := env) hslot (show opMode m ≠ 4 by omega)
    have hdone' : (fon (loaderWrote m pkg) aonBase R.AON_LOAD_DONE || !(loaderWrote m pkg).boot.power) = true := by
      rw [show fon (loaderWrote m pkg) aonBase R.AON_LOAD_DONE = true from hdone]
      rfl
    have hr := runFw_runs (m := loaderWrote m pkg) 0 pkg
    have hreg := faultPin_regs (runFw (loaderWrote m pkg) 0 pkg) false
    refine ⟨_, leads_eq rfl ((loader_goes hs).trans (hgo.trans (if_pos hdone'))), ?_, ?_, ?_, faultPin_low .., ?_⟩
    · exact (fget_of_regs hreg ..).trans hr.state
    · exact (fget_of_regs hreg ..).trans hr.slot
    · exact (fget_of_regs hreg ..).trans hr.version
    · exact (slotValid_of_flash (faultPin_flash (runFw (loaderWrote m pkg) 0 pkg) false) 0).trans hslot
  · intro pkg env q m hs hv
    have hslot : slotValid (loaderWrote m pkg) 0 = none := by rw [loaderWrote_slot, hv]; rfl
    have hrep := updRecord_reportOnly (loaderWrote m pkg) 1 (pkgResult (loaderWrote m pkg) 1 pkg)
    refine ⟨_, leads_eq rfl ((loader_goes hs).trans (loaderGoes_invalid hslot)), ?_, (slotValid_of_flash hrep.flash 0).trans hslot, ?_,
      congrArg Mgmt.upd hrep.mgmt⟩
    · exact ((updRecord_regsBut ..).fget (by decide)).trans hs
    · rw [updRecord_result _ _ (pkgResult_lt ..)]
      exact pkgResult_refused hv
  · intro pkg env q m hs hv hmode hpow hdone
    have hslot : slotValid (loaderWrote m pkg) 0 = some pkg := by rw [loaderWrote_slot, hv]; rfl
    have hgo := loaderGoes_valid (pkg := pkg) (env := env) hslot (show opMode m ≠ 4 by omega)
    have hn : ¬ (fon (loaderWrote m pkg) aonBase R.AON_LOAD_DONE || !(loaderWrote m pkg).boot.power) = true := by
      simp [show fon (loaderWrote m pkg) aonBase R.AON_LOAD_DONE = false from hdone, show (loaderWrote m pkg).boot.power = true from hpow]
    refine leads_eq rfl ((loader_goes hs).trans (hgo.trans ((if_neg hn).trans ?_)))
    rw [show opMode (loaderWrote m pkg) = 0 from hmode]
    rfl
  · exact fun q m hd h => leads_eq rfl ((if_pos hd).trans (logFlush_short h))
  · exact fun q m hd h => leads_eq rfl ((if_pos hd).trans (logFlush_wraps h))
  · exact fun q m hd => leads_eq (f := doLogFlush) rfl (if_neg (by simp [hd]))
  · intro seq boot pers r q m ho h
    have hhit : logHit m seq boot pers = some r := h
    refine ⟨_, leads_eq rfl (gatedReg_open ho _ (doLogRead seq boot pers)), logRead_status.trans (by rw [hhit]; rfl), fun w hw => ?_, logRead_log⟩
    rw [logRead_word (List.mem_range.mp hw), hhit]
    rfl
  · intro seq boot pers q m ho hp hring hheld hseq
    subst hp
    obtain ⟨hst, hw⟩ := logRead_missed (logHit_ring (boot := boot) hring)
    refine ⟨_, leads_eq rfl (gatedReg_open ho _ (doLogRead seq boot false)), hst.trans (if_neg ?_), hw⟩
    simp [logLater, hheld, hseq]
  · intro seq boot pers q m ho hp hring hseq
    subst hp
    obtain ⟨hst, -⟩ := logRead_missed (logHit_ring (boot := boot) hring)
    refine ⟨_, leads_eq rfl (gatedReg_open ho _ (doLogRead seq boot false)), hst.trans (if_pos ?_)⟩
    simp [logLater, hseq]
  · intro seq boot pers q m ho hp hring hboot
    subst hp
    obtain ⟨hst, -⟩ := logRead_missed (logHit_pers hring)
    refine ⟨_, leads_eq rfl (gatedReg_open ho _ (doLogRead seq boot true)), hst.trans (if_pos ?_)⟩
    simp [logLater, hboot]
  · intro seq boot pers q m ho hp hring hboot
    subst hp
    obtain ⟨hst, hw⟩ := logRead_missed (logHit_pers hring)
    refine ⟨_, leads_eq rfl (gatedReg_open ho _ (doLogRead seq boot true)), hst.trans (if_neg ?_), hw⟩
    simp [logLater, Nat.not_lt.mpr (Nat.le_of_lt hboot), Nat.ne_of_gt hboot]
  · exact fun q m hd => leads_eq rfl (if_pos hd)
  · intro r q m hd hheld hce hring hpend
    refine leads_eq rfl ((if_pos hd).trans ?_)
    rw [hheld]
    exact logWrite_joins (m := { m with log := { m.log with held := [] } }) hce hring hpend
  · exact fun q m hd => leads_eq (f := doNoticeQueueDrain) rfl (if_neg (by simp [hd]))
  · exact fun i boot seq pers q m => leads_eq (f := doReadRecords i boot seq pers) rfl rfl
  · exact fun i p f q m hon hk hp hf => leads_eq rfl ((keeperMsg_go hon hk).trans (by rw [svnBlow_both hp hf]))
  · exact fun i q m hon hk => leads_eq rfl (keeperMsg_denied hon hk)
  · intro q m ho hs
    exact leads_eq rfl ((gatedReg_open ho _ _).trans (if_pos (by simp [hs])))
  · exact fun i q m hon => leads_eq rfl (keeperMsg_off hon)
  · exact fun i q m hon hk h => leads_eq rfl ((keeperMsg_go hon hk).trans (by rw [svnBlow_none h]))
  · intro q m ho h
    refine leads_eq rfl ((gatedReg_open ho _ _).trans (if_pos ?_))
    rcases h with h | h <;> simp [h]
  · intro img q m ho hd hb hs hu0 hu1 hd0 hd1 hold
    have hr : ProgReady m img := ⟨hd, hb, hs, Fin.forall_fin_two.mpr ⟨hu0, hu1⟩, Fin.forall_fin_two.mpr ⟨hd0, hd1⟩⟩
    exact ⟨_, leads_eq rfl ((gatedReg_open ho _ _).trans (progact_waits hr hold)), hs, rfl, progBegun_busy m, progBegun_active m 0,
      progBegun_active m 1⟩
  · intro img q m ho hd hb hs hu0 hu1 hd0 hd1 hold
    have hr : ProgReady m img := ⟨hd, hb, hs, Fin.forall_fin_two.mpr ⟨hu0, hu1⟩, Fin.forall_fin_two.mpr ⟨hd0, hd1⟩⟩
    have hm := progEnded_mgmt (progDone m img)
    refine ⟨_, leads_eq rfl ((gatedReg_open ho _ _).trans (progact_swaps hr hold)), ?_, ?_, progEnded_busy _, ?_, ?_⟩
    · rw [hm]
    · rw [hm]
      exact progDone_progact m img
    · exact (progEnded_active _ 0).trans (progDone_active img hold 0)
    · exact (progEnded_active _ 1).trans (progDone_active img hold 1)
  · exact fun t q m hd => leads_eq rfl (if_pos hd)
  · exact fun t q m hd => leads_eq (f := doPhyFirmwareActivation t) rfl (if_neg (by simp [hd]))
  · exact fun q m ho => leads_eq (f := _) rfl (gatedReg_open ho _ _)
  · exact fun env q m h => leads_eq rfl (watchdog_idle h)
  · intro env p s q m hd hs hl hslot hv
    have hw := watchdog_zero (env := env) hd hs hl
    rw [← hslot, slotIf_some hv] at hw
    obtain ⟨hlev, hst, hsl, hver, hev⟩ := wdRestarted_runs (ss := (slotOrder m 3).1) hv (show 1 < 4 by decide)
    exact ⟨_, leads_eq rfl hw, hlev, hst, hsl.trans (Nat.mod_eq_of_lt (hslot ▸ fget_lt ..)), hver, hev⟩
  · intro env p s q m hd hs hl hslot hlt hv
    have hw := watchdog_one (env := env) hd hs hl
    rw [← hslot, if_pos hlt, slotIf_some hv] at hw
    obtain ⟨hlev, hst, hsl, hver, hev⟩ := wdRestarted_runs (ss := slotIf m 2 ++ slotIf m s) hv (show 2 < 4 by decide)
    exact ⟨_, leads_eq rfl hw, hlev, hst, hsl.trans (Nat.mod_eq_of_lt (by omega)), hver, hev⟩
  · intro env q m hd hs hl h0 h1 h2 hslot
    have hnone : ∀ s < 3, slotIf m s = [] := by
      intro s hlt
      interval_cases s
      · exact slotIf_none h0
      · exact slotIf_none h1
      · exact slotIf_none h2
    have hab := slotsAB_none h0 h1
    obtain hl | hl : fget m mgtBase R.MGT_WD_LEVEL = 0 ∨ fget m mgtBase R.MGT_WD_LEVEL = 1 := by omega
    · have hw := watchdog_zero (env := env) hd hs hl
      rw [slotOrder_three, hab, h2, hnone _ hslot] at hw
      obtain ⟨hlev, hst, hlow⟩ := wdRestarted_loader (m := m) (show 1 < 4 by decide)
      exact ⟨_, leads_eq rfl hw, hlev.trans (by rw [hl]), hst, hlow⟩
    · have hw := watchdog_one (env := env) hd hs hl
      rw [hab, hnone 2 (by decide), hnone _ hslot, hnone (1 - _) (by omega), ite_self] at hw
      obtain ⟨hlev, hst, hlow⟩ := wdRestarted_loader (m := m) (show 2 < 4 by decide)
      exact ⟨_, leads_eq rfl hw, hlev.trans (by rw [hl]), hst, hlow⟩
  · intro env q m hd hs hl hwarm
    refine leads_eq rfl ((watchdog_two hd hs hl).trans ((if_pos hwarm).trans ?_))
    rw [wdReport, fget_fset_same]
    rfl
  · intro env q m hd hs hl hwarm
    refine ⟨_, leads_eq rfl ((watchdog_two hd hs hl).trans (if_neg (by simp [hwarm]))), ?_, ?_, ?_⟩
    · rw [fget_wdReport _ (by decide), fget_fset_same]
      rfl
    · rw [fget_wdReport _ (by decide), fget_fset_at _ _ _ _ _ (by decide), fget_fset_same]
      rfl
    · rw [wdReport_events, fget_fset_same]
      rfl
  · exact fun q m h => leads_eq (f := doWatchdogLevelDecay) rfl (if_neg (by simp [h]))
  · exact fun q m h => leads_eq (f := doWatchdogLevelDecay) rfl (if_pos (by simp [h]))
  · intro p q m h h0 h1 h2
    have ho : (slotOrder m 3).1 = [2] := by
      rw [slotOrder_three, slotsAB_none h0 h1, h2]
      rfl
    exact ⟨_, leads_eq rfl rfl, heldRestart_runs h ho h2⟩
  · intro a b s q m h h0 h1 hs
    have hab := slotsAB_both h0 h1
    by_cases hlt : a.version.toNat < b.version.toNat
    · have ho : (slotOrder m 3).1 = 1 :: 0 :: (if (slotValid m 2).isSome then [2] else []) := by
        rw [slotOrder_three, hab, if_pos hlt]
        rfl
      obtain ⟨hst, hsl, -, hlev⟩ := heldRestart_runs h ho h1
      exact ⟨_, leads_eq rfl rfl, hst, hsl.trans (by rw [hs, if_pos hlt]), hlev⟩
    · have ho : (slotOrder m 3).1 = 0 :: 1 :: (if (slotValid m 2).isSome then [2] else []) := by
        rw [slotOrder_three, hab, if_neg hlt]
        rfl
      obtain ⟨hst, hsl, -, hlev⟩ := heldRestart_runs h ho h0
      exact ⟨_, leads_eq rfl rfl, hst, hsl.trans (by rw [hs, if_neg hlt]), hlev⟩
  · intro p s q m h hv hn
    have ho : (slotOrder m 3).1 = s.val :: (if (slotValid m 2).isSome then [2] else []) := by
      rw [slotOrder_three, slotsAB_single hv hn]
      rfl
    obtain ⟨hst, hsl, -, hlev⟩ := heldRestart_runs h ho hv
    exact ⟨_, leads_eq rfl rfl, hst, hsl.trans (Nat.mod_eq_of_lt (by omega)), hlev⟩
  · intro q m h h0 h1 h2
    have ho : (slotOrder m 3).1 = [] := by
      rw [slotOrder_three, slotsAB_none h0 h1, h2]
      rfl
    have hr := heldRestart_go h
    rw [ho] at hr
    refine ⟨_, leads_eq rfl hr, ?_, ?_, fget_fset_same ..⟩
    · exact (fget_fset_at _ _ _ _ _ (by decide)).trans (bootFrom_nil_state _)
    · rw [fset_boot, bootFrom_nil]
      exact faultPin_low _ true
  · exact fun q m h => leads_eq (f := doWatchdogHeldRestart) rfl (if_pos (by simp [h]))
end

section
/-! SUPPORT. What the start of a side leaves alone, and what a returning side takes (R420 to R422, Table 8-12). -/

namespace Sys2Proof.Machine

variable (m : Mach)

/-! ## The start of a side -/

@[simp] theorem lasting_domOn (d : Nat) : lasting (domOn m d) = lasting m := rfl

theorem lasting_restoreTrim (sd : Nat) : lasting (restoreTrim m sd) = lasting m := by
  unfold restoreTrim
  refine (forN_same lasting (fun _ _ => lasting_fset ..) 4 _).trans (foldl_same lasting (fun a t => ?_) m.flash.trim m)
  split
  · split
    · rfl
    · split <;> rfl
  · split <;> rfl
  · split <;> rfl
  · rfl

theorem lasting_bankLoad (sd b base : Nat) (ws : List (Nat × Nat)) : lasting (bankLoad m sd b base ws) = lasting m := rfl

theorem lasting_loadProg (sd base : Nat) (ws : List (Nat × Nat)) (gen : Nat) : lasting (loadProg m sd base ws gen) = lasting m := by
  unfold loadProg
  rw [lasting_fset, lasting_fset, lasting_bankLoad, lasting_bankLoad]

theorem lasting_startSweep (sd : Nat) : lasting (startSweep m sd) = lasting m := by
  unfold startSweep ctlsState
  refine (forN_same lasting (fun i a => ?_) 4 _).trans rfl
  dsimp only
  split
  · rfl
  · rw [lasting_fset]
    split <;> rfl

theorem lasting_eastSet (sd : Nat) (on : Bool) : lasting (eastSet m sd on) = lasting m := by
  unfold eastSet
  refine forN_same lasting (fun i a => ?_) 32 m
  dsimp only
  rw [lasting_fset, lasting_fset]

@[simp] theorem lasting_draw : lasting (draw m) = lasting m := rfl
theorem lasting_rsv (v : Rsv) : lasting { m with rsv := v } = lasting m := rfl
theorem lasting_twin (t : Twin) : lasting { m with twin := t } = lasting m := rfl
theorem lasting_loops (l : Loops) : lasting { m with loops := l } = lasting m := rfl

theorem lasting_startSide (sd : Nat) (img : Option Image) : lasting (startSide m sd img) = lasting m := by
  unfold startSide
  extract_lets +onlyGivenNames m1 m2 m3 m4 m5 m6 m7 m8 m9 m10 k1 v m11 k2 t m12 m13 l m14 m15 m16 vnow m17
  have h1 : lasting m1 = lasting m := lasting_clearSide ..
  clear_value m1
  have h2 : lasting m2 = lasting m1 := lasting_resetRegs ..
  clear_value m2
  have h3 : lasting m3 = lasting m2 := by
    refine foldl_same lasting (fun a d => ?_) _ m2
    simp [apply_ite lasting]
  clear_value m3
  have h4 : lasting m4 = lasting m3 := lasting_forN_gwPut ..
  clear_value m4
  have h5 : lasting m5 = lasting m4 := by
    refine forN_same lasting (fun i a => ?_) 4 m4
    simp [startSide.uplinkPutStart]
  clear_value m5
  have h6 : lasting m6 = lasting m5 := lasting_restoreTrim ..
  clear_value m6
  have h7 : lasting m7 = lasting m6 := by
    dsimp only [m7]
    split
    · exact lasting_loadProg ..
    · exact (lasting_loadProg ..).trans (lasting_draw m6)
  clear_value m7
  have h8 : lasting m8 = lasting m7 := by
    refine forN_same lasting (fun i a => ?_) 4 m7
    simp [apply_ite lasting]
  clear_value m8
  have h9 : lasting m9 = lasting m8 := by
    refine forN_same lasting (fun i a => ?_) 4 m8
    simp [apply_ite lasting]
  clear_value m9
  have h10 : lasting m10 = lasting m9 := lasting_startSweep ..
  clear_value m10
  have h11 : lasting m11 = lasting m10 := (lasting_draw _).trans (lasting_rsv ..)
  clear_value m11
  have h12 : lasting m12 = lasting m11 := (lasting_draw _).trans (lasting_twin ..)
  clear_value m12
  have h13 : lasting m13 = lasting m12 := (lasting_eastSet ..).trans (lasting_slicesState ..)
  clear_value m13
  have h14 : lasting m14 = lasting m13 := lasting_loops ..
  clear_value m14
  have h15 : lasting m15 = lasting m14 := lasting_fset ..
  clear_value m15
  have h16 : lasting m16 = lasting m15 := by
    refine forN_same lasting (fun i a => ?_) 4 m15
    simp [stackStepPut]
  clear_value m16
  have h17 : lasting m17 = lasting m16 := by
    dsimp only [m17]
    rw [lasting_fset, lasting_fset, lasting_draw]
  clear_value m17
  have h18 : lasting (forN 4 (fun i m => startSide.threshStart m (4 * sd + i)) m17) = lasting m17 := by
    refine forN_same lasting (fun i a => ?_) 4 m17
    simp [startSide.threshStart]
  rw [lasting_fset, h18, h17, h16, h15, h14, h13, h12, h11, h10, h9, h8, h7, h6, h5, h4, h3, h2, h1]

/-! ## A placement copy is taken -/

/-- What a side takes depends on the placement copies alone. -/
theorem copyPlc_plc_of {a b : Mach} (h : a.comp.plc = b.comp.plc) (t r : Nat) : (copyPlc a t r).comp.plc = (copyPlc b t r).comp.plc := by
  unfold copyPlc
  rw [h]

theorem plc_of_lasting {a b : Mach} (h : lasting a = lasting b) : a.comp.plc = b.comp.plc := congrArg (fun x => x.2.2) h

theorem sideStart_plc (sd : Nat) : (sideStart m sd).comp.plc = (copyPlc m (1 - sd) sd).comp.plc :=
  copyPlc_plc_of (plc_of_lasting (lasting_startSide m sd (curImage m))) _ _

/-! ## The bridge opens -/

theorem lasting_bridgeOpen : lasting (bridgeOpen m) = lasting m := by
  unfold bridgeOpen
  simp

theorem bridgeOpen_up (sd : Fin 2) : fget (bridgeOpen m) (brgBase sd) R.BRG_STATUS_UP = 1 := by
  unfold bridgeOpen finc
  match sd with
  | 0 =>
    change fget _ (brgBase 0) R.BRG_STATUS_UP = 1
    simp (disch := decide) only [fget_count, fget_fset_other, fget_fset_same]
    rfl
  | 1 =>
    change fget _ (brgBase 1) R.BRG_STATUS_UP = 1
    simp (disch := decide) only [fget_count, fget_fset_other, fget_fset_same]
    rfl

/-! ## A returning side starts, or fails its test -/

/-- The results of a side's test in ERR_BIST. -/
def sideTested (m : Mach) (sd : Fin 2) (ok : Bool) (stk : BitVec 4) : Mach :=
  let bist := fset m aonBase R.ERR_BIST_SIDE_OK (setBit (fget m aonBase R.ERR_BIST_SIDE_OK) sd ok)
  fset bist aonBase R.ERR_BIST_STK_OK (setBits (fget bist aonBase R.ERR_BIST_STK_OK) (4 * sd.val) 4 stk.toNat)

theorem lasting_sideTested (sd : Fin 2) (ok : Bool) (stk : BitVec 4) : lasting (sideTested m sd ok stk) = lasting m := by
  unfold sideTested
  dsimp only
  rw [lasting_fset, lasting_fset]

/-- The reintegration ends with result 3. -/
def sideRefused (m : Mach) (t : Nat) : Mach :=
  modeEnd (fset (fset { m with twin := { m.twin with returning := none } } aonBase R.AON_OPMODE_REINTEG 0) (twnBase t) R.TWN_REINT_STEP 0) 3

/-- Ports that are lost in the serving side's directory are still to be swept in the returning side's. -/
def lostMaskTaken (m : Mach) (sd : Fin 2) (t : Nat) : Mach :=
  forN 32 (fun i m => fset m (hsBase (32 * sd.val + i)) R.DIR_LOST_MASK (fget m (hsBase (32 * t)) R.DIR_LOST_MASK)) m

theorem lasting_lostMaskTaken (sd : Fin 2) (t : Nat) : lasting (lostMaskTaken m sd t) = lasting m := by
  unfold lostMaskTaken
  exact forN_same lasting (fun _ _ => lasting_fset ..) 32 m

/-- The side has started beside the serving side, and the bridge is open. -/
def sideJoined (m : Mach) (sd : Fin 2) (t : Nat) : Mach :=
  fset (bridgeOpen (lostMaskTaken (sideStart m sd) sd t)) (twnBase t) R.TWN_REINT_STEP 2

variable {m} {sd : Fin 2} {ok : Bool} {stk : BitVec 4} {t : Nat}

theorem sideStart_idle (h : m.twin.returning = none) : doSideStart sd ok stk m = m := by
  refine if_pos ?_
  rw [h]
  rfl

theorem sideStart_go (h : m.twin.returning = some sd.val) (ht : t = 1 - sd.val) (hs : fget m (twnBase t) R.TWN_REINT_STEP = 1) :
    doSideStart sd ok stk m = if !ok || stk != 15 then sideRefused (sideTested m sd ok stk) t else sideJoined (sideTested m sd ok stk) sd t := by
  rw [ht] at hs ⊢
  refine if_neg ?_
  rw [h, hs]
  simp

theorem sideRefused_returning (m : Mach) (t : Nat) : (sideRefused m t).twin.returning = none := by rw [sideRefused, modeEnd_twin]; rfl

theorem sideRefused_reinteg (m : Mach) (t : Nat) : fget (sideRefused m t) aonBase R.AON_OPMODE_REINTEG = 0 := by
  rw [sideRefused, fget_modeEnd_other _ _ (by decide) (by decide), fget_fset_twn_aon _ _ _ (by decide), fget_fset_same]
  rfl

theorem sideRefused_step (m : Mach) (t : Nat) : fget (sideRefused m t) (twnBase t) R.TWN_REINT_STEP = 0 := by
  rw [sideRefused, fget_modeEnd_twn, fget_fset_same]
  rfl

theorem sideRefused_result (hb : fon m aonBase R.AON_MODECTL_BUSY = true) (t : Nat) :
    fget (sideRefused m t) aonBase R.AON_MODECTL_RESULT = 3 ∧ fget (sideRefused m t) aonBase R.AON_MODECTL_BUSY = 0 := by
  have hbusy : fget (fset (fset { m with twin := { m.twin with returning := none } } aonBase R.AON_OPMODE_REINTEG 0) (twnBase t) R.TWN_REINT_STEP 0)
      aonBase R.AON_MODECTL_BUSY = 1 := by
    rw [fget_fset_twn_aon _ _ _ (by decide), fget_fset_at _ _ _ _ _ (by decide)]
    exact beq_iff_eq.mp hb
  rw [sideRefused, modeEnd_busy hbusy]
  simp (disch := decide) only [fget_fset_other, fget_fset_same]
  exact ⟨rfl, rfl⟩

theorem sideTested_busy (m : Mach) (sd : Fin 2) (ok : Bool) (stk : BitVec 4) :
    fon (sideTested m sd ok stk) aonBase R.AON_MODECTL_BUSY = fon m aonBase R.AON_MODECTL_BUSY := by
  unfold sideTested fon
  dsimp only
  rw [fget_fset_at _ _ _ _ _ (by decide), fget_fset_at _ _ _ _ _ (by decide)]

theorem sideJoined_plc (m : Mach) (sd : Fin 2) (t : Nat) : (sideJoined m sd t).comp.plc = (copyPlc m (1 - sd) sd).comp.plc := by
  have h : lasting (sideJoined m sd t) = lasting (sideStart m sd) := by
    rw [sideJoined, lasting_fset, lasting_bridgeOpen, lasting_lostMaskTaken]
  rw [← sideStart_plc]
  exact plc_of_lasting h

theorem sideJoined_step (m : Mach) (sd : Fin 2) (t : Nat) : fget (sideJoined m sd t) (twnBase t) R.TWN_REINT_STEP = 2 := by
  rw [sideJoined, fget_fset_same]
  rfl

theorem sideJoined_bridge (m : Mach) (sd : Fin 2) (t : Nat) (s : Fin 2) : fget (sideJoined m sd t) (brgBase s) R.BRG_STATUS_UP = 1 := by
  have hne : (twnBase t + R.TWN_REINT_STEP.off) * 8 + R.TWN_REINT_STEP.lo ≠ (brgBase s + R.BRG_STATUS_UP.off) * 8 + R.BRG_STATUS_UP.lo := by
    have hs := s.isLt
    change (0x1000000 + t * 0x800000 + 0xE0000 + 0x68) * 8 + 0 ≠ (0x1000000 + s.val * 0x800000 + 0xD0000 + 0x40) * 8 + 0
    omega
  rw [sideJoined, fget_fset_other _ _ _ _ _ _ hne]
  exact bridgeOpen_up _ s

end Sys2Proof.Machine
end

section
/-! SUPPORT. The end of a start, of a settings commit, of a feed and of Spillway entry (R219, R420, R425, R440 to R442). -/

namespace Sys2Proof.Machine

variable {m : Mach}

/-! ## The start is Running -/

/-- The sides that can run, as SIDE_UP names them. -/
def goodSides (m : Mach) : Nat := (if bitOf m.boot.bad 0 then 0 else 1) + (if bitOf m.boot.bad 1 then 0 else 2)

/-- The start's timer has ended. -/
def timed (m : Mach) : Mach := { m with boot := { m.boot with timing := false } }

theorem fget_timed (m : Mach) (b : Nat) (f : Fld) : fget (timed m) b f = fget m b f := rfl

/-- The twin logs of both sides are on. -/
def logsOn (m : Mach) : Mach := fset (fset m (twnBase 0) R.TWN_LOG_STATE 1) (twnBase 1) R.TWN_LOG_STATE 1

/-- The mode, the logs and the count of failed starts when a start is Running. -/
def startEnded (m : Mach) (up : Nat) : Mach :=
  let m := setMode m (if up == 3 then 1 else 2) up 0
  let m := if up == 3 then logsOn m else m
  fset (timed m) aonBase R.AON_FS_COUNT_COUNT 0

theorem startRunning_idle (h : m.boot.timing = false) : doStartRunning m = m := if_pos (by simp [h])

/-- A start that may run ends, and fuses are blown at most. -/
theorem startRunning_ends {up : Nat} (hm : opMode m = 0) (ht : m.boot.timing = true) (hl : fon m aonBase R.AON_LOAD_DONE = true)
    (hup : goodSides m = up) (h0 : up ≠ 0) (hw : waitsMem m (if up == 2 then 1 else 0) = false) :
    (doStartRunning m).regs = (startEnded m up).regs ∧ (doStartRunning m).boot = (startEnded m up).boot := by
  have hgo : doStartRunning m = if fon (startEnded m up) mgtBase R.MGT_SEC_SVNAUTO then svnBlow (startEnded m up) else startEnded m up := by
    rw [← hup] at h0 hw ⊢
    refine if_neg ?_
    change ¬ (!(opMode m == 0 && m.boot.timing && fon m aonBase R.AON_LOAD_DONE) || goodSides m == 0 ||
      waitsMem m (if goodSides m == 2 then 1 else 0)) = true
    rw [hw]
    simp [hm, ht, hl, h0]
  rw [hgo]
  split
  · exact ⟨svnBlow_regs _, by unfold svnBlow; split <;> rfl⟩
  · exact ⟨rfl, rfl⟩

theorem startEnded_boot (m : Mach) (up : Nat) : (startEnded m up).boot.timing = false := rfl

theorem startEnded_count (m : Mach) (up : Nat) : fget (startEnded m up) aonBase R.AON_FS_COUNT_COUNT = 0 := by
  rw [startEnded, fget_fset_same]
  rfl

theorem startEnded_three (m : Mach) : startEnded m 3 = fset (timed (logsOn (setMode m 1 3 0))) aonBase R.AON_FS_COUNT_COUNT 0 := rfl
theorem startEnded_two (m : Mach) : startEnded m 2 = fset (timed (setMode m 2 2 0)) aonBase R.AON_FS_COUNT_COUNT 0 := rfl

theorem fget_logsOn_aon (m : Mach) {f : Fld} (hf : f.off * 8 + f.lo < 0x80000) : fget (logsOn m) aonBase f = fget m aonBase f := by
  rw [logsOn, fget_fset_twn_aon _ _ _ hf, fget_fset_twn_aon _ _ _ hf]

/-- With both sides good the module is in Normal mode, with the logs on. -/
theorem startEnded_normal (m : Mach) : opMode (startEnded m 3) = 1 ∧ bothUp (startEnded m 3) = true ∧
    fget (startEnded m 3) aonBase R.AON_OPMODE_CAUSE = 0 ∧ fget (startEnded m 3) (twnBase 0) R.TWN_LOG_STATE = 1 ∧
    fget (startEnded m 3) (twnBase 1) R.TWN_LOG_STATE = 1 := by
  rw [startEnded_three]
  refine ⟨?_, ?_, ?_, ?_, ?_⟩
  · rw [opMode, fget_fset_at _ _ _ _ _ (by decide), fget_timed, fget_logsOn_aon _ (by decide)]
    exact opMode_setMode m 1 3 0
  · rw [bothUp, fget_fset_at _ _ _ _ _ (by decide), fget_timed, fget_logsOn_aon _ (by decide), sideUp_setMode]
    rfl
  · rw [fget_fset_at _ _ _ _ _ (by decide), fget_timed, fget_logsOn_aon _ (by decide), cause_setMode]
  · rw [fget_fset_aon_twn _ _ _ (by decide), fget_timed, logsOn, fget_fset_other _ _ _ _ _ _ (by decide), fget_fset_same]
    rfl
  · rw [fget_fset_aon_twn _ _ _ (by decide), fget_timed, logsOn, fget_fset_same]
    rfl

/-- With one good side the module is in Single-side mode. -/
theorem startEnded_single (m : Mach) : opMode (startEnded m 2) = 2 ∧ fget (startEnded m 2) aonBase R.AON_OPMODE_SIDE_UP = 2 := by
  rw [startEnded_two]
  constructor
  · rw [opMode, fget_fset_at _ _ _ _ _ (by decide), fget_timed]
    exact opMode_setMode m 2 2 0
  · rw [fget_fset_at _ _ _ _ _ (by decide), fget_timed, sideUp_setMode]

/-! ## A settings commit ends -/

/-- The counters of MGT, and no commit runs. -/
def commitCounted (m : Mach) (c : CommitOp) (ok : Bool) : Mach :=
  count { m with boot := { m.boot with commit := none, lastCommit := some (b2n (!ok), c.img.seq) } } mgtBase 3

/-- The slot is written where its readback is valid. -/
def commitStored (m : Mach) (c : CommitOp) (ok : Bool) : Mach :=
  if ok then { m with flash := { m.flash with slots := mput m.flash.slots c.slot c.img } } else m

/-- The slot is no longer being written. -/
def commitShown (m : Mach) (c : CommitOp) (ok : Bool) : Mach :=
  let m := fset (setimgPut m) (8 * c.slot) R.AON_SETIMG_WRITING 0
  if ok then fset m mgtBase R.MGT_UPD_PROGPEND (b2n (ok && m.mgmt.staged.isSome)) else m

/-- The engine that waits for the commit learns its end. -/
def commitTold (m : Mach) (c : CommitOp) (ok : Bool) : Mach :=
  let x := engOf m c.eng
  if x.p == some (progW 0 1) then engSet m c.eng { x with commit := some (b2n (!ok), c.img.seq) } else m

theorem commitComplete_none {ok : Bool} (h : m.boot.commit = none) : doSettingsCommitComplete ok m = m := by
  rw [doSettingsCommitComplete, h]

theorem commitComplete_some {ok : Bool} {c : CommitOp} (h : m.boot.commit = some c) :
    doSettingsCommitComplete ok m = commitTold (commitShown (commitStored (commitCounted m c ok) c ok) c ok) c ok := by
  rw [doSettingsCommitComplete, h]
  rfl

theorem setimgPut_boot (m : Mach) : (setimgPut m).boot = m.boot := forN_same Mach.boot (fun _ _ => by simp only [fset_boot]) 2 m
theorem setimgPut_flash (m : Mach) : (setimgPut m).flash = m.flash := forN_same Mach.flash (fun _ _ => by simp only [fset_flash]) 2 m

theorem commitTold_same {β : Type} (q : Mach → β) (hq : ∀ m e, q { m with eng := e } = q m) (m : Mach) (c : CommitOp) (ok : Bool) :
    q (commitTold m c ok) = q m := by
  unfold commitTold
  dsimp only
  split
  · exact hq m _
  · rfl

theorem commitShown_boot (m : Mach) (c : CommitOp) (ok : Bool) : (commitShown m c ok).boot = m.boot := by
  unfold commitShown
  dsimp only
  split
  · rw [fset_boot, fset_boot, setimgPut_boot]
  · rw [fset_boot, setimgPut_boot]

theorem commitShown_flash (m : Mach) (c : CommitOp) (ok : Bool) : (commitShown m c ok).flash = m.flash := by
  unfold commitShown
  dsimp only
  split
  · rw [fset_flash, fset_flash, setimgPut_flash]
  · rw [fset_flash, setimgPut_flash]

/-- PROGPEND lies in no bit that WRITING of any slot lies in. -/
theorem commitShown_writing (m : Mach) (c : CommitOp) (ok : Bool) : fget (commitShown m c ok) (8 * c.slot) R.AON_SETIMG_WRITING = 0 := by
  have hne : (mgtBase + R.MGT_UPD_PROGPEND.off) * 8 + R.MGT_UPD_PROGPEND.lo ≠
      (8 * c.slot + R.AON_SETIMG_WRITING.off) * 8 + R.AON_SETIMG_WRITING.lo := by
    change (0x10000 + 0x50) * 8 + 3 ≠ (8 * c.slot + 0x118) * 8 + 33
    omega
  have hw : fget (fset (setimgPut m) (8 * c.slot) R.AON_SETIMG_WRITING 0) (8 * c.slot) R.AON_SETIMG_WRITING = 0 := by
    rw [fget_fset_same]
    rfl
  unfold commitShown
  cases ok with
  | false => exact hw
  | true => exact (fget_fset_other _ _ _ _ _ _ hne).trans hw

theorem commitStored_boot (m : Mach) (c : CommitOp) (ok : Bool) : (commitStored m c ok).boot = m.boot := by
  cases ok <;> rfl

theorem commitStored_slots (m : Mach) (c : CommitOp) (ok : Bool) :
    (commitStored m c ok).flash.slots = if ok then mput m.flash.slots c.slot c.img else m.flash.slots := by
  cases ok <;> rfl

theorem count_flash (m : Mach) (b c n : Nat) : (count m b c n).flash = m.flash := count_same Mach.flash (fun _ _ _ _ => rfl) m b c n

theorem commitCounted_commit (m : Mach) (c : CommitOp) (ok : Bool) : (commitCounted m c ok).boot.commit = none := by
  rw [commitCounted, count_boot]

theorem commitCounted_flash (m : Mach) (c : CommitOp) (ok : Bool) : (commitCounted m c ok).flash = m.flash := by
  rw [commitCounted, count_flash]

/-- What the end of a commit leaves of the commit, the slots and WRITING. -/
theorem commitComplete_leaves {ok : Bool} {c : CommitOp} (h : m.boot.commit = some c) :
    (doSettingsCommitComplete ok m).boot.commit = none ∧
    (doSettingsCommitComplete ok m).flash.slots = (if ok then mput m.flash.slots c.slot c.img else m.flash.slots) ∧
    fget (doSettingsCommitComplete ok m) (8 * c.slot) R.AON_SETIMG_WRITING = 0 := by
  rw [commitComplete_some h]
  refine ⟨?_, ?_, ?_⟩
  · rw [commitTold_same Mach.boot (fun _ _ => rfl), commitShown_boot, commitStored_boot, commitCounted_commit]
  · rw [commitTold_same Mach.flash (fun _ _ => rfl), commitShown_flash, commitStored_slots, commitCounted_flash]
  · rw [commitTold_same (fun m => fget m (8 * c.slot) R.AON_SETIMG_WRITING) (fun _ _ => rfl), commitShown_writing]

/-! ## Feeds -/

/-- A feed is lost: its flag, its count and the record. -/
def feedGone (m : Mach) (feed : Fin 2) : Mach :=
  eventRecord (fsat (fset (fset m (8 * feed.val) R.PWR_FEED_PRESENT 0) (8 * feed.val) R.PWR_FEED_LOST 1) (8 * feed.val) R.PWR_FEED_LOSSES)
    2 0 1 feed 0 []

/-- The hold-up begins. -/
def heldUpBegun (m : Mach) : Mach :=
  (fun y : Mach => { y with boot := { y.boot with holdUp := true } }) (logFlush (loseDomains (startFailed m)))

theorem feedLost_idle {feed : Fin 2} (h : fon m (8 * feed) R.PWR_FEED_PRESENT = false) : doFeedLost feed m = m := if_pos (by simp [h])

theorem feedLost_go {feed : Fin 2} (h : fon m (8 * feed) R.PWR_FEED_PRESENT = true) : doFeedLost feed m =
    if fon (feedGone m feed) 0 R.PWR_FEED_PRESENT || fon (feedGone m feed) 8 R.PWR_FEED_PRESENT then feedGone m feed
    else heldUpBegun (feedGone m feed) := by
  unfold doFeedLost
  rw [if_neg (by simp [h])]
  extract_lets m1 m2
  have e : m2 = feedGone m feed := rfl
  clear_value m2
  rw [← e]
  dsimp only [heldUpBegun]

theorem feedGone_fget (m : Mach) (feed : Fin 2) (b : Nat) (h : fkey b R.PWR_FEED_PRESENT ≠ dropKey) :
    fget (feedGone m feed) b R.PWR_FEED_PRESENT = fget (fsat (fset (fset m (8 * feed.val) R.PWR_FEED_PRESENT 0) (8 * feed.val) R.PWR_FEED_LOST 1)
      (8 * feed.val) R.PWR_FEED_LOSSES) b R.PWR_FEED_PRESENT := fget_eventRecord _ _ _ _ _ _ _ b _ h

theorem feedGone_same (m : Mach) (feed : Fin 2) : fget (feedGone m feed) (8 * feed) R.PWR_FEED_PRESENT = 0 := by
  have hd : fkey (8 * feed.val) R.PWR_FEED_PRESENT ≠ dropKey := by
    change (8 * feed.val + 0x3110) * 8 + 20 ≠ (0x10000 + 0x70) * 8 + 32
    omega
  rw [feedGone_fget _ _ _ hd, fsat, fget_fset_at _ _ _ _ _ (by decide), fget_fset_at _ _ _ _ _ (by decide), fget_fset_same]
  rfl

theorem feedGone_other (m : Mach) (feed : Fin 2) :
    fget (feedGone m feed) (8 * (1 - feed.val)) R.PWR_FEED_PRESENT = fget m (8 * (1 - feed.val)) R.PWR_FEED_PRESENT := by
  have hd : fkey (8 * (1 - feed.val)) R.PWR_FEED_PRESENT ≠ dropKey := by
    change (8 * (1 - feed.val) + 0x3110) * 8 + 20 ≠ (0x10000 + 0x70) * 8 + 32
    omega
  have hne (f : Fld) (ho : f.off = 0x3110) (hl : f.lo < 64) : (8 * feed.val + f.off) * 8 + f.lo ≠
      (8 * (1 - feed.val) + R.PWR_FEED_PRESENT.off) * 8 + R.PWR_FEED_PRESENT.lo := by
    rw [ho]
    change _ ≠ (8 * (1 - feed.val) + 0x3110) * 8 + 20
    omega
  rw [feedGone_fget _ _ _ hd, fsat, fget_fset_other _ _ _ _ _ _ (hne _ rfl (by decide)), fget_fset_other _ _ _ _ _ _ (hne _ rfl (by decide)),
    fget_fset_other _ _ _ _ _ _ (hne _ rfl (by decide))]

/-- After the loss of a feed, the other feed is the only one that can be present. -/
theorem feedGone_any (m : Mach) (feed : Fin 2) :
    (fon (feedGone m feed) 0 R.PWR_FEED_PRESENT || fon (feedGone m feed) 8 R.PWR_FEED_PRESENT) = fon m (8 * (1 - feed.val)) R.PWR_FEED_PRESENT := by
  have h := feedGone_same m feed
  have h' := feedGone_other m feed
  revert h h'
  generalize feedGone m feed = a
  match feed with
  | 0 =>
    intro (h : fget a 0 R.PWR_FEED_PRESENT = 0) (h' : fget a 8 R.PWR_FEED_PRESENT = fget m 8 R.PWR_FEED_PRESENT)
    change (fget a 0 _ == 1 || fget a 8 _ == 1) = (fget m 8 _ == 1)
    rw [h, h']
    rfl
  | 1 =>
    intro (h : fget a 8 R.PWR_FEED_PRESENT = 0) (h' : fget a 0 R.PWR_FEED_PRESENT = fget m 0 R.PWR_FEED_PRESENT)
    change (fget a 0 _ == 1 || fget a 8 _ == 1) = (fget m 0 _ == 1)
    rw [h, h']
    exact Bool.or_false _

/-! ## Spillway entry -/

/-- A transition of a level ends, if the level drains. -/
def drainEnded (m : Mach) (s : Nat) (l : Level) : Mach := if levelOf m s l == 1 then levelWt (levelEnd m s l 2) s else m

/-- The controllers, slices and twin log of a side in Spillway mode. -/
def spillShown (m : Mach) (s : Nat) : Mach :=
  fset (fset (ctlsState (slicesState m s 3) s 4) (twnBase s) R.TWN_GAUGE_CLEANING 0) (twnBase s) R.TWN_LOG_STATE 0

/-- Headgate, victim buffers and Reservoir of a side are empty. -/
def spillDropped (m : Mach) (s : Nat) : Mach :=
  { m with home := { m.home with hg := mdrop m.home.hg (fun k => k / 49152 / 32 == s), wb := m.home.wb.filter fun e => e.h / 32 != s }
           rsv := { m.rsv with slots := mdrop m.rsv.slots (fun k => k / 2 ^ 31 == s) } }

/-- A serving side goes over to Spillway mode. -/
def spillSide (m : Mach) (s : Nat) : Mach := drainEnded (drainEnded (spillDropped (spillShown m s) s) s .headgate) s .reservoir

theorem spillEnter_eq (m : Mach) : spillEnter m = setMode ((upSides m).foldl spillSide m) 3
    (fget ((upSides m).foldl spillSide m) aonBase R.AON_OPMODE_SIDE_UP) 2 := rfl

/-- A cell that no twin log's state lies in. -/
def notLogState (k : Nat) : Prop := k / 8 % 0x1000 ≠ 0x60

theorem notLogState_of {b : Nat} {f : Fld} (hb : b % 0x1000 = 0) (hf : (f.off + f.lo / 8) % 0x1000 ≠ 0x60) : notLogState (fkey b f) := by
  unfold notLogState fkey
  omega

theorem cctlBase_aligned (s : Nat) : cctlBase s % 0x1000 = 0 := by
  unfold cctlBase rgeBase sideBase
  omega

theorem slicesState_regsBut (m : Mach) (s st : Nat) : RegsBut notLogState m (slicesState m s st) := by
  unfold slicesState
  refine .forN (fun i _ a => (RegsBut.refl a).fset (notLogState_of ?_ (by decide)) _) (.refl m)
  unfold hsBase sideBase
  omega

theorem ctlsState_regsBut (m : Mach) (s st : Nat) : RegsBut notLogState m (ctlsState m s st) := by
  have hb (i : Nat) : rsvBase (4 * s + i) % 0x1000 = 0 := by
    unfold rsvBase sideBase
    omega
  unfold ctlsState
  refine .forN (fun i _ a => .ite (.refl a) (.fset (.ite (.fset (.refl a) ?_ _) (.refl a)) ?_ _)) (.refl m)
  · exact notLogState_of (hb i) (by decide)
  · exact notLogState_of (hb i) (by decide)

theorem drainEnded_regsBut (m : Mach) (s : Nat) (l : Level) : RegsBut notLogState m (drainEnded m s l) := by
  have hb := cctlBase_aligned s
  have hl : (levelFld l).off = 0x808 ∧ (levelFld l).lo / 8 = 0 := by cases l <;> decide
  unfold drainEnded
  refine .ite (.fset (.fset (.fset (.fset (.refl m) ?_ _) ?_ _) ?_ _) ?_ _) (.refl m)
  · exact notLogState_of hb (by rw [hl.1, hl.2]; decide)
  all_goals exact notLogState_of hb (by decide)

theorem spillShown_regsBut (m : Mach) (s : Nat) :
    RegsBut (fun k => notLogState k ∨ k = fkey (twnBase s) R.TWN_LOG_STATE) m (spillShown m s) := by
  have hb : twnBase s % 0x1000 = 0 := by
    unfold twnBase sideBase
    omega
  unfold spillShown
  refine .fset (.fset (((slicesState_regsBut m s 3).trans (ctlsState_regsBut _ s 4)).mono fun _ hk => .inl hk) (.inl ?_) _) (.inr rfl) _
  exact notLogState_of hb (by decide)

theorem logState_kept (s : Nat) : ¬ notLogState (fkey (twnBase s) R.TWN_LOG_STATE) := by
  have hb : twnBase s % 0x1000 = 0 := by
    unfold twnBase sideBase
    omega
  have ho : R.TWN_LOG_STATE.off = 0x60 := rfl
  have hl : R.TWN_LOG_STATE.lo = 0 := rfl
  unfold notLogState fkey
  rw [ho, hl]
  omega

theorem logState_inj {s j : Nat} (h : fkey (twnBase j) R.TWN_LOG_STATE = fkey (twnBase s) R.TWN_LOG_STATE) : j = s := by
  unfold fkey twnBase sideBase at h
  omega

theorem spillDropped_regs (m : Mach) (s : Nat) : (spillDropped m s).regs = m.regs := rfl

theorem spillSide_logState (m : Mach) (s j : Nat) : fget (spillSide m s) (twnBase j) R.TWN_LOG_STATE =
    if j = s then 0 else fget m (twnBase j) R.TWN_LOG_STATE := by
  rw [spillSide, (drainEnded_regsBut ..).fget (logState_kept j), (drainEnded_regsBut ..).fget (logState_kept j),
    fget_of_regs (spillDropped_regs ..)]
  split
  · rename_i h
    rw [h, spillShown, fget_fset_same]
    rfl
  · rename_i h
    exact (spillShown_regsBut m s).fget (not_or.mpr ⟨logState_kept j, fun he => h (logState_inj he)⟩)

theorem ctlsState_rsv (m : Mach) (s st : Nat) : (ctlsState m s st).rsv = m.rsv := by
  unfold ctlsState
  refine forN_same Mach.rsv (fun i a => ?_) 4 m
  simp [apply_ite Mach.rsv]

theorem slicesState_rsv (m : Mach) (s st : Nat) : (slicesState m s st).rsv = m.rsv := by
  unfold slicesState
  exact forN_same Mach.rsv (fun _ _ => fset_rsv ..) 32 m

theorem drainEnded_rsv (m : Mach) (s : Nat) (l : Level) : (drainEnded m s l).rsv = m.rsv := by
  unfold drainEnded
  split
  · rw [levelWt, fset_rsv, levelEnd, finc, fset_rsv, fset_rsv, fset_rsv]
  · rfl

theorem spillDropped_rsv (m : Mach) (s : Nat) :
    (spillDropped m s).rsv = { m.rsv with slots := mdrop m.rsv.slots (fun k => k / 2 ^ 31 == s) } := rfl

theorem spillSide_rsv (m : Mach) (s : Nat) : (spillSide m s).rsv = { m.rsv with slots := mdrop m.rsv.slots (fun k => k / 2 ^ 31 == s) } := by
  have h : (spillShown m s).rsv = m.rsv := by rw [spillShown, fset_rsv, fset_rsv, ctlsState_rsv, slicesState_rsv]
  rw [spillSide, drainEnded_rsv, drainEnded_rsv, spillDropped_rsv, h]

theorem spillSide_slotAt (m : Mach) (s j : Nat) {k : Nat} (hk : k < 2 ^ 31) :
    slotAt (spillSide m s) j k = if j = s then none else slotAt m j k := by
  have hdiv : (j * 2 ^ 31 + k) / 2 ^ 31 = j := by omega
  unfold slotAt
  rw [spillSide_rsv]
  unfold mdrop
  split
  · rename_i h
    exact mget_filter_dropped _ (fun k => !(k / 2 ^ 31 == s)) (by rw [hdiv, h]; simp)
  · rename_i h
    exact mget_filter _ (fun k => !(k / 2 ^ 31 == s)) (by rw [hdiv]; simpa using h)

/-- A property of each element that its own step gives and every step keeps. -/
theorem foldl_each {α β : Type} {f : α → β → α} {P : β → α → Prop} (hself : ∀ a x, P x (f a x)) (hkeep : ∀ a x y, P x a → P x (f a y))
    (l : List β) (a : α) {x : β} (hx : x ∈ l) : P x (l.foldl f a) := by
  have hfold (l : List β) : ∀ a, P x a → P x (l.foldl f a) := by
    induction l with
    | nil => exact fun a h => h
    | cons y l ih => exact fun a h => ih _ (hkeep a x y h)
  induction l generalizing a with
  | nil => exact absurd hx List.not_mem_nil
  | cons y l ih =>
    rw [List.foldl_cons]
    rcases List.mem_cons.mp hx with rfl | h
    · exact hfold l _ (hself a x)
    · exact ih _ h

/-- Nothing is left of a side's log and Reservoir. -/
def spilled (s : Nat) (m : Mach) : Prop := fget m (twnBase s) R.TWN_LOG_STATE = 0 ∧ ∀ k < 2 ^ 31, slotAt m s k = none

theorem spillSides_spilled (m : Mach) (l : List Nat) {s : Nat} (hs : s ∈ l) : spilled s (l.foldl spillSide m) := by
  refine foldl_each (P := spilled) (fun a x => ⟨?_, fun k hk => ?_⟩) (fun a x y h => ⟨?_, fun k hk => ?_⟩) l m hs
  · rw [spillSide_logState, if_pos rfl]
  · rw [spillSide_slotAt a x x hk, if_pos rfl]
  · rw [spillSide_logState, h.1, ite_self]
  · rw [spillSide_slotAt a y x hk, h.2 k hk, ite_self]

theorem setMode_rsv (m : Mach) (mode up c : Nat) : (setMode m mode up c).rsv = m.rsv := by
  simp [setMode, apply_ite Mach.rsv, notice, finc]

theorem modeEnd_rsv (m : Mach) (r : Nat) : (modeEnd m r).rsv = m.rsv := by
  simp [modeEnd, apply_ite Mach.rsv]

theorem spillEnter_boot (m : Mach) : (spillEnter m).boot = m.boot := by
  have hctl (a : Mach) (s : Nat) : (ctlsState a s 4).boot = a.boot := by
    unfold ctlsState
    refine forN_same Mach.boot (fun i b => ?_) 4 a
    simp [apply_ite Mach.boot]
  have hsl (a : Mach) (s : Nat) : (slicesState a s 3).boot = a.boot := by
    unfold slicesState
    exact forN_same Mach.boot (fun _ _ => fset_boot ..) 32 a
  have hend (a : Mach) (s : Nat) (l : Level) : (drainEnded a s l).boot = a.boot := by
    unfold drainEnded
    split
    · rw [levelWt, fset_boot, levelEnd, finc_boot, fset_boot, fset_boot]
    · rfl
  have hdrop (a : Mach) (s : Nat) : (spillDropped a s).boot = a.boot := rfl
  rw [spillEnter_eq, setMode_boot]
  refine foldl_same Mach.boot (fun a s => ?_) _ m
  rw [spillSide, hend, hend, hdrop, spillShown, fset_boot, fset_boot, hctl, hsl]

theorem spillEnd_idle {env : StartEnv} (h : spillDone m = false) : doSpillwayEntryComplete env m = m := if_pos (by simp [h])

/-- What follows Spillway entry is what asked for it. -/
theorem spillEnd_go {env : StartEnv} (h : spillDone m = true) : doSpillwayEntryComplete env m =
    let m' := if m.boot.toRecovery then spillEnter m else modeEnd (spillEnter m) 0
    if m.boot.orderly then warmReset m' env 4 else if m.boot.toRecovery then enterRecovery m' 2 else m' := by
  have hb := spillEnter_boot m
  have hm : doSpillwayEntryComplete.modeEnd' (spillEnter m) = if m.boot.toRecovery then spillEnter m else modeEnd (spillEnter m) 0 := by
    rw [doSpillwayEntryComplete.modeEnd', hb]
  have hb' : (doSpillwayEntryComplete.modeEnd' (spillEnter m)).boot = m.boot := by
    rw [hm]
    split
    · exact hb
    · rw [modeEnd_boot, hb]
  unfold doSpillwayEntryComplete
  rw [if_neg (by simp [h])]
  dsimp only
  rw [hb', hm]

/-- Spillway mode, on every serving side. -/
theorem spillEntered (m : Mach) : opMode (modeEnd (spillEnter m) 0) = 3 ∧ fget (modeEnd (spillEnter m) 0) aonBase R.AON_OPMODE_CAUSE = 2 ∧
    ∀ s ∈ upSides m, fget (modeEnd (spillEnter m) 0) (twnBase s) R.TWN_LOG_STATE = 0 ∧ ∀ k < 2 ^ 31, slotAt (modeEnd (spillEnter m) 0) s k = none := by
  rw [spillEnter_eq]
  refine ⟨?_, ?_, fun s hs => ?_⟩
  · rw [opMode, fget_modeEnd_other _ _ (by decide) (by decide)]
    exact opMode_setMode _ 3 _ 2
  · rw [fget_modeEnd_other _ _ (by decide) (by decide), cause_setMode]
  · obtain ⟨hlog, hslot⟩ := spillSides_spilled m (upSides m) hs
    refine ⟨?_, fun k hk => ?_⟩
    · rw [fget_modeEnd_twn, fget_setMode_other _ _ _ _ (twn_not_setMode s _), hlog]
    · unfold slotAt
      rw [modeEnd_rsv, setMode_rsv]
      exact hslot k hk

/-! ## An orderly reset -/

section
variable {env : StartEnv} (hp : m.boot.power = true) (hb : fon m aonBase R.RST_CTL_BUSY = false)
include hp hb

/-- Where no dirty line can remain, an orderly reset follows at once. -/
theorem orderlyReset_atOnce (h1 : opMode m ≠ 1) (h2 : opMode m ≠ 2) : doOrderlyModuleWarmReset env m = warmReset m env 4 :=
  (if_neg (by simp [hp, hb])).trans (if_neg (by simp [h1, h2]))

/-- In a serving mode an orderly reset asks for Spillway entry. -/
theorem orderlyReset_spills (hm : opMode m = 1 ∨ opMode m = 2) (hr : m.twin.returning = none) (hs : m.twin.stopping = none)
    (he : m.twin.entering = false) : doOrderlyModuleWarmReset env m =
      spillBegin (fset { m with boot := { m.boot with orderly := true } } aonBase R.RST_CTL_BUSY 1) :=
  (if_neg (by simp [hp, hb])).trans ((if_pos (by simpa using hm)).trans ((if_neg (by simp [hr, hs])).trans (if_neg (by simp [he]))))

end

end Sys2Proof.Machine
end

section
/-! The settling of O51. -/

open Sys2Proof Sys2Proof.Machine

/-- Settles O51: most clauses read the guard of one command; the starts, the joining side, the commit and Spillway entry rest on what their parts leave
alone. -/
theorem resetsStartsAndFeeds : Obligations.ResetsStartsAndFeeds := by
  unfold Obligations.ResetsStartsAndFeeds
  refine ⟨?_, ?_, ?_, ?_, ?_, ?_, ?_, ?_, ?_, ?_, ?_, ?_, ?_, ?_, ?_, ?_, ?_, ?_, ?_, ?_, ?_, ?_, ?_, ?_, ?_, ?_, ?_, ?_, ?_, ?_, ?_, ?_, ?_, ?_, ?_,
    ?_⟩
  · exact fun feed env q m hp => leads_eq (f := doPowerOn feed env) rfl (if_neg (by simp [hp]))
  · exact fun feed env q m hp => leads_eq (f := doPowerOn feed env) rfl (if_pos hp)
  · exact fun us env q m hh => leads_eq (f := doMrstRelease us env) rfl (if_pos hh)
  · intro us env q m hh hp hu hlo hhi
    exact leads_eq (f := doMrstRelease us env) rfl ((if_neg (by simp [hh])).trans (if_pos (by simp [hp, hu, hlo, hhi])))
  · intro us env q m hh hlo
    exact leads_eq (f := doMrstRelease us env) rfl ((if_neg (by simp [hh])).trans (if_neg (by simp [Nat.not_le.mpr hlo])))
  · exact fun q m hp hh hu => leads_eq (f := doMrstHeld) rfl (if_neg (by simp [hp, hh, hu]))
  · exact fun env q m ht hm hu => leads_eq (f := doStartTimeout env) rfl (if_pos (by simp [ht, hm, hu]))
  · exact fun env q m hm => leads_eq (f := doStartTimeout env) rfl (if_neg (by simp [hm]))
  · intro q m hm ht hl hb hw
    obtain ⟨hr, hboot⟩ := startRunning_ends (up := 3) hm ht hl (by rw [goodSides, hb]; rfl) (by decide) hw
    obtain ⟨hmode, hup, hcause, hl0, hl1⟩ := startEnded_normal m
    refine ⟨_, leads_eq rfl rfl, (fget_of_regs hr ..).trans hmode, ?_, (fget_of_regs hr ..).trans hcause, (fget_of_regs hr ..).trans hl0,
      (fget_of_regs hr ..).trans hl1, (fget_of_regs hr ..).trans (startEnded_count m 3), (congrArg Boot.timing hboot).trans (startEnded_boot m 3)⟩
    rw [bothUp, fget_of_regs hr]
    exact hup
  · intro q m hm ht hl hb hw
    obtain ⟨hr, hboot⟩ := startRunning_ends (up := 2) hm ht hl (by rw [goodSides, hb]; rfl) (by decide) hw
    obtain ⟨hmode, hup⟩ := startEnded_single m
    exact ⟨_, leads_eq rfl rfl, (fget_of_regs hr ..).trans hmode, (fget_of_regs hr ..).trans hup, (fget_of_regs hr ..).trans (startEnded_count m 2),
      (congrArg Boot.timing hboot).trans (startEnded_boot m 2)⟩
  · exact fun q m ht => leads_eq rfl (startRunning_idle ht)
  · intro sd stk t q m hr ht hs
    refine ⟨_, leads_eq rfl ((sideStart_go hr ht hs).trans (if_pos rfl)), sideRefused_returning .., sideRefused_reinteg .., sideRefused_step .., ?_⟩
    exact fun hb => sideRefused_result ((sideTested_busy ..).trans hb) t
  · intro sd t q m hr ht hs
    refine ⟨_, leads_eq rfl ((sideStart_go hr ht hs).trans (if_neg (by decide))), ?_, ?_, sideJoined_bridge _ sd t sd, sideJoined_step ..⟩
    · rw [sideJoined_plc, ← ht]
      exact copyPlc_plc_of (plc_of_lasting (lasting_sideTested m sd true 15)) t sd
    · rw [ht]
      exact sideJoined_bridge _ sd _ ⟨1 - sd.val, by omega⟩
  · exact fun sd ok stk q m hr => leads_eq rfl (sideStart_idle hr)
  · intro c q m hc
    obtain ⟨hcom, hslots, hw⟩ := commitComplete_leaves (ok := true) hc
    exact ⟨_, leads_eq rfl rfl, hcom, hslots, hw⟩
  · intro c q m hc
    obtain ⟨hcom, hslots, hw⟩ := commitComplete_leaves (ok := false) hc
    exact ⟨_, leads_eq rfl rfl, hcom, hslots, hw⟩
  · exact fun ok q m hc => leads_eq rfl (commitComplete_none hc)
  · exact fun feed env q m hp hu => leads_eq (f := doFeedPresent feed env) rfl ((if_neg (by simp [hp])).trans (if_pos hu))
  · exact fun feed env q m hp hu => leads_eq (f := doFeedPresent feed env) rfl ((if_neg (by simp [hp])).trans (if_neg (by simp [hu])))
  · exact fun feed q m hf ho => leads_eq rfl ((feedLost_go hf).trans (if_pos ((feedGone_any m feed).trans ho)))
  · intro feed q m hf ho
    have hn : ¬ (fon (feedGone m feed) 0 R.PWR_FEED_PRESENT || fon (feedGone m feed) 8 R.PWR_FEED_PRESENT) = true := by
      rw [feedGone_any, ho]
      decide
    refine leads_eq rfl (((feedLost_go hf).trans (if_neg hn)).trans ?_)
    rw [heldUpBegun, feedGone]
  · exact fun feed q m hf => leads_eq rfl (feedLost_idle hf)
  · exact fun q m hu => leads_eq (f := doHoldUpEnd) rfl (if_pos hu)
  · exact fun q m hu => leads_eq (f := doHoldUpEnd) rfl (if_neg (by simp [hu]))
  · exact fun env q m h => leads_eq rfl (spillEnd_idle h)
  · intro env q m h hr ho
    obtain ⟨hmode, hcause, hsides⟩ := spillEntered m
    refine ⟨modeEnd (spillEnter m) 0, leads_eq rfl ((spillEnd_go h).trans ?_), hmode, hcause, hsides⟩
    simp only [hr, ho, Bool.false_eq_true, if_false]
  · intro env q m h hr ho
    refine leads_eq rfl ((spillEnd_go h).trans ?_)
    simp only [hr, ho, Bool.false_eq_true, if_false, if_true]
  · intro env q m h hr ho
    refine leads_eq rfl ((spillEnd_go h).trans ?_)
    simp only [hr, ho, Bool.false_eq_true, if_false, if_true]
  · intro env q m hp hb hm hr hs he
    exact leads_eq rfl (orderlyReset_spills hp hb (.inl hm) hr hs he)
  · intro env q m hp hb hm
    exact leads_eq rfl (orderlyReset_atOnce hp hb (by omega) (by omega))
  · exact fun env q m hp hb => leads_eq (f := doImmediateModuleWarmReset env) rfl (if_neg (by simp [hp, hb]))
  · exact fun env q m hp hb => leads_eq (f := doImmediateModuleWarmReset env) rfl (if_pos (by simp [hb]))
  · exact fun env q m hp hb => leads_eq (f := doColdResetRequest env) rfl (if_neg (by simp [hp, hb]))
  · intro env q m hp hb hm
    exact leads_eq (f := doRecoveryExit env) rfl ((if_neg (by simp [hp, hb])).trans (if_pos (by simp [hm])))
  · intro env q m hp hb hm
    exact leads_eq (f := doRecoveryExit env) rfl ((if_neg (by simp [hp, hb])).trans (if_neg (by simp [hm])))
  · exact fun q m => leads_eq (f := doClr) rfl rfl
end
